-- ==== Sys2Proof/Word.lean ====
section
/-! DEFINITION. The word types of the block: bytes, sparse tables kept in one canonical form, and the few
plain arithmetic words every other file uses. -/
namespace Sys2Proof

/-- One byte of a packet, a record or a memory. -/
abbrev Byte := BitVec 8

/-- A string of bytes, first byte first. -/
abbrev Bytes := List Byte

/-- Sparse data by key: strictly rising keys, no entry equal to what an unlisted key reads as
(`Machine.Table.wf`). -/
abbrev Table (β : Type) := List (Nat × β)

/-- The largest value of an unsigned word of `w` bits. -/
abbrev maxU (w : Nat) : Nat := 2 ^ w - 1

end Sys2Proof
end

