-- ==== Sys2Proof/Syntax.lean ====
section
/-! DEFINITION. The commands of the block: one constructor of `Instr` for each row of opcode_table.json, in the table's
order, with the operands the row's rules give it. An event of the outside world carries what it presents at the
device's pins (a packet, a level, a measurement); an event of the device carries which unit it befalls. -/
namespace Sys2Proof

/-- Bit errors of a PRBS checker since its lock, and those of the last 1,024 bits among them (R119). -/
structure ErrorCount where
  total : Nat
  recent : Nat
  deriving DecidableEq, Repr

/-- The sizes the host programs at link training: the largest payload and the largest read request, in bytes (R448). -/
structure LinkSizes where
  mps : Nat
  mrrs : Nat
  deriving DecidableEq, Repr

/-- The roles of R12. -/
inductive Role where
  | operator | integrator | securityOfficer | vendorService
  deriving DecidableEq, Repr

/-- What delivers a line to the Tag Confluence (R18): a link group or an analog port. -/
inductive Source where
  | group (g : Fin 96)
  | port (p : Fin 32)
  deriving DecidableEq, Repr

/-- A packet of R129 as its blocks carried it: header content bytes 0 to 6, subheader, payload, CRC-32C, the `k` of its
TERM block, and how many payload bytes stood before an ALIGN restart inside it (R137). -/
structure Packet where
  header : Bytes
  subheader : Bytes
  payload : Bytes
  crc : Bytes
  termK : Fin 8
  alignAt : Option Nat
  deriving DecidableEq, Repr

/-- PSN and REPLAY flag of an intact camera packet that is no PIXEL packet (R142). -/
structure CamHdr where
  psn : BitVec 16
  replay : Bool
  deriving DecidableEq, Repr

/-- A KDP request packet as received (R551 to R553): its route, addresses, sequence, session, counter, flags, whether its
authentication tag verifies, and its payload. -/
structure Kdp where
  mailbox : Bool
  src : Nat
  dst : Nat
  seq : BitVec 16
  session : BitVec 16
  ctr : BitVec 32
  retry : Bool
  auth : Bool
  authentic : Bool
  payload : Bytes
  deriving DecidableEq, Repr

/-- A Peony slot as Primrose read it (R680, R681): HEADER_VERSION 1 is there; VIRGEANT_KEY_ID, and whether it names a ROM
key; both Virgeant signatures verify; OWNER_KEY_ID and whether both owner signatures verify; SVN; the body hashes to
BODY_HASH; PEONY_VERSION. -/
structure SlotCheck where
  present : Bool
  virgeantKey : BitVec 64
  known : Bool
  signatures : Bool
  ownerKey : BitVec 64
  ownerSigned : Bool
  svn : BitVec 8
  digest : Bool
  version : BitVec 32
  deriving DecidableEq, Repr

/-- Measurements of one hourly wear evaluation (R660): drift of the ageing oscillators by power domain, in 0.01 %, and
corrected units of the last hour by reservoir channel (stack, channel, units). -/
structure WearSample where
  aged : List (Fin 64 × Nat)
  dram : List (Fin 2 × Fin 16 × Nat)
  deriving DecidableEq, Repr

/-- What one checked lamp pulse measured (R388 to R392): lit sinks' current codes and pin voltages, unlit neighbours. -/
structure SinkMeas where
  column : Fin 64
  lit : Bool
  code : Nat
  millivolt : Nat
  deriving DecidableEq, Repr

/-- What a read of host memory, or of the memory a Delta channel reads, answered (R492): its bytes; a completion with
Unsupported Request, Completer Abort, timeout or poison (codes 4 to 7); or descriptor memory that cannot be corrected. -/
inductive ReadReply where
  | data (b : Bytes)
  | failed (code : Fin 4)
  | uncorrectable
  deriving DecidableEq, Repr

inductive Instr where
  -- chapter 01
  | lineArrived (src : Source) (seq : BitVec 32) (portion : Fin 9) (pixels : Nat)
  | recordClose (s : Fin 64) (line : Nat)
  | oxbowRecoveryEnd (g : Fin 96)
  | commitEnter (id : Nat) (s : Option (Fin 64))
  | arbiterDecision
  | queueWrite (q : Fin 1024) (cls : Fin 4) (words : Nat) (last bad : Bool) (line : Option (Fin 64 × Nat))
  | queuePointer (q : Fin 1024)
  | queueFlush
  | flushDrainEnd (q : Fin 1024)
  -- chapter 02
  | blockReceived (l : Fin 104) (hdr : BitVec 2) (payload : BitVec 64) (elasticFull : Bool) (ctle : Nat)
  | blockLock (l : Fin 104)
  | laneLockLoss (l : Fin 104)
  | signalLost (l : Fin 104)
  | alignBlock (l : Fin 104) (payload : BitVec 64)
  | alignLoss (l : Fin 104)
  | fillerBlock (l : Fin 104) (fill : Int) (allFiller : Bool)
  | deskewFail (g : Fin 96)
  | trainReq (l : Fin 104)
  | trainSts (l : Fin 104) (seq : BitVec 8) (body : BitVec 32)
  | trainStepTimeout (l : Fin 104)
  | laneTrainFail (l : Fin 104)
  | adaptationFreeze (l : Fin 104)
  | adaptationResume (l : Fin 104)
  | eyeSweep (l : Fin 104) (margin : Nat)
  | retrain (l : Fin 104)
  | retrainStart (l : Fin 104)
  | retrainDone (l : Fin 104)
  | retrainTimeout (l : Fin 104)
  | fwdPowerReq (l : Fin 104) (v : Fin 3)
  | backPowerReq (l : Fin 104) (v : Fin 3)
  | sleepAck (l : Fin 104) (back : Bool)
  | laneSleepTimeout (l : Fin 104)
  | wake (l : Fin 104) (back : Bool)
  | prbsGenEnable (l : Fin 104) (ctl : BitVec 32)
  | prbsChkEnable (l : Fin 104) (ctl : BitVec 32)
  | prbsInjectOne (l : Fin 104)
  | chkLock (l : Fin 104)
  | chkLockDrop (l : Fin 104) (bits : Nat) (errors : ErrorCount)
  | testDurationEnd (l : Fin 104)
  | testResult (l : Fin 104) (seq : BitVec 8) (errors : BitVec 32)
  -- chapter 03
  | pixel (l : Fin 104) (p : Packet)
  | ackInterval (g : Fin 96) (laneId : Fin 9)
  | replayTimeout (g : Fin 96) (laneId : Fin 9) (psn : BitVec 16)
  | ack (g : Fin 96) (body : BitVec 32)
  | oxbowAck (g : Fin 96) (body : BitVec 32)
  | ctlResp (g : Fin 96) (h : CamHdr) (address : BitVec 32) (tag : BitVec 16) (status : BitVec 8) (data : Bytes)
  | ctlTimeout (g : Fin 96)
  | trigReject (g : Fin 96) (h : CamHdr) (seq : BitVec 32) (reason : BitVec 16)
  | replayFull (g : Fin 96) (h : CamHdr)
  | cancelDone (g : Fin 96) (h : CamHdr) (arg : BitVec 32)
  | cameraEvent (g : Fin 96) (h : CamHdr) (code reason : BitVec 16) (arg : BitVec 32)
  | timeSync (g : Fin 96)
  | timeResp (g : Fin 96) (h : CamHdr) (syncId : BitVec 16) (t2 t3 t4 : Nat) (rate : BitVec 32)
  | timeRespMissing (g : Fin 96)
  | linkUp (g : Fin 96) (regs : Bytes)
  | camRegRead (g : Fin 96)
  | camRegWrite (g : Fin 96)
  -- chapter 04
  | exposureWindowOpen (p : Fin 32) (seq : BitVec 32)
  | readoutToken (p : Fin 32)
  | exposureWindowClose (p : Fin 32)
  | stExpEdge (p : Fin 32) (opening : Bool) (at_ : Nat)
  | transferPulse (p : Fin 32)
  | readoutEnd (p : Fin 32) (nanovolts : List (List Int))
  | bankCalibration (b : Fin 4) (ok : Bool)
  -- chapter 05
  | segmentArrives (s : Fin 64)
  | segmentDeal
  | segmentComplete (k : Fin 68) (residue : Bool) (uncorrectable corrected : List Nat)
  | sliceBist (k : Fin 68) (pass : Bool)
  | coefRowRewrite (row : Nat)
  | streamOpen (s : Fin 64)
  | streamClose (s : Fin 64)
  -- chapter 06
  | calDark (s : Fin 64)
  | calWhite (s : Fin 64)
  | calGapDark (s : Fin 64)
  | calGapWhite (s : Fin 64)
  | calDerive (s : Fin 64)
  | calAbort (s : Fin 64)
  | captureStart (s : Fin 64)
  | captureComplete (s : Fin 64)
  | deriveDone (s : Fin 64)
  | warmupInterval
  | lampWarmupTimeout
  | warmupRestart
  -- chapter 07
  | posTransition (c : Fin 16) (input : Fin 3) (wireN level : Bool)
  | filterPass (c : Fin 16) (input : Fin 3)
  | edgeLateAccept (c : Fin 16)
  | posWireFault (c : Fin 16)
  | wireRecovery (c : Fin 16)
  | indexRearm (c : Fin 16)
  | posPreset (c : Fin 16) (v : BitVec 64)
  | generatorEvaluate (s : Fin 64)
  | compareWrite (k : Fin 64) (isCtl : Bool) (v : BitVec 32)
  | latchIn (t : Fin 96)
  | tioEdge (t : Fin 96)
  | quickStopInAssert (t : Fin 96)
  | quickStopInRelease (t : Fin 96)
  | tioPulseEnd (t : Fin 96)
  | tioPulseAt (t : Fin 96) (dt : BitVec 64)
  | scheduledPulse (t : Fin 96)
  | motionTick (m : Fin 16)
  | motionReplan (m : Fin 16) (sub : Fin 32) (v : Int)
  | motStop (m : Fin 16)
  | motQuickStop (m : Fin 16)
  | motHardStop (m : Fin 16)
  | motClear (m : Fin 16)
  | motEnable (m : Fin 16) (v : Bool)
  -- chapter 08
  | seamStop (u : Fin 16)
  | seamRestart (u : Fin 16)
  | backupStart (u : Fin 16)
  | restartStart (u : Fin 16)
  | pacingEval (u : Fin 16)
  | divertRelease (u : Fin 16)
  | gateInEdge (t : Fin 96) (level : Bool)
  | holdEntry
  -- chapter 09
  | bandAssert (b : Fin 16)
  | pulseStart (b : Fin 16)
  | pulseEnd (b : Fin 16)
  | dischargeEnd (b : Fin 16)
  | pulseCheck (b : Fin 16) (meas : List SinkMeas)
  | lampTest
  | lampTestDone (shorted : List (Fin 64))
  | diagPulse (b : Fin 16)
  | lampUnverified (b : Fin 16) (col : Fin 64)
  | lampLift (b : Fin 16) (col : Fin 64)
  | syncFire
  | syncEdge
  | syncFault
  | bandEnable (b : Fin 16) (v : Bool)
  | headroomEval
  -- chapter 10
  | pageRelease (s : Fin 64) (page : BitVec 32)
  | hostMark (s : Fin 64) (k : Fin 8) (v : BitVec 64)
  | fetchWaitExpire (ch : Fin 256)
  | bar4Read (off : Nat) (len : Nat)
  | bar4Write (off : Nat) (data : Bytes)
  -- chapter 11
  | dltChDoorbell (n : Fin 256)
  | channelTimerStart (n : Fin 256)
  | dltChEnSet (n : Fin 256)
  | dltChEnClear (n : Fin 256)
  | channelOff (n : Fin 256)
  | channelNextWrite (n : Fin 256) (v : BitVec 64)
  | channelDisable (n : Fin 256)
  | descriptorFetch (n : Fin 256) (reply : ReadReply)
  | sourceReadCompletion (n : Fin 256) (reply : ReadReply)
  | streamLineDeliver (s : Fin 64)
  | flushReadCompletion (n : Fin 256) (ok : Bool)
  | descriptorComplete (n : Fin 256)
  | dltCqHead (v : BitVec 32)
  | msixUnmask (v : Fin 2048)
  | hostLinkDown
  | hostLinkDegraded (gen width : Nat)
  | bar0RegisterWrite (off : Nat) (v : BitVec 32)
  | mbxTxTail (v : BitVec 32)
  | mbxRxHead (v : BitVec 32)
  | mbxDisable
  -- chapter 12
  | feTimerTrigger (j : Fin 16)
  | fePulseTrigger (j : Fin 16)
  | convStart (j : Fin 16)
  | injectedTrigger (k : Fin 64)
  | runComplete (j : Fin 16) (codes : List (List Int))
  | feCalibrate (j : Fin 16)
  | feCalPeriod (j : Fin 16)
  | feCalDone (j : Fin 16) (ok : Bool)
  | genZeroCrossing (g : Fin 8)
  | genEnable (g : Fin 8) (v : Bool)
  | feGenOvercurrent (g : Fin 8)
  | feClamp (p : Fin 64)
  | feItemWrite (i : Fin 2)
  | feQueueFlush (i : Fin 2)
  | chTest (k : Fin 64)
  | chTestDone (k : Fin 64) (m1 m2 : Int)
  -- chapter 13
  | discover (q : Kdp)
  | assignAddress (q : Kdp)
  | addressTake
  | enumOutAssert
  | enumInAssert
  | nop (q : Kdp)
  | read (q : Kdp)
  | write (q : Kdp)
  | readDesc (q : Kdp)
  | commit (q : Kdp)
  | discard (q : Kdp)
  | commitStatus (q : Kdp)
  | segInit (q : Kdp)
  | segData (q : Kdp)
  | segEnd (q : Kdp)
  | segAbort (q : Kdp)
  | segTimeout (transfer : BitVec 8)
  | sessionOpen (q : Kdp)
  | sessionAuth (q : Kdp)
  | sessionClose (q : Kdp)
  | sessionTimeout (session : BitVec 16)
  | subscribe (q : Kdp)
  | eventAck (q : Kdp)
  | eventRetry (mailbox : Bool)
  | ptpSync (origin : Nat)
  | ptpUnlock
  | ptpPpsIn (stamp : Nat)
  | ptpPpsOut
  | fnLinkFault
  -- chapter 15
  | modeRequestSentinel (r : Role)
  | modeRequestConfigure (r : Role)
  | modeRequestCalibrate (r : Role)
  | modeRequestIdleReady (r : Role)
  | modeRequestScan (r : Role)
  | modeRequestStream (r : Role)
  | modeRequestHold (r : Role)
  | modeRequestMaintenance (r : Role)
  | modeRequestSafeHalt (r : Role)
  | modeTransitionDone
  | standbyInRange (record : Bool)
  | standbyOutOfRange
  | domainOn (d : Fin 64)
  | domainFault (d : Fin 64)
  | railFault (r : Fin 8)
  | avsEval (slack : Int)
  | avsDroop (monitor : Nat)
  | avsFallback
  | thermalWarn (t : Int)
  | thermalShutdown (t : Int)
  | motorEnableRelease
  | clusterOff (k : Fin 16)
  -- chapter 16
  | tmrDisagree (copy : Fin 3)
  | tmrResyncDone
  | lockstepMismatch
  | takeoverResume (pass0 pass1 : Bool)
  | checkpoint
  | reservoirChannel (stack : Fin 2) (ch : Fin 16)
  | switchSegmentCheck (d : Fin 64) (drops : List Nat)
  | wearEval (m : WearSample)
  | spareTest (k : Fin 68) (pass : Bool)
  | plannedInsertion
  | plannedWaitExpire
  | repairRecordWrite
  | repairClear (v : BitVec 16)
  -- chapter 17
  | selfTestRun
  | zeroise
  | vendorServiceEnable (v : Bool)
  | debugUnlock
  | roleKeySet (r : Fin 3) (key : Bytes)
  | nodeAddressLock (a : BitVec 8)
  | approvedModeLock
  | debugLock
  | ownerKeyHash (h : Bytes)
  | antiRollback (v : BitVec 32)
  | keyRevocation (slot : Fin 8) (id : BitVec 64)
  | hardRepairPromote (seq : BitVec 8)
  | sealLineRead (s : Fin 64)
  | sealBlockClose
  | sealIssued
  | auditAck (seq : BitVec 64)
  | tamperDetected (inputs : BitVec 4) (sensors : BitVec 8)
  | tamperClear (inputs : BitVec 4)
  | sandboxViolation
  -- chapter 18
  | perstAssert
  | perstDeassert
  | deviceReset
  | bootWatchdog
  | mgmtWatchdog
  | jtagSystemReset
  | bootRailTimeout (r : Fin 8)
  | bootSlotVerify (slot : Fin 2) (c : SlotCheck)
  | aligningTimeout (l : Fin 104)
  | hostLinkUp (gen width : Nat) (sizes : LinkSizes)
  | addressInUseSeen (a : BitVec 8)
  | kdpMalformed
  | unknownOpcode (q : Kdp) (op : BitVec 8)
  | stExpMissing (p : Fin 32)
  | lineTriggerInstant (s : Fin 64) (line : Nat)
  | tioInputEdge (t : Fin 96) (level : Bool)
  | ptpDelayResp (stamp : Nat)
  | ptpMasterSync
  | selfTestDone (passed : Bool)
  | railRegulating (r : Fin 8)
  | zeroised
  deriving DecidableEq, Repr

end Sys2Proof
end

