-- ==== Sys2Proof/Decode.lean ====
section
/-! DEFINITION. Words that spell commands: the command table gives no row any bits (commands reach the block as the packets, levels
and events their operands describe), so no word spells one. -/
namespace Sys2Proof

/-- The command a word spells by the table's bits: no row of the table has bits. -/
def decodeTableWord (_nbits _w : Nat) : Option Instr := none

end Sys2Proof
end

