-- ==== Sys2Proof/Config.lean ====
section
/-! DEFINITION. What the spec leaves to the build of the silicon, to standards outside the spec, or open: constants
with no body, so that no statement can lean on their value (log entries 6 and 8). -/
namespace Sys2Proof.Config

/-- The n-th open value a run meets. -/
opaque freeNat : Nat → Nat
/-- Byte j of the i-th undefined string of bytes. -/
opaque freeByte : Nat → Nat → Nat
/-- True on the DL96-H-S, which carries one DRAM stack (R4). -/
opaque oneStack : Bool
/-- Island number by row of R14 and instance (IslandMap, R772). -/
opaque island : Nat → Nat → Nat
/-- Latency of the DT distribution to an island, in counts of 4 ns, as measured at boot (R49). -/
opaque dtLatency : Nat → Nat
/-- Entry of QueueMap by queue number (R772): source island, destination island, carries pixels, class 0 reserve. -/
opaque queueMap : Nat → Nat × Nat × Bool × Bool
/-- Register stages of a queue (R47). -/
opaque queueDepth : Nat → Nat
/-- High and Low of a crossing queue's weir (R44): the spec names no object that sets them. -/
opaque queueWeir : Nat → Nat × Nat
/-- EVENT_ID by name (R571). -/
opaque eventId : Nat → Nat
/-- The content of EventCatalogue (R571). -/
opaque eventCatalogue : Bytes
/-- The fused identity strings (R595): order code, serial number; MAC address. -/
opaque orderCode : Bytes
opaque serialNumber : Bytes
opaque macAddress : Nat
/-- Boot ROM version (R595) and the minor version of the object set (R597). -/
opaque primroseVersion : Nat
opaque dictionaryMinor : Nat
/-- The bytes of an event's arguments (R570, R571). -/
opaque eventArgs : Nat → List Int → Bytes
/-- The algorithms of the security island (R672): standards the spec names and does not repeat. SHA-384, SHA3-384,
HMAC-SHA-384 of a key and a message, and the 36 bytes of HKDF-SHA-384 that make a session key and its salt (R575). -/
opaque sha384Of : Bytes → Vector Byte 48
opaque sha3Of : Bytes → Vector Byte 48
opaque hmacOf : Bytes → Bytes → Vector Byte 48
opaque hkdfOf : Bytes → Bytes → Vector Byte 36
/-- The digests and keys as bytes. -/
def sha384 (m : Bytes) : Bytes := (sha384Of m).toList
def sha3 (m : Bytes) : Bytes := (sha3Of m).toList
def hmac (key m : Bytes) : Bytes := (hmacOf key m).toList
def hkdf (key info : Bytes) : Bytes := (hkdfOf key info).toList
/-- Check code of a coefficient entry over its bits [35:0] and its logical address (R219): the spec does not give the code. -/
opaque checkCode : Nat → Nat → Nat
/-- AES-256-GCM of key, IV, header and payload: ciphertext and tag. -/
opaque gcm : Bytes → Bytes → Bytes → Bytes → Bytes
/-- ECDSA P-384 and ML-DSA-65 signatures by a key pair of the device (0 identity, 1 attestation of a generation), and their
check under a public key block. -/
opaque signEcOf : Nat → Nat → Bytes → Vector Byte 96
opaque signMlOf : Nat → Nat → Bytes → Bytes → Vector Byte 3309
def signEc (pair generation : Nat) (digest : Bytes) : Bytes := (signEcOf pair generation digest).toList
def signMl (pair generation : Nat) (m context : Bytes) : Bytes := (signMlOf pair generation m context).toList
opaque verifyEc : Bytes → Bytes → Bytes → Bool
opaque verifyMl : Bytes → Bytes → Bytes → Bytes → Bool
/-- The n-th output of the random generator, 32 bytes; public key blocks of the device's key pairs; the certificate. -/
opaque randomOf : Nat → Vector Byte 32
def random (n : Nat) : Bytes := (randomOf n).toList
opaque publicBlock : Nat → Nat → Bytes
opaque certificate : Bytes
/-- The factory Security Officer key and the Vendor Service key. -/
opaque factoryKey : Bytes
opaque vendorKey : Bytes
/-- The bit stream of the optimiser's tap requests (R96, R97): PRE, MAIN, POST requests by lane and step. -/
opaque tapRequest : Nat → Nat → Nat × Nat × Nat
/-- The four hybrid public key blocks of the ROM (R677). -/
opaque romKey : Nat → Bytes
/-- The board power record by rail (R729): phases, frequency in kHz, start set point in mV. -/
opaque powerRecord : Nat → Nat × Nat × Nat
/-- BOARD_ID of the board power record, and whether a rail's entry has telemetry present (R729). -/
opaque boardId : Nat
opaque telemetry : Nat → Bool
/-- True on a part of temperature grade I (R636). -/
opaque gradeI : Bool

/-- σ of a derivation whose SUMSQ ÷ N lies below D², by SUMSQ, N and D: the spec states no root there. -/
opaque sigmaOpen : Nat → Nat → Nat → Nat

/-- 131,072 × sin or cos at its top, 131,072, which the 18 bits of R526's demodulator do not hold: the spec states no value. -/
opaque sineTop : Int

end Sys2Proof.Config
end

