-- ==== Sys2Proof/Machine/Table.lean ====
section
/-! DEFINITION. Reading and writing a sparse table. Every register file, every bank of lanes, groups, streams and
every memory of the block is such a table; a write keeps the canonical form, so equal contents are equal data. -/
namespace Sys2Proof.Machine

/-- What key `k` reads as; `d` where the table lists nothing. -/
def Table.get {β : Type} (d : β) : Table β → Nat → β
  | [], _ => d
  | (k', v) :: t, k => if k = k' then v else Table.get d t k

/-- `t` with `v` at key `k`; writing the value an unlisted key reads as removes the entry. -/
def Table.set {β : Type} [DecidableEq β] (d : β) : Table β → Nat → β → Table β
  | [], k, v => if v = d then [] else [(k, v)]
  | (k', v') :: t, k, v =>
    if k < k' then (if v = d then (k', v') :: t else (k, v) :: (k', v') :: t)
    else if k = k' then (if v = d then t else (k, v) :: t)
    else (k', v') :: Table.set d t k v

/-- The canonical form: keys strictly rising from above `lo`, no entry equal to the default. -/
def Table.wfFrom {β : Type} [DecidableEq β] (d : β) : Option Nat → Table β → Bool
  | _, [] => true
  | lo, (k, v) :: t =>
    (match lo with | none => true | some l => decide (l < k)) && decide (v ≠ d) && Table.wfFrom d (some k) t

/-- The canonical form of a whole table. -/
def Table.wf {β : Type} [DecidableEq β] (d : β) (t : Table β) : Bool := Table.wfFrom d none t

/-- Every key once, in rising order: what each key reads as is one value. -/
def Table.rising {β : Type} (t : Table β) : Prop := (t.map Prod.fst).Pairwise (· < ·)

/-- A sparse memory: cells of `Host.Cell` shape, reading 0 where nothing is listed (DESIGN CHOICE, log entry 4). -/
abbrev Memory := Table Byte

/-- The canonical form of a memory. -/
def Memory.wf (m : Memory) : Bool := Table.wf (0 : Byte) m

/-- One byte of a memory. -/
def Memory.read (m : Memory) (a : Nat) : Byte := Table.get 0 m a

/-- `n` bytes of a memory from address `a` up. -/
def Memory.readN (m : Memory) (a : Nat) : Nat → Bytes
  | 0 => []
  | n + 1 => Memory.read m a :: Memory.readN m (a + 1) n

/-- A memory with one byte written. -/
def Memory.write (m : Memory) (a : Nat) (b : Byte) : Memory := Table.set 0 m a b

/-- A memory with a string of bytes written from address `a` up. -/
def Memory.writeN (m : Memory) (a : Nat) : Bytes → Memory
  | [] => m
  | b :: bs => Memory.writeN (Memory.write m a b) (a + 1) bs

end Sys2Proof.Machine
end

