-- ==== Sys2Proof/Machine/Arith.lean ====
section
/-! DEFINITION. Bit fields, byte order, saturation, rounding, the two CRCs of the links and the bit packing of pixels:
the helpers every family of commands shares. -/
namespace Sys2Proof.Machine

/-- The latest `n` entries of a log kept oldest first. -/
def latest {α : Type} (n : Nat) (l : List α) : List α := (l.reverse.take n).reverse

/-- Bits `[lo + w - 1 : lo]` of `v`. -/
def field (v lo w : Nat) : Nat := (v / 2 ^ lo) % 2 ^ w

/-- One bit of `v`. -/
def bitAt (v i : Nat) : Bool := (v / 2 ^ i) % 2 == 1

/-- 1 for true, 0 for false. -/
def b2n (b : Bool) : Nat := if b then 1 else 0

/-- A word built from `(low bit, width, value)` fields. -/
def pack : List (Nat × Nat × Nat) → Nat
  | [] => 0
  | (lo, w, v) :: t => (v % 2 ^ w) * 2 ^ lo + pack t

/-- A two's-complement number of `w` bits read from its bits. -/
def signed (w v : Nat) : Int := if bitAt v (w - 1) then (v % 2 ^ w : Nat) - (2 ^ w : Nat) else ((v % 2 ^ w : Nat) : Int)

/-- The bits of a number as a two's-complement word of `w` bits. -/
def toBits (w : Nat) (v : Int) : Nat := (v % ((2 ^ w : Nat) : Int)).toNat

/-- A number held between two bounds. -/
def clampInt (lo hi v : Int) : Int := if v < lo then lo else if hi < v then hi else v

/-- One more on a counter that stays at the largest value of its 32 bits (the dictionary's "saturating"). -/
def satInc (v n : Nat) : Nat := min (v + n) (maxU 32)

/-- A quotient rounded half up, for a positive divisor. -/
def roundDiv (n : Int) (d : Nat) : Int := (2 * n + d) / (2 * d)

/-- A little-endian number (R7). -/
def leNat : Bytes → Nat
  | [] => 0
  | b :: t => b.toNat + 256 * leNat t

/-- `n` little-endian bytes of a number (R7). -/
def leBytes : Nat → Nat → Bytes
  | 0, _ => []
  | n + 1, v => BitVec.ofNat 8 v :: leBytes n (v / 256)

/-- The bits of one byte, bit 0 first. -/
def byteBits (b : Byte) : List Bool := (List.range 8).map fun i => b.getLsbD i

/-- The bits of a byte string, each byte's bit 0 first (R136). -/
def bitsOf : Bytes → List Bool
  | [] => []
  | b :: t => byteBits b ++ bitsOf t

/-- The `w` low bits of a number, bit 0 first. -/
def natBits : Nat → Nat → List Bool
  | 0, _ => []
  | w + 1, v => (v % 2 == 1) :: natBits w (v / 2)

/-- The number whose bits are given, bit 0 first. -/
def ofBits : List Bool → Nat
  | [] => 0
  | b :: t => b2n b + 2 * ofBits t

/-- Bits gathered into bytes, the last byte padded with zero bits (R136); `n` bounds the bytes. -/
def packBits : Nat → List Bool → Bytes
  | 0, _ => []
  | _, [] => []
  | n + 1, bs => BitVec.ofNat 8 (ofBits (bs.take 8)) :: packBits n (bs.drop 8)

/-- A byte string padded with zero bytes to a multiple of `k` bytes. -/
def padTo (k : Nat) (bs : Bytes) : Bytes := bs ++ List.replicate ((k - bs.length % k) % k) 0

/-- One bit into the CRC-8 of R85 (polynomial x^8 + x^2 + x + 1), most significant bit out first. -/
def crc8Step (c : Nat) (b : Bool) : Nat :=
  let top := xor (bitAt c 7) b
  let c' := (c * 2) % 256
  if top then c' ^^^ 0x07 else c'

/-- The CRC-8 of R85: initial value 0xFF, bytes upward, each byte's bit 0 first. -/
def crc8 (bs : Bytes) : Nat := (bitsOf bs).foldl crc8Step 0xFF

/-- One bit into the reflected CRC-32C (Castagnoli polynomial). -/
def crc32cStep (c : Nat) (b : Bool) : Nat :=
  let low := xor (bitAt c 0) b
  if low then (c / 2) ^^^ 0x82F63B78 else c / 2

/-- CRC-32C of a byte string, initial value and final inversion all ones (PRESUMED, log entry 7: the spec names the code only). -/
def crc32c (bs : Bytes) : Nat := (bitsOf bs).foldl crc32cStep 0xFFFFFFFF ^^^ 0xFFFFFFFF

/-- The element at index `i` replaced. -/
def setAt {α : Type} (l : List α) (i : Nat) (v : α) : List α :=
  match l, i with
  | [], _ => []
  | _ :: t, 0 => v :: t
  | h :: t, i + 1 => h :: setAt t i v

/-- The sum of a list of numbers. -/
def sumNat (l : List Nat) : Nat := l.foldl (· + ·) 0

/-- The largest of a list of numbers, 0 for none. -/
def maxNat (l : List Nat) : Nat := l.foldl max 0

/-- A number put into a rising list at its place. -/
def insertSorted (x : Nat) : List Nat → List Nat
  | [] => [x]
  | y :: t => if x ≤ y then x :: y :: t else y :: insertSorted x t

/-- A list of numbers in rising order. -/
def sortNat (l : List Nat) : List Nat := l.foldr insertSorted []

/-- The median of a list of numbers: of an even count, the mean of the two middle ones (log entry 30). -/
def medianNat (l : List Nat) : Nat :=
  let s := sortNat l
  let n := s.length
  if n = 0 then 0
  else if n % 2 = 1 then s.getD (n / 2) 0
  else (s.getD (n / 2 - 1) 0 + s.getD (n / 2) 0) / 2

end Sys2Proof.Machine
end

