-- ==== Sys2Proof/Machine/Catalog.lean ====
section
/-! DEFINITION. The dictionary's catalogue: for every object its name, where it stands, its type, access, commit boundary,
role, default, size in bytes (0: variable) and range (R10, R11, R23 and the dictionary tables of the chapters). -/
namespace Sys2Proof.Machine

/-- The types of R10. -/
inductive Ty where
  | bool | u8 | u16 | u32 | u64 | s8 | s16 | s32 | s64 | u18 | s18 | fx2_16 | fx16_16 | time64 | str | domain | record
  deriving DecidableEq, Repr

/-- The access codes of R11. -/
inductive Access where
  | ro | rw | wo | st | lw
  deriving DecidableEq, Repr

/-- The commit boundaries of R23. -/
inductive Boundary where
  | mode | page | cycle | line | sync | immediate
  deriving DecidableEq, Repr

/-- One row of the dictionary tables: `count` indices from `index`, `subs` subindices from `sub`. -/
structure Row where
  name : String
  index : Nat
  count : Nat
  sub : Nat
  subs : Nat
  ty : Ty
  access : Access
  boundary : Option Boundary
  role : Role
  dflt : Int
  size : Nat
  /-- Accepted values as closed intervals. -/
  ranges : List (Int × Int)
  /-- Accepted values are multiples of this. -/
  multiple : Nat
  /-- Unit of the Range/Unit column (R555). -/
  unit : String
  deriving DecidableEq, Repr

/-- Rows 0 to 39 of the catalogue. -/
def catalogue0 : List Row := [
  ⟨"DeviceTime", 0x2010, 1, 1, 1, .time64, .ro, none, .operator, 0, 8, [(0, 18446744073709551615)], 1, "ns"⟩,
  ⟨"DtSource", 0x2010, 1, 2, 1, .u8, .st, some .mode, .integrator, 0, 1, [(0, 0), (1, 1)], 1, ""⟩,
  ⟨"DtMaxSlew", 0x2010, 1, 3, 1, .u32, .rw, none, .integrator, 200000, 4, [(1000, 500000)], 1, "ppb"⟩,
  ⟨"QueueSelect", 0x2020, 1, 1, 1, .u16, .rw, none, .operator, 0, 2, [(0, 1023)], 1, ""⟩,
  ⟨"QueueStatus", 0x2020, 1, 2, 1, .u32, .ro, none, .operator, 0, 4, [(0, 4294967295)], 1, ""⟩,
  ⟨"QueuePointerFaults", 0x2020, 1, 3, 1, .u32, .ro, none, .operator, 0, 4, [(0, 4294967295)], 1, ""⟩,
  ⟨"QueueFlush", 0x2020, 1, 4, 1, .bool, .wo, none, .integrator, 0, 1, [(0, 1)], 1, ""⟩,
  ⟨"QueueMap", 0x2020, 1, 5, 1, .domain, .ro, none, .operator, 0, 0, [], 1, ""⟩,
  ⟨"IslandMap", 0x2020, 1, 6, 1, .domain, .ro, none, .operator, 0, 0, [], 1, ""⟩,
  ⟨"UnmatchedLines", 0x2030, 1, 1, 1, .u32, .ro, none, .operator, 0, 4, [(0, 4294967295)], 1, "Lines"⟩,
  ⟨"Class0Misses", 0x2030, 1, 2, 1, .u32, .ro, none, .operator, 0, 4, [(0, 4294967295)], 1, "Lines"⟩,
  ⟨"Class0CreditStallMax", 0x2030, 1, 3, 1, .u32, .ro, none, .operator, 0, 4, [(0, 4294967295)], 1, "ns"⟩,
  ⟨"Class0Load", 0x2030, 1, 4, 1, .u32, .ro, none, .operator, 0, 4, [(0, 4294967295)], 1, "Mbit/s"⟩,
  ⟨"LineCloseTime", 0x2031, 1, 1, 64, .u32, .st, some .mode, .integrator, 200, 4, [(40, 100000)], 1, "µs"⟩,
  ⟨"EyeMarginWarn", 0x3000, 1, 1, 1, .u8, .rw, none, .integrator, 16, 1, [(1, 64)], 1, "1/64 UI"⟩,
  ⟨"EyeMarginFail", 0x3000, 1, 2, 1, .u8, .rw, none, .integrator, 8, 1, [(1, 63)], 1, "1/64 UI"⟩,
  ⟨"TrainMaxTime", 0x3000, 1, 3, 1, .u16, .rw, none, .integrator, 100, 2, [(10, 1000)], 1, "ms"⟩,
  ⟨"TrainStepTimeout", 0x3000, 1, 4, 1, .u16, .rw, none, .integrator, 100, 2, [(20, 10000)], 1, "µs"⟩,
  ⟨"BackChannelSwing", 0x3000, 1, 5, 1, .u8, .st, some .mode, .integrator, 2, 1, [(0, 3)], 1, ""⟩,
  ⟨"LaneEnable", 0x3100, 104, 1, 1, .bool, .st, some .mode, .integrator, 0, 1, [(0, 1)], 1, ""⟩,
  ⟨"LaneStatus", 0x3100, 104, 2, 1, .u32, .ro, none, .operator, 0, 4, [(0, 4294967295)], 1, ""⟩,
  ⟨"FwdPowerReq", 0x3100, 104, 3, 1, .u8, .rw, none, .integrator, 0, 1, [(0, 0), (1, 1), (2, 2)], 1, ""⟩,
  ⟨"BackPowerReq", 0x3100, 104, 4, 1, .u8, .rw, none, .integrator, 0, 1, [(0, 0), (1, 1), (2, 2)], 1, ""⟩,
  ⟨"EyeMargin", 0x3100, 104, 5, 1, .u8, .ro, none, .operator, 0, 1, [(0, 255)], 1, "1/64 UI"⟩,
  ⟨"EyeMarginMin", 0x3100, 104, 6, 1, .u8, .ro, none, .operator, 64, 1, [(0, 255)], 1, "1/64 UI"⟩,
  ⟨"TxTaps", 0x3100, 104, 7, 1, .u32, .ro, none, .operator, 0, 4, [(0, 4294967295)], 1, "steps"⟩,
  ⟨"TxPreMax", 0x3100, 104, 8, 1, .u8, .rw, none, .integrator, 10, 1, [(0, 10)], 1, "steps"⟩,
  ⟨"TxPostMax", 0x3100, 104, 9, 1, .u8, .rw, none, .integrator, 20, 1, [(0, 20)], 1, "steps"⟩,
  ⟨"CtleRange", 0x3100, 104, 10, 1, .u16, .rw, none, .integrator, 7936, 2, [(0, 65535)], 1, ""⟩,
  ⟨"CodeErrors", 0x3100, 104, 11, 1, .u32, .ro, none, .operator, 0, 4, [(0, 4294967295)], 1, "Blocks"⟩,
  ⟨"LockLosses", 0x3100, 104, 12, 1, .u32, .ro, none, .operator, 0, 4, [(0, 4294967295)], 1, "Events"⟩,
  ⟨"LinkCtlErrors", 0x3100, 104, 13, 1, .u32, .ro, none, .operator, 0, 4, [(0, 4294967295)], 1, "Blocks"⟩,
  ⟨"FillerDeleted", 0x3100, 104, 14, 1, .u32, .ro, none, .operator, 0, 4, [(0, 4294967295)], 1, "Slots"⟩,
  ⟨"FillerInserted", 0x3100, 104, 15, 1, .u32, .ro, none, .operator, 0, 4, [(0, 4294967295)], 1, "Slots"⟩,
  ⟨"SkewUi", 0x3100, 104, 16, 1, .u16, .ro, none, .operator, 0, 2, [(0, 65535)], 1, "UI"⟩,
  ⟨"Retrain", 0x3100, 104, 17, 1, .bool, .wo, none, .integrator, 0, 1, [(0, 1)], 1, ""⟩,
  ⟨"PrbsCtl", 0x3100, 104, 18, 1, .u32, .rw, none, .integrator, 536871912, 4, [(0, 4294967295)], 1, ""⟩,
  ⟨"PrbsErrors", 0x3100, 104, 19, 1, .u32, .ro, none, .operator, 0, 4, [(0, 4294967295)], 1, "Bits"⟩,
  ⟨"PrbsBits", 0x3100, 104, 20, 1, .u64, .ro, none, .operator, 0, 8, [(0, 18446744073709551615)], 1, "Bits"⟩,
  ⟨"CameraPrbsErrors", 0x3100, 104, 21, 1, .u32, .ro, none, .operator, 0, 4, [(0, 4294967295)], 1, "Bits"⟩]

/-- Rows 40 to 79 of the catalogue. -/
def catalogue1 : List Row := [
  ⟨"AckInterval", 0x3300, 1, 1, 1, .u16, .rw, none, .integrator, 1000, 2, [(200, 2000)], 1, "ns"⟩,
  ⟨"ReplayTimeout", 0x3300, 1, 2, 1, .u16, .rw, none, .integrator, 16, 2, [(12, 100)], 1, "µs"⟩,
  ⟨"GroupLane", 0x3200, 96, 1, 8, .u8, .st, some .mode, .integrator, 255, 1, [(0, 103), (255, 255)], 1, ""⟩,
  ⟨"GroupSpare", 0x3200, 96, 9, 1, .u8, .st, some .mode, .integrator, 255, 1, [(0, 103), (255, 255)], 1, ""⟩,
  ⟨"GroupStatus", 0x3200, 96, 10, 1, .u32, .ro, none, .operator, 0, 4, [(0, 4294967295)], 1, ""⟩,
  ⟨"PixelWidth", 0x3200, 96, 11, 1, .u8, .st, some .mode, .integrator, 4, 1, [(0, 5)], 1, ""⟩,
  ⟨"Replays", 0x3200, 96, 12, 1, .u32, .ro, none, .operator, 0, 4, [(0, 4294967295)], 1, "Packets"⟩,
  ⟨"ReplayFailures", 0x3200, 96, 13, 1, .u32, .ro, none, .operator, 0, 4, [(0, 4294967295)], 1, "Events"⟩,
  ⟨"PacketErrors", 0x3200, 96, 14, 1, .u32, .ro, none, .operator, 0, 4, [(0, 4294967295)], 1, "Packets"⟩,
  ⟨"Duplicates", 0x3200, 96, 15, 1, .u32, .ro, none, .operator, 0, 4, [(0, 4294967295)], 1, "Packets"⟩,
  ⟨"TimeOffset", 0x3200, 96, 16, 1, .s32, .ro, none, .operator, 0, 4, [(-2147483648, 2147483647)], 1, "1/16 ns"⟩,
  ⟨"PathDelay", 0x3200, 96, 17, 1, .u32, .ro, none, .operator, 0, 4, [(0, 4294967295)], 1, "1/16 ns"⟩,
  ⟨"TrigRejects", 0x3200, 96, 18, 1, .u32, .ro, none, .operator, 0, 4, [(0, 4294967295)], 1, "Triggers"⟩,
  ⟨"SyncInterval", 0x3200, 96, 19, 1, .u16, .rw, none, .integrator, 1000, 2, [(125, 10000)], 1, "µs"⟩,
  ⟨"LinkAsymmetry", 0x3200, 96, 20, 1, .s16, .rw, none, .integrator, 0, 2, [(-32768, 32767)], 1, "ps"⟩,
  ⟨"TriggerLead", 0x3200, 96, 21, 1, .u16, .st, some .line, .integrator, 10, 2, [(2, 1000)], 1, "µs"⟩,
  ⟨"TriggerLateOk", 0x3200, 96, 22, 1, .bool, .st, some .line, .integrator, 0, 1, [(0, 1)], 1, ""⟩,
  ⟨"CamRegAddress", 0x3400, 96, 1, 1, .u32, .rw, none, .integrator, 0, 4, [(0, 4294967295)], 4, ""⟩,
  ⟨"CamRegCount", 0x3400, 96, 2, 1, .u8, .rw, none, .integrator, 1, 1, [(1, 64)], 1, "words"⟩,
  ⟨"CamRegData", 0x3400, 96, 3, 1, .domain, .rw, none, .integrator, 0, 0, [], 1, ""⟩,
  ⟨"CamRegOp", 0x3400, 96, 4, 1, .u8, .wo, none, .integrator, 0, 1, [(1, 1), (2, 2)], 1, ""⟩,
  ⟨"CamRegStatus", 0x3400, 96, 5, 1, .u8, .ro, none, .operator, 0, 1, [(0, 255)], 1, ""⟩,
  ⟨"CameraIdentity", 0x3400, 96, 6, 1, .domain, .ro, none, .operator, 0, 0, [], 1, ""⟩,
  ⟨"BankState", 0x4000, 1, 1, 4, .u8, .ro, none, .operator, 0, 1, [(0, 255)], 1, ""⟩,
  ⟨"PortEnable", 0x4100, 32, 1, 1, .bool, .st, some .mode, .integrator, 0, 1, [(0, 1)], 1, ""⟩,
  ⟨"PortStatus", 0x4100, 32, 2, 1, .u32, .ro, none, .operator, 0, 4, [(0, 4294967295)], 1, ""⟩,
  ⟨"PixelClock", 0x4100, 32, 3, 1, .u32, .st, some .mode, .integrator, 20000000, 4, [(1000000, 65000000)], 1000, "Hz"⟩,
  ⟨"ClockMode", 0x4100, 32, 4, 1, .u8, .st, some .mode, .integrator, 0, 1, [(0, 3)], 1, ""⟩,
  ⟨"LeadDummy", 0x4100, 32, 5, 1, .u16, .st, some .mode, .integrator, 0, 2, [(0, 4095)], 1, "clocks"⟩,
  ⟨"PortWidth", 0x4100, 32, 6, 1, .u32, .st, some .mode, .integrator, 0, 4, [(4, 65536)], 4, "pixels"⟩,
  ⟨"TransferGuard", 0x4100, 32, 7, 1, .u16, .st, some .line, .integrator, 500, 2, [(100, 10000)], 1, "ns"⟩,
  ⟨"SpWidth", 0x4100, 32, 8, 1, .u8, .st, some .mode, .integrator, 1, 1, [(1, 16)], 1, "clocks"⟩,
  ⟨"TgMode", 0x4100, 32, 9, 1, .u8, .st, some .mode, .integrator, 0, 1, [(0, 0), (1, 1)], 1, ""⟩,
  ⟨"TgWidth", 0x4100, 32, 10, 1, .u16, .st, some .mode, .integrator, 100, 2, [(20, 10000)], 1, "ns"⟩,
  ⟨"TgToSp", 0x4100, 32, 11, 1, .u16, .st, some .mode, .integrator, 200, 2, [(20, 10000)], 1, "ns"⟩,
  ⟨"SignalPolarity", 0x4100, 32, 12, 1, .u8, .st, some .mode, .integrator, 0, 1, [(0, 255)], 1, ""⟩,
  ⟨"StartLateLimit", 0x4100, 32, 13, 1, .u32, .st, some .line, .integrator, 5000, 4, [(0, 100000)], 1, "ns"⟩,
  ⟨"ExposureMeasuredLast", 0x4100, 32, 14, 1, .u32, .ro, none, .operator, 0, 4, [(0, 4294967295)], 1, "1/4 ns"⟩,
  ⟨"OverrunCount", 0x4100, 32, 15, 1, .u32, .ro, none, .operator, 0, 4, [(0, 4294967295)], 1, "Lines"⟩,
  ⟨"PortFaultCount", 0x4100, 32, 16, 1, .u32, .ro, none, .operator, 0, 4, [(0, 4294967295)], 1, "Events"⟩]

/-- Rows 80 to 119 of the catalogue. -/
def catalogue2 : List Row := [
  ⟨"TestPattern", 0x4100, 32, 17, 1, .u8, .st, some .page, .integrator, 0, 1, [(0, 0), (1, 1), (2, 2)], 1, ""⟩,
  ⟨"ReadoutTime", 0x4100, 32, 18, 1, .u32, .ro, none, .operator, 0, 4, [(0, 4294967295)], 1, "ns"⟩,
  ⟨"InputPort", 0x4200, 32, 1, 1, .u8, .st, some .mode, .integrator, 255, 1, [(0, 31), (255, 255)], 1, ""⟩,
  ⟨"InputMode", 0x4200, 32, 2, 1, .u8, .st, some .mode, .integrator, 0, 1, [(0, 3)], 1, ""⟩,
  ⟨"SamplePhase", 0x4200, 32, 3, 1, .u16, .st, some .page, .integrator, 0, 2, [(0, 3999)], 1, "0.25 ns"⟩,
  ⟨"SecondPhase", 0x4200, 32, 4, 1, .u16, .st, some .page, .integrator, 0, 2, [(0, 3999)], 1, "0.25 ns"⟩,
  ⟨"OffsetDac", 0x4200, 32, 5, 1, .s16, .st, some .page, .integrator, 0, 2, [(-2048, 2047)], 1, "0.5 mV"⟩,
  ⟨"PgaGain", 0x4200, 32, 6, 1, .u16, .st, some .page, .integrator, 32, 2, [(0, 480)], 1, ""⟩,
  ⟨"VideoPolarity", 0x4200, 32, 7, 1, .u8, .st, some .page, .integrator, 0, 1, [(0, 0), (1, 1)], 1, ""⟩,
  ⟨"CdsPedestal", 0x4200, 32, 8, 1, .u16, .st, some .page, .integrator, 1024, 2, [(0, 16383)], 1, "codes"⟩,
  ⟨"StartPixel", 0x4200, 32, 9, 1, .u32, .st, some .mode, .integrator, 0, 4, [(0, 65535)], 1, ""⟩,
  ⟨"PixelCount", 0x4200, 32, 10, 1, .u16, .st, some .mode, .integrator, 0, 2, [(4, 16384)], 1, ""⟩,
  ⟨"PixelStep", 0x4200, 32, 11, 1, .u8, .st, some .mode, .integrator, 1, 1, [(1, 2), (4, 4)], 1, ""⟩,
  ⟨"Direction", 0x4200, 32, 12, 1, .u8, .st, some .mode, .integrator, 0, 1, [(0, 0), (1, 1)], 1, ""⟩,
  ⟨"ClipLow", 0x4200, 32, 13, 1, .u32, .ro, none, .operator, 0, 4, [(0, 4294967295)], 1, "Samples"⟩,
  ⟨"ClipHigh", 0x4200, 32, 14, 1, .u32, .ro, none, .operator, 0, 4, [(0, 4294967295)], 1, "Samples"⟩,
  ⟨"LastLineMean", 0x4200, 32, 15, 1, .u16, .ro, none, .operator, 0, 2, [(0, 65535)], 1, "Codes"⟩,
  ⟨"SlicesActive", 0x5000, 1, 1, 1, .u8, .ro, none, .operator, 64, 1, [(0, 255)], 1, ""⟩,
  ⟨"WarmSpareSlices", 0x5000, 1, 2, 1, .u8, .st, some .mode, .integrator, 4, 1, [(0, 4)], 1, ""⟩,
  ⟨"ResidueErrors", 0x5000, 1, 3, 1, .u32, .ro, none, .operator, 0, 4, [(0, 4294967295)], 1, "Events"⟩,
  ⟨"SegmentReplays", 0x5000, 1, 4, 1, .u32, .ro, none, .operator, 0, 4, [(0, 4294967295)], 1, "Segments"⟩,
  ⟨"CoefFreeRows", 0x5000, 1, 5, 1, .u32, .ro, none, .operator, 114688, 4, [(0, 4294967295)], 1, "Rows"⟩,
  ⟨"CoefCorrected", 0x5000, 1, 6, 1, .u32, .ro, none, .operator, 0, 4, [(0, 4294967295)], 1, "Reads"⟩,
  ⟨"CoefUncorrectable", 0x5000, 1, 7, 1, .u32, .ro, none, .operator, 0, 4, [(0, 4294967295)], 1, "Reads"⟩,
  ⟨"CoefSpareRows", 0x5000, 1, 8, 1, .u16, .ro, none, .operator, 2304, 2, [(0, 65535)], 1, "Rows"⟩,
  ⟨"PipelineLoad", 0x5000, 1, 9, 1, .u8, .ro, none, .operator, 0, 1, [(0, 255)], 1, "%"⟩,
  ⟨"SliceState", 0x5010, 1, 1, 68, .u8, .ro, none, .operator, 0, 1, [(0, 255)], 1, ""⟩,
  ⟨"StreamEnable", 0x5100, 64, 1, 1, .bool, .rw, none, .integrator, 0, 1, [(0, 1)], 1, ""⟩,
  ⟨"StreamStatus", 0x5100, 64, 2, 1, .u32, .ro, none, .operator, 0, 4, [(0, 4294967295)], 1, ""⟩,
  ⟨"StreamClass", 0x5100, 64, 3, 1, .u8, .st, some .mode, .integrator, 1, 1, [(0, 1)], 1, ""⟩,
  ⟨"Phases", 0x5100, 64, 4, 1, .u8, .st, some .mode, .integrator, 1, 1, [(1, 16)], 1, ""⟩,
  ⟨"StreamWidth", 0x5100, 64, 5, 1, .u32, .ro, none, .operator, 0, 4, [(0, 4294967295)], 1, "Pixels"⟩,
  ⟨"MaxLineRate", 0x5100, 64, 6, 1, .u32, .st, some .mode, .integrator, 10000, 4, [(1, 1000000)], 1, "lines/s"⟩,
  ⟨"StoredWidth", 0x5100, 64, 7, 1, .u8, .st, some .page, .integrator, 16, 1, [(8, 8), (10, 10), (12, 12), (14, 14), (16, 16), (18, 18)], 1, "bits"⟩,
  ⟨"Compression", 0x5100, 64, 8, 1, .bool, .st, some .page, .integrator, 0, 1, [(0, 1)], 1, ""⟩,
  ⟨"NormEnable", 0x5100, 64, 9, 1, .bool, .st, some .cycle, .integrator, 1, 1, [(0, 1)], 1, ""⟩,
  ⟨"NormMin", 0x5100, 64, 10, 1, .fx2_16, .st, some .cycle, .integrator, 32768, 3, [(16384, 65536)], 1, ""⟩,
  ⟨"NormMax", 0x5100, 64, 11, 1, .fx2_16, .st, some .cycle, .integrator, 131072, 3, [(65536, 262143)], 1, ""⟩,
  ⟨"CoefShadow", 0x5100, 64, 12, 1, .bool, .st, some .mode, .integrator, 1, 1, [(0, 1)], 1, ""⟩,
  ⟨"CoefBaseRow", 0x5100, 64, 13, 1, .u32, .ro, none, .operator, 0, 4, [(0, 4294967295)], 1, ""⟩]

/-- Rows 120 to 159 of the catalogue. -/
def catalogue3 : List Row := [
  ⟨"DriftEnable", 0x5100, 64, 14, 1, .bool, .st, some .cycle, .integrator, 0, 1, [(0, 1)], 1, ""⟩,
  ⟨"DriftFirst", 0x5100, 64, 15, 1, .u32, .st, some .page, .integrator, 0, 4, [(0, 4294967295)], 4, ""⟩,
  ⟨"DriftCount", 0x5100, 64, 16, 1, .u16, .st, some .page, .integrator, 64, 2, [(4, 1024)], 4, ""⟩,
  ⟨"DriftShift", 0x5100, 64, 17, 1, .u8, .st, some .cycle, .integrator, 4, 1, [(0, 8)], 1, ""⟩,
  ⟨"DriftRange", 0x5100, 64, 18, 1, .u8, .st, some .cycle, .integrator, 10, 1, [(1, 50)], 1, "%"⟩,
  ⟨"DriftLag", 0x5100, 64, 19, 1, .u8, .st, some .cycle, .integrator, 4, 1, [(2, 64)], 1, "phase cycles"⟩,
  ⟨"SatLow", 0x5100, 64, 20, 1, .u32, .ro, none, .operator, 0, 4, [(0, 4294967295)], 1, "Pixels"⟩,
  ⟨"SatHigh", 0x5100, 64, 21, 1, .u32, .ro, none, .operator, 0, 4, [(0, 4294967295)], 1, "Pixels"⟩,
  ⟨"NormClamps", 0x5100, 64, 22, 1, .u32, .ro, none, .operator, 0, 4, [(0, 4294967295)], 1, "Lines"⟩,
  ⟨"DriftClamps", 0x5100, 64, 23, 1, .u32, .ro, none, .operator, 0, 4, [(0, 4294967295)], 1, "Lines"⟩,
  ⟨"DriftLate", 0x5100, 64, 24, 1, .u32, .ro, none, .operator, 0, 4, [(0, 4294967295)], 1, "Lines"⟩,
  ⟨"DefectUnreplaced", 0x5100, 64, 25, 1, .u32, .ro, none, .operator, 0, 4, [(0, 4294967295)], 1, "Pixels"⟩,
  ⟨"LinesRepaired", 0x5100, 64, 26, 1, .u32, .ro, none, .operator, 0, 4, [(0, 4294967295)], 1, "Lines"⟩,
  ⟨"LineRateExceeded", 0x5100, 64, 27, 1, .u32, .ro, none, .operator, 0, 4, [(0, 4294967295)], 1, "Events"⟩,
  ⟨"Tributary", 0x5200, 64, 1, 16, .record, .st, some .mode, .integrator, 0, 8, [], 1, ""⟩,
  ⟨"ExposureRef", 0x5300, 64, 1, 16, .u32, .st, some .cycle, .integrator, 40000, 4, [(4000, 4000000)], 1, "1/4 ns"⟩,
  ⟨"DriftRef", 0x5300, 64, 17, 16, .u18, .st, some .page, .integrator, 200000, 3, [(1, 262143)], 1, ""⟩,
  ⟨"DriftFactor", 0x5300, 64, 33, 16, .fx2_16, .ro, none, .operator, 65536, 3, [(0, 262143)], 1, ""⟩,
  ⟨"CoefTable", 0x5400, 64, 1, 1, .domain, .st, some .page, .integrator, 0, 0, [], 1, ""⟩,
  ⟨"DefectMap", 0x5400, 64, 2, 1, .domain, .st, some .page, .integrator, 0, 0, [], 1, ""⟩,
  ⟨"TableState", 0x5400, 64, 3, 1, .u8, .ro, none, .operator, 0, 1, [(0, 255)], 1, ""⟩,
  ⟨"Curve", 0x5501, 255, 1, 1, .domain, .st, some .page, .integrator, 0, 0, [], 1, ""⟩,
  ⟨"CalAreaFree", 0x5600, 1, 1, 1, .u32, .ro, none, .operator, 25165824, 4, [(0, 4294967295)], 1, "Pixel-phase records"⟩,
  ⟨"WarmupState", 0x5600, 1, 2, 1, .u8, .ro, none, .operator, 0, 1, [(0, 255)], 1, ""⟩,
  ⟨"WarmupThreshold", 0x5600, 1, 3, 1, .u32, .rw, none, .integrator, 200, 4, [(10, 100000)], 1, "ppm/s"⟩,
  ⟨"WarmupInterval", 0x5600, 1, 4, 1, .u16, .rw, none, .integrator, 100, 2, [(10, 10000)], 1, "ms"⟩,
  ⟨"WarmupHold", 0x5600, 1, 5, 1, .u8, .rw, none, .integrator, 10, 1, [(1, 255)], 1, "intervals"⟩,
  ⟨"WarmupTimeout", 0x5600, 1, 6, 1, .u16, .rw, none, .integrator, 900, 2, [(10, 3600)], 1, "s"⟩,
  ⟨"WarmupElapsed", 0x5600, 1, 7, 1, .u32, .ro, none, .operator, 0, 4, [(0, 4294967295)], 1, "ms"⟩,
  ⟨"WarmupRestart", 0x5600, 1, 8, 1, .bool, .wo, none, .integrator, 0, 1, [(0, 1)], 1, ""⟩,
  ⟨"WarmupSource", 0x5600, 1, 9, 8, .u32, .rw, none, .integrator, 0, 4, [(0, 4294967295)], 1, ""⟩,
  ⟨"WarmupRate", 0x5600, 1, 17, 8, .u32, .ro, none, .operator, 0, 4, [(0, 4294967295)], 1, "ppm/s"⟩,
  ⟨"CalCommand", 0x5700, 64, 1, 1, .u8, .wo, none, .integrator, 0, 1, [(1, 6)], 1, ""⟩,
  ⟨"CalStatus", 0x5700, 64, 2, 1, .u32, .ro, none, .operator, 0, 4, [(0, 4294967295)], 1, ""⟩,
  ⟨"CalLines", 0x5700, 64, 3, 1, .u16, .rw, none, .integrator, 256, 2, [(16, 1024)], 1, ""⟩,
  ⟨"CalPhaseMask", 0x5700, 64, 4, 1, .u16, .rw, none, .integrator, 65535, 2, [(0, 65535)], 1, ""⟩,
  ⟨"CalPedestal", 0x5700, 64, 5, 1, .u18, .rw, none, .integrator, 0, 3, [(0, 65535)], 1, ""⟩,
  ⟨"CalWhiteTarget", 0x5700, 64, 6, 1, .u18, .rw, none, .integrator, 200000, 3, [(1024, 262143)], 1, ""⟩,
  ⟨"CalGainMax", 0x5700, 64, 7, 1, .fx2_16, .rw, none, .integrator, 196608, 3, [(65536, 262143)], 1, ""⟩,
  ⟨"DefectDarkLimit", 0x5700, 64, 8, 1, .u18, .rw, none, .integrator, 2048, 3, [(1, 262143)], 1, ""⟩]

/-- Rows 160 to 199 of the catalogue. -/
def catalogue4 : List Row := [
  ⟨"DefectWhitePct", 0x5700, 64, 9, 1, .u8, .rw, none, .integrator, 25, 1, [(1, 100)], 1, "%"⟩,
  ⟨"DefectNoiseLimit", 0x5700, 64, 10, 1, .u18, .rw, none, .integrator, 1024, 3, [(1, 262143)], 1, ""⟩,
  ⟨"CalAccum", 0x5700, 64, 11, 1, .domain, .ro, none, .integrator, 0, 0, [], 1, ""⟩,
  ⟨"CalReport", 0x5700, 64, 12, 1, .record, .ro, none, .operator, 0, 16, [], 1, ""⟩,
  ⟨"CalMaxAge", 0x5700, 64, 13, 1, .u32, .rw, none, .integrator, 600, 4, [(1, 86400)], 1, "s"⟩,
  ⟨"CalAutoStage", 0x5700, 64, 14, 1, .bool, .rw, none, .integrator, 1, 1, [(0, 1)], 1, ""⟩,
  ⟨"CalDerived", 0x5700, 64, 15, 1, .domain, .ro, none, .integrator, 0, 0, [], 1, ""⟩,
  ⟨"PosFormat", 0x6010, 16, 1, 1, .u8, .st, some .mode, .integrator, 0, 1, [(0, 3)], 1, ""⟩,
  ⟨"PosInvert", 0x6010, 16, 2, 1, .bool, .st, some .mode, .integrator, 0, 1, [(0, 1)], 1, ""⟩,
  ⟨"WireCheck", 0x6010, 16, 3, 1, .u16, .st, some .mode, .integrator, 200, 2, [(0, 0), (50, 10000)], 1, "ns"⟩,
  ⟨"MinEdgeTime", 0x6010, 16, 4, 1, .u16, .st, some .mode, .integrator, 25, 2, [(25, 65535)], 1, "ns"⟩,
  ⟨"FilterCycles", 0x6010, 16, 5, 1, .u8, .st, some .mode, .integrator, 0, 1, [(0, 255)], 1, "cycles of 2.5 ns"⟩,
  ⟨"CountsPerRev", 0x6010, 16, 6, 1, .u32, .st, some .mode, .integrator, 0, 4, [(0, 0), (2, 4294967295)], 1, ""⟩,
  ⟨"DirHysteresis", 0x6010, 16, 7, 1, .bool, .st, some .mode, .integrator, 1, 1, [(0, 1)], 1, ""⟩,
  ⟨"Count", 0x6010, 16, 8, 1, .u32, .ro, none, .operator, 0, 4, [(0, 4294967295)], 1, "Counts"⟩,
  ⟨"Revolution", 0x6010, 16, 9, 1, .u32, .ro, none, .operator, 0, 4, [(0, 4294967295)], 1, "Revolutions"⟩,
  ⟨"ExtendedPosition", 0x6010, 16, 10, 1, .s64, .ro, none, .operator, 0, 8, [(-9223372036854775808, 9223372036854775807)], 1, "Counts"⟩,
  ⟨"PosStatus", 0x6010, 16, 11, 1, .u32, .ro, none, .operator, 0, 4, [(0, 4294967295)], 1, ""⟩,
  ⟨"PosEdgeLatch", 0x6010, 16, 12, 1, .record, .ro, none, .operator, 0, 16, [], 1, ""⟩,
  ⟨"PosCapture", 0x6010, 16, 13, 1, .record, .ro, none, .operator, 0, 24, [], 1, ""⟩,
  ⟨"EdgeFaults", 0x6010, 16, 14, 1, .u32, .ro, none, .operator, 0, 4, [(0, 4294967295)], 1, "Edges"⟩,
  ⟨"WireFaults", 0x6010, 16, 15, 1, .u32, .ro, none, .operator, 0, 4, [(0, 4294967295)], 1, "Events"⟩,
  ⟨"ExtrapEdges", 0x6010, 16, 16, 1, .u8, .st, some .mode, .integrator, 4, 1, [(1, 8)], 1, ""⟩,
  ⟨"ExtrapMaxGap", 0x6010, 16, 17, 1, .u32, .st, some .mode, .integrator, 100000, 4, [(1000, 100000000)], 1, "ns"⟩,
  ⟨"Velocity", 0x6010, 16, 18, 1, .s32, .ro, none, .operator, 0, 4, [(-2147483648, 2147483647)], 1, "Counts/s"⟩,
  ⟨"PosPreset", 0x6010, 16, 19, 1, .s64, .wo, none, .integrator, 0, 8, [(-9223372036854775808, 9223372036854775807)], 1, "Counts"⟩,
  ⟨"IndexCount", 0x6040, 16, 1, 1, .u32, .st, some .mode, .integrator, 0, 4, [(0, 4294967295)], 1, "Counts"⟩,
  ⟨"IndexPolicy", 0x6040, 16, 2, 1, .u8, .st, some .immediate, .integrator, 0, 1, [(0, 2)], 1, ""⟩,
  ⟨"IndexWindow", 0x6040, 16, 3, 1, .u16, .st, some .immediate, .integrator, 4, 2, [(0, 65535)], 1, "counts"⟩,
  ⟨"IndexLatched", 0x6040, 16, 4, 1, .u32, .ro, none, .operator, 0, 4, [(0, 4294967295)], 1, "Counts"⟩,
  ⟨"IndexError", 0x6040, 16, 5, 1, .s32, .ro, none, .operator, 0, 4, [(-2147483648, 2147483647)], 1, "Counts"⟩,
  ⟨"IndexRearm", 0x6040, 16, 6, 1, .bool, .wo, none, .integrator, 0, 1, [(0, 1)], 1, ""⟩,
  ⟨"IndexMismatches", 0x6040, 16, 7, 1, .u32, .ro, none, .operator, 0, 4, [(0, 4294967295)], 1, "Events"⟩,
  ⟨"LinePitch", 0x6020, 1, 1, 64, .fx16_16, .st, some .page, .integrator, 65536, 4, [(16384, 4294967295)], 1, "counts"⟩,
  ⟨"TriggerSource", 0x6021, 1, 1, 64, .u8, .st, some .mode, .integrator, 0, 1, [(0, 0), (1, 1)], 1, ""⟩,
  ⟨"TriggerChannel", 0x6022, 1, 1, 64, .u8, .st, some .mode, .integrator, 255, 1, [(0, 15), (255, 255)], 1, ""⟩,
  ⟨"TriggerStartOffset", 0x6023, 1, 1, 64, .fx16_16, .st, some .line, .integrator, 0, 4, [(0, 4294967295)], 1, "Counts"⟩,
  ⟨"LinePeriod", 0x6024, 1, 1, 64, .u32, .st, some .line, .integrator, 400000, 4, [(2000, 4000000000)], 1, "1/4 ns"⟩,
  ⟨"FreezeLead", 0x6025, 1, 1, 64, .u32, .st, some .line, .integrator, 11000, 4, [(1100, 1001000)], 1, "ns"⟩,
  ⟨"TriggerTolerance", 0x6026, 1, 1, 64, .fx16_16, .st, some .line, .integrator, 8192, 4, [(655, 65536)], 1, "counts"⟩]

/-- Rows 200 to 239 of the catalogue. -/
def catalogue5 : List Row := [
  ⟨"TriggerMinPeriod", 0x6027, 1, 1, 64, .u32, .st, some .line, .integrator, 1000, 4, [(500, 100000000)], 1, "ns"⟩,
  ⟨"TriggerMaxDelay", 0x6028, 1, 1, 64, .u32, .st, some .line, .integrator, 5000, 4, [(0, 1000000)], 1, "ns"⟩,
  ⟨"TriggerBase", 0x6029, 1, 1, 64, .s64, .ro, none, .operator, 0, 8, [(-9223372036854775808, 9223372036854775807)], 1, "1/65,536 counts"⟩,
  ⟨"NextLine", 0x602A, 1, 1, 64, .u32, .ro, none, .operator, 0, 4, [(0, 4294967295)], 1, ""⟩,
  ⟨"TriggerSlips", 0x602B, 1, 1, 64, .u32, .ro, none, .operator, 0, 4, [(0, 4294967295)], 1, "Lines"⟩,
  ⟨"OverspeedLines", 0x602C, 1, 1, 64, .u32, .ro, none, .operator, 0, 4, [(0, 4294967295)], 1, "Lines"⟩,
  ⟨"CompareValue", 0x6080, 64, 1, 1, .u32, .rw, none, .integrator, 0, 4, [(0, 4294967295)], 1, ""⟩,
  ⟨"CompareCtl", 0x6080, 64, 2, 1, .u32, .rw, none, .integrator, 65536, 4, [(0, 4294967295)], 1, ""⟩,
  ⟨"MotEnable", 0x6050, 16, 1, 1, .bool, .rw, none, .integrator, 0, 1, [(0, 1)], 1, ""⟩,
  ⟨"MotMode", 0x6050, 16, 2, 1, .u8, .rw, none, .integrator, 1, 1, [(1, 1), (2, 2), (3, 3)], 1, ""⟩,
  ⟨"MotTarget", 0x6050, 16, 3, 1, .s64, .rw, none, .operator, 0, 8, [(-9223372036854775808, 9223372036854775807)], 1, "Steps"⟩,
  ⟨"MotVelocity", 0x6050, 16, 4, 1, .s32, .rw, none, .operator, 0, 4, [(-2147483648, 2147483647)], 1, "steps/s"⟩,
  ⟨"MotVMax", 0x6050, 16, 5, 1, .u32, .rw, none, .integrator, 10000, 4, [(1, 5000000)], 1, "steps/s"⟩,
  ⟨"MotAMax", 0x6050, 16, 6, 1, .u32, .rw, none, .integrator, 100000, 4, [(1, 4294967295)], 1, "steps/s²"⟩,
  ⟨"MotJMax", 0x6050, 16, 7, 1, .u32, .rw, none, .integrator, 10000000, 4, [(1, 4294967295)], 1, "steps/s³"⟩,
  ⟨"MotQuickDecel", 0x6050, 16, 8, 1, .u32, .rw, none, .integrator, 1000000, 4, [(1, 4294967295)], 1, "steps/s²"⟩,
  ⟨"StepWidth", 0x6050, 16, 9, 1, .u16, .st, some .mode, .integrator, 100, 2, [(50, 10000)], 1, "ns"⟩,
  ⟨"DirSetup", 0x6050, 16, 10, 1, .u16, .st, some .mode, .integrator, 1000, 2, [(100, 50000)], 1, "ns"⟩,
  ⟨"MotPolarity", 0x6050, 16, 11, 1, .u8, .st, some .mode, .integrator, 0, 1, [(0, 255)], 1, ""⟩,
  ⟨"CommandedPosition", 0x6050, 16, 12, 1, .s64, .ro, none, .operator, 0, 8, [(-9223372036854775808, 9223372036854775807)], 1, "Steps"⟩,
  ⟨"MotState", 0x6050, 16, 13, 1, .u8, .ro, none, .operator, 0, 1, [(0, 255)], 1, ""⟩,
  ⟨"CommandedVelocity", 0x6050, 16, 14, 1, .s32, .ro, none, .operator, 0, 4, [(-2147483648, 2147483647)], 1, "Steps/s"⟩,
  ⟨"MotCommand", 0x6050, 16, 15, 1, .u8, .wo, none, .operator, 0, 1, [(1, 4)], 1, ""⟩,
  ⟨"FollowChannel", 0x6050, 16, 16, 1, .u8, .st, some .mode, .integrator, 255, 1, [(0, 15), (255, 255)], 1, ""⟩,
  ⟨"FollowRatio", 0x6050, 16, 17, 1, .fx16_16, .st, some .mode, .integrator, 65536, 4, [(0, 4294967295)], 1, "Counts per step"⟩,
  ⟨"FollowLimit", 0x6050, 16, 18, 1, .u32, .rw, none, .integrator, 64, 4, [(1, 1000000)], 1, "counts"⟩,
  ⟨"FollowError", 0x6050, 16, 19, 1, .s32, .ro, none, .operator, 0, 4, [(-2147483648, 2147483647)], 1, "Counts"⟩,
  ⟨"TioConfig", 0x6200, 96, 1, 1, .u32, .st, some .mode, .integrator, 0, 4, [(0, 4294967295)], 1, ""⟩,
  ⟨"TioLevel", 0x6200, 96, 2, 1, .bool, .ro, none, .operator, 0, 1, [(0, 1)], 1, ""⟩,
  ⟨"TioLastEdge", 0x6200, 96, 3, 1, .time64, .ro, none, .operator, 0, 8, [(0, 18446744073709551615)], 1, "ns"⟩,
  ⟨"TioPulseAt", 0x6200, 96, 4, 1, .time64, .wo, none, .operator, 0, 8, [(0, 18446744073709551615)], 1, "ns"⟩,
  ⟨"TransportKind", 0x6110, 16, 1, 1, .u8, .st, some .mode, .integrator, 0, 1, [(0, 2)], 1, ""⟩,
  ⟨"TransportMotion", 0x6110, 16, 2, 1, .u8, .st, some .mode, .integrator, 255, 1, [(0, 15), (255, 255)], 1, ""⟩,
  ⟨"TransportChannel", 0x6110, 16, 3, 1, .u8, .st, some .mode, .integrator, 255, 1, [(0, 15), (255, 255)], 1, ""⟩,
  ⟨"BackupDistance", 0x6110, 16, 4, 1, .u32, .st, some .mode, .integrator, 4000, 4, [(1, 1000000000)], 1, "counts"⟩,
  ⟨"BackupVelocity", 0x6110, 16, 5, 1, .u32, .st, some .mode, .integrator, 10000, 4, [(1, 5000000)], 1, "steps/s"⟩,
  ⟨"StopDwell", 0x6110, 16, 6, 1, .u32, .st, some .mode, .integrator, 2000, 4, [(0, 1000000)], 1, "µs"⟩,
  ⟨"PacingMode", 0x6110, 16, 7, 1, .u8, .st, some .immediate, .integrator, 0, 1, [(0, 0), (1, 1)], 1, ""⟩,
  ⟨"PacingFixed", 0x6110, 16, 8, 1, .u8, .st, some .immediate, .integrator, 0, 1, [(0, 7)], 1, ""⟩,
  ⟨"PacingMin", 0x6110, 16, 9, 1, .u8, .st, some .immediate, .integrator, 0, 1, [(0, 7)], 1, ""⟩]

/-- Rows 240 to 279 of the catalogue. -/
def catalogue6 : List Row := [
  ⟨"PacingMax", 0x6110, 16, 10, 1, .u8, .st, some .mode, .integrator, 0, 1, [(0, 7)], 1, ""⟩,
  ⟨"PacingDwell", 0x6110, 16, 11, 1, .u16, .rw, none, .integrator, 50, 2, [(1, 10000)], 1, "ms"⟩,
  ⟨"PacingPresets", 0x6110, 16, 12, 1, .u8, .st, some .mode, .integrator, 1, 1, [(1, 8)], 1, ""⟩,
  ⟨"RampRefSpeed", 0x6110, 16, 13, 1, .u32, .st, some .page, .integrator, 40000, 4, [(1, 4000000000)], 1, "counts/s"⟩,
  ⟨"TransportStatus", 0x6110, 16, 14, 1, .u32, .ro, none, .operator, 0, 4, [(0, 4294967295)], 1, ""⟩,
  ⟨"SeamCommand", 0x6110, 16, 15, 1, .u8, .wo, none, .integrator, 0, 1, [(1, 1), (2, 2)], 1, ""⟩,
  ⟨"DivertHold", 0x6110, 16, 16, 1, .u32, .st, some .page, .integrator, 10000, 4, [(0, 1000000)], 1, "µs"⟩,
  ⟨"PacingPreset", 0x6110, 16, 17, 8, .u64, .st, some .mode, .integrator, 1000, 8, [(0, 18446744073709551615)], 1, ""⟩,
  ⟨"PacingClamps", 0x6110, 16, 25, 1, .u32, .ro, none, .operator, 0, 4, [(0, 4294967295)], 1, "Events"⟩,
  ⟨"StreamTransport", 0x6100, 1, 1, 64, .u8, .st, some .mode, .integrator, 255, 1, [(0, 15), (255, 255)], 1, ""⟩,
  ⟨"RampExposure", 0x6101, 1, 1, 64, .u8, .st, some .page, .integrator, 0, 1, [(0, 0), (1, 1)], 1, ""⟩,
  ⟨"ExpectedPageLines", 0x6102, 1, 1, 64, .u32, .st, some .page, .integrator, 65536, 4, [(1, 16777215)], 1, "lines"⟩,
  ⟨"LastBeforeStop", 0x6103, 1, 1, 64, .u32, .ro, none, .operator, 0, 4, [(0, 4294967295)], 1, ""⟩,
  ⟨"SeamResumes", 0x6104, 1, 1, 64, .u32, .ro, none, .operator, 0, 4, [(0, 4294967295)], 1, "Lines"⟩,
  ⟨"PagesHeld", 0x6105, 1, 1, 64, .u32, .ro, none, .operator, 0, 4, [(0, 4294967295)], 1, "Pages"⟩,
  ⟨"PagesDiverted", 0x6106, 1, 1, 64, .u32, .ro, none, .operator, 0, 4, [(0, 4294967295)], 1, "Pages"⟩,
  ⟨"LampRail", 0x7000, 1, 1, 1, .u8, .st, some .mode, .integrator, 7, 1, [(0, 7)], 1, ""⟩,
  ⟨"HeadroomMode", 0x7000, 1, 2, 1, .u8, .st, some .immediate, .integrator, 1, 1, [(0, 0), (1, 1)], 1, ""⟩,
  ⟨"LampRailFixed", 0x7000, 1, 3, 1, .u16, .st, some .immediate, .integrator, 12000, 2, [(5000, 24000)], 1, "mV"⟩,
  ⟨"LampRailMin", 0x7000, 1, 4, 1, .u16, .st, some .immediate, .integrator, 5000, 2, [(5000, 24000)], 1, "mV"⟩,
  ⟨"LampRailMax", 0x7000, 1, 5, 1, .u16, .st, some .immediate, .integrator, 24000, 2, [(5000, 24000)], 1, "mV"⟩,
  ⟨"HeadroomTarget", 0x7000, 1, 6, 1, .u16, .rw, none, .integrator, 300, 2, [(100, 2000)], 1, "mV"⟩,
  ⟨"HeadroomPeriod", 0x7000, 1, 7, 1, .u16, .rw, none, .integrator, 1000, 2, [(100, 60000)], 1, "µs"⟩,
  ⟨"LampRailSetpoint", 0x7000, 1, 8, 1, .u16, .ro, none, .operator, 0, 2, [(0, 65535)], 1, "mV"⟩,
  ⟨"BlankTime", 0x7000, 1, 9, 1, .u16, .st, some .mode, .integrator, 50, 2, [(50, 10000)], 1, "ns"⟩,
  ⟨"DischargeTime", 0x7000, 1, 10, 1, .u16, .st, some .mode, .integrator, 30, 2, [(10, 10000)], 1, "ns"⟩,
  ⟨"BandLead", 0x7000, 1, 11, 1, .u16, .st, some .mode, .integrator, 100, 2, [(0, 1000)], 1, "ns"⟩,
  ⟨"ColumnDutyLimit", 0x7000, 1, 12, 1, .u8, .st, some .mode, .integrator, 70, 1, [(10, 100)], 1, "%"⟩,
  ⟨"LiftPct", 0x7000, 1, 13, 1, .u8, .rw, none, .integrator, 40, 1, [(0, 100)], 1, "%"⟩,
  ⟨"OpenConfirm", 0x7000, 1, 14, 1, .u8, .rw, none, .integrator, 4, 1, [(1, 16)], 1, "pulses"⟩,
  ⟨"ShortMargin", 0x7000, 1, 15, 1, .u16, .rw, none, .integrator, 2000, 2, [(500, 20000)], 1, "mV"⟩,
  ⟨"SyncRole", 0x7000, 1, 16, 1, .u8, .st, some .mode, .integrator, 0, 1, [(0, 0), (1, 1), (2, 2)], 1, ""⟩,
  ⟨"SyncApplyDelay", 0x7000, 1, 17, 1, .u32, .st, some .mode, .integrator, 20000, 4, [(2000, 10000000)], 1, "ns"⟩,
  ⟨"SyncFire", 0x7000, 1, 18, 1, .bool, .wo, none, .integrator, 0, 1, [(0, 1)], 1, ""⟩,
  ⟨"SyncCount", 0x7000, 1, 19, 1, .u32, .ro, none, .operator, 0, 4, [(0, 4294967295)], 1, "Broadcasts"⟩,
  ⟨"CrosspointSelect", 0x7000, 1, 20, 1, .u16, .rw, none, .operator, 0, 2, [(0, 1023)], 1, ""⟩,
  ⟨"CrosspointStatus", 0x7000, 1, 21, 1, .u32, .ro, none, .operator, 0, 4, [(0, 4294967295)], 1, ""⟩,
  ⟨"CrosspointSinkMv", 0x7000, 1, 22, 1, .u16, .ro, none, .operator, 0, 2, [(0, 65535)], 1, "mV"⟩,
  ⟨"LampTest", 0x7000, 1, 23, 1, .bool, .wo, none, .integrator, 0, 1, [(0, 1)], 1, ""⟩,
  ⟨"LampTrim", 0x7000, 1, 24, 1, .domain, .st, some .sync, .integrator, 0, 0, [], 1, ""⟩]

/-- Rows 280 to 319 of the catalogue. -/
def catalogue7 : List Row := [
  ⟨"HeadroomClamps", 0x7000, 1, 25, 1, .u32, .ro, none, .operator, 0, 4, [(0, 4294967295)], 1, "Events"⟩,
  ⟨"UnverifiedCount", 0x7000, 1, 26, 1, .u16, .ro, none, .operator, 0, 2, [(0, 65535)], 1, "Crosspoints"⟩,
  ⟨"BandEnable", 0x7010, 16, 1, 1, .bool, .rw, none, .integrator, 0, 1, [(0, 1)], 1, ""⟩,
  ⟨"BandColumns", 0x7010, 16, 2, 1, .u64, .st, some .mode, .integrator, 0, 8, [(0, 18446744073709551615)], 1, ""⟩,
  ⟨"BandFullScale", 0x7010, 16, 3, 1, .u16, .st, some .sync, .integrator, 0, 2, [(0, 4095)], 1, "codes"⟩,
  ⟨"BandCurve", 0x7010, 16, 4, 1, .u32, .st, some .sync, .integrator, 0, 4, [(0, 4294967295)], 1, ""⟩,
  ⟨"BandPolarity", 0x7010, 16, 5, 1, .u8, .st, some .mode, .integrator, 0, 1, [(0, 0), (1, 1)], 1, ""⟩,
  ⟨"BandViewers", 0x7010, 16, 6, 1, .u64, .st, some .mode, .integrator, 0, 8, [(0, 18446744073709551615)], 1, ""⟩,
  ⟨"BandCuts", 0x7010, 16, 7, 1, .u32, .ro, none, .operator, 0, 4, [(0, 4294967295)], 1, "Pulses"⟩,
  ⟨"PhaseExposure", 0x7100, 64, 1, 16, .u32, .st, some .cycle, .integrator, 40000, 4, [(4000, 4000000)], 1, "1/4 ns"⟩,
  ⟨"PhaseLight", 0x7100, 64, 17, 16, .u64, .st, some .sync, .integrator, 0, 8, [(0, 18446744073709551615)], 1, ""⟩,
  ⟨"LampGuard", 0x7100, 64, 33, 1, .u16, .st, some .mode, .integrator, 100, 2, [(25, 10000)], 1, "ns"⟩,
  ⟨"DiagSuppress", 0x7100, 64, 34, 1, .bool, .st, some .page, .integrator, 0, 1, [(0, 1)], 1, ""⟩,
  ⟨"DiagLinesWithheld", 0x7100, 64, 35, 1, .u32, .ro, none, .operator, 0, 4, [(0, 4294967295)], 1, "Lines"⟩,
  ⟨"ReservoirUsable", 0x8000, 1, 1, 1, .u64, .ro, none, .operator, 48318382080, 8, [(0, 18446744073709551615)], 1, "Bytes"⟩,
  ⟨"ReservoirFree", 0x8000, 1, 2, 1, .u64, .ro, none, .operator, 0, 8, [(0, 18446744073709551615)], 1, "Bytes"⟩,
  ⟨"WriteBudgetUsed", 0x8000, 1, 3, 1, .u32, .ro, none, .operator, 0, 4, [(0, 4294967295)], 1, "Mbit/s"⟩,
  ⟨"ReadBudgetUsed", 0x8000, 1, 4, 1, .u32, .ro, none, .operator, 0, 4, [(0, 4294967295)], 1, "Mbit/s"⟩,
  ⟨"ChannelFailed", 0x8000, 1, 5, 1, .u32, .ro, none, .operator, 0, 4, [(0, 4294967295)], 1, ""⟩,
  ⟨"ReservoirCorrected", 0x8000, 1, 6, 1, .u32, .ro, none, .operator, 0, 4, [(0, 4294967295)], 1, "Units"⟩,
  ⟨"ReservoirRebuilt", 0x8000, 1, 7, 1, .u32, .ro, none, .operator, 0, 4, [(0, 4294967295)], 1, "Units"⟩,
  ⟨"ReservoirLost", 0x8000, 1, 8, 1, .u32, .ro, none, .operator, 0, 4, [(0, 4294967295)], 1, "Lines"⟩,
  ⟨"RingLines", 0x8100, 64, 1, 1, .u32, .st, some .mode, .integrator, 0, 4, [(0, 0), (256, 16777215)], 1, ""⟩,
  ⟨"RingBase", 0x8100, 64, 2, 1, .u64, .ro, none, .operator, 0, 8, [(0, 18446744073709551615)], 1, ""⟩,
  ⟨"SlotBytes", 0x8100, 64, 3, 1, .u32, .ro, none, .operator, 0, 4, [(0, 4294967295)], 1, "Bytes"⟩,
  ⟨"StoredWidthMax", 0x8100, 64, 4, 1, .u8, .st, some .mode, .integrator, 16, 1, [(8, 8), (10, 10), (12, 12), (14, 14), (16, 16), (18, 18)], 1, "bits"⟩,
  ⟨"CompressionAllowed", 0x8100, 64, 5, 1, .bool, .st, some .mode, .integrator, 0, 1, [(0, 1)], 1, ""⟩,
  ⟨"RingStatus", 0x8100, 64, 6, 1, .u32, .ro, none, .operator, 0, 4, [(0, 4294967295)], 1, ""⟩,
  ⟨"WriteLine", 0x8100, 64, 7, 1, .u64, .ro, none, .operator, 0, 8, [(0, 18446744073709551615)], 1, ""⟩,
  ⟨"OldestMark", 0x8100, 64, 8, 1, .u64, .ro, none, .operator, 18446744073709551615, 8, [(0, 18446744073709551615)], 1, ""⟩,
  ⟨"HighWater", 0x8100, 64, 9, 1, .u32, .st, some .line, .integrator, 55706300, 4, [(0, 4294967295)], 1, "‰"⟩,
  ⟨"RingWeir", 0x8100, 64, 10, 3, .u32, .st, some .line, .integrator, 0, 4, [(0, 4294967295)], 1, "‰"⟩,
  ⟨"DroppedLines", 0x8100, 64, 13, 1, .u32, .ro, none, .operator, 0, 4, [(0, 4294967295)], 1, "Lines"⟩,
  ⟨"PageMode", 0x8100, 64, 14, 1, .u8, .st, some .mode, .integrator, 0, 1, [(0, 0), (1, 1), (2, 2)], 1, ""⟩,
  ⟨"PageCycles", 0x8100, 64, 15, 1, .u32, .st, some .page, .integrator, 1024, 4, [(1, 16777215)], 1, "cycles"⟩,
  ⟨"PageLeadCycles", 0x8100, 64, 16, 1, .u16, .st, some .page, .integrator, 0, 2, [(0, 4096)], 1, "cycles"⟩,
  ⟨"PageTrailCycles", 0x8100, 64, 17, 1, .u16, .st, some .page, .integrator, 0, 2, [(0, 4096)], 1, "cycles"⟩,
  ⟨"PageMaxCycles", 0x8100, 64, 18, 1, .u32, .st, some .page, .integrator, 1048576, 4, [(1, 16777215)], 1, "cycles"⟩,
  ⟨"GateOffset", 0x8100, 64, 19, 1, .fx16_16, .st, some .page, .integrator, 0, 4, [(0, 4294967295)], 1, "Counts"⟩,
  ⟨"GateDelay", 0x8100, 64, 20, 1, .u32, .st, some .page, .integrator, 0, 4, [(0, 4000000000)], 1, "ns"⟩]

/-- Rows 320 to 359 of the catalogue. -/
def catalogue8 : List Row := [
  ⟨"DeliverScope", 0x8100, 64, 21, 1, .u8, .st, some .mode, .integrator, 0, 1, [(0, 0), (1, 1), (2, 2)], 1, ""⟩,
  ⟨"PageRecordEntries", 0x8100, 64, 22, 1, .u16, .st, some .mode, .integrator, 1024, 2, [(16, 65535)], 1, ""⟩,
  ⟨"PageRelease", 0x8100, 64, 23, 1, .u32, .wo, none, .operator, 0, 4, [(0, 4294967295)], 1, ""⟩,
  ⟨"PagesClosed", 0x8100, 64, 24, 1, .u32, .ro, none, .operator, 0, 4, [(0, 4294967295)], 1, "Pages"⟩,
  ⟨"PageRecordSelect", 0x8100, 64, 25, 1, .u32, .rw, none, .operator, 0, 4, [(0, 4294967295)], 1, ""⟩,
  ⟨"PageRecord", 0x8100, 64, 26, 1, .record, .ro, none, .operator, 0, 128, [], 1, ""⟩,
  ⟨"FetchMissing", 0x8100, 64, 27, 1, .u32, .ro, none, .operator, 0, 4, [(0, 4294967295)], 1, "Lines"⟩,
  ⟨"FetchWait", 0x8100, 64, 28, 1, .u32, .rw, none, .integrator, 100000, 4, [(0, 10000000)], 1, "µs"⟩,
  ⟨"HostMark", 0x8200, 64, 1, 8, .u64, .rw, none, .operator, 18446744073709551615, 8, [(0, 18446744073709551615)], 1, ""⟩,
  ⟨"EdgeEnable", 0x8300, 64, 1, 1, .bool, .st, some .page, .integrator, 0, 1, [(0, 1)], 1, ""⟩,
  ⟨"EdgePhase", 0x8300, 64, 2, 1, .u8, .st, some .page, .integrator, 0, 1, [(0, 15)], 1, ""⟩,
  ⟨"EdgeFirst", 0x8300, 64, 3, 1, .u32, .st, some .page, .integrator, 0, 4, [(0, 4294967295)], 4, ""⟩,
  ⟨"EdgeCount", 0x8300, 64, 4, 1, .u32, .st, some .page, .integrator, 0, 4, [(0, 0), (4, 262144)], 4, ""⟩,
  ⟨"EdgePolarity", 0x8300, 64, 5, 1, .u8, .st, some .page, .integrator, 0, 1, [(0, 0), (1, 1)], 1, ""⟩,
  ⟨"EdgeThresholdMode", 0x8300, 64, 6, 1, .u8, .st, some .page, .integrator, 0, 1, [(0, 0), (1, 1)], 1, ""⟩,
  ⟨"EdgeThreshold", 0x8300, 64, 7, 1, .u18, .st, some .page, .integrator, 131072, 3, [(0, 262143)], 1, ""⟩,
  ⟨"EdgeContrast", 0x8300, 64, 8, 1, .u18, .st, some .page, .integrator, 20000, 3, [(1, 262143)], 1, ""⟩,
  ⟨"EdgeThresholdMin", 0x8300, 64, 9, 1, .u18, .st, some .page, .integrator, 0, 3, [(0, 262143)], 1, ""⟩,
  ⟨"EdgeThresholdMax", 0x8300, 64, 10, 1, .u18, .st, some .page, .integrator, 262143, 3, [(0, 262143)], 1, ""⟩,
  ⟨"EdgeThresholdNow", 0x8300, 64, 11, 1, .u18, .ro, none, .operator, 0, 3, [(0, 262143)], 1, ""⟩,
  ⟨"EdgeMinPixels", 0x8300, 64, 12, 1, .u18, .st, some .page, .integrator, 16, 3, [(1, 262143)], 1, ""⟩,
  ⟨"EdgeConfirm", 0x8300, 64, 13, 1, .u8, .st, some .page, .integrator, 4, 1, [(1, 64)], 1, "lines"⟩,
  ⟨"SkewScale", 0x8300, 64, 14, 1, .fx16_16, .st, some .page, .integrator, 65536, 4, [(1, 4294967295)], 1, ""⟩,
  ⟨"SkewSide", 0x8300, 64, 15, 1, .u8, .st, some .page, .integrator, 0, 1, [(0, 0), (1, 1), (2, 2)], 1, ""⟩,
  ⟨"CropMarginPixels", 0x8300, 64, 16, 1, .u16, .st, some .page, .integrator, 32, 2, [(0, 65535)], 1, ""⟩,
  ⟨"CropMarginCycles", 0x8300, 64, 17, 1, .u16, .st, some .page, .integrator, 8, 2, [(0, 65535)], 1, ""⟩,
  ⟨"EdgeClamps", 0x8300, 64, 18, 1, .u32, .ro, none, .operator, 0, 4, [(0, 4294967295)], 1, "Events"⟩,
  ⟨"HostLinkState", 0x9000, 1, 1, 1, .u32, .ro, none, .operator, 0, 4, [(0, 4294967295)], 1, ""⟩,
  ⟨"HostLinkRating", 0x9000, 1, 2, 1, .u32, .ro, none, .operator, 0, 4, [(0, 4294967295)], 1, "MB/s"⟩,
  ⟨"DeliveryWeights", 0x9000, 1, 3, 1, .u32, .st, some .immediate, .integrator, 525313, 4, [(0, 4294967295)], 1, ""⟩,
  ⟨"Class0HostLoad", 0x9000, 1, 4, 1, .u32, .ro, none, .operator, 0, 4, [(0, 4294967295)], 1, "MB/s"⟩,
  ⟨"LinkRetrains", 0x9000, 1, 5, 1, .u32, .ro, none, .operator, 0, 4, [(0, 4294967295)], 1, "Events"⟩,
  ⟨"Bar4WritesDropped", 0x9000, 1, 6, 1, .u32, .ro, none, .operator, 0, 4, [(0, 4294967295)], 1, "Writes"⟩,
  ⟨"DescriptorsBad", 0x9000, 1, 7, 1, .u32, .ro, none, .operator, 0, 4, [(0, 4294967295)], 1, "Descriptors"⟩,
  ⟨"StreamChannel", 0x9010, 1, 1, 64, .u16, .st, some .mode, .integrator, 65535, 2, [(0, 255), (65535, 65535)], 1, ""⟩,
  ⟨"ChannelSelect", 0x9020, 1, 1, 1, .u8, .rw, none, .operator, 0, 1, [(0, 255)], 1, ""⟩,
  ⟨"ChannelStatus", 0x9020, 1, 2, 1, .u32, .ro, none, .operator, 0, 4, [(0, 4294967295)], 1, ""⟩,
  ⟨"ChannelDisable", 0x9020, 1, 3, 1, .bool, .wo, none, .integrator, 0, 1, [(0, 1)], 1, ""⟩,
  ⟨"FeIslandState", 0xA000, 1, 1, 2, .u8, .ro, none, .operator, 0, 1, [(0, 255)], 1, ""⟩,
  ⟨"ClampFlags", 0xA000, 1, 3, 1, .u64, .ro, none, .operator, 0, 8, [(0, 18446744073709551615)], 1, ""⟩]

/-- Rows 360 to 399 of the catalogue. -/
def catalogue9 : List Row := [
  ⟨"ClampEvents", 0xA000, 1, 4, 1, .u32, .ro, none, .operator, 0, 4, [(0, 4294967295)], 1, "Events"⟩,
  ⟨"FeRingBase", 0xA000, 1, 5, 2, .u32, .st, some .mode, .integrator, 4294967295, 4, [(0, 4294967295)], 1, ""⟩,
  ⟨"FeRingBytes", 0xA000, 1, 7, 2, .u32, .st, some .mode, .integrator, 4096, 4, [(4096, 65536)], 1, ""⟩,
  ⟨"FeDropped", 0xA000, 1, 9, 2, .u32, .ro, none, .operator, 0, 4, [(0, 4294967295)], 1, "Items"⟩,
  ⟨"FeQueueFlush", 0xA000, 1, 11, 2, .bool, .wo, none, .integrator, 0, 1, [(0, 1)], 1, ""⟩,
  ⟨"FeQueueState", 0xA000, 1, 13, 2, .u8, .ro, none, .operator, 0, 1, [(0, 255)], 1, ""⟩,
  ⟨"FeCalPeriod", 0xA000, 1, 15, 1, .u32, .rw, none, .integrator, 600, 4, [(0, 86400)], 1, "s"⟩,
  ⟨"TestDacLevel", 0xA000, 1, 16, 2, .u16, .rw, none, .integrator, 0, 2, [(0, 65535)], 1, ""⟩,
  ⟨"FeTestTolerance", 0xA000, 1, 18, 1, .u16, .rw, none, .integrator, 50, 2, [(1, 1000)], 1, "0.01 %"⟩,
  ⟨"BiasLevel", 0xA000, 1, 19, 2, .u16, .st, some .mode, .integrator, 2500, 2, [(500, 4500)], 1, "mV"⟩,
  ⟨"PinRole", 0xA100, 1, 1, 64, .u16, .st, some .mode, .integrator, 0, 2, [(0, 65535)], 1, ""⟩,
  ⟨"ChEnable", 0xA200, 64, 1, 1, .bool, .st, some .immediate, .integrator, 0, 1, [(0, 1)], 1, ""⟩,
  ⟨"ChPos", 0xA200, 64, 2, 1, .u8, .st, some .immediate, .integrator, 0, 1, [(0, 63)], 1, ""⟩,
  ⟨"ChNeg", 0xA200, 64, 3, 1, .u8, .st, some .immediate, .integrator, 64, 1, [(0, 63), (64, 64)], 1, ""⟩,
  ⟨"ChConverter", 0xA200, 64, 4, 1, .u8, .st, some .mode, .integrator, 0, 1, [(0, 15)], 1, ""⟩,
  ⟨"ChInjected", 0xA200, 64, 5, 1, .bool, .st, some .mode, .integrator, 0, 1, [(0, 1)], 1, ""⟩,
  ⟨"ChGain", 0xA200, 64, 6, 1, .u8, .st, some .immediate, .integrator, 1, 1, [(0, 8)], 1, ""⟩,
  ⟨"AutoRange", 0xA200, 64, 7, 1, .u16, .st, some .immediate, .integrator, 1024, 2, [(0, 65535)], 1, ""⟩,
  ⟨"AvgCount", 0xA200, 64, 8, 1, .u16, .st, some .immediate, .integrator, 1, 2, [(1, 256)], 1, ""⟩,
  ⟨"AvgShift", 0xA200, 64, 9, 1, .u8, .st, some .immediate, .integrator, 0, 1, [(0, 8)], 1, ""⟩,
  ⟨"Preset", 0xA200, 64, 10, 1, .u8, .st, some .immediate, .integrator, 1, 1, [(0, 0), (1, 1), (2, 2), (3, 3)], 1, ""⟩,
  ⟨"DetGenerator", 0xA200, 64, 11, 1, .u8, .st, some .immediate, .integrator, 255, 1, [(0, 7), (255, 255)], 1, ""⟩,
  ⟨"DetPhase", 0xA200, 64, 12, 1, .s32, .st, some .immediate, .integrator, 0, 4, [(-3141593, 3141593)], 1, "µrad"⟩,
  ⟨"ChThreshold", 0xA200, 64, 13, 2, .u64, .rw, none, .integrator, 0, 8, [(0, 18446744073709551615)], 1, ""⟩,
  ⟨"LastValue", 0xA200, 64, 15, 1, .s32, .ro, none, .operator, 0, 4, [(-2147483648, 2147483647)], 1, "1/4 µV"⟩,
  ⟨"LastPhase", 0xA200, 64, 16, 1, .s32, .ro, none, .operator, 0, 4, [(-2147483648, 2147483647)], 1, "µrad"⟩,
  ⟨"ChStatus", 0xA200, 64, 17, 1, .u32, .ro, none, .operator, 0, 4, [(0, 4294967295)], 1, ""⟩,
  ⟨"ThrEvents", 0xA200, 64, 18, 1, .u32, .ro, none, .operator, 0, 4, [(0, 4294967295)], 1, "Events"⟩,
  ⟨"ChTest", 0xA200, 64, 19, 1, .bool, .wo, none, .integrator, 0, 1, [(0, 1)], 1, ""⟩,
  ⟨"ChTestResult", 0xA200, 64, 20, 1, .u64, .ro, none, .operator, 0, 8, [(0, 18446744073709551615)], 1, ""⟩,
  ⟨"AutoRangeHold", 0xA200, 64, 21, 1, .u16, .st, some .immediate, .integrator, 64, 2, [(1, 65535)], 1, "codes"⟩,
  ⟨"ConvMode", 0xA300, 16, 1, 1, .u8, .st, some .mode, .integrator, 0, 1, [(0, 3)], 1, ""⟩,
  ⟨"SeqChannel", 0xA300, 16, 2, 16, .u8, .st, some .immediate, .integrator, 255, 1, [(0, 63), (255, 255)], 1, ""⟩,
  ⟨"TrigSource", 0xA300, 16, 18, 1, .u32, .st, some .immediate, .integrator, 0, 4, [(0, 4294967295)], 1, ""⟩,
  ⟨"TrigPeriod", 0xA300, 16, 19, 1, .u32, .st, some .immediate, .integrator, 2000, 4, [(2000, 4000000000)], 1, "1/4 ns"⟩,
  ⟨"TrigDelay", 0xA300, 16, 20, 1, .u32, .st, some .immediate, .integrator, 0, 4, [(0, 1000000)], 1, "ns"⟩,
  ⟨"TrigWidth", 0xA300, 16, 21, 1, .u32, .st, some .immediate, .integrator, 1000, 4, [(10, 1000000000)], 1, "ns"⟩,
  ⟨"LowPower", 0xA300, 16, 22, 1, .bool, .st, some .immediate, .integrator, 0, 1, [(0, 1)], 1, ""⟩,
  ⟨"ConvState", 0xA300, 16, 23, 1, .u8, .ro, none, .operator, 0, 1, [(0, 255)], 1, ""⟩,
  ⟨"FeCalibrate", 0xA300, 16, 24, 1, .bool, .wo, none, .integrator, 0, 1, [(0, 1)], 1, ""⟩]

/-- Rows 400 to 439 of the catalogue. -/
def catalogue10 : List Row := [
  ⟨"MissedTriggers", 0xA300, 16, 25, 1, .u32, .ro, none, .operator, 0, 4, [(0, 4294967295)], 1, "Triggers"⟩,
  ⟨"InjTrigSource", 0xA300, 16, 26, 1, .u32, .st, some .immediate, .integrator, 0, 4, [(0, 4294967295)], 1, ""⟩,
  ⟨"ConvStart", 0xA300, 16, 27, 1, .bool, .wo, none, .operator, 0, 1, [(0, 1)], 1, ""⟩,
  ⟨"GenEnable", 0xA400, 8, 1, 1, .bool, .rw, none, .integrator, 0, 1, [(0, 1)], 1, ""⟩,
  ⟨"GenFrequency", 0xA400, 8, 2, 1, .u32, .rw, none, .integrator, 536871, 4, [(107, 5368709)], 1, ""⟩,
  ⟨"GenAmplitude", 0xA400, 8, 3, 1, .u16, .rw, none, .integrator, 0, 2, [(0, 2400)], 1, "mV peak"⟩,
  ⟨"GenOffset", 0xA400, 8, 4, 1, .u16, .rw, none, .integrator, 2500, 2, [(100, 4900)], 1, "mV"⟩,
  ⟨"GenState", 0xA400, 8, 5, 1, .u8, .ro, none, .operator, 0, 1, [(0, 255)], 1, ""⟩,
  ⟨"GenChanges", 0xA400, 8, 6, 1, .u32, .ro, none, .operator, 0, 4, [(0, 4294967295)], 1, "Changes"⟩,
  ⟨"NodeAddress", 0x1000, 1, 1, 1, .u8, .ro, none, .operator, 0, 1, [(0, 255)], 1, ""⟩,
  ⟨"AddressSource", 0x1000, 1, 2, 1, .u8, .ro, none, .operator, 0, 1, [(0, 255)], 1, ""⟩,
  ⟨"MacAddress", 0x1000, 1, 3, 1, .u64, .ro, none, .operator, 0, 8, [(0, 18446744073709551615)], 1, ""⟩,
  ⟨"KdpEtherType", 0x1000, 1, 4, 1, .u16, .st, some .mode, .integrator, 34997, 2, [(1536, 65535)], 1, ""⟩,
  ⟨"KdpGroupMac", 0x1000, 1, 5, 1, .u64, .st, some .mode, .integrator, 3298534918325, 8, [(0, 18446744073709551615)], 1, ""⟩,
  ⟨"PlcaToTimer", 0x1000, 1, 6, 1, .u8, .st, some .mode, .integrator, 32, 1, [(1, 255)], 1, "bit times"⟩,
  ⟨"PlcaBurstCount", 0x1000, 1, 7, 1, .u8, .st, some .mode, .integrator, 0, 1, [(0, 255)], 1, "frames"⟩,
  ⟨"PlcaBurstTimer", 0x1000, 1, 8, 1, .u8, .st, some .mode, .integrator, 128, 1, [(1, 255)], 1, "bit times"⟩,
  ⟨"FnStatus", 0x1000, 1, 9, 1, .u32, .ro, none, .operator, 0, 4, [(0, 4294967295)], 1, ""⟩,
  ⟨"AssignTimeout", 0x1000, 1, 10, 1, .u16, .rw, none, .integrator, 50, 2, [(10, 1000)], 1, "ms"⟩,
  ⟨"FnFrameErrors", 0x1000, 1, 11, 1, .u32, .ro, none, .operator, 0, 4, [(0, 4294967295)], 1, "Frames"⟩,
  ⟨"KdpMalformed", 0x1000, 1, 12, 1, .u32, .ro, none, .operator, 0, 4, [(0, 4294967295)], 1, "Packets"⟩,
  ⟨"OpenAccess", 0x1010, 1, 1, 1, .bool, .rw, none, .securityOfficer, 1, 1, [(0, 1)], 1, ""⟩,
  ⟨"SessionTimeout", 0x1010, 1, 2, 1, .u16, .rw, none, .integrator, 60, 2, [(5, 3600)], 1, "s"⟩,
  ⟨"SessionsOpen", 0x1010, 1, 3, 1, .u8, .ro, none, .operator, 0, 1, [(0, 255)], 1, ""⟩,
  ⟨"AuthFailures", 0x1010, 1, 4, 1, .u32, .ro, none, .operator, 0, 4, [(0, 4294967295)], 1, "Proofs"⟩,
  ⟨"SegWindow", 0x1020, 1, 1, 1, .u8, .rw, none, .integrator, 8, 1, [(1, 32)], 1, "packets"⟩,
  ⟨"SegTimeout", 0x1020, 1, 2, 1, .u16, .rw, none, .integrator, 1000, 2, [(100, 60000)], 1, "ms"⟩,
  ⟨"EventSubscribers", 0x1030, 1, 1, 1, .u8, .ro, none, .operator, 0, 1, [(0, 255)], 1, ""⟩,
  ⟨"EventRetry", 0x1030, 1, 2, 1, .u16, .rw, none, .integrator, 100, 2, [(10, 10000)], 1, "ms"⟩,
  ⟨"EventsLost", 0x1030, 1, 3, 1, .u32, .ro, none, .operator, 0, 4, [(0, 4294967295)], 1, "Events"⟩,
  ⟨"EventsPending", 0x1030, 1, 4, 1, .u16, .ro, none, .operator, 0, 2, [(0, 65535)], 1, ""⟩,
  ⟨"EventCatalogue", 0x1030, 1, 5, 1, .domain, .ro, none, .operator, 0, 0, [], 1, ""⟩,
  ⟨"PtpRole", 0x1050, 1, 1, 1, .u8, .st, some .mode, .integrator, 1, 1, [(0, 2)], 1, ""⟩,
  ⟨"PtpDomain", 0x1050, 1, 2, 1, .u8, .st, some .mode, .integrator, 0, 1, [(0, 127)], 1, ""⟩,
  ⟨"PtpLogSync", 0x1050, 1, 3, 1, .s8, .st, some .mode, .integrator, -4, 1, [(-7, 1)], 1, "log2 s"⟩,
  ⟨"PtpStatus", 0x1050, 1, 4, 1, .u32, .ro, none, .operator, 0, 4, [(0, 4294967295)], 1, ""⟩,
  ⟨"PtpOffset", 0x1050, 1, 5, 1, .s64, .ro, none, .operator, 0, 8, [(-9223372036854775808, 9223372036854775807)], 1, "ns"⟩,
  ⟨"PpsOutEnable", 0x1050, 1, 6, 1, .bool, .rw, none, .integrator, 0, 1, [(0, 1)], 1, ""⟩,
  ⟨"PpsWidth", 0x1050, 1, 7, 1, .u32, .rw, none, .integrator, 100000, 4, [(100, 500000000)], 1, "ns"⟩,
  ⟨"PpsInOffset", 0x1050, 1, 8, 1, .s32, .ro, none, .operator, 0, 4, [(-2147483648, 2147483647)], 1, "ns"⟩]

/-- Rows 440 to 479 of the catalogue. -/
def catalogue11 : List Row := [
  ⟨"PtpPathDelay", 0x1050, 1, 9, 1, .u32, .ro, none, .operator, 0, 4, [(0, 4294967295)], 1, "ns"⟩,
  ⟨"VendorName", 0x100, 1, 1, 1, .str, .ro, none, .operator, 0, 0, [], 1, ""⟩,
  ⟨"ProductName", 0x100, 1, 2, 1, .str, .ro, none, .operator, 0, 0, [], 1, ""⟩,
  ⟨"OrderCode", 0x100, 1, 3, 1, .str, .ro, none, .operator, 0, 0, [], 1, ""⟩,
  ⟨"Stepping", 0x100, 1, 4, 1, .str, .ro, none, .operator, 0, 0, [], 1, ""⟩,
  ⟨"SerialNumber", 0x100, 1, 5, 1, .str, .ro, none, .operator, 0, 0, [], 1, ""⟩,
  ⟨"ReservoirStacks", 0x100, 1, 6, 1, .u8, .ro, none, .operator, 0, 1, [(0, 255)], 1, ""⟩,
  ⟨"TemperatureGrade", 0x100, 1, 7, 1, .u8, .ro, none, .operator, 0, 1, [(0, 255)], 1, ""⟩,
  ⟨"PrimroseVersion", 0x100, 1, 8, 1, .u32, .ro, none, .operator, 0, 4, [(0, 4294967295)], 1, ""⟩,
  ⟨"PeonyVersion", 0x100, 1, 9, 1, .u32, .ro, none, .operator, 0, 4, [(0, 4294967295)], 1, ""⟩,
  ⟨"DictionaryVersion", 0x100, 1, 10, 1, .u16, .ro, none, .operator, 0, 2, [(0, 65535)], 1, ""⟩,
  ⟨"ObjectDirectory", 0x100, 1, 11, 1, .domain, .ro, none, .operator, 0, 0, [], 1, ""⟩,
  ⟨"HealthSummary", 0x2040, 1, 1, 1, .record, .ro, none, .operator, 0, 8, [], 1, ""⟩,
  ⟨"TjCoreDie", 0x2040, 1, 2, 1, .s16, .ro, none, .operator, 0, 2, [(-32768, 32767)], 1, "0.1 °C"⟩,
  ⟨"TjFrontDie", 0x2040, 1, 3, 1, .s16, .ro, none, .operator, 0, 2, [(-32768, 32767)], 1, "0.1 °C"⟩,
  ⟨"TjDram", 0x2040, 1, 4, 1, .s16, .ro, none, .operator, 0, 2, [(-32768, 32767)], 1, "0.1 °C"⟩,
  ⟨"TjMaxSeen", 0x2040, 1, 5, 1, .s16, .ro, none, .operator, 0, 2, [(-32768, 32767)], 1, "0.1 °C"⟩,
  ⟨"DevicePower", 0x2040, 1, 6, 1, .u32, .ro, none, .operator, 0, 4, [(0, 4294967295)], 1, "mW"⟩,
  ⟨"Uptime", 0x2040, 1, 7, 1, .u64, .ro, none, .operator, 0, 8, [(0, 18446744073709551615)], 1, "ms"⟩,
  ⟨"FaultCounts", 0x2040, 1, 8, 1, .record, .ro, none, .operator, 0, 20, [], 1, ""⟩,
  ⟨"EventsRaised", 0x2040, 1, 9, 1, .u32, .ro, none, .operator, 0, 4, [(0, 4294967295)], 1, "Events"⟩,
  ⟨"ModeState", 0x2000, 1, 1, 1, .u8, .ro, none, .operator, 0, 1, [(0, 255)], 1, ""⟩,
  ⟨"ModeRequest", 0x2000, 1, 2, 1, .u8, .wo, none, .operator, 0, 1, [(1, 1), (3, 9), (11, 11)], 1, ""⟩,
  ⟨"ModeTarget", 0x2000, 1, 3, 1, .u8, .ro, none, .operator, 255, 1, [(0, 255)], 1, ""⟩,
  ⟨"ModePrevious", 0x2000, 1, 4, 1, .u8, .ro, none, .operator, 0, 1, [(0, 255)], 1, ""⟩,
  ⟨"ModeEntryTime", 0x2000, 1, 5, 1, .time64, .ro, none, .operator, 0, 8, [(0, 18446744073709551615)], 1, "ns"⟩,
  ⟨"DegradedCause", 0x2000, 1, 6, 1, .record, .ro, none, .operator, 0, 16, [], 1, ""⟩,
  ⟨"SafeHaltCause", 0x2000, 1, 7, 1, .u8, .ro, none, .operator, 0, 1, [(0, 255)], 1, ""⟩,
  ⟨"WakeSources", 0x2000, 1, 8, 1, .u8, .rw, none, .integrator, 1, 1, [(0, 255)], 1, ""⟩,
  ⟨"SpareCoreWarm", 0x2000, 1, 9, 1, .bool, .st, some .mode, .integrator, 1, 1, [(0, 1)], 1, ""⟩,
  ⟨"TjWarnLimit", 0x2000, 1, 10, 1, .s16, .rw, none, .integrator, 950, 2, [(-400, 1050)], 1, "0.1 °C"⟩,
  ⟨"TjShutdown", 0x2000, 1, 11, 1, .s16, .ro, none, .operator, 1100, 2, [(-32768, 32767)], 1, "0.1 °C"⟩,
  ⟨"ModeTransitions", 0x2000, 1, 12, 1, .u32, .ro, none, .operator, 0, 4, [(0, 4294967295)], 1, "Transitions"⟩,
  ⟨"DomainState", 0x2100, 64, 1, 1, .u8, .ro, none, .operator, 0, 1, [(0, 255)], 1, ""⟩,
  ⟨"DomainSwitchings", 0x2100, 64, 2, 1, .u32, .ro, none, .operator, 0, 4, [(0, 4294967295)], 1, "Events"⟩,
  ⟨"DomainPower", 0x2100, 64, 3, 1, .u32, .ro, none, .operator, 0, 4, [(0, 4294967295)], 1, "mW"⟩,
  ⟨"RailState", 0x2200, 8, 1, 1, .u8, .ro, none, .operator, 0, 1, [(0, 255)], 1, ""⟩,
  ⟨"RailSetpoint", 0x2200, 8, 2, 1, .u16, .ro, none, .operator, 0, 2, [(0, 65535)], 1, "0.5 mV"⟩,
  ⟨"RailVoltage", 0x2200, 8, 3, 1, .u16, .ro, none, .operator, 0, 2, [(0, 65535)], 1, "mV"⟩,
  ⟨"RailCurrent", 0x2200, 8, 4, 1, .u32, .ro, none, .operator, 0, 4, [(0, 4294967295)], 1, "mA"⟩]

/-- Rows 480 to 519 of the catalogue. -/
def catalogue12 : List Row := [
  ⟨"RailPhases", 0x2200, 8, 5, 1, .u8, .ro, none, .operator, 0, 1, [(0, 255)], 1, "Phases"⟩,
  ⟨"RailFrequency", 0x2200, 8, 6, 1, .u32, .ro, none, .operator, 0, 4, [(0, 4294967295)], 1, "kHz"⟩,
  ⟨"RailFaults", 0x2200, 8, 7, 1, .u32, .ro, none, .operator, 0, 4, [(0, 4294967295)], 1, "Events"⟩,
  ⟨"AvsMode", 0x2300, 1, 1, 1, .u8, .st, some .immediate, .integrator, 1, 1, [(0, 0), (1, 1)], 1, ""⟩,
  ⟨"AvsFloor", 0x2300, 1, 2, 1, .u16, .st, some .immediate, .integrator, 700, 2, [(650, 900)], 1, "mV"⟩,
  ⟨"AvsCeiling", 0x2300, 1, 3, 1, .u16, .st, some .immediate, .integrator, 850, 2, [(650, 900)], 1, "mV"⟩,
  ⟨"AvsFixed", 0x2300, 1, 4, 1, .u16, .st, some .immediate, .integrator, 800, 2, [(650, 900)], 1, "mV"⟩,
  ⟨"AvsTarget", 0x2300, 1, 5, 1, .u8, .st, some .immediate, .integrator, 8, 1, [(2, 32)], 1, "codes"⟩,
  ⟨"AvsSetpoint", 0x2300, 1, 6, 1, .u16, .ro, none, .operator, 0, 2, [(0, 65535)], 1, "0.5 mV"⟩,
  ⟨"AvsSlack", 0x2300, 1, 7, 1, .s8, .ro, none, .operator, 0, 1, [(-128, 127)], 1, "Codes"⟩,
  ⟨"AvsStatus", 0x2300, 1, 8, 1, .u8, .ro, none, .operator, 0, 1, [(0, 255)], 1, ""⟩,
  ⟨"AvsClamps", 0x2300, 1, 9, 1, .u32, .ro, none, .operator, 0, 4, [(0, 4294967295)], 1, "Events"⟩,
  ⟨"AvsDroops", 0x2300, 1, 10, 1, .u32, .ro, none, .operator, 0, 4, [(0, 4294967295)], 1, "Events"⟩,
  ⟨"AvsDroopLog", 0x2300, 1, 11, 1, .domain, .ro, none, .operator, 0, 0, [], 1, ""⟩,
  ⟨"ArbiterPending", 0xB000, 1, 1, 1, .u16, .ro, none, .operator, 0, 2, [(0, 65535)], 1, "Reports"⟩,
  ⟨"InsertionsEmergency", 0xB000, 1, 2, 1, .u32, .ro, none, .operator, 0, 4, [(0, 4294967295)], 1, "Insertions"⟩,
  ⟨"InsertionsPlanned", 0xB000, 1, 3, 1, .u32, .ro, none, .operator, 0, 4, [(0, 4294967295)], 1, "Insertions"⟩,
  ⟨"PlannedWaitMax", 0xB000, 1, 4, 1, .u32, .rw, none, .integrator, 60000, 4, [(100, 86400000)], 1, "ms"⟩,
  ⟨"SpareTestPeriod", 0xB000, 1, 5, 1, .u32, .rw, none, .integrator, 10000, 4, [(100, 3600000)], 1, "ms"⟩,
  ⟨"FaultLog", 0xB000, 1, 6, 1, .domain, .ro, none, .operator, 0, 0, [], 1, ""⟩,
  ⟨"TmrState", 0xB000, 1, 7, 1, .u8, .ro, none, .operator, 0, 1, [(0, 255)], 1, ""⟩,
  ⟨"LockstepState", 0xB000, 1, 8, 1, .u8, .ro, none, .operator, 0, 1, [(0, 255)], 1, ""⟩,
  ⟨"SparePoolLeft", 0xB000, 1, 16, 8, .u32, .ro, none, .operator, 0, 4, [(0, 4294967295)], 1, "Units"⟩,
  ⟨"FaultPolicy", 0xB100, 256, 1, 1, .u16, .st, some .immediate, .integrator, 0, 2, [(0, 65535)], 1, ""⟩,
  ⟨"FaultKindCount", 0xB100, 256, 2, 1, .u32, .ro, none, .operator, 0, 4, [(0, 4294967295)], 1, "Reports"⟩,
  ⟨"FaultKindLast", 0xB100, 256, 3, 1, .record, .ro, none, .operator, 0, 16, [], 1, ""⟩,
  ⟨"LaneWearHorizon", 0xB200, 1, 1, 1, .u32, .rw, none, .integrator, 720, 4, [(24, 87600)], 1, "h"⟩,
  ⟨"SliceWearCount", 0xB200, 1, 2, 1, .u8, .rw, none, .integrator, 3, 1, [(1, 255)], 1, ""⟩,
  ⟨"AgeingDriftLimit", 0xB200, 1, 3, 1, .u16, .rw, none, .integrator, 300, 2, [(10, 2000)], 1, "0.01 %"⟩,
  ⟨"LampWearPct", 0xB200, 1, 4, 1, .u8, .rw, none, .integrator, 15, 1, [(1, 100)], 1, "%"⟩,
  ⟨"DramWearRate", 0xB200, 1, 5, 1, .u32, .rw, none, .integrator, 1000, 4, [(1, 1000000)], 1, "units/h"⟩,
  ⟨"CoefWearRows", 0xB200, 1, 6, 1, .u8, .rw, none, .integrator, 4, 1, [(0, 36)], 1, "rows"⟩,
  ⟨"WearUnitSelect", 0xB200, 1, 7, 1, .u16, .rw, none, .operator, 0, 2, [(0, 65535)], 1, ""⟩,
  ⟨"WearMeasure", 0xB200, 1, 8, 1, .s32, .ro, none, .operator, 0, 4, [(-2147483648, 2147483647)], 1, ""⟩,
  ⟨"SoftRepairs", 0xB300, 1, 1, 1, .domain, .ro, none, .operator, 0, 0, [], 1, ""⟩,
  ⟨"SoftRepairCount", 0xB300, 1, 2, 1, .u16, .ro, none, .operator, 0, 2, [(0, 65535)], 1, ""⟩,
  ⟨"RepairClear", 0xB300, 1, 3, 1, .u16, .wo, none, .integrator, 0, 2, [(0, 255), (65535, 65535)], 1, ""⟩,
  ⟨"HardRepairsUsed", 0xB300, 1, 4, 1, .u8, .ro, none, .operator, 0, 1, [(0, 255)], 1, ""⟩,
  ⟨"NodeAddressLock", 0xE001, 1, 1, 1, .u8, .lw, none, .integrator, 0, 1, [(1, 30)], 1, ""⟩,
  ⟨"ApprovedModeLock", 0xE002, 1, 1, 1, .bool, .lw, none, .securityOfficer, 0, 1, [(0, 1)], 1, ""⟩]

/-- Rows 520 to 559 of the catalogue. -/
def catalogue13 : List Row := [
  ⟨"DebugLock", 0xE003, 1, 1, 1, .bool, .lw, none, .securityOfficer, 0, 1, [(0, 1)], 1, ""⟩,
  ⟨"OwnerKeyHash", 0xE004, 1, 1, 1, .record, .lw, none, .securityOfficer, 0, 48, [], 1, ""⟩,
  ⟨"AntiRollback", 0xE005, 1, 1, 1, .u8, .lw, none, .securityOfficer, 0, 1, [(0, 64)], 1, ""⟩,
  ⟨"KeyRevocation", 0xE006, 1, 1, 1, .u64, .lw, none, .securityOfficer, 0, 8, [(0, 18446744073709551615)], 1, ""⟩,
  ⟨"KeyRevocation", 0xE006, 1, 3, 7, .u64, .lw, none, .securityOfficer, 0, 8, [(0, 18446744073709551615)], 1, ""⟩,
  ⟨"HardRepairMap", 0xE007, 1, 1, 1, .record, .ro, none, .operator, 0, 16, [], 1, ""⟩,
  ⟨"HardRepairMap", 0xE007, 1, 3, 47, .record, .ro, none, .operator, 0, 16, [], 1, ""⟩,
  ⟨"HardRepairPromote", 0xE007, 1, 50, 1, .u8, .lw, none, .integrator, 0, 1, [(0, 255)], 1, ""⟩,
  ⟨"SecurityState", 0xC000, 1, 1, 1, .u8, .ro, none, .operator, 0, 1, [(0, 255)], 1, ""⟩,
  ⟨"ApprovedState", 0xC000, 1, 2, 1, .u8, .ro, none, .operator, 0, 1, [(0, 255)], 1, ""⟩,
  ⟨"ApprovedConditions", 0xC000, 1, 3, 1, .u8, .ro, none, .operator, 0, 1, [(0, 255)], 1, ""⟩,
  ⟨"SelfTestRun", 0xC000, 1, 4, 1, .bool, .wo, none, .integrator, 0, 1, [(0, 1)], 1, ""⟩,
  ⟨"Zeroise", 0xC000, 1, 5, 1, .bool, .wo, none, .securityOfficer, 0, 1, [(0, 1)], 1, ""⟩,
  ⟨"VendorServiceEnable", 0xC000, 1, 6, 1, .bool, .rw, none, .securityOfficer, 0, 1, [(0, 1)], 1, ""⟩,
  ⟨"DebugState", 0xC000, 1, 7, 1, .u8, .ro, none, .operator, 0, 1, [(0, 255)], 1, ""⟩,
  ⟨"DebugUnlock", 0xC000, 1, 8, 1, .bool, .wo, none, .vendorService, 0, 1, [(0, 1)], 1, ""⟩,
  ⟨"RoleKey", 0xC010, 1, 1, 3, .record, .wo, none, .securityOfficer, 0, 32, [], 1, ""⟩,
  ⟨"OwnerKeyBlock", 0xC020, 1, 1, 1, .domain, .rw, none, .securityOfficer, 0, 0, [], 1, ""⟩,
  ⟨"OwnerTransferProof", 0xC020, 1, 2, 1, .domain, .wo, none, .securityOfficer, 0, 0, [], 1, ""⟩,
  ⟨"FirmwareImage", 0xC030, 1, 1, 1, .domain, .wo, none, .securityOfficer, 0, 0, [], 1, ""⟩,
  ⟨"FirmwareSlots", 0xC030, 1, 2, 1, .u32, .ro, none, .operator, 0, 4, [(0, 4294967295)], 1, ""⟩,
  ⟨"AttestKeyId", 0xC040, 1, 1, 1, .u64, .ro, none, .operator, 0, 8, [(0, 18446744073709551615)], 1, ""⟩,
  ⟨"AttestGeneration", 0xC040, 1, 2, 1, .u16, .ro, none, .operator, 0, 2, [(0, 65535)], 1, ""⟩,
  ⟨"AttestChain", 0xC040, 1, 3, 1, .domain, .ro, none, .operator, 0, 0, [], 1, ""⟩,
  ⟨"SealEnable", 0xC100, 1, 1, 64, .bool, .st, some .mode, .integrator, 0, 1, [(0, 1)], 1, ""⟩,
  ⟨"SealMaxDelay", 0xC110, 1, 1, 1, .u16, .rw, none, .integrator, 20, 2, [(1, 1000)], 1, "ms"⟩,
  ⟨"SealBlockSelect", 0xC110, 1, 2, 1, .u32, .rw, none, .operator, 0, 4, [(0, 4294967295)], 1, ""⟩,
  ⟨"SealBlock", 0xC110, 1, 3, 1, .domain, .ro, none, .operator, 0, 0, [], 1, ""⟩,
  ⟨"SealLastIndex", 0xC110, 1, 4, 1, .u32, .ro, none, .operator, 0, 4, [(0, 4294967295)], 1, ""⟩,
  ⟨"SealFailures", 0xC110, 1, 5, 1, .u32, .ro, none, .operator, 0, 4, [(0, 4294967295)], 1, "Pages"⟩,
  ⟨"SealLoad", 0xC110, 1, 6, 1, .u32, .ro, none, .operator, 0, 4, [(0, 4294967295)], 1, "MB/s"⟩,
  ⟨"AuditHead", 0xC200, 1, 1, 1, .record, .ro, none, .operator, 0, 56, [], 1, ""⟩,
  ⟨"AuditHeadSigned", 0xC200, 1, 2, 1, .domain, .ro, none, .operator, 0, 0, [], 1, ""⟩,
  ⟨"AuditLog", 0xC200, 1, 3, 1, .domain, .ro, none, .integrator, 0, 0, [], 1, ""⟩,
  ⟨"AuditFirst", 0xC200, 1, 4, 1, .u64, .rw, none, .integrator, 0, 8, [(0, 18446744073709551615)], 1, ""⟩,
  ⟨"AuditAck", 0xC200, 1, 5, 1, .u64, .wo, none, .securityOfficer, 0, 8, [(0, 18446744073709551615)], 1, ""⟩,
  ⟨"AuditStatus", 0xC200, 1, 6, 1, .u32, .ro, none, .operator, 0, 4, [(0, 4294967295)], 1, ""⟩,
  ⟨"TamperConfig", 0xC300, 1, 1, 4, .u16, .st, some .immediate, .securityOfficer, 10, 2, [(0, 65535)], 1, ""⟩,
  ⟨"TamperState", 0xC300, 1, 5, 1, .u16, .ro, none, .operator, 0, 2, [(0, 65535)], 1, ""⟩,
  ⟨"TamperClear", 0xC300, 1, 6, 1, .bool, .wo, none, .securityOfficer, 0, 1, [(0, 1)], 1, ""⟩]

/-- Rows 560 to 577 of the catalogue. -/
def catalogue14 : List Row := [
  ⟨"AlarmConfig", 0xC310, 1, 1, 4, .u16, .st, some .immediate, .integrator, 0, 2, [(0, 65535)], 1, ""⟩,
  ⟨"SandboxImage", 0xD000, 1, 1, 1, .domain, .st, some .mode, .integrator, 0, 0, [], 1, ""⟩,
  ⟨"SandboxEnable", 0xD000, 1, 2, 1, .bool, .st, some .mode, .integrator, 0, 1, [(0, 1)], 1, ""⟩,
  ⟨"SandboxRole", 0xD000, 1, 3, 1, .u8, .st, some .mode, .integrator, 0, 1, [(0, 0), (1, 1), (2, 2)], 1, ""⟩,
  ⟨"SandboxDebug", 0xD000, 1, 4, 1, .bool, .st, some .mode, .integrator, 0, 1, [(0, 1)], 1, ""⟩,
  ⟨"SandboxStatus", 0xD000, 1, 5, 1, .u8, .ro, none, .operator, 0, 1, [(0, 255)], 1, ""⟩,
  ⟨"ResetCause", 0x2050, 1, 1, 1, .u8, .ro, none, .operator, 1, 1, [(0, 255)], 1, ""⟩,
  ⟨"ResetCount", 0x2050, 1, 2, 1, .u32, .ro, none, .operator, 0, 4, [(0, 4294967295)], 1, "Resets"⟩,
  ⟨"BootStage", 0x2050, 1, 3, 1, .u16, .ro, none, .operator, 0, 2, [(0, 65535)], 1, ""⟩,
  ⟨"BootSlot", 0x2050, 1, 4, 1, .u8, .ro, none, .operator, 0, 1, [(0, 255)], 1, ""⟩,
  ⟨"BootTimes", 0x2050, 1, 5, 1, .record, .ro, none, .operator, 0, 12, [], 1, "µs"⟩,
  ⟨"BootWatchdog", 0x2050, 1, 6, 1, .u16, .rw, none, .integrator, 250, 2, [(150, 5000)], 1, "ms"⟩,
  ⟨"BootAttempts", 0x2050, 1, 7, 1, .u16, .ro, none, .operator, 0, 2, [(0, 65535)], 1, ""⟩,
  ⟨"PerstReach", 0x2050, 1, 8, 1, .u8, .rw, none, .integrator, 0, 1, [(0, 0), (1, 1)], 1, ""⟩,
  ⟨"DeviceReset", 0x2050, 1, 9, 1, .u8, .wo, none, .integrator, 0, 1, [(1, 1)], 1, ""⟩,
  ⟨"WatchdogPeriod", 0x2050, 1, 10, 1, .u16, .rw, none, .integrator, 1000, 2, [(100, 60000)], 1, "ms"⟩,
  ⟨"TypeSize", 0x1, 17, 1, 1, .u16, .ro, none, .operator, 0, 2, [(0, 65535)], 1, "Bits"⟩,
  ⟨"RemainingWrites", 0xE001, 7, 2, 1, .u16, .ro, none, .operator, 0, 2, [(0, 65535)], 1, ""⟩]

/-- Every row of the dictionary tables. -/
def catalogue : List Row :=
  catalogue0 ++ catalogue1 ++ catalogue2 ++ catalogue3 ++ catalogue4 ++ catalogue5 ++ catalogue6 ++ catalogue7 ++ catalogue8 ++ catalogue9 ++ catalogue10 ++ catalogue11 ++ catalogue12 ++ catalogue13 ++ catalogue14

end Sys2Proof.Machine
end

