-- ==== Sys2Proof/Machine/Objects.lean ====
section
/-! DEFINITION. The dictionary's entries by name: index, subindex and default of every object of the dictionary tables
(R59, R123, R173, R203, R204, R255, R283, R333, R334, R367, R404, R446, R501, R540, R587, R595, R636, R671, R716, R736). -/
namespace Sys2Proof.Machine

/-- A dictionary entry: where it stands and the value it holds until something writes it. -/
structure Obj where
  index : Nat
  sub : Nat
  dflt : Int
  deriving DecidableEq, Repr

/-- The entry's key in the register file. -/
def Obj.key (o : Obj) : Nat := o.index * 256 + o.sub

/-- The default of FaultPolicy by kind code (R640): SAFE_HALT bit 15, DEGRADE 14, STOP_TRANSPORTS 13, SPARE 12. -/
def faultPolicyDefault (code : Nat) : Int :=
  if code ∈ [0x01, 0x02, 0x03, 0x18, 0x19, 0x1D, 0x20, 0x28, 0x29] then 0x5000
  else if code ∈ [0x04, 0x06, 0x12, 0x1C, 0x21, 0x2A, 0x3C, 0x52] then 0x4000
  else if code ∈ [0x30, 0x33] then 0x2000
  else if code ∈ [0x38, 0x39, 0x3A, 0x60, 0x61, 0x62, 0x64] then 0x1000
  else if code ∈ [0x50, 0x54, 0x68] then 0x8000
  else 0

namespace Obj

/-- DeviceTime 0x2010:01, TIME64 RO (R59). -/
def deviceTime : Obj := ⟨0x2010, 1, 0⟩

/-- DtSource 0x2010:02, U8 ST (R59). -/
def dtSource : Obj := ⟨0x2010, 2, 0⟩

/-- DtMaxSlew 0x2010:03, U32 RW (R59). -/
def dtMaxSlew : Obj := ⟨0x2010, 3, 200000⟩

/-- QueueSelect 0x2020:01, U16 RW (R59). -/
def queueSelect : Obj := ⟨0x2020, 1, 0⟩

/-- QueueStatus 0x2020:02, U32 RO (R59). -/
def queueStatus : Obj := ⟨0x2020, 2, 0⟩

/-- QueuePointerFaults 0x2020:03, U32 RO (R59). -/
def queuePointerFaults : Obj := ⟨0x2020, 3, 0⟩

/-- QueueFlush 0x2020:04, BOOL WO (R59). -/
def queueFlush : Obj := ⟨0x2020, 4, 0⟩

/-- QueueMap 0x2020:05, DOMAIN RO (R59). -/
def queueMap : Obj := ⟨0x2020, 5, 0⟩

/-- IslandMap 0x2020:06, DOMAIN RO (R59). -/
def islandMap : Obj := ⟨0x2020, 6, 0⟩

/-- UnmatchedLines 0x2030:01, U32 RO (R59). -/
def unmatchedLines : Obj := ⟨0x2030, 1, 0⟩

/-- Class0Misses 0x2030:02, U32 RO (R59). -/
def class0Misses : Obj := ⟨0x2030, 2, 0⟩

/-- Class0CreditStallMax 0x2030:03, U32 RO (R59). -/
def class0CreditStallMax : Obj := ⟨0x2030, 3, 0⟩

/-- Class0Load 0x2030:04, U32 RO (R59). -/
def class0Load : Obj := ⟨0x2030, 4, 0⟩

/-- LineCloseTime 0x2031:s+1, U32 ST (R59). -/
def lineCloseTime (s : Nat) : Obj := ⟨0x2031, 1 + s, 200⟩

/-- EyeMarginWarn 0x3000:01, U8 RW (R123). -/
def eyeMarginWarn : Obj := ⟨0x3000, 1, 16⟩

/-- EyeMarginFail 0x3000:02, U8 RW (R123). -/
def eyeMarginFail : Obj := ⟨0x3000, 2, 8⟩

/-- TrainMaxTime 0x3000:03, U16 RW (R123). -/
def trainMaxTime : Obj := ⟨0x3000, 3, 100⟩

/-- TrainStepTimeout 0x3000:04, U16 RW (R123). -/
def trainStepTimeout : Obj := ⟨0x3000, 4, 100⟩

/-- BackChannelSwing 0x3000:05, U8 ST (R123). -/
def backChannelSwing : Obj := ⟨0x3000, 5, 2⟩

/-- LaneEnable 0x3100+n:01, BOOL ST (R123). -/
def laneEnable (n : Nat) : Obj := ⟨0x3100 + n, 1, 0⟩

/-- LaneStatus 0x3100+n:02, U32 RO (R123). -/
def laneStatus (n : Nat) : Obj := ⟨0x3100 + n, 2, 0⟩

/-- FwdPowerReq 0x3100+n:03, U8 RW (R123). -/
def fwdPowerReq (n : Nat) : Obj := ⟨0x3100 + n, 3, 0⟩

/-- BackPowerReq 0x3100+n:04, U8 RW (R123). -/
def backPowerReq (n : Nat) : Obj := ⟨0x3100 + n, 4, 0⟩

/-- EyeMargin 0x3100+n:05, U8 RO (R123). -/
def eyeMargin (n : Nat) : Obj := ⟨0x3100 + n, 5, 0⟩

/-- EyeMarginMin 0x3100+n:06, U8 RO (R123). -/
def eyeMarginMin (n : Nat) : Obj := ⟨0x3100 + n, 6, 64⟩

/-- TxTaps 0x3100+n:07, U32 RO (R123). -/
def txTaps (n : Nat) : Obj := ⟨0x3100 + n, 7, 0⟩

/-- TxPreMax 0x3100+n:08, U8 RW (R123). -/
def txPreMax (n : Nat) : Obj := ⟨0x3100 + n, 8, 10⟩

/-- TxPostMax 0x3100+n:09, U8 RW (R123). -/
def txPostMax (n : Nat) : Obj := ⟨0x3100 + n, 9, 20⟩

/-- CtleRange 0x3100+n:0A, U16 RW (R123). -/
def ctleRange (n : Nat) : Obj := ⟨0x3100 + n, 10, 7936⟩

/-- CodeErrors 0x3100+n:0B, U32 RO (R123). -/
def codeErrors (n : Nat) : Obj := ⟨0x3100 + n, 11, 0⟩

/-- LockLosses 0x3100+n:0C, U32 RO (R123). -/
def lockLosses (n : Nat) : Obj := ⟨0x3100 + n, 12, 0⟩

/-- LinkCtlErrors 0x3100+n:0D, U32 RO (R123). -/
def linkCtlErrors (n : Nat) : Obj := ⟨0x3100 + n, 13, 0⟩

/-- FillerDeleted 0x3100+n:0E, U32 RO (R123). -/
def fillerDeleted (n : Nat) : Obj := ⟨0x3100 + n, 14, 0⟩

/-- FillerInserted 0x3100+n:0F, U32 RO (R123). -/
def fillerInserted (n : Nat) : Obj := ⟨0x3100 + n, 15, 0⟩

/-- SkewUi 0x3100+n:10, U16 RO (R123). -/
def skewUi (n : Nat) : Obj := ⟨0x3100 + n, 16, 0⟩

/-- Retrain 0x3100+n:11, BOOL WO (R123). -/
def retrain (n : Nat) : Obj := ⟨0x3100 + n, 17, 0⟩

/-- PrbsCtl 0x3100+n:12, U32 RW (R123). -/
def prbsCtl (n : Nat) : Obj := ⟨0x3100 + n, 18, 536871912⟩

/-- PrbsErrors 0x3100+n:13, U32 RO (R123). -/
def prbsErrors (n : Nat) : Obj := ⟨0x3100 + n, 19, 0⟩

/-- PrbsBits 0x3100+n:14, U64 RO (R123). -/
def prbsBits (n : Nat) : Obj := ⟨0x3100 + n, 20, 0⟩

/-- CameraPrbsErrors 0x3100+n:15, U32 RO (R123). -/
def cameraPrbsErrors (n : Nat) : Obj := ⟨0x3100 + n, 21, 0⟩

/-- AckInterval 0x3300:01, U16 RW (R173). -/
def ackInterval : Obj := ⟨0x3300, 1, 1000⟩

/-- ReplayTimeout 0x3300:02, U16 RW (R173). -/
def replayTimeout : Obj := ⟨0x3300, 2, 16⟩

/-- GroupLane 0x3200+g:01 to :08, U8 ST (R173). -/
def groupLane (g e : Nat) : Obj := ⟨0x3200 + g, 1 + e, 255⟩

/-- GroupSpare 0x3200+g:09, U8 ST (R173). -/
def groupSpare (g : Nat) : Obj := ⟨0x3200 + g, 9, 255⟩

/-- GroupStatus 0x3200+g:0A, U32 RO (R173). -/
def groupStatus (g : Nat) : Obj := ⟨0x3200 + g, 10, 0⟩

/-- PixelWidth 0x3200+g:0B, U8 ST (R173). -/
def pixelWidth (g : Nat) : Obj := ⟨0x3200 + g, 11, 4⟩

/-- Replays 0x3200+g:0C, U32 RO (R173). -/
def replays (g : Nat) : Obj := ⟨0x3200 + g, 12, 0⟩

/-- ReplayFailures 0x3200+g:0D, U32 RO (R173). -/
def replayFailures (g : Nat) : Obj := ⟨0x3200 + g, 13, 0⟩

/-- PacketErrors 0x3200+g:0E, U32 RO (R173). -/
def packetErrors (g : Nat) : Obj := ⟨0x3200 + g, 14, 0⟩

/-- Duplicates 0x3200+g:0F, U32 RO (R173). -/
def duplicates (g : Nat) : Obj := ⟨0x3200 + g, 15, 0⟩

/-- TimeOffset 0x3200+g:10, S32 RO (R173). -/
def timeOffset (g : Nat) : Obj := ⟨0x3200 + g, 16, 0⟩

/-- PathDelay 0x3200+g:11, U32 RO (R173). -/
def pathDelay (g : Nat) : Obj := ⟨0x3200 + g, 17, 0⟩

/-- TrigRejects 0x3200+g:12, U32 RO (R173). -/
def trigRejects (g : Nat) : Obj := ⟨0x3200 + g, 18, 0⟩

/-- SyncInterval 0x3200+g:13, U16 RW (R173). -/
def syncInterval (g : Nat) : Obj := ⟨0x3200 + g, 19, 1000⟩

/-- LinkAsymmetry 0x3200+g:14, S16 RW (R173). -/
def linkAsymmetry (g : Nat) : Obj := ⟨0x3200 + g, 20, 0⟩

/-- TriggerLead 0x3200+g:15, U16 ST (R173). -/
def triggerLead (g : Nat) : Obj := ⟨0x3200 + g, 21, 10⟩

/-- TriggerLateOk 0x3200+g:16, BOOL ST (R173). -/
def triggerLateOk (g : Nat) : Obj := ⟨0x3200 + g, 22, 0⟩

/-- CamRegAddress 0x3400+g:01, U32 RW (R173). -/
def camRegAddress (g : Nat) : Obj := ⟨0x3400 + g, 1, 0⟩

/-- CamRegCount 0x3400+g:02, U8 RW (R173). -/
def camRegCount (g : Nat) : Obj := ⟨0x3400 + g, 2, 1⟩

/-- CamRegData 0x3400+g:03, DOMAIN RW (R173). -/
def camRegData (g : Nat) : Obj := ⟨0x3400 + g, 3, 0⟩

/-- CamRegOp 0x3400+g:04, U8 WO (R173). -/
def camRegOp (g : Nat) : Obj := ⟨0x3400 + g, 4, 0⟩

/-- CamRegStatus 0x3400+g:05, U8 RO (R173). -/
def camRegStatus (g : Nat) : Obj := ⟨0x3400 + g, 5, 0⟩

/-- CameraIdentity 0x3400+g:06, DOMAIN RO (R173). -/
def cameraIdentity (g : Nat) : Obj := ⟨0x3400 + g, 6, 0⟩

/-- BankState 0x4000:01 to :04, U8 RO (R203). -/
def bankState (e : Nat) : Obj := ⟨0x4000, 1 + e, 0⟩

/-- PortEnable 0x4100+p:01, BOOL ST (R203). -/
def portEnable (p : Nat) : Obj := ⟨0x4100 + p, 1, 0⟩

/-- PortStatus 0x4100+p:02, U32 RO (R203). -/
def portStatus (p : Nat) : Obj := ⟨0x4100 + p, 2, 0⟩

/-- PixelClock 0x4100+p:03, U32 ST (R203). -/
def pixelClock (p : Nat) : Obj := ⟨0x4100 + p, 3, 20000000⟩

/-- ClockMode 0x4100+p:04, U8 ST (R203). -/
def clockMode (p : Nat) : Obj := ⟨0x4100 + p, 4, 0⟩

/-- LeadDummy 0x4100+p:05, U16 ST (R203). -/
def leadDummy (p : Nat) : Obj := ⟨0x4100 + p, 5, 0⟩

/-- PortWidth 0x4100+p:06, U32 ST (R203). -/
def portWidth (p : Nat) : Obj := ⟨0x4100 + p, 6, 0⟩

/-- TransferGuard 0x4100+p:07, U16 ST (R203). -/
def transferGuard (p : Nat) : Obj := ⟨0x4100 + p, 7, 500⟩

/-- SpWidth 0x4100+p:08, U8 ST (R203). -/
def spWidth (p : Nat) : Obj := ⟨0x4100 + p, 8, 1⟩

/-- TgMode 0x4100+p:09, U8 ST (R203). -/
def tgMode (p : Nat) : Obj := ⟨0x4100 + p, 9, 0⟩

/-- TgWidth 0x4100+p:0A, U16 ST (R203). -/
def tgWidth (p : Nat) : Obj := ⟨0x4100 + p, 10, 100⟩

/-- TgToSp 0x4100+p:0B, U16 ST (R203). -/
def tgToSp (p : Nat) : Obj := ⟨0x4100 + p, 11, 200⟩

/-- SignalPolarity 0x4100+p:0C, U8 ST (R203). -/
def signalPolarity (p : Nat) : Obj := ⟨0x4100 + p, 12, 0⟩

/-- StartLateLimit 0x4100+p:0D, U32 ST (R203). -/
def startLateLimit (p : Nat) : Obj := ⟨0x4100 + p, 13, 5000⟩

/-- ExposureMeasuredLast 0x4100+p:0E, U32 RO (R203). -/
def exposureMeasuredLast (p : Nat) : Obj := ⟨0x4100 + p, 14, 0⟩

/-- OverrunCount 0x4100+p:0F, U32 RO (R203). -/
def overrunCount (p : Nat) : Obj := ⟨0x4100 + p, 15, 0⟩

/-- PortFaultCount 0x4100+p:10, U32 RO (R203). -/
def portFaultCount (p : Nat) : Obj := ⟨0x4100 + p, 16, 0⟩

/-- TestPattern 0x4100+p:11, U8 ST (R203). -/
def testPattern (p : Nat) : Obj := ⟨0x4100 + p, 17, 0⟩

/-- ReadoutTime 0x4100+p:12, U32 RO (R203). -/
def readoutTime (p : Nat) : Obj := ⟨0x4100 + p, 18, 0⟩

/-- InputPort 0x4200+i:01, U8 ST (R204). -/
def inputPort (i : Nat) : Obj := ⟨0x4200 + i, 1, 255⟩

/-- InputMode 0x4200+i:02, U8 ST (R204). -/
def inputMode (i : Nat) : Obj := ⟨0x4200 + i, 2, 0⟩

/-- SamplePhase 0x4200+i:03, U16 ST (R204). -/
def samplePhase (i : Nat) : Obj := ⟨0x4200 + i, 3, 0⟩

/-- SecondPhase 0x4200+i:04, U16 ST (R204). -/
def secondPhase (i : Nat) : Obj := ⟨0x4200 + i, 4, 0⟩

/-- OffsetDac 0x4200+i:05, S16 ST (R204). -/
def offsetDac (i : Nat) : Obj := ⟨0x4200 + i, 5, 0⟩

/-- PgaGain 0x4200+i:06, U16 ST (R204). -/
def pgaGain (i : Nat) : Obj := ⟨0x4200 + i, 6, 32⟩

/-- VideoPolarity 0x4200+i:07, U8 ST (R204). -/
def videoPolarity (i : Nat) : Obj := ⟨0x4200 + i, 7, 0⟩

/-- CdsPedestal 0x4200+i:08, U16 ST (R204). -/
def cdsPedestal (i : Nat) : Obj := ⟨0x4200 + i, 8, 1024⟩

/-- StartPixel 0x4200+i:09, U32 ST (R204). -/
def startPixel (i : Nat) : Obj := ⟨0x4200 + i, 9, 0⟩

/-- PixelCount 0x4200+i:0A, U16 ST (R204). -/
def pixelCount (i : Nat) : Obj := ⟨0x4200 + i, 10, 0⟩

/-- PixelStep 0x4200+i:0B, U8 ST (R204). -/
def pixelStep (i : Nat) : Obj := ⟨0x4200 + i, 11, 1⟩

/-- Direction 0x4200+i:0C, U8 ST (R204). -/
def direction (i : Nat) : Obj := ⟨0x4200 + i, 12, 0⟩

/-- ClipLow 0x4200+i:0D, U32 RO (R204). -/
def clipLow (i : Nat) : Obj := ⟨0x4200 + i, 13, 0⟩

/-- ClipHigh 0x4200+i:0E, U32 RO (R204). -/
def clipHigh (i : Nat) : Obj := ⟨0x4200 + i, 14, 0⟩

/-- LastLineMean 0x4200+i:0F, U16 RO (R204). -/
def lastLineMean (i : Nat) : Obj := ⟨0x4200 + i, 15, 0⟩

/-- SlicesActive 0x5000:01, U8 RO (R255). -/
def slicesActive : Obj := ⟨0x5000, 1, 64⟩

/-- WarmSpareSlices 0x5000:02, U8 ST (R255). -/
def warmSpareSlices : Obj := ⟨0x5000, 2, 4⟩

/-- ResidueErrors 0x5000:03, U32 RO (R255). -/
def residueErrors : Obj := ⟨0x5000, 3, 0⟩

/-- SegmentReplays 0x5000:04, U32 RO (R255). -/
def segmentReplays : Obj := ⟨0x5000, 4, 0⟩

/-- CoefFreeRows 0x5000:05, U32 RO (R255). -/
def coefFreeRows : Obj := ⟨0x5000, 5, 114688⟩

/-- CoefCorrected 0x5000:06, U32 RO (R255). -/
def coefCorrected : Obj := ⟨0x5000, 6, 0⟩

/-- CoefUncorrectable 0x5000:07, U32 RO (R255). -/
def coefUncorrectable : Obj := ⟨0x5000, 7, 0⟩

/-- CoefSpareRows 0x5000:08, U16 RO (R255). -/
def coefSpareRows : Obj := ⟨0x5000, 8, 2304⟩

/-- PipelineLoad 0x5000:09, U8 RO (R255). -/
def pipelineLoad : Obj := ⟨0x5000, 9, 0⟩

/-- SliceState 0x5010:01 to :44, U8 RO (R255). -/
def sliceState (e : Nat) : Obj := ⟨0x5010, 1 + e, 0⟩

/-- StreamEnable 0x5100+s:01, BOOL RW (R255). -/
def streamEnable (s : Nat) : Obj := ⟨0x5100 + s, 1, 0⟩

/-- StreamStatus 0x5100+s:02, U32 RO (R255). -/
def streamStatus (s : Nat) : Obj := ⟨0x5100 + s, 2, 0⟩

/-- StreamClass 0x5100+s:03, U8 ST (R255). -/
def streamClass (s : Nat) : Obj := ⟨0x5100 + s, 3, 1⟩

/-- Phases 0x5100+s:04, U8 ST (R255). -/
def phases (s : Nat) : Obj := ⟨0x5100 + s, 4, 1⟩

/-- StreamWidth 0x5100+s:05, U32 RO (R255). -/
def streamWidth (s : Nat) : Obj := ⟨0x5100 + s, 5, 0⟩

/-- MaxLineRate 0x5100+s:06, U32 ST (R255). -/
def maxLineRate (s : Nat) : Obj := ⟨0x5100 + s, 6, 10000⟩

/-- StoredWidth 0x5100+s:07, U8 ST (R255). -/
def storedWidth (s : Nat) : Obj := ⟨0x5100 + s, 7, 16⟩

/-- Compression 0x5100+s:08, BOOL ST (R255). -/
def compression (s : Nat) : Obj := ⟨0x5100 + s, 8, 0⟩

/-- NormEnable 0x5100+s:09, BOOL ST (R255). -/
def normEnable (s : Nat) : Obj := ⟨0x5100 + s, 9, 1⟩

/-- NormMin 0x5100+s:0A, FX2_16 ST (R255). -/
def normMin (s : Nat) : Obj := ⟨0x5100 + s, 10, 32768⟩

/-- NormMax 0x5100+s:0B, FX2_16 ST (R255). -/
def normMax (s : Nat) : Obj := ⟨0x5100 + s, 11, 131072⟩

/-- CoefShadow 0x5100+s:0C, BOOL ST (R255). -/
def coefShadow (s : Nat) : Obj := ⟨0x5100 + s, 12, 1⟩

/-- CoefBaseRow 0x5100+s:0D, U32 RO (R255). -/
def coefBaseRow (s : Nat) : Obj := ⟨0x5100 + s, 13, 0⟩

/-- DriftEnable 0x5100+s:0E, BOOL ST (R255). -/
def driftEnable (s : Nat) : Obj := ⟨0x5100 + s, 14, 0⟩

/-- DriftFirst 0x5100+s:0F, U32 ST (R255). -/
def driftFirst (s : Nat) : Obj := ⟨0x5100 + s, 15, 0⟩

/-- DriftCount 0x5100+s:10, U16 ST (R255). -/
def driftCount (s : Nat) : Obj := ⟨0x5100 + s, 16, 64⟩

/-- DriftShift 0x5100+s:11, U8 ST (R255). -/
def driftShift (s : Nat) : Obj := ⟨0x5100 + s, 17, 4⟩

/-- DriftRange 0x5100+s:12, U8 ST (R255). -/
def driftRange (s : Nat) : Obj := ⟨0x5100 + s, 18, 10⟩

/-- DriftLag 0x5100+s:13, U8 ST (R255). -/
def driftLag (s : Nat) : Obj := ⟨0x5100 + s, 19, 4⟩

/-- SatLow 0x5100+s:14, U32 RO (R255). -/
def satLow (s : Nat) : Obj := ⟨0x5100 + s, 20, 0⟩

/-- SatHigh 0x5100+s:15, U32 RO (R255). -/
def satHigh (s : Nat) : Obj := ⟨0x5100 + s, 21, 0⟩

/-- NormClamps 0x5100+s:16, U32 RO (R255). -/
def normClamps (s : Nat) : Obj := ⟨0x5100 + s, 22, 0⟩

/-- DriftClamps 0x5100+s:17, U32 RO (R255). -/
def driftClamps (s : Nat) : Obj := ⟨0x5100 + s, 23, 0⟩

/-- DriftLate 0x5100+s:18, U32 RO (R255). -/
def driftLate (s : Nat) : Obj := ⟨0x5100 + s, 24, 0⟩

/-- DefectUnreplaced 0x5100+s:19, U32 RO (R255). -/
def defectUnreplaced (s : Nat) : Obj := ⟨0x5100 + s, 25, 0⟩

/-- LinesRepaired 0x5100+s:1A, U32 RO (R255). -/
def linesRepaired (s : Nat) : Obj := ⟨0x5100 + s, 26, 0⟩

/-- LineRateExceeded 0x5100+s:1B, U32 RO (R255). -/
def lineRateExceeded (s : Nat) : Obj := ⟨0x5100 + s, 27, 0⟩

/-- Tributary 0x5200+s:01 to :10, REC ST (R255). -/
def tributary (s e : Nat) : Obj := ⟨0x5200 + s, 1 + e, 0⟩

/-- ExposureRef 0x5300+s:01 to :10, U32 ST (R255). -/
def exposureRef (s e : Nat) : Obj := ⟨0x5300 + s, 1 + e, 40000⟩

/-- DriftRef 0x5300+s:11 to :20, U18 ST (R255). -/
def driftRef (s e : Nat) : Obj := ⟨0x5300 + s, 17 + e, 200000⟩

/-- DriftFactor 0x5300+s:21 to :30, FX2_16 RO (R255). -/
def driftFactor (s e : Nat) : Obj := ⟨0x5300 + s, 33 + e, 65536⟩

/-- CoefTable 0x5400+s:01, DOMAIN ST (R255). -/
def coefTable (s : Nat) : Obj := ⟨0x5400 + s, 1, 0⟩

/-- DefectMap 0x5400+s:02, DOMAIN ST (R255). -/
def defectMap (s : Nat) : Obj := ⟨0x5400 + s, 2, 0⟩

/-- TableState 0x5400+s:03, U8 RO (R255). -/
def tableState (s : Nat) : Obj := ⟨0x5400 + s, 3, 0⟩

/-- Curve 0x5500+c:01, DOMAIN ST (R255). -/
def curve (c : Nat) : Obj := ⟨0x5500 + c, 1, 0⟩

/-- CalAreaFree 0x5600:01, U32 RO (R283). -/
def calAreaFree : Obj := ⟨0x5600, 1, 25165824⟩

/-- WarmupState 0x5600:02, U8 RO (R283). -/
def warmupState : Obj := ⟨0x5600, 2, 0⟩

/-- WarmupThreshold 0x5600:03, U32 RW (R283). -/
def warmupThreshold : Obj := ⟨0x5600, 3, 200⟩

/-- WarmupInterval 0x5600:04, U16 RW (R283). -/
def warmupInterval : Obj := ⟨0x5600, 4, 100⟩

/-- WarmupHold 0x5600:05, U8 RW (R283). -/
def warmupHold : Obj := ⟨0x5600, 5, 10⟩

/-- WarmupTimeout 0x5600:06, U16 RW (R283). -/
def warmupTimeout : Obj := ⟨0x5600, 6, 900⟩

/-- WarmupElapsed 0x5600:07, U32 RO (R283). -/
def warmupElapsed : Obj := ⟨0x5600, 7, 0⟩

/-- WarmupRestart 0x5600:08, BOOL WO (R283). -/
def warmupRestart : Obj := ⟨0x5600, 8, 0⟩

/-- WarmupSource 0x5600:09 to :10, U32 RW (R283). -/
def warmupSource (e : Nat) : Obj := ⟨0x5600, 9 + e, 0⟩

/-- WarmupRate 0x5600:11 to :18, U32 RO (R283). -/
def warmupRate (e : Nat) : Obj := ⟨0x5600, 17 + e, 0⟩

/-- CalCommand 0x5700+s:01, U8 WO (R283). -/
def calCommand (s : Nat) : Obj := ⟨0x5700 + s, 1, 0⟩

/-- CalStatus 0x5700+s:02, U32 RO (R283). -/
def calStatus (s : Nat) : Obj := ⟨0x5700 + s, 2, 0⟩

/-- CalLines 0x5700+s:03, U16 RW (R283). -/
def calLines (s : Nat) : Obj := ⟨0x5700 + s, 3, 256⟩

/-- CalPhaseMask 0x5700+s:04, U16 RW (R283). -/
def calPhaseMask (s : Nat) : Obj := ⟨0x5700 + s, 4, 65535⟩

/-- CalPedestal 0x5700+s:05, U18 RW (R283). -/
def calPedestal (s : Nat) : Obj := ⟨0x5700 + s, 5, 0⟩

/-- CalWhiteTarget 0x5700+s:06, U18 RW (R283). -/
def calWhiteTarget (s : Nat) : Obj := ⟨0x5700 + s, 6, 200000⟩

/-- CalGainMax 0x5700+s:07, FX2_16 RW (R283). -/
def calGainMax (s : Nat) : Obj := ⟨0x5700 + s, 7, 196608⟩

/-- DefectDarkLimit 0x5700+s:08, U18 RW (R283). -/
def defectDarkLimit (s : Nat) : Obj := ⟨0x5700 + s, 8, 2048⟩

/-- DefectWhitePct 0x5700+s:09, U8 RW (R283). -/
def defectWhitePct (s : Nat) : Obj := ⟨0x5700 + s, 9, 25⟩

/-- DefectNoiseLimit 0x5700+s:0A, U18 RW (R283). -/
def defectNoiseLimit (s : Nat) : Obj := ⟨0x5700 + s, 10, 1024⟩

/-- CalAccum 0x5700+s:0B, DOMAIN RO (R283). -/
def calAccum (s : Nat) : Obj := ⟨0x5700 + s, 11, 0⟩

/-- CalReport 0x5700+s:0C, REC RO (R283). -/
def calReport (s : Nat) : Obj := ⟨0x5700 + s, 12, 0⟩

/-- CalMaxAge 0x5700+s:0D, U32 RW (R283). -/
def calMaxAge (s : Nat) : Obj := ⟨0x5700 + s, 13, 600⟩

/-- CalAutoStage 0x5700+s:0E, BOOL RW (R283). -/
def calAutoStage (s : Nat) : Obj := ⟨0x5700 + s, 14, 1⟩

/-- CalDerived 0x5700+s:0F, DOMAIN RO (R283). -/
def calDerived (s : Nat) : Obj := ⟨0x5700 + s, 15, 0⟩

/-- PosFormat 0x6010+c:01, U8 ST (R333). -/
def posFormat (c : Nat) : Obj := ⟨0x6010 + c, 1, 0⟩

/-- PosInvert 0x6010+c:02, BOOL ST (R333). -/
def posInvert (c : Nat) : Obj := ⟨0x6010 + c, 2, 0⟩

/-- WireCheck 0x6010+c:03, U16 ST (R333). -/
def wireCheck (c : Nat) : Obj := ⟨0x6010 + c, 3, 200⟩

/-- MinEdgeTime 0x6010+c:04, U16 ST (R333). -/
def minEdgeTime (c : Nat) : Obj := ⟨0x6010 + c, 4, 25⟩

/-- FilterCycles 0x6010+c:05, U8 ST (R333). -/
def filterCycles (c : Nat) : Obj := ⟨0x6010 + c, 5, 0⟩

/-- CountsPerRev 0x6010+c:06, U32 ST (R333). -/
def countsPerRev (c : Nat) : Obj := ⟨0x6010 + c, 6, 0⟩

/-- DirHysteresis 0x6010+c:07, BOOL ST (R333). -/
def dirHysteresis (c : Nat) : Obj := ⟨0x6010 + c, 7, 1⟩

/-- Count 0x6010+c:08, U32 RO (R333). -/
def count (c : Nat) : Obj := ⟨0x6010 + c, 8, 0⟩

/-- Revolution 0x6010+c:09, U32 RO (R333). -/
def revolution (c : Nat) : Obj := ⟨0x6010 + c, 9, 0⟩

/-- ExtendedPosition 0x6010+c:0A, S64 RO (R333). -/
def extendedPosition (c : Nat) : Obj := ⟨0x6010 + c, 10, 0⟩

/-- PosStatus 0x6010+c:0B, U32 RO (R333). -/
def posStatus (c : Nat) : Obj := ⟨0x6010 + c, 11, 0⟩

/-- PosEdgeLatch 0x6010+c:0C, REC RO (R333). -/
def posEdgeLatch (c : Nat) : Obj := ⟨0x6010 + c, 12, 0⟩

/-- PosCapture 0x6010+c:0D, REC RO (R333). -/
def posCapture (c : Nat) : Obj := ⟨0x6010 + c, 13, 0⟩

/-- EdgeFaults 0x6010+c:0E, U32 RO (R333). -/
def edgeFaults (c : Nat) : Obj := ⟨0x6010 + c, 14, 0⟩

/-- WireFaults 0x6010+c:0F, U32 RO (R333). -/
def wireFaults (c : Nat) : Obj := ⟨0x6010 + c, 15, 0⟩

/-- ExtrapEdges 0x6010+c:10, U8 ST (R333). -/
def extrapEdges (c : Nat) : Obj := ⟨0x6010 + c, 16, 4⟩

/-- ExtrapMaxGap 0x6010+c:11, U32 ST (R333). -/
def extrapMaxGap (c : Nat) : Obj := ⟨0x6010 + c, 17, 100000⟩

/-- Velocity 0x6010+c:12, S32 RO (R333). -/
def velocity (c : Nat) : Obj := ⟨0x6010 + c, 18, 0⟩

/-- PosPreset 0x6010+c:13, S64 WO (R333). -/
def posPreset (c : Nat) : Obj := ⟨0x6010 + c, 19, 0⟩

/-- IndexCount 0x6040+c:01, U32 ST (R333). -/
def indexCount (c : Nat) : Obj := ⟨0x6040 + c, 1, 0⟩

/-- IndexPolicy 0x6040+c:02, U8 ST (R333). -/
def indexPolicy (c : Nat) : Obj := ⟨0x6040 + c, 2, 0⟩

/-- IndexWindow 0x6040+c:03, U16 ST (R333). -/
def indexWindow (c : Nat) : Obj := ⟨0x6040 + c, 3, 4⟩

/-- IndexLatched 0x6040+c:04, U32 RO (R333). -/
def indexLatched (c : Nat) : Obj := ⟨0x6040 + c, 4, 0⟩

/-- IndexError 0x6040+c:05, S32 RO (R333). -/
def indexError (c : Nat) : Obj := ⟨0x6040 + c, 5, 0⟩

/-- IndexRearm 0x6040+c:06, BOOL WO (R333). -/
def indexRearm (c : Nat) : Obj := ⟨0x6040 + c, 6, 0⟩

/-- IndexMismatches 0x6040+c:07, U32 RO (R333). -/
def indexMismatches (c : Nat) : Obj := ⟨0x6040 + c, 7, 0⟩

/-- LinePitch 0x6020:s+1, FX16_16 ST (R333). -/
def linePitch (s : Nat) : Obj := ⟨0x6020, 1 + s, 65536⟩

/-- TriggerSource 0x6021:s+1, U8 ST (R333). -/
def triggerSource (s : Nat) : Obj := ⟨0x6021, 1 + s, 0⟩

/-- TriggerChannel 0x6022:s+1, U8 ST (R333). -/
def triggerChannel (s : Nat) : Obj := ⟨0x6022, 1 + s, 255⟩

/-- TriggerStartOffset 0x6023:s+1, FX16_16 ST (R333). -/
def triggerStartOffset (s : Nat) : Obj := ⟨0x6023, 1 + s, 0⟩

/-- LinePeriod 0x6024:s+1, U32 ST (R333). -/
def linePeriod (s : Nat) : Obj := ⟨0x6024, 1 + s, 400000⟩

/-- FreezeLead 0x6025:s+1, U32 ST (R333). -/
def freezeLead (s : Nat) : Obj := ⟨0x6025, 1 + s, 11000⟩

/-- TriggerTolerance 0x6026:s+1, FX16_16 ST (R333). -/
def triggerTolerance (s : Nat) : Obj := ⟨0x6026, 1 + s, 8192⟩

/-- TriggerMinPeriod 0x6027:s+1, U32 ST (R333). -/
def triggerMinPeriod (s : Nat) : Obj := ⟨0x6027, 1 + s, 1000⟩

/-- TriggerMaxDelay 0x6028:s+1, U32 ST (R333). -/
def triggerMaxDelay (s : Nat) : Obj := ⟨0x6028, 1 + s, 5000⟩

/-- TriggerBase 0x6029:s+1, S64 RO (R333). -/
def triggerBase (s : Nat) : Obj := ⟨0x6029, 1 + s, 0⟩

/-- NextLine 0x602A:s+1, U32 RO (R333). -/
def nextLine (s : Nat) : Obj := ⟨0x602A, 1 + s, 0⟩

/-- TriggerSlips 0x602B:s+1, U32 RO (R333). -/
def triggerSlips (s : Nat) : Obj := ⟨0x602B, 1 + s, 0⟩

/-- OverspeedLines 0x602C:s+1, U32 RO (R333). -/
def overspeedLines (s : Nat) : Obj := ⟨0x602C, 1 + s, 0⟩

/-- CompareValue 0x6080+k:01, U32 RW (R333). -/
def compareValue (k : Nat) : Obj := ⟨0x6080 + k, 1, 0⟩

/-- CompareCtl 0x6080+k:02, U32 RW (R333). -/
def compareCtl (k : Nat) : Obj := ⟨0x6080 + k, 2, 65536⟩

/-- MotEnable 0x6050+m:01, BOOL RW (R334). -/
def motEnable (m : Nat) : Obj := ⟨0x6050 + m, 1, 0⟩

/-- MotMode 0x6050+m:02, U8 RW (R334). -/
def motMode (m : Nat) : Obj := ⟨0x6050 + m, 2, 1⟩

/-- MotTarget 0x6050+m:03, S64 RW (R334). -/
def motTarget (m : Nat) : Obj := ⟨0x6050 + m, 3, 0⟩

/-- MotVelocity 0x6050+m:04, S32 RW (R334). -/
def motVelocity (m : Nat) : Obj := ⟨0x6050 + m, 4, 0⟩

/-- MotVMax 0x6050+m:05, U32 RW (R334). -/
def motVMax (m : Nat) : Obj := ⟨0x6050 + m, 5, 10000⟩

/-- MotAMax 0x6050+m:06, U32 RW (R334). -/
def motAMax (m : Nat) : Obj := ⟨0x6050 + m, 6, 100000⟩

/-- MotJMax 0x6050+m:07, U32 RW (R334). -/
def motJMax (m : Nat) : Obj := ⟨0x6050 + m, 7, 10000000⟩

/-- MotQuickDecel 0x6050+m:08, U32 RW (R334). -/
def motQuickDecel (m : Nat) : Obj := ⟨0x6050 + m, 8, 1000000⟩

/-- StepWidth 0x6050+m:09, U16 ST (R334). -/
def stepWidth (m : Nat) : Obj := ⟨0x6050 + m, 9, 100⟩

/-- DirSetup 0x6050+m:0A, U16 ST (R334). -/
def dirSetup (m : Nat) : Obj := ⟨0x6050 + m, 10, 1000⟩

/-- MotPolarity 0x6050+m:0B, U8 ST (R334). -/
def motPolarity (m : Nat) : Obj := ⟨0x6050 + m, 11, 0⟩

/-- CommandedPosition 0x6050+m:0C, S64 RO (R334). -/
def commandedPosition (m : Nat) : Obj := ⟨0x6050 + m, 12, 0⟩

/-- MotState 0x6050+m:0D, U8 RO (R334). -/
def motState (m : Nat) : Obj := ⟨0x6050 + m, 13, 0⟩

/-- CommandedVelocity 0x6050+m:0E, S32 RO (R334). -/
def commandedVelocity (m : Nat) : Obj := ⟨0x6050 + m, 14, 0⟩

/-- MotCommand 0x6050+m:0F, U8 WO (R334). -/
def motCommand (m : Nat) : Obj := ⟨0x6050 + m, 15, 0⟩

/-- FollowChannel 0x6050+m:10, U8 ST (R334). -/
def followChannel (m : Nat) : Obj := ⟨0x6050 + m, 16, 255⟩

/-- FollowRatio 0x6050+m:11, FX16_16 ST (R334). -/
def followRatio (m : Nat) : Obj := ⟨0x6050 + m, 17, 65536⟩

/-- FollowLimit 0x6050+m:12, U32 RW (R334). -/
def followLimit (m : Nat) : Obj := ⟨0x6050 + m, 18, 64⟩

/-- FollowError 0x6050+m:13, S32 RO (R334). -/
def followError (m : Nat) : Obj := ⟨0x6050 + m, 19, 0⟩

/-- TioConfig 0x6200+t:01, U32 ST (R334). -/
def tioConfig (t : Nat) : Obj := ⟨0x6200 + t, 1, 0⟩

/-- TioLevel 0x6200+t:02, BOOL RO (R334). -/
def tioLevel (t : Nat) : Obj := ⟨0x6200 + t, 2, 0⟩

/-- TioLastEdge 0x6200+t:03, TIME64 RO (R334). -/
def tioLastEdge (t : Nat) : Obj := ⟨0x6200 + t, 3, 0⟩

/-- TioPulseAt 0x6200+t:04, TIME64 WO (R334). -/
def tioPulseAt (t : Nat) : Obj := ⟨0x6200 + t, 4, 0⟩

/-- TransportKind 0x6110+u:01, U8 ST (R367). -/
def transportKind (u : Nat) : Obj := ⟨0x6110 + u, 1, 0⟩

/-- TransportMotion 0x6110+u:02, U8 ST (R367). -/
def transportMotion (u : Nat) : Obj := ⟨0x6110 + u, 2, 255⟩

/-- TransportChannel 0x6110+u:03, U8 ST (R367). -/
def transportChannel (u : Nat) : Obj := ⟨0x6110 + u, 3, 255⟩

/-- BackupDistance 0x6110+u:04, U32 ST (R367). -/
def backupDistance (u : Nat) : Obj := ⟨0x6110 + u, 4, 4000⟩

/-- BackupVelocity 0x6110+u:05, U32 ST (R367). -/
def backupVelocity (u : Nat) : Obj := ⟨0x6110 + u, 5, 10000⟩

/-- StopDwell 0x6110+u:06, U32 ST (R367). -/
def stopDwell (u : Nat) : Obj := ⟨0x6110 + u, 6, 2000⟩

/-- PacingMode 0x6110+u:07, U8 ST (R367). -/
def pacingMode (u : Nat) : Obj := ⟨0x6110 + u, 7, 0⟩

/-- PacingFixed 0x6110+u:08, U8 ST (R367). -/
def pacingFixed (u : Nat) : Obj := ⟨0x6110 + u, 8, 0⟩

/-- PacingMin 0x6110+u:09, U8 ST (R367). -/
def pacingMin (u : Nat) : Obj := ⟨0x6110 + u, 9, 0⟩

/-- PacingMax 0x6110+u:0A, U8 ST (R367). -/
def pacingMax (u : Nat) : Obj := ⟨0x6110 + u, 10, 0⟩

/-- PacingDwell 0x6110+u:0B, U16 RW (R367). -/
def pacingDwell (u : Nat) : Obj := ⟨0x6110 + u, 11, 50⟩

/-- PacingPresets 0x6110+u:0C, U8 ST (R367). -/
def pacingPresets (u : Nat) : Obj := ⟨0x6110 + u, 12, 1⟩

/-- RampRefSpeed 0x6110+u:0D, U32 ST (R367). -/
def rampRefSpeed (u : Nat) : Obj := ⟨0x6110 + u, 13, 40000⟩

/-- TransportStatus 0x6110+u:0E, U32 RO (R367). -/
def transportStatus (u : Nat) : Obj := ⟨0x6110 + u, 14, 0⟩

/-- SeamCommand 0x6110+u:0F, U8 WO (R367). -/
def seamCommand (u : Nat) : Obj := ⟨0x6110 + u, 15, 0⟩

/-- DivertHold 0x6110+u:10, U32 ST (R367). -/
def divertHold (u : Nat) : Obj := ⟨0x6110 + u, 16, 10000⟩

/-- PacingPreset 0x6110+u:11 to :18, U64 ST (R367). -/
def pacingPreset (u e : Nat) : Obj := ⟨0x6110 + u, 17 + e, 1000⟩

/-- PacingClamps 0x6110+u:19, U32 RO (R367). -/
def pacingClamps (u : Nat) : Obj := ⟨0x6110 + u, 25, 0⟩

/-- StreamTransport 0x6100:s+1, U8 ST (R368). -/
def streamTransport (s : Nat) : Obj := ⟨0x6100, 1 + s, 255⟩

/-- RampExposure 0x6101:s+1, U8 ST (R368). -/
def rampExposure (s : Nat) : Obj := ⟨0x6101, 1 + s, 0⟩

/-- ExpectedPageLines 0x6102:s+1, U32 ST (R368). -/
def expectedPageLines (s : Nat) : Obj := ⟨0x6102, 1 + s, 65536⟩

/-- LastBeforeStop 0x6103:s+1, U32 RO (R368). -/
def lastBeforeStop (s : Nat) : Obj := ⟨0x6103, 1 + s, 0⟩

/-- SeamResumes 0x6104:s+1, U32 RO (R368). -/
def seamResumes (s : Nat) : Obj := ⟨0x6104, 1 + s, 0⟩

/-- PagesHeld 0x6105:s+1, U32 RO (R368). -/
def pagesHeld (s : Nat) : Obj := ⟨0x6105, 1 + s, 0⟩

/-- PagesDiverted 0x6106:s+1, U32 RO (R368). -/
def pagesDiverted (s : Nat) : Obj := ⟨0x6106, 1 + s, 0⟩

/-- LampRail 0x7000:01, U8 ST (R404). -/
def lampRail : Obj := ⟨0x7000, 1, 7⟩

/-- HeadroomMode 0x7000:02, U8 ST (R404). -/
def headroomMode : Obj := ⟨0x7000, 2, 1⟩

/-- LampRailFixed 0x7000:03, U16 ST (R404). -/
def lampRailFixed : Obj := ⟨0x7000, 3, 12000⟩

/-- LampRailMin 0x7000:04, U16 ST (R404). -/
def lampRailMin : Obj := ⟨0x7000, 4, 5000⟩

/-- LampRailMax 0x7000:05, U16 ST (R404). -/
def lampRailMax : Obj := ⟨0x7000, 5, 24000⟩

/-- HeadroomTarget 0x7000:06, U16 RW (R404). -/
def headroomTarget : Obj := ⟨0x7000, 6, 300⟩

/-- HeadroomPeriod 0x7000:07, U16 RW (R404). -/
def headroomPeriod : Obj := ⟨0x7000, 7, 1000⟩

/-- LampRailSetpoint 0x7000:08, U16 RO (R404). -/
def lampRailSetpoint : Obj := ⟨0x7000, 8, 0⟩

/-- BlankTime 0x7000:09, U16 ST (R404). -/
def blankTime : Obj := ⟨0x7000, 9, 50⟩

/-- DischargeTime 0x7000:0A, U16 ST (R404). -/
def dischargeTime : Obj := ⟨0x7000, 10, 30⟩

/-- BandLead 0x7000:0B, U16 ST (R404). -/
def bandLead : Obj := ⟨0x7000, 11, 100⟩

/-- ColumnDutyLimit 0x7000:0C, U8 ST (R404). -/
def columnDutyLimit : Obj := ⟨0x7000, 12, 70⟩

/-- LiftPct 0x7000:0D, U8 RW (R404). -/
def liftPct : Obj := ⟨0x7000, 13, 40⟩

/-- OpenConfirm 0x7000:0E, U8 RW (R404). -/
def openConfirm : Obj := ⟨0x7000, 14, 4⟩

/-- ShortMargin 0x7000:0F, U16 RW (R404). -/
def shortMargin : Obj := ⟨0x7000, 15, 2000⟩

/-- SyncRole 0x7000:10, U8 ST (R404). -/
def syncRole : Obj := ⟨0x7000, 16, 0⟩

/-- SyncApplyDelay 0x7000:11, U32 ST (R404). -/
def syncApplyDelay : Obj := ⟨0x7000, 17, 20000⟩

/-- SyncFire 0x7000:12, BOOL WO (R404). -/
def syncFire : Obj := ⟨0x7000, 18, 0⟩

/-- SyncCount 0x7000:13, U32 RO (R404). -/
def syncCount : Obj := ⟨0x7000, 19, 0⟩

/-- CrosspointSelect 0x7000:14, U16 RW (R404). -/
def crosspointSelect : Obj := ⟨0x7000, 20, 0⟩

/-- CrosspointStatus 0x7000:15, U32 RO (R404). -/
def crosspointStatus : Obj := ⟨0x7000, 21, 0⟩

/-- CrosspointSinkMv 0x7000:16, U16 RO (R404). -/
def crosspointSinkMv : Obj := ⟨0x7000, 22, 0⟩

/-- LampTest 0x7000:17, BOOL WO (R404). -/
def lampTest : Obj := ⟨0x7000, 23, 0⟩

/-- LampTrim 0x7000:18, DOMAIN ST (R404). -/
def lampTrim : Obj := ⟨0x7000, 24, 0⟩

/-- HeadroomClamps 0x7000:19, U32 RO (R404). -/
def headroomClamps : Obj := ⟨0x7000, 25, 0⟩

/-- UnverifiedCount 0x7000:1A, U16 RO (R404). -/
def unverifiedCount : Obj := ⟨0x7000, 26, 0⟩

/-- BandEnable 0x7010+b:01, BOOL RW (R404). -/
def bandEnable (b : Nat) : Obj := ⟨0x7010 + b, 1, 0⟩

/-- BandColumns 0x7010+b:02, U64 ST (R404). -/
def bandColumns (b : Nat) : Obj := ⟨0x7010 + b, 2, 0⟩

/-- BandFullScale 0x7010+b:03, U16 ST (R404). -/
def bandFullScale (b : Nat) : Obj := ⟨0x7010 + b, 3, 0⟩

/-- BandCurve 0x7010+b:04, U32 ST (R404). -/
def bandCurve (b : Nat) : Obj := ⟨0x7010 + b, 4, 0⟩

/-- BandPolarity 0x7010+b:05, U8 ST (R404). -/
def bandPolarity (b : Nat) : Obj := ⟨0x7010 + b, 5, 0⟩

/-- BandViewers 0x7010+b:06, U64 ST (R404). -/
def bandViewers (b : Nat) : Obj := ⟨0x7010 + b, 6, 0⟩

/-- BandCuts 0x7010+b:07, U32 RO (R404). -/
def bandCuts (b : Nat) : Obj := ⟨0x7010 + b, 7, 0⟩

/-- PhaseExposure 0x7100+s:01 to :10, U32 ST (R404). -/
def phaseExposure (s e : Nat) : Obj := ⟨0x7100 + s, 1 + e, 40000⟩

/-- PhaseLight 0x7100+s:11 to :20, U64 ST (R404). -/
def phaseLight (s e : Nat) : Obj := ⟨0x7100 + s, 17 + e, 0⟩

/-- LampGuard 0x7100+s:21, U16 ST (R404). -/
def lampGuard (s : Nat) : Obj := ⟨0x7100 + s, 33, 100⟩

/-- DiagSuppress 0x7100+s:22, BOOL ST (R404). -/
def diagSuppress (s : Nat) : Obj := ⟨0x7100 + s, 34, 0⟩

/-- DiagLinesWithheld 0x7100+s:23, U32 RO (R404). -/
def diagLinesWithheld (s : Nat) : Obj := ⟨0x7100 + s, 35, 0⟩

/-- ReservoirUsable 0x8000:01, U64 RO (R446). -/
def reservoirUsable : Obj := ⟨0x8000, 1, 48318382080⟩

/-- ReservoirFree 0x8000:02, U64 RO (R446). -/
def reservoirFree : Obj := ⟨0x8000, 2, 0⟩

/-- WriteBudgetUsed 0x8000:03, U32 RO (R446). -/
def writeBudgetUsed : Obj := ⟨0x8000, 3, 0⟩

/-- ReadBudgetUsed 0x8000:04, U32 RO (R446). -/
def readBudgetUsed : Obj := ⟨0x8000, 4, 0⟩

/-- ChannelFailed 0x8000:05, U32 RO (R446). -/
def channelFailed : Obj := ⟨0x8000, 5, 0⟩

/-- ReservoirCorrected 0x8000:06, U32 RO (R446). -/
def reservoirCorrected : Obj := ⟨0x8000, 6, 0⟩

/-- ReservoirRebuilt 0x8000:07, U32 RO (R446). -/
def reservoirRebuilt : Obj := ⟨0x8000, 7, 0⟩

/-- ReservoirLost 0x8000:08, U32 RO (R446). -/
def reservoirLost : Obj := ⟨0x8000, 8, 0⟩

/-- RingLines 0x8100+s:01, U32 ST (R446). -/
def ringLines (s : Nat) : Obj := ⟨0x8100 + s, 1, 0⟩

/-- RingBase 0x8100+s:02, U64 RO (R446). -/
def ringBase (s : Nat) : Obj := ⟨0x8100 + s, 2, 0⟩

/-- SlotBytes 0x8100+s:03, U32 RO (R446). -/
def slotBytes (s : Nat) : Obj := ⟨0x8100 + s, 3, 0⟩

/-- StoredWidthMax 0x8100+s:04, U8 ST (R446). -/
def storedWidthMax (s : Nat) : Obj := ⟨0x8100 + s, 4, 16⟩

/-- CompressionAllowed 0x8100+s:05, BOOL ST (R446). -/
def compressionAllowed (s : Nat) : Obj := ⟨0x8100 + s, 5, 0⟩

/-- RingStatus 0x8100+s:06, U32 RO (R446). -/
def ringStatus (s : Nat) : Obj := ⟨0x8100 + s, 6, 0⟩

/-- WriteLine 0x8100+s:07, U64 RO (R446). -/
def writeLine (s : Nat) : Obj := ⟨0x8100 + s, 7, 0⟩

/-- OldestMark 0x8100+s:08, U64 RO (R446). -/
def oldestMark (s : Nat) : Obj := ⟨0x8100 + s, 8, 18446744073709551615⟩

/-- HighWater 0x8100+s:09, U32 ST (R446). -/
def highWater (s : Nat) : Obj := ⟨0x8100 + s, 9, 55706300⟩

/-- RingWeir 0x8100+s:0A to :0C, U32 ST (R446). -/
def ringWeir (s e : Nat) : Obj := ⟨0x8100 + s, 10 + e, 0⟩

/-- DroppedLines 0x8100+s:0D, U32 RO (R446). -/
def droppedLines (s : Nat) : Obj := ⟨0x8100 + s, 13, 0⟩

/-- PageMode 0x8100+s:0E, U8 ST (R446). -/
def pageMode (s : Nat) : Obj := ⟨0x8100 + s, 14, 0⟩

/-- PageCycles 0x8100+s:0F, U32 ST (R446). -/
def pageCycles (s : Nat) : Obj := ⟨0x8100 + s, 15, 1024⟩

/-- PageLeadCycles 0x8100+s:10, U16 ST (R446). -/
def pageLeadCycles (s : Nat) : Obj := ⟨0x8100 + s, 16, 0⟩

/-- PageTrailCycles 0x8100+s:11, U16 ST (R446). -/
def pageTrailCycles (s : Nat) : Obj := ⟨0x8100 + s, 17, 0⟩

/-- PageMaxCycles 0x8100+s:12, U32 ST (R446). -/
def pageMaxCycles (s : Nat) : Obj := ⟨0x8100 + s, 18, 1048576⟩

/-- GateOffset 0x8100+s:13, FX16_16 ST (R446). -/
def gateOffset (s : Nat) : Obj := ⟨0x8100 + s, 19, 0⟩

/-- GateDelay 0x8100+s:14, U32 ST (R446). -/
def gateDelay (s : Nat) : Obj := ⟨0x8100 + s, 20, 0⟩

/-- DeliverScope 0x8100+s:15, U8 ST (R446). -/
def deliverScope (s : Nat) : Obj := ⟨0x8100 + s, 21, 0⟩

/-- PageRecordEntries 0x8100+s:16, U16 ST (R446). -/
def pageRecordEntries (s : Nat) : Obj := ⟨0x8100 + s, 22, 1024⟩

/-- PageRelease 0x8100+s:17, U32 WO (R446). -/
def pageRelease (s : Nat) : Obj := ⟨0x8100 + s, 23, 0⟩

/-- PagesClosed 0x8100+s:18, U32 RO (R446). -/
def pagesClosed (s : Nat) : Obj := ⟨0x8100 + s, 24, 0⟩

/-- PageRecordSelect 0x8100+s:19, U32 RW (R446). -/
def pageRecordSelect (s : Nat) : Obj := ⟨0x8100 + s, 25, 0⟩

/-- PageRecord 0x8100+s:1A, REC RO (R446). -/
def pageRecord (s : Nat) : Obj := ⟨0x8100 + s, 26, 0⟩

/-- FetchMissing 0x8100+s:1B, U32 RO (R446). -/
def fetchMissing (s : Nat) : Obj := ⟨0x8100 + s, 27, 0⟩

/-- FetchWait 0x8100+s:1C, U32 RW (R446). -/
def fetchWait (s : Nat) : Obj := ⟨0x8100 + s, 28, 100000⟩

/-- HostMark 0x8200+s:01 to :08, U64 RW (R446). -/
def hostMark (s e : Nat) : Obj := ⟨0x8200 + s, 1 + e, 18446744073709551615⟩

/-- EdgeEnable 0x8300+s:01, BOOL ST (R447). -/
def edgeEnable (s : Nat) : Obj := ⟨0x8300 + s, 1, 0⟩

/-- EdgePhase 0x8300+s:02, U8 ST (R447). -/
def edgePhase (s : Nat) : Obj := ⟨0x8300 + s, 2, 0⟩

/-- EdgeFirst 0x8300+s:03, U32 ST (R447). -/
def edgeFirst (s : Nat) : Obj := ⟨0x8300 + s, 3, 0⟩

/-- EdgeCount 0x8300+s:04, U32 ST (R447). -/
def edgeCount (s : Nat) : Obj := ⟨0x8300 + s, 4, 0⟩

/-- EdgePolarity 0x8300+s:05, U8 ST (R447). -/
def edgePolarity (s : Nat) : Obj := ⟨0x8300 + s, 5, 0⟩

/-- EdgeThresholdMode 0x8300+s:06, U8 ST (R447). -/
def edgeThresholdMode (s : Nat) : Obj := ⟨0x8300 + s, 6, 0⟩

/-- EdgeThreshold 0x8300+s:07, U18 ST (R447). -/
def edgeThreshold (s : Nat) : Obj := ⟨0x8300 + s, 7, 131072⟩

/-- EdgeContrast 0x8300+s:08, U18 ST (R447). -/
def edgeContrast (s : Nat) : Obj := ⟨0x8300 + s, 8, 20000⟩

/-- EdgeThresholdMin 0x8300+s:09, U18 ST (R447). -/
def edgeThresholdMin (s : Nat) : Obj := ⟨0x8300 + s, 9, 0⟩

/-- EdgeThresholdMax 0x8300+s:0A, U18 ST (R447). -/
def edgeThresholdMax (s : Nat) : Obj := ⟨0x8300 + s, 10, 262143⟩

/-- EdgeThresholdNow 0x8300+s:0B, U18 RO (R447). -/
def edgeThresholdNow (s : Nat) : Obj := ⟨0x8300 + s, 11, 0⟩

/-- EdgeMinPixels 0x8300+s:0C, U18 ST (R447). -/
def edgeMinPixels (s : Nat) : Obj := ⟨0x8300 + s, 12, 16⟩

/-- EdgeConfirm 0x8300+s:0D, U8 ST (R447). -/
def edgeConfirm (s : Nat) : Obj := ⟨0x8300 + s, 13, 4⟩

/-- SkewScale 0x8300+s:0E, FX16_16 ST (R447). -/
def skewScale (s : Nat) : Obj := ⟨0x8300 + s, 14, 65536⟩

/-- SkewSide 0x8300+s:0F, U8 ST (R447). -/
def skewSide (s : Nat) : Obj := ⟨0x8300 + s, 15, 0⟩

/-- CropMarginPixels 0x8300+s:10, U16 ST (R447). -/
def cropMarginPixels (s : Nat) : Obj := ⟨0x8300 + s, 16, 32⟩

/-- CropMarginCycles 0x8300+s:11, U16 ST (R447). -/
def cropMarginCycles (s : Nat) : Obj := ⟨0x8300 + s, 17, 8⟩

/-- EdgeClamps 0x8300+s:12, U32 RO (R447). -/
def edgeClamps (s : Nat) : Obj := ⟨0x8300 + s, 18, 0⟩

/-- HostLinkState 0x9000:01, U32 RO (R501). -/
def hostLinkState : Obj := ⟨0x9000, 1, 0⟩

/-- HostLinkRating 0x9000:02, U32 RO (R501). -/
def hostLinkRating : Obj := ⟨0x9000, 2, 0⟩

/-- DeliveryWeights 0x9000:03, U32 ST (R501). -/
def deliveryWeights : Obj := ⟨0x9000, 3, 525313⟩

/-- Class0HostLoad 0x9000:04, U32 RO (R501). -/
def class0HostLoad : Obj := ⟨0x9000, 4, 0⟩

/-- LinkRetrains 0x9000:05, U32 RO (R501). -/
def linkRetrains : Obj := ⟨0x9000, 5, 0⟩

/-- Bar4WritesDropped 0x9000:06, U32 RO (R501). -/
def bar4WritesDropped : Obj := ⟨0x9000, 6, 0⟩

/-- DescriptorsBad 0x9000:07, U32 RO (R501). -/
def descriptorsBad : Obj := ⟨0x9000, 7, 0⟩

/-- StreamChannel 0x9010:s+1, U16 ST (R501). -/
def streamChannel (s : Nat) : Obj := ⟨0x9010, 1 + s, 65535⟩

/-- ChannelSelect 0x9020:01, U8 RW (R501). -/
def channelSelect : Obj := ⟨0x9020, 1, 0⟩

/-- ChannelStatus 0x9020:02, U32 RO (R501). -/
def channelStatus : Obj := ⟨0x9020, 2, 0⟩

/-- ChannelDisable 0x9020:03, BOOL WO (R501). -/
def channelDisable : Obj := ⟨0x9020, 3, 0⟩

/-- FeIslandState 0xA000:01 to :02, U8 RO (R540). -/
def feIslandState (e : Nat) : Obj := ⟨0xA000, 1 + e, 0⟩

/-- ClampFlags 0xA000:03, U64 RO (R540). -/
def clampFlags : Obj := ⟨0xA000, 3, 0⟩

/-- ClampEvents 0xA000:04, U32 RO (R540). -/
def clampEvents : Obj := ⟨0xA000, 4, 0⟩

/-- FeRingBase 0xA000:05 to :06, U32 ST (R540). -/
def feRingBase (e : Nat) : Obj := ⟨0xA000, 5 + e, 4294967295⟩

/-- FeRingBytes 0xA000:07 to :08, U32 ST (R540). -/
def feRingBytes (e : Nat) : Obj := ⟨0xA000, 7 + e, 4096⟩

/-- FeDropped 0xA000:09 to :0A, U32 RO (R540). -/
def feDropped (e : Nat) : Obj := ⟨0xA000, 9 + e, 0⟩

/-- FeQueueFlush 0xA000:0B to :0C, BOOL WO (R540). -/
def feQueueFlush (e : Nat) : Obj := ⟨0xA000, 11 + e, 0⟩

/-- FeQueueState 0xA000:0D to :0E, U8 RO (R540). -/
def feQueueState (e : Nat) : Obj := ⟨0xA000, 13 + e, 0⟩

/-- FeCalPeriod 0xA000:0F, U32 RW (R540). -/
def feCalPeriod : Obj := ⟨0xA000, 15, 600⟩

/-- TestDacLevel 0xA000:10 to :11, U16 RW (R540). -/
def testDacLevel (e : Nat) : Obj := ⟨0xA000, 16 + e, 0⟩

/-- FeTestTolerance 0xA000:12, U16 RW (R540). -/
def feTestTolerance : Obj := ⟨0xA000, 18, 50⟩

/-- BiasLevel 0xA000:13 to :14, U16 ST (R540). -/
def biasLevel (e : Nat) : Obj := ⟨0xA000, 19 + e, 2500⟩

/-- PinRole 0xA100:p+1, U16 ST (R540). -/
def pinRole (p : Nat) : Obj := ⟨0xA100, 1 + p, 0⟩

/-- ChEnable 0xA200+k:01, BOOL ST (R540). -/
def chEnable (k : Nat) : Obj := ⟨0xA200 + k, 1, 0⟩

/-- ChPos 0xA200+k:02, U8 ST (R540). -/
def chPos (k : Nat) : Obj := ⟨0xA200 + k, 2, 0⟩

/-- ChNeg 0xA200+k:03, U8 ST (R540). -/
def chNeg (k : Nat) : Obj := ⟨0xA200 + k, 3, 64⟩

/-- ChConverter 0xA200+k:04, U8 ST (R540). -/
def chConverter (k : Nat) : Obj := ⟨0xA200 + k, 4, 0⟩

/-- ChInjected 0xA200+k:05, BOOL ST (R540). -/
def chInjected (k : Nat) : Obj := ⟨0xA200 + k, 5, 0⟩

/-- ChGain 0xA200+k:06, U8 ST (R540). -/
def chGain (k : Nat) : Obj := ⟨0xA200 + k, 6, 1⟩

/-- AutoRange 0xA200+k:07, U16 ST (R540). -/
def autoRange (k : Nat) : Obj := ⟨0xA200 + k, 7, 1024⟩

/-- AvgCount 0xA200+k:08, U16 ST (R540). -/
def avgCount (k : Nat) : Obj := ⟨0xA200 + k, 8, 1⟩

/-- AvgShift 0xA200+k:09, U8 ST (R540). -/
def avgShift (k : Nat) : Obj := ⟨0xA200 + k, 9, 0⟩

/-- Preset 0xA200+k:0A, U8 ST (R540). -/
def preset (k : Nat) : Obj := ⟨0xA200 + k, 10, 1⟩

/-- DetGenerator 0xA200+k:0B, U8 ST (R540). -/
def detGenerator (k : Nat) : Obj := ⟨0xA200 + k, 11, 255⟩

/-- DetPhase 0xA200+k:0C, S32 ST (R540). -/
def detPhase (k : Nat) : Obj := ⟨0xA200 + k, 12, 0⟩

/-- ChThreshold 0xA200+k:0D to :0E, U64 RW (R540). -/
def chThreshold (k e : Nat) : Obj := ⟨0xA200 + k, 13 + e, 0⟩

/-- LastValue 0xA200+k:0F, S32 RO (R540). -/
def lastValue (k : Nat) : Obj := ⟨0xA200 + k, 15, 0⟩

/-- LastPhase 0xA200+k:10, S32 RO (R540). -/
def lastPhase (k : Nat) : Obj := ⟨0xA200 + k, 16, 0⟩

/-- ChStatus 0xA200+k:11, U32 RO (R540). -/
def chStatus (k : Nat) : Obj := ⟨0xA200 + k, 17, 0⟩

/-- ThrEvents 0xA200+k:12, U32 RO (R540). -/
def thrEvents (k : Nat) : Obj := ⟨0xA200 + k, 18, 0⟩

/-- ChTest 0xA200+k:13, BOOL WO (R540). -/
def chTest (k : Nat) : Obj := ⟨0xA200 + k, 19, 0⟩

/-- ChTestResult 0xA200+k:14, U64 RO (R540). -/
def chTestResult (k : Nat) : Obj := ⟨0xA200 + k, 20, 0⟩

/-- AutoRangeHold 0xA200+k:15, U16 ST (R540). -/
def autoRangeHold (k : Nat) : Obj := ⟨0xA200 + k, 21, 64⟩

/-- ConvMode 0xA300+j:01, U8 ST (R540). -/
def convMode (j : Nat) : Obj := ⟨0xA300 + j, 1, 0⟩

/-- SeqChannel 0xA300+j:02 to :11, U8 ST (R540). -/
def seqChannel (j e : Nat) : Obj := ⟨0xA300 + j, 2 + e, 255⟩

/-- TrigSource 0xA300+j:12, U32 ST (R540). -/
def trigSource (j : Nat) : Obj := ⟨0xA300 + j, 18, 0⟩

/-- TrigPeriod 0xA300+j:13, U32 ST (R540). -/
def trigPeriod (j : Nat) : Obj := ⟨0xA300 + j, 19, 2000⟩

/-- TrigDelay 0xA300+j:14, U32 ST (R540). -/
def trigDelay (j : Nat) : Obj := ⟨0xA300 + j, 20, 0⟩

/-- TrigWidth 0xA300+j:15, U32 ST (R540). -/
def trigWidth (j : Nat) : Obj := ⟨0xA300 + j, 21, 1000⟩

/-- LowPower 0xA300+j:16, BOOL ST (R540). -/
def lowPower (j : Nat) : Obj := ⟨0xA300 + j, 22, 0⟩

/-- ConvState 0xA300+j:17, U8 RO (R540). -/
def convState (j : Nat) : Obj := ⟨0xA300 + j, 23, 0⟩

/-- FeCalibrate 0xA300+j:18, BOOL WO (R540). -/
def feCalibrate (j : Nat) : Obj := ⟨0xA300 + j, 24, 0⟩

/-- MissedTriggers 0xA300+j:19, U32 RO (R540). -/
def missedTriggers (j : Nat) : Obj := ⟨0xA300 + j, 25, 0⟩

/-- InjTrigSource 0xA300+j:1A, U32 ST (R540). -/
def injTrigSource (j : Nat) : Obj := ⟨0xA300 + j, 26, 0⟩

/-- ConvStart 0xA300+j:1B, BOOL WO (R540). -/
def convStart (j : Nat) : Obj := ⟨0xA300 + j, 27, 0⟩

/-- GenEnable 0xA400+g:01, BOOL RW (R540). -/
def genEnable (g : Nat) : Obj := ⟨0xA400 + g, 1, 0⟩

/-- GenFrequency 0xA400+g:02, U32 RW (R540). -/
def genFrequency (g : Nat) : Obj := ⟨0xA400 + g, 2, 536871⟩

/-- GenAmplitude 0xA400+g:03, U16 RW (R540). -/
def genAmplitude (g : Nat) : Obj := ⟨0xA400 + g, 3, 0⟩

/-- GenOffset 0xA400+g:04, U16 RW (R540). -/
def genOffset (g : Nat) : Obj := ⟨0xA400 + g, 4, 2500⟩

/-- GenState 0xA400+g:05, U8 RO (R540). -/
def genState (g : Nat) : Obj := ⟨0xA400 + g, 5, 0⟩

/-- GenChanges 0xA400+g:06, U32 RO (R540). -/
def genChanges (g : Nat) : Obj := ⟨0xA400 + g, 6, 0⟩

/-- NodeAddress 0x1000:01, U8 RO (R587). -/
def nodeAddress : Obj := ⟨0x1000, 1, 0⟩

/-- AddressSource 0x1000:02, U8 RO (R587). -/
def addressSource : Obj := ⟨0x1000, 2, 0⟩

/-- MacAddress 0x1000:03, U64 RO (R587). -/
def macAddress : Obj := ⟨0x1000, 3, 0⟩

/-- KdpEtherType 0x1000:04, U16 ST (R587). -/
def kdpEtherType : Obj := ⟨0x1000, 4, 34997⟩

/-- KdpGroupMac 0x1000:05, U64 ST (R587). -/
def kdpGroupMac : Obj := ⟨0x1000, 5, 3298534918325⟩

/-- PlcaToTimer 0x1000:06, U8 ST (R587). -/
def plcaToTimer : Obj := ⟨0x1000, 6, 32⟩

/-- PlcaBurstCount 0x1000:07, U8 ST (R587). -/
def plcaBurstCount : Obj := ⟨0x1000, 7, 0⟩

/-- PlcaBurstTimer 0x1000:08, U8 ST (R587). -/
def plcaBurstTimer : Obj := ⟨0x1000, 8, 128⟩

/-- FnStatus 0x1000:09, U32 RO (R587). -/
def fnStatus : Obj := ⟨0x1000, 9, 0⟩

/-- AssignTimeout 0x1000:0A, U16 RW (R587). -/
def assignTimeout : Obj := ⟨0x1000, 10, 50⟩

/-- FnFrameErrors 0x1000:0B, U32 RO (R587). -/
def fnFrameErrors : Obj := ⟨0x1000, 11, 0⟩

/-- KdpMalformed 0x1000:0C, U32 RO (R587). -/
def kdpMalformed : Obj := ⟨0x1000, 12, 0⟩

/-- OpenAccess 0x1010:01, BOOL RW (R587). -/
def openAccess : Obj := ⟨0x1010, 1, 1⟩

/-- SessionTimeout 0x1010:02, U16 RW (R587). -/
def sessionTimeout : Obj := ⟨0x1010, 2, 60⟩

/-- SessionsOpen 0x1010:03, U8 RO (R587). -/
def sessionsOpen : Obj := ⟨0x1010, 3, 0⟩

/-- AuthFailures 0x1010:04, U32 RO (R587). -/
def authFailures : Obj := ⟨0x1010, 4, 0⟩

/-- SegWindow 0x1020:01, U8 RW (R587). -/
def segWindow : Obj := ⟨0x1020, 1, 8⟩

/-- SegTimeout 0x1020:02, U16 RW (R587). -/
def segTimeout : Obj := ⟨0x1020, 2, 1000⟩

/-- EventSubscribers 0x1030:01, U8 RO (R587). -/
def eventSubscribers : Obj := ⟨0x1030, 1, 0⟩

/-- EventRetry 0x1030:02, U16 RW (R587). -/
def eventRetry : Obj := ⟨0x1030, 2, 100⟩

/-- EventsLost 0x1030:03, U32 RO (R587). -/
def eventsLost : Obj := ⟨0x1030, 3, 0⟩

/-- EventsPending 0x1030:04, U16 RO (R587). -/
def eventsPending : Obj := ⟨0x1030, 4, 0⟩

/-- EventCatalogue 0x1030:05, DOMAIN RO (R587). -/
def eventCatalogue : Obj := ⟨0x1030, 5, 0⟩

/-- PtpRole 0x1050:01, U8 ST (R587). -/
def ptpRole : Obj := ⟨0x1050, 1, 1⟩

/-- PtpDomain 0x1050:02, U8 ST (R587). -/
def ptpDomain : Obj := ⟨0x1050, 2, 0⟩

/-- PtpLogSync 0x1050:03, S8 ST (R587). -/
def ptpLogSync : Obj := ⟨0x1050, 3, (-4)⟩

/-- PtpStatus 0x1050:04, U32 RO (R587). -/
def ptpStatus : Obj := ⟨0x1050, 4, 0⟩

/-- PtpOffset 0x1050:05, S64 RO (R587). -/
def ptpOffset : Obj := ⟨0x1050, 5, 0⟩

/-- PpsOutEnable 0x1050:06, BOOL RW (R587). -/
def ppsOutEnable : Obj := ⟨0x1050, 6, 0⟩

/-- PpsWidth 0x1050:07, U32 RW (R587). -/
def ppsWidth : Obj := ⟨0x1050, 7, 100000⟩

/-- PpsInOffset 0x1050:08, S32 RO (R587). -/
def ppsInOffset : Obj := ⟨0x1050, 8, 0⟩

/-- PtpPathDelay 0x1050:09, U32 RO (R587). -/
def ptpPathDelay : Obj := ⟨0x1050, 9, 0⟩

/-- VendorName 0x0100:01, STR RO (R595). -/
def vendorName : Obj := ⟨0x100, 1, 0⟩

/-- ProductName 0x0100:02, STR RO (R595). -/
def productName : Obj := ⟨0x100, 2, 0⟩

/-- OrderCode 0x0100:03, STR RO (R595). -/
def orderCode : Obj := ⟨0x100, 3, 0⟩

/-- Stepping 0x0100:04, STR RO (R595). -/
def stepping : Obj := ⟨0x100, 4, 0⟩

/-- SerialNumber 0x0100:05, STR RO (R595). -/
def serialNumber : Obj := ⟨0x100, 5, 0⟩

/-- ReservoirStacks 0x0100:06, U8 RO (R595). -/
def reservoirStacks : Obj := ⟨0x100, 6, 0⟩

/-- TemperatureGrade 0x0100:07, U8 RO (R595). -/
def temperatureGrade : Obj := ⟨0x100, 7, 0⟩

/-- PrimroseVersion 0x0100:08, U32 RO (R595). -/
def primroseVersion : Obj := ⟨0x100, 8, 0⟩

/-- PeonyVersion 0x0100:09, U32 RO (R595). -/
def peonyVersion : Obj := ⟨0x100, 9, 0⟩

/-- DictionaryVersion 0x0100:0A, U16 RO (R595). -/
def dictionaryVersion : Obj := ⟨0x100, 10, 0⟩

/-- ObjectDirectory 0x0100:0B, DOMAIN RO (R595). -/
def objectDirectory : Obj := ⟨0x100, 11, 0⟩

/-- HealthSummary 0x2040:01, REC RO (R599). -/
def healthSummary : Obj := ⟨0x2040, 1, 0⟩

/-- TjCoreDie 0x2040:02, S16 RO (R599). -/
def tjCoreDie : Obj := ⟨0x2040, 2, 0⟩

/-- TjFrontDie 0x2040:03, S16 RO (R599). -/
def tjFrontDie : Obj := ⟨0x2040, 3, 0⟩

/-- TjDram 0x2040:04, S16 RO (R599). -/
def tjDram : Obj := ⟨0x2040, 4, 0⟩

/-- TjMaxSeen 0x2040:05, S16 RO (R599). -/
def tjMaxSeen : Obj := ⟨0x2040, 5, 0⟩

/-- DevicePower 0x2040:06, U32 RO (R599). -/
def devicePower : Obj := ⟨0x2040, 6, 0⟩

/-- Uptime 0x2040:07, U64 RO (R599). -/
def uptime : Obj := ⟨0x2040, 7, 0⟩

/-- FaultCounts 0x2040:08, REC RO (R599). -/
def faultCounts : Obj := ⟨0x2040, 8, 0⟩

/-- EventsRaised 0x2040:09, U32 RO (R599). -/
def eventsRaised : Obj := ⟨0x2040, 9, 0⟩

/-- ModeState 0x2000:01, U8 RO (R636). -/
def modeState : Obj := ⟨0x2000, 1, 0⟩

/-- ModeRequest 0x2000:02, U8 WO (R636). -/
def modeRequest : Obj := ⟨0x2000, 2, 0⟩

/-- ModeTarget 0x2000:03, U8 RO (R636). -/
def modeTarget : Obj := ⟨0x2000, 3, 255⟩

/-- ModePrevious 0x2000:04, U8 RO (R636). -/
def modePrevious : Obj := ⟨0x2000, 4, 0⟩

/-- ModeEntryTime 0x2000:05, TIME64 RO (R636). -/
def modeEntryTime : Obj := ⟨0x2000, 5, 0⟩

/-- DegradedCause 0x2000:06, REC RO (R636). -/
def degradedCause : Obj := ⟨0x2000, 6, 0⟩

/-- SafeHaltCause 0x2000:07, U8 RO (R636). -/
def safeHaltCause : Obj := ⟨0x2000, 7, 0⟩

/-- WakeSources 0x2000:08, U8 RW (R636). -/
def wakeSources : Obj := ⟨0x2000, 8, 1⟩

/-- SpareCoreWarm 0x2000:09, BOOL ST (R636). -/
def spareCoreWarm : Obj := ⟨0x2000, 9, 1⟩

/-- TjWarnLimit 0x2000:0A, S16 RW (R636). -/
def tjWarnLimit : Obj := ⟨0x2000, 10, 950⟩

/-- TjShutdown 0x2000:0B, S16 RO (R636). -/
def tjShutdown : Obj := ⟨0x2000, 11, 1100⟩

/-- ModeTransitions 0x2000:0C, U32 RO (R636). -/
def modeTransitions : Obj := ⟨0x2000, 12, 0⟩

/-- DomainState 0x2100+d:01, U8 RO (R636). -/
def domainState (d : Nat) : Obj := ⟨0x2100 + d, 1, 0⟩

/-- DomainSwitchings 0x2100+d:02, U32 RO (R636). -/
def domainSwitchings (d : Nat) : Obj := ⟨0x2100 + d, 2, 0⟩

/-- DomainPower 0x2100+d:03, U32 RO (R636). -/
def domainPower (d : Nat) : Obj := ⟨0x2100 + d, 3, 0⟩

/-- RailState 0x2200+r:01, U8 RO (R636). -/
def railState (r : Nat) : Obj := ⟨0x2200 + r, 1, 0⟩

/-- RailSetpoint 0x2200+r:02, U16 RO (R636). -/
def railSetpoint (r : Nat) : Obj := ⟨0x2200 + r, 2, 0⟩

/-- RailVoltage 0x2200+r:03, U16 RO (R636). -/
def railVoltage (r : Nat) : Obj := ⟨0x2200 + r, 3, 0⟩

/-- RailCurrent 0x2200+r:04, U32 RO (R636). -/
def railCurrent (r : Nat) : Obj := ⟨0x2200 + r, 4, 0⟩

/-- RailPhases 0x2200+r:05, U8 RO (R636). -/
def railPhases (r : Nat) : Obj := ⟨0x2200 + r, 5, 0⟩

/-- RailFrequency 0x2200+r:06, U32 RO (R636). -/
def railFrequency (r : Nat) : Obj := ⟨0x2200 + r, 6, 0⟩

/-- RailFaults 0x2200+r:07, U32 RO (R636). -/
def railFaults (r : Nat) : Obj := ⟨0x2200 + r, 7, 0⟩

/-- AvsMode 0x2300:01, U8 ST (R636). -/
def avsMode : Obj := ⟨0x2300, 1, 1⟩

/-- AvsFloor 0x2300:02, U16 ST (R636). -/
def avsFloor : Obj := ⟨0x2300, 2, 700⟩

/-- AvsCeiling 0x2300:03, U16 ST (R636). -/
def avsCeiling : Obj := ⟨0x2300, 3, 850⟩

/-- AvsFixed 0x2300:04, U16 ST (R636). -/
def avsFixed : Obj := ⟨0x2300, 4, 800⟩

/-- AvsTarget 0x2300:05, U8 ST (R636). -/
def avsTarget : Obj := ⟨0x2300, 5, 8⟩

/-- AvsSetpoint 0x2300:06, U16 RO (R636). -/
def avsSetpoint : Obj := ⟨0x2300, 6, 0⟩

/-- AvsSlack 0x2300:07, S8 RO (R636). -/
def avsSlack : Obj := ⟨0x2300, 7, 0⟩

/-- AvsStatus 0x2300:08, U8 RO (R636). -/
def avsStatus : Obj := ⟨0x2300, 8, 0⟩

/-- AvsClamps 0x2300:09, U32 RO (R636). -/
def avsClamps : Obj := ⟨0x2300, 9, 0⟩

/-- AvsDroops 0x2300:0A, U32 RO (R636). -/
def avsDroops : Obj := ⟨0x2300, 10, 0⟩

/-- AvsDroopLog 0x2300:0B, DOMAIN RO (R636). -/
def avsDroopLog : Obj := ⟨0x2300, 11, 0⟩

/-- ArbiterPending 0xB000:01, U16 RO (R671). -/
def arbiterPending : Obj := ⟨0xB000, 1, 0⟩

/-- InsertionsEmergency 0xB000:02, U32 RO (R671). -/
def insertionsEmergency : Obj := ⟨0xB000, 2, 0⟩

/-- InsertionsPlanned 0xB000:03, U32 RO (R671). -/
def insertionsPlanned : Obj := ⟨0xB000, 3, 0⟩

/-- PlannedWaitMax 0xB000:04, U32 RW (R671). -/
def plannedWaitMax : Obj := ⟨0xB000, 4, 60000⟩

/-- SpareTestPeriod 0xB000:05, U32 RW (R671). -/
def spareTestPeriod : Obj := ⟨0xB000, 5, 10000⟩

/-- FaultLog 0xB000:06, DOMAIN RO (R671). -/
def faultLog : Obj := ⟨0xB000, 6, 0⟩

/-- TmrState 0xB000:07, U8 RO (R671). -/
def tmrState : Obj := ⟨0xB000, 7, 0⟩

/-- LockstepState 0xB000:08, U8 RO (R671). -/
def lockstepState : Obj := ⟨0xB000, 8, 0⟩

/-- SparePoolLeft 0xB000:10 to :17, U32 RO (R671). -/
def sparePoolLeft (e : Nat) : Obj := ⟨0xB000, 16 + e, 0⟩

/-- FaultPolicy 0xB100+code:01, U16 ST (R671). -/
def faultPolicy (code : Nat) : Obj := ⟨0xB100 + code, 1, (faultPolicyDefault code)⟩

/-- FaultKindCount 0xB100+code:02, U32 RO (R671). -/
def faultKindCount (code : Nat) : Obj := ⟨0xB100 + code, 2, 0⟩

/-- FaultKindLast 0xB100+code:03, REC RO (R671). -/
def faultKindLast (code : Nat) : Obj := ⟨0xB100 + code, 3, 0⟩

/-- LaneWearHorizon 0xB200:01, U32 RW (R671). -/
def laneWearHorizon : Obj := ⟨0xB200, 1, 720⟩

/-- SliceWearCount 0xB200:02, U8 RW (R671). -/
def sliceWearCount : Obj := ⟨0xB200, 2, 3⟩

/-- AgeingDriftLimit 0xB200:03, U16 RW (R671). -/
def ageingDriftLimit : Obj := ⟨0xB200, 3, 300⟩

/-- LampWearPct 0xB200:04, U8 RW (R671). -/
def lampWearPct : Obj := ⟨0xB200, 4, 15⟩

/-- DramWearRate 0xB200:05, U32 RW (R671). -/
def dramWearRate : Obj := ⟨0xB200, 5, 1000⟩

/-- CoefWearRows 0xB200:06, U8 RW (R671). -/
def coefWearRows : Obj := ⟨0xB200, 6, 4⟩

/-- WearUnitSelect 0xB200:07, U16 RW (R671). -/
def wearUnitSelect : Obj := ⟨0xB200, 7, 0⟩

/-- WearMeasure 0xB200:08, S32 RO (R671). -/
def wearMeasure : Obj := ⟨0xB200, 8, 0⟩

/-- SoftRepairs 0xB300:01, DOMAIN RO (R671). -/
def softRepairs : Obj := ⟨0xB300, 1, 0⟩

/-- SoftRepairCount 0xB300:02, U16 RO (R671). -/
def softRepairCount : Obj := ⟨0xB300, 2, 0⟩

/-- RepairClear 0xB300:03, U16 WO (R671). -/
def repairClear : Obj := ⟨0xB300, 3, 0⟩

/-- HardRepairsUsed 0xB300:04, U8 RO (R671). -/
def hardRepairsUsed : Obj := ⟨0xB300, 4, 0⟩

/-- NodeAddressLock 0xE001:01, U8 LW (R688). -/
def nodeAddressLock : Obj := ⟨0xE001, 1, 0⟩

/-- ApprovedModeLock 0xE002:01, BOOL LW (R688). -/
def approvedModeLock : Obj := ⟨0xE002, 1, 0⟩

/-- DebugLock 0xE003:01, BOOL LW (R688). -/
def debugLock : Obj := ⟨0xE003, 1, 0⟩

/-- OwnerKeyHash 0xE004:01, REC LW (R688). -/
def ownerKeyHash : Obj := ⟨0xE004, 1, 0⟩

/-- AntiRollback 0xE005:01, U8 LW (R688). -/
def antiRollback : Obj := ⟨0xE005, 1, 0⟩

/-- KeyRevocation 0xE006:01, :03 to :09, U64 LW (R688). -/
def keyRevocation (e : Nat) : Obj := ⟨0xE006, if e = 0 then 1 else e + 2, 0⟩

/-- HardRepairMap 0xE007:01, :03 to :31, REC RO (R688). -/
def hardRepairMap (e : Nat) : Obj := ⟨0xE007, if e = 0 then 1 else e + 2, 0⟩

/-- HardRepairPromote 0xE007:32, U8 LW (R688). -/
def hardRepairPromote : Obj := ⟨0xE007, 50, 0⟩

/-- SecurityState 0xC000:01, U8 RO (R716). -/
def securityState : Obj := ⟨0xC000, 1, 0⟩

/-- ApprovedState 0xC000:02, U8 RO (R716). -/
def approvedState : Obj := ⟨0xC000, 2, 0⟩

/-- ApprovedConditions 0xC000:03, U8 RO (R716). -/
def approvedConditions : Obj := ⟨0xC000, 3, 0⟩

/-- SelfTestRun 0xC000:04, BOOL WO (R716). -/
def selfTestRun : Obj := ⟨0xC000, 4, 0⟩

/-- Zeroise 0xC000:05, BOOL WO (R716). -/
def zeroise : Obj := ⟨0xC000, 5, 0⟩

/-- VendorServiceEnable 0xC000:06, BOOL RW (R716). -/
def vendorServiceEnable : Obj := ⟨0xC000, 6, 0⟩

/-- DebugState 0xC000:07, U8 RO (R716). -/
def debugState : Obj := ⟨0xC000, 7, 0⟩

/-- DebugUnlock 0xC000:08, BOOL WO (R716). -/
def debugUnlock : Obj := ⟨0xC000, 8, 0⟩

/-- RoleKey 0xC010:01 to :03, REC WO (R716). -/
def roleKey (e : Nat) : Obj := ⟨0xC010, 1 + e, 0⟩

/-- OwnerKeyBlock 0xC020:01, DOMAIN RW (R716). -/
def ownerKeyBlock : Obj := ⟨0xC020, 1, 0⟩

/-- OwnerTransferProof 0xC020:02, DOMAIN WO (R716). -/
def ownerTransferProof : Obj := ⟨0xC020, 2, 0⟩

/-- FirmwareImage 0xC030:01, DOMAIN WO (R716). -/
def firmwareImage : Obj := ⟨0xC030, 1, 0⟩

/-- FirmwareSlots 0xC030:02, U32 RO (R716). -/
def firmwareSlots : Obj := ⟨0xC030, 2, 0⟩

/-- AttestKeyId 0xC040:01, U64 RO (R716). -/
def attestKeyId : Obj := ⟨0xC040, 1, 0⟩

/-- AttestGeneration 0xC040:02, U16 RO (R716). -/
def attestGeneration : Obj := ⟨0xC040, 2, 0⟩

/-- AttestChain 0xC040:03, DOMAIN RO (R716). -/
def attestChain : Obj := ⟨0xC040, 3, 0⟩

/-- SealEnable 0xC100:s+1, BOOL ST (R716). -/
def sealEnable (s : Nat) : Obj := ⟨0xC100, 1 + s, 0⟩

/-- SealMaxDelay 0xC110:01, U16 RW (R716). -/
def sealMaxDelay : Obj := ⟨0xC110, 1, 20⟩

/-- SealBlockSelect 0xC110:02, U32 RW (R716). -/
def sealBlockSelect : Obj := ⟨0xC110, 2, 0⟩

/-- SealBlock 0xC110:03, DOMAIN RO (R716). -/
def sealBlock : Obj := ⟨0xC110, 3, 0⟩

/-- SealLastIndex 0xC110:04, U32 RO (R716). -/
def sealLastIndex : Obj := ⟨0xC110, 4, 0⟩

/-- SealFailures 0xC110:05, U32 RO (R716). -/
def sealFailures : Obj := ⟨0xC110, 5, 0⟩

/-- SealLoad 0xC110:06, U32 RO (R716). -/
def sealLoad : Obj := ⟨0xC110, 6, 0⟩

/-- AuditHead 0xC200:01, REC RO (R716). -/
def auditHead : Obj := ⟨0xC200, 1, 0⟩

/-- AuditHeadSigned 0xC200:02, DOMAIN RO (R716). -/
def auditHeadSigned : Obj := ⟨0xC200, 2, 0⟩

/-- AuditLog 0xC200:03, DOMAIN RO (R716). -/
def auditLog : Obj := ⟨0xC200, 3, 0⟩

/-- AuditFirst 0xC200:04, U64 RW (R716). -/
def auditFirst : Obj := ⟨0xC200, 4, 0⟩

/-- AuditAck 0xC200:05, U64 WO (R716). -/
def auditAck : Obj := ⟨0xC200, 5, 0⟩

/-- AuditStatus 0xC200:06, U32 RO (R716). -/
def auditStatus : Obj := ⟨0xC200, 6, 0⟩

/-- TamperConfig 0xC300:01 to :04, U16 ST (R716). -/
def tamperConfig (e : Nat) : Obj := ⟨0xC300, 1 + e, 10⟩

/-- TamperState 0xC300:05, U16 RO (R716). -/
def tamperState : Obj := ⟨0xC300, 5, 0⟩

/-- TamperClear 0xC300:06, BOOL WO (R716). -/
def tamperClear : Obj := ⟨0xC300, 6, 0⟩

/-- AlarmConfig 0xC310:01 to :04, U16 ST (R716). -/
def alarmConfig (e : Nat) : Obj := ⟨0xC310, 1 + e, 0⟩

/-- SandboxImage 0xD000:01, DOMAIN ST (R716). -/
def sandboxImage : Obj := ⟨0xD000, 1, 0⟩

/-- SandboxEnable 0xD000:02, BOOL ST (R716). -/
def sandboxEnable : Obj := ⟨0xD000, 2, 0⟩

/-- SandboxRole 0xD000:03, U8 ST (R716). -/
def sandboxRole : Obj := ⟨0xD000, 3, 0⟩

/-- SandboxDebug 0xD000:04, BOOL ST (R716). -/
def sandboxDebug : Obj := ⟨0xD000, 4, 0⟩

/-- SandboxStatus 0xD000:05, U8 RO (R716). -/
def sandboxStatus : Obj := ⟨0xD000, 5, 0⟩

/-- ResetCause 0x2050:01, U8 RO (R736). -/
def resetCause : Obj := ⟨0x2050, 1, 1⟩

/-- ResetCount 0x2050:02, U32 RO (R736). -/
def resetCount : Obj := ⟨0x2050, 2, 0⟩

/-- BootStage 0x2050:03, U16 RO (R736). -/
def bootStage : Obj := ⟨0x2050, 3, 0⟩

/-- BootSlot 0x2050:04, U8 RO (R736). -/
def bootSlot : Obj := ⟨0x2050, 4, 0⟩

/-- BootTimes 0x2050:05, REC RO (R736). -/
def bootTimes : Obj := ⟨0x2050, 5, 0⟩

/-- BootWatchdog 0x2050:06, U16 RW (R736). -/
def bootWatchdog : Obj := ⟨0x2050, 6, 250⟩

/-- BootAttempts 0x2050:07, U16 RO (R736). -/
def bootAttempts : Obj := ⟨0x2050, 7, 0⟩

/-- PerstReach 0x2050:08, U8 RW (R736). -/
def perstReach : Obj := ⟨0x2050, 8, 0⟩

/-- DeviceReset 0x2050:09, U8 WO (R736). -/
def deviceReset : Obj := ⟨0x2050, 9, 0⟩

/-- WatchdogPeriod 0x2050:0A, U16 RW (R736). -/
def watchdogPeriod : Obj := ⟨0x2050, 10, 1000⟩

end Obj

end Sys2Proof.Machine
end

