-- ==== Sys2Proof/Machine/State.lean ====
section
/-! DEFINITION. The state of the block: every register, queue, buffer, counter, mode and pin the spec gives it, as plain
data, with the reasons a step could stop and the state right after reset. -/
namespace Sys2Proof.Machine

/-! ### Outcomes -/

/-- Why the block would stop. No rule of the spec stops it: every error the spec names is a next state (a counter, an
event, a fault report, an answer), so nothing raises this; the type is closed and has one constructor because the
interface asks for a type. Safe. -/
inductive Fault where
  /-- Raised by no command. Safe. -/
  | none
  deriving DecidableEq, Repr

/-- Why the block would refuse a command. -/
inductive Refusal where
  /-- A command that has no meaning yet, named as opcode_table.json names it. Raised by the dispatch only. Safe. -/
  | notModelled (mnemonic : String)
  deriving DecidableEq, Repr

/-! ### Events and outputs -/

/-- The events of the chapters' event tables. -/
inductive EventName where
  /-- LANE_LOCK_LOSS: Block lock lost on a lane not in SLEEP or TEST. -/
  | laneLockLoss
  /-- ALIGN_LOSS: Alignment lock lost. -/
  | alignLoss
  /-- DESKEW_FAIL: Group skew over 2,048 UI, or ALIGN_SEQ mismatch. -/
  | deskewFail
  /-- ELASTIC_OVERFLOW: Group elastic fill at its limit. -/
  | elasticOverflow
  /-- LANE_MARGIN: Eye margin below EyeMarginWarn. -/
  | laneMargin
  /-- LANE_EYE_FAIL: Eye margin below EyeMarginFail. -/
  | laneEyeFail
  /-- LANE_TRAIN_FAIL: Training or retraining did not complete. -/
  | laneTrainFail
  /-- LANE_SLEEP_TIMEOUT: No SLEEP_ACK within 100 µs. -/
  | laneSleepTimeout
  /-- LANE_STATE: Entry to FAILED, SLEEP or ACTIVE. -/
  | laneState
  /-- POLICY_CLAMP: Tap request or CTLE held at a software bound. -/
  | policyClamp
  /-- REPLAY_FAIL: A NAKed packet did not arrive after two repeats. -/
  | replayFail
  /-- OXBOW_DONE: OXBOW_ACK received. -/
  | oxbowDone
  /-- OXBOW_NO_SPARE: Fail-over needed without a ready spare. -/
  | oxbowNoSpare
  /-- TIME_UNLOCK: TIME_LOCKED cleared. -/
  | timeUnlock
  /-- TRIG_REJECTED: TRIG_REJECT received; carries TRIG_SEQ and REASON. -/
  | trigRejected
  /-- CAMERA_MISMATCH: A link-up check failed. -/
  | cameraMismatch
  /-- CTL_TIMEOUT: CTL_REQ unanswered three times. -/
  | ctlTimeout
  /-- CAMERA_EVENT: EVENT with CODE 0x0100 or above; carries CODE, REASON and ARG. -/
  | cameraEvent
  /-- ST_OVERRUN: A line was not exposed because its window would open later than StartLateLimit. -/
  | stOverrun
  /-- ST_EXP_FAULT: A measured gate edge was more than 2 ns off schedule or missing. -/
  | stExpFault
  /-- ST_TOKEN_LATE: A readout token arrived after its transfer instant. -/
  | stTokenLate
  /-- VADC_CAL_FAIL: Bank converter calibration failed. -/
  | vadcCalFail
  /-- SLICE_RESIDUE: A group failed its residue check. -/
  | sliceResidue
  /-- COEF_UNCORRECTABLE: A coefficient entry read was uncorrectable. -/
  | coefUncorrectable
  /-- NORM_LIMIT: An exposure ratio was clamped. -/
  | normLimit
  /-- DRIFT_LIMIT: A drift factor was clamped. -/
  | driftLimit
  /-- PIPELINE_OVERRUN: Segments were discarded for lack of crossbar buffer. -/
  | pipelineOverrun
  /-- CAL_DONE: A capture or derivation ended with RESULT OK. -/
  | calDone
  /-- CAL_ABORTED: A capture or derivation ended FAILED; carries RESULT. -/
  | calAborted
  /-- CAL_BUSY: A command was rejected under R256. -/
  | calBusy
  /-- LAMP_WARM: WarmupState entered WARM. -/
  | lampWarm
  /-- LAMP_WARMUP_TIMEOUT: WarmupState entered TIMEOUT. -/
  | lampWarmupTimeout
  /-- POS_EDGE_FAULT: An edge was rejected under R288. -/
  | posEdgeFault
  /-- POS_WIRE_FAULT: Wire disagreement on an input. -/
  | posWireFault
  /-- INDEX_MISMATCH: An index event with e not 0; carries e. -/
  | indexMismatch
  /-- COMPARE_HIT: A unit with EVENT fired. -/
  | compareHit
  /-- COMPARE_BEHIND: A write left a unit behind. -/
  | compareBehind
  /-- POS_TRIGGER_SLIP: A trigger was placed or kept off its target. -/
  | posTriggerSlip
  /-- POS_OVERSPEED: A line was lost under R307. -/
  | posOverspeed
  /-- MOTION_FOLLOW_ERROR: FollowLimit exceeded. -/
  | motionFollowError
  /-- TIO_EDGE: An EVENT_IN edge; carries pin and stamp. -/
  | tioEdge
  /-- TIO_LATE: A scheduled pulse instant was already past. -/
  | tioLate
  /-- SEAM_STANDSTILL: A stopping transport reached standstill; carries transport and p_stop. -/
  | seamStandstill
  /-- SEAM_RESUMED: Line n_last + 1 triggered; carries stream and line number. -/
  | seamResumed
  /-- SEAM_ABORTED: A seam was interrupted under R355. -/
  | seamAborted
  /-- PACING_PRESET: The pacing loop changed preset; carries transport and preset. -/
  | pacingPreset
  /-- PAGE_HELD: A page was marked HOLD_FOR_FETCH. -/
  | pageHeld
  /-- PAGE_DIVERTED: A page was diverted. -/
  | pageDiverted
  /-- LAMP_OPEN: A crosspoint became OPEN. -/
  | lampOpen
  /-- LAMP_SHORT: A crosspoint became SHORT. -/
  | lampShort
  /-- LAMP_NEIGHBOUR_SHORT: Two columns became NEIGHBOUR_SHORT. -/
  | lampNeighbourShort
  /-- LAMP_UNVERIFIED: No diagnostic interval within 50 ms. -/
  | lampUnverified
  /-- LAMP_LIFT: A lift entered; carries crosspoint, line and outcome. -/
  | lampLift
  /-- LAMP_BAND_CUT: A pulse was cut by BandEnable. -/
  | lampBandCut
  /-- SYNC_FAULT: SYNC low for over 10 µs. -/
  | syncFault
  /-- RESERVOIR_GUARD: Writing stopped under R417. -/
  | reservoirGuard
  /-- RESERVOIR_LOST: Two units of a stripe were unreadable. -/
  | reservoirLost
  /-- RING_MARKED: An opening was refused under R414. -/
  | ringMarked
  /-- PAGE_CLOSED: A page closed; carries stream, page, first and last line. -/
  | pageClosed
  /-- FETCH_MISSING: A fetch had missing lines; carries the count. -/
  | fetchMissing
  /-- DLT_STARVED: A bound channel had a line ready and no descriptor. -/
  | dltStarved
  /-- DLT_CHANNEL_ERROR: A channel entered ERROR; carries channel and code. -/
  | dltChannelError
  /-- DLT_CQ_FULL: A completion was held for lack of queue space. -/
  | dltCqFull
  /-- HOST_LINK_DEGRADED: The link retrained to a lower rating. -/
  | hostLinkDegraded
  /-- HOST_LINK_DOWN: PE_PERST_N asserted or the link was lost. -/
  | hostLinkDown
  /-- FE_CLAMP: A pin's clamp conducted; carries the pin. -/
  | feClamp
  /-- FE_THRESHOLD: A threshold unit fired; carries channel, unit, value and DT. -/
  | feThreshold
  /-- FE_TRIGGER_MISSED: A trigger was counted under R516. -/
  | feTriggerMissed
  /-- FE_CAL_FAIL: A converter failed self-calibration. -/
  | feCalFail
  /-- FE_PATH_FAIL: A path test failed. -/
  | fePathFail
  /-- FE_GEN_OVERCURRENT: A generator stopped under R509. -/
  | feGenOvercurrent
  /-- FE_QUEUE_DROP: Items were dropped under R534. -/
  | feQueueDrop
  /-- ADDRESS_ASSIGNED: The node took an address from the chain. -/
  | addressAssigned
  /-- COMMIT_DONE: A group entered a stream, or entered with no stream. -/
  | commitDone
  /-- KDP_AUTH_LOCKOUT: A source was locked out under R577. -/
  | kdpAuthLockout
  /-- PTP_UNLOCK: PTP_LOCKED cleared. -/
  | ptpUnlock
  /-- FN_LINK_FAULT: No PLCA beacon for 100 ms while addressed. -/
  | fnLinkFault
  /-- MODE_CHANGED: ModeState changed; carries the old and new codes and the cause. -/
  | modeChanged
  /-- DOMAIN_FAULT: A domain failed to reach ON. -/
  | domainFault
  /-- RAIL_FAULT: A rail left its window under R625. -/
  | railFault
  /-- AVS_DROOP: A droop raised the set point under R629. -/
  | avsDroop
  /-- AVS_MARGIN: A droop came at the highest allowed set point. -/
  | avsMargin
  /-- THERMAL_WARN: TJ_HOT reached TjWarnLimit. -/
  | thermalWarn
  /-- THERMAL_SHUTDOWN: Safe Halt under R619. -/
  | thermalShutdown
  /-- SPARE_INSERTED: An insertion completed; carries pool, unit, spare and origin. -/
  | spareInserted
  /-- SPARE_EXHAUSTED: A pool became exhausted under R651. -/
  | spareExhausted
  /-- WEAR_CROSSED: An indicator crossed; carries indicator and unit. -/
  | wearCrossed
  /-- REPAIR_AREA_FULL: A soft record could not be kept under R665. -/
  | repairAreaFull
  /-- REPAIR_AREA_INVALID: The repair area failed its check at boot. -/
  | repairAreaInvalid
  /-- DEGRADED_RESTORED: The arbiter left Degraded under R645. -/
  | degradedRestored
  /-- SEAL_ISSUED: A seal block was signed; carries SEAL_INDEX and N. -/
  | sealIssued
  /-- SEAL_FAILED: A page could not be sealed under R700. -/
  | sealFailed
  /-- APPROVED_CONDITION: A condition of R691 failed with the lock written. -/
  | approvedCondition
  /-- AUDIT_NEAR_FULL: 15,360 records unacknowledged. -/
  | auditNearFull
  /-- TAMPER_DETECTED: An input or sensor acted under R708. -/
  | tamperDetected
  /-- ZEROISED: A zeroisation completed; carries the trigger. -/
  | zeroised
  /-- FIRMWARE_REJECTED: A slot failed R681. -/
  | firmwareRejected
  /-- SANDBOX_VIOLATION: The sandbox core was stopped. -/
  | sandboxViolation
  /-- UNMATCHED_LINE: A line matched no open trigger record (R18). -/
  | unmatchedLine
  /-- DT_OFFSET_LARGE: A disciplined offset over 1 ms (R52). -/
  | dtOffsetLarge
  /-- CLASS0_LATE: A class 0 line missed the bound (R57). -/
  | class0Late
  deriving DecidableEq, Repr

/-- One event raised (R570): name, device time in ns, severity and arguments. -/
structure EventRec where
  name : EventName
  dt : Nat
  severity : Nat
  args : List Int
  deriving DecidableEq, Repr

/-- The pins the commands of the table move. -/
inductive Pin where
  | stExp | stTg | stSp | stClk | tio | step | dir | motEnable | lampBand | lampCol | sync | alarm | motorEnable
  | ppsOut | enumOut | peWakeN
  deriving DecidableEq, Repr

/-- What leaves the device. -/
inductive Output where
  /-- Blocks on a lane's back channel, first sent first (R60, R63, R66): header, 1 control and 2 data, and scrambled payload. -/
  | backBlocks (lane : Nat) (blocks : List (Nat × Nat))
  /-- The back-channel transmitter runs as a PRBS generator with these settings from now on (R117, R118). -/
  | prbs (lane pattern injectExp : Nat) (invert : Bool)
  /-- The running PRBS generator of a lane inverts one bit (R118). -/
  | prbsInject (lane : Nat)
  /-- A pin driven to a level at an instant (1/4 ns). -/
  | pin (p : Pin) (i : Nat) (level : Bool) (at_ : Nat)
  /-- ST_CLK of a port toggles at a frequency in Hz from a rising edge on (R185). -/
  | clock (port at_ hz : Nat)
  /-- A readout token to a bank (R180). -/
  | token (port seq transfer startPulse : Nat)
  /-- A posted write to host memory. -/
  | hostWrite (addr : Nat) (data : Bytes)
  /-- A read of host memory. -/
  | hostRead (addr len : Nat)
  /-- A completion of a host read. -/
  | hostCompletion (ok : Bool) (data : Bytes)
  /-- A non-fatal Unsupported Request reported through Advanced Error Reporting (R452). -/
  | unsupportedRequest
  /-- An MSI-X message. -/
  | msix (vector : Nat)
  /-- A KDP packet: route, destination, opcode, sequence, session, error code (0 for none) and payload. -/
  | kdp (mailbox : Bool) (dst op seq session error : Nat) (payload : Bytes)
  /-- The Ethernet frame of a KDP packet on the segment: both MAC addresses, EtherType, payload (R544, R545). -/
  | frame (data : Bytes)
  /-- An action message of the arbiter to a plane (R33): kind of the report and what was decided. -/
  | action (kind decision unit : Nat)
  /-- A raw link-layer message of PTP (R581): type and time stamp. -/
  | ptp (kind stamp : Nat)
  /-- Every output returned to its reset state (R719, R731). -/
  | outputsReset (at_ : Nat)
  deriving DecidableEq, Repr

/-- What a Delta channel has ready for the link (R484): a write, a read request or a message with its traffic class, or the end of a
streamed line, behind that line's last write (R479). -/
inductive Tx where
  | send (cls : Nat) (out : Output)
  | lineEnd (cls stream line : Nat)
  deriving DecidableEq, Repr

/-! ### Confluences, queues, trigger records (chapter 01) -/

/-- A dictionary value: a number, or the bytes of a DOMAIN or REC. -/
inductive Val where
  | num (v : Int)
  | blob (b : Bytes)
  deriving DecidableEq, Repr

/-- The coefficient and defect tables a stream's lines are corrected with (R219, R226): entries by `ph × W + x`. -/
structure Tables where
  /-- OFFSET and GAIN by entry; (0, 65536) where nothing is listed. -/
  coef : Table (Int × Nat) := []
  /-- (PIXEL, METHOD) in ascending PIXEL. -/
  defects : List (Nat × Nat) := []
  /-- Curves by slot as the stream has taken them (R29); a slot not listed is the device's. -/
  curves : Table (List Nat) := []
  deriving DecidableEq, Repr

/-- One portion of a line that its trigger record awaits (R18, R125, R208). -/
structure Part where
  /-- Place in the stream's tributary table, 0 to 15. -/
  trib : Nat
  /-- LANE_ID of the lane portion; 0 for an analog tributary. -/
  portion : Nat
  /-- Tributary pixels the portion holds. -/
  need : Nat
  /-- Tributary pixels received. -/
  got : Nat := 0
  deriving DecidableEq, Repr

/-- A trigger record of the Tag Confluence: what the timing island recorded when it scheduled the line (R16 to R21),
with the settings in effect for the line. -/
structure LineRec where
  stream : Nat
  /-- Extended line index; the tag's LINE is this modulo 2^32. -/
  line : Nat
  /-- TRIG_SEQ, 32 bits. -/
  seq : Nat
  phase : Nat
  /-- Phase cycle since the stream opened. -/
  cycle : Nat
  /-- Scheduled DT in 1/4 ns. -/
  sched : Nat
  /-- Exposure time in 1/4 ns. -/
  exposure : Nat
  /-- POS_KIND of the tag. -/
  posKind : Nat := 0
  /-- P_n, or the latched POSITION × 65,536, in 1/65,536 counts (R419). -/
  pTarget : Int := 0
  /-- Latched POSITION in counts and latched DT in ns (R299). -/
  latchPos : Int := 0
  latchDt : Int := 0
  /-- LAMP_GEN in effect. -/
  lampGen : Nat := 0
  parts : List Part := []
  /-- EXP_MEAS in 1/4 ns and START_ERR in 1/4 ns, once reported. -/
  expMeas : Option Nat := none
  startErr : Int := 0
  /-- The dictionary in effect when the line was scheduled (R28). -/
  regs : Table Int := []
  /-- The tables in effect when the line was scheduled (R222). -/
  tables : Tables := {}
  /-- The curves in effect when the line was scheduled, by slot. -/
  curves : Table (List Nat) := []
  /-- Coefficient set exchanges of the stream before the line (R431). -/
  tableGen : Nat := 0
  /-- The line is past the stream entry point (R211). -/
  entered : Bool := false
  /-- Instant of the line's last pixel by the receiving island's copy of device time (R49, R55), 1/4 ns; none before a pixel came. -/
  lastPixel : Option Nat := none
  /-- Ratio r and factor q sent with the line's segments (R231, R237). -/
  r : Nat := 65536
  q : Nat := 65536
  /-- Completed output items: first stream pixel and stored bytes. -/
  items : List (Nat × Bytes) := []
  /-- Stream pixels corrected. -/
  pixelsDone : Nat := 0
  /-- Sum and count of stage-6 values in the reference window. -/
  winSum : Nat := 0
  winCount : Nat := 0
  /-- Stage-7 values copied to the edge detector: stream pixel and value. -/
  tap : List (Nat × Nat) := []
  /-- Stage-1 values for a calibration capture (R258): stream pixel, value, at the tributary's full scale. -/
  rawTap : List (Nat × Nat × Bool) := []
  /-- A calibration capture takes the line (R257, R265). -/
  calTake : Bool := false
  /-- The line is darkened by a DARK or GAP_DARK capture: zero lamp settings in the record (R264, R265). -/
  dark : Bool := false
  /-- A band of the phase is disabled (R262, R387). -/
  bandOff : Bool := false
  /-- Placed by a prediction (R303), not by R305 or a timer. -/
  predicted : Bool := false
  /-- Groups that have not answered a TRIG_CANCEL of the line (R165), and whether some group kept it. -/
  cancelling : List Nat := []
  keptByCamera : Bool := false
  /-- Tag flags of R13. -/
  replaced : Bool := false
  repaired : Bool := false
  seamResume : Bool := false
  lampCut : Bool := false
  lampUnverified : Bool := false
  endClosed : Bool := false
  lost : Bool := false
  normClamp : Bool := false
  driftClamp : Bool := false
  trigSlip : Bool := false
  driftLate : Bool := false
  /-- Its trigger instant has come (R513). -/
  fired : Bool := false
  /-- Some portion can no longer arrive. -/
  missing : Bool := false
  /-- The close was deferred under R20. -/
  deferred : Bool := false
  deriving DecidableEq, Repr

/-- An accepted commit group waiting for its boundary (R25 to R31). -/
structure CommitGroup where
  /-- COMMIT_ID. -/
  id : Nat
  /-- Boundary code of R23: 0 M, 1 P, 2 C, 3 L, 4 S, 5 I. -/
  boundary : Nat
  /-- Members in the order first staged: object key and value. -/
  members : List (Nat × Val)
  /-- Streams that have still to take the group; none for a group of no stream. -/
  streams : List Nat
  /-- An S group: the window opening from which it is in effect, once its broadcast came (R382), 1/4 ns. -/
  applyAt : Option Nat := none
  /-- Some stream has taken the group: the members of no stream entered with it (R29). -/
  begun : Bool := false
  deriving DecidableEq, Repr

/-- A fault report of R32. -/
structure FaultReport where
  /-- Device time in ns. -/
  dt : Nat
  island : Nat
  kind : Nat
  severity : Nat
  plane : Nat
  detail : Nat
  deriving DecidableEq, Repr

/-- An item held in a crossing queue (R37 to R41). -/
structure QItem where
  cls : Nat
  words : Nat
  /-- Stream and extended line index of the line it belongs to, for an item that carries pixels. -/
  line : Option (Nat × Nat) := none
  deriving DecidableEq, Repr

/-- Words of an item that a writer holds until the queue has room for them (R38). -/
structure QWrite where
  cls : Nat
  words : Nat
  last : Bool
  bad : Bool
  line : Option (Nat × Nat) := none
  deriving DecidableEq, Repr

/-- A crossing queue (R36 to R47). -/
structure Queue where
  /-- Committed items, the next to be read first. -/
  items : List QItem := []
  /-- Words written of an item whose last word is not committed. -/
  openWords : Nat := 0
  /-- The line of that item, where it carries pixels (R42). -/
  openLine : Option (Nat × Nat) := none
  /-- Writes whose handshake has not completed, oldest first (R38). -/
  waiting : List QWrite := []
  /-- RESETTING after a pointer fault, until the next tick (R42, R47). -/
  resetting : Bool := false
  /-- FLUSH_DRAINING: the producer's words are discarded up to its item's last word. -/
  draining : Bool := false
  ptrFault : Bool := false
  pointerFaults : Nat := 0
  weir : Bool := false
  deriving DecidableEq, Repr

/-! ### GrenoLink lanes (chapter 02) -/

/-- Lane states of R106, in code order 0 to 7. -/
inductive LaneState where
  | disabled | training | aligning | active | sleep | retraining | failed | test
  deriving DecidableEq, Repr

/-- Power of one direction of a lane (R122): 0 ACTIVE, 1 SLEEP, 2 OFF, 3 changing. -/
inductive LanePower where
  | active | sleep | off | changing
  deriving DecidableEq, Repr

/-- A NAK that has not been answered (R144, R147). -/
structure Nak where
  psn : Nat
  /-- When it was last sent, 1/4 ns. -/
  since : Nat
  repeats : Nat := 0
  deriving DecidableEq, Repr

/-- A packet in assembly (R129, R131, R137): its header, the content after the START block, and where in its payload an ALIGN block
fell. -/
structure Assembly where
  header : Bytes
  body : Bytes := []
  alignAt : Option Nat := none
  deriving DecidableEq, Repr

/-- One lane: its receiver, its training, its eye monitor, its power and its test logic. -/
structure Lane where
  state : LaneState := .disabled
  fwdPower : LanePower := .off
  backPower : LanePower := .off
  /-- A SLEEP_REQ is out for the forward direction since this instant (R111). -/
  sleepReq : Option Nat := none
  /-- A SLEEP_REQ is out for the back channel. -/
  backSleepReq : Option Nat := none
  /-- A WAKE arrived while the direction was entering SLEEP (R114). -/
  wakeAfterSleep : Bool := false
  backWakeAfterSleep : Bool := false
  cdrLock : Bool := false
  blockLock : Bool := false
  alignLock : Bool := false
  deskewed : Bool := false
  frozen : Bool := false
  /-- A tap, or the CTLE, is held at a software bound (R97, R99). -/
  tapClamped : Bool := false
  /-- The bound CTLE adaptation is held at: true the upper one. -/
  ctleBound : Option Bool := none
  marginWarn : Bool := false
  marginFail : Bool := false
  retrainPending : Bool := false
  signalDetect : Bool := false
  rxLaneId : Nat := 0
  rxAlignSeq : Nat := 0
  /-- Bit offset while hunting (R73), 0 to 65. -/
  bitOffset : Nat := 0
  /-- Consecutive valid headers at one offset. -/
  validRun : Nat := 0
  /-- The last 64 headers, newest first: true for an invalid one (R74). -/
  window : List Bool := []
  /-- The first block after block lock is discarded (R69). -/
  discardNext : Bool := false
  /-- The 58 bits last received, bit 0 the newest (R66). -/
  scrambler : Nat := 0
  /-- The 58 bits last sent on the back channel (R68). -/
  txScrambler : Nat := 0
  /-- Blocks since the last ALIGN block seen, counted at the lane input (R75). -/
  slots : Option Nat := none
  /-- LANE_ID locked (R75). -/
  lockedLaneId : Option Nat := none
  /-- Waking from forward SLEEP with alignment lock held before (R75). -/
  wakeRelock : Bool := false
  /-- ALIGN block at the head of the elastic queue: its ALIGN_SEQ and its arrival (R80 to R82). -/
  head : Option (Nat × Nat) := none
  /-- Entry to the present state, 1/4 ns. -/
  since : Nat := 0
  fillerRun : Nat := 0
  dataSinceFreeze : Nat := 0
  ctle : Nat := 0
  /-- SEQ last sent in TRAIN_REQ, whether unanswered, since when, and its resends (R95, R96). -/
  trainSeq : Nat := 0
  /-- Enabled at Configure entry while its power domain still ramps: training begins once the domain is on (R106, R622). -/
  trainDue : Bool := false
  /-- The first request of this training, INITIALISE or PRESET, has been sent (R97). -/
  trainBegun : Bool := false
  trainOpen : Bool := false
  trainSent : Nat := 0
  trainResends : Nat := 0
  /-- Body of the last TRAIN_REQ (R91). -/
  trainBody : Nat := 0
  /-- Camera taps as last reported: pre, main, post (R93). -/
  taps : Nat × Nat × Nat := (0, 0, 0)
  /-- Their statuses as last reported: 0 not updated, 1 updated, 2 at minimum, 3 at maximum (R93). -/
  tapSts : Nat × Nat × Nat := (0, 0, 0)
  /-- SEQ of the last SLEEP_REQ, WAKE, ACK or OXBOW word sent on the lane (R88). -/
  msgSeq : Nat := 0
  /-- The packet being assembled from the lane's blocks (R129, R131). -/
  asm : Option Assembly := none
  /-- PRBS test: running since, checker locked, patterns (R117 to R120). -/
  testSince : Option Nat := none
  chkLock : Bool := false
  testSeq : Nat := 0
  /-- The checker has been locked since this instant (R119). -/
  chkSince : Option Nat := none
  /-- First entry to ACTIVE after TRAINING or RETRAINING restarts the PSN sequence (R141). -/
  psnRestart : Bool := true
  /-- Least margin of the running hour and the hourly minima kept for WEAR_LANE, newest first, at most 168 (R660, R661). -/
  hourMin : Option Nat := none
  hourly : List Nat := []
  /-- Left service by a planned switch: a retraining makes it the spare only after a good eye sweep (R662). -/
  planned : Bool := false
  deriving DecidableEq, Repr

/-! ### Link groups (chapter 03) -/

/-- Group states of R172, in code order. -/
inductive GroupState where
  | down | linking | up | spareInUse | failed
  deriving DecidableEq, Repr

/-- The receive side of one LANE_ID's PSN sequence (R141 to R147). -/
structure RxSeq where
  /-- Lowest PSN not yet received. -/
  next : Nat := 0
  /-- Accepted PSNs above it. -/
  above : List Nat := []
  naks : List Nak := []
  /-- Something received and not acknowledged since this instant (R144). -/
  ackDue : Option Nat := none
  /-- A replay is in progress (R20): PSNs NAKed and neither accepted nor failed are in `naks`. -/
  failedOver : Bool := false
  /-- PSNs the camera still holds for it after an Oxbow switch: recovery ends when `next` reaches this (R20, R156). -/
  lagUntil : Option Nat := none
  deriving DecidableEq, Repr

/-- A packet sent on a group's back channel and kept until acknowledged (R149). -/
structure BackPacket where
  psn : Nat
  ptype : Nat
  subheader : Nat
  payload : Bytes
  sent : Nat
  deriving DecidableEq, Repr

/-- A camera register access in progress (R167). -/
structure CtlAccess where
  address : Nat
  count : Nat
  write : Bool
  data : Bytes
  tag : Nat
  sent : Nat
  attempts : Nat
  /-- 0 link-up or time lock, 1 proxy (R173). -/
  proxy : Bool
  deriving DecidableEq, Repr

/-- One link group: status, sequences, time exchange, register access. -/
structure Group where
  state : GroupState := .down
  spareFor : Nat := 15
  spareReady : Bool := false
  timeLocked : Bool := false
  /-- LANE_IDs moved by an Oxbow switch: LANE_ID and the lane that carries it now (R152). -/
  moved : List (Nat × Nat) := []
  /-- The lane that became the group's spare by retraining (R154); none: the configured spare. -/
  spareLane : Option Nat := none
  /-- Receive sequences by LANE_ID. -/
  rx : Table RxSeq := []
  /-- Next PSN of the back channel and the packets held. -/
  txPsn : Nat := 0
  held : List BackPacket := []
  /-- Packets not yet started, because 64 µs of them are held (R148, R149), oldest first. -/
  unsent : List BackPacket := []
  /-- TRIG_CANCEL messages not yet answered, oldest first: FIRST_SEQ and LAST_SEQ (R165). -/
  cancels : List (Nat × Nat) := []
  /-- Elastic fill above centre as last reported, less the slots deleted and with those inserted since (R78). -/
  fill : Int := 0
  /-- The LANE_ID of an OXBOW not yet answered (R151, R152) and its RESUME_PSN. -/
  oxbow : Option (Nat × Nat) := none
  /-- When the arbiter decided the switch in progress (R663), DT in ns. -/
  oxbowAt : Nat := 0
  /-- SYNC_ID and T1 (1/256 ns) of the exchange in progress (R157). -/
  sync : Option (Nat × Nat) := none
  syncId : Nat := 0
  goodSyncs : Nat := 0
  /-- Link-up checks passed; CFG_CONTROL not yet written (R170). -/
  linkChecked : Bool := false
  ctlTag : Nat := 0
  access : Option CtlAccess := none
  /-- Register accesses waiting for the one in progress (R167). -/
  accessWait : List CtlAccess := []
  camRegData : Bytes := []
  /-- Registers 0x00 to 0x53 as read at link-up (84 bytes once read). -/
  identity : Bytes := []
  deriving DecidableEq, Repr

/-! ### Analog line sensors (chapter 04) -/

/-- Port states of R202, in code order. -/
inductive PortState where
  | disabled | idle | running | failed
  deriving DecidableEq, Repr

/-- Bank states of R203, in code order. -/
inductive BankState where
  | off | calibrating | ready | failed
  deriving DecidableEq, Repr

/-- The schedule of one analog line (R176, R177), instants in 1/4 ns. -/
structure PortLine where
  /-- TRIG_SEQ of the line. -/
  seq : Nat
  /-- Window opening and closing, transfer, start pulse, transfer end and readout end. -/
  opens : Nat
  closes : Nat
  transfer : Nat
  startPulse : Nat
  transferEnd : Nat
  readoutEnd : Nat
  /-- Measured edges at the ball (R183). -/
  openedAt : Option Nat := none
  closedAt : Option Nat := none
  /-- The readout token has reached the bank and was accepted (R182). -/
  token : Bool := false
  deriving DecidableEq, Repr

/-- One sensor timing port. -/
structure Port where
  state : PortState := .disabled
  overrun : Bool := false
  expFault : Bool := false
  tokenLate : Bool := false
  /-- ST_CLK has a rising edge at this instant and every period after it (R185); none while it is held low. -/
  clockFrom : Option Nat := none
  /-- Until when a burst clock runs; none for a continuous one. -/
  clockUntil : Option Nat := none
  /-- The open exposure gate closes at this instant (R176). -/
  gateClose : Option Nat := none
  /-- Tributary lines emitted, modulo 2^24. -/
  lines : Nat := 0
  /-- End of the last transfer pulse and of the last readout, 1/4 ns (R176, R177). -/
  prevP : Nat := 0
  prevR : Nat := 0
  /-- Lines scheduled and not yet emitted, oldest first. -/
  queue : List PortLine := []
  /-- Levels of ST_EXP, ST_TG, ST_SP as asserted. -/
  stExp : Bool := false
  stTg : Bool := false
  stSp : Bool := false
  deriving DecidableEq, Repr

/-! ### The pixel pipeline (chapter 05) -/

/-- Slice states of R255, in code order. -/
inductive SliceState where
  | off | active | spareWarm | spareCold | testing | failed
  deriving DecidableEq, Repr

/-- A segment on its way to, or in, a slice (R210). Pixels are WIDTH-code values in ascending stream pixel index. -/
structure Segment where
  stream : Nat
  line : Nat
  /-- Place in the tributary table. -/
  trib : Nat
  /-- Lowest stream pixel. -/
  first : Nat
  /-- WIDTH code of the pixels. -/
  width : Nat
  pixels : List Nat
  cls : Nat
  /-- Replays made (R250). -/
  replays : Nat := 0
  deriving DecidableEq, Repr

/-- One slice and its input port (R213, R214). -/
structure Slice where
  state : SliceState := .off
  /-- Replayed segments, ahead of all other work (R249). -/
  replay : List Segment := []
  /-- Segments of classes 1 to 3 waiting, at most two. -/
  queue : List Segment := []
  /-- The class 0 place. -/
  c0 : Option Segment := none
  current : Option Segment := none
  /-- Raw data of the segment completed last. -/
  retained : Option Segment := none
  /-- The output item of `retained` is committed to the reservoir queue. -/
  committed : Bool := true
  /-- Withdrawn by the dealer after a residue fault, with the segments still to be replayed (R248, R249). -/
  faulted : Bool := false
  /-- The segment whose replay its built-in test follows (R251): stream, line and lowest pixel. -/
  awaits : Option (Nat × Nat × Nat) := none
  /-- Instants of its residue mismatches within the last 24 h, 1/4 ns, newest first (R660). -/
  mismatches : List Nat := []
  /-- A worn slice that completes its queue and is then retired (R659). -/
  worn : Bool := false
  /-- A spare made permanent (R251, R632). -/
  permanent : Bool := false
  /-- A spare bound to a faulted slice's input port: that slice, and whether the insertion has been reported (R249). -/
  boundTo : Option Nat := none
  inserted : Bool := false
  deriving DecidableEq, Repr

/-- Stream states of R254, in code order. -/
inductive StreamState where
  | closed | opening | running | closing | failed
  deriving DecidableEq, Repr

/-- The filtered window mean of one phase (R235 to R238). -/
structure Drift where
  /-- M in 18.8 fixed point; none before the first line of the phase. -/
  mean : Option Nat := none
  /-- Phase cycles processed since the stream opened. -/
  processed : Nat := 0
  /-- Factor standing after each processed cycle, and whether R236 clamped it, newest first. -/
  history : List (Nat × Bool) := []
  /-- Lines whose window mean is known, or which do not update M, waiting for lower ones (R238): phase cycle, and mean,
  DriftRef, DriftRange and DriftShift of the line. -/
  waiting : List (Nat × Option (Nat × Nat × Nat × Nat)) := []
  deriving DecidableEq, Repr

/-- One stream in the pipeline. -/
structure Stream where
  state : StreamState := .closed
  normClamp : Bool := false
  driftClamp : Bool := false
  sat : Bool := false
  /-- The second of the two row sets of a stream with CoefShadow is the active one (R221, R222). -/
  second : Bool := false
  /-- First line that reads the set last exchanged (R222). -/
  swapLine : Option Nat := none
  /-- Lines completed, modulo 2^24. -/
  lines : Nat := 0
  /-- The active coefficient set and defect map. -/
  tables : Tables := {}
  /-- Window filters by phase. -/
  drift : Table Drift := []
  /-- Highest line past the stream entry point since the opening (R211). -/
  lastEntered : Option Nat := none
  /-- Highest line written since the opening. -/
  lastWritten : Option Nat := none
  /-- First line of the opening. -/
  firstLine : Nat := 0
  /-- The line that is to carry END_CLOSED, once the stream closes (R212). -/
  endLine : Option Nat := none
  /-- TRIG_SEQs whose pixels are discarded without being counted (R212). -/
  ignored : List Nat := []
  /-- Trigger instants within the last 1 ms (R217), newest first. -/
  recent : List Nat := []
  /-- A StreamEnable write held for a later mode entry (R610, R774). -/
  heldOpen : Option Bool := none
  deriving DecidableEq, Repr

/-- A coefficient row with read faults (R223 to R225). -/
structure CoefRow where
  /-- Times of corrected reads within the last second, 1/4 ns. -/
  corrected : List Nat := []
  /-- An uncorrectable read was reported. -/
  reported : Bool := false
  /-- Mapped to a spare row. -/
  remapped : Bool := false
  /-- Awaiting rewrite: its entries count as uncorrectable. -/
  bad : Bool := false
  deriving DecidableEq, Repr

/-! ### Calibration and lamp warm-up (chapter 06) -/

/-- Capture and derivation states of R282, in code order. -/
inductive CalState where
  | idle | waitingWarm | capturing | captured | deriving_ | staged | failed
  deriving DecidableEq, Repr

/-- The accumulation record of R258. -/
structure CalAcc where
  sumsq : Nat := 0
  sum : Nat := 0
  max : Nat := 0
  min : Nat := 262143
  clips : Nat := 0
  deriving DecidableEq, Repr

/-- One phase of a capture's set (R259): the sum of EXP_MEAS, the lines taken, and the records by stream pixel. -/
structure CalPhase where
  exposure : Nat := 0
  lines : Nat := 0
  recs : Table CalAcc := []
  deriving DecidableEq, Repr

/-- A kept set (R259): when it was completed (ns), whether from gap lines, and its phases. -/
structure CalSet where
  doneAt : Nat := 0
  gap : Bool := false
  phases : Table CalPhase := []
  deriving DecidableEq, Repr

/-- Derived tables (R267 to R271). -/
structure CalTables where
  coef : Table (Int × Nat) := []
  defects : List (Nat × Nat) := []
  driftRefs : List (Nat × Nat) := []
  deriving DecidableEq, Repr

/-- Capture and derivation of one stream. -/
structure Calib where
  state : CalState := .idle
  /-- Last command code. -/
  kind : Nat := 0
  result : Nat := 0
  /-- A committed capture waits for the next phase cycle (R257). -/
  armed : Bool := false
  /-- First line of the capture. -/
  fromLine : Option Nat := none
  /-- After a DARK capture: the first line that takes the phase settings again (R264). -/
  restoreAt : Option Nat := none
  /-- The capture's CalLines and CalPhaseMask. -/
  lines : Nat := 0
  mask : Nat := 0
  /-- Lines marked for the capture and not yet decided, by phase. -/
  inFlight : Table Nat := []
  work : Table CalPhase := []
  /-- Good lines taken by the capture, all phases. -/
  taken : Nat := 0
  excluded : Table Nat := []
  dark : Option CalSet := none
  white : Option CalSet := none
  /-- Tables of the last derivation (CalDerived). -/
  derived : Option CalTables := none
  deriving DecidableEq, Repr

/-- Warm-up states of R278, in code order. -/
inductive WarmState where
  | off | warming | warm | timeout
  deriving DecidableEq, Repr

/-- Lamp warm-up (R277 to R280). -/
structure Warmup where
  state : WarmState := .off
  /-- Entry to WARMING, 1/4 ns. -/
  since : Nat := 0
  /-- Settled intervals in a row. -/
  settled : Nat := 0
  /-- Sum and count of each source's values in the running interval, by source number. -/
  acc : Table (Int × Nat) := []
  /-- Mean of the interval before, by source number: sum and count. -/
  prev : Table (Int × Nat) := []
  deriving DecidableEq, Repr


/-! ### Position, motion, timing I/O (chapter 07) -/

/-- One differential position input. -/
structure PosInput where
  /-- Levels of the two wires. -/
  p : Bool := false
  n : Bool := true
  /-- Level presented to the stability filter: the last at which the wires were complementary (R285). -/
  shown : Bool := false
  /-- Level that last left the stability filter (R287). -/
  passed : Bool := false
  /-- Level kept after the edge check: the last accepted (R288). -/
  level : Bool := false
  /-- A transition in the filter: its stamp, 1/4 ns (R286, R287). -/
  pending : Option Nat := none
  /-- The wires have stood at one level since. -/
  agreeSince : Option Nat := none
  /-- The wires have been complementary again since, while the input is faulted. -/
  goodSince : Option Nat := none
  /-- Held under a wire fault. -/
  faulted : Bool := false
  /-- An edge rejected under R288 that still differs from the kept level. -/
  late : Bool := false
  deriving DecidableEq, Repr

/-- Position channel states of R332, in code order. -/
inductive PosState where
  | off | running | wireFault | indexHold
  deriving DecidableEq, Repr

/-- One position channel. -/
structure PosChan where
  state : PosState := .off
  dirUp : Bool := false
  edgeFault : Bool := false
  wireFault : Bool := false
  indexSeen : Bool := false
  mismatch : Bool := false
  a : PosInput := {}
  b : PosInput := {}
  z : PosInput := {}
  /-- Raw count minus reported count (R293). -/
  lag : Nat := 0
  /-- Latest latched pairs, newest first: POSITION and DT in ns, at most nine (R294). -/
  latches : List (Int × Nat) := []
  /-- Pairs latched since the channel was last enabled, to nine (R299). -/
  fresh : Nat := 0
  /-- Upward changes of the reported count since the last downward one, to nine (R299). -/
  upRun : Nat := 0
  /-- Acceptance instants of the last A or B edge and of the last Z edge, 1/4 ns (R288). -/
  lastAB : Option Nat := none
  lastZ : Option Nat := none
  /-- When POS_EDGE_FAULT was last raised. -/
  lastFault : Option Nat := none
  /-- PosCapture: DT in ns, FINE, POSITION (R317). -/
  capture : Nat × Int × Int := (0, 0, 0)
  deriving DecidableEq, Repr

/-- A compare unit's own state beside CompareValue and CompareCtl: waiting to re-arm (R314). -/
structure Compare where
  rearm : Bool := false
  deriving DecidableEq, Repr

/-- One stream's trigger generator (R301 to R310). -/
structure Gen where
  /-- Lowest line not yet scheduled, extended index. -/
  next : Nat := 0
  /-- T0 of a timer stream, 1/4 ns. -/
  t0 : Int := 0
  /-- Instant of the last trigger scheduled, 1/4 ns (R307). -/
  last : Option Nat := none
  /-- Next TRIG_SEQ. -/
  seq : Nat := 0
  /-- Scheduling is withheld on the way into Hold (R362). -/
  held : Bool := false
  /-- Highest line number triggered and kept, as one above it. -/
  triggered : Nat := 0
  /-- Line numbers above `next` already emitted (R307) when a lower line was withdrawn. -/
  used : List Nat := []
  /-- DT in ns of the last edge evaluated (R305, R306). -/
  edgeSeen : Option Nat := none
  /-- Consecutive lines withheld under R397. -/
  withheld : Nat := 0
  deriving DecidableEq, Repr

/-- One timing I/O pin. -/
structure Tio where
  /-- Asserted level at the ball, after POLARITY. -/
  level : Bool := false
  /-- Input stamps: last edge in ns. -/
  lastEdge : Nat := 0
  /-- End of the pulse in progress, 1/4 ns (R320). -/
  pulseEnd : Option Nat := none
  /-- Pending instants of SCHEDULED_OUT, ns, ascending (R321). -/
  instants : List Nat := []
  deriving DecidableEq, Repr

/-- Motion channel states of R334, in code order. -/
inductive MotState where
  | off | standstill | moving | stopping | quickStopping | fault
  deriving DecidableEq, Repr

/-- One motion channel. Position in 10^-21 step, velocity in 10^-14 step/s, acceleration in 10^-7 step/s², so that one
100 ns step of the integration is exact. -/
structure Motion where
  state : MotState := .off
  pos : Int := 0
  vel : Int := 0
  acc : Int := 0
  dirUp : Bool := false
  /-- Quick-stop deceleration of a channel in FAULT (R330). -/
  braking : Bool := false
  /-- MotEnable went to 0 while moving: OFF at standstill (R328). -/
  offAtStop : Bool := false
  /-- A further write is needed before the channel moves again after a stop (R773). -/
  idleHold : Bool := true
  /-- ExtendedPosition and CommandedPosition at the last enable (R330). -/
  followBase : Int × Int := (0, 0)
  /-- DIR was last changed, and a step last emitted, at these instants, 1/4 ns (R322). -/
  dirSince : Nat := 0
  lastStep : Nat := 0
  /-- MotEnable has been written 1: the channel drives its outputs (R731). -/
  driven : Bool := false
  /-- Speed asked by the pacing loop or a back-up move, steps/s; a back-up move's target in steps. -/
  paceSpeed : Nat := 0
  moveTo : Option Int := none
  moveSpeed : Nat := 0
  deriving DecidableEq, Repr

/-! ### Transports (chapter 08) -/

/-- Transport states of R344, in code order. -/
inductive TransState where
  | idle | running | stopping | backingUp | stopped | restarting | held | fault
  deriving DecidableEq, Repr

/-- One transport. -/
structure Transport where
  state : TransState := .idle
  preset : Nat := 0
  clamped : Bool := false
  clampUp : Bool := false
  /-- Restarts completed, modulo 2^16. -/
  seams : Nat := 0
  /-- Last preset change, 1/4 ns. -/
  lastChange : Nat := 0
  /-- Standstill, or arrival at the back-up point, since this instant (R348, R350). -/
  since : Option Nat := none
  /-- p_stop (R346). -/
  pStop : Int := 0
  /-- Back-up target in steps, and ExtendedPosition at the arrival there (R348, R364). -/
  backupTo : Int := 0
  backupPos : Int := 0
  deriving DecidableEq, Repr

/-- What the seam and the diverter keep of a stream. -/
structure Seam where
  /-- From a stop request until line n_last + 1 triggers: the gate levels held (R354). -/
  holding : Bool := false
  heldPins : List Nat := []
  /-- n_last + 1 while a restart is due (R352). -/
  resumeLine : Option Nat := none
  /-- Streaming delivery is withdrawn: HighWater asserted on a NON_STOPPABLE transport (R358). -/
  withdrawn : Bool := false
  /-- DIVERT_OUT asserted, and when it is to deassert after the page's end (R360). -/
  divert : Bool := false
  divertUntil : Option Nat := none
  deriving DecidableEq, Repr

/-! ### Illumination (chapter 09) -/

/-- States of a populated crosspoint (R403). -/
inductive XpState where
  | verified | unverified | open_ | short | neighbourShort
  deriving DecidableEq, Repr

/-- One crosspoint of the lamp matrix. -/
structure Crosspoint where
  state : XpState := .verified
  /-- Consecutive unchecked pulses, at most 256 (R394). -/
  unchecked : Nat := 0
  /-- Consecutive checked pulses as an open candidate, as a short, and pulled as a neighbour (R389, R390, R392). -/
  openRun : Nat := 0
  shortRun : Nat := 0
  pulledRun : Nat := 0
  regOk : Bool := false
  dLast : Nat := 0
  millivolt : Nat := 0
  /-- Since when UNVERIFIED, 1/4 ns, and whether R396 has reported it. -/
  since : Nat := 0
  told : Bool := false
  /-- Failed neighbours on its account (R398), and the first lifted line of each stream (R399). -/
  lifts : Nat := 0
  liftFrom : List (Nat × Nat) := []
  deriving DecidableEq, Repr

/-- A pulse of one band: of a line, or a diagnostic one (R395). -/
structure LampPulse where
  /-- Stream and extended line index; none for a diagnostic pulse. -/
  line : Option (Nat × Nat)
  band : Nat
  /-- Start after s_n, or the start itself for a diagnostic pulse, and width W, 1/4 ns (R375). -/
  offset : Nat
  width : Nat
  /-- Column and code D of each lit crosspoint. -/
  codes : List (Nat × Nat)
  /-- LAMP_BAND has been asserted; the sinks are on, since this instant; the pulse has been measured. -/
  banded : Bool := false
  onSince : Option Nat := none
  measured : Bool := false
  deriving DecidableEq, Repr

/-- The illumination matrix. -/
structure Lamps where
  /-- Pulses waiting or in progress, oldest first. -/
  pulses : List LampPulse := []
  points : Table Crosspoint := []
  /-- Bands whose columns are held at the discharge level, and until when (R377). -/
  discharging : List (Nat × Nat) := []
  /-- Deassertion of each band last (R377), by band. -/
  lastOff : Table Nat := []
  /-- LAMP_GEN: S entries, modulo 2^16 (R385). -/
  gen : Nat := 0
  /-- LampTrim (R381): trims by crosspoint. -/
  trim : Table Nat := []
  /-- Bands that drive their pin: written 1 to BandEnable at least once. -/
  driven : List Nat := []
  /-- The neighbour test runs until (R391). -/
  testUntil : Option Nat := none
  /-- Failed crosspoints whose lift the arbiter has decided (R398). -/
  liftsDue : List Nat := []
  /-- The headroom period (R400): a checked pulse came; a crosspoint was starved; the least pin voltage of a lit one. -/
  sawChecked : Bool := false
  starved : Bool := false
  leastMv : Option Nat := none
  /-- The bound the loop holds at: true the upper one (R401). -/
  atBound : Option Bool := none
  /-- SYNC has been low too long, as of this instant, and no valid pulse has followed (R386). -/
  syncFault : Option Nat := none
  deriving DecidableEq, Repr


/-! ### Reservoir rings and pages (chapter 10) -/

/-- What the page and edge logic keeps of a line that the Tag Confluence has finished with. -/
structure LineSum where
  line : Nat
  phase : Nat
  /-- Scheduled instant in ns and position value, from the trigger record (R431). -/
  dt : Nat
  pos : Int
  lampGen : Nat
  /-- Written to the ring; clear for a line dropped under R417. -/
  written : Bool
  lost : Bool
  repaired : Bool
  seam : Bool
  /-- For an edge-phase line: LEFT, RIGHT, COUNT and OBJECT (R435). -/
  edge : Option (Nat × Nat × Nat × Bool) := none
  /-- Stage-7 values of the edge window, until the edge detector has taken the line. -/
  tap : List (Nat × Nat) := []
  /-- The dictionary in effect for the line (R28), and the coefficient set exchanges before it (R431). -/
  regs : Table Int := []
  tableGen : Nat := 0
  deriving DecidableEq, Repr

/-- A page record of R431, its fields decoded. -/
structure PageRec where
  number : Nat
  firstLine : Nat
  firstDt : Nat := 0
  firstPos : Int := 0
  lines : Nat := 0
  dropped : Nat := 0
  lead : Option Nat := none
  trail : Option Nat := none
  skew : Int := 0
  cropFirst : Nat := 0
  cropLast : Nat := 0
  cropLeft : Nat := 0
  cropRight : Nat := 0
  lampGen : Nat := 0
  tableGen : Nat := 0
  widthCode : Nat := 0
  compressed : Bool := false
  opened : Bool := true
  incomplete : Bool := false
  hold : Bool := false
  diverted : Bool := false
  endClosed : Bool := false
  maxLength : Bool := false
  anyLost : Bool := false
  anyRepaired : Bool := false
  anySeam : Bool := false
  edgesValid : Bool := false
  skewValid : Bool := false
  cropValid : Bool := false
  sealed : Bool := false
  released : Bool := false
  sealIndex : Nat := 0
  objectLines : Nat := 0
  digest : Bytes := []
  /-- SealEnable was in effect when it opened; its entry has been queued, or the page cannot be sealed (R694, R700). -/
  toSeal : Bool := false
  sealTried : Bool := false
  /-- Lines dropped under R417, so that a seal passes them over (R696). -/
  missing : List Nat := []
  /-- The dictionary in effect for the page: that of its first line, since a P group never enters inside a page (R427). -/
  regs : Table Int := []
  deriving DecidableEq, Repr

/-- The kinds of rewind mark (R415). -/
inductive MarkKind where
  | delivery | pending | hold | host | fetch
  deriving DecidableEq, Repr

/-- A rewind mark: HOLD marks are told apart by page number, HOST marks by subindex, FETCH marks by Delta channel. -/
structure Mark where
  kind : MarkKind
  id : Nat
  index : Nat
  deriving DecidableEq, Repr

/-- One slot of a ring: the line it holds, its 256-bit tag and its stored bytes. -/
structure RingSlot where
  index : Option Nat := none
  tag : Nat := 0
  bytes : Bytes := []
  /-- The pixel bytes are undefined (R212, R412): the open value that stands for them. -/
  undef : Option Nat := none
  /-- StoredWidth the line was packed with. -/
  width : Nat := 0
  /-- Instant of the line's last pixel, 1/4 ns (R55); none where none came. -/
  lastPixel : Option Nat := none
  /-- In a page, or in the leading margin of one, so in the scope PAGES (R430). -/
  inPage : Bool := false
  /-- The stored bytes are segment records (R243). -/
  compressed : Bool := false
  cls : Nat := 1
  deriving DecidableEq, Repr

/-- A gate edge that waits for its phase cycle (R424): asserting or not, and the position or time it waits for. -/
structure GateEvent where
  opens : Bool
  /-- A position in 1/65,536 counts on a position-triggered stream, a DT in ns on a timer stream. -/
  at_ : Int
  deriving DecidableEq, Repr

/-- One stream's ring, page record area and edge area. -/
structure Ring where
  allocated : Bool := false
  base : Nat := 0
  recordBase : Nat := 0
  edgeBase : Nat := 0
  slots : Table RingSlot := []
  /-- N_w (WriteLine): one above the highest line written. -/
  writeLine : Nat := 0
  marks : List Mark := []
  /-- Weirs 0 to 3 asserted, one bit each (R418). -/
  weirs : Nat := 0
  guardOn : Bool := false
  /-- The open page. -/
  page : Option PageRec := none
  nextPage : Nat := 0
  /-- Page record slots. -/
  records : Table (Option PageRec) := []
  /-- Lines finished by the Tag Confluence and not yet taken in line order by the page logic. -/
  finished : List LineSum := []
  pageNext : Nat := 0
  /-- Lines taken since the end of the previous page, newest first. -/
  sums : List LineSum := []
  /-- Last line of the previous page, as one above it. -/
  pageFloor : Nat := 0
  gates : List GateEvent := []
  gatePins : List Nat := []
  /-- Phase cycle after which the open page closes, and the cycle its trailing margin may not give way below (R426). -/
  closeAfter : Option Nat := none
  coreEnd : Nat := 0
  /-- Edge detector: consecutive object and background edge-phase lines, the first line of the object run, the last object
  line, whether an L awaits its T, and every L and T since the end of the previous page, in rising order (R433). -/
  objRun : Nat := 0
  backRun : Nat := 0
  runFirst : Nat := 0
  lastObject : Nat := 0
  inObject : Bool := false
  leads : List Nat := []
  trails : List Nat := []
  /-- B in 18.8 fixed point (R434). -/
  background : Option Nat := none
  /-- The bound θ is held at: true the upper one (R434). -/
  threshBound : Option Bool := none
  /-- Edge entries by entry number, 64 bits each (R435). -/
  entries : Table Nat := []
  tableGen : Nat := 0
  deriving DecidableEq, Repr

/-! ### Delta and the host port (chapter 11) -/

/-- Channel states of R460, in code order. -/
inductive ChState where
  | off | idle | running | waitingStart | stoppedAtEnd | disabling | error | waitingCq
  deriving DecidableEq, Repr

/-- Where a running channel stands: it reads the NEXT field of the descriptor before (R467), fetches a descriptor, moves
data, waits for its flush read (R486), or has a descriptor that is to complete. -/
inductive ChPhase where
  | none | reread | fetch | data | flush | complete
  deriving DecidableEq, Repr

/-- A fetch request in effect (R439 to R441), its ranges resolved. -/
structure FetchJob where
  stream : Nat
  kind : Nat
  first : Nat
  count : Nat
  firstPixel : Nat
  pixelCount : Nat
  withTags : Bool
  protect : Bool
  release : Nat
  page : Nat
  /-- StoredWidth of the first line fetched. -/
  width : Option Nat := none
  /-- Lines missing so far. -/
  missing : Nat := 0
  /-- Since when an unwritten line has been waited for. -/
  waitSince : Option Nat := none
  /-- The ring went at an entry to Configure (R413). -/
  gone : Bool := false
  deriving DecidableEq, Repr

/-- One Delta channel (R458 to R467). Addresses carry SPACE in bit 1 as DLT_CH_NEXT does. -/
structure DltChan where
  state : ChState := .off
  phase : ChPhase := .none
  /-- CLASS, PACED, START_SRC, CHAIN_CH as written; EN is a state other than OFF and DISABLING. -/
  cls : Nat := 1
  paced : Bool := false
  startSrc : Nat := 0
  chainCh : Nat := 0
  next : Nat := 0
  cur : Nat := 0
  /-- DLT_CH_VEC as written; none reads the channel's number. -/
  vec : Option Nat := none
  credit : Nat := 0
  period : Nat := 0
  firstDt : Nat := 0
  /-- k of the next timer event (R465). -/
  tick : Nat := 0
  done : Nat := 0
  bad : Nat := 0
  preempt : Nat := 0
  err : Bool := false
  starved : Bool := false
  /-- The starvation in progress has been reported (R463). -/
  starveTold : Bool := false
  error : Nat := 0
  /-- EN was written 1 during DISABLING (R461). -/
  enAgain : Bool := false
  /-- A start event in STOPPED_AT_END has released the descriptor to follow (R464). -/
  follow : Bool := false
  /-- The address to fetch next. -/
  want : Nat := 0
  /-- The descriptor in progress, and one held on chip with its address (R467). -/
  desc : Option Nat := none
  prefetched : Option (Nat × Nat) := none
  /-- Lines, or bytes for D1, read; or lines delivered. -/
  pos : Nat := 0
  fetch : Option FetchJob := none
  /-- STREAM: the first and the last line delivered. -/
  firstLine : Option Nat := none
  lastLine : Option Nat := none
  /-- STREAM: the open page was withdrawn while this descriptor was in progress (R358, R480). -/
  withdrawn : Bool := false
  /-- The run being formed (R482): where it starts and its bytes. -/
  runAt : Nat := 0
  run : Bytes := []
  /-- Where the last data byte was written. -/
  lastByte : Option Nat := none
  /-- Error code of the descriptor that is to complete, and its COUNT. -/
  code : Nat := 0
  count : Nat := 0
  /-- What waits for the link, first in first out (R484). -/
  tx : List Tx := []
  deriving DecidableEq, Repr

/-- One MSI-X vector (R457): its table entry, masked after reset as the PCIe specification has it, and its pending bit. -/
structure MsixEntry where
  addr : Nat := 0
  data : Nat := 0
  masked : Bool := true
  pending : Bool := false
  deriving DecidableEq, Repr

/-- The completion queue (R488 to R491). -/
structure CplQueue where
  base : Nat := 0
  en : Bool := false
  log : Nat := 0
  head : Nat := 0
  tail : Nat := 0
  phase : Bool := true
  /-- Completions held for lack of space: channel and record. -/
  held : List (Nat × Nat) := []
  /-- When vector 2,046 was last sent, and whether it is owed (R490). -/
  sentAt : Option Nat := none
  owed : Bool := false
  deriving DecidableEq, Repr

/-- The KDP mailbox (R579, R580). -/
structure Mailbox where
  en : Bool := false
  txHead : Nat := 0
  txTail : Nat := 0
  rxHead : Nat := 0
  rxTail : Nat := 0
  malformed : Nat := 0
  txRing : Memory := []
  rxRing : Memory := []
  /-- Packets that wait for room in the RX ring, oldest first. -/
  held : List Bytes := []
  /-- When vectors 2,044 and 2,045 were last sent, and whether they are owed. -/
  rxSent : Option Nat := none
  txSent : Option Nat := none
  rxOwed : Bool := false
  txOwed : Bool := false
  deriving DecidableEq, Repr

/-- The host port. -/
structure HostPort where
  chans : Table DltChan := []
  /-- Descriptor memory, BAR2 (R451). -/
  mem : Memory := []
  cq : CplQueue := {}
  msix : Table MsixEntry := []
  mbx : Mailbox := {}
  /-- The channel of classes 1 to 3 that moved data last and may be pre-empted (R485). -/
  serving : Option Nat := none
  /-- PE_PERST_N as seen, and Max_Payload_Size in bytes. -/
  perst : Bool := false
  mps : Nat := 128
  /-- Max_Read_Request_Size in bytes (R449). -/
  mrrs : Nat := 512
  /-- The instant, 1/4 ns, at which the link has carried what was issued last (R485). -/
  linkFree : Nat := 0
  /-- The shares of classes 1 to 3 (R484): link time started last, and each class's link time; the channel of each class served
  last. -/
  linkTime : Nat := 0
  /-- What waits for the link and is of no channel (R53): messages and completions of class 3, and host reads through BAR4, class 2. -/
  mgmt : List Tx := []
  bar4 : List Tx := []
  shares : Table Nat := []
  turns : Table Nat := []
  deriving DecidableEq, Repr


/-! ### The sensor front end (chapter 12) -/

/-- Converter states of R540, in code order. -/
inductive ConvState where
  | off | idle | converting | calibrating | testing | failed
  deriving DecidableEq, Repr

/-- A regular run: its first sample instant (1/4 ns), LATE on all of it, the conversions restarted under R517, and what they
delayed: index of a conversion and the delay from it on. -/
structure FeRun where
  at_ : Nat
  late : Bool := false
  restarted : List Nat := []
  shifts : List (Nat × Nat) := []
  /-- The first conversion not completed when the run was set aside. -/
  paused : Option Nat := none
  deriving DecidableEq, Repr

/-- An injected conversion in progress: channel, sample instant, LATE. -/
structure FeInj where
  chan : Nat
  at_ : Nat
  late : Bool
  deriving DecidableEq, Repr

/-- One SAR converter. -/
structure Converter where
  state : ConvState := .off
  run : Option FeRun := none
  /-- A trigger is held (R516). -/
  held : Bool := false
  inj : Option FeInj := none
  /-- Injected channels pending, in ascending number. -/
  injWait : List Nat := []
  /-- A calibration is requested, is in progress since an instant, and has succeeded since the island's power-on. -/
  calDue : Bool := false
  calAt : Nat := 0
  ready : Bool := false
  /-- Instant of the last calibration (FeCalPeriod), and multiple of TrigPeriod last triggered. -/
  lastCal : Nat := 0
  lastTick : Nat := 0
  /-- Stamp of the asserting edge a pulse trigger waits on, ns. -/
  pulse : Option Nat := none
  /-- When FE_TRIGGER_MISSED was last raised. -/
  told : Option Nat := none
  /-- The channel under test and the test's start (R536). -/
  test : Option (Nat × Nat) := none
  deriving DecidableEq, Repr

/-- The state of one decimating filter: K integrators and the delays of K combs. -/
structure Cic where
  ints : List Int := []
  combs : List Int := []
  deriving DecidableEq, Repr

/-- One channel. -/
structure FeChan where
  /-- Gain code chosen by autoranging; none: ChGain, or the nearest bound. -/
  gain : Option Nat := none
  /-- Codes in a row below 3/16 of full scale (R520). -/
  lowRun : Nat := 0
  /-- Direction in which autoranging holds at a bound (R522): 0 down, 1 up. -/
  clamped : Option Nat := none
  /-- The gain has changed and no code at the new one has been taken; one has, and no output has contained it (R521). -/
  newGain : Bool := false
  step : Bool := false
  main : Cic := {}
  quad : Cic := {}
  /-- Samples since the filter was cleared. -/
  count : Nat := 0
  /-- The first conversion is to be discarded (R524). -/
  discard : Bool := false
  /-- Latest sample with a code at a limit, a clamping pin, a late sample. -/
  clipAt : Option Nat := none
  clampAt : Option Nat := none
  lateAt : Option Nat := none
  settle : Nat := 0
  seq : Nat := 0
  armed0 : Bool := false
  armed1 : Bool := false
  testPass : Bool := false
  deriving DecidableEq, Repr

/-- One excitation generator: what it runs with now (R508). -/
structure FeGen where
  ftw : Nat := 536871
  amplitude : Nat := 0
  offset : Nat := 2500
  deriving DecidableEq, Repr

/-- One island. -/
structure FeIsland where
  powered : Bool := false
  /-- Items waiting, each one or two records, oldest first (R534). -/
  queue : List (List Nat) := []
  tail : Nat := 0
  /-- Records have been dropped since the last one written. -/
  gap : Bool := false
  /-- When FE_QUEUE_DROP was last raised. -/
  told : Option Nat := none
  deriving DecidableEq, Repr

/-- The front end. -/
structure FrontEnd where
  islands : Table FeIsland := []
  convs : Table Converter := []
  chans : Table FeChan := []
  gens : Table FeGen := []
  /-- When FE_CLAMP was last raised, by pin, one above the instant. -/
  clampTold : Table Nat := []
  deriving DecidableEq, Repr


/-! ### The dictionary protocol (chapter 13) -/

/-- A session (R574 to R578). -/
structure Session where
  num : Nat
  mailbox : Bool
  src : Nat
  /-- Role code of R12, 1 to 4. -/
  role : Nat
  /-- The proof has been accepted. -/
  opened : Bool := false
  hostNonce : Bytes := []
  devNonce : Bytes := []
  /-- Session key and salt (R575). -/
  key : Bytes := []
  /-- Last SESSION_CTR accepted, and last sent. -/
  rxCtr : Nat := 0
  txCtr : Nat := 0
  /-- Instant of its last packet. -/
  used : Nat := 0
  deriving DecidableEq, Repr

/-- A staged member: its value, or a transfer that is still incomplete, or one that was discarded (R276, R568). -/
inductive Staged where
  | value (v : Val)
  | incomplete
  | failed
  deriving DecidableEq, Repr

/-- A group of staged writes of one owner: a session, or a source address without one (R560, R561). -/
structure StagedGroup where
  owner : Nat
  group : Nat
  /-- Object key and value, in the order first staged. -/
  members : List (Nat × Staged)
  deriving DecidableEq, Repr

/-- A segmented transfer (R565 to R569). -/
structure Transfer where
  num : Nat
  key : Nat
  owner : Nat
  group : Nat
  /-- From the Penori. -/
  out : Bool
  total : Nat
  /-- The snapshot of a transfer from the Penori. -/
  data : Bytes := []
  /-- Segments received, or answered. -/
  segs : Table Bytes := []
  acked : List Nat := []
  /-- Instant of its last packet. -/
  used : Nat
  deriving DecidableEq, Repr

/-- A kept response (R559): owner, SEQ, opcode, error code and payload. -/
structure Kept where
  owner : Nat
  seq : Nat
  op : Nat
  error : Nat
  session : Nat
  payload : Bytes
  deriving DecidableEq, Repr

/-- One event route (R570 to R573). -/
structure EventRoute where
  /-- Subscribing address and session. -/
  subscriber : Option (Nat × Nat) := none
  least : Nat := 0
  nextSeq : Nat := 0
  /-- Events not acknowledged, oldest first: EVENT_SEQ and payload. -/
  queue : List (Nat × Bytes) := []
  /-- Dropped since the previous EVENT. -/
  lost : Nat := 0
  /-- Instant of the last send. -/
  sent : Nat := 0
  deriving DecidableEq, Repr

/-- PTP (R581 to R583). -/
structure Ptp where
  locked : Bool := false
  /-- Consecutive Sync messages with a small offset. -/
  good : Nat := 0
  /-- DT has been stepped since the entry to Configure. -/
  stepped : Bool := false
  lastSync : Nat := 0
  /-- Offset still to be slewed away, 1/4 ns, and what DtMaxSlew has let through of the next quarter, in 10^-9. -/
  slew : Int := 0
  acc : Nat := 0
  /-- Everything DT has been stepped and slewed by, 1/4 ns. -/
  shift : Int := 0
  /-- Port state in the codes of IEEE 1588: 6 master, 9 slave; 0 while it follows from PtpRole alone. -/
  port : Nat := 0
  /-- Last t2 - t1, and the stamp of the Delay_Req not yet answered, ns. -/
  ms : Int := 0
  t3 : Option Nat := none
  /-- When a Sync was last sent as master. -/
  sentAt : Option Nat := none
  deriving DecidableEq, Repr

/-- Addressing on the segment (R546 to R549). -/
structure Addressing where
  enumIn : Bool := false
  enumOut : Bool := false
  /-- ENUM_OUT is to assert at this instant. -/
  enumOutAt : Option Nat := none
  /-- The segment has been heard since the link last failed. -/
  beacon : Bool := false
  /-- An ASSIGN_ADDRESS in its 2 ms wait: the address, the instant it is taken, its SEQ, its source, and whether it came
  through the mailbox. -/
  assign : Option (Nat × Nat × Nat × Nat × Bool) := none
  deriving DecidableEq, Repr

/-- The state of the dictionary services as the last checkpoint kept it (R649). -/
structure Checkpoint where
  staged : List StagedGroup := []
  transfers : List Transfer := []
  nextTransfer : Nat := 1
  kept : List Kept := []
  net : EventRoute := {}
  mail : EventRoute := {}
  deriving DecidableEq, Repr

/-- KDP, events and PTP. -/
structure Kdps where
  sessions : List Session := []
  nextSession : Nat := 1
  staged : List StagedGroup := []
  transfers : List Transfer := []
  nextTransfer : Nat := 1
  kept : List Kept := []
  net : EventRoute := {}
  mail : EventRoute := {}
  /-- Instants of failed proofs by source, newest first, and until when a source is locked out (R577). -/
  failures : List (Nat × Nat) := []
  lockouts : List (Nat × Nat) := []
  ptp : Ptp := {}
  addr : Addressing := {}
  saved : Checkpoint := {}
  /-- Requests that wait in the request queue during a takeover, oldest first: opcode and packet (R558, R650). -/
  waiting : List (Nat × Kdp) := []
  deriving DecidableEq, Repr


/-! ### Modes (chapter 15) -/

/-- The modes of R603, in code order. -/
inductive Mode where
  | off | sentinel | boot | configure | calibrate | idleReady | scan | stream | hold | maintenance | degraded | safeHalt
  deriving DecidableEq, Repr

/-- A droop as AvsDroopLog keeps it (R629): instant in ns, set point before and after in 0.5 mV, AvsCeiling in mV. -/
structure Droop where
  dt : Nat
  before : Nat
  after : Nat
  ceiling : Nat
  deriving DecidableEq, Repr

/-- Modes and power (R603 to R635). -/
structure Power where
  /-- The mode Hold was entered from, and the mode Degraded was entered from. -/
  heldFrom : Mode := .scan
  leftFor : Mode := .idleReady
  /-- A Degraded decision that waits for a transition (R608). -/
  degradeDue : Option FaultReport := none
  /-- Safe Halt has been decided: outputs stay inactive until the next reset (R616). -/
  halted : Bool := false
  /-- Instant of that decision, until MOTOR_ENABLE_OUT is released. -/
  haltAt : Option Nat := none
  /-- Consecutive evaluations with slack over AvsTarget + 2 (R627). -/
  avsHigh : Nat := 0
  /-- Instant of the last droop detection while the set point falls back from it (R629). -/
  droopAt : Option Nat := none
  /-- The latest 16 droops, oldest first. -/
  droops : List Droop := []
  /-- TJ_HOT stands at or above TjWarnLimit. -/
  warned : Bool := false
  /-- TJ_HOT as last measured, 0.1 °C. -/
  tjHot : Int := 0
  /-- When a slice cluster last completed a segment, by cluster (R613). -/
  clusterUsed : Table Nat := []
  deriving DecidableEq, Repr

/-! ### Faults, spares and wear (chapter 16) -/

/-- A repair record of R663. -/
structure Repair where
  /-- Instant of the decision in ns. -/
  dt : Nat
  rkind : Nat
  /-- 0 emergency, 1 planned, 2 restored at boot. -/
  origin : Nat
  active : Bool
  unit : Nat
  detail : Nat
  fault : Nat
  seq : Nat
  /-- Cleared through RepairClear: inactive from the next reset (R668). -/
  clearNext : Bool := false
  /-- Written to the repair area of boot flash; a record that never is lasts until the next reset (R665). -/
  stored : Bool := false
  /-- Found no room in the area: kept until the next reset only (R665). -/
  unkept : Bool := false
  deriving DecidableEq, Repr

/-- A planned insertion decided and not started (R656): kind of its wear report, unit, and instant of the decision. -/
structure Planned where
  kind : Nat
  unit : Nat
  since : Nat
  deriving DecidableEq, Repr

/-- The switch of one power domain (R654). -/
structure DomainSwitch where
  /-- Spare segments left. -/
  spares : Nat := 2
  /-- Segments opened. -/
  opened : List Nat := []
  /-- Consecutive deviating checks by segment. -/
  runs : Table Nat := []
  deriving DecidableEq, Repr

/-- Spares, repairs and wear, and what the arbiter remembers. -/
structure Dependability where
  /-- Soft repair records, oldest first (R665), and the records in fuses (HardRepairMap). -/
  repairs : List Repair := []
  /-- Reservoir channels out of use with no spare taken, by 16 × stack + channel: SPARE was clear when they failed (R644). -/
  channelsOut : List Nat := []
  hard : List Repair := []
  repairSeq : Nat := 0
  /-- The repair area fails its CRC-32C (R666). -/
  areaBad : Bool := false
  /-- Reports that caused or sustain Degraded (R643, R645). -/
  sustain : List FaultReport := []
  /-- The latest 256 reports, oldest first (FaultLog). -/
  log : List FaultReport := []
  /-- Highest severity reported since FaultCounts was read (R598). -/
  worst : Option Nat := none
  /-- Spare rows used by coefficient entry bank (R225). -/
  rowsUsed : Table Nat := []
  /-- Units of each spare pool found exhausted, by subindex less 16 (R651). -/
  exhausted : List Nat := []
  switches : Table DomainSwitch := []
  planned : List Planned := []
  /-- Units at or beyond their threshold: kind of the indicator and unit (R660). -/
  crossed : List (Nat × Nat) := []
  /-- Drift by domain and corrected units by channel as last measured (R660). -/
  aged : Table Nat := []
  dramErrors : Table Nat := []
  /-- WEAR_LAMP: by band, sum and number of the measure over the running hour, its last hourly mean, and the reference
  taken at the last completed DERIVE (R660). -/
  lampAcc : Table (Nat × Nat) := []
  lampMean : Table Nat := []
  lampRef : Table Nat := []
  /-- When streaming lines first came, so that 1 h of them exists. -/
  hourSince : Nat := 0
  /-- The timing island: the copy being resynchronised, the retired copy, and resynchronisations of the last hour. -/
  resync : Option Nat := none
  retiredCopy : Option Nat := none
  resyncs : List (Nat × Nat) := []
  /-- Management cores out of use, of 0, 1 and the spare 2: none, one (the others are the pair), two (one core alone), all (R649). -/
  coresOut : List Nat := []
  /-- Instant of the last checkpoint and of a lockstep mismatch being taken over (R649). -/
  checkpoint : Nat := 0
  mismatchAt : Option Nat := none
  deriving DecidableEq, Repr

/-! ### Security (chapter 17) -/

/-- An audit record (R702): SEQ, bytes 0 to 47, and CHAIN. -/
structure AuditRec where
  seq : Nat
  body : Bytes
  chain : Bytes
  deriving DecidableEq, Repr

/-- The page a stream's seal hash engine works on: its number, the next line to read back, and the line hashes so far. -/
structure SealPage where
  number : Nat
  next : Nat
  hashes : Bytes := []
  deriving DecidableEq, Repr

/-- A page whose digest is made and whose entry awaits signing (R697). -/
structure SealEntry where
  stream : Nat
  page : Nat
  digest : Bytes
  bytes : Bytes
  deriving DecidableEq, Repr

/-- A verified Peony slot (R680, R681). -/
structure PeonySlot where
  valid : Bool := false
  version : Nat := 0
  svn : Nat := 0
  /-- VIRGEANT_KEY_ID and OWNER_KEY_ID. -/
  key : Nat := 0
  owner : Nat := 0
  deriving DecidableEq, Repr

/-- The security island, its logs, the seals, the debug port and the sandbox. Limited-change values, TamperState and the other
numbers stand in the dictionary. -/
structure Security where
  /-- Generation of the attestation key pair present, and the generation the next one gets (R677). -/
  attest : Option Nat := none
  nextGeneration : Nat := 0
  /-- Withheld until the next reset (R709, debug port opened). -/
  withheld : Bool := false
  /-- The identity key pair, the Vendor Service key and the factory Security Officer key are present (R677). -/
  identity : Bool := true
  vendor : Bool := true
  factory : Bool := true
  /-- Role keys written, by role code less 1. -/
  roleKeys : Table Bytes := []
  ownerBlock : Bytes := []
  transferProof : Bytes := []
  /-- Uses consumed, by index of the limited-change range less 0xE000 (R600, R686). -/
  lwUsed : Table Nat := []
  /-- Uses whose value fuses a power loss left without a valid fuse, found at the next boot (R687): index less 0xE000. -/
  torn : List Nat := []
  slots : Table PeonySlot := []
  /-- Slot marked active for the next boot, and the slot running. -/
  active : Nat := 0
  running : Nat := 0
  /-- Outputs drawn from the random generator. -/
  draws : Nat := 0
  /-- The audit log, oldest first; SEQ of the next record; the lowest SEQ not acknowledged; overwrites (R702, R705). -/
  audit : List AuditRec := []
  auditNext : Nat := 0
  auditFloor : Nat := 0
  overwrites : Nat := 0
  lastChain : Bytes := []
  /-- Seals (R694 to R700): pages being hashed by stream; the open block's entries and its first entry's instant; closed blocks
  that wait for their signature; the latest 1,024 blocks, newest first; SEAL_INDEX of the next block; the hash of the last. -/
  hashing : Table (Option SealPage) := []
  openBlock : List SealEntry := []
  openSince : Nat := 0
  closedBlocks : List (List SealEntry) := []
  blocks : List (Nat × Bytes) := []
  sealIndex : Nat := 0
  prevHash : Bytes := []
  /-- Instant of the last SEAL_FAILED (R711). -/
  failedAt : Option Nat := none
  /-- Tamper inputs asserted as last sampled (R708). -/
  tamperIn : Nat := 0
  /-- Alarm pins that an AlarmConfig commit has driven, and those asserted (R711, R731). -/
  alarmDriven : List Nat := []
  alarmOn : List Nat := []
  /-- A condition of R691 fails with the lock written, and APPROVED_CONDITION has told it. -/
  conditionTold : Bool := false
  /-- Zeroisations whose erase runs, by trigger: 0 Zeroise, 1 tamper, 2 debug port, 3 owner transfer (R709). -/
  zeroising : List Nat := []
  /-- The debug port is OPEN (R712). -/
  debugOpen : Bool := false
  sandboxImage : Bytes := []
  deriving DecidableEq, Repr

/-! ### Start-up (chapter 18) -/

/-- Start-up (R717 to R734). ResetCause, ResetCount, BootStage, BootAttempts and the other reported values stand in the
dictionary. -/
structure Startup where
  /-- Both standby rails are within range. -/
  standby : Bool := true
  /-- The board power record passes R730. -/
  record : Bool := true
  /-- When both copies last failed it (R733). -/
  recordBad : Option Nat := none
  /-- Time from t0 to the zero of DT, 1/4 ns (R722). -/
  before : Nat := 0
  /-- A reset, or the start-up sequence, is in progress (R720). -/
  starting : Bool := true
  /-- The rail to regulate next; 8 once rails 0 to 6 regulate. -/
  rail : Nat := 0
  /-- The power-up tests have passed in this boot, and the slots Primrose has still to try, first to be tried first. -/
  tested : Bool := false
  toTry : List Nat := []
  /-- A slot runs, or recovery does (R734). -/
  peony : Bool := false
  recovery : Bool := false
  /-- Idle-Ready has been reached since the boot (R732). -/
  reached : Bool := false
  /-- PE_WAKE_N asserted (R726). -/
  wake : Bool := false
  deriving DecidableEq, Repr

/-! ### The whole state -/

/-- The block. A field that is a table lists only what differs from the unit's initial record. -/
structure State where
  /-- Commands waiting, first in first out. -/
  pending : List Instr := []
  /-- The model's own: how many open values have been met (log entry 6). -/
  freeCount : Nat := 0
  /-- The model's own: everything sent, newest first (log entry 3). -/
  out : List Output := []
  /-- The model's own: every event raised, newest first (log entry 3). -/
  raised : List EventRec := []
  /-- Device time since Boot entry in 1/4 ns (R48, R768). -/
  now : Nat := 0
  /-- DT[63:2] as the timing island distributes it, Gray-coded (R49). -/
  grayDt : Nat := 0
  /-- The dictionary's values, keyed by `Obj.key`; an unlisted entry holds its default. -/
  dict : Table Int := []
  /-- Open trigger records (R16), oldest first. -/
  records : List LineRec := []
  /-- Stray lines counted: kind of source, source, sequence number, newest first, at most 64 (R18). -/
  strays : List (Nat × Nat × Nat) := []
  /-- Class 0 ingest of the last 1 ms: instant and bits (Class0Load, R59). -/
  class0In : List (Nat × Nat) := []
  /-- Accepted commit groups waiting (R31), in order of acceptance. -/
  groupsWaiting : List CommitGroup := []
  /-- COMMIT_ID of the next accepted group before its reduction modulo 2^16 (R562); the first is 1. -/
  commitNext : Nat := 1
  /-- Fault reports the arbiter has not taken (R34), in order of arrival. -/
  reports : List FaultReport := []
  queues : Table Queue := []
  lanes : Table Lane := []
  groups : Table Group := []
  /-- Segments unpacked from packets or readouts, not yet at the crossbar, oldest first. -/
  ingest : List Segment := []
  ports : Table Port := []
  /-- Bank states, banks 0 to 3 (R195). -/
  banks : Table BankState := []
  slices : Table Slice := []
  /-- The crossbar buffer (R217), in order of arrival. -/
  crossbar : List Segment := []
  coefRows : Table CoefRow := []
  streams : Table Stream := []
  /-- Linearisation curves by slot; a slot never committed is not listed (R234). -/
  curves : Table (List Nat) := []
  calibs : Table Calib := []
  warmup : Warmup := {}
  posChans : Table PosChan := []
  compares : Table Compare := []
  gens : Table Gen := []
  tios : Table Tio := []
  motions : Table Motion := []
  transports : Table Transport := []
  seamsOf : Table Seam := []
  lamps : Lamps := {}
  rings : Table Ring := []
  host : HostPort := {}
  fe : FrontEnd := {}
  kdps : Kdps := {}
  /-- The mode in force (R603): Sentinel right after a power-on reset, on the way to Boot (R604). -/
  mode : Mode := .sentinel
  /-- The mode a transition in progress leads to (R607). -/
  target : Option Mode := some .boot
  power : Power := {}
  dep : Dependability := {}
  sec : Security := {}
  boot : Startup := {}
  /-- When each loop of the block with a period of its own last ran, plus one, by loop and unit; 0 where it has not (R157, R277, R323,
  R340, R400, R627, R652, R654). -/
  loops : Table Nat := []
  deriving DecidableEq, Repr

/-- The block right after reset: a power-on reset of both standby rails (R601, R717), every entry at its default, no
command waiting, memory with nothing listed. -/
def State.reset : State := {}

end Sys2Proof.Machine
end

