-- ==== Sys2Proof/Machine/Ops.lean ====
section
/-! DEFINITION. The named operations over the state that every family of commands shares: the register file, the banks of
units, events and fault reports, and which lane, group, port and stream belong to one another. -/
namespace Sys2Proof.Machine

/-- What a command answers. -/
abbrev Result := Host.Outcome State Fault Refusal
/-- The state a command's meaning answers. -/
def stateOf (s : State) : Result → State
  | .next t => t
  | _ => s

/-! ### Fault kinds (R640) -/
namespace Kind
/-- LANE_LOCK_LOSS. -/
def laneLockLoss : Nat := 0x01
/-- ALIGN_LOSS. -/
def alignLoss : Nat := 0x02
/-- LANE_EYE_FAIL. -/
def laneEyeFail : Nat := 0x03
/-- LANE_TRAIN_FAIL. -/
def laneTrainFail : Nat := 0x04
/-- LANE_REPLAY_FAIL. -/
def laneReplayFail : Nat := 0x05
/-- OXBOW_NO_SPARE. -/
def oxbowNoSpare : Nat := 0x06
/-- TIME_UNLOCK. -/
def timeUnlock : Nat := 0x07
/-- CTL_TIMEOUT. -/
def ctlTimeout : Nat := 0x08
/-- ST_EXP_FAULT. -/
def stExpFault : Nat := 0x10
/-- ST_TOKEN_LATE. -/
def stTokenLate : Nat := 0x11
/-- VADC_CAL_FAIL. -/
def vadcCalFail : Nat := 0x12
/-- SLICE_RESIDUE. -/
def sliceResidue : Nat := 0x18
/-- COEF_UNCORRECTABLE. -/
def coefUncorrectable : Nat := 0x19
/-- PIPELINE_OVERRUN. -/
def pipelineOverrun : Nat := 0x1A
/-- QUEUE_POINTER. -/
def queuePointer : Nat := 0x1B
/-- DOMAIN_FAULT. -/
def domainFault : Nat := 0x1C
/-- SWITCH_SEGMENT. -/
def switchSegment : Nat := 0x1D
/-- RESERVOIR_CHANNEL. -/
def reservoirChannel : Nat := 0x20
/-- RESERVOIR_LOST. -/
def reservoirLost : Nat := 0x21
/-- RESERVOIR_GUARD. -/
def reservoirGuard : Nat := 0x22
/-- TMR_DISAGREE. -/
def tmrDisagree : Nat := 0x28
/-- LOCKSTEP_MISMATCH. -/
def lockstepMismatch : Nat := 0x29
/-- SPARE_TEST_FAIL. -/
def spareTestFail : Nat := 0x2A
/-- POS_WIRE_FAULT. -/
def posWireFault : Nat := 0x30
/-- INDEX_MISMATCH. -/
def indexMismatch : Nat := 0x31
/-- POS_OVERSPEED. -/
def posOverspeed : Nat := 0x32
/-- MOTION_FOLLOW_ERROR. -/
def motionFollowError : Nat := 0x33
/-- SEAM_ABORTED. -/
def seamAborted : Nat := 0x34
/-- LAMP_OPEN. -/
def lampOpen : Nat := 0x38
/-- LAMP_SHORT. -/
def lampShort : Nat := 0x39
/-- LAMP_NEIGHBOUR_SHORT. -/
def lampNeighbourShort : Nat := 0x3A
/-- LAMP_UNVERIFIED. -/
def lampUnverified : Nat := 0x3B
/-- LAMP_LIFT. -/
def lampLift : Nat := 0x3C
/-- SYNC_FAULT. -/
def syncFault : Nat := 0x3D
/-- LAMP_WARMUP_TIMEOUT. -/
def lampWarmupTimeout : Nat := 0x3E
/-- FE_CAL_FAIL. -/
def feCalFail : Nat := 0x40
/-- FE_PATH_FAIL. -/
def fePathFail : Nat := 0x41
/-- FE_GEN_OVERCURRENT. -/
def feGenOvercurrent : Nat := 0x42
/-- DLT_CHANNEL_ERROR. -/
def dltChannelError : Nat := 0x48
/-- HOST_LINK_DEGRADED. -/
def hostLinkDegraded : Nat := 0x49
/-- HOST_LINK_DOWN. -/
def hostLinkDown : Nat := 0x4A
/-- RAIL_FAULT. -/
def railFault : Nat := 0x50
/-- AVS_DROOP. -/
def avsDroop : Nat := 0x51
/-- AVS_MARGIN. -/
def avsMargin : Nat := 0x52
/-- THERMAL_WARN. -/
def thermalWarn : Nat := 0x53
/-- THERMAL_SHUTDOWN. -/
def thermalShutdown : Nat := 0x54
/-- PTP_UNLOCK. -/
def ptpUnlock : Nat := 0x58
/-- FN_LINK_FAULT. -/
def fnLinkFault : Nat := 0x59
/-- KDP_AUTH_LOCKOUT. -/
def kdpAuthLockout : Nat := 0x5A
/-- TAMPER. -/
def tamper : Nat := 0x68
/-- WEAR_LANE. -/
def wearLane : Nat := 0x60
/-- WEAR_SLICE. -/
def wearSlice : Nat := 0x61
/-- WEAR_AGEING. -/
def wearAgeing : Nat := 0x62
/-- WEAR_LAMP. -/
def wearLamp : Nat := 0x63
/-- WEAR_DRAM. -/
def wearDram : Nat := 0x64
end Kind

/-! ### Time -/

/-- Quarter-nanoseconds of a number of ns. -/
def ns (n : Nat) : Nat := 4 * n
/-- Quarter-nanoseconds of a number of µs. -/
def us (n : Nat) : Nat := 4000 * n
/-- Quarter-nanoseconds of a number of ms. -/
def ms (n : Nat) : Nat := 4000000 * n

/-! ### The register file -/

/-- The value a dictionary entry holds. -/
def State.reg (s : State) (o : Obj) : Int := Table.get o.dflt s.dict o.key
/-- The value of an unsigned entry. -/
def State.nat (s : State) (o : Obj) : Nat := (s.reg o).toNat
/-- An entry that is not zero. -/
def State.flag (s : State) (o : Obj) : Bool := s.reg o != 0
/-- An entry written. -/
def State.setReg (s : State) (o : Obj) (v : Int) : State := { s with dict := Table.set o.dflt s.dict o.key v }
/-- A U32 counter that saturates, raised by `n`. -/
def State.count (s : State) (o : Obj) (n : Nat := 1) : State := s.setReg o (satInc (s.nat o) n)
/-- A U32 counter that wraps, raised by `n`. -/
def State.countWrap (s : State) (o : Obj) (n : Nat := 1) : State := s.setReg o (((s.nat o) + n) % 2 ^ 32 : Nat)
/-- An entry as a line found it when it was scheduled (R28). -/
def LineRec.reg (r : LineRec) (o : Obj) : Int := Table.get o.dflt r.regs o.key
/-- An unsigned entry as a line found it. -/
def LineRec.nat (r : LineRec) (o : Obj) : Nat := (r.reg o).toNat

/-! ### Open values, outputs, events, fault reports -/

/-- An open value below `n`, and the state that has met it (log entry 6). -/
def State.free (s : State) (n : Nat) : Nat × State :=
  (Config.freeNat s.freeCount % n, { s with freeCount := s.freeCount + 1 })
/-- Something sent. -/
def State.emit (s : State) (o : Output) : State := { s with out := o :: s.out }
/-- Several things sent, in order. -/
def State.emits (s : State) (os : List Output) : State := os.foldl State.emit s
/-- Device time in ns (R48). -/
def State.dt (s : State) : Nat := s.now / 4

/-! ### What waits for the host link (R53, R484) -/

def State.chan (s : State) (n : Nat) : DltChan := Table.get {} s.host.chans n
def State.setChan (s : State) (n : Nat) (x : DltChan) : State :=
  { s with host := { s.host with chans := Table.set {} s.host.chans n x } }
def State.updChan (s : State) (n : Nat) (f : DltChan → DltChan) : State := s.setChan n (f (s.chan n))
/-- The stream bound to a channel (R462). -/
def State.boundStream (s : State) (n : Nat) : Option Nat := (List.range 64).find? fun st => s.nat (Obj.streamChannel st) == n
/-- Where messages of no channel wait: management traffic, class 3, and host reads through BAR4, class 2 (R53). -/
def mgmtChan : Nat := 256
def bar4Chan : Nat := 257
/-- CLASS of a channel: of a bound one, the stream's (R459, R462). -/
def State.chanClass (s : State) (n : Nat) : Nat :=
  match s.boundStream n with
  | some st => s.nat (Obj.streamClass st)
  | none => (s.chan n).cls
/-- Traffic class of what a channel sends (R53): class 2 in a retrospective fetch. -/
def State.txClass (s : State) (n : Nat) : Nat :=
  if n = mgmtChan then 3 else if n = bar4Chan then 2 else if (s.chan n).fetch.isSome then 2 else s.chanClass n
/-- What waits for the link: of a channel, or of none. -/
def State.txOf (s : State) (n : Nat) : List Tx :=
  if n = mgmtChan then s.host.mgmt else if n = bar4Chan then s.host.bar4 else (s.chan n).tx
/-- What waits for the link replaced. -/
def State.setTx (s : State) (n : Nat) (l : List Tx) : State :=
  if n = mgmtChan then { s with host := { s.host with mgmt := l } }
  else if n = bar4Chan then { s with host := { s.host with bar4 := l } }
  else s.updChan n fun c => { c with tx := l }
/-- A write, a read request or a message waits for the link behind what its channel has waiting (R484). -/
def enq (n : Nat) (o : Output) (s : State) : State := s.setTx n (s.txOf n ++ [.send (s.txClass n) o])
/-- The ends of some streams' lines are taken from what waits for the link: they move no mark any more. -/
def dropLineEnds (p : Nat → Bool) (s : State) : State :=
  (s.host.chans.map Prod.fst).foldl (fun s n => s.updChan n fun c =>
    { c with tx := c.tx.filter fun t => match t with
             | .lineEnd _ st _ => !p st
             | .send .. => true }) s
/-- Several of them, in order. -/
def enqs (n : Nat) (os : List Output) (s : State) : State := os.foldl (fun s o => enq n o s) s

/-! ### Interrupt vectors and the mailbox (R456, R457, R579, R580) -/

/-- A message on an MSI-X vector of a channel, or its pending bit while the vector is masked (R457). -/
def sendVector (n v : Nat) (s : State) : State :=
  let e := Table.get {} s.host.msix v
  if e.masked then { s with host := { s.host with msix := Table.set {} s.host.msix v { e with pending := true } } }
  else enq n (.msix v) s
/-- A vector sent at most once in an interval may be sent now. -/
def State.spaced (s : State) (last : Option Nat) (gap : Nat) : Bool :=
  match last with
  | none => true
  | some t => decide (t + gap ≤ s.now)
/-- A loop's period has passed since it last ran. Loops: 0 TIME_SYNC, 1 warm-up, 2 motion, 3 pacing, 4 headroom, 5 AVS, 6 switch segments,
7 spare tests. -/
def State.loopDue (s : State) (loop unit period : Nat) : Bool :=
  match Table.get 0 s.loops (256 * loop + unit) with
  | 0 => true
  | t + 1 => decide (t + period ≤ s.now)
/-- The loop runs now. -/
def State.loopRan (loop unit : Nat) (s : State) : State := { s with loops := Table.set 0 s.loops (256 * loop + unit) (s.now + 1) }
/-- Vector 2,044: MBX_RX_TAIL advanced, at most once per 10 µs (R580). -/
def rxVector (s : State) : State :=
  let m := s.host.mbx
  if s.spaced m.rxSent (us 10) then
    sendVector mgmtChan 2044 { s with host := { s.host with mbx := { m with rxSent := some s.now, rxOwed := false } } }
  else { s with host := { s.host with mbx := { m with rxOwed := true } } }
/-- Vector 2,045: MBX_TX_HEAD advanced, at most once per 10 µs (R580). -/
def txVector (s : State) : State :=
  let m := s.host.mbx
  if s.spaced m.txSent (us 10) then
    sendVector mgmtChan 2045 { s with host := { s.host with mbx := { m with txSent := some s.now, txOwed := false } } }
  else { s with host := { s.host with mbx := { m with txOwed := true } } }
/-- The RX ring has a free slot (R580). -/
def Mailbox.room (m : Mailbox) : Bool := (m.rxTail + 1) % 2048 != m.rxHead
/-- A packet put into the RX ring's next slot. -/
def mbxFill (p : Bytes) (s : State) : State :=
  let m := s.host.mbx
  let ring := m.rxRing.writeN (2048 * m.rxTail) (leBytes 4 p.length ++ leBytes 4 0 ++ p)
  rxVector { s with host := { s.host with mbx := { m with rxRing := ring, rxTail := (m.rxTail + 1) % 2048 } } }
/-- A packet for the host through the mailbox: into the RX ring, or held until it has room (R580). -/
def mbxPost (p : Bytes) (s : State) : State :=
  let m := s.host.mbx
  if !m.en then s
  else if m.held.isEmpty && m.room then mbxFill p s
  else { s with host := { s.host with mbx := { m with held := m.held ++ [p] } } }

/-! ### Packets of the dictionary protocol (R551) -/

/-- The session of a number. -/
def State.session (s : State) (num : Nat) : Option Session := s.kdps.sessions.find? fun x => x.num == num
/-- A session changed. -/
def updSession (num : Nat) (f : Session → Session) (s : State) : State :=
  { s with kdps := { s.kdps with sessions := s.kdps.sessions.map fun x => if x.num == num then f x else x } }
/-- The Ethernet frame of a KDP packet: to KdpGroupMac, from the fused MacAddress, padded with zeros to the Ethernet minimum of 46 payload
bytes (R544, R545). -/
def State.frameOf (s : State) (packet : Bytes) : Bytes :=
  (leBytes 6 (s.nat Obj.kdpGroupMac)).reverse ++ (leBytes 6 Config.macAddress).reverse ++ (leBytes 2 (s.nat Obj.kdpEtherType)).reverse ++ packet ++
    List.replicate (46 - packet.length) 0

/-- A packet sent: on the segment, in its frame, if the node has an address (R542), or through the mailbox. In a session it is counted,
encrypted and authenticated (R575, R576); a session whose counter has reached 2^32 − 1 sends nothing more (R576). -/
def sendKdp (mailbox : Bool) (dst op seq session flags error : Nat) (payload : Bytes) (s : State) : State :=
  let own := s.nat Obj.nodeAddress
  let ses := (s.session session).filter Session.opened
  if (!mailbox && own = 0) || ses.any fun x => decide (2 ^ 32 - 1 ≤ x.txCtr) then s
  else
    let ctr := match ses with
      | some x => x.txCtr + 1
      | none => 0
    let s := if ses.isSome then updSession session (fun x => { x with txCtr := ctr }) s else s
    let flags := flags + (if ses.isSome then 4 else 0)
    let header := leBytes 16 (pack [(96, 32, ctr), (80, 16, payload.length), (64, 16, session), (48, 16, seq), (32, 8, dst), (24, 8, own),
      (16, 8, flags), (8, 8, op), (0, 8, 1)])
    let body := match ses with
      | some x => Config.gcm (x.key.take 32) (x.key.drop 32 ++ leBytes 4 ctr ++ [1, BitVec.ofNat 8 own, 0, 0]) header payload
      | none => payload
    let s := s.emit (.kdp mailbox dst op seq session error payload)
    if mailbox then mbxPost (header ++ body) s else s.emit (.frame (s.frameOf (header ++ body)))

/-! ### Events (R570 to R573) -/

/-- An event put on a route and sent, or dropped while 256 are unacknowledged (R570, R572); in a takeover it waits (R650). -/
def routeEvent (mailbox : Bool) (r : EventRoute) (dest : Nat × Nat) (e : EventRec) (s : State) : EventRoute × State :=
  if 256 ≤ r.queue.length then ({ r with lost := r.lost + 1 }, s.count Obj.eventsLost)
  else
    let args := (Config.eventArgs e.name.ctorIdx e.args).take 64
    let payload := leBytes 4 r.nextSeq ++ leBytes 8 e.dt ++ leBytes 2 (Config.eventId e.name.ctorIdx) ++
      [BitVec.ofNat 8 e.severity, BitVec.ofNat 8 args.length] ++ leBytes 2 (min r.lost 65535) ++ [0, 0] ++ args
    let r := { r with queue := r.queue ++ [(r.nextSeq, payload)], nextSeq := (r.nextSeq + 1) % 2 ^ 32, lost := 0, sent := s.now }
    if s.nat Obj.lockstepState = 2 then (r, s)
    else
      let s := sendKdp mailbox dest.1 0x20 0 dest.2 0 0 payload s
      (r, if mailbox then sendVector mgmtChan 2047 s else s)
/-- The modes in which KDP runs: from Configure on (R734). -/
def Mode.talks (m : Mode) : Bool := m != .off && m != .sentinel && m != .boot
/-- OpenAccess as it reads: 0 once ApprovedModeLock is set (R578). -/
def State.openAccess (s : State) : Bool := s.flag Obj.openAccess && !s.flag Obj.approvedModeLock
/-- Where the network route sends: its subscriber, or address 0 without one while OpenAccess is 1 (R573). -/
def State.netTarget (s : State) : Option (Nat × Nat) :=
  match s.kdps.net.subscriber with
  | some t => some t
  | none => if s.openAccess then some (0, 0) else none
/-- An event on the network route, where it takes it (R570, R573). -/
def tellNet (e : EventRec) (s : State) : State :=
  match s.netTarget with
  | some t =>
    if s.kdps.net.subscriber.isSome && e.severity < s.kdps.net.least then s
    else
      let r := routeEvent false s.kdps.net t e s
      { r.2 with kdps := { r.2.kdps with net := r.1 } }
  | none => s
/-- An event on the mailbox route, where it takes it (R570, R573). -/
def tellMail (e : EventRec) (s : State) : State :=
  match s.kdps.mail.subscriber with
  | some t =>
    if e.severity < s.kdps.mail.least then s
    else
      let r := routeEvent true s.kdps.mail t e s
      { r.2 with kdps := { r.2.kdps with mail := r.1 } }
  | none => s
/-- An event raised (R570): kept, counted in EventsRaised, and sent on each route that takes it. -/
def State.raise (s : State) (n : EventName) (args : List Int) (severity : Nat := 0) : State :=
  let e : EventRec := ⟨n, s.dt, severity, args⟩
  let s := { s with raised := e :: s.raised }.countWrap Obj.eventsRaised
  if !s.mode.talks then s else tellMail e (tellNet e s)

/-! ### Fault reports (R32) -/

/-- The 128 bits of a fault report (R32). -/
def FaultReport.word (r : FaultReport) : Nat :=
  pack [(64, 64, r.dt), (48, 16, r.island), (40, 8, r.kind), (36, 4, r.severity), (34, 2, r.plane), (0, 32, r.detail)]
/-- One more on counter `k` of FaultCounts, which saturates (R599). -/
def countSeverity (v k : Nat) : Nat :=
  if field v (32 * k) 32 = maxU 32 then v else v + 2 ^ (32 * k)
/-- A report counted by severity and by kind, and kept as the latest of its kind (R598, R671). -/
def countReport (r : FaultReport) (s : State) : State :=
  let s := s.setReg Obj.faultCounts (countSeverity (s.nat Obj.faultCounts) r.severity)
  (s.count (Obj.faultKindCount r.kind)).setReg (Obj.faultKindLast r.kind) r.word
/-- A fault report sent to the arbiter (R32); plane 0 control, 1 data, 2 management. It is counted, and
kept in FaultLog (R598, R599, R671). -/
def State.report (s : State) (kind severity detail : Nat) (plane : Nat := 1) (island : Nat := 0) : State :=
  let r : FaultReport := ⟨s.dt, island, kind, severity, plane, detail % 2 ^ 32⟩
  let s := countReport r s
  let log := s.dep.log ++ [r]
  { s with reports := s.reports ++ [r],
           dep := { s.dep with log := latest 256 log, worst := some (max (s.dep.worst.getD 0) severity) } }
/-- An event that is also a fault report. -/
def State.raiseFault (s : State) (n : EventName) (args : List Int) (kind severity detail : Nat) (plane : Nat := 1)
    (island : Nat := 0) : State :=
  (s.raise n args severity).report kind severity detail plane island
/-- The island that serves an instance of a row of R14. -/
def islandOf (row inst : Nat) : Nat := Config.island row inst

/-! ### Units by number -/

def State.lane (s : State) (l : Nat) : Lane := Table.get {} s.lanes l
def State.setLane (s : State) (l : Nat) (x : Lane) : State := { s with lanes := Table.set {} s.lanes l x }
def State.updLane (s : State) (l : Nat) (f : Lane → Lane) : State := s.setLane l (f (s.lane l))
def State.group (s : State) (g : Nat) : Group := Table.get {} s.groups g
def State.setGroup (s : State) (g : Nat) (x : Group) : State := { s with groups := Table.set {} s.groups g x }
def State.updGroup (s : State) (g : Nat) (f : Group → Group) : State := s.setGroup g (f (s.group g))
def State.port (s : State) (p : Nat) : Port := Table.get {} s.ports p
def State.setPort (s : State) (p : Nat) (x : Port) : State := { s with ports := Table.set {} s.ports p x }
def State.updPort (s : State) (p : Nat) (f : Port → Port) : State := s.setPort p (f (s.port p))
def State.bank (s : State) (b : Nat) : BankState := Table.get .off s.banks b
def State.setBank (s : State) (b : Nat) (x : BankState) : State := { s with banks := Table.set .off s.banks b x }
def State.slice (s : State) (k : Nat) : Slice := Table.get {} s.slices k
def State.setSlice (s : State) (k : Nat) (x : Slice) : State := { s with slices := Table.set {} s.slices k x }
def State.updSlice (s : State) (k : Nat) (f : Slice → Slice) : State := s.setSlice k (f (s.slice k))
def State.strm (s : State) (n : Nat) : Stream := Table.get {} s.streams n
def State.setStrm (s : State) (n : Nat) (x : Stream) : State := { s with streams := Table.set {} s.streams n x }
def State.updStrm (s : State) (n : Nat) (f : Stream → Stream) : State := s.setStrm n (f (s.strm n))
def State.queue (s : State) (q : Nat) : Queue := Table.get {} s.queues q
def State.setQueue (s : State) (q : Nat) (x : Queue) : State := { s with queues := Table.set {} s.queues q x }
def State.ring (s : State) (n : Nat) : Ring := Table.get {} s.rings n
def State.setRing (s : State) (n : Nat) (x : Ring) : State := { s with rings := Table.set {} s.rings n x }
def State.updRing (s : State) (n : Nat) (f : Ring → Ring) : State := s.setRing n (f (s.ring n))
def State.posChan (s : State) (n : Nat) : PosChan := Table.get {} s.posChans n
def State.setPosChan (s : State) (n : Nat) (x : PosChan) : State := { s with posChans := Table.set {} s.posChans n x }
def State.updPosChan (s : State) (n : Nat) (f : PosChan → PosChan) : State := s.setPosChan n (f (s.posChan n))
def State.cmp (s : State) (n : Nat) : Compare := Table.get {} s.compares n
def State.setCmp (s : State) (n : Nat) (x : Compare) : State := { s with compares := Table.set {} s.compares n x }
def State.updCmp (s : State) (n : Nat) (f : Compare → Compare) : State := s.setCmp n (f (s.cmp n))
def State.gen (s : State) (n : Nat) : Gen := Table.get {} s.gens n
def State.setGen (s : State) (n : Nat) (x : Gen) : State := { s with gens := Table.set {} s.gens n x }
def State.updGen (s : State) (n : Nat) (f : Gen → Gen) : State := s.setGen n (f (s.gen n))
def State.tio (s : State) (n : Nat) : Tio := Table.get {} s.tios n
def State.setTio (s : State) (n : Nat) (x : Tio) : State := { s with tios := Table.set {} s.tios n x }
def State.updTio (s : State) (n : Nat) (f : Tio → Tio) : State := s.setTio n (f (s.tio n))
def State.motion (s : State) (n : Nat) : Motion := Table.get {} s.motions n
def State.setMotion (s : State) (n : Nat) (x : Motion) : State := { s with motions := Table.set {} s.motions n x }
def State.updMotion (s : State) (n : Nat) (f : Motion → Motion) : State := s.setMotion n (f (s.motion n))
def State.trans (s : State) (n : Nat) : Transport := Table.get {} s.transports n
def State.setTrans (s : State) (n : Nat) (x : Transport) : State := { s with transports := Table.set {} s.transports n x }
def State.updTrans (s : State) (n : Nat) (f : Transport → Transport) : State := s.setTrans n (f (s.trans n))
def State.seam (s : State) (n : Nat) : Seam := Table.get {} s.seamsOf n
def State.setSeam (s : State) (n : Nat) (x : Seam) : State := { s with seamsOf := Table.set {} s.seamsOf n x }
def State.updSeam (s : State) (n : Nat) (f : Seam → Seam) : State := s.setSeam n (f (s.seam n))
def State.calib (s : State) (n : Nat) : Calib := Table.get {} s.calibs n
def State.setCalib (s : State) (n : Nat) (x : Calib) : State := { s with calibs := Table.set {} s.calibs n x }
def State.updCalib (s : State) (n : Nat) (f : Calib → Calib) : State := s.setCalib n (f (s.calib n))
def State.xpoint (s : State) (n : Nat) : Crosspoint := Table.get {} s.lamps.points n
def State.updXpoint (s : State) (n : Nat) (f : Crosspoint → Crosspoint) : State :=
  { s with lamps := { s.lamps with points := Table.set {} s.lamps.points n (f (s.xpoint n)) } }

/-! ### Tributaries, groups and lanes -/

/-- A Tributary record (R205). -/
structure Trib where
  valid : Bool
  reverse : Bool
  kind : Nat
  source : Nat
  curve : Nat
  first : Nat
  groups : Nat
  deriving DecidableEq, Repr

/-- A Tributary record read from its 64 bits (R205). -/
def tribOf (v : Nat) : Trib :=
  ⟨bitAt v 63, bitAt v 62, field v 60 2, field v 52 8, field v 44 8, field v 18 18, field v 0 17⟩
/-- Stream pixels a tributary contributes. -/
def Trib.pixels (t : Trib) : Nat := 4 * t.groups
/-- The valid entries of a stream's tributary table, in table order. -/
def tribsOf (v : Obj → Nat) (st : Nat) : List Trib :=
  ((List.range 16).map fun e => tribOf (v (Obj.tributary st e))).filter Trib.valid
/-- The tributary table in effect. -/
def State.tribs (s : State) (st : Nat) : List Trib := tribsOf s.nat st
/-- First stream pixel of tributary `k` (R206). -/
def tribBase (ts : List Trib) (k : Nat) : Nat := sumNat ((ts.take k).map Trib.pixels)
/-- Stream width (R207). -/
def widthOf (ts : List Trib) : Nat := sumNat (ts.map Trib.pixels)
/-- Kind and number of a source, as a Tributary record names it. -/
def srcKind : Source → Nat
  | .group _ => 0
  | .port _ => 1
/-- Number of a source. -/
def srcNum : Source → Nat
  | .group g => g
  | .port p => p
/-- The stream a source serves as a tributary, and its place in the table. -/
def State.streamOfSource (s : State) (kind num : Nat) : Option (Nat × Nat) :=
  (List.range 64).findSome? fun st =>
    ((s.tribs st).findIdx? fun t => t.kind == kind && t.source == num).map fun k => (st, k)

/-- The lane configured for a LANE_ID; 255 none. -/
def State.cfgLane (s : State) (g id : Nat) : Nat :=
  if id < 8 then s.nat (Obj.groupLane g id) else s.nat (Obj.groupSpare g)
/-- Number of active lanes of a group (R124). -/
def State.laneCount (s : State) (g : Nat) : Nat :=
  ((List.range 8).filter fun i => s.nat (Obj.groupLane g i) != 255).length
/-- The lane that carries a LANE_ID now (R152). -/
def State.laneOfId (s : State) (g id : Nat) : Nat :=
  match (s.group g).moved.lookup id with
  | some l => l
  | none => s.cfgLane g id
/-- The group's spare lane now (R154); 255 none. -/
def State.spareOf (s : State) (g : Nat) : Nat := (s.group g).spareLane.getD (s.cfgLane g 8)
/-- The group a lane is configured into, as an active lane or as its spare. -/
def State.groupOfLane (s : State) (l : Nat) : Option Nat :=
  (List.range 96).find? fun g => (List.range 9).any fun i => s.cfgLane g i == l
/-- The LANE_ID a lane carries in its group now: 8 for the idle spare, none for a lane out of use. -/
def State.idOfLane (s : State) (g l : Nat) : Option Nat :=
  match (List.range 8).find? fun i => s.cfgLane g i != 255 && s.laneOfId g i == l with
  | some i => some i
  | none => if s.spareOf g = l then some 8 else none
/-- Every lane configured into a group. -/
def State.lanesOfGroup (s : State) (g : Nat) : List Nat :=
  ((List.range 9).map (s.cfgLane g)).filter (· != 255)
/-- The lane carries framed blocks, or comes to: it can stand in warm standby (R80, R106). -/
def Lane.standing (x : Lane) : Bool := x.state == .aligning || x.state == .active
/-- The lanes that are to be deskewed together: the carriers of the active LANE_IDs, and the spare in warm standby (R80). -/
def State.deskewSet (s : State) (g : Nat) : List Nat :=
  let spare := s.spareOf g
  ((((List.range 8).filter fun i => s.cfgLane g i != 255).map (s.laneOfId g)) ++
    (if (s.lane spare).standing then [spare] else [])).filter (· != 255)
/-- The lane that carries the group's control traffic (R126): the carrier of LANE_ID 0, or the spare while an OXBOW for LANE_ID 0 waits
for its answer (R151); none for a group of no lane. -/
def State.ctlLane (s : State) (g : Nat) : Nat :=
  match (s.group g).oxbow with
  | some (0, _) => s.spareOf g
  | _ => s.laneOfId g 0
/-- The group's spare is ready: it stands deskewed and idle (R172). -/
def State.spareReady (s : State) (g : Nat) : Bool :=
  let x := s.lane (s.spareOf g)
  (s.group g).spareReady && s.spareOf g != 255 && x.state == .active && x.deskewed
/-- The stream a lane's group serves. -/
def State.streamOfLane (s : State) (l : Nat) : Option Nat :=
  match s.groupOfLane l with
  | none => none
  | some g => (s.streamOfSource 0 g).map Prod.fst
/-- A stream that is open (R254). -/
def State.streamOpen? (s : State) (st : Nat) : Bool := (s.strm st).state != .closed && (s.strm st).state != .failed
/-- A lane in a running stream. -/
def State.laneRunning (s : State) (l : Nat) : Bool :=
  match s.streamOfLane l with
  | some st => s.streamOpen? st
  | none => false
/-- No page of the stream is open: work left to a page gap may take place (R104, R422). -/
def State.pageGap (s : State) (st : Nat) : Bool := (s.ring st).page.isNone

/-- A lane's stream is at a page gap, or the lane is in no running stream (R105). -/
def State.laneGap (s : State) (l : Nat) : Bool :=
  match s.streamOfLane l with
  | some st => !s.streamOpen? st || s.pageGap st
  | none => true

end Sys2Proof.Machine
end

