-- ==== Sys2Proof/Machine/Blocks.lean ====
section
/-! DEFINITION. The block coding of the links (R60, R63 to R68, R85, R115, R129 to R133): the scrambler, LINK_CTL words, packets as
blocks, and what the Penori's back-channel transmitters send. -/
namespace Sys2Proof.Machine

/-! ### The scrambler (R66) -/

/-- The self-synchronous descrambler over the first `n` bits of a payload, bit 0 first (R66): the history of 58 received
bits, newest at bit 0, and the descrambled bits. -/
def descramble : Nat → Nat → Nat → Nat × List Bool
  | 0, hist, _ => (hist, [])
  | n + 1, hist, w =>
    let b := bitAt w 0
    let d := xor b (xor (bitAt hist 38) (bitAt hist 57))
    let r := descramble n ((hist * 2 + b2n b) % 2 ^ 58) (w / 2)
    (r.1, d :: r.2)

/-- The scrambler over the first `n` bits of a payload, bit 0 first (R66): the history of 58 sent bits, newest at bit 0, and the
bits sent. -/
def scramble : Nat → Nat → Nat → Nat × List Bool
  | 0, hist, _ => (hist, [])
  | n + 1, hist, w =>
    let b := xor (bitAt w 0) (xor (bitAt hist 38) (bitAt hist 57))
    let r := scramble n ((hist * 2 + b2n b) % 2 ^ 58) (w / 2)
    (r.1, b :: r.2)

/-- Blocks scrambled in order: headers are not scrambled (R66). -/
def scrambleBlocks : Nat → List (Nat × Nat) → Nat × List (Nat × Nat)
  | hist, [] => (hist, [])
  | hist, b :: t =>
    let p := scramble 64 hist b.2
    let r := scrambleBlocks p.1 t
    (r.1, (b.1, ofBits p.2) :: r.2)

/-! ### Blocks (R63, R64, R85) -/

/-- Header of a control block and of a data block, bit 0 first on the wire (R63). -/
def ctlHeader : Nat := 1
def dataHeader : Nat := 2

/-- A FILLER payload before scrambling (R64). -/
def fillerWord : Nat := 0x1E

/-- A LINK_CTL payload (R64, R85): type, SUBTYPE, SEQ, body, and the CRC-8 over payload bytes 1 to 6. -/
def linkCtlWord (subtype seq body : Nat) : Nat :=
  let w := pack [(24, 32, body), (16, 8, seq), (8, 8, subtype), (0, 8, 0x2D)]
  w + crc8 (leBytes 6 (field w 8 48)) * 2 ^ 56

/-- Block types of R64. -/
inductive BlockType where
  | filler | linkCtl | align | start | term (k : Nat) | reserved
  deriving DecidableEq, Repr

/-- The block type a control payload's bits [7:0] name (R64). -/
def blockType (w : Nat) : BlockType :=
  match field w 0 8 with
  | 0x1E => .filler
  | 0x2D => .linkCtl
  | 0x4C => .align
  | 0x78 => .start
  | t => if 0xC0 ≤ t && t ≤ 0xC7 then .term (t - 0xC0) else .reserved

/-- COMMA and TYPE of an ALIGN payload (R70, R72). -/
def isAlign (w : Nat) : Bool := field w 0 48 == 0xE39A71C64D * 256 + 0x4C

/-- A LINK_CTL payload with a right CRC and a subtype listed in R87 or R140 (R86). -/
def linkCtlOk (w : Nat) : Bool :=
  crc8 (leBytes 6 (field w 8 48)) == field w 56 8 &&
    ((1 ≤ field w 8 8 && field w 8 8 ≤ 7) || (0x10 ≤ field w 8 8 && field w 8 8 ≤ 0x12))

/-! ### Packets as blocks (R129, R130, R132) -/

/-- Content bytes in data blocks, and the last of them in the TERM block (R64, R129); the fuel is their number. -/
def contentBlocks : Nat → Bytes → List (Nat × Nat)
  | 0, b => [(ctlHeader, 0xC0 + b.length + leNat b * 256)]
  | n + 1, b =>
    if b.length < 8 then [(ctlHeader, 0xC0 + b.length + leNat b * 256)]
    else (dataHeader, leNat (b.take 8)) :: contentBlocks n (b.drop 8)

/-- The 7 bytes of the common header (R132): PTYPE, FLAGS, PSN, LENGTH and HDR_CHK. -/
def packetHeader (ptype flags psn length : Nat) : Bytes :=
  let h := leBytes 6 (pack [(32, 16, length), (16, 16, psn), (8, 8, flags), (0, 8, ptype)])
  h ++ [BitVec.ofNat 8 (crc8 h)]

/-- A packet as blocks: START, the subheader, the payload with its CRC-32C, least significant byte first, and TERM_k (R129, R130). -/
def packetBlocks (ptype flags psn subheader : Nat) (payload : Bytes) : List (Nat × Nat) :=
  let h := packetHeader ptype flags psn payload.length
  let b := leBytes 8 subheader ++ payload
  let content := b ++ leBytes 4 (crc32c (h ++ b))
  (ctlHeader, 0x78 + leNat h * 256) :: contentBlocks content.length content

/-! ### The back-channel transmitter (R60, R66, R115) -/

/-- Blocks sent on a lane's back channel. A transmitter in SLEEP is woken for them and sends 512 FILLER blocks first (R115; DESIGN
CHOICE, log entry 76: that it is woken); one that is OFF sends nothing. -/
def sendBlocks (l : Nat) (blocks : List (Nat × Nat)) (s : State) : State :=
  let x := s.lane l
  if x.backPower == .off then s
  else
    let bs := if x.backPower == .sleep then List.replicate 512 (ctlHeader, fillerWord) ++ blocks else blocks
    let r := scrambleBlocks x.txScrambler bs
    (s.updLane l fun x => { x with backPower := if x.backPower == .sleep then .active else x.backPower, txScrambler := r.1 }).emit
      (.backBlocks l r.2)

/-- A LINK_CTL word on a lane's back channel (R85, R87). -/
def sendCtl (l subtype seq body : Nat) (s : State) : State := sendBlocks l [(ctlHeader, linkCtlWord subtype seq body)] s

/-- A LINK_CTL message of its own SEQ, in `n` consecutive copies (R88; DESIGN CHOICE, log entry 77: one count for each lane). -/
def sendMsg (l subtype body n : Nat) (s : State) : State :=
  let seq := ((s.lane l).msgSeq + 1) % 256
  sendBlocks l (List.replicate n (ctlHeader, linkCtlWord subtype seq body)) (s.updLane l fun x => { x with msgSeq := seq })

/-- A back channel in SLEEP is woken: 512 FILLER blocks before any other (R115). -/
def wakeBack (l : Nat) (s : State) : State := sendBlocks l [] s

/-! ### Device time in the islands (R49) -/

/-- Gray code of a count. -/
def gray (n : Nat) : Nat := n ^^^ (n / 2)

/-- The count of a Gray code of 62 bits. -/
def ungray (g : Nat) : Nat :=
  let a := g ^^^ (g / 2)
  let a := a ^^^ (a / 4)
  let a := a ^^^ (a / 16)
  let a := a ^^^ (a / 256)
  let a := a ^^^ (a / 65536)
  a ^^^ (a / 4294967296)

/-- The timing island distributes DT[63:2] as a Gray-coded count (R49). -/
def distribute (s : State) : State := { s with grayDt := gray (s.dt / 4) }

/-- An island's copy of device time in ns (R49): the count that left the timing island the distribution latency ago, corrected by
the latency measured at boot. -/
def State.localDt (s : State) (island : Nat) : Nat :=
  let lag := Config.dtLatency island
  4 * (ungray (gray (ungray s.grayDt - lag)) + lag)

/-- An arrival stamp of an island in 1/4 ns (R49). -/
def State.stamp (s : State) (island : Nat) : Nat := ns (s.localDt island)

/-- Class 0 ingest noted, in bits of coded lane payload (R55), for Class0Load (R59). -/
def noteIngest (cls bits : Nat) (s : State) : State :=
  if cls ≠ 0 then s else { s with class0In := (s.now, bits) :: s.class0In.filter fun e => decide (s.now < e.1 + ms 1) }

/-- Class0Load: Mbit/s over the last 1 ms (R59). -/
def State.class0Ingest (s : State) : Nat :=
  sumNat ((s.class0In.filter fun e => decide (s.now < e.1 + ms 1)).map Prod.snd) / 1000

end Sys2Proof.Machine
end

