-- ==== Sys2Proof/Machine/Lanes.lean ====
section
/-! DEFINITION. GrenoLink lanes (chapter 02): block reception and lock, alignment and deskew, rate matching, training,
adaptation, the eye monitor, retraining, power states and test patterns. -/
namespace Sys2Proof.Machine

/-- Code of a lane state (R106). -/
def LaneState.code : LaneState → Nat
  | .disabled => 0 | .training => 1 | .aligning => 2 | .active => 3
  | .sleep => 4 | .retraining => 5 | .failed => 6 | .test => 7

/-! ### Lanes and their groups -/

/-- A lane in a state in which it carries framed blocks, its receiver powered (R106, R108). -/
def Lane.framed (x : Lane) : Bool :=
  x.state != .disabled && x.state != .sleep && x.state != .test && x.state != .failed && x.fwdPower != .off

/-- The alignment period in blocks (R71). -/
def alignPeriod : Nat := 16384

/-- An ALIGN match is accepted as such: before alignment lock always, after it at the expected slot only (R72). -/
def Lane.alignHere (x : Lane) : Bool := !x.alignLock || x.slots == some (alignPeriod - 1)

/-- A lane's group is deskewed: every lane of its deskew set is; a lane of no group by itself (R80, R122). -/
def State.laneDeskewed (s : State) (l : Nat) : Bool :=
  match s.groupOfLane l with
  | none => (s.lane l).deskewed
  | some g => (s.deskewSet g).all fun m => (s.lane m).deskewed

/-- A lane enters a state: LANE_STATE on entry to FAILED, SLEEP or ACTIVE (R107). Outside ACTIVE it is not deskewed, holds no packet in
assembly, and is no ready spare (R172, R771); a failed active lane fails its group (R771). The first ACTIVE after training restarts
the PSN sequence of its LANE_ID, on LANE_ID 0 the back channel's too, whose packets held are discarded (R141). -/
def enterLane (l : Nat) (st : LaneState) (s : State) : State :=
  let s := s.updLane l fun x => { x with state := st, since := s.now, psnRestart := x.psnRestart || st == .training || st == .retraining,
                                         deskewed := x.deskewed && st == .active, asm := if st == .active then x.asm else none,
                                         fillerRun := if st == .active then 0 else x.fillerRun }
  let s := if st == .failed || st == .sleep || st == .active then s.raise .laneState [l, st.code] else s
  match s.groupOfLane l with
  | none => if st == .active then s.updLane l fun x => { x with psnRestart := false } else s
  | some g =>
    match st, s.idOfLane g l with
    | .active, some 8 =>
      let s := s.updLane l fun x => { x with psnRestart := false }
      s.updGroup g fun x => { x with spareReady := (s.lane l).deskewed && !(s.lane l).planned }
    | .active, some i =>
      if (s.lane l).psnRestart then
        (s.updLane l fun x => { x with psnRestart := false }).updGroup g fun x =>
          { x with rx := Table.set {} x.rx i {},
                   txPsn := if i = 0 then 0 else x.txPsn,
                   held := if i = 0 then [] else x.held }
      else s
    | _, some 8 => s.updGroup g fun x => { x with spareReady := false }
    | .failed, some _ => s.updGroup g fun x => { x with state := .failed }
    | .training, some _ =>
      let all := (List.range 8).all fun i =>
        s.cfgLane g i == 255 || (s.lane (s.laneOfId g i)).state == .training
      s.updGroup g fun x =>
        if x.state == .down || (x.state == .failed && all) then { x with state := .linking, linkChecked := false } else x
    | _, _ => s

/-- Adaptation counters over one received block (R100): FILLER blocks in ACTIVE lengthen the run (DESIGN CHOICE, log entry 78: those
before ACTIVE do not), START, TERM and data break it, data in ACTIVE count towards the thaw; a fresh run of 4,096 fillers while
frozen sets that count back. -/
def Lane.adapt (x : Lane) (isData : Bool) (t : BlockType) : Lane :=
  let act := b2n (x.state == .active)
  if isData then { x with fillerRun := 0, dataSinceFreeze := x.dataSinceFreeze + act }
  else match t with
    | .filler | .reserved =>
      let run := x.fillerRun + act
      { x with fillerRun := run, dataSinceFreeze := if x.frozen && run % 4096 = 0 then 0 else x.dataSinceFreeze }
    | .start | .term _ => { x with fillerRun := 0 }
    | _ => x

/-- CTLE adaptation, in every framed state unless frozen: at a bound of CtleRange it is held there, with POLICY_CLAMP, the lane and the
bound (1 upper, 0 lower) once on each entry into a bound (R99). -/
def ctleStep (l wanted : Nat) (s : State) : State :=
  let x := s.lane l
  if x.frozen then s else
  let range := s.nat (Obj.ctleRange l)
  let hi := field range 8 8
  let lo := field range 0 8
  let held := max lo (min hi wanted)
  let bound := if hi ≤ wanted then some true else if wanted ≤ lo then some false else none
  let s := s.updLane l fun x => { x with ctle := held, ctleBound := bound }
  match bound with
  | some up => if x.ctleBound == some up then s else s.raise .policyClamp [l, b2n up]
  | none => s

/-! ### Alignment and deskew -/

/-- Alignment lock is lost (R75, R76, R121): ALIGN_LOSS, reported, and a lane in ACTIVE goes to ALIGNING (R106). -/
def loseAlign (l : Nat) (s : State) : State :=
  let active := (s.lane l).state == .active
  let s := s.updLane l fun x => { x with alignLock := false, deskewed := false, wakeRelock := false, head := none }
  let s := s.raiseFault .alignLoss [l] Kind.alignLoss 2 l 1 (islandOf 2 l)
  if active then enterLane l .aligning s else s

/-- An ALIGN block stands at the head of a lane's queue, for 2,048 UI at most: 59.58 ns (R80, R82). -/
def State.presents (s : State) (m : Nat) : Option Nat :=
  match (s.lane m).head with
  | some h => if s.now ≤ h.2 + 238 then some h.1 else none
  | none => none

/-- At an ALIGN slot the lanes in lockstep carry one ALIGN_SEQ, or DESKEW_FAIL, and ALIGN_LOSS for the lanes that differ from the majority,
for all where there is none (R83). -/
def checkAligns (g : Nat) (inStep : List Nat) (s : State) : State :=
  let seqs := inStep.filterMap fun m => (s.presents m).map fun q => (m, q)
  if seqs.all fun p => seqs.all fun q => p.2 == q.2 then s
  else
    let count := fun v => (seqs.filter fun p => p.2 == v).length
    let major : Option (Nat × Nat) := seqs.find? fun p => decide (seqs.length < 2 * count p.2)
    let bad : List Nat := match major with
      | some p => (seqs.filter fun (q : Nat × Nat) => q.2 != p.2).map Prod.fst
      | none => s.deskewSet g
    bad.foldl (fun s m => loseAlign m s) (s.raise .deskewFail [g])

/-- The group is deskewed (R80): the last lane to arrive sets the reference. The delay applied to a lane, held to 1/4 ns, is rounded half
up to UI (DESIGN CHOICE, log entry 79); 1,000 UI of 34.375 Gbaud last 29,090.9 ps. A lane in ALIGNING becomes ACTIVE (R106). -/
def deskewGroup (set : List Nat) (s : State) : State :=
  let arrival := fun m => ((s.lane m).head.map Prod.snd).getD s.now
  let last := maxNat (set.map arrival)
  let anew := set.any fun m => !(s.lane m).deskewed
  let s := set.foldl (fun s m =>
    let d := last - ((s.lane m).head.map Prod.snd).getD s.now
    let s := if anew then s.setReg (Obj.skewUi m) (min 2048 ((d * 34375 + 2000) / 4000) : Nat) else s
    s.updLane m fun x => { x with deskewed := true, head := none }) s
  set.foldl (fun s m => if (s.lane m).state == .aligning then enterLane m .active s else s) s

/-- A lane with alignment lock presents an ALIGN block: the lanes in lockstep are compared once all of them present theirs (R83), and the
group is deskewed once every lane presents the same ALIGN_SEQ (R80). -/
def meetAligns (g l seq : Nat) (s : State) : State :=
  let inStep := (s.deskewSet g).filter fun m => (s.lane m).deskewed
  let s := if inStep.contains l && inStep.all fun m => (s.presents m).isSome then checkAligns g inStep s else s
  let set := s.deskewSet g
  if set.contains l && set.all fun m => (s.lane m).alignLock && s.presents m == some seq then deskewGroup set s else s

/-- An ALIGN block (R70, R72, R75, R80, R83, R137): it restarts the slot count, records LANE_ID and ALIGN_SEQ, marks the restart in the
packet being assembled, takes or confirms alignment lock, and presents itself for the group's deskew. -/
def alignArrives (l w : Nat) (s : State) : State :=
  let x := s.lane l
  let seq := field w 56 8
  let id := field w 48 4
  let onSlot := x.slots == some (alignPeriod - 1)
  let gains := !x.alignLock && (onSlot || (x.wakeRelock && x.lockedLaneId == some id))
  let keeps := x.alignLock && x.lockedLaneId == some id
  let lock := gains || keeps
  let s := s.updLane l fun x => { x with slots := some 0, rxLaneId := id, rxAlignSeq := seq, alignLock := lock,
                                         lockedLaneId := if gains then some id else x.lockedLaneId, wakeRelock := if gains then false else x.wakeRelock,
                                         head := some (seq, s.now),
                                         asm := x.asm.map fun a => { a with alignAt := some (a.body.length - 8) } }
  if x.alignLock && !keeps then
    -- an ALIGN block with another LANE_ID at the expected slot: alignment lock is lost (R75)
    loseAlign l s
  else if !lock then s else
  match s.groupOfLane l with
  | none =>
    let s := s.updLane l fun x => { x with deskewed := true }
    if x.state == .aligning then enterLane l .active (s.updLane l fun x => { x with head := none }) else s
  | some g => meetAligns g l seq s

/-- BLOCK_LOCK: 64 consecutive valid headers at one bit offset (R73); the first block after is discarded (R69). -/
def execBlockLock (l : Fin 104) (s : State) : Result :=
  let x := s.lane l
  .next <| if x.framed && !x.blockLock && 64 ≤ x.validRun then
    s.updLane l fun x => { x with blockLock := true, discardNext := true, window := [], validRun := 0 } else s

/-- Block lock is lost on a lane (R74, R76, R121): counted; outside SLEEP and TEST told and reported, with ALIGN_LOSS where alignment lock
is lost with it; a lane in ACTIVE goes to ALIGNING (R106); a spare lane is no longer ready and is to be retrained (R652). -/
def loseBlockLock (l : Nat) (s : State) : State :=
  let x := s.lane l
  let s := (s.updLane l fun x => { x with blockLock := false, alignLock := false, deskewed := false, window := [], asm := none,
                                          validRun := 0, slots := none, lockedLaneId := none, head := none, wakeRelock := false }).count (Obj.lockLosses l)
  let s := if x.state == .sleep || x.state == .test then s
    else
      let s := s.raiseFault .laneLockLoss [l] Kind.laneLockLoss 2 l 1 (islandOf 2 l)
      if x.alignLock then s.raiseFault .alignLoss [l] Kind.alignLoss 2 l 1 (islandOf 2 l) else s
  let s := match s.groupOfLane l with
    | none => s
    | some g => if s.idOfLane g l == some 8 && (s.group g).spareReady then
        (s.updGroup g fun x => { x with spareReady := false }).updLane l fun x => { x with retrainPending := true }
      else s
  if x.state == .active then enterLane l .aligning s else s

/-- LANE_LOCK_LOSS: 16 or more invalid headers within 64 blocks (R74). -/
def execLaneLockLoss (l : Fin 104) (s : State) : Result :=
  let x := s.lane l
  .next <| if x.blockLock && 16 ≤ (x.window.filter id).length then loseBlockLock l s else s

/-- SIGNAL_LOST: the signal detector reports no signal on a lane that has not acknowledged sleep (R76). -/
def execSignalLost (l : Fin 104) (s : State) : Result :=
  let x := s.lane l
  let s' := s.updLane l fun x => { x with signalDetect := false, cdrLock := false }
  .next <| if x.blockLock && x.state != .sleep then loseBlockLock l s' else s'

/-- ALIGN_BLOCK: an ALIGN block arrives (R70 to R72, R75, R80, R83). -/
def execAlignBlock (l : Fin 104) (payload : BitVec 64) (s : State) : Result :=
  let x := s.lane l
  let w := payload.toNat
  .next <| if x.framed && x.blockLock && isAlign w && x.alignHere then alignArrives l w s else s

/-- ALIGN_LOSS: an expected ALIGN block is missing (R75). -/
def execAlignLoss (l : Fin 104) (s : State) : Result :=
  let x := s.lane l
  let late := match x.slots with | some n => decide (alignPeriod ≤ n) | none => false
  .next <| if x.alignLock && late then
    loseAlign l (s.updLane l fun x => { x with lockedLaneId := none, slots := none }) else s

/-- FILLER_BLOCK: rate matching at a FILLER slot of lanes read in lockstep (R78): where the slot holds FILLER on every lane, it is deleted
while the elastic fill is above centre, and a slot is inserted after it while the fill is below (DESIGN CHOICE, log entry 80: a
slot that holds FILLER on some lanes only is no received FILLER slot). -/
def execFillerBlock (l : Fin 104) (fill : Int) (allFiller : Bool) (s : State) : Result :=
  let x := s.lane l
  let held := fun (v : Int) (u : State) => match s.groupOfLane l with
    | some g => u.updGroup g fun x => { x with fill := v }
    | none => u
  .next <| if !x.framed || !x.blockLock then s
    else if !s.laneDeskewed l || !allFiller then held fill s
    else
      let lanes := match s.groupOfLane l with | some g => s.deskewSet g | none => [l.val]
      if 0 < fill then held (fill - 1) (lanes.foldl (fun s m => s.countWrap (Obj.fillerDeleted m)) s)
      else if fill < 0 then held (fill + 1) (lanes.foldl (fun s m => s.countWrap (Obj.fillerInserted m)) s)
      else held fill s

/-- DESKEW_FAIL: an ALIGN block has waited 2,048 UI at the head of a lane's queue without every other lane presenting its match (R82):
deskew is repeated at the next alignment period. -/
def execDeskewFail (g : Fin 96) (s : State) : Result :=
  let set := s.deskewSet g
  let alone := set.any fun m => match (s.lane m).head with
    | some h => decide (h.2 + 239 ≤ s.now) && set.any fun o => ((s.lane o).head.map Prod.fst) != some h.1
    | none => false
  .next <| if alone && set.any (fun m => !(s.lane m).deskewed) then
    (set.foldl (fun s m => s.updLane m fun x => { x with head := none }) s).raise .deskewFail [g] else s

/-! ### Training -/

/-- A spare lane takes its place: the group has a spare again (R154, R771), its back channel awake while the stream runs (R127). -/
def spareReturns (g l : Nat) (s : State) : State :=
  let s := s.updGroup g fun x => { x with spareLane := some l, spareFor := 15, state := if x.state == .spareInUse then .up else x.state }
  if s.laneRunning l && (s.lane l).backPower == .sleep then wakeBack l s else s

/-- A training or retraining succeeds: ALIGNING (R106); a lane that had been replaced by the spare becomes the group's spare, and the
group returns to UP (R154, R771), after a planned switch only with its first sweep (R662). -/
def trainingEnds (l : Nat) (s : State) : State :=
  let s := enterLane l .aligning s
  match s.groupOfLane l with
  | none => s
  | some g =>
    if s.idOfLane g l == none && (s.group g).spareFor != 15 then
      if (s.lane l).planned then s.updGroup g fun x => { x with spareLane := some l } else spareReturns g l s
    else s


/-- TRAIN_REQ body (R91) with tap requests pre, main, post. -/
def trainBody (rxReady init : Nat) (t : Nat × Nat × Nat) : Nat :=
  pack [(8, 1, rxReady), (6, 2, init), (4, 2, t.2.2), (2, 2, t.2.1), (0, 2, t.1)]

/-- The tap requests of the optimiser for a lane and SEQ (open, log entry 9): 0 hold, 1 increment, 2 decrement. -/
def wantedTaps (l seq : Nat) : Nat × Nat × Nat :=
  let w := Config.tapRequest l seq
  (w.1 % 3, w.2.1 % 3, w.2.2 % 3)

/-- An increment beyond TxPreMax or TxPostMax turned to hold (R97). -/
def boundedTaps (l : Nat) (s : State) (want : Nat × Nat × Nat) : Nat × Nat × Nat :=
  let x := s.lane l
  (if want.1 = 1 && s.nat (Obj.txPreMax l) ≤ x.taps.1 then 0 else want.1, want.2.1,
   if want.2.2 = 1 && s.nat (Obj.txPostMax l) ≤ x.taps.2.2 then 0 else want.2.2)

/-- A tap the optimiser holds, or one that its camera reported at its limit in the direction wanted (step 5 of training; R93). -/
def tapDone (want sts : Nat) : Bool := want = 0 || (want = 1 && sts = 3) || (want = 2 && sts = 2)

/-- A TRAIN_REQ with a new SEQ is sent (R95, R97): first INITIALISE, or PRESET where its taps would lie above TxPreMax or TxPostMax (DESIGN
CHOICE, log entry 81), then the optimiser's requests, and RX_READY once every tap is held or at a limit. After SEQ 255 comes 0. -/
def sendTraining (l : Nat) (s : State) : State :=
  let x := s.lane l
  let seq := (x.trainSeq + 1) % 256
  let first := !x.trainBegun && x.state == .training
  let init := if 2 ≤ s.nat (Obj.txPreMax l) && 8 ≤ s.nat (Obj.txPostMax l) then 2 else 1
  let want := wantedTaps l seq
  let taps := boundedTaps l s want
  let heldPre := !first && want.1 != taps.1
  let heldPost := !first && want.2.2 != taps.2.2
  let ready := !first && tapDone taps.1 x.tapSts.1 && tapDone taps.2.1 x.tapSts.2.1 && tapDone taps.2.2 x.tapSts.2.2
  let body := if first then trainBody 0 init (0, 0, 0) else if ready then trainBody 1 0 (0, 0, 0) else trainBody 0 0 taps
  let s := s.updLane l fun x => { x with trainSeq := seq, trainOpen := true, trainSent := s.now, trainResends := 0, trainBegun := true,
                                         trainBody := body, tapClamped := heldPre || heldPost }
  let s := if heldPre then s.raise .policyClamp [l, 1] else s
  let s := if heldPost then s.raise .policyClamp [l, 1] else s
  let s := sendCtl l 0x01 seq body s
  if ready then trainingEnds l s else s

/-- TRAIN_REQ: every 32 back-channel blocks during training the Penori sends a TRAIN_REQ: the open SEQ again, or the first
one (R95). -/
def execTrainReq (l : Fin 104) (s : State) : Result :=
  let x := s.lane l
  .next <| if x.state == .training || x.state == .retraining then
      if x.trainOpen then sendCtl l 0x01 x.trainSeq x.trainBody s else sendTraining l s
    else s

/-- TRAIN_STS: the camera reports its taps, echoing a SEQ (R93); the echo of the open SEQ lets the next one be sent (R96). -/
def execTrainSts (l : Fin 104) (seq : BitVec 8) (body : BitVec 32) (s : State) : Result :=
  let x := s.lane l
  let b := body.toNat
  .next <| if x.state != .training && x.state != .retraining then s
    else
      let t := (field b 8 8, field b 16 8, field b 24 8)
      let s := s.updLane l fun x => { x with taps := t, tapSts := (field b 0 2, field b 2 2, field b 4 2) }
      let s := s.setReg (Obj.txTaps l) (pack [(16, 8, t.2.2), (8, 8, t.2.1), (0, 8, t.1)] : Nat)
      if x.trainOpen && seq.toNat == x.trainSeq then
        sendTraining l (s.updLane l fun x => { x with trainOpen := false })
      else s

/-- Training ends without success: LANE_TRAIN_FAIL, and the lane enters FAILED (R96, R106). -/
def trainingFails (l : Nat) (s : State) : State :=
  let s := s.updLane l fun x => { x with trainOpen := false, retrainPending := false }
  enterLane l .failed (s.raiseFault .laneTrainFail [l] Kind.laneTrainFail 3 l 1 (islandOf 2 l))

/-- TRAIN_STEP_TIMEOUT: an unanswered SEQ is resent at most three times, then training fails (R96). -/
def execTrainStepTimeout (l : Fin 104) (s : State) : Result :=
  let x := s.lane l
  let due := decide (us (s.nat Obj.trainStepTimeout) ≤ s.now - x.trainSent)
  .next <| if (x.state == .training || x.state == .retraining) && x.trainOpen && due then
      if x.trainResends < 3 then
        sendCtl l 0x01 x.trainSeq x.trainBody (s.updLane l fun x => { x with trainResends := x.trainResends + 1, trainSent := s.now })
      else trainingFails l s
    else s

/-- LANE_TRAIN_FAIL: training exceeds TrainMaxTime and the lane enters FAILED (R106). -/
def execLaneTrainFail (l : Fin 104) (s : State) : Result :=
  let x := s.lane l
  .next <| if x.state == .training && ms (s.nat Obj.trainMaxTime) < s.now - x.since then trainingFails l s else s

/-- ADAPTATION_FREEZE: 4,096 consecutive FILLER blocks in ACTIVE (R100). -/
def execAdaptationFreeze (l : Fin 104) (s : State) : Result :=
  let x := s.lane l
  .next <| if x.state == .active && !x.frozen && 4096 ≤ x.fillerRun then
    s.updLane l fun x => { x with frozen := true, dataSinceFreeze := 0 } else s

/-- ADAPTATION_RESUME: 1,024 data blocks received in ACTIVE since the freeze (R100). -/
def execAdaptationResume (l : Fin 104) (s : State) : Result :=
  let x := s.lane l
  .next <| if x.state == .active && x.frozen && 1024 ≤ x.dataSinceFreeze then
    s.updLane l fun x => { x with frozen := false, fillerRun := 0 } else s

/-- The first sweep after the retraining of a lane that a planned switch replaced: the lane becomes the group's spare with a margin of
EyeMarginWarn + 8, and fails below it (R662). -/
def sweepOfSpare (l m : Nat) (s : State) : State :=
  match s.groupOfLane l with
  | none => s
  | some g =>
    if !(s.lane l).planned || s.idOfLane g l != some 8 then s
    else if m < s.nat Obj.eyeMarginWarn + 8 then enterLane l .failed (s.updLane l fun x => { x with planned := false })
    else
      let s := spareReturns g l (s.updLane l fun x => { x with planned := false })
      s.updGroup g fun x => { x with spareReady := (s.lane l).deskewed }

/-- EYE_SWEEP: a sweep completes; the margin of an ACTIVE lane is evaluated (R101 to R103), frozen or not. LANE_MARGIN is reported with
severity wear and the kind WEAR_LANE (DESIGN CHOICE, log entry 82: R121 names no kind). -/
def execEyeSweep (l : Fin 104) (margin : Nat) (s : State) : Result :=
  let x := s.lane l
  if x.state != .active then .next s else
  let m := min margin 64
  let s := s.setReg (Obj.eyeMargin l) m
  let s := s.setReg (Obj.eyeMarginMin l) (min (s.nat (Obj.eyeMarginMin l)) m : Nat)
  let s := s.updLane l fun x => { x with hourMin := some (min (x.hourMin.getD 64) m) }
  let s := if m < s.nat Obj.eyeMarginWarn then
      (s.updLane l fun x => { x with marginWarn := true }).raiseFault .laneMargin [l, m] Kind.wearLane 1 l 1 (islandOf 2 l)
    else s
  let s := if m < s.nat Obj.eyeMarginFail then
      (s.updLane l fun x => { x with marginFail := true }).raiseFault .laneEyeFail [l, m] Kind.laneEyeFail 2 l 1 (islandOf 2 l)
    else s
  .next (sweepOfSpare l m s)

/-! ### Retraining -/

/-- Training begins, from DISABLED or from FAILED (R106): a direction that is requested not OFF is powered, and the back-channel
scrambler takes its seed where its transmitter starts from OFF (R68). -/
def startTraining (l : Nat) (s : State) : State :=
  let fwd : LanePower := if s.nat (Obj.fwdPowerReq l) = 2 then .off else .active
  let back : LanePower := if s.nat (Obj.backPowerReq l) = 2 then .off else .active
  let s := s.updLane l fun x => { x with fwdPower := fwd, backPower := back, trainSeq := 0, trainOpen := false, trainDue := false, trainBegun := false, tapSts := (0, 0, 0),
                                         retrainPending := false,
                                         blockLock := false, alignLock := false, deskewed := false, validRun := 0, window := [], slots := none,
                                         lockedLaneId := none, head := none, frozen := false, fillerRun := 0,
                                         txScrambler := if x.backPower == .off then 0x155555555555555 ^^^ (l % 16) else x.txScrambler }
  enterLane l .training s

/-- A retraining starts from the present taps without INIT (R104): of a lane in ACTIVE; from FAILED the lane enters TRAINING (R106). In
any other state RETRAIN_PENDING stands until the lane is in one of these. -/
def startRetraining (l : Nat) (s : State) : State :=
  let x := s.lane l
  if x.state == .failed then startTraining l s
  else if x.state == .active then
    enterLane l .retraining (s.updLane l fun x => { x with retrainPending := false, trainOpen := false, tapSts := (0, 0, 0) })
  else s.updLane l fun x => { x with retrainPending := true }

/-- RETRAIN: a write of 1 to Retrain (R105): at once in Maintenance, on a lane in no running stream or on a FAILED lane,
and otherwise at the stream's next page gap. -/
def execRetrain (l : Fin 104) (s : State) : Result :=
  let x := s.lane l
  .next <| if x.state == .disabled then s
    else if s.mode == .maintenance || !s.laneRunning l || x.state == .failed then startRetraining l s
    else s.updLane l fun x => { x with retrainPending := true }

/-- RETRAIN_START: the stream's page gap has come for a pending retraining (R104). -/
def execRetrainStart (l : Fin 104) (s : State) : Result :=
  .next <| if (s.lane l).retrainPending && s.laneGap l then startRetraining l s else s

/-- RETRAIN_DONE: retraining completes and the lane enters ALIGNING (R106), as the group's spare where it had been replaced (R154, R662,
R771). -/
def execRetrainDone (l : Fin 104) (s : State) : Result :=
  .next <| if (s.lane l).state == .retraining then trainingEnds l s else s

/-- RETRAIN_TIMEOUT: 2 ms passed in RETRAINING: FAILED (R106), with LANE_TRAIN_FAIL (R121). -/
def execRetrainTimeout (l : Fin 104) (s : State) : Result :=
  let x := s.lane l
  .next <| if x.state == .retraining && ms 2 ≤ s.now - x.since then trainingFails l s else s

/-- ALIGNING_TIMEOUT: no block lock within 1 ms, or no alignment lock within 4 alignment periods (R106); both run from the entry to
ALIGNING, the second while block lock holds (DESIGN CHOICE, log entry 83). -/
def execAligningTimeout (l : Fin 104) (s : State) : Result :=
  let x := s.lane l
  let t := s.now - x.since
  .next <| if x.state == .aligning && ((!x.blockLock && ms 1 ≤ t) || (x.blockLock && !x.alignLock && 503316 ≤ t)) then
    enterLane l .failed s else s

/-- A lane that stands DISABLED, with what its wear is judged by (R106, R660). -/
def laneDown (l : Nat) (s : State) : State := s.updLane l fun x => { hourMin := x.hourMin, hourly := x.hourly }

/-! ### Power states -/

/-- Both directions of a lane are OFF: it is DISABLED (R106). -/
def laneOffCheck (l : Nat) (s : State) : State :=
  let x := s.lane l
  if x.fwdPower == .off && x.backPower == .off && x.state != .disabled then enterLane l .disabled s else s

/-- A lane held as a warm standby spare (R109). -/
def State.warmSpare (s : State) (l : Nat) : Bool :=
  match s.groupOfLane l with
  | some g => s.idOfLane g l == some 8
  | none => false

/-- A lane's back channel stays awake: its group's stream runs and it is the control lane's or the spare lane's (R127). -/
def State.backAwake (s : State) (l : Nat) : Bool :=
  match s.groupOfLane l with
  | some g => s.laneRunning l && (s.ctlLane g == l || s.spareOf g == l)
  | none => false

/-- A write of FwdPowerReq is accepted (R109): SLEEP and OFF are refused for a warm standby spare. -/
def fwdPowerOk (l v : Nat) (s : State) : Bool := v == 0 || !s.warmSpare l

/-- A sleeping forward direction is woken (R106, R112, R114): WAKE goes out on the back channel, which is woken for it, adaptation is frozen,
and the lane enters ALIGNING. No WAKE can leave where the back channel is OFF: the lane then stays in SLEEP. -/
def wakeForward (l : Nat) (s : State) : State :=
  if (s.lane l).backPower == .off then s
  else
    let s := sendMsg l 0x05 0 1 s
    enterLane l .aligning (s.updLane l fun x => { x with fwdPower := .active, frozen := true, fillerRun := 0, dataSinceFreeze := 0,
                                                         wakeRelock := x.lockedLaneId.isSome })

/-- FWD_POWER_REQ: requested forward power (R106, R108, R109, R111, R112). SLEEP goes to the camera as SLEEP_REQ, only on a lane whose
stream is not running; ACTIVE wakes a sleeping lane, and leaves OFF by training; OFF takes every lock (log entry 75). -/
def execFwdPowerReq (l : Fin 104) (v : Fin 3) (s : State) : Result :=
  if !fwdPowerOk l v s then .next s else
  let s := s.setReg (Obj.fwdPowerReq l) v.val
  let x := s.lane l
  .next <| match v.val with
    | 1 => if x.state == .active && x.fwdPower == .active && x.backPower != .off && !s.laneRunning l then
          (sendMsg l 0x03 0 1 s).updLane l fun x => { x with sleepReq := some s.now, fwdPower := .changing }
        else s
    | 2 =>
      let u := s.updLane l fun x => { x with fwdPower := .off, blockLock := false, alignLock := false, deskewed := false, cdrLock := false,
                                             sleepReq := none, slots := none, lockedLaneId := none, head := none, wakeRelock := false, asm := none }
      if x.backPower == .off then laneOffCheck l u else if x.state == .active then enterLane l .aligning u else u
    | _ =>
      if x.state == .sleep then wakeForward l s
      else if x.fwdPower == .changing then s.updLane l fun x => { x with wakeAfterSleep := true }
      else if x.fwdPower == .off && x.state != .disabled then startTraining l s
      else s

/-- A back channel in SLEEP is woken by the Penori: WAKE, after the 512 FILLER blocks that leaving SLEEP sends (R115). -/
def wakeBackChannel (l : Nat) (s : State) : State := sendMsg l 0x05 1 1 s

/-- BACK_POWER_REQ: requested back-channel power (R108, R115, R127): the control lane's and the spare lane's back channels
stay awake while the stream runs; ACTIVE leaves OFF by training (R68, R108, log entry 75). -/
def execBackPowerReq (l : Fin 104) (v : Fin 3) (s : State) : Result :=
  let s := s.setReg (Obj.backPowerReq l) v.val
  let x := s.lane l
  .next <| match v.val with
    | 1 => if s.backAwake l || x.backPower != .active then s
           else (sendMsg l 0x03 1 1 s).updLane l fun x => { x with backPower := .changing, backSleepReq := some s.now }
    | 2 => if s.backAwake l then s else laneOffCheck l (s.updLane l fun x => { x with backPower := .off, backSleepReq := none })
    | _ => if x.backPower == .sleep then wakeBackChannel l s
        else if x.backPower == .changing then s.updLane l fun x => { x with backWakeAfterSleep := true }
        else if x.backPower == .off && x.state != .disabled then startTraining l s
        else s

/-- SLEEP_ACK: the camera acknowledges a SLEEP_REQ (R110), the forward one in ACTIVE (R106): the direction enters SLEEP; a WAKE that
arrived meanwhile is then performed (R114). -/
def execSleepAck (l : Fin 104) (back : Bool) (s : State) : Result :=
  let x := s.lane l
  .next <|
    if back then
      if x.backSleepReq.isSome then
        let s := s.updLane l fun x => { x with backSleepReq := none, backWakeAfterSleep := false, backPower := .sleep }
        if x.backWakeAfterSleep then wakeBackChannel l s else s
      else s
    else if x.sleepReq.isNone || x.state != .active then s
    else
      let s := enterLane l .sleep (s.updLane l fun x => { x with sleepReq := none, fwdPower := .sleep, blockLock := false,
                                                                 alignLock := false, deskewed := false, signalDetect := false, cdrLock := false, wakeAfterSleep := false,
                                                                 slots := none, head := none })
      if x.wakeAfterSleep then wakeForward l s else s

/-- LANE_SLEEP_TIMEOUT: no SLEEP_ACK within 100 µs: the direction stays ACTIVE (R111; DESIGN CHOICE, log entry 84: the back channel's
request is answered in the same way). -/
def execLaneSleepTimeout (l : Fin 104) (s : State) : Result :=
  let x := s.lane l
  let due := fun (t : Option Nat) => match t with | some t => decide (us 100 ≤ s.now - t) | none => false
  .next <| if due x.sleepReq then
      (s.updLane l fun x => { x with sleepReq := none, fwdPower := .active, wakeAfterSleep := false }).raise
        .laneSleepTimeout [l]
    else if due x.backSleepReq then
      (s.updLane l fun x => { x with backSleepReq := none, backPower := .active, backWakeAfterSleep := false }).raise
        .laneSleepTimeout [l]
    else s

/-- WAKE: a WAKE word (R112 to R114). From the camera it wakes the back channel of an active lane unless BackPowerReq is OFF;
the Penori's own wakes a sleeping forward direction. -/
def execWake (l : Fin 104) (back : Bool) (s : State) : Result :=
  let x := s.lane l
  .next <|
    if back then
      if x.state == .active && s.nat (Obj.backPowerReq l) != 2 then
        if x.backSleepReq.isSome then s.updLane l fun x => { x with backWakeAfterSleep := true }
        else if x.backPower == .sleep then wakeBack l s
        else s
      else s
    else if x.state == .sleep then wakeForward l s
    else if x.fwdPower == .changing then s.updLane l fun x => { x with wakeAfterSleep := true }
    else s

/-! ### Test patterns -/

/-- A PrbsCtl word is one the lane accepts (R118): PATTERN not reserved, INJECT_EXP 0 or 10 to 40, DURATION 1 to 60,000. -/
def prbsCtlOk (v : Nat) : Bool :=
  field v 28 2 != 3 && (field v 16 8 == 0 || (10 ≤ field v 16 8 && field v 16 8 ≤ 40)) &&
    (1 ≤ field v 0 16 && field v 0 16 ≤ 60000)

/-- What PrbsCtl holds of a written word: CHK_LOCK, INJECT_ONE and bit 24 read 0 in it (R118). -/
def prbsCtlHeld (v : Nat) : Nat := v - field v 24 3 * 2 ^ 24

/-- The checker stops: PrbsBits keeps the bits received since its lock, at 34.375 Gbaud, and PrbsErrors the errors among them, an open
value (R119; DESIGN CHOICE, log entry 85: the counts stand after the test). -/
def stopChecker (l : Nat) (s : State) : State :=
  match (s.lane l).chkSince with
  | none => s
  | some t =>
    let bits := (s.now - t) * 275 / 32
    let f := s.free (min (bits + 1) (2 ^ 32))
    ((f.2.setReg (Obj.prbsErrors l) (f.1 : Nat)).setReg (Obj.prbsBits l) (bits % 2 ^ 64 : Nat)).updLane l fun x =>
      { x with chkLock := false, chkSince := none }

/-- A test ends (R106, R120): the checker stops and the lane goes to ALIGNING, realigning as on a wake. -/
def endTest (l : Nat) (s : State) : State :=
  enterLane l .aligning ((stopChecker l s).updLane l fun x => { x with testSince := none, chkLock := false, validRun := 0 })

/-- An accepted PrbsCtl write (R117, R118): enabling the generator or the checker needs Maintenance, sends TEST_REQ and puts
the lane in TEST; both disabled ends a test. A lane in DISABLED holds the word and does no more (DESIGN CHOICE, log entry 86). -/
def prbsWrite (l v : Nat) (s : State) : State :=
  let x := s.lane l
  let on := bitAt v 31 || bitAt v 30
  if !prbsCtlOk v || (on && s.mode != .maintenance) then s else
  let s := s.setReg (Obj.prbsCtl l) (prbsCtlHeld v : Nat)
  if on then
    if x.state == .disabled then s else
    let seq := (x.testSeq + 1) % 256
    let body := pack [(0, 2, field v 28 2), (2, 1, b2n (bitAt v 30)), (3, 1, b2n (bitAt v 31)), (4, 16, field v 0 16)]
    let s := stopChecker l (sendCtl l 0x06 seq body s)
    let s := if bitAt v 31 && x.backPower != .off then s.emit (.prbs l (field v 28 2) (field v 16 8) (bitAt v 27)) else s
    let s := s.updLane l fun x => { x with testSeq := seq, testSince := some s.now, chkLock := false, blockLock := false,
                                           alignLock := false, deskewed := false, slots := none, lockedLaneId := none, head := none }
    if x.state == .test then s else enterLane l .test s
  else if x.state == .test then endTest l s
  else s

/-- PRBS_GEN_ENABLE: a PrbsCtl write that carries GEN_EN (R117, R118). -/
def execPrbsGenEnable (l : Fin 104) (ctl : BitVec 32) (s : State) : Result := .next (prbsWrite l ctl.toNat s)

/-- PRBS_CHK_ENABLE: a PrbsCtl write that carries CHK_EN (R117, R118). -/
def execPrbsChkEnable (l : Fin 104) (ctl : BitVec 32) (s : State) : Result := .next (prbsWrite l ctl.toNat s)

/-- PRBS_INJECT_ONE: INJECT_ONE inverts one generator bit of a running generator (R118). -/
def execPrbsInjectOne (l : Fin 104) (s : State) : Result :=
  let x := s.lane l
  .next <| if x.state == .test && bitAt (s.nat (Obj.prbsCtl l)) 31 && x.backPower != .off then s.emit (.prbsInject l) else s

/-- CHK_LOCK: the checker locks after 1,024 correct bits; its counts start from zero (R119). -/
def execChkLock (l : Fin 104) (s : State) : Result :=
  let x := s.lane l
  .next <| if x.state == .test && bitAt (s.nat (Obj.prbsCtl l)) 30 && !x.chkLock then
    ((s.updLane l fun x => { x with chkLock := true, chkSince := some s.now }).setReg (Obj.prbsErrors l) 0).setReg (Obj.prbsBits l) 0 else s

/-- CHK_LOCK_DROP: 64 errors in 1,024 bits drop the lock (R119): `errors.recent` counts those of the last 1,024 bits, `bits` and
`errors.total` all since the lock, which the registers then hold. -/
def execChkLockDrop (l : Fin 104) (bits : Nat) (errors : ErrorCount) (s : State) : Result :=
  let x := s.lane l
  .next <| if x.state == .test && x.chkLock && 64 ≤ errors.recent && errors.recent ≤ 1024 && errors.recent ≤ errors.total && errors.total ≤ bits then
      let s := (s.setReg (Obj.prbsErrors l) (min errors.total (maxU 32) : Nat)).setReg (Obj.prbsBits l) (bits % 2 ^ 64 : Nat)
      s.updLane l fun x => { x with chkLock := false, chkSince := none }
    else s

/-- TEST_DURATION_END: DURATION has passed: the lane goes to ALIGNING, realigning as on a wake (R106, R120). -/
def execTestDurationEnd (l : Fin 104) (s : State) : Result :=
  let x := s.lane l
  .next <| match x.testSince with
    | some t => if x.state == .test && ms (field (s.nat (Obj.prbsCtl l)) 0 16) ≤ s.now - t then endTest l s else s
    | none => s

/-- TEST_RESULT: the camera's checker count is stored (R120); SEQ echoes the TEST_REQ (R87). -/
def execTestResult (l : Fin 104) (seq : BitVec 8) (errors : BitVec 32) (s : State) : Result :=
  .next <| if seq.toNat == (s.lane l).testSeq then s.setReg (Obj.cameraPrbsErrors l) errors.toNat else s

end Sys2Proof.Machine
end

