-- ==== Sys2Proof/Machine/Position.lean ====
section
/-! DEFINITION. Timing I/O pins, position channels and compare units (chapter 07, R284 to R300 and R311 to R321). -/
namespace Sys2Proof.Machine

/-! ### Timing I/O -/

/-- FUNCTION, POLARITY, SOURCE and PULSE of a pin's TioConfig (R319). -/
def State.tioFn (s : State) (t : Nat) : Nat := field (s.nat (Obj.tioConfig t)) 26 6
def State.tioLow (s : State) (t : Nat) : Bool := bitAt (s.nat (Obj.tioConfig t)) 25
def State.tioSource (s : State) (t : Nat) : Nat := field (s.nat (Obj.tioConfig t)) 12 12
def State.tioPulse (s : State) (t : Nat) : Nat := field (s.nat (Obj.tioConfig t)) 0 12

/-- The pins with a function and a source. -/
def State.pinsOf (s : State) (fn source : Nat) : List Nat :=
  (List.range 96).filter fun t => s.tioFn t == fn && s.tioSource t == source

/-- In Safe Halt a timing I/O output stays inactive; MOTOR_ENABLE_OUT stays as it is until it is released (R616). -/
def State.tioHeld (s : State) (t : Nat) : Bool := s.power.halted && (s.tioFn t != 20 || s.power.haltAt.isNone)

/-- A pin driven to an asserted or deasserted level at an instant, with its polarity (R46, R318). -/
def driveTio (t : Nat) (on : Bool) (at_ : Nat) (s : State) : State :=
  if (s.tio t).level == on || s.tioHeld t then s
  else (s.updTio t fun x => { x with level := on }).emit (.pin .tio t (xor on (s.tioLow t)) at_)

/-- Every pin of a function and source driven to a level. -/
def drivePins (fn source : Nat) (on : Bool) (s : State) : State :=
  (s.pinsOf fn source).foldl (fun s t => driveTio t on s.now s) s

/-- A pulse of PULSE starting at an instant; a pulse in progress is prolonged (R320). PULSE counts 10 ns. -/
def pulseTio (t at_ : Nat) (s : State) : State :=
  let stop := at_ + 40 * s.tioPulse t
  (driveTio t true at_ s).updTio t fun x =>
    { x with pulseEnd := some (match x.pulseEnd with | some e => max e stop | none => stop) }

/-- The stamp in ns of an input edge that leaves its pin's stability filter now (R287, R319): the instant of the transition that began it
(R286; DEDUCED, log entry 104). -/
def State.tioStamp (s : State) (t : Nat) : Nat := (s.now - 10 * s.tioPulse t) / 4

/-- An input edge: the level at the ball and its stamp (R318). -/
def stampTio (t : Nat) (level : Bool) (s : State) : State :=
  (s.updTio t fun x => { x with level := level, lastEdge := s.tioStamp t })

/-- A pin whose function is an input. -/
def State.tioIsInput (s : State) (t : Nat) : Bool := s.tioFn t < 16

/-! ### Position prediction -/

/-- Reported position. -/
def State.extPos (s : State) (c : Nat) : Int := s.reg (Obj.extendedPosition c)

/-- The last K + 1 changes were all upward, and the latest is no older than ExtrapMaxGap (R299). -/
def State.predictValid (s : State) (c : Nat) : Bool :=
  let k := s.nat (Obj.extrapEdges c)
  let x := s.posChan c
  decide (k < x.upRun ∧ k < x.latches.length) &&
    (match x.latches.head? with
     | some e => decide (s.dt - e.2 ≤ s.nat (Obj.extrapMaxGap c))
     | none => false)

/-- e[0] and e[K] of R300. -/
def State.predictEnds (s : State) (c : Nat) : (Int × Nat) × (Int × Nat) :=
  let l := (s.posChan c).latches
  (l.getD 0 (0, 0), l.getD (s.nat (Obj.extrapEdges c)) (0, 0))

/-- The instant, in 1/4 ns, at which the transport is predicted to reach `p` (R300). -/
def State.predictInstant (s : State) (c : Nat) (p : Int) : Int :=
  let e := s.predictEnds c
  let k := s.nat (Obj.extrapEdges c)
  let span := (e.1.2 : Int) - e.2.2
  let num := (p - e.1.1 * 65536) * span * 4 + k * 32768
  (e.1.2 : Int) * 4 + num / (k * 65536)

/-- The position predicted at instant `t` in ns, in 1/65,536 counts (R300). -/
def State.predictAt (s : State) (c t : Nat) : Int :=
  let e := s.predictEnds c
  let k := s.nat (Obj.extrapEdges c)
  let span := (e.1.2 : Int) - e.2.2
  if span ≤ 0 then e.1.1 * 65536
  else e.1.1 * 65536 + (((t : Int) - e.1.2) * k * 65536 + span / 2) / span

/-- Velocity in counts/s (R299), rounded toward zero. -/
def State.velocityOf (s : State) (c : Nat) : Int :=
  let k := s.nat (Obj.extrapEdges c)
  let l := (s.posChan c).latches
  let e := s.predictEnds c
  let span := (e.1.2 : Int) - e.2.2
  if (s.posChan c).fresh ≤ k || l.length ≤ k || span ≤ 0 || s.nat (Obj.extrapMaxGap c) < s.dt - e.1.2 then 0
  else Int.tdiv ((e.1.1 - e.2.1) * 1000000000) span

/-- The FINE and POSITION of a capture at a stamp (R317): from the latched pairs in force at the stamp. -/
def State.captureAt (s : State) (c stamp : Nat) : Nat × Int × Int :=
  let pos := match (s.posChan c).latches.find? fun e => decide (e.2 ≤ stamp) with
    | some e => e.1
    | none => s.extPos c
  (stamp, if s.predictValid c then s.predictAt c stamp else pos * 65536, pos)

/-- PosCapture written (R317). -/
def writeCapture (c stamp : Nat) (s : State) : State :=
  let v := s.captureAt c stamp
  s.updPosChan c fun x => { x with capture := v }

/-! ### Compare units -/

/-- DIR of a CompareCtl word (R311). -/
def cmpDir (ctl : Nat) : Nat := field ctl 30 2

/-- CompareCtl with one field replaced. -/
def putField (v lo w x : Nat) : Nat := v - field v lo w * 2 ^ lo + (x % 2 ^ w) * 2 ^ lo

/-- `x` modulo CountsPerRev, or modulo 2^32 when that is 0. -/
def wrapCount (cpr : Nat) (x : Int) : Nat := (x % ((if cpr = 0 then 2 ^ 32 else cpr : Nat) : Int)).toNat

/-- One reported step of Count from `old` to `new`, upward or not, seen by a compare unit (R312 to R314). -/
def compareStep (k : Nat) (old new : Nat) (up : Bool) (stamp : Nat) (s : State) : State :=
  let c := k / 4
  let cpr := s.nat (Obj.countsPerRev c)
  let ctl := s.nat (Obj.compareCtl k)
  let v := s.nat (Obj.compareValue k)
  let rearm := field ctl 16 8
  if !bitAt ctl 29 then s
  else if (s.cmp k).rearm then
    let downAt := wrapCount cpr ((v : Int) - rearm)
    let upAt := wrapCount cpr ((v : Int) + rearm)
    let hit := match cmpDir ctl with
      | 0 => new == downAt
      | 1 => new == upAt
      | _ => new == downAt || new == upAt
    if hit then s.updCmp k fun x => { x with rearm := false } else s
  else
    let crossUp := up && new == v && old == wrapCount cpr ((v : Int) - 1)
    let crossDown := !up && new == v && old == wrapCount cpr ((v : Int) + 1)
    let fires := match cmpDir ctl with
      | 0 => crossUp
      | 1 => crossDown
      | _ => crossUp || crossDown
    if !fires then s
    else
      let ctl := putField (putField (putField ctl 24 1 1) 25 1 0) 0 16 (field ctl 0 16 + 1)
      let ctl := if bitAt ctl 28 then ctl else putField ctl 29 1 0
      let s := s.setReg (Obj.compareCtl k) ctl
      let s := if bitAt ctl 28 then s.updCmp k fun x => { x with rearm := true } else s
      let s := if bitAt ctl 27 then s.raise .compareHit [k, v] else s
      let s := if bitAt ctl 26 then writeCapture c stamp s else s
      -- the pulse starts 100 ns and the filter delay after the edge (R313)
      let at_ := 4 * stamp + 400 + 10 * s.nat (Obj.filterCycles c)
      (s.pinsOf 18 k).foldl (fun s t => pulseTio t at_ s) s

/-- A unit left behind by a write, or by a jump of the count (R298, R315). -/
def compareBehind (k : Nat) (s : State) : State :=
  let ctl := s.nat (Obj.compareCtl k)
  let v := s.nat (Obj.compareValue k)
  let n := s.nat (Obj.count (k / 4))
  let behind := bitAt ctl 29 && !(s.cmp k).rearm && ((cmpDir ctl == 0 && v ≤ n) || (cmpDir ctl == 1 && n ≤ v))
  if behind then (s.setReg (Obj.compareCtl k) (putField ctl 25 1 1 : Nat)).raise .compareBehind [k] else s

/-- COMPARE_WRITE: a CompareValue or CompareCtl write (R311, R315). A CompareCtl write clears FIRED; HITS and BEHIND are the
unit's own. -/
def execCompareWrite (k : Fin 64) (isCtl : Bool) (v : BitVec 32) (s : State) : Result :=
  let w := v.toNat
  .next <|
    if isCtl && (cmpDir w == 3 || field w 16 8 == 0) then s else
    let s := if isCtl then
        let hits := field (s.nat (Obj.compareCtl k)) 0 16
        (s.setReg (Obj.compareCtl k) (putField (putField (putField w 24 1 0) 25 1 0) 0 16 hits : Nat))
      else s.setReg (Obj.compareValue k) w
    let s := s.updCmp k fun x => { x with rearm := false }
    let s := s.setReg (Obj.compareCtl k) (putField (s.nat (Obj.compareCtl k)) 25 1 0 : Nat)
    compareBehind k s

/-! ### Counting -/

/-- The reported count moves by one (R291, R292, R294): Count, Revolution and ExtendedPosition, the pair latched, the
direction, and the channel's compare units. -/
def reportStep (c : Nat) (up : Bool) (stamp : Nat) (s : State) : State :=
  let cpr := s.nat (Obj.countsPerRev c)
  let old := s.nat (Obj.count c)
  let new := wrapCount cpr ((old : Int) + (if up then 1 else -1))
  let wrapped := if up then decide (new = 0) else decide (old = 0)
  let rev := s.reg (Obj.revolution c)
  let ext := s.extPos c + (if up then 1 else -1)
  let s := s.setReg (Obj.count c) new
  let s := if wrapped then s.setReg (Obj.revolution c) ((rev + (if up then 1 else -1)) % (2 ^ 32 : Nat)) else s
  let s := s.setReg (Obj.extendedPosition c) ext
  let s := s.updPosChan c fun x => { x with dirUp := up, latches := ((ext, stamp) :: x.latches).take 9, fresh := min 9 (x.fresh + 1),
                                            upRun := if up then min 9 (x.upRun + 1) else 0 }
  [4 * c, 4 * c + 1, 4 * c + 2, 4 * c + 3].foldl (fun s k => compareStep k old new up stamp s) s

/-- One decoded step, through direction hysteresis (R293). -/
def countStep (c : Nat) (up : Bool) (stamp : Nat) (s : State) : State :=
  let lag := (s.posChan c).lag
  if !s.flag (Obj.dirHysteresis c) then reportStep c up stamp s
  else if up then
    if lag = 0 then s.updPosChan c fun x => { x with lag := 1 } else reportStep c true stamp s
  else
    if lag = 0 then reportStep c false stamp s else s.updPosChan c fun x => { x with lag := 0 }

/-- The step an A or B level change makes (R284): none, up or down. -/
def decodeStep (format : Nat) (isA : Bool) (a b a' b' : Bool) : Option Bool :=
  match format with
  | 1 => if isA && a' && !a then some (!b) else none
  | 2 => if isA then (if a' && !a then some true else none) else (if b' && !b then some false else none)
  | 3 =>
    let ix := fun (x y : Bool) => match x, y with
      | false, false => 0 | true, false => 1 | true, true => 2 | false, true => 3
    if ix a' b' = (ix a b + 1) % 4 then some true
    else if (ix a' b' + 1) % 4 = ix a b then some false else none
  | _ => none

/-- `e` reduced into the range of R295. -/
def reduceError (cpr : Nat) (e : Int) : Int :=
  let m : Int := (if cpr = 0 then 2 ^ 32 else cpr : Nat)
  let r := e % m
  if m ≤ 2 * r then r - m else r

/-- A re-zero by e (R298): Count, ExtendedPosition, Revolution at the wrap, p0 of every stream triggered from the channel,
and the latched pairs; compare units the jump passed become behind, and none fires. -/
def reZero (c : Nat) (e : Int) (s : State) : State :=
  let old := s.nat (Obj.count c)
  let ic := s.nat (Obj.indexCount c)
  let rev := s.reg (Obj.revolution c)
  -- the correction passes the wrap point when the latched count plus e leaves the turn
  let wrapUp := 0 < e && decide (ic < old)
  let wrapDown := e < 0 && decide (old < ic)
  let s := s.setReg (Obj.count c) ic
  let s := s.setReg (Obj.extendedPosition c) (s.extPos c + e)
  let s := if wrapUp then s.setReg (Obj.revolution c) ((rev + 1) % (2 ^ 32 : Nat))
    else if wrapDown then s.setReg (Obj.revolution c) ((rev - 1) % (2 ^ 32 : Nat)) else s
  let s := (List.range 64).foldl (fun s st =>
    if s.nat (Obj.triggerSource st) == 1 && s.nat (Obj.triggerChannel st) == c
    then s.setReg (Obj.triggerBase st) (s.reg (Obj.triggerBase st) + e * 65536) else s) s
  let s := s.updPosChan c fun x => { x with latches := x.latches.map fun p => (p.1 + e, p.2) }
  -- a value the jump passed is behind (R298, R315), over the wrap point too
  let cpr := s.nat (Obj.countsPerRev c)
  [4 * c, 4 * c + 1, 4 * c + 2, 4 * c + 3].foldl (fun s k =>
    let v := s.nat (Obj.compareValue k)
    let ctl := s.nat (Obj.compareCtl k)
    let passed := (0 < e && decide ((wrapCount cpr ((v : Int) - old - 1) : Int) < e) && cmpDir ctl == 0) ||
      (e < 0 && decide ((wrapCount cpr ((old : Int) - 1 - v) : Int) < -e) && cmpDir ctl == 1)
    if bitAt ctl 29 && !(s.cmp k).rearm && passed then (s.setReg (Obj.compareCtl k) (putField ctl 25 1 1 : Nat)).raise .compareBehind [k]
    else s) s

/-- An index event (R295 to R298). -/
def indexEvent (c : Nat) (s : State) : State :=
  let cpr := s.nat (Obj.countsPerRev c)
  let latched := s.nat (Obj.count c)
  let e := reduceError cpr ((s.nat (Obj.indexCount c) : Int) - latched)
  let s := (s.setReg (Obj.indexLatched c) latched).setReg (Obj.indexError c) e
  let s := s.updPosChan c fun x => { x with indexSeen := true }
  if e = 0 then s
  else
    let s := (s.count (Obj.indexMismatches c)).updPosChan c fun x => { x with mismatch := true }
    let held := (s.posChan c).state == .indexHold
    let policy := s.nat (Obj.indexPolicy c)
    let small := decide (e.natAbs ≤ s.nat (Obj.indexWindow c))
    if policy == 2 && !small && !held then
      (s.updPosChan c fun x => { x with state := .indexHold }).raiseFault .indexMismatch [c, e] Kind.indexMismatch 2 c 0
        (islandOf 0 0)
    else
      let s := s.raiseFault .indexMismatch [c, e] Kind.indexMismatch 0 c 0 (islandOf 0 0)
      if held then s
      else if policy == 1 || (policy == 2 && small) then reZero c e s else s

/-- The input record of a channel: 0 A, 1 B, 2 Z. -/
def PosChan.input (x : PosChan) (i : Nat) : PosInput := if i = 0 then x.a else if i = 1 then x.b else x.z

/-- A channel with one input record replaced. -/
def PosChan.setInput (x : PosChan) (i : Nat) (v : PosInput) : PosChan :=
  if i = 0 then { x with a := v } else if i = 1 then { x with b := v } else { x with z := v }

/-- An edge accepted at an instant (R288, R291 to R295): the input takes its level; an A or B edge is decoded and counted, a Z
edge may be an index event. A channel that is off counts nothing; a faulted input has no edge (R285). -/
def acceptEdge (c i : Nat) (level : Bool) (stamp at_ : Nat) (s : State) : State :=
  let x := s.posChan c
  let v := x.input i
  let s := s.updPosChan c fun x => x.setInput i { v with level := level, late := false }
  if i = 2 then
    let s := s.updPosChan c fun x => { x with lastZ := some at_ }
    if x.state != .off && (if x.dirUp then level else !level) then indexEvent c s else s
  else
    let s := s.updPosChan c fun x => { x with lastAB := some at_ }
    let y := s.posChan c
    if x.state == .off then s
    else match decodeStep (s.nat (Obj.posFormat c)) (i = 0) x.a.level x.b.level y.a.level y.b.level with
      | none => s
      | some up => countStep c (xor up (s.flag (Obj.posInvert c))) (stamp / 4) s

/-- The acceptance instant of the edge an input's next one is checked against (R288): the last A or B edge, or the last Z. -/
def PosChan.lastEdge (x : PosChan) (i : Nat) : Option Nat := if i = 2 then x.lastZ else x.lastAB

/-- An edge refused as too early (R288): counted, marked, and raised at most once per millisecond; the input keeps its level,
and a change still standing may be accepted later. -/
def refuseEdge (c i : Nat) (at_ : Nat) (s : State) : State :=
  let x := s.posChan c
  let v := x.input i
  let s := s.updPosChan c fun x => { x.setInput i { v with late := v.passed != v.level } with edgeFault := true }
  let s := s.count (Obj.edgeFaults c)
  let quiet := match x.lastFault with | some t => decide (at_ - t < ms 1) | none => false
  if quiet then s
  else (s.updPosChan c fun x => { x with lastFault := some at_ }).raise .posEdgeFault [c, i]

/-- A transition leaves the stability filter at an instant (R287) and is checked against MinEdgeTime (R288). The return to the
kept level after a refused edge is an edge of its own and is checked the same; where it comes late enough, nothing is left to
count. -/
def leaveFilter (c i : Nat) (stamp at_ : Nat) (s : State) : State :=
  let s := s.updPosChan c fun x => x.setInput i { x.input i with passed := (x.input i).shown, pending := none }
  let x := s.posChan c
  let v := x.input i
  let early := match x.lastEdge i with
    | some t => decide (at_ - t < ns (s.nat (Obj.minEdgeTime c)))
    | none => false
  if early then refuseEdge c i at_ s
  else if v.passed == v.level then s.updPosChan c fun x => x.setInput i { v with late := false }
  else acceptEdge c i v.passed stamp at_ s

/-- The transition an input holds leaves the filter where its level has held for FilterCycles (R287). -/
def passFilter (c i : Nat) (s : State) : State :=
  match ((s.posChan c).input i).pending with
  | none => s
  | some stamp =>
    let out := stamp + 10 * s.nat (Obj.filterCycles c)
    if s.now < out then s else leaveFilter c i stamp out s

/-- POS_TRANSITION: one wire of a position input changes (R285, R286). Complementary wires present their level to the
stability filter; equal wires present the last valid one. With WireCheck 0 the receiver alone gives the level. A level whose
FilterCycles had passed has left the filter before the change, and with FilterCycles 0 the change leaves it at once. -/
def execPosTransition (c : Fin 16) (input : Fin 3) (wireN level : Bool) (s : State) : Result :=
  let s := passFilter c input s
  let v := (s.posChan c).input input
  let v := if wireN then { v with n := level } else { v with p := level }
  let check := s.nat (Obj.wireCheck c) != 0
  let equal := v.p == v.n
  let v := if check then
      (if equal then { v with agreeSince := some (v.agreeSince.getD s.now), goodSince := none }
       else { v with agreeSince := none, goodSince := if v.faulted then some (v.goodSince.getD s.now) else none })
    else { v with agreeSince := none, goodSince := none }
  let present := if check && (equal || v.faulted) then v.shown else v.p
  let v := if present == v.shown then v
    else { v with shown := present, pending := if present == v.passed then none else some s.now }
  .next <| passFilter c input (s.updPosChan c fun x => x.setInput input v)

/-- FILTER_PASS: a transition that has held for FilterCycles leaves the stability filter (R287), is checked against
MinEdgeTime (R288), decoded and counted. -/
def execFilterPass (c : Fin 16) (input : Fin 3) (s : State) : Result := .next (passFilter c input s)

/-- EDGE_LATE_ACCEPT: MinEdgeTime has passed and an input still differs from its kept level: the change is accepted with the
present instant as its stamp (R288). -/
def execEdgeLateAccept (c : Fin 16) (s : State) : Result :=
  let x := s.posChan c
  let due := fun (i : Nat) => (x.input i).late && (match x.lastEdge i with
    | some t => decide (ns (s.nat (Obj.minEdgeTime c)) ≤ s.now - t)
    | none => true)
  .next <| match [0, 1, 2].find? due with
    | none => s
    | some i => acceptEdge c i (x.input i).passed s.now s.now s

/-- A channel enabled by a PosFormat other than 0, or switched off by 0 (R284): it runs from its present levels, and its
pairs since enabling start again (R299). -/
def posFormatEnters (c : Nat) (old : Int) (s : State) : State :=
  if s.nat (Obj.posFormat c) = 0 then s.updPosChan c fun x => { x with state := .off }
  else if old = 0 then s.updPosChan c fun x => { x with state := .running, fresh := 0 }
  else s

/-- DirHysteresis 0 makes the reported count the raw count (R293): an outstanding lag is reported as a step. -/
def hysteresisEnters (c : Nat) (s : State) : State :=
  if s.flag (Obj.dirHysteresis c) || (s.posChan c).lag = 0 then s
  else reportStep c true s.dt (s.updPosChan c fun x => { x with lag := 0 })

/-- WIRE_RECOVERY: an input's wires have been complementary for WireCheck: its present level is adopted without a step, and
the channel returns to RUNNING when no input is faulted (R285). -/
def execWireRecovery (c : Fin 16) (s : State) : Result :=
  let x := s.posChan c
  let due := fun (i : Nat) => (x.input i).faulted && (match (x.input i).goodSince with
    | some t => decide (ns (s.nat (Obj.wireCheck c)) ≤ s.now - t)
    | none => false)
  .next <| match [0, 1, 2].find? due with
    | none => s
    | some i =>
      let v := x.input i
      let s := s.updPosChan c fun x => x.setInput i { v with faulted := false, goodSince := none, agreeSince := none,
                                                             shown := v.p, passed := v.p, level := v.p, pending := none,
                                                             late := false }
      let y := s.posChan c
      if [0, 1, 2].any fun i => (y.input i).faulted then s
      else s.updPosChan c fun x => { x with state := if x.state == .wireFault then .running else x.state }

/-- INDEX_REARM: a write of 1 to IndexRearm leaves INDEX_HOLD (R297). -/
def execIndexRearm (c : Fin 16) (s : State) : Result :=
  .next <| if (s.posChan c).state == .indexHold then s.updPosChan c fun x => { x with state := .running } else s

/-- A running stream takes its triggers from the channel (R776). -/
def State.channelTriggers (s : State) (c : Nat) : Bool :=
  (List.range 64).any fun st => s.streamOpen? st && s.nat (Obj.triggerSource st) == 1 && s.nat (Obj.triggerChannel st) == c

/-- POS_PRESET: a PosPreset write sets Count, Revolution and ExtendedPosition, and moves the latched pairs (R776). -/
def execPosPreset (c : Fin 16) (v : BitVec 64) (s : State) : Result :=
  .next <| if s.channelTriggers c then s
    else
      let p := signed 64 v.toNat
      let d := p - s.extPos c
      let cpr := s.nat (Obj.countsPerRev c)
      let m : Int := (if cpr = 0 then 2 ^ 32 else cpr : Nat)
      let s := s.setReg (Obj.extendedPosition c) p
      let s := s.setReg (Obj.count c) (wrapCount cpr p)
      let s := s.setReg (Obj.revolution c) ((p / m) % (2 ^ 32 : Nat))
      s.updPosChan c fun x => { x with latches := x.latches.map fun e => (e.1 + d, e.2) }

/-- LATCH_IN: an asserting edge of a LATCH_IN pin writes its channel's PosCapture (R317, R318). -/
def execLatchIn (t : Fin 96) (s : State) : Result :=
  .next <| if s.tioFn t == 1 && s.tioSource t < 16 then writeCapture (s.tioSource t) (s.tioStamp t) (stampTio t true s) else s

/-- An edge that only moves a pin's level and TioLastEdge (R318): any of an UNUSED pin, a deasserting one of LATCH_IN and EVENT_IN; the
others are commands of their own. -/
def State.plainEdge (s : State) (t : Nat) (level : Bool) : Bool := s.tioFn t == 0 || ((s.tioFn t == 1 || s.tioFn t == 4) && !level)

/-- TIO_INPUT_EDGE: an edge at an input pin that has no command of its own: its level and TioLastEdge (R318). -/
def execTioInputEdge (t : Fin 96) (level : Bool) (s : State) : Result :=
  .next <| if s.plainEdge t level then stampTio t level s else s

/-- TIO_PULSE_END: the pulse of an output pin ends (R320). -/
def execTioPulseEnd (t : Fin 96) (s : State) : Result :=
  .next <| match (s.tio t).pulseEnd with
    | some e => if e ≤ s.now then driveTio t false e (s.updTio t fun x => { x with pulseEnd := none }) else s
    | none => s

/-- A TioPulseAt write is accepted: the pin is a SCHEDULED_OUT and holds fewer than 16 instants (R321). -/
def pulseAtOk (t : Nat) (s : State) : Bool := s.tioFn t == 21 && decide ((s.tio t).instants.length < 16)

/-- TIO_PULSE_AT: an instant for a SCHEDULED_OUT pin, in ns; one already past is pulsed at once with TIO_LATE (R321). -/
def execTioPulseAt (t : Fin 96) (dt : BitVec 64) (s : State) : Result :=
  .next <| if !pulseAtOk t s then s
    else if ns dt.toNat < s.now then (pulseTio t s.now s).raise .tioLate [t]
    else s.updTio t fun x => { x with instants := insertSorted dt.toNat x.instants }

/-- SCHEDULED_PULSE: a pending instant of a SCHEDULED_OUT pin has come (R321). -/
def execScheduledPulse (t : Fin 96) (s : State) : Result :=
  .next <| match (s.tio t).instants with
    | [] => s
    | i :: rest => if ns i ≤ s.now then pulseTio t (ns i) (s.updTio t fun x => { x with instants := rest }) else s

end Sys2Proof.Machine
end

