-- ==== Sys2Proof/Machine/Motion.lean ====
section
/-! DEFINITION. Motion channels and transports (R322 to R330, R335 to R355, R773): the profile generator, the stop, back-up
and restart sequence, and the pacing loop. -/
namespace Sys2Proof.Machine

/-- Code of a motion state (R334). -/
def MotState.code : MotState → Nat
  | .off => 0 | .standstill => 1 | .moving => 2 | .stopping => 3 | .quickStopping => 4 | .fault => 5

/-- Code of a transport state (R344). -/
def TransState.code : TransState → Nat
  | .idle => 0 | .running => 1 | .stopping => 2 | .backingUp => 3
  | .stopped => 4 | .restarting => 5 | .held => 6 | .fault => 7

/-! ### Profiles -/

/-- Whole square root, `n` result bits from the top. -/
def isqrtFrom : Nat → Nat → Nat → Nat
  | 0, _, r => r
  | n + 1, x, r => let r' := r + 2 ^ n; isqrtFrom n x (if r' * r' ≤ x then r' else r)

/-- Whole square root of a number below 2^160. -/
def isqrt (x : Nat) : Nat := isqrtFrom 80 x 0

/-- One step in the scale of `Motion.pos`. -/
def stepUnit : Int := 1000000000000000000000

/-- The distance needed to stop from velocity `v ≥ 0` and acceleration `a` under limits A and J, in ticks of 100 ns (R326;
a positive acceleration is first taken to zero). -/
def stopDistance (v a A J : Nat) : Nat :=
  let v1 := v + a * a / (2 * J)
  let d1 := v * a / J + a * a * a / (3 * J * J)
  d1 + (if A * A / J ≤ v1 then v1 * v1 / (2 * A) + v1 * A / (2 * J) else v1 * isqrt (v1 / J))

/-- One integration step towards a velocity under the jerk and acceleration limits (R323): new velocity and acceleration. -/
def towardVelocity (v a vt A J : Int) : Int × Int :=
  let vend := v + a * (a.natAbs : Int) / (2 * J)
  if (vt - v).natAbs ≤ J.natAbs && a.natAbs ≤ J.natAbs then (vt, 0)
  else
    let wanted := if vend < vt then A else if vt < vend then -A else 0
    -- an acceleration beyond a lowered limit returns to it under the jerk limit (R325)
    let a' := if a ≤ wanted then min wanted (a + J) else max wanted (a - J)
    (v + a', a')

/-- The velocity the profile wants at this step (R324): towards a target position, never faster than lets it stop there. -/
def wantedVelocity (x : Motion) (target : Int) (vmax A J : Nat) : Int :=
  let e := target - x.pos
  if 0 < e then
    if e ≤ (stopDistance x.vel.toNat x.acc.toNat A J : Nat) then 0 else vmax
  else if e < 0 then
    if -e ≤ (stopDistance (-x.vel).toNat (-x.acc).toNat A J : Nat) then 0 else -(vmax : Int)
  else 0

/-! ### Motion channels -/

/-- A motion channel enters a state: MotState, and the MOTOR_ENABLE_OUT pins that name it (R318). -/
def motEnter (m : Nat) (st : MotState) (s : State) : State :=
  let s := (s.updMotion m fun x => { x with state := st }).setReg (Obj.motState m) st.code
  drivePins 20 m (st != .off && st != .fault) s

/-- The transport whose motion channel is `m` (R336); a transport of kind NONE uses none (R335). -/
def State.transportOfMotion (s : State) (m : Nat) : Option Nat :=
  (List.range 16).find? fun u => s.nat (Obj.transportMotion u) == m && s.nat (Obj.transportKind u) != 0

/-- The streams of a transport (R335), and those that are running. -/
def State.streamsOf (s : State) (u : Nat) : List Nat :=
  (List.range 64).filter fun st => s.nat (Obj.streamTransport st) == u
def State.runningOf (s : State) (u : Nat) : List Nat := (s.streamsOf u).filter fun st => s.streamOpen? st

/-- A QUICK_STOP_IN pin naming channel `m` is asserted (R773). -/
def State.quickHeld (s : State) (m : Nat) : Bool :=
  (List.range 96).any fun t =>
    s.tioFn t == 3 && (s.tioSource t == m || s.tioSource t == 16) && (s.tio t).level

/-- The Penori owns the channel: it belongs to a transport that is not IDLE (R337). -/
def State.motionOwned (s : State) (m : Nat) : Bool :=
  match s.transportOfMotion m with
  | some u => (s.trans u).state != .idle
  | none => false

/-- Host writes of MotMode, MotTarget and MotVelocity are answered with BUSY (R337, R773). -/
def State.motionBusy (s : State) (m : Nat) : Bool := s.motionOwned m || s.quickHeld m

/-- STOP: motion ends under the profile limits (R327). -/
def motStop (m : Nat) (s : State) : State :=
  let s := s.updMotion m fun x => { x with idleHold := true, moveTo := none, paceSpeed := 0 }
  match (s.motion m).state with
  | .moving => motEnter m .stopping s
  | _ => s

/-- QUICK_STOP: deceleration at MotQuickDecel without a jerk limit (R327). -/
def motQuickStop (m : Nat) (s : State) : State :=
  let s := s.updMotion m fun x => { x with idleHold := true, moveTo := none, paceSpeed := 0 }
  match (s.motion m).state with
  | .moving | .stopping => motEnter m .quickStopping (s.updMotion m fun x => { x with acc := 0 })
  | _ => s

/-- HARD_STOP: no further step (R327). -/
def motHardStop (m : Nat) (s : State) : State :=
  let s := s.updMotion m fun x => { x with idleHold := true, moveTo := none, paceSpeed := 0, vel := 0, acc := 0,
                                           braking := false }
  let s := s.setReg (Obj.commandedVelocity m) 0
  match (s.motion m).state with
  | .moving | .stopping | .quickStopping => motEnter m (if (s.motion m).offAtStop then .off else .standstill) s
  | .fault => if (s.motion m).offAtStop then motEnter m .off s else s
  | _ => s

/-- CLEAR is accepted: the channel emits no further step (R327). -/
def clearOk (m : Nat) (s : State) : Bool := (s.motion m).vel == 0

/-! ### Transports -/

/-- A transport enters a state. -/
def transEnter (u : Nat) (st : TransState) (s : State) : State := s.updTrans u fun x => { x with state := st }

/-- The gate levels of a stream's pins are held from a stop request (R354). -/
def holdGates (st : Nat) (s : State) : State :=
  if (s.seam st).holding then s
  else s.updSeam st fun x => { x with holding := true,
                                      heldPins := (s.pinsOf 2 st).filter fun t => (s.tio t).level }

/-- A stop request (R345): STOP to the motion channel, STOPPING from RUNNING or RESTARTING. Only a STOPPABLE transport stops (R335). -/
def stopRequest (u : Nat) (s : State) : State :=
  if s.nat (Obj.transportKind u) ≠ 1 then s
  else match (s.trans u).state with
  | .running | .restarting =>
    let s := (s.runningOf u).foldl (fun s st => holdGates st s) s
    let m := s.nat (Obj.transportMotion u)
    let s := s.updTrans u fun x => { x with state := .stopping, since := none }
    if m < 16 then motStop m s else s
  | _ => s

/-- Every stream of a transport has closed (R344, R611): it stops without a back-up; a transport at standstill, or without a
motion channel, is IDLE at once. -/
def transStreamsClosed (u : Nat) (s : State) : State :=
  let m := s.nat (Obj.transportMotion u)
  let moves := decide (m < 16) && s.nat (Obj.transportKind u) != 0
  let still := !moves || (s.motion m).vel == 0
  match (s.trans u).state with
  | .idle => s
  | .fault => transEnter u .idle s
  | _ =>
    let s := s.updTrans u fun x => { x with state := .stopping, since := none, clamped := false }
    let s := if moves then motStop m s else s
    if still then transEnter u .idle s else s

/-- A stream of a transport opens: RUNNING from IDLE, in paced mode at the preset in use (R344). -/
def transStreamOpened (u : Nat) (s : State) : State :=
  if (s.trans u).state != .idle then s
  else
    let k := max (s.nat (Obj.pacingMin u)) (min (s.nat (Obj.pacingMax u)) (s.nat (Obj.pacingFixed u)))
    let s := s.updTrans u fun x => { x with state := .running, preset := k, since := none,
                                            clamped := false, lastChange := s.now }
    let m := s.nat (Obj.transportMotion u)
    if 16 ≤ m || s.nat (Obj.transportKind u) = 0 then s
    else if s.quickHeld m then transEnter u .fault s
    else
      let s := s.setReg (Obj.motMode m) 3
      s.updMotion m fun x => { x with idleHold := false, paceSpeed := field (s.nat (Obj.pacingPreset u k)) 32 32 }

/-- The transport's seam is interrupted by a motion FAULT or a WIRE_FAULT (R355). -/
def seamAbort (u : Nat) (s : State) : State :=
  match (s.trans u).state with
  | .stopping | .backingUp | .stopped | .restarting | .held =>
    (transEnter u .fault s).raiseFault .seamAborted [u] Kind.seamAborted 2 u 0 (islandOf 0 0)
  | _ => s

/-- A transport goes to FAULT from any state from RUNNING to HELD (R644, R773). -/
def transFault (u : Nat) (s : State) : State :=
  match (s.trans u).state with
  | .idle | .fault => s
  | _ => transEnter u .fault s

/-- Streams the next line of which resumes after the stop: n_last + 1 (R346, R352). -/
def recordStandstill (u : Nat) (s : State) : State :=
  let c := s.nat (Obj.transportChannel u)
  let p := if c < 16 then s.extPos c else 0
  let s := (s.runningOf u).foldl (fun s st =>
    let n := (s.gen st).triggered
    let s := s.setReg (Obj.lastBeforeStop st) (((n : Int) - 1) % (2 ^ 32 : Nat))
    s.updSeam st fun x => { x with resumeLine := some n }) s
  (s.updTrans u fun x => { x with since := some s.now, pStop := p }).raise .seamStandstill [u, p]

/-- The motion channel of a transport has come to rest (R344, R346, R348): standstill of a stop, or arrival at the back-up
point. -/
def transAtRest (m : Nat) (s : State) : State :=
  match s.transportOfMotion m with
  | none => s
  | some u =>
    let x := s.trans u
    match x.state with
    | .stopping =>
      if x.since.isSome then s
      else if (s.runningOf u).isEmpty then transEnter u .idle (recordStandstill u s)
      else recordStandstill u s
    | .backingUp =>
      match x.since with
      | none =>
        -- a back-up move cut short leaves the transport short of its back-up point
        if s.reg (Obj.commandedPosition m) ≠ x.backupTo then s
        else
          let c := s.nat (Obj.transportChannel u)
          s.updTrans u fun x => { x with since := some s.now, backupPos := if c < 16 then s.extPos c else 0 }
      | some t =>
        if us (s.nat (Obj.stopDwell u)) ≤ s.now - t then
          transEnter u (if s.mode == .hold || s.target == some .hold then .held else .stopped) s
        else s
    | _ => s

/-- The FollowError of a channel (R330), exact, in 1/65,536 counts. -/
def State.followErr (s : State) (m : Nat) : Int :=
  let x := s.motion m
  (s.extPos (s.nat (Obj.followChannel m)) - x.followBase.1) * 65536 -
    (s.reg (Obj.commandedPosition m) - x.followBase.2) * s.reg (Obj.followRatio m)

/-- The FollowError as it reads, in whole counts (log entry 34: half up). -/
def State.followCounts (s : State) (m : Nat) : Int :=
  if 16 ≤ s.nat (Obj.followChannel m) then 0 else clampInt (-(2 ^ 31)) (2 ^ 31 - 1) ((s.followErr m + 32768) / 65536)

/-- The following check (R330): FAULT under QUICK_STOP, MOTION_FOLLOW_ERROR and a fault report; a seam is aborted (R355). -/
def followCheck (m : Nat) (s : State) : State :=
  if 16 ≤ s.nat (Obj.followChannel m) then s
  else
    let e := s.followCounts m
    let st := (s.motion m).state
    if (s.followErr m).natAbs ≤ 65536 * s.nat (Obj.followLimit m) || st == .fault || st == .off then s
    else
      let s := motEnter m .fault (s.updMotion m fun x => { x with braking := true, acc := 0, idleHold := true, moveTo := none })
      let s := s.raiseFault .motionFollowError [m, e] Kind.motionFollowError 2 m 0 (islandOf 0 0)
      match s.transportOfMotion m with
      | some u => seamAbort u s
      | none => s

/-- The steps between two positions, as STEP pulses of StepWidth whose asserting edges are placed in the interval (R322, R323). -/
def emitSteps (m : Nat) (p0 p1 : Int) (s : State) : State :=
  let k0 := p0 / stepUnit
  let k1 := p1 / stepUnit
  let n := (k1 - k0).natAbs
  let low := bitAt (s.nat (Obj.motPolarity m)) 0
  let s := (List.range n).foldl (fun (s : State) (i : Nat) =>
    let edge : Int := if k0 < k1 then (k0 + 1 + i) * stepUnit else (k0 - i) * stepUnit
    let at_ := s.now + (if p1 = p0 then 0 else ((edge - p0) * 400 / (p1 - p0)).toNat)
    (s.emits [.pin .step m (!low) at_, .pin .step m low (at_ + ns (s.nat (Obj.stepWidth m)))]).updMotion m
      fun x => { x with lastStep := at_ }) s
  s.setReg (Obj.commandedPosition m) (s.reg (Obj.commandedPosition m) + (k1 - k0))

/-- The instant of a motion tick is taken, and an asserted QUICK_STOP_IN pin blocks starts: its release starts nothing (R318, R773). -/
def tickTaken (m : Nat) (s : State) : State :=
  let s := s.loopRan 2 m
  if s.quickHeld m then s.updMotion m fun x => { x with idleHold := true, moveTo := none, paceSpeed := 0 } else s

/-- The velocity a channel makes for: to the target of a move, of mode 1 or 2 or of the pacing, or 0 where it is to stand (R324, R348). -/
def wantedOf (m : Nat) (s : State) : Int :=
  let x := s.motion m
  let A := s.nat (Obj.motAMax m) * 10000000
  let J := s.nat (Obj.motJMax m)
  let vmax := s.nat (Obj.motVMax m) * 100000000000000
  let limit := if x.moveTo.isSome then min vmax (x.moveSpeed * 100000000000000) else vmax
  if x.state == .fault || x.state == .stopping || x.idleHold then 0
  else match x.moveTo with
    | some t => wantedVelocity x (t * stepUnit) limit A J
    | none => match s.nat (Obj.motMode m) with
      | 1 => wantedVelocity x (s.reg (Obj.motTarget m) * stepUnit) limit A J
      | 2 => clampInt (-(vmax : Int)) vmax (s.reg (Obj.motVelocity m) * 100000000000000)
      | _ => min (vmax : Int) (x.paceSpeed * 100000000000000 : Nat)

/-- Velocity and acceleration after the next 100 ns: by the quick deceleration where the channel brakes, else within its limits
toward the wanted velocity; a reversal passes through standstill (R322, R323, R327). -/
def nextVelocity (m : Nat) (s : State) : Int × Int :=
  let x := s.motion m
  let va : Int × Int := if x.braking || x.state == .quickStopping then
      let d : Int := s.nat (Obj.motQuickDecel m) * 10000000
      (if x.vel.natAbs ≤ d.natAbs then 0 else if 0 < x.vel then x.vel - d else x.vel + d, 0)
    else towardVelocity x.vel x.acc (wantedOf m s) (s.nat (Obj.motAMax m) * 10000000) (s.nat (Obj.motJMax m))
  if (0 < x.vel && va.1 < 0) || (x.vel < 0 && 0 < va.1) then (0, 0) else va

/-- Where the profile of a channel ends within the next 100 ns with velocity and acceleration 0: the position of its target (R323). -/
def arrival (m : Nat) (va : Int × Int) (s : State) : Option Int :=
  let x := s.motion m
  let target := match x.moveTo with
    | some t => some (t * stepUnit)
    | none => if s.nat (Obj.motMode m) == 1 && !x.idleHold then some (s.reg (Obj.motTarget m) * stepUnit) else none
  target.filter fun t => x.state == .moving && decide ((t - (x.pos + va.1)).natAbs * 2 ≤ stepUnit.natAbs ∧
    va.1.natAbs ≤ 2 * (s.nat (Obj.motAMax m) * 10000000))

/-- The channel goes to position p with velocity and acceleration va: its steps are emitted, and its registers follow (R322 to R324). -/
def advance (m : Nat) (p : Int) (va : Int × Int) (arrived : Bool) (s : State) : State :=
  let s := (emitSteps m (s.motion m).pos p s).updMotion m fun x =>
    { x with pos := p, vel := va.1, acc := va.2, braking := x.braking && va.1 != 0,
             moveTo := if arrived then none else x.moveTo, idleHold := x.idleHold || (arrived && x.moveTo.isSome) }
  s.setReg (Obj.commandedVelocity m) (Int.tdiv va.1 100000000000000)

/-- The state a channel passes to after a tick: MOVING where it has left standstill, and at rest STANDSTILL or, where the disable
waits for rest, OFF (R328, R334). -/
def stateAfter (x : Motion) (still ends : Bool) : Option MotState :=
  match x.state with
  | .standstill => if still then none else some .moving
  | .moving => if still && ends then some .standstill else none
  | .stopping | .quickStopping => if still then some (if x.offAtStop then .off else .standstill) else none
  | .fault => if still && x.offAtStop then some .off else none
  | .off => none

/-- One integration of a channel's profile (R323, R324), the state it comes to (R334), the following check (R330), and standstill
and the back-up point of its transport (R346). -/
def integrate (m : Nat) (s : State) : State :=
  let x := s.motion m
  let va := nextVelocity m s
  let a := arrival m va s
  let wv := if a.isSome then ((0, 0) : Int × Int) else va
  let still := wv.1 == 0 && wv.2 == 0
  let t := advance m (a.getD (x.pos + va.1)) wv a.isSome s
  let t := match stateAfter x still (wantedOf m s == 0 || a.isSome) with
    | some st => motEnter m st t
    | none => t
  let t := followCheck m t
  if still then transAtRest m t else t

/-- MOTION_TICK: every 100 ns a channel that is not OFF is integrated; DIR changes only at standstill, DirSetup after the last
step, and DirSetup before the first (R322). -/
def execMotionTick (m : Fin 16) (s : State) : Result :=
  if (s.motion m).state == .off || !s.loopDue 2 m (ns 100) then .next s else
  let s := tickTaken m s
  let x := s.motion m
  let wanted := wantedOf m s
  let setup := ns (s.nat (Obj.dirSetup m))
  .next <| if x.vel == 0 && x.acc == 0 && wanted != 0 then
      if decide (0 < wanted) != x.dirUp then
        followCheck m <| if setup ≤ s.now - x.lastStep then
          (s.updMotion m fun x => { x with dirUp := decide (0 < wanted), dirSince := s.now }).emit
            (.pin .dir m (xor (decide (0 < wanted)) (bitAt (s.nat (Obj.motPolarity m)) 1)) s.now)
        else s
      else if s.now - x.dirSince < setup then followCheck m s
      else integrate m s
    else integrate m s

/-- MOTION_REPLAN: a write of MotMode, MotTarget, MotVelocity or a limit (subindices 2 to 8, and StepWidth's partner limits):
the channel replans from its present motion at the next step (R325); refused under R329, R337 and R773. -/
def execMotionReplan (m : Fin 16) (sub : Fin 32) (v : Int) (s : State) : Result :=
  let vmaxOk := decide (1 ≤ v ∧ v ≤ 5000000 ∧ 2 * s.reg (Obj.stepWidth m) * v ≤ 1000000000)
  .next <| match sub.val with
    | 2 => if s.motionBusy m || !decide (1 ≤ v ∧ v ≤ 3) then s
           else (s.setReg (Obj.motMode m) v).updMotion m fun x => { x with idleHold := false }
    | 3 => if s.motionBusy m then s
           else (s.setReg (Obj.motTarget m) v).updMotion m fun x => { x with idleHold := false }
    | 4 => if s.motionBusy m || !decide (v.natAbs ≤ s.nat (Obj.motVMax m)) then s
           else (s.setReg (Obj.motVelocity m) v).updMotion m fun x => { x with idleHold := false }
    | 5 => if vmaxOk then s.setReg (Obj.motVMax m) v else s
    | 6 => if decide (1 ≤ v ∧ v < 2 ^ 32) then s.setReg (Obj.motAMax m) v else s
    | 7 => if decide (1 ≤ v ∧ v < 2 ^ 32) then s.setReg (Obj.motJMax m) v else s
    | 8 => if decide (1 ≤ v ∧ v < 2 ^ 32) then s.setReg (Obj.motQuickDecel m) v else s
    | 18 => if decide (1 ≤ v ∧ v ≤ 1000000) then s.setReg (Obj.followLimit m) v else s
    | _ => s

/-- MotCommand STOP is answered with BUSY: on a channel the Penori owns (R337), but for one whose QUICK_STOP_IN pin is asserted (R773). -/
def State.stopBusy (s : State) (m : Nat) : Bool := s.motionOwned m && !s.quickHeld m

/-- MOT_STOP: MotCommand STOP (R327); BUSY on a channel the Penori owns (R337). -/
def execMotStop (m : Fin 16) (s : State) : Result := .next (if s.stopBusy m then s else motStop m s)

/-- MOT_QUICK_STOP: MotCommand QUICK_STOP (R327). -/
def execMotQuickStop (m : Fin 16) (s : State) : Result := .next (motQuickStop m s)

/-- MOT_HARD_STOP: MotCommand HARD_STOP (R327). -/
def execMotHardStop (m : Fin 16) (s : State) : Result :=
  let s := motHardStop m s
  .next (transAtRest m s)

/-- MOT_CLEAR: MotCommand CLEAR leaves FAULT for STANDSTILL once the channel emits no further step (R327); BUSY on a channel
the Penori owns, but for a transport in FAULT, whose recovery needs it (R337, R355). -/
def execMotClear (m : Fin 16) (s : State) : Result :=
  let owned := match s.transportOfMotion m with
    | some u => (s.trans u).state != .idle && (s.trans u).state != .fault
    | none => false
  .next <| if owned || (s.motion m).state != .fault || !clearOk m s then s
    else motEnter m .standstill (s.updMotion m fun x => { x with braking := false, idleHold := true })

/-- MOT_ENABLE: a MotEnable write; 1 takes the channel into use, 0 stops it and turns it OFF at standstill (R328). -/
def execMotEnable (m : Fin 16) (v : Bool) (s : State) : Result :=
  let x := s.motion m
  let s := (s.setReg (Obj.motEnable m) (b2n v)).updMotion m fun x => { x with driven := x.driven || v }
  .next <|
    if v then
      if x.state == .off then
        motEnter m .standstill (s.updMotion m fun x => { x with offAtStop := false, idleHold := true,
                                                                followBase := (s.extPos (s.nat (Obj.followChannel m)),
                                                                              s.reg (Obj.commandedPosition m)) })
      else s.updMotion m fun x => { x with offAtStop := false }
    else match x.state with
      | .moving => motEnter m .stopping (s.updMotion m fun x => { x with offAtStop := true, idleHold := true })
      | .stopping | .quickStopping => s.updMotion m fun x => { x with offAtStop := true }
      | .standstill => motEnter m .off s
      | .fault => if clearOk m s then motEnter m .off s else s.updMotion m fun x => { x with offAtStop := true }
      | .off => s

/-- An asserted QUICK_STOP_IN pin acts (R318, R773): moving channels it names execute QUICK_STOP, and their transports go to FAULT. -/
def quickStopActs (t : Nat) (s : State) : State :=
  let src := s.tioSource t
  ((List.range 16).filter fun m => src == m || src == 16).foldl (fun s m =>
    let s := motQuickStop m s
    match s.transportOfMotion m with
    | some u => transFault u s
    | none => s) s

/-- QUICK_STOP_IN_ASSERT: a QUICK_STOP_IN pin asserts. -/
def execQuickStopInAssert (t : Fin 96) (s : State) : Result :=
  .next <| if s.tioFn t != 3 then s else quickStopActs t (stampTio t true s)

/-- QUICK_STOP_IN_RELEASE: the pin deasserts; nothing starts (R773). -/
def execQuickStopInRelease (t : Fin 96) (s : State) : Result :=
  .next <| if s.tioFn t == 3 then stampTio t false s else s

/-- POS_WIRE_FAULT: an input's wires have stood at one level for longer than WireCheck (R285): its level is held, the channel
goes to WIRE_FAULT, the event and the report are made, and a seam of a transport on the channel is aborted (R355).
A channel that is off checks nothing. -/
def execPosWireFault (c : Fin 16) (s : State) : Result :=
  let x := s.posChan c
  let check := s.nat (Obj.wireCheck c)
  let due := fun (i : Nat) => x.state != .off && !(x.input i).faulted && check != 0 && (match (x.input i).agreeSince with
    | some t => decide (ns check < s.now - t)
    | none => false)
  .next <| match [0, 1, 2].find? due with
    | none => s
    | some i =>
      let v := x.input i
      let s := s.updPosChan c fun x => { x.setInput i { v with faulted := true, pending := none, late := false } with
                                                               state := .wireFault, wireFault := true }
      let s := s.count (Obj.wireFaults c)
      let s := s.raiseFault .posWireFault [c, i] Kind.posWireFault 2 (c + 256 * i) 0 (islandOf 0 0)
      (List.range 16).foldl (fun s u => if s.nat (Obj.transportChannel u) == c then seamAbort u s else s) s

/-! ### Seams and pacing -/

/-- SEAM_STOP: SeamCommand STOP is a stop request (R345). -/
def execSeamStop (u : Fin 16) (s : State) : Result := .next (stopRequest u s)

/-- The back-up move of B steps (R348) from the present commanded position. -/
def startBackup (u : Nat) (s : State) : State :=
  let m := s.nat (Obj.transportMotion u)
  let ratio := s.nat (Obj.followRatio m)
  let b : Nat := if ratio = 0 then 0 else (s.nat (Obj.backupDistance u) * 65536 + ratio - 1) / ratio
  let dest := s.reg (Obj.commandedPosition m) - b
  let s := s.updTrans u fun x => { x with state := .backingUp, since := none, backupTo := dest }
  s.updMotion m fun x => { x with idleHold := false, moveTo := some dest, moveSpeed := s.nat (Obj.backupVelocity u) }

/-- SEAM_RESTART: SeamCommand RESTART in FAULT, after CLEAR: the transport backs up from its present position (R355). -/
def execSeamRestart (u : Fin 16) (s : State) : Result :=
  let m := s.nat (Obj.transportMotion u)
  .next <| if (s.trans u).state == .fault && decide (m < 16) && (s.motion m).state == .standstill && !s.quickHeld m
    then startBackup u ((s.runningOf u).foldl (fun s st =>
      s.updSeam st fun x => { x with resumeLine := some ((s.gen st).triggered) }) s) else s

/-- BACKUP_START: StopDwell after standstill, with a stream running, the channel moves backwards (R344, R348); not where every stream is
closing (R611). -/
def execBackupStart (u : Fin 16) (s : State) : Result :=
  let x := s.trans u
  let m := s.nat (Obj.transportMotion u)
  .next <| match x.since with
    | some t =>
      if x.state == .stopping && decide (m < 16) && ((s.runningOf u).any fun st => (s.strm st).state != .closing)
          && decide (us (s.nat (Obj.stopDwell u)) ≤ s.now - t) then startBackup u s else s
    | none => s

/-- A HighWater weir of the transport's running streams is asserted. -/
def State.highWater (s : State) (u : Nat) : Bool := (s.runningOf u).any fun st => bitAt (s.ring st).weirs 0

/-- The conditions of a restart (R350). -/
def State.restartReady (s : State) (u : Nat) : Bool :=
  let x := s.trans u
  let m := s.nat (Obj.transportMotion u)
  (x.state == .stopped || x.state == .held) && decide (m < 16) && s.mode != .hold && s.target != some .hold &&
    (match x.since with | some t => decide (us (s.nat (Obj.stopDwell u)) ≤ s.now - t) | none => false) &&
    !s.highWater u && (s.motion m).state == .standstill && !s.quickHeld m

/-- RESTART_START: the restart accelerates in paced mode to the preset in use at the stop request (R350, R351). -/
def execRestartStart (u : Fin 16) (s : State) : Result :=
  .next <| if s.restartReady u then
      let m := s.nat (Obj.transportMotion u)
      let k := max (s.nat (Obj.pacingMin u)) (min (s.nat (Obj.pacingMax u)) (s.trans u).preset)
      let s := s.updTrans u fun x => { x with state := .restarting, preset := k, since := none }
      let s := s.setReg (Obj.motMode m) 3
      s.updMotion m fun x => { x with idleHold := false, moveTo := none,
                                      paceSpeed := field (s.nat (Obj.pacingPreset u k)) 32 32 }
    else s

/-- The fill of a ring in ‰ (R416). -/
def State.ringFill (s : State) (st : Nat) : Nat :=
  let r := s.ring st
  let n := s.nat (Obj.ringLines st)
  match (r.marks.map Mark.index).min? with
  | some m => if n = 0 then 0 else 1000 * (r.writeLine - m) / n
  | none => 0

/-- A preset of the pacing loop: SPEED, UP and DOWN (R338). -/
def State.preset (s : State) (u k : Nat) : Nat × Nat × Nat :=
  let v := s.nat (Obj.pacingPreset u k)
  (field v 32 32, field v 16 16, field v 0 16)

/-- The loop takes a preset (R340, R342). -/
def takePreset (u k : Nat) (s : State) : State :=
  let m := s.nat (Obj.transportMotion u)
  let s := s.updTrans u fun x => { x with preset := k, lastChange := s.now, clamped := false }
  let s := if m < 16 then s.updMotion m fun x => { x with paceSpeed := (s.preset u k).1 } else s
  s.raise .pacingPreset [u, k]

/-- With PacingMode 0 a running transport takes PacingFixed, limited to PacingMin to PacingMax (R342). -/
def paceFixed (u : Nat) (s : State) : State :=
  let k := max (s.nat (Obj.pacingMin u)) (min (s.nat (Obj.pacingMax u)) (s.nat (Obj.pacingFixed u)))
  if s.nat (Obj.pacingMode u) = 0 && (s.trans u).state == .running && k != (s.trans u).preset then takePreset u k s else s

/-- The loop holds at a bound: CLAMPED, CLAMP_DIR, and on entry PacingClamps and POLICY_CLAMP (R341). -/
def pacingHold (u : Nat) (up : Bool) (s : State) : State :=
  let x := s.trans u
  let s' := s.updTrans u fun x => { x with clamped := true, clampUp := up }
  if x.clamped && x.clampUp == up then s' else (s'.count (Obj.pacingClamps u)).raise .policyClamp [u, b2n up]

/-- PACING_EVAL: every 1 ms in RUNNING with PacingMode 1 (R340, R341). -/
def execPacingEval (u : Fin 16) (s : State) : Result :=
  let x := s.trans u
  if x.state != .running || s.nat (Obj.pacingMode u) != 1 || !s.loopDue 3 u (ms 1) then .next s else
  let s := s.loopRan 3 u
  let f := maxNat ((s.runningOf u).map s.ringFill)
  let k := x.preset
  let n := s.nat (Obj.pacingPresets u)
  let lo := s.nat (Obj.pacingMin u)
  let hi := s.nat (Obj.pacingMax u)
  .next <|
    if 1 ≤ k && (s.preset u k).2.2 ≤ f then
      if k - 1 < lo then pacingHold u false s else takePreset u (k - 1) s
    else if k + 1 < n && f ≤ (s.preset u (k + 1)).2.1 && ms (s.nat (Obj.pacingDwell u)) ≤ s.now - x.lastChange then
      if hi < k + 1 then pacingHold u true s else takePreset u (k + 1) s
    else s.updTrans u fun x => { x with clamped := false }

end Sys2Proof.Machine
end

