-- ==== Sys2Proof/Machine/Reservoir.lean ====
section
/-! DEFINITION. Reservoir rings, rewind marks and weirs, line tags, pages, the edge detector and the diverter (R405 to R443,
R358 to R361): what happens to a line when the Tag Confluence writes its tag. -/
namespace Sys2Proof.Machine

/-! ### Stripes and channels -/

/-- Stack and channel of the data unit that holds a usable address (R405). -/
def unitPlace (a : Nat) : Nat × Nat :=
  let j := a / 3840
  let u := a % 3840 / 256
  let t := if Config.oneStack then j else j / 2
  (if Config.oneStack then 0 else j % 2, (16 - t % 16 + u) % 16)

/-- The failed channels of a stack (R653), one bit each. -/
def State.failedChannels (s : State) (stack : Nat) : Nat := field (s.nat Obj.channelFailed) (16 * stack) 16

/-- The failed channels of a stack, counted. -/
def State.failedCount (s : State) (stack : Nat) : Nat :=
  ((List.range 16).filter fun i => bitAt (s.failedChannels stack) i).length

/-- A channel is out of use with no spare taken (R644). -/
def State.channelOut (s : State) (stack ch : Nat) : Bool := s.dep.channelsOut.contains (16 * stack + ch)

/-- The data units of a range of addresses that lie on a failed channel: those rebuilt from parity, and those lost because another
channel of the stack has failed too (R406), or because their own is out of use (R644). -/
def State.badUnits (s : State) (a len : Nat) : Nat × Nat :=
  let first := a / 256
  let n := (a + len + 255) / 256 - first
  let bad := (List.range n).filter fun i =>
    let p := unitPlace ((first + i) * 256)
    bitAt (s.failedChannels p.1) p.2 || s.channelOut p.1 p.2
  let lost := bad.filter fun i =>
    let p := unitPlace ((first + i) * 256)
    decide (2 ≤ s.failedCount p.1) || (List.range 16).any (s.channelOut p.1)
  (bad.length - lost.length, lost.length)

/-- Usable reservoir bytes (R446). -/
def reservoirBytes : Nat := if Config.oneStack then 24159191040 else 48318382080

/-! ### Marks, fill and weirs -/

/-- M: the smallest index held by any mark (R416). -/
def Ring.oldest (r : Ring) : Option Nat := (r.marks.map Mark.index).min?

/-- A mark placed or moved (R415). -/
def Ring.placeMark (r : Ring) (k : MarkKind) (id index : Nat) : Ring :=
  { r with marks := ⟨k, id, index⟩ :: r.marks.filter fun m => !(m.kind == k && m.id == id) }

/-- A mark removed (R415). -/
def Ring.dropMark (r : Ring) (k : MarkKind) (id : Nat) : Ring :=
  { r with marks := r.marks.filter fun m => !(m.kind == k && m.id == id) }

/-- HIGH and LOW of a weir of a ring (R418). -/
def State.weirMarks (s : State) (st w : Nat) : Nat × Nat :=
  let v := if w = 0 then s.nat (Obj.highWater st) else s.nat (Obj.ringWeir st (w - 1))
  (field v 16 16, field v 0 16)

/-- A weir's next state (R44, R45). -/
def weirNext (high low fill : Nat) (on : Bool) : Bool :=
  if high = 0 then false else if high ≤ fill then true else if fill ≤ low then false else on

/-- Lines the ring can still take before the write pointer would reach the oldest mark (R359). -/
def State.ringRoom (s : State) (st : Nat) : Nat :=
  let r := s.ring st
  match r.oldest with
  | some m => m + s.nat (Obj.ringLines st) - r.writeLine
  | none => s.nat (Obj.ringLines st)

/-- An unsigned entry as a line found it (R28), and as a page has it (R427). -/
def LineSum.nat (l : LineSum) (o : Obj) : Nat := (Table.get o.dflt l.regs o.key).toNat
def PageRec.nat (p : PageRec) (o : Obj) : Nat := (Table.get o.dflt p.regs o.key).toNat

/-- Kind of the transport a stream runs on (R335); 0 for none. -/
def State.kindOf (s : State) (st : Nat) : Nat :=
  let u := s.nat (Obj.streamTransport st)
  if u < 16 then s.nat (Obj.transportKind u) else 0

/-- The open page of a stream changed, and its record with it (R429). -/
def updPage (st : Nat) (f : PageRec → PageRec) (s : State) : State :=
  match (s.ring st).page with
  | none => s
  | some p =>
    let p := f p
    s.updRing st fun r =>
      { r with page := some p,
               records := Table.set none r.records (p.number % s.nat (Obj.pageRecordEntries st)) (some p) }

/-- The open page is diverted (R360). -/
def divertPage (st : Nat) (s : State) : State :=
  match (s.ring st).page with
  | none => s
  | some p =>
    if p.diverted then s
    else
      let s := updPage st (fun p => { p with diverted := true }) s
      let s := (s.count (Obj.pagesDiverted st)).raise .pageDiverted [st, p.number]
      drivePins 19 st true (s.updSeam st fun x => { x with divert := true, divertUntil := none })

/-- The open page is marked HOLD_FOR_FETCH and withdrawn from streaming delivery (R358), then weighed for diversion (R359). -/
def holdPage (st : Nat) (s : State) : State :=
  match (s.ring st).page with
  | none => s
  | some p =>
    let s := if p.hold then s
      else
        let s := updPage st (fun p => { p with hold := true }) s
        let s := s.updRing st fun r =>
          let r := r.placeMark .hold p.number p.firstLine
          if s.nat (Obj.deliverScope st) = 2 then r else r.placeMark .delivery 0 r.writeLine
        let s := s.updChan (s.nat (Obj.streamChannel st)) fun c => { c with withdrawn := c.desc.isSome }
        ((s.count (Obj.pagesHeld st)).raise .pageHeld [st, p.number])
    let s := s.updSeam st fun x => { x with withdrawn := true }
    let written := (((s.ring st).sums ++ (s.ring st).finished).filter fun l => l.written && decide (p.firstLine ≤ l.line)).length
    if s.ringRoom st < p.nat (Obj.expectedPageLines st) - written then divertPage st s else s

/-- The weirs of a ring evaluated at a line write or a mark move (R416, R418): pins follow them; HighWater stops a stoppable
transport (R345) or holds the page of a non-stoppable one (R358). -/
def weirEval (st : Nat) (s : State) : State :=
  [0, 1, 2, 3].foldl (fun s w =>
    let on := bitAt (s.ring st).weirs w
    let hl := s.weirMarks st w
    let on' := weirNext hl.1 hl.2 (s.ringFill st) on
    if on == on' then s
    else
      let s := s.updRing st fun r => { r with weirs := if on' then r.weirs + 2 ^ w else r.weirs - 2 ^ w }
      let s := drivePins 17 (16 * st + w) on' s
      if w = 0 && on' && s.streamOpen? st then
        match s.kindOf st with
        | 1 => stopRequest (s.nat (Obj.streamTransport st)) s
        | 2 => holdPage st s
        | _ => s
      else s) s

/-- A mark placed, moved or removed, and the weirs evaluated. -/
def moveMark (st : Nat) (f : Ring → Ring) (s : State) : State := weirEval st (s.updRing st f)

/-! ### Pages -/

/-- atan of n ÷ d in 10^-24 rad for 0 ≤ n ≤ d, by Euler's series to 90 terms (R436). -/
def atanSmall (n d : Nat) : Nat :=
  let q := n * n + d * d
  let rec go : Nat → Nat → Nat → Nat
    | 0, _, _ => 0
    | k + 1, i, term => term + go k (i + 1) (term * (2 * (i + 1)) * (n * n) / ((2 * (i + 1) + 1) * q))
  go 90 0 (n * d * 10 ^ 24 / q)

/-- π ÷ 2 in 10^-24 rad. -/
def halfPi : Nat := 1570796326794896619231322

/-- round-half-up(10^6 × atan(n ÷ d)) (R436). -/
def atanMicro (n : Int) (d : Nat) : Int :=
  let m := n.natAbs
  let v := if m ≤ d then atanSmall m d else halfPi - atanSmall d m
  let e : Nat := 10 ^ 18
  if 0 ≤ n then ((v + e / 2) / e : Nat) else -(((v + (e - 1) / 2) / e : Nat) : Int)

/-- The least-squares slope of one side: numerator and denominator (R436). -/
def slope (pts : List (Nat × Nat)) : Int × Int :=
  let n : Int := pts.length
  let sk : Int := sumNat (pts.map Prod.fst)
  let sx : Int := sumNat (pts.map Prod.snd)
  let skx : Int := sumNat (pts.map fun p => p.1 * p.2)
  let skk : Int := sumNat (pts.map fun p => p.1 * p.1)
  (n * skx - sk * sx, n * skk - sk * sk)

/-- The edge window of a stream under some settings: first and last pixel. -/
def edgeWindow (reg : Obj → Nat) (st : Nat) : Nat × Nat :=
  let w := reg (Obj.streamWidth st)
  let f := reg (Obj.edgeFirst st)
  let n := reg (Obj.edgeCount st)
  if n = 0 then (0, w - 1) else (f, f + n - 1)

/-- SKEW and SKEW_VALID of a page from its object lines in rising order: line, LEFT, RIGHT (R436). -/
def skewOf (reg : Obj → Nat) (st lead phases : Nat) (objs : List (Nat × Nat × Nat)) : Int × Bool :=
  let pts := objs.take 256
  let k := fun (l : Nat) => l / phases - lead / phases
  let win := edgeWindow reg st
  let side := reg (Obj.skewSide st)
  let free := fun (x : Nat) => x != win.1 && x != win.2
  let leftOk := side != 2 && pts.all fun p => free p.2.1
  let rightOk := side != 1 && pts.all fun p => free p.2.2
  let l := slope (pts.map fun p => (k p.1, p.2.1))
  let r := slope (pts.map fun p => (k p.1, p.2.2))
  let nd : Int × Int :=
    if leftOk && rightOk then (l.1 + r.1, 2 * l.2) else if leftOk then l else if rightOk then r else (0, 1)
  let den := nd.2 * (reg (Obj.skewScale st) : Int)
  if 16 ≤ pts.length && (leftOk || rightOk) && decide (0 < den) then (atanMicro (nd.1 * 65536) den.toNat, true) else (0, false)

/-- StoredWidth code of a width in bits (R431). -/
def widthCode (w : Nat) : Nat := (w - 8) / 2

/-- The fields a page record takes at its close from the page's lines (R431, R432, R436, R437): its L is the first in the page, its T the
last (DESIGN CHOICE, log entry 102). -/
def completePage (s : State) (st last : Nat) (p : PageRec) (sums : List LineSum) : PageRec :=
  let r := s.ring st
  let phases := p.nat (Obj.phases st)
  let ls := (sums.filter fun l => decide (p.firstLine ≤ l.line ∧ l.line ≤ last)).reverse
  let objs := ls.filterMap fun l => match l.edge with
    | some (a, b, _, true) => if l.lost then none else some (l.line, a, b)
    | _ => none
  let inside := fun (x : Nat) => decide (p.firstLine ≤ x ∧ x ≤ last)
  let lead := (r.leads.filter inside).head?
  let trail := (r.trails.filter inside).getLast?
  let valid := lead.isSome && trail.isSome
  let leadLine := lead.getD 0
  let fit := objs.filter fun (o : Nat × Nat × Nat) => decide (leadLine ≤ o.1)
  let sk := if lead.isSome then skewOf p.nat st leadLine phases fit else (0, false)
  let mc := p.nat (Obj.cropMarginCycles st)
  let mp := p.nat (Obj.cropMarginPixels st)
  let w := p.nat (Obj.streamWidth st)
  let lo := (objs.map fun (o : Nat × Nat × Nat) => o.2.1).min?.getD 0
  let hi := maxNat (objs.map fun (o : Nat × Nat × Nat) => o.2.2)
  let crop := valid && !objs.isEmpty
  { p with opened := false, lines := (ls.filter LineSum.written).length,
           dropped := (ls.filter fun l => !l.written).length, missing := (ls.filter fun l => !l.written).map LineSum.line,
           incomplete := p.incomplete || ls.any fun l => !l.written,
           anyLost := ls.any LineSum.lost, anyRepaired := ls.any LineSum.repaired, anySeam := ls.any LineSum.seam,
           lead := lead, trail := trail, edgesValid := valid, skew := sk.1, skewValid := sk.2, cropValid := crop,
           cropFirst := if crop then max p.firstLine ((leadLine / phases - mc) * phases) else 0,
           cropLast := if crop then min last ((trail.getD 0 / phases + mc + 1) * phases - 1) else 0,
           cropLeft := if crop then 4 * ((lo - mp) / 4) else 0,
           cropRight := if crop then min (w - 1) (4 * ((hi + mp + 1 + 3) / 4) - 1) else 0,
           objectLines := objs.length }

/-- The slots of the lines `first` to `last`, which are lines of a page, marked as in scope (R430). -/
def markInPage (st first last : Nat) (s : State) : State :=
  s.updRing st fun r =>
    { r with slots := r.slots.map fun p =>
             (p.1, match p.2.index with
              | some i => if first ≤ i && i ≤ last then { p.2 with inPage := true } else p.2
              | none => p.2) }

/-- The last line of the open page that is certain to be one of its lines, where `line` is the newest taken: with the edge detector, the
end of the trailing margin that a T at the last object line would leave (R425). -/
def State.certainTo (s : State) (st line : Nat) : Nat :=
  let r := s.ring st
  match r.page with
  | some p =>
    let ph := p.nat (Obj.phases st)
    if p.nat (Obj.pageMode st) = 2 then (r.lastObject / ph + p.nat (Obj.pageTrailCycles st) + 1) * ph - 1
    else match r.closeAfter with
      | some k => (k + 1) * ph - 1
      | none => line
  | none => line

/-- The open page closes at line `last` (R428): its record is completed, PAGE_CLOSED raised, a divert left to DivertHold. -/
def closePage (st last : Nat) (maxLength ended : Bool) (s : State) : State :=
  match (s.ring st).page with
  | none => s
  | some p =>
    let r := s.ring st
    let p := completePage s st last p r.sums
    let p := { p with maxLength := maxLength, endClosed := ended }
    let s := s.updRing st fun r =>
      { r with page := none, closeAfter := none, pageFloor := max r.pageFloor (last + 1),
               leads := r.leads.filter fun l => decide (last < l), trails := r.trails.filter fun l => decide (last < l),
               sums := r.sums.filter fun l => decide (last < l.line),
               records := Table.set none r.records (p.number % s.nat (Obj.pageRecordEntries st)) (some p) }
    let s := s.countWrap (Obj.pagesClosed st)
    let s := s.raise .pageClosed [st, p.number, p.firstLine, last]
    let s := markInPage st p.firstLine last s
    if p.diverted then
      let u := s.nat (Obj.streamTransport st)
      s.updSeam st fun x => { x with divertUntil := some (s.now + us (s.nat (Obj.divertHold u))) }
    else s

/-- A page opens at line `first` (R423, R429), which may lie before lines already taken; a line of it that was dropped makes it
INCOMPLETE (R417), and diverts it on a non-stoppable transport (R361). -/
def openPage (st first : Nat) (s : State) : State :=
  let r := s.ring st
  let src := (r.sums.find? fun l => l.line == first)
  let regs := (src.map LineSum.regs).getD s.dict
  let reg := fun (o : Obj) => (Table.get o.dflt regs o.key).toNat
  let p : PageRec :=
    { number := r.nextPage, firstLine := first, firstDt := (src.map LineSum.dt).getD 0, firstPos := (src.map LineSum.pos).getD 0,
      lampGen := (src.map LineSum.lampGen).getD 0, tableGen := (src.map LineSum.tableGen).getD 0,
      widthCode := widthCode (reg (Obj.storedWidth st)), compressed := reg (Obj.compression st) != 0,
      toSeal := reg (Obj.sealEnable st) != 0, regs := regs,
      incomplete := r.sums.any fun l => decide (first ≤ l.line) && !l.written }
  let s := s.updRing st fun r =>
    { r with page := some p, nextPage := (r.nextPage + 1) % 2 ^ 32,
             records := Table.set none r.records (p.number % s.nat (Obj.pageRecordEntries st)) (some p) }
  let s := markInPage st first (s.certainTo st ((s.ring st).pageNext - 1)) s
  if s.kindOf st = 2 then
    let s := if p.incomplete then divertPage st s else s
    if bitAt (s.ring st).weirs 0 then holdPage st s
    else if (s.seam st).withdrawn then
      -- streaming delivery resumes with the first page that opens after the weir deasserts (R358)
      moveMark st (fun r => if s.nat (Obj.deliverScope st) = 2 then r else r.placeMark .delivery 0 first)
        (s.updSeam st fun x => { x with withdrawn := false })
    else s
  else s

/-- A gate or leading edge opens a page at phase cycle `cyc` (R424 to R426): PageLeadCycles earlier, after the previous page,
no more than PageMaxCycles − 1 cycles earlier; an open page's trailing margin gives way first. An edge in the cycle the page before would
end after keeps that page open (DESIGN CHOICE, log entry 103). -/
def pageFrom (st cyc : Nat) (reg : Obj → Nat) (s : State) : State :=
  let phases := reg (Obj.phases st)
  let lead := min (reg (Obj.pageLeadCycles st)) (reg (Obj.pageMaxCycles st) - 1)
  let want := cyc - lead
  let r := s.ring st
  let s := match r.page, r.closeAfter with
    | some _, some _ =>
      if cyc ≤ r.coreEnd then s.updRing st fun r => { r with closeAfter := none }
      else closePage st (max want (r.coreEnd + 1) * phases - 1) false false s
    | _, _ => s
  match (s.ring st).page with
  | some _ => s
  | none =>
    let floor := (s.ring st).pageFloor
    (openPage st (max (want * phases) ((floor + phases - 1) / phases * phases)) s).updRing st fun r => { r with coreEnd := cyc }

/-- Gate events that have reached their phase cycle, at the first line of a cycle (R424): an edge acts at the first cycle, of those taken
since the previous page, whose first line has reached it; the cycle that opened a page stays inside it (R426). -/
def takeGates (st : Nat) (l : LineSum) : Nat → State → State
  | 0, s => s
  | n + 1, s =>
    match (s.ring st).gates with
    | [] => s
    | g :: rest =>
      let here : Int := if s.nat (Obj.triggerSource st) = 1 then l.pos else l.dt
      if here < g.at_ then s
      else
        let phases := l.nat (Obj.phases st)
        let past := (s.ring st).sums.filter fun x => x.line % phases == 0 && decide (g.at_ ≤ if s.nat (Obj.triggerSource st) = 1 then x.pos
          else (x.dt : Int))
        let cyc := ((past.map fun x => x.line / phases).min?).getD (l.line / phases)
        let s := s.updRing st fun r => { r with gates := rest }
        let s := if g.opens then pageFrom st cyc l.nat s
          else s.updRing st fun r =>
            let last := max r.coreEnd (cyc - 1)
            { r with closeAfter := r.page.map fun p => last + p.nat (Obj.pageTrailCycles st), coreEnd := last }
        takeGates st l n s

/-- θ in effect (R434). -/
def State.theta (s : State) (st : Nat) : Nat :=
  if s.nat (Obj.edgeThresholdMode st) = 0 then s.nat (Obj.edgeThreshold st) else s.nat (Obj.edgeThresholdNow st)

/-- The adaptive threshold after a background edge-phase line outside every page (R434). -/
def adaptTheta (st : Nat) (reg : Obj → Nat) (vals : List Nat) (s : State) : State :=
  if reg (Obj.edgeThresholdMode st) = 0 || vals.isEmpty then s
  else
    let m := (roundDiv (sumNat vals) vals.length).toNat
    let b : Int := match (s.ring st).background with
      | none => m * 256
      | some b => (b : Int) + ((m * 256 : Nat) - (b : Int)) / 16
    let c : Int := reg (Obj.edgeContrast st)
    let raw := if reg (Obj.edgePolarity st) = 0 then b / 256 - c else b / 256 + c
    let lo : Int := reg (Obj.edgeThresholdMin st)
    let hi : Int := reg (Obj.edgeThresholdMax st)
    let held := clampInt lo hi raw
    let bound := if held = raw then none else some (decide (hi < raw))
    let was := (s.ring st).threshBound
    let s := (s.setReg (Obj.edgeThresholdNow st) held).updRing st fun r =>
      { r with background := some b.toNat, threshBound := bound }
    if bound.isSome && bound != was then (s.count (Obj.edgeClamps st)).raise .policyClamp [st, b2n (bound == some true)] else s

/-- The edge detector takes an edge-phase line (R433 to R435): the line with its edge fields, and the detector after it. -/
def takeEdge (st : Nat) (l : LineSum) (s : State) : LineSum × State :=
  let phases := l.nat (Obj.phases st)
  let win := edgeWindow l.nat st
  let th := if l.nat (Obj.edgeThresholdMode st) = 0 then l.nat (Obj.edgeThreshold st) else s.nat (Obj.edgeThresholdNow st)
  let dark := l.nat (Obj.edgePolarity st) == 0
  let vals := l.tap.filter fun p => decide (win.1 ≤ p.1 ∧ p.1 ≤ win.2)
  let objs := vals.filter fun p => if dark then decide (p.2 < th) else decide (th < p.2)
  let left := (objs.map Prod.fst).min?.getD 262143
  let right := maxNat (objs.map Prod.fst)
  let object := decide (l.nat (Obj.edgeMinPixels st) ≤ objs.length) && !l.lost
  let k := l.line / phases
  let entries := (s.nat (Obj.ringLines st) + phases - 1) / phases
  let word := if l.lost then pack [(46, 18, 262143), (8, 1, 1), (0, 8, k)]
    else pack [(46, 18, left), (28, 18, right), (10, 18, min objs.length 262143), (9, 1, b2n object), (0, 8, k)]
  let l' := { l with edge := if l.lost then none else some (left, right, objs.length, object), tap := [] }
  let s := s.updRing st fun r => { r with entries := Table.set 0 r.entries (k % max entries 1) word }
  if l.lost then (l', s)
  else
    let confirm := l.nat (Obj.edgeConfirm st)
    let r := s.ring st
    if object then
      let first := if r.objRun = 0 then l.line else r.runFirst
      let run := r.objRun + 1
      let s := s.updRing st fun r => { r with objRun := run, backRun := 0, runFirst := first, lastObject := l.line }
      if run = confirm && !r.inObject then
        let s := if l.nat (Obj.pageMode st) = 2 then pageFrom st (first / phases) l.nat s else s
        (l', s.updRing st fun r => { r with inObject := true, leads := r.leads ++ [first] })
      else (l', s)
    else
      let run := r.backRun + 1
      let s := s.updRing st fun r => { r with backRun := run, objRun := 0 }
      let s := if r.page.isNone then adaptTheta st l.nat (vals.map Prod.snd) s else s
      if run = confirm && r.inObject then
        let t := r.lastObject
        let s := s.updRing st fun r => { r with inObject := false, trails := r.trails ++ [t] }
        (l', if l.nat (Obj.pageMode st) = 2 then
            s.updRing st fun r => { r with closeAfter := r.page.map fun p => t / phases + p.nat (Obj.pageTrailCycles st),
                                           coreEnd := t / phases }
          else s)
      else (l', s)

/-- The open page closes where its last cycle is one of those up to `cyc` (R422, R424, R425, R428): by its length in FIXED mode or its
trailing margin, or at PageMaxCycles, whichever comes first. -/
def closeDue (st cyc : Nat) (s : State) : State :=
  match (s.ring st).page with
  | none => s
  | some p =>
    let phases := p.nat (Obj.phases st)
    let first := p.firstLine / phases
    let longest := first + p.nat (Obj.pageMaxCycles st) - 1
    let k := if p.nat (Obj.pageMode st) = 0 then first + p.nat (Obj.pageCycles st) - 1 else ((s.ring st).closeAfter).getD (cyc + 1)
    if k ≤ cyc && k ≤ longest then closePage st ((k + 1) * phases - 1) false false s
    else if longest ≤ cyc then closePage st ((longest + 1) * phases - 1) true false s
    else s

/-- The page logic takes the next line in line order (R422 to R429, R433 to R435). -/
def takeLine (st : Nat) (l : LineSum) (s : State) : State :=
  let phases := l.nat (Obj.phases st)
  let mode := l.nat (Obj.pageMode st)
  let cyc := l.line / phases
  let firstOf := l.line % phases == 0
  let lastOf := l.line % phases == phases - 1
  let s := s.updRing st fun r => { r with sums := l :: r.sums }
  let s := if firstOf then
      let s := if mode = 1 then takeGates st l (s.ring st).gates.length s else s
      let s := if cyc = 0 then s else closeDue st (cyc - 1) s
      if mode = 0 && (s.ring st).page.isNone then openPage st l.line s else s
    else s
  let s := if l.written || (s.ring st).page.isNone then s
    else
      let s := updPage st (fun p => { p with incomplete := true }) s
      if s.kindOf st = 2 then divertPage st s else s
  let s := if l.nat (Obj.edgeEnable st) != 0 && l.phase == l.nat (Obj.edgePhase st) then
      let e := takeEdge st l s
      e.2.updRing st fun r => { r with sums := r.sums.map fun x => if x.line == l.line then e.1 else x }
    else s
  let s := match (s.ring st).page with
    | some p => markInPage st p.firstLine (s.certainTo st l.line) s
    | none => s
  if lastOf then closeDue st cyc s else s

/-- Finished lines taken in line order for as long as the next one is there. -/
def pageAdvance (st : Nat) : Nat → State → State
  | 0, s => s
  | n + 1, s =>
    let r := s.ring st
    match r.finished.find? fun l => l.line == r.pageNext with
    | none => s
    | some l =>
      let s := s.updRing st fun r =>
        { r with pageNext := r.pageNext + 1, finished := r.finished.filter fun x => x.line != l.line }
      pageAdvance st n (takeLine st l s)

/-! ### Gates -/

/-- A gate edge of a stream's GATE_IN pin, with its stamp in ns and the position at it (R424). -/
def gateEdge (st t : Nat) (level : Bool) (stamp : Nat) (x : Int) (s : State) : State :=
  let before := !(s.ring st).gatePins.isEmpty
  let s := s.updRing st fun r =>
    { r with gatePins := if level then (if r.gatePins.contains t then r.gatePins else t :: r.gatePins)
                         else r.gatePins.filter (· != t) }
  let after := !(s.ring st).gatePins.isEmpty
  if before == after || s.nat (Obj.pageMode st) != 1 then s
  else
    let at_ : Int := if s.nat (Obj.triggerSource st) = 1 then x + s.reg (Obj.gateOffset st)
      else (stamp : Int) + s.reg (Obj.gateDelay st)
    s.updRing st fun r => { r with gates := r.gates ++ [⟨after, at_⟩] }

/-- Position of a stream's channel at an instant in ns, in 1/65,536 counts (R424). -/
def State.positionAt (s : State) (st stamp : Nat) : Int :=
  let c := s.nat (Obj.triggerChannel st)
  if c < 16 then (if s.predictValid c then s.predictAt c stamp else s.extPos c * 65536) else 0

/-- GATE_IN_EDGE: an edge of a GATE_IN pin (R424), held and ignored between a stop request and the resumed line (R354). -/
def execGateInEdge (t : Fin 96) (level : Bool) (s : State) : Result :=
  let st := s.tioSource t
  if s.tioFn t != 2 || 64 ≤ st then .next s else
  let s := stampTio t level s
  .next <| if (s.seam st).holding then s
    else gateEdge st t level (s.tioStamp t) (s.positionAt st (s.tioStamp t)) s

/-- The gates held by a stop are taken again at the resumed line (R354): a level that differs from the held one acts as one
edge stamped with that line's instant. -/
def releaseGates (st stamp : Nat) (p : Int) (s : State) : State :=
  let held := (s.seam st).heldPins
  let s := s.updSeam st fun x => { x with holding := false, heldPins := [] }
  (s.pinsOf 2 st).foldl (fun s t =>
    let now := (s.tio t).level
    if held.contains t == now then s else gateEdge st t now stamp p s) s

/-- DIVERT_RELEASE: DivertHold after a diverted page's end the DIVERT_OUT pins of the transport's streams deassert (R360). -/
def execDivertRelease (u : Fin 16) (s : State) : Result :=
  .next <| (s.streamsOf u).foldl (fun s st =>
    match (s.seam st).divertUntil with
    | some t => if t ≤ s.now then
        drivePins 19 st false (s.updSeam st fun x => { x with divert := false, divertUntil := none }) else s
    | none => s) s

/-! ### Line tags -/

/-- A number saturated to a signed field of `w` bits, as its bits. -/
def satBits (w : Nat) (v : Int) : Nat := toBits w (clampInt (-(2 ^ (w - 1))) (2 ^ (w - 1) - 1) v)

/-- The 256-bit line tag of a trigger record (R419 to R421). -/
def tagOf (r : LineRec) : Nat :=
  let t := r.sched / 4
  let frac := r.sched % 4
  let flags := b2n r.lost * 2048 + b2n r.repaired * 1024 + b2n r.replaced * 512 + b2n r.seamResume * 256 +
    b2n r.lampCut * 128 + b2n r.lampUnverified * 64 + b2n r.endClosed * 32 + b2n r.normClamp * 16 +
    b2n r.driftClamp * 8 + b2n r.trigSlip * 4 + b2n r.driftLate * 2
  let pos := r.posKind != 0
  let exp := if r.lost then 0 else min (r.expMeas.getD 0) (maxU 24)
  let err := if r.lost then 0 else satBits 20 (r.startErr + frac)
  pack [(208, 48, t), (176, 32, r.line), (152, 24, exp), (132, 20, err), (92, 40, if pos then toBits 40 r.pTarget else 0),
        (76, 16, if r.posKind = 1 then satBits 16 (r.latchPos - r.pTarget / 65536) else 0),
        (52, 24, if pos then satBits 24 (r.latchDt - t) else 0),
        (34, 18, r.q), (18, 16, r.lampGen), (6, 12, flags), (2, 4, r.phase), (0, 2, r.posKind)]

/-- Output items in rising order of first pixel. -/
def insertItem (x : Nat × Bytes) : List (Nat × Bytes) → List (Nat × Bytes)
  | [] => [x]
  | y :: t => if x.1 ≤ y.1 then x :: y :: t else y :: insertItem x t

/-- The stored line: the output items in ascending pixel index, padded to 32 bytes (R242). -/
def lineBytes (r : LineRec) : Bytes :=
  padTo 32 ((r.items.foldr insertItem []).foldr (fun i acc => i.2 ++ acc) [])

/-- PENDING follows the newest line (R415), under the settings of a line. -/
def pendingMark (st : Nat) (reg : Obj → Nat) (s : State) : State :=
  let mode := reg (Obj.pageMode st)
  if mode = 0 then s
  else
    let phases := reg (Obj.phases st)
    let back := reg (Obj.pageLeadCycles st) + (if mode = 2 then reg (Obj.edgeConfirm st) else 0)
    s.updRing st fun r => r.placeMark .pending 0 (((r.writeLine - 1) / phases - back) * phases)

/-- The tag of a line is written and the line counts as written (R412), or its slot is protected and it is dropped (R417);
then pages (R422 to R429), marks (R415) and weirs (R416). -/
def writeTag (r : LineRec) (s : State) : State :=
  let st := r.stream
  let ring := s.ring st
  let n := s.nat (Obj.ringLines st)
  let guard := match ring.oldest with
    | some m => decide (m + n ≤ r.line)
    | none => false
  let sum : LineSum :=
    { line := r.line, phase := r.phase, dt := r.sched / 4, pos := if r.posKind = 0 then 0 else r.pTarget, lampGen := r.lampGen,
      written := !guard, lost := r.lost, repaired := r.repaired, seam := r.seamResume, tap := if r.lost then [] else r.tap,
      regs := r.regs, tableGen := r.tableGen }
  let s :=
    if guard then
      let s := s.count (Obj.droppedLines st)
      if ring.guardOn then s
      else (s.updRing st fun r => { r with guardOn := true }).raiseFault .reservoirGuard [st] Kind.reservoirGuard 2 st 1 (islandOf 5 0)
    else
      let fresh := s.freeCount
      let s := if r.lost then { s with freeCount := s.freeCount + 1 } else s
      let slot : RingSlot :=
        { index := some r.line, tag := tagOf r, bytes := if r.lost then [] else lineBytes r,
          undef := if r.lost then some fresh else none, width := r.nat (Obj.storedWidth st), lastPixel := r.lastPixel,
          inPage := false, compressed := r.nat (Obj.compression st) = 1, cls := r.nat (Obj.streamClass st) }
      let s := s.updRing st fun x =>
        { x with slots := Table.set {} x.slots (r.line % max n 1) slot, writeLine := max x.writeLine (r.line + 1),
                 guardOn := false }
      -- while delivery is withdrawn, lines leave the delivery scope as they are written (R415, R358)
      let s := if (s.seam st).withdrawn && s.nat (Obj.deliverScope st) != 2 then
          s.updRing st fun x => x.placeMark .delivery 0 x.writeLine else s
      s
  let s := s.updRing st fun x => { x with finished := x.finished ++ [sum] }
  let s := pageAdvance st ((s.ring st).finished.length) s
  let s := pendingMark st r.nat s
  let s := s.updStrm st fun x => { x with lines := (x.lines + 1) % 2 ^ 24,
                                          lastWritten := some (max (x.lastWritten.getD 0) r.line) }
  let s := if r.repaired then s.count (Obj.linesRepaired st) else s
  weirEval st s

/-! ### Reading the ring -/

/-- Byte `i` of a slot: tag bytes 0 to 31, then the stored line. -/
def RingSlot.byte (x : RingSlot) (i : Nat) : Byte :=
  if i < 32 then BitVec.ofNat 8 (field x.tag (8 * i) 8)
  else match x.undef with
    | some k => BitVec.ofNat 8 (Config.freeByte k (i - 32))
    | none => x.bytes.getD (i - 32) 0

/-- The slot that holds a line, if the ring still holds it. -/
def State.slotOf (s : State) (st line : Nat) : Option RingSlot :=
  let x := Table.get {} (s.ring st).slots (line % max (s.nat (Obj.ringLines st)) 1)
  if x.index == some line then some x else none

/-- Byte address of a line's slot (R412). -/
def State.slotAddr (s : State) (st line : Nat) : Nat :=
  (s.ring st).base + line % max (s.nat (Obj.ringLines st)) 1 * s.nat (Obj.slotBytes st)

/-- The 128 bytes of a page record (R431, R432). While OPEN is set, the fields R429 names read 0. -/
def pageBytes (st : Nat) (p : PageRec) : Bytes :=
  let o := fun (v : Nat) => if p.opened then 0 else v
  let flags := b2n p.opened * 32768 + b2n p.incomplete * 16384 + b2n p.hold * 8192 + b2n p.diverted * 4096 +
    b2n p.endClosed * 2048 + b2n p.maxLength * 1024 + b2n p.anyLost * 512 + b2n p.anyRepaired * 256 + b2n p.anySeam * 128 +
    o (b2n p.edgesValid * 64 + b2n p.skewValid * 32 + b2n p.cropValid * 16) + b2n p.sealed * 8 + b2n p.released * 4
  let body := pack [(576, 64, p.firstLine), (512, 64, p.firstDt), (448, 64, toBits 64 p.firstPos), (416, 32, o p.lines),
    (384, 32, o p.dropped), (352, 32, p.number), (320, 32, o (p.lead.getD (maxU 32))), (288, 32, o (p.trail.getD (maxU 32))),
    (256, 32, o (toBits 32 p.skew)), (224, 32, o p.cropFirst), (192, 32, o p.cropLast), (174, 18, o p.cropLeft),
    (156, 18, o p.cropRight), (140, 16, p.lampGen), (124, 16, p.tableGen), (118, 6, st), (115, 3, p.widthCode),
    (114, 1, b2n p.compressed), (98, 16, flags), (66, 32, o p.sealIndex), (34, 32, o p.objectLines)]
  let tail := (leBytes 80 body).drop 4 ++ ((if p.sealed then p.digest else []) ++ List.replicate 48 0).take 48
  leBytes 4 (crc32c tail) ++ tail

/-- PAGE_RELEASE: a PageRelease write removes the HOLD mark of a page, or of every held page, and sets RELEASED (R442). -/
def releasePage (st number : Nat) (s : State) : State :=
  let all := number == maxU 32
  let held := ((s.ring st).marks.filter fun m => m.kind == .hold && (all || m.id == number)).map Mark.id
  held.foldl (fun s n =>
    let s := s.updRing st fun r =>
      { r with page := r.page.map fun p => if p.number == n then { p with released := true } else p,
               records := r.records.map fun e =>
                 (e.1, e.2.map fun p => if p.number == n then { p with released := true } else p) }
    moveMark st (fun r => r.dropMark .hold n) s) s

/-- PAGE_RELEASE (R442). -/
def execPageRelease (st : Fin 64) (page : BitVec 32) (s : State) : Result := .next (releasePage st page.toNat s)

/-- A HostMark value is one the ring accepts (R443). -/
def hostMarkOk (st v : Nat) (s : State) : Bool :=
  v == maxU 64 || ((s.ring st).allocated &&
    decide ((s.ring st).writeLine - s.nat (Obj.ringLines st) ≤ v ∧ v ≤ (s.ring st).writeLine))

/-- HOST_MARK: a HostMark write places, moves or clears a HOST mark (R415, R443). -/
def execHostMark (st : Fin 64) (k : Fin 8) (v : BitVec 64) (s : State) : Result :=
  .next <| if !hostMarkOk st v.toNat s then s
    else
      let s := s.setReg (Obj.hostMark st k) v.toNat
      moveMark st (fun r => if v.toNat == maxU 64 then r.dropMark .host k else r.placeMark .host k v.toNat) s

end Sys2Proof.Machine
end

