-- ==== Sys2Proof/Machine/Crossing.lean ====
section
/-! DEFINITION. Crossing queues (R36 to R47): fill, room, weirs, the writes that wait, flushing, the reader, and the islands the queues
join (R14, R772). -/
namespace Sys2Proof.Machine

/-! ### Islands -/

/-- Rows of R14 in table order: instances and plane, coded as in R32. -/
def islandRows : List (Nat × Nat) :=
  [(1, 0), (2, 0), (104, 1), (68, 1), (4, 1), (2, 1), (1, 1), (1, 1), (4, 1), (2, 1), (1, 2), (1, 2), (1, 2), (1, 2), (1, 2), (1, 2), (1, 2)]

/-- Row and instance of R14 that an island number serves, with its plane (IslandMap, R772). -/
def islandEntry (n : Nat) : Option (Nat × Nat × Nat) :=
  (islandRows.zipIdx.flatMap fun p => (List.range p.1.1).map fun i => (p.2, i, p.1.2)).find? fun t => islandOf t.1 t.2.1 == n

/-- Plane of an island. -/
def islandPlane (n : Nat) : Nat := ((islandEntry n).map fun t => t.2.2).getD 0

/-! ### Queues -/

/-- Entries occupied, uncommitted words included (R47 FILL). -/
def Queue.fill (x : Queue) : Nat := sumNat (x.items.map QItem.words) + x.openWords

/-- Source, destination, whether it carries pixels, and whether it holds the class 0 reserve (R772). -/
def queueInfo (q : Nat) : Nat × Nat × Bool × Bool := Config.queueMap q

/-- Entries a writer of a class may still fill: class 0 may use the two reserved ones (R38, R41). -/
def Queue.room (x : Queue) (q cls : Nat) : Nat :=
  let free := Config.queueDepth q - x.fill
  if (queueInfo q).2.2.2 && cls != 0 then free - 2 else free

/-- A queue's weir after a change of its fill; the pins routed to it follow (R44, R46). -/
def queueWeirEval (q : Nat) (s : State) : State :=
  let x := s.queue q
  let hl := Config.queueWeir q
  let on := weirNext hl.1 hl.2 x.fill x.weir
  if on == x.weir then s else drivePins 16 q on (s.setQueue q { x with weir := on })

/-- A write whose handshake completes: discarded while the queue drains (R43), rewinding the item where it is bad (R40), and making it
visible with its last word (R39). -/
def Queue.take (x : Queue) (w : QWrite) : Queue :=
  if x.draining then { x with draining := !w.last }
  else if w.bad then { x with openWords := 0, openLine := none }
  else if w.last then { x with openWords := 0, openLine := none, items := x.items ++ [⟨w.cls, x.openWords + w.words, w.line⟩] }
  else { x with openWords := x.openWords + w.words, openLine := w.line }

/-- A write's handshake can complete: the queue has room for its words, or discards them (R38, R41, R43). -/
def Queue.takes (x : Queue) (q : Nat) (w : QWrite) : Bool := !x.resetting && (x.draining || decide (w.words ≤ x.room q w.cls))

/-- The writes that wait complete in order, for as long as there is room (R38); the fuel is their number. -/
def Queue.settle (q : Nat) : Nat → Queue → Queue
  | 0, x => x
  | n + 1, x =>
    match x.waiting with
    | [] => x
    | w :: t => if x.takes q w then Queue.settle q n ({ x with waiting := t }.take w) else x

/-- A queue changed: the writes that wait for its room complete, and its weir follows. -/
def queueTurn (q : Nat) (f : Queue → Queue) (s : State) : State :=
  let x := f (s.queue q)
  queueWeirEval q (s.setQueue q (x.settle q x.waiting.length))

/-- A queue flushed (R43): everything discarded, and a producer part-way through an item is drained. -/
def flushQueue (q : Nat) (s : State) : State :=
  queueTurn q (fun x => { x with items := [], openWords := 0, openLine := none, draining := x.draining || x.openWords != 0 }) s

/-- The queues that hold something, or whose writer waits. -/
def State.busyQueues (s : State) : List Nat :=
  (s.queues.filter fun p => !p.2.items.isEmpty || p.2.openWords != 0 || !p.2.waiting.isEmpty || p.2.resetting).map Prod.fst

/-- The reader of every queue takes the item at its front (R37), and a queue that was RESETTING runs again (R47); DESIGN CHOICE, log
entry 87: one item in every 1/4 ns. -/
def readQueues (s : State) : State :=
  s.busyQueues.foldl (fun s q => queueTurn q (fun x => { x with items := x.items.drop 1, resetting := false }) s) s

/-- Every queue into or out of an island is flushed. -/
def flushIsland (n : Nat) (s : State) : State :=
  (s.queues.map Prod.fst).foldl (fun s q => if (queueInfo q).1 = n || (queueInfo q).2.1 = n then flushQueue q s else s) s

/-- A queue holds items of one stream only. -/
def Queue.onlyOf (x : Queue) (st : Nat) : Bool :=
  let ls := x.items.map QItem.line ++ (if x.openWords = 0 then [] else [x.openLine])
  !ls.isEmpty && ls.all fun l => (l.map Prod.fst) == some st

/-- A stream closes: the queues that hold its items only are flushed (R43; DESIGN CHOICE, log entry 89: these). -/
def flushStream (st : Nat) (s : State) : State :=
  (s.queues.map Prod.fst).foldl (fun s q => if (s.queue q).onlyOf st then flushQueue q s else s) s

/-- A line already written is marked in its tag (R42): REPAIRED, or LOST with its pixels no longer valid. -/
def markSlot (st line : Nat) (lost : Bool) (s : State) : State :=
  let n := max (s.nat (Obj.ringLines st)) 1
  let x := Table.get {} (s.ring st).slots (line % n)
  if x.index != some line then s
  else
    let bit := if lost then 17 else 16
    let x := { x with tag := if bitAt x.tag bit then x.tag else x.tag + 2 ^ bit }
    let x := if lost then { x with undef := some s.freeCount, bytes := [] } else x
    let s := if lost then { s with freeCount := s.freeCount + 1 } else s
    s.updRing st fun r => { r with slots := Table.set {} r.slots (line % n) x }

end Sys2Proof.Machine
end

