-- ==== Sys2Proof/Machine/Lines.lean ====
section
/-! DEFINITION. Trigger records from their opening to the line's tag (R16 to R21, R208, R209, R212): matching, completion,
placeholders with LOST, the closing of a stream, and what hangs on the end of a line: the drift filter (R235 to R238),
captures (R257 to R263) and warm-up samples (R277). -/
namespace Sys2Proof.Machine

/-! ### Records -/

/-- The open record of a line. -/
def State.recOf (s : State) (st line : Nat) : Option LineRec :=
  s.records.find? fun r => r.stream == st && r.line == line
/-- The open record that carries a TRIG_SEQ. -/
def State.recBySeq (s : State) (st seq : Nat) : Option LineRec :=
  s.records.find? fun r => r.stream == st && r.seq == seq
/-- The knots of a curve slot as a line found them (R28, R29); empty for the identity of a slot never committed. -/
def LineRec.knots (r : LineRec) (slot : Nat) : List Nat := (r.tables.curves.lookup slot).getD (Table.get [] r.curves slot)
/-- The knots of a curve slot in effect for a stream. -/
def State.knots (s : State) (st slot : Nat) : List Nat := ((s.strm st).tables.curves.lookup slot).getD (Table.get [] s.curves slot)
/-- A record changed. -/
def updRec (st line : Nat) (f : LineRec → LineRec) (s : State) : State :=
  { s with records := s.records.map fun r => if r.stream == st && r.line == line then f r else r }
/-- A record closed. -/
def dropRec (st line : Nat) (s : State) : State :=
  { s with records := s.records.filter fun r => !(r.stream == st && r.line == line) }
/-- A segment of a line. -/
def Segment.of (st line : Nat) (g : Segment) : Bool := g.stream == st && g.line == line
/-- Segments of a closed record that no slice has begun leave ingest, crossbar and slice inputs. -/
def dropSegments (st line : Nat) (s : State) : State :=
  { s with ingest := s.ingest.filter fun g => !g.of st line, crossbar := s.crossbar.filter fun g => !g.of st line,
           slices := s.slices.map fun (p : Nat × Slice) =>
             (p.1, { p.2 with queue := p.2.queue.filter fun g => !g.of st line, replay := p.2.replay.filter fun g => !g.of st line,
                              c0 := p.2.c0.filter fun g => !g.of st line }) }

/-! ### Drift (R235 to R238) -/

/-- One line of a phase processed: with its mean, DriftRef, DriftRange and DriftShift, or without an update of M. -/
def Drift.process (d : Drift) : Option (Nat × Nat × Nat × Nat) → Drift
  | none => { d with processed := d.processed + 1, history := (d.history.head?.getD (65536, false) :: d.history).take 65 }
  | some (m, ref, range, shift) =>
    let m8 : Int := (m * 256 : Nat)
    let mean := match d.mean with
      | none => (m * 256)
      | some x => ((x : Int) + (m8 - x) / (2 ^ shift : Nat)).toNat
    let lo := (roundDiv (65536 * (100 - (range : Int))) 100).toNat
    let hi := (roundDiv (65536 * (100 + (range : Int))) 100).toNat
    let q := if mean = 0 then (hi, true)
      else
        let qf := (ref * 2 ^ 24 + mean / 2) / mean
        if qf < lo then (lo, true) else if hi < qf then (hi, true) else (qf, false)
    { d with mean := some mean, processed := d.processed + 1, history := (q :: d.history).take 65 }

/-- Waiting lines processed in ascending order for as long as the next one is there. -/
def Drift.advance : Nat → Drift → Drift
  | 0, d => d
  | n + 1, d =>
    match d.waiting.find? fun w => w.1 == d.processed with
    | none => d
    | some w => Drift.advance n (({ d with waiting := d.waiting.filter fun x => x.1 != w.1 }).process w.2)

/-- A line of a phase hands over its mean, or that it has none (R237, R238). -/
def driftHand (r : LineRec) (m : Option Nat) (s : State) : State :=
  s.updStrm r.stream fun x =>
    let d := Table.get {} x.drift r.phase
    let w := m.map fun v => (v, r.nat (Obj.driftRef r.stream r.phase), r.nat (Obj.driftRange r.stream), r.nat (Obj.driftShift r.stream))
    let d := { d with waiting := d.waiting ++ [(r.cycle, w)] }
    { x with drift := Table.set {} x.drift r.phase (d.advance d.waiting.length) }

/-- The window mean m of a line, rounded half up (R235); none where no window pixel was reported. -/
def LineRec.windowMean (r : LineRec) : Option Nat :=
  if r.winCount = 0 then none else some (roundDiv r.winSum r.winCount).toNat

/-! ### Captures (R257 to R263) and warm-up samples (R277) -/

/-- First line of the next phase cycle of a stream's generator. -/
def State.nextCycleLine (s : State) (st : Nat) : Nat :=
  let ph := max (s.nat (Obj.phases st)) 1
  ((s.gen st).next + ph - 1) / ph * ph

/-- The member that stands for a capture command in its commit group (R257): CalCommand of the stream. -/
def captureKey (st : Nat) : Nat := (0x5700 + st) * 256 + 1
/-- A commit group is the capture of a stream. -/
def CommitGroup.captures (g : CommitGroup) (st : Nat) : Bool := g.members.any fun m => m.1 == captureKey st

/-- A capture's group enters its stream at line `line` (R257): it takes lines from there, a white one only once the lamps are WARM
(R280). -/
def captureEnters (st line : Nat) (s : State) : State :=
  s.updCalib st fun c =>
    if c.armed || (c.state == .waitingWarm && s.warmup.state == .warm) then { c with armed := false, state := .capturing, fromLine := some line }
    else c

/-- A capture or a derivation fails (R263): STATE FAILED, RESULT, CAL_ABORTED. A DARK capture in progress lets the lamps
back at the next phase cycle (R264). -/
def failCapture (st result : Nat) (s : State) : State :=
  let n := s.nextCycleLine st
  let s := { s with groupsWaiting := s.groupsWaiting.filter fun g => !g.captures st }
  (s.updCalib st fun c =>
    { c with state := .failed, result := result, armed := false, work := [], excluded := [],
             restoreAt := if c.kind = 1 && c.state == .capturing then some n else c.restoreAt }).raise .calAborted [st, result]

/-- One pixel value taken into an accumulation record (R258). -/
def CalAcc.add (a : CalAcc) (v : Nat) (clip : Bool) : CalAcc :=
  { sumsq := a.sumsq + v * v, sum := a.sum + v, max := Nat.max a.max v, min := Nat.min a.min v,
    clips := if clip then Nat.min (a.clips + 1) 2047 else a.clips }

/-- A capture of this kind is white. -/
def Calib.white? (c : Calib) : Bool := c.kind == 2 || c.kind == 4

/-- A line lies in a page, as far as the page logic has taken it (R256). -/
def State.linePaged (s : State) (st line : Nat) : Bool := (s.slotOf st line).any RingSlot.inPage

/-- A line marked for a capture is finished with: taken, or excluded (R262, R263), or, for a GAP capture, found inside a page (R256). -/
def captureTake (r : LineRec) (s : State) : State :=
  let c := s.calib r.stream
  if !r.calTake || c.state != .capturing then s
  else
    let ph := r.phase
    let c := { c with inFlight := Table.set 0 c.inFlight ph (Table.get 0 c.inFlight ph - 1) }
    let outside := c.kind < 3 || !s.linePaged r.stream r.line
    let begun := c.fromLine.any fun f => decide (f ≤ r.line)
    let bad := r.lost || r.lampCut || r.lampUnverified || r.normClamp || (c.white? && r.bandOff)
    if !outside || !begun then s.setCalib r.stream c
    else if bad then
      let n := Table.get 0 c.excluded ph + 1
      let s := s.setCalib r.stream { c with excluded := Table.set 0 c.excluded ph n }
      if c.lines < n then failCapture r.stream 2 s else s
    else
      let p := Table.get {} c.work ph
      if c.lines ≤ p.lines then s.setCalib r.stream c
      else
        let recs := r.rawTap.foldl (fun t v => Table.set {} t v.1 ((Table.get {} t v.1).add v.2.1 v.2.2)) p.recs
        s.setCalib r.stream { c with taken := min (c.taken + 1) 65535,
                                     work := Table.set {} c.work ph
                                       { exposure := p.exposure + r.expMeas.getD 0, lines := p.lines + 1, recs := recs } }

/-- A value of a warm-up source taken into the running interval (R277); `is` picks the sources by their record. -/
def warmSample (is : Nat → Bool) (v : Int) (s : State) : State :=
  (List.range 8).foldl (fun s i =>
    if is (s.nat (Obj.warmupSource i)) then
      let a := Table.get (0, 0) s.warmup.acc i
      { s with warmup := { s.warmup with acc := Table.set (0, 0) s.warmup.acc i (a.1 + v, a.2 + 1) } }
    else s) s

/-! ### The end of a line -/

/-- A closing stream has nothing left to emit: CLOSED, its page ended with END_CLOSED (R428), its transport told (R344). -/
def closeCheck (st : Nat) (s : State) : State :=
  if (s.strm st).state != .closing || s.records.any fun r => r.stream == st then s
  else
    let s := flushStream st (s.updStrm st fun x => { x with state := .closed })
    let s := match (s.strm st).lastWritten with
      | some n => closePage st n false true s
      | none => s
    let s := s.updSeam st fun x => { x with resumeLine := none, holding := false, heldPins := [] }
    let u := s.nat (Obj.streamTransport st)
    if 16 ≤ u || !(s.runningOf u).isEmpty then s else transStreamsClosed u s

/-- A line whose pixels are all corrected: its tag is written and its record closes (R412). -/
def completeLine (r : LineRec) (s : State) : State :=
  let skip := r.lampCut || r.lampUnverified
  let s := driftHand r (if skip then none else r.windowMean) s
  let s := match r.windowMean with
    | some m => warmSample (fun v => field v 30 2 == 2 && field v 24 6 == r.stream && field v 20 4 == r.phase) m s
    | none => s
  closeCheck r.stream (dropRec r.stream r.line (captureTake r (writeTag r s)))

/-- The record closes under R19: a placeholder with LOST under its line number. -/
def loseRec (r : LineRec) (s : State) : State :=
  let r := { r with lost := true }
  let s := dropSegments r.stream r.line s
  let s := driftHand r none s
  closeCheck r.stream (dropRec r.stream r.line (captureTake r (writeTag r s)))

/-- A line emitted with LOST, if its record is still open. -/
def loseLine (st line : Nat) (s : State) : State :=
  match s.recOf st line with
  | some r => loseRec r s
  | none => s

/-- A line complete in every pixel is finished (R208). -/
def lineCheck (st line : Nat) (s : State) : State :=
  match s.recOf st line with
  | some r => if r.pixelsDone = widthOf (tribsOf r.nat st) then completeLine r s else s
  | none => s

/-- Close instant of a record (R19), 1/4 ns. -/
def LineRec.closeAt (r : LineRec) : Nat := r.sched + r.exposure + us (r.nat (Obj.lineCloseTime r.stream))

/-- A portion of a record that has not arrived complete. -/
def Part.open? (p : Part) : Bool := decide (p.got < p.need)

/-- A LANE_ID of a group with a replay or an Oxbow recovery in progress (R20). -/
def State.recovering (s : State) (g id : Nat) : Bool :=
  let q := Table.get {} (s.group g).rx id
  !q.naks.isEmpty || q.lagUntil.isSome || ((s.group g).oxbow.map Prod.fst) == some id

/-- The close of a record is deferred: it awaits a portion of a LANE_ID in recovery (R20). -/
def State.deferClose (s : State) (r : LineRec) : Bool :=
  let ts := tribsOf r.nat r.stream
  r.parts.any fun p => p.open? && match ts[p.trib]? with
    | some t => t.kind == 0 && s.recovering t.source p.portion
    | none => false

/-- Deferred records of a group's stream whose recovery has ended close under R19 (R20). -/
def closeDeferred (g : Nat) (s : State) : State :=
  match s.streamOfSource 0 g with
  | none => s
  | some (st, _) =>
    let rs := s.records.filter fun r => r.stream == st && r.deferred && !s.deferClose r
    rs.foldl (fun s r =>
      if r.parts.any Part.open? then loseLine st r.line s
      else updRec st r.line (fun x => { x with deferred := false }) s) s

/-! ### Closing a stream (R212) -/

/-- The record of the closing placeholder (R212). -/
def closingRec (s : State) (st line : Nat) : LineRec :=
  { stream := st, line := line, seq := 0, phase := line % s.nat (Obj.phases st), cycle := line / s.nat (Obj.phases st),
    sched := s.now, exposure := 0, lampGen := s.lamps.gen, regs := s.dict, tableGen := (s.ring st).tableGen, endClosed := true, lost := true }

/-- StreamEnable 0 in effect: the stream closes gracefully (R212). -/
def closeStream (st : Nat) (s : State) : State :=
  let x := s.strm st
  if x.state == .closed || x.state == .closing || x.state == .failed then s
  else
    let mine := s.records.filter fun r => r.stream == st
    let kept := mine.filter LineRec.entered
    let gone := mine.filter fun r => !r.entered
    let s := gone.foldl (fun s r => dropSegments st r.line (dropRec st r.line s)) s
    let s := { s with lamps := { s.lamps with pulses := s.lamps.pulses.filter fun p =>
                                              p.onSince.isSome || !(gone.any fun r => p.line == some (st, r.line)) } }
    let s := { s with ports := s.ports.map fun (p : Nat × Port) =>
                      (p.1, { p.2 with queue := p.2.queue.filter fun l => l.openedAt.isSome || !(gone.any fun r =>
                                       r.seq == l.seq && (tribsOf s.nat st).any fun t => t.kind == 1 && t.source == p.1) }) }
    let s := s.updStrm st fun x => { x with state := .closing, ignored := x.ignored ++ gone.map LineRec.seq }
    let s := if (s.calib st).state == .capturing || (s.calib st).state == .waitingWarm || (s.calib st).armed
      then failCapture st 1 s else s
    match x.lastEntered with
    | some hi =>
      if kept.any fun r => r.line == hi then
        updRec st hi (fun r => { r with endClosed := true }) (s.updStrm st fun x => { x with endLine := some hi })
      else
        let n := max hi (x.lastWritten.getD 0) + 1
        closeCheck st (writeTag (closingRec s st n) s)
    | none =>
      let n := match x.lastWritten with
        | some w => w + 1
        | none => x.firstLine
      closeCheck st (writeTag (closingRec s st n) s)

end Sys2Proof.Machine
end

