-- ==== Sys2Proof/Machine/Links.lean ====
section
/-! DEFINITION. Link groups and the camera protocol (R124 to R173, R771): packets in both directions, acknowledgement and
replay, the Oxbow switch, time synchronisation, trigger answers, camera registers. -/
namespace Sys2Proof.Machine

/-! ### The back channel -/

/-- Blocks of a back-channel packet: START, the content of subheader, payload and CRC, and TERM (R129). -/
def BackPacket.blocks (p : BackPacket) : Nat := 3 + (p.payload.length + 4) / 8

/-- Blocks of the packets a group holds for replay. -/
def Group.heldBlocks (x : Group) : Nat := sumNat (x.held.map BackPacket.blocks)

/-- Blocks of 64 µs of the back channel, at 65.1 Mblock/s (R60, R149). -/
def heldMost : Nat := 4166

/-- A packet on the control lane's back channel (R126), its REPLAY flag set where it is a resend (R132, R146). -/
def sendPacket (g : Nat) (p : BackPacket) (replay : Bool) (s : State) : State :=
  sendBlocks (s.ctlLane g) (packetBlocks p.ptype (if replay then 32 else 0) p.psn p.subheader p.payload) s

/-- Packets not yet started are started in order, each with the next PSN, and held until acknowledged, while 64 µs of them hold them
(R141, R148, R149); the fuel is their number. -/
def sendUnsent : Nat → Nat → State → State
  | 0, _, s => s
  | n + 1, g, s =>
    let x := s.group g
    match x.unsent with
    | [] => s
    | p :: t =>
      if heldMost < x.heldBlocks + p.blocks then s
      else
        let p := { p with psn := x.txPsn, sent := s.now }
        sendUnsent n g (sendPacket g p false
          (s.setGroup g { x with txPsn := (x.txPsn + 1) % 65536, held := x.held ++ [p], unsent := t }))

/-- A back-channel packet: after those that wait for room in the replay buffer (R126, R148, R149). -/
def sendBack (g ptype sub : Nat) (payload : Bytes) (s : State) : State :=
  let s := s.updGroup g fun x => { x with unsent := x.unsent ++ [⟨x.txPsn, ptype, sub, payload, s.now⟩] }
  sendUnsent (s.group g).unsent.length g s

/-- The 8-byte number of a subheader or payload, as it is sent. -/
def le8 (v : Nat) : Bytes := leBytes 8 v

/-- An ACK or NAK LINK_CTL block on the control lane (R140, R143). -/
def sendAck (g id psn : Nat) (nak : Bool) (s : State) : State :=
  sendMsg (s.ctlLane g) 0x10 (b2n nak * 2 ^ 20 + id * 65536 + psn % 65536) 1 s

/-- The back channels of a group's control lane and of its spare lane are woken: they stay awake while its stream runs (R127). -/
def keepAwake (g : Nat) (s : State) : State :=
  [s.ctlLane g, s.spareOf g].foldl (fun s l =>
    if (s.lane l).backPower == .sleep then wakeBackChannel l s
    else if (s.lane l).backPower == .changing then s.updLane l fun x => { x with backWakeAfterSleep := true }
    else s) s

/-- A CTL_REQ (R133, R167), the attempt counted. -/
def sendCtlReq (g : Nat) (a : CtlAccess) (s : State) : State :=
  let s := s.updGroup g fun x => { x with access := some { a with sent := s.now, attempts := a.attempts + 1 } }
  sendBack g 0x13 (pack [(32, 32, a.address), (16, 16, a.tag), (8, 8, a.count), (0, 8, b2n a.write)]) (if a.write then a.data else []) s

/-- A register access: at once, or after those in progress and waiting (R167). -/
def startAccess (g address count : Nat) (write : Bool) (data : Bytes) (proxy : Bool) (s : State) : State :=
  let tag := (s.group g).ctlTag
  let s := s.updGroup g fun x => { x with ctlTag := (tag + 1) % 65536 }
  let a : CtlAccess := ⟨address, count, write, data, tag, s.now, 0, proxy⟩
  if (s.group g).access.isSome then s.updGroup g fun x => { x with accessWait := x.accessWait ++ [a] } else sendCtlReq g a s

/-- The access in progress has ended: the next one starts. -/
def endAccess (g : Nat) (s : State) : State :=
  match (s.group g).accessWait with
  | [] => s.updGroup g fun x => { x with access := none }
  | a :: t => sendCtlReq g a (s.updGroup g fun x => { x with access := none, accessWait := t })

/-- A proxy access is in progress or waits (R173). -/
def Group.proxyBusy (x : Group) : Bool := x.access.any CtlAccess.proxy || x.accessWait.any CtlAccess.proxy

/-- A TRIG_CANCEL (R165); its CANCEL_DONE comes in order. -/
def sendCancel (g first last : Nat) (s : State) : State :=
  sendBack g 0x12 (last * 2 ^ 32 + first) [] (s.updGroup g fun x => { x with cancels := x.cancels ++ [(first, last)] })

/-- A TIME_SYNC with T1 (R157). -/
def sendTimeSync (g : Nat) (s : State) : State :=
  let id := (s.group g).syncId
  let t1 := s.now * 64
  let s := s.updGroup g fun x => { x with sync := some (id, t1), syncId := (id + 1) % 65536 }
  sendBack g 0x14 (t1 / 256) (le8 (id * 256 + t1 % 256)) s

/-! ### Receive sequences -/

/-- The receive sequence of a LANE_ID. -/
def State.rx (s : State) (g id : Nat) : RxSeq := Table.get {} (s.group g).rx id
/-- The receive sequence of a LANE_ID changed. -/
def updRx (g id : Nat) (f : RxSeq → RxSeq) (s : State) : State :=
  s.updGroup g fun x => { x with rx := Table.set {} x.rx id (f (Table.get {} x.rx id)) }

/-- The next unreceived PSN moved past those received out of order. -/
def RxSeq.settle : Nat → RxSeq → RxSeq
  | 0, q => q
  | n + 1, q =>
    if q.above.contains q.next then
      RxSeq.settle n { q with next := (q.next + 1) % 65536, above := q.above.filter (· != q.next) }
    else q

/-- PSN distance above the lowest not yet received. -/
def RxSeq.ahead (q : RxSeq) (psn : Nat) : Nat := (psn + 65536 - q.next) % 65536

/-- A PSN taken as received. -/
def RxSeq.take (q : RxSeq) (psn now : Nat) : RxSeq :=
  let q := { q with above := psn :: q.above, naks := q.naks.filter fun n => n.psn != psn,
                    ackDue := some (q.ackDue.getD now) }
  q.settle q.above.length

/-- A NAK for a PSN (R144). -/
def nakAgain (g id psn : Nat) (s : State) : State :=
  sendAck g id psn true (updRx g id (fun q =>
    { q with naks := if q.naks.any fun n => n.psn == psn then q.naks.map fun n => if n.psn == psn then { n with since := s.now } else n
                     else q.naks ++ [{ psn := psn, since := s.now }] }) s)

/-- A NAK for a skipped PSN that has none yet (R144). -/
def nakPsn (g id psn : Nat) (s : State) : State :=
  if (s.rx g id).naks.any fun n => n.psn == psn then s else nakAgain g id psn s

/-- A packet intact in itself meets its PSN sequence (R142 to R144): none where it is a duplicate or outside the window. -/
def acceptPsn (g id psn : Nat) (replay : Bool) (s : State) : State × Bool :=
  let q := s.rx g id
  let d := q.ahead psn
  if 1024 ≤ d then (if 32768 ≤ d then (s.count (Obj.duplicates g), false) else (s, false))
  else if q.above.contains psn then (s.count (Obj.duplicates g), false)
  else
    let skipped := ((List.range d).map fun i => (q.next + i) % 65536).filter fun p => !q.above.contains p
    let s := updRx g id (fun q => q.take psn s.now) s
    let s := skipped.foldl (fun s p => nakPsn g id p s) s
    (if replay then s.count (Obj.replays g) else s, true)

/-- After a packet is accepted or given up: where no replay is left for its LANE_ID, deferred records close (R20). -/
def replayEnd (g id : Nat) (s : State) : State :=
  if (s.rx g id).naks.isEmpty then closeDeferred g s else s

/-- The header of an intact packet that is no PIXEL packet, on LANE_ID 0, the control lane (R126, R142). -/
def acceptHdr (g : Nat) (h : CamHdr) (s : State) : State × Bool :=
  let r := acceptPsn g 0 h.psn.toNat h.replay s
  (replayEnd g 0 r.1, r.2)

/-! ### Lines that arrive -/

/-- The stream's table entry a source serves, with the record a sequence number names (R18). -/
def State.matchLine (s : State) (kind num seq : Nat) : Option (Nat × Nat × LineRec) :=
  match s.streamOfSource kind num with
  | none => none
  | some (st, k) => (s.recBySeq st seq).map fun r => (st, k, r)

/-- A line that matches no open record is discarded, counted and reported (R18) with its first packet or portion, but for the records
a close left (R212). -/
def unmatched (kind num seq : Nat) (s : State) : State :=
  let left := match s.streamOfSource kind num with
    | some (st, _) => (s.strm st).ignored.contains seq
    | none => false
  if left || s.strays.contains (kind, num, seq) then s
  else ({ s with strays := ((kind, num, seq) :: s.strays).take 64 }.count Obj.unmatchedLines).raise .unmatchedLine [kind, num, seq]

/-- Pixels a tributary contributes out of `[a, b)` of its own line. -/
def Trib.within (t : Trib) (a b : Nat) : Nat × Nat :=
  (max a t.first, min b (t.first + t.pixels))

/-- A run of tributary pixels from pixel `a` up as a segment of the stream (R206, R210): ascending stream index, reversed
where the tributary is. -/
def segmentOf (r : LineRec) (k : Nat) (t : Trib) (a width : Nat) (px : List Nat) : Segment :=
  let base := tribBase (tribsOf r.nat r.stream) k
  let j := a - t.first
  { stream := r.stream, line := r.line, trib := k, first := if t.reverse then base + t.pixels - j - px.length else base + j,
    width := width, pixels := if t.reverse then px.reverse else px, cls := r.nat (Obj.streamClass r.stream) }

/-- Pixels received of a portion: counted in the record, cropped to the contribution, and put before the crossbar. -/
def arrivePixels (r : LineRec) (k portion a width : Nat) (px : List Nat) (s : State) : State :=
  match (tribsOf r.nat r.stream)[k]? with
  | none => s
  | some t =>
    let w := t.within a (a + px.length)
    let n := w.2 - w.1
    if n = 0 then s
    else
      let seg := segmentOf r k t w.1 width ((px.drop (w.1 - a)).take n)
      let s := updRec r.stream r.line (fun r =>
        { r with parts := r.parts.map fun (p : Part) =>
                 if p.trib == k && p.portion == portion then { p with got := p.got + n } else p }) s
      { s with ingest := s.ingest ++ [seg] }

/-- The island of the input that a portion of a line reaches: of its lane, or of its port's converters (R49, R55). -/
def sourceIsland (src : Source) (portion : Nat) (s : State) : Nat :=
  match src with
  | .group g => islandOf 2 (s.laneOfId g portion)
  | .port p => islandOf 8 (p / 8)

/-- LINE_ARRIVED: a tributary line, or a portion of one, with its sequence number (R18): matched to an open record of a
stream its source serves, or discarded, counted and reported. -/
def execLineArrived (src : Source) (seq : BitVec 32) (portion : Fin 9) (pixels : Nat) (s : State) : Result :=
  .next <| match s.matchLine (srcKind src) (srcNum src) seq.toNat with
    | some (st, k, r) =>
      updRec st r.line (fun r =>
        { r with parts := r.parts.map fun (p : Part) =>
                 if p.trib == k && p.portion == portion.val then { p with got := max p.got (min p.need pixels) } else p,
                 lastPixel := some (s.stamp (sourceIsland src portion s)) }) s
    | none => unmatched (srcKind src) (srcNum src) seq.toNat s

/-! ### PIXEL packets (R132 to R138) -/

/-- Bits per pixel of a WIDTH code. -/
def widthBits (c : Nat) : Nat := 8 + 2 * c

/-- `n` pixels of `b` bits from a bit stream (R136). -/
def unpackPixels (b : Nat) : Nat → List Bool → List Nat
  | 0, _ => []
  | n + 1, bits => ofBits (bits.take b) :: unpackPixels b n (bits.drop b)

/-- A PIXEL packet's fields. -/
structure PixelFields where
  psn : Nat
  replay : Bool
  last : Bool
  info : Bool
  width : Nat
  length : Nat
  count : Nat
  offset : Nat
  seq : Nat
  deriving DecidableEq, Repr

/-- Header and subheader of R132 and R133. -/
def pixelFields (p : Packet) : PixelFields :=
  let b := fun i => (p.header.getD i 0).toNat
  let flags := b 1
  let sub := leNat p.subheader
  { psn := b 2 + 256 * b 3, replay := bitAt flags 5, last := bitAt flags 4, info := bitAt flags 3, width := flags % 8,
    length := b 4 + 256 * b 5, count := field sub 50 14, offset := field sub 32 18, seq := field sub 0 32 }

/-- HDR_CHK over content bytes 0 to 5 (R132). -/
def hdrOk (p : Packet) : Bool := p.header.length == 7 && crc8 (p.header.take 6) == (p.header.getD 6 0).toNat

/-- TERM length and CRC-32C of a packet (R129, R130). -/
def bodyOk (p : Packet) (f : PixelFields) : Bool :=
  p.payload.length == f.length && p.termK.val == (f.length + 4) % 8 && p.subheader.length == 8 &&
    p.crc == leBytes 4 (crc32c (p.header ++ p.subheader ++ p.payload))

/-- Pixels before an ALIGN restart inside the packet's pixel bits (R137); all of them where there is none. -/
def beforeAlign (p : Packet) (f : PixelFields) : Nat :=
  match p.alignAt with
  | none => f.count
  | some k => min f.count ((k - (if f.info then 8 else 0)) * 8 / widthBits f.width)

/-- Payload bytes the fields call for (R129, R136, R137). -/
def wantedLength (p : Packet) (f : PixelFields) : Nat :=
  let info := if f.info then 8 else 0
  let b := widthBits f.width
  match p.alignAt with
  | none => info + (f.count * b + 7) / 8
  | some k => if f.count ≤ beforeAlign p f then info + (f.count * b + 7) / 8
    else max k info + ((f.count - beforeAlign p f) * b + 7) / 8

/-- Camera pixels per line: PIXELS as read at link-up (R168). -/
def Group.cameraPixels (x : Group) : Nat := leNat ((x.identity.drop 0x38).take 4)

/-- The checks of R138. -/
def pixelOk (g id : Nat) (p : Packet) (f : PixelFields) (s : State) : Bool :=
  let per := (s.group g).cameraPixels / max (s.laneCount g) 1
  f.width ≤ 5 && 4 ≤ f.count && f.count ≤ 8192 && f.count % 4 == 0 && f.offset % 4 == 0 &&
    (!f.info || id == 0) && f.length == wantedLength p f && f.width == s.nat (Obj.pixelWidth g) &&
    decide (id * per ≤ f.offset ∧ f.offset + f.count ≤ (id + 1) * per)

/-- The pixels of an accepted PIXEL packet reach the Tag Confluence and stream joining (R18, R134, R150, R210). -/
def takePixels (g id : Nat) (p : Packet) (f : PixelFields) (s : State) : State :=
  match s.matchLine 0 g f.seq with
  | none => unmatched 0 g f.seq s
  | some (st, k, r) =>
    let body := if f.info then p.payload.drop 8 else p.payload
    let b := widthBits f.width
    let n1 := beforeAlign p f
    let cut := match p.alignAt with
      | some a => if n1 < f.count then max a (if f.info then 8 else 0) - (if f.info then 8 else 0) else body.length
      | none => body.length
    let px := unpackPixels b n1 (bitsOf (body.take cut)) ++ unpackPixels b (f.count - n1) (bitsOf (body.drop cut))
    let info := leNat (p.payload.take 8)
    let s := noteIngest (r.nat (Obj.streamClass st)) (64 * (3 + (p.payload.length + 4) / 8)) s
    let s := updRec st r.line (fun r =>
      { r with repaired := r.repaired || f.replay, lastPixel := some (s.stamp (islandOf 2 (s.laneOfId g id))),
               expMeas := if f.info && k = 0 then some (field info 0 32) else r.expMeas,
               startErr := if f.info && k = 0 then signed 32 (field info 32 32) else r.startErr }) s
    -- a segment never spans an ALIGN restart, wherever in a group it falls (log entry 31)
    let s := if n1 = 0 then s else arrivePixels r k id f.offset f.width (px.take n1) s
    if n1 < f.count then arrivePixels r k id (f.offset + n1) f.width (px.drop n1) s else s

/-! ### Acknowledgement and replay -/

/-- ACK_INTERVAL: AckInterval has passed with unacknowledged packets of a forward LANE_ID: an ACK (R143, R144). Packets above a gap stay
unacknowledged. -/
def execAckInterval (g : Fin 96) (id : Fin 9) (s : State) : Result :=
  .next <| match (s.rx g id).ackDue with
    | none => s
    | some t =>
      if s.now < t + ns (s.nat Obj.ackInterval) then s
      else sendAck g id ((s.rx g id).next + 65535) false
        (updRx g id (fun q => { q with ackDue := if q.above.isEmpty then none else some s.now }) s)

/-- REPLAY_TIMEOUT: a NAKed packet has not arrived within ReplayTimeout: the NAK again, at most twice, then REPLAY_FAIL
(R147). -/
def execReplayTimeout (g : Fin 96) (id : Fin 9) (psn : BitVec 16) (s : State) : Result :=
  .next <| match (s.rx g id).naks.find? fun n => n.psn == psn.toNat with
    | none => s
    | some n =>
      if s.now < n.since + us (s.nat Obj.replayTimeout) then s
      else if n.repeats < 2 then
        sendAck g id psn.toNat true (updRx g id (fun q =>
          { q with naks := q.naks.map fun m =>
                   if m.psn == psn.toNat then { m with since := s.now, repeats := m.repeats + 1 } else m }) s)
      else
        let s := updRx g id (fun q => q.take psn.toNat s.now) s
        let s := s.count (Obj.replayFailures g)
        let lane := s.laneOfId g id
        replayEnd g id (s.raiseFault .replayFail [g, id, psn.toNat] Kind.laneReplayFail 2 lane 1 (islandOf 2 lane))

/-- ACK: a camera's ACK or NAK of back-channel packets (R143, R149): packets up to the PSN are freed, and those that waited for the room
are sent; or one is resent. -/
def execAck (g : Fin 96) (body : BitVec 32) (s : State) : Result :=
  let v := body.toNat
  let psn := field v 0 16
  let x := s.group g
  .next <| if bitAt v 20 then
      match x.held.find? fun p => p.psn == psn with
      | some p => sendPacket g p true s
      | none => s
    else
      let above := fun (p : BackPacket) => decide (0 < (p.psn + 65536 - psn) % 65536 ∧ (p.psn + 65536 - psn) % 65536 < 32768)
      sendUnsent x.unsent.length g (s.setGroup g { x with held := x.held.filter above })

/-! ### The Oxbow switch (R151 to R155) -/

/-- A fail-over: OXBOW four times on the control lane and on the spare lane (R151); of LANE_ID 0, the spare becomes the
control lane and every packet held is resent there (R153). -/
def sendOxbow (g id : Nat) (s : State) : State :=
  let spare := s.spareOf g
  let resume := (s.rx g id).next
  let body := resume * 16 + id
  let s := sendMsg spare 0x11 body 4 (sendMsg (s.ctlLane g) 0x11 body 4 s)
  let s := s.updGroup g fun x => { x with oxbow := some (id, resume), oxbowAt := s.dt, spareReady := false, spareFor := id }
  if id = 0 then (s.group g).held.foldl (fun s p => sendPacket g p true s) s else s

/-- OXBOW_RECOVERY_END: the LANE_ID no longer lags; deferred records still missing a portion close (R20). -/
def execOxbowRecoveryEnd (g : Fin 96) (s : State) : Result :=
  .next <| closeDeferred g <| s.updGroup g fun x =>
    { x with rx := x.rx.map fun (e : Nat × RxSeq) => (e.1, { e.2 with lagUntil := none, failedOver := false }) }

/-! ### Camera registers (R167 to R170, R173) -/

/-- A register access completes (R133, R167, R173). -/
def ctlRespTaken (g address tag status : Nat) (data : Bytes) (s : State) : State :=
  match (s.group g).access with
  | none => s
  | some c =>
    if c.tag != tag || c.address != address then s
    else
      let s := if c.proxy && !c.write && status = 0 then s.updGroup g fun x => { x with camRegData := data } else s
      let s := if c.proxy then s.setReg (Obj.camRegStatus g) (if status = 0 then 2 else 4 + status : Nat) else s
      endAccess g s

/-- CTL_RESP: a register access completes (R133, R167). -/
def execCtlResp (g : Fin 96) (h : CamHdr) (address : BitVec 32) (tag : BitVec 16) (status : BitVec 8) (data : Bytes) (s : State) : Result :=
  let a := acceptHdr g h s
  .next <| if !a.2 then a.1 else ctlRespTaken g address.toNat tag.toNat status.toNat data a.1

/-- CTL_TIMEOUT: a CTL_REQ is unanswered for 1 ms; three attempts, then CTL_TIMEOUT (R167). -/
def execCtlTimeout (g : Fin 96) (s : State) : Result :=
  .next <| match (s.group g).access with
    | none => s
    | some c =>
      if s.now < c.sent + ms 1 then s
      else if c.attempts < 3 then sendCtlReq g c s
      else
        let s := if c.proxy then s.setReg (Obj.camRegStatus g) 3 else s
        endAccess g (s.raiseFault .ctlTimeout [g] Kind.ctlTimeout 2 g 1 (islandOf 2 (s.ctlLane g)))

/-- CAM_REG_READ: a CamRegOp write of 1 (R173); none starts while one is busy. -/
def execCamRegRead (g : Fin 96) (s : State) : Result :=
  .next <| if (s.group g).proxyBusy then s
    else
      let s := s.setReg (Obj.camRegStatus g) 1
      startAccess g (s.nat (Obj.camRegAddress g)) (s.nat (Obj.camRegCount g)) false [] true s

/-- CAM_REG_WRITE: a CamRegOp write of 2, of the COUNT × 4 bytes CamRegData holds; refused for CFG_WIDTH and CFG_CONTROL while the group
is UP (R173). -/
def execCamRegWrite (g : Fin 96) (s : State) : Result :=
  let a := s.nat (Obj.camRegAddress g)
  let n := s.nat (Obj.camRegCount g)
  let owned := decide (a ≤ 0x84 ∧ 0x80 < a + 4 * n)
  let up := (s.group g).state == .up || (s.group g).state == .spareInUse
  .next <| if (s.group g).proxyBusy || (s.group g).camRegData.length != 4 * n then s
    else if owned && up then s.setReg (Obj.camRegStatus g) 8
    else startAccess g a n true (s.group g).camRegData true (s.setReg (Obj.camRegStatus g) 1)

/-- The link-up checks over the registers 0x00 to 0x53 (R169). -/
def linkUpOk (g : Nat) (regs : Bytes) (s : State) : Bool :=
  let w := fun (a : Nat) => leNat ((regs.drop a).take 4)
  let n := s.laneCount g
  regs.length == 84 && w 0 / 65536 == 1 && field (w 0x40) 0 4 == n && (s.cfgLane g 8 == 255 || bitAt (w 0x40) 4) &&
    n != 0 && w 0x38 % (4 * n) == 0 && bitAt (w 0x3C) (s.nat (Obj.pixelWidth g)) &&
    decide (w 0x48 + 2000 ≤ 1000 * s.nat (Obj.triggerLead g))

/-- The CTL_REQ READ of registers 0x00 to 0x53 at link-up (R169): its answer is LINK_UP's operand (log entry 97). -/
def readIdentity (g : Nat) (s : State) : State :=
  let tag := (s.group g).ctlTag
  sendBack g 0x13 (pack [(32, 32, 0), (16, 16, tag), (8, 8, 21), (0, 8, 0)]) [] (s.updGroup g fun x => { x with ctlTag := (tag + 1) % 65536 })

/-- Every lane that carries an active LANE_ID of a group is ACTIVE. -/
def State.groupActive (s : State) (g : Nat) : Bool :=
  s.laneCount g != 0 && (List.range 8).all fun i => s.cfgLane g i == 255 || (s.lane (s.laneOfId g i)).state == .active

/-- LINK_UP: the group's lanes are active; the camera's registers are read and checked, CFG_WIDTH is written and time
synchronisation starts (R169, R170). -/
def execLinkUp (g : Fin 96) (regs : Bytes) (s : State) : Result :=
  let x := s.group g
  .next <| if x.state != .linking || x.linkChecked || !s.groupActive g then s
    else
      let s := (readIdentity g s).updGroup g fun x => { x with identity := regs }
      if linkUpOk g regs s then
        let s := s.updGroup g fun x => { x with linkChecked := true, goodSyncs := 0 }
        sendTimeSync g (startAccess g 0x80 1 true (leBytes 4 (s.nat (Obj.pixelWidth g))) false s)
      else (s.updGroup g fun x => { x with state := .failed }).raise .cameraMismatch [g]

/-! ### Time synchronisation (R157 to R161) -/

/-- TIME_SYNC: every SyncInterval on the control lane (R157). -/
def execTimeSync (g : Fin 96) (s : State) : Result :=
  .next (if (s.group g).linkChecked && s.loopDue 0 g (us (s.nat (Obj.syncInterval g))) then sendTimeSync g (s.loopRan 0 g) else s)

/-- TIME_LOCKED clears, with TIME_UNLOCK (R161). -/
def unlockTime (g : Nat) (s : State) : State :=
  let was := (s.group g).timeLocked
  let s := s.updGroup g fun x => { x with timeLocked := false, goodSyncs := 0 }
  if was then s.raiseFault .timeUnlock [g] Kind.timeUnlock 2 g 1 (islandOf 2 (s.ctlLane g)) else s

/-- A TIME_RESP's exchange (R158, R159, R161, R170). Times in 1/256 ns. -/
def timeRespTaken (g syncId t2 t3 t4 rate : Nat) (s : State) : State :=
  match (s.group g).sync with
  | none => s
  | some (id, t1) =>
    if id != syncId then s
    else
      let d1 : Int := (t2 : Int) - t1
      let d2 : Int := (t4 : Int) - t3
      let num := (d1 - d2) * 1000 - s.reg (Obj.linkAsymmetry g) * 256
      let offset := roundDiv num 32000
      let up := (s.group g).state == .up || (s.group g).state == .spareInUse
      let step := decide (16000 < offset.natAbs) || !up
      let s := s.updGroup g fun x => { x with sync := none }
      let s := (s.setReg (Obj.timeOffset g) offset).setReg (Obj.pathDelay g) (roundDiv (d1 + d2) 32)
      let s := sendBack g 0x15 (pack [(32, 32, rate), (0, 32, toBits 32 offset)]) (le8 (b2n step * 65536 + id)) s
      if 512000 < num.natAbs then unlockTime g s
      else
        let n := (s.group g).goodSyncs + 1
        let s := s.updGroup g fun x => { x with goodSyncs := min n 3, timeLocked := x.timeLocked || decide (3 ≤ n) }
        if (s.group g).timeLocked && (s.group g).state == .linking && (s.group g).linkChecked then
          (startAccess g 0x84 1 true [1, 0, 0, 0] false s).updGroup g fun x => { x with state := .up }
        else s

/-- TIME_RESP: offset and path delay (R158), TIME_CORR (R159), TIME_LOCKED (R161), and UP once locked (R170). Times in
1/256 ns; `rate` is the camera's total rate correction as the Penori estimates it, which the rules do not compute. -/
def execTimeResp (g : Fin 96) (h : CamHdr) (syncId : BitVec 16) (t2 t3 t4 : Nat) (rate : BitVec 32) (s : State) : Result :=
  let a := acceptHdr g h s
  .next <| if !a.2 then a.1 else timeRespTaken g syncId.toNat t2 t3 t4 rate.toNat a.1

/-- TIME_RESP_MISSING: no TIME_RESP within 100 µs (R157, R161). -/
def execTimeRespMissing (g : Fin 96) (s : State) : Result :=
  .next <| match (s.group g).sync with
    | none => s
    | some (_, t1) =>
      if s.now * 64 < t1 + 64 * us 100 then s
      else unlockTime g (s.updGroup g fun x => { x with sync := none })

/-! ### Camera events (R164 to R166, R171) -/

/-- A camera rejected a trigger: the line closes with LOST (R164). -/
def trigRejected (g seq reason : Nat) (s : State) : State :=
  let s := (s.count (Obj.trigRejects g)).raise .trigRejected [g, seq, reason]
  match s.matchLine 0 g seq with
  | some (st, _, r) => loseLine st r.line s
  | none => s

/-- TRIG_REJECT: the line closes with LOST (R164). -/
def execTrigReject (g : Fin 96) (h : CamHdr) (seq : BitVec 32) (reason : BitVec 16) (s : State) : Result :=
  let a := acceptHdr g h s
  .next <| if !a.2 then a.1 else trigRejected g seq.toNat reason.toNat a.1

/-- REPLAY_FULL: the camera's replay buffer is full (R148); its lines close under R19 as they fall due. -/
def execReplayFull (g : Fin 96) (h : CamHdr) (s : State) : Result := .next (acceptHdr g h s).1

/-- A cancelled line's record closes without LOST and its number is given again (R166, R306). -/
def withdrawRec (r : LineRec) (s : State) : State :=
  let s := dropRec r.stream r.line s
  let s := { s with lamps := { s.lamps with pulses := s.lamps.pulses.filter fun p =>
                                            !(p.line == some (r.stream, r.line)) || p.onSince.isSome } }
  let s := if r.calTake then s.updCalib r.stream fun c =>
    { c with inFlight := Table.set 0 c.inFlight r.phase (Table.get 0 c.inFlight r.phase - 1) } else s
  s.updGen r.stream fun x => { x with next := min x.next r.line, triggered := min x.triggered r.line }

/-- A line kept although off its target (R306): TRIGGER_SLIP, TriggerSlips, POS_TRIGGER_SLIP. -/
def slipRec (r : LineRec) (s : State) : State :=
  (updRec r.stream r.line (fun r => { r with trigSlip := true }) (s.count (Obj.triggerSlips r.stream))).raise
    .posTriggerSlip [r.stream, r.line]

/-- A record all of whose groups have answered a TRIG_CANCEL: kept where one kept it, withdrawn otherwise (R166). -/
def cancelAnswered (r : LineRec) (s : State) : State :=
  if !r.cancelling.isEmpty then s else if r.keptByCamera then slipRec r s else withdrawRec r s

/-- A camera's answer to the oldest TRIG_CANCEL it has not answered (R165, R166): of its range the triggers from ARG up are cancelled,
none where ARG is all ones. -/
def cancelDone (g arg : Nat) (s : State) : State :=
  match (s.group g).cancels with
  | [] => s
  | c :: t =>
    let s := s.updGroup g fun x => { x with cancels := t }
    let mine := fun (r : LineRec) => r.cancelling.contains g && decide ((r.seq + 2 ^ 32 - c.1) % 2 ^ 32 ≤ (c.2 + 2 ^ 32 - c.1) % 2 ^ 32)
    let took := fun (r : LineRec) => arg != maxU 32 && decide ((r.seq + 2 ^ 32 - arg) % 2 ^ 32 < 2 ^ 31)
    let answer := fun (r : LineRec) => { r with cancelling := r.cancelling.filter (· != g), keptByCamera := r.keptByCamera || !took r }
    let rs := (s.records.filter mine).map answer
    let s := { s with records := s.records.map fun r => if mine r then answer r else r }
    rs.foldl (fun s r => cancelAnswered r s) s

/-- CANCEL_DONE: cancelled records close without LOST and kept ones stay open (R165, R166). ARG is the lowest TRIG_SEQ
cancelled, or all ones. -/
def execCancelDone (g : Fin 96) (h : CamHdr) (arg : BitVec 32) (s : State) : Result :=
  let a := acceptHdr g h s
  .next <| if !a.2 then a.1 else cancelDone g arg.toNat a.1

/-- CAMERA_EVENT: an EVENT with CODE 0x0100 or above is passed on (R171). -/
def execCameraEvent (g : Fin 96) (h : CamHdr) (code reason : BitVec 16) (arg : BitVec 32) (s : State) : Result :=
  let a := acceptHdr g h s
  .next <| if !a.2 || code.toNat < 0x100 then a.1
    else a.1.raise .cameraEvent [g, code.toNat, reason.toNat, arg.toNat]

end Sys2Proof.Machine
end

