-- ==== Sys2Proof/Machine/Analog.lean ====
section
/-! DEFINITION. Analog line sensors and video capture (R174 to R202): the schedule of a line, the exposure gate and its
measurement, the readout, the converters and the assembly of a tributary line. -/
namespace Sys2Proof.Machine

/-- `n` pixel clock periods of a port in 1/4 ns, rounded half up. -/
def State.periods (s : State) (p n : Nat) : Nat := (roundDiv (4000000000 * n) (max (s.nat (Obj.pixelClock p)) 1)).toNat

/-- A port is clocked in DDR (R185). -/
def State.portDdr (s : State) (p : Nat) : Bool := 2 ≤ s.nat (Obj.clockMode p)

/-- A port's clock is continuous (R185). -/
def State.portContinuous (s : State) (p : Nat) : Bool := s.nat (Obj.clockMode p) % 2 == 1

/-- Inputs that serve a port, ascending (R174). -/
def State.inputsOf (s : State) (p : Nat) : List Nat := (List.range 32).filter fun i => s.nat (Obj.inputPort i) == p

/-- Half clock periods of a readout (R187): SpWidth and LeadDummy clocks, then the longest output. -/
def State.readoutHalves (s : State) (p : Nat) : Nat :=
  2 * (s.nat (Obj.spWidth p) + s.nat (Obj.leadDummy p)) +
    (if s.portDdr p then 1 else 2) * maxNat ((s.inputsOf p).map fun i => s.nat (Obj.pixelCount i))

/-- Half clock periods in 1/4 ns, rounded half up. -/
def State.halves (s : State) (p n : Nat) : Nat := (roundDiv (2000000000 * n) (max (s.nat (Obj.pixelClock p)) 1)).toNat

/-- ReadoutTime in ns (R187), rounded half up. -/
def State.readoutNs (s : State) (p : Nat) : Nat :=
  (roundDiv (500000000 * s.readoutHalves p) (max (s.nat (Obj.pixelClock p)) 1)).toNat

/-- The first rising edge of ST_CLK at or after an instant, for a clock with a rising edge at `from_` (R181, R186). -/
def State.risingEdge (s : State) (p from_ at_ : Nat) : Nat :=
  let f := max (s.nat (Obj.pixelClock p)) 1
  from_ + s.periods p (((at_ - from_) * f + 3999999999) / 4000000000)

/-- The instant pixel `k` of an input's output is sampled, where clock 0 is at `c0` (R186). -/
def State.sampleAt (s : State) (reg : Obj → Int) (p i c0 k : Nat) : Nat :=
  let lead := s.nat (Obj.leadDummy p)
  let phase := (reg (Obj.samplePhase i)).toNat
  if !s.portDdr p then c0 + s.periods p (lead + k) + phase
  else if k % 2 = 0 then c0 + s.periods p (lead + k / 2) + phase
  else c0 + s.halves p (2 * (lead + k / 2) + 1) + (reg (Obj.secondPhase i)).toNat

/-- The instant the last pixel of every output has been sampled. -/
def State.sampledAll (s : State) (reg : Obj → Int) (p start : Nat) : Nat :=
  let c0 := start + s.periods p (s.nat (Obj.spWidth p))
  maxNat ((s.inputsOf p).map fun i => s.sampleAt reg p i c0 (s.nat (Obj.pixelCount i) - 1))

/-- A signal of a port driven to its asserted or inactive level (R188); `bit` names its polarity bit. -/
def drivePort (p : Nat) (pin : Pin) (bit : Nat) (on : Bool) (at_ : Nat) (s : State) : State :=
  if s.power.halted then s else s.emit (.pin pin p (xor on (bitAt (s.nat (Obj.signalPolarity p)) bit)) at_)

/-- ST_CLK of a port toggles from a rising edge on, until an instant or for as long as the port is enabled (R185). -/
def startClock (p at_ : Nat) (until_ : Option Nat) (s : State) : State :=
  if s.power.halted then s
  else (s.emit (.clock p at_ (s.nat (Obj.pixelClock p)))).updPort p fun x => { x with clockFrom := some at_, clockUntil := until_ }

/-- The outputs of a port at rest (R188): ST_CLK_P low and ST_CLK_N high, ST_SP, ST_TG and ST_EXP inactive under SignalPolarity. -/
def quietPort (p : Nat) (s : State) : State :=
  let s := drivePort p .stExp 2 false s.now (drivePort p .stTg 1 false s.now (drivePort p .stSp 0 false s.now s))
  let s := if s.power.halted then s else s.emit (.pin .stClk p false s.now)
  s.updPort p fun x => { x with stExp := false, stTg := false, stSp := false, gateClose := none, clockFrom := none, clockUntil := none }

/-- A port that is disabled, or whose bank has no power (R188). -/
def portDown (p : Nat) (s : State) : State :=
  (quietPort p s).updPort p fun x => { x with state := .disabled, queue := [], prevP := 0, prevR := 0 }

/-- An enabled port of a powered bank: IDLE, a continuous clock running (R185; DESIGN CHOICE, log entry 98: with a rising edge at that
instant), a burst clock held low. -/
def portUp (p : Nat) (s : State) : State :=
  let s := s.updPort p fun x => { x with state := .idle }
  if s.portContinuous p then startClock p s.now none s else quietPort p s

/-- ST_CLK toggles now (R202). -/
def State.clockRuns (s : State) (p : Nat) : Bool :=
  let x := s.port p
  x.clockFrom.any (fun t => decide (t ≤ s.now)) && x.clockUntil.all fun t => decide (s.now < t)

/-- The schedule of a line on a port whose window would open at `opens` (R176, R177). -/
def portLine (s : State) (p : Nat) (r : LineRec) (opens : Nat) : PortLine :=
  let x := s.port p
  let guard := ns (r.nat (Obj.transferGuard p))
  let closes := opens + r.exposure
  let transfer := max (closes + guard) x.prevR
  let tg := s.nat (Obj.tgMode p) == 1
  let start := if tg then transfer + ns (s.nat (Obj.tgToSp p)) else transfer
  let width := if tg then ns (s.nat (Obj.tgWidth p)) else s.periods p (s.nat (Obj.spWidth p))
  { seq := r.seq, opens := opens, closes := closes, transfer := transfer, startPulse := start,
    transferEnd := transfer + width + (if s.portContinuous p then s.periods p 1 else 0),
    readoutEnd := transfer + s.halves p (s.readoutHalves p) }

/-- s_n (R176): the window opening of a line on a port, after the port's line before. -/
def windowStart (s : State) (p : Nat) (r : LineRec) : Nat :=
  max r.sched ((s.port p).prevP + ns (r.nat (Obj.transferGuard p)))

/-- The line's first analog tributary, if it has one. -/
def LineRec.analogPort (r : LineRec) : Option Nat :=
  ((tribsOf r.nat r.stream).find? fun t => t.kind == 1).map Trib.source

/-- The window opening of a line: of an analog port R176, of a GrenoLink tributary the scheduled instant (R375). -/
def State.windowOpens (s : State) (r : LineRec) : Nat :=
  match r.analogPort with
  | none => r.sched
  | some p => match (s.port p).queue.find? fun l => l.seq == r.seq with
    | some l => l.opens
    | none => windowStart s p r

/-- An earlier line of the stream still awaits its window on the port. -/
def State.earlierWaits (s : State) (p : Nat) (r : LineRec) : Bool :=
  s.records.any fun e => e.stream == r.stream && decide (e.line < r.line) && !((s.port p).queue.any fun l => l.seq == e.seq) &&
    e.parts.any fun q => q.open? && ((tribsOf e.nat e.stream)[q.trib]?).any fun t => t.kind == 1 && t.source == p

/-- The lamp pulses of a line whose window does not open are withdrawn. -/
def dropPulses (st line : Nat) (s : State) : State :=
  { s with lamps := { s.lamps with pulses := s.lamps.pulses.filter fun p => !(p.line == some (st, line)) || p.onSince.isSome } }

/-- EXPOSURE_WINDOW_OPEN: at s_n the timing island opens ST_EXP and passes the readout token (R176, R177, R180); a window
later than StartLateLimit is not opened and the line is LOST (R178). -/
def execExposureWindowOpen (p : Fin 32) (seq : BitVec 32) (s : State) : Result :=
  .next <| match s.matchLine 1 p seq.toNat with
    | none => s
    | some (st, _, r) =>
      let x := s.port p
      if x.state != .running || (x.queue.any fun l => l.seq == r.seq) || s.earlierWaits p r || !r.cancelling.isEmpty || s.now < r.sched then s
      else
        let opens := windowStart s p r
        if ns (r.nat (Obj.startLateLimit p)) < opens - r.sched then
          let s := (s.updPort p fun x => { x with overrun := true }).count (Obj.overrunCount p)
          loseLine st r.line (dropPulses st r.line (s.raise .stOverrun [p, r.line]))
        else if s.now < opens then s
        else
          let l := portLine s p r opens
          let s := s.setPort p { x with queue := x.queue ++ [l], prevP := l.transferEnd, prevR := l.readoutEnd, stExp := true,
                                        gateClose := some l.closes }
          (drivePort p .stExp 2 true opens s).emit (.token p l.seq l.transfer l.startPulse)

/-- A port's line changed in the queue. -/
def updPortLine (p seq : Nat) (f : PortLine → PortLine) (s : State) : State :=
  s.updPort p fun x => { x with queue := x.queue.map fun l => if l.seq == seq then f l else l }

/-- A port's line given up: it leaves the queue and its stream line is LOST. -/
def losePortLine (p seq : Nat) (s : State) : State :=
  let s := s.updPort p fun x => { x with queue := x.queue.filter fun l => l.seq != seq }
  match s.matchLine 1 p seq with
  | some (st, _, r) => loseLine st r.line s
  | none => s

/-- READOUT_TOKEN: the token reaches the bank (R180); after its transfer instant it is refused (R182). -/
def execReadoutToken (p : Fin 32) (s : State) : Result :=
  .next <| match (s.port p).queue.find? fun l => !l.token with
    | none => s
    | some l =>
      if l.transfer < s.now then
        let s := (s.updPort p fun x => { x with tokenLate := true }).count (Obj.portFaultCount p)
        losePortLine p l.seq (s.raiseFault .stTokenLate [p, l.seq] Kind.stTokenLate 2 p 1 (islandOf 8 (p / 8)))
      else updPortLine p l.seq (fun l => { l with token := true }) s

/-- EXPOSURE_WINDOW_CLOSE: at c_n the timing island closes ST_EXP (R176). -/
def execExposureWindowClose (p : Fin 32) (s : State) : Result :=
  .next <| match (s.port p).gateClose with
    | none => s
    | some t =>
      if s.now < t then s
      else drivePort p .stExp 2 false t (s.updPort p fun x => { x with stExp := false, gateClose := none })

/-- A measured edge more than 2 ns off its schedule (R184). -/
def edgeOff (p at_ planned : Nat) (s : State) : State :=
  if ((at_ : Int) - planned).natAbs ≤ 8 then s
  else ((s.updPort p fun x => { x with expFault := true }).count (Obj.portFaultCount p)).raise .stExpFault [p]

/-- ST_EXP_EDGE: an edge of ST_EXP as seen at the ball (R183, R184), in 1/4 ns; the first tributary's values go into the
trigger record (R231). -/
def execStExpEdge (p : Fin 32) (opening : Bool) (at_ : Nat) (s : State) : Result :=
  .next <| match (s.port p).queue.find? fun l => if opening then l.openedAt.isNone else l.openedAt.isSome && l.closedAt.isNone with
    | none => s
    | some l =>
      let s := edgeOff p at_ (if opening then l.opens else l.closes) s
      let meas := at_ - l.openedAt.getD at_
      let s := updPortLine p l.seq (fun l => if opening then { l with openedAt := some at_ } else { l with closedAt := some at_ }) s
      let s := if opening then s else s.setReg (Obj.exposureMeasuredLast p) meas
      match s.matchLine 1 p l.seq with
      | some (st, 0, r) => updRec st r.line (fun r =>
          if opening then { r with startErr := (at_ : Int) - r.sched } else { r with expMeas := some meas }) s
      | _ => s

/-- ST_EXP_MISSING: a scheduled edge is not seen at the ball: reported, and the line is LOST (R184). -/
def execStExpMissing (p : Fin 32) (s : State) : Result :=
  .next <| match (s.port p).queue.find? fun l =>
      (l.openedAt.isNone && decide (l.opens + 8 < s.now)) || (l.closedAt.isNone && decide (l.closes + 8 < s.now)) with
    | none => s
    | some l =>
      let s := (s.updPort p fun x => { x with expFault := true }).count (Obj.portFaultCount p)
      losePortLine p l.seq (s.raiseFault .stExpFault [p, l.seq] Kind.stExpFault 2 p 0 (islandOf 0 0))

/-- TRANSFER_PULSE: at x_n the bank asserts the transfer pulse and clocks the line out (R177, R181, R185, R186): a burst clock runs from x_n
until four periods after r_n, and ST_SP asserts at the first rising edge at or after its scheduled instant. -/
def execTransferPulse (p : Fin 32) (s : State) : Result :=
  .next <| match (s.port p).queue.head? with
    | none => s
    | some l =>
      if !l.token || s.now < l.transfer then s
      else
        let tg := s.nat (Obj.tgMode p) == 1
        let s := if s.portContinuous p then s else startClock p l.transfer (some (l.readoutEnd + s.periods p 4)) s
        let start := match (s.port p).clockFrom with
          | some t => s.risingEdge p t l.startPulse
          | none => l.startPulse
        let s := if tg then drivePort p .stTg 1 false (l.transfer + ns (s.nat (Obj.tgWidth p))) (drivePort p .stTg 1 true l.transfer s) else s
        let s := drivePort p .stSp 0 false (start + s.periods p (s.nat (Obj.spWidth p))) (drivePort p .stSp 0 true start s)
        updPortLine p l.seq (fun l => { l with startPulse := start }) (s.updPort p fun x => { x with stTg := tg, stSp := true })

/-! ### Converters and assembly -/

/-- The converter's code for an input voltage in nV (R189): offset DAC and gain of its own input. -/
def adcCode (reg : Obj → Int) (i : Nat) (nv : Int) : Nat :=
  let v := nv + reg (Obj.offsetDac i) * 500000
  (clampInt 0 65535 (32768 + roundDiv ((32 + (reg (Obj.pgaGain i)).toNat : Nat) * v * 512) 1000000000)).toNat

/-- Pixel values of an input from its converters' codes (R190, R193): `a` of converter i, `b` of converter i + 1. -/
def pixelValues (reg : Obj → Int) (i mode : Nat) (a b : List Nat) : List Nat :=
  let neg := reg (Obj.videoPolarity i) == 1
  let one := fun (v : Nat) => if neg then 65535 - v else v
  let cds := fun (z v : Nat) =>
    (clampInt 0 65535 ((if neg then (z : Int) - v else (v : Int) - z) + reg (Obj.cdsPedestal i))).toNat
  match mode with
  | 0 => a.map one
  | 1 => (List.range (a.length / 2)).map fun k => cds (a.getD (2 * k) 0) (a.getD (2 * k + 1) 0)
  | 2 => (List.range (min a.length b.length)).map fun k => cds (a.getD k 0) (b.getD k 0)
  | _ => (List.range (a.length + b.length)).map fun k => one ((if k % 2 = 0 then a else b).getD (k / 2) 0)

/-- Converter codes at either end counted (R194). -/
def countClips (i : Nat) (codes : List Nat) (s : State) : State :=
  let lo := (codes.filter (· == 0)).length
  let hi := (codes.filter (· == 65535)).length
  let s := if lo = 0 then s else s.count (Obj.clipLow i) lo
  if hi = 0 then s else s.count (Obj.clipHigh i) hi

/-- One input's output placed into the tributary line (R196), the samples of the LeadDummy clocks discarded, with its counts and its mean
(R194). -/
def placeInput (reg : Obj → Int) (p i : Nat) (a b : List Int) (line : Table Nat) (s : State) : Table Nat × State :=
  let mode := s.nat (Obj.inputMode i)
  let n := s.nat (Obj.pixelCount i)
  let ca := a.map (adcCode reg i)
  let cb := b.map (adcCode reg (i + 1))
  let px := ((pixelValues reg i mode ca cb).drop ((if s.portDdr p then 2 else 1) * s.nat (Obj.leadDummy p))).take n
  let s := countClips i ca s
  let s := if cb.isEmpty then s else countClips (i + 1) cb s
  let s := if px.isEmpty then s else s.setReg (Obj.lastLineMean i) (roundDiv (sumNat px) px.length)
  let step := s.nat (Obj.pixelStep i)
  let start := s.nat (Obj.startPixel i)
  let down := s.nat (Obj.direction i) == 1
  let line := px.zipIdx.foldl (fun (t : Table Nat) (v : Nat × Nat) =>
    Table.set 0 t (start + (if down then n - 1 - v.2 else v.2) * step) v.1) line
  (line, s)

/-- The inputs' outputs in turn, each taking its converters' samples from the list. -/
def placeInputs (reg : Obj → Int) (port : Nat) : List Nat → List (List Int) → Table Nat → State → Table Nat × State
  | [], _, line, s => (line, s)
  | i :: rest, nv, line, s =>
    let pair := 2 ≤ s.nat (Obj.inputMode i)
    let b := if pair then nv.getD 1 [] else []
    let p := placeInput reg port i (nv.headD []) b line s
    placeInputs reg port rest (nv.drop (if pair then 2 else 1)) p.1 p.2

/-- A port's contribution handed over, cut at every 8,192 pixels counted from FIRST (R210). -/
def handOver (r : LineRec) (k : Nat) (t : Trib) (px : List Nat) : Nat → Nat → State → State
  | 0, _, s => s
  | n + 1, a, s =>
    let run := min 8192 (t.first + t.pixels - a)
    if run = 0 then s else handOver r k t px n (a + run) (arrivePixels r k 0 a 4 ((px.drop a).take run) s)

/-- READOUT_END: the last pixel of every input is formed and the bank emits the tributary line with its TRIG_SEQ (R186, R189 to
R199). `nanovolts` holds, for each converter of the port in ascending order, its samples' input voltages in sampling order, those of the
LeadDummy clocks first. -/
def execReadoutEnd (p : Fin 32) (nanovolts : List (List Int)) (s : State) : Result :=
  .next <| match (s.port p).queue.head? with
    | none => s
    | some l =>
      let found := s.matchLine 1 p l.seq
      let reg := match found with
        | some (_, _, r) => r.reg
        | none => s.reg
      if !l.token || s.now < max l.readoutEnd (s.sampledAll reg p l.startPulse) then s
      else
        let s := s.updPort p fun x => { x with queue := x.queue.drop 1, lines := (x.lines + 1) % 2 ^ 24, stTg := false, stSp := false }
        let s := match (s.port p).clockUntil with
          | some t => if s.power.halted then s else s.emit (.pin .stClk p false t)
          | none => s
        let t := placeInputs reg p (s.inputsOf p) nanovolts [] s
        match found with
        | none => unmatched 1 p l.seq t.2
        | some (st, k, r) =>
          let pattern := r.nat (Obj.testPattern p)
          let px := (List.range (s.nat (Obj.portWidth p))).map fun j =>
            if pattern = 1 then j * 16 % 65536 else if pattern = 2 then 0x8000 else Table.get 0 t.1 j
          let s := updRec st r.line (fun r => { r with lastPixel := some (s.stamp (islandOf 8 (p / 8))) }) t.2
          match (tribsOf r.nat st)[k]? with
          | none => s
          | some tr => handOver r k tr px (tr.pixels / 8192 + 1) tr.first s

/-- BANK_CALIBRATION: a bank's converter calibration completes after power-on: READY, or FAILED with VADC_CAL_FAIL (R195). -/
def execBankCalibration (b : Fin 4) (ok : Bool) (s : State) : Result :=
  .next <| if s.bank b != .calibrating then s
    else if ok then s.setBank b .ready
    else
      let s := s.setBank b .failed
      let s := (List.range 8).foldl (fun s i =>
        if s.flag (Obj.portEnable (8 * b + i)) then s.updPort (8 * b + i) fun x => { x with state := .failed } else s) s
      s.raiseFault .vadcCalFail [b] Kind.vadcCalFail 3 b 1 (islandOf 8 b)

end Sys2Proof.Machine
end

