-- ==== Sys2Proof/Machine/Audit.lean ====
section
/-! DEFINITION. What the security island keeps for everybody: the audit log (R702 to R705), the conditions of approved mode
(R691), the alarm pins (R711) and pages that cannot be sealed (R700). -/
namespace Sys2Proof.Machine

/-! ### Audit records -/

/-- Who asks for a service: ROLE, SOURCE and SESSION of R702. -/
structure Actor where
  role : Nat
  source : Nat
  session : Nat
  deriving DecidableEq, Repr

/-- The device itself, and a command given without a packet (DESIGN CHOICE, log entry 42). -/
def Actor.device : Actor := ⟨6, 0xFF, 0⟩

/-- Audit records not acknowledged (R705). -/
def State.unacked (s : State) : Nat := s.sec.auditNext - s.sec.auditFloor

/-- The audit log can take a record without overwriting one that is not acknowledged (R705). -/
def State.auditRoom (s : State) : Bool := decide (s.unacked < 16384)

/-- Bytes 0 to 47 of an audit record (R702). -/
def auditBody (seq dt code : Nat) (a : Actor) (index sub result : Nat) (data : Bytes) : Bytes :=
  leBytes 8 seq ++ leBytes 8 dt ++ leBytes 2 code ++ leBytes 1 a.role ++ leBytes 1 a.source ++ leBytes 2 a.session ++
    leBytes 2 index ++ leBytes 1 sub ++ leBytes 1 result ++ [0, 0] ++ (data ++ List.replicate 20 0).take 20

/-- The log with one record more, chained to the last one; a full log loses its oldest (R703, R705). -/
def addRecord (body : Bytes) (full : Bool) (x : Security) : Security :=
  let prev := if x.auditNext = 0 then List.replicate 48 0 else x.lastChain
  let chain := Config.sha3 (prev ++ body)
  let more := if full then 1 else 0
  { x with audit := latest 16384 (x.audit ++ [⟨x.auditNext, body, chain⟩]), auditNext := x.auditNext + 1, lastChain := chain,
           auditFloor := x.auditFloor + more, overwrites := x.overwrites + more }

/-- An audit record written and chained (R703, R704); `must` marks the five records a full log takes by overwriting its oldest
(R705). -/
def audit (code : Nat) (a : Actor) (index sub result : Nat) (data : Bytes) (must : Bool) (s : State) : State :=
  let full := !s.auditRoom
  if full && !must then s
  else
    let s := { s with sec := addRecord (auditBody s.sec.auditNext s.dt code a index sub result data) full s.sec }
    if !full && s.unacked == 15360 then s.raise .auditNearFull [] else s

/-! ### Approved mode (R691) -/

/-- Every stream that delivers is sealed (condition 5 of R691). -/
def State.allSealed (s : State) : Bool :=
  (List.range 64).all fun st => s.nat (Obj.deliverScope st) == 2 || s.flag (Obj.sealEnable st)

/-- The conditions of R691, in list order. -/
def State.conditions (s : State) : List Bool :=
  [s.flag Obj.debugLock, s.flag Obj.ownerKeyHash, !s.openAccess,
   decide (s.nat Obj.sandboxRole ≤ 2) && !s.flag Obj.sandboxDebug, s.allSealed, s.nat Obj.securityState == 1]

/-- Approved mode is in force (R691). -/
def State.approved (s : State) : Bool := s.flag Obj.approvedModeLock && s.conditions.all id

/-- ApprovedLock is written and a condition fails. -/
def State.conditionFails (s : State) : Bool := s.flag Obj.approvedModeLock && !s.conditions.all id

/-- A condition that fails with the lock written is told once, until it holds again (R692, R715). R640 gives the report no kind: it
carries the reserved code 0 (log entry 43). -/
def watchConditions (s : State) : State :=
  let fails := s.conditionFails
  if fails == s.sec.conditionTold then s
  else
    let s := { s with sec := { s.sec with conditionTold := fails } }
    if fails then s.raiseFault .approvedCondition [(ofBits s.conditions : Nat)] 0 2 0 2 (islandOf 13 0) else s

/-! ### Alarm pins (R711) -/

/-- A latched input whose response is ALARM or above, or a sensor, holds the alarm condition (R708). -/
def State.tamperAlarm (s : State) : Bool :=
  let t := s.nat Obj.tamperState
  field t 9 3 != 0 || (List.range 4).any fun i => bitAt t i && field (s.nat (Obj.tamperConfig i)) 12 2 != 0

/-- The conditions [15:8] of AlarmConfig that hold. -/
def State.alarmConditions (s : State) : Nat :=
  256 * ofBits [s.tamperAlarm, s.power.halted, s.conditionFails, decide (15360 ≤ s.unacked),
    s.sec.failedAt.any fun t => decide (s.now ≤ t + ms 1000), decide (3 ≤ s.dep.worst.getD 0), s.power.warned,
    s.nat Obj.securityState == 2]

/-- The alarm pins that an AlarmConfig commit has driven follow their conditions (R711, R731). -/
def alarmEval (s : State) : State :=
  let held := s.alarmConditions
  s.sec.alarmDriven.foldl (fun s a =>
    let cfg := s.nat (Obj.alarmConfig a)
    let on := (cfg &&& held) / 256 % 256 != 0
    if on == s.sec.alarmOn.contains a then s
    else
      let s := { s with sec := { s.sec with alarmOn := if on then a :: s.sec.alarmOn else s.sec.alarmOn.filter (· != a) } }
      s.emit (.pin .alarm a (on != bitAt cfg 7) s.now)) s

/-- An AlarmConfig entry takes effect: its pin is driven from then on (R731). -/
def driveAlarm (a : Nat) (s : State) : State :=
  let cfg := s.nat (Obj.alarmConfig a)
  let on := (cfg &&& s.alarmConditions) / 256 % 256 != 0
  let s := { s with sec := { s.sec with alarmDriven := if s.sec.alarmDriven.contains a then s.sec.alarmDriven else s.sec.alarmDriven ++ [a],
                                        alarmOn := if on then a :: s.sec.alarmOn.filter (· != a) else s.sec.alarmOn.filter (· != a) } }
  s.emit (.pin .alarm a (on != bitAt cfg 7) s.now)

/-! ### Pages that cannot be sealed (R700) -/

/-- A page record changed, in its slot and, while it is open, in the page logic. -/
def updRecord (st number : Nat) (f : PageRec → PageRec) (s : State) : State :=
  s.updRing st fun r =>
    { r with page := r.page.map fun p => if p.number == number then f p else p,
             records := r.records.map fun e => (e.1, e.2.map fun p => if p.number == number then f p else p) }

/-- A page cannot be sealed: counted and told (R700). -/
def sealFailed (st number : Nat) (s : State) : State :=
  let s := updRecord st number (fun p => { p with sealTried := true }) s
  let s := { s with sec := { s.sec with failedAt := some s.now } }
  alarmEval ((s.count Obj.sealFailures).raise .sealFailed [st, number])

/-- SealEnable takes effect on a stream: a page already open is not sealed (R700). -/
def sealEnters (st : Nat) (s : State) : State :=
  match (s.ring st).page with
  | some p => if p.toSeal || p.sealTried then s else sealFailed st p.number s
  | none => s

end Sys2Proof.Machine
end

