-- ==== Sys2Proof/Machine/Illumination.lean ====
section
/-! DEFINITION. The illumination matrix (R369 to R403): the pulses of a line, band switches and sinks, checked pulses and
lamp faults, diagnostic pulses, the neighbour lift, the SYNC bus and the headroom loop. -/
namespace Sys2Proof.Machine

/-! ### Settings -/

/-- Number of crosspoint (b, c). -/
def xpIndex (b c : Nat) : Nat := 64 * b + c
/-- A crosspoint is populated (R369). -/
def State.populated (s : State) (b c : Nat) : Bool := decide (c < 64) && bitAt (s.nat (Obj.bandColumns b)) c
/-- A crosspoint has failed (R393). -/
def Crosspoint.failed (x : Crosspoint) : Bool := x.state == .open_ || x.state == .short || x.state == .neighbourShort
/-- Populated columns of a band. -/
def State.columnsOf (s : State) (b : Nat) : List Nat := (List.range 64).filter fun c => s.populated b c

/-- The lighting settings of a window that opens at an instant: register file, trims and LAMP_GEN, with every S group whose
broadcast applies by then (R382). -/
def State.lampView (s : State) (at_ : Nat) : Table Int × Table Nat × Nat :=
  let due := s.groupsWaiting.filter fun g => g.boundary == 4 && match g.applyAt with
    | some t => decide (t ≤ at_)
    | none => false
  due.foldl (fun v g =>
    (g.members.foldl (fun (v : Table Int × Table Nat × Nat) m =>
      match m.2 with
      | .num x => (Table.set 0 v.1 m.1 x, v.2)
      | .blob b => (v.1, ((List.range 1024).foldl (fun t i => Table.set 32768 t i (leNat ((b.drop (2 * i)).take 2))) v.2.1, v.2.2)))
      v |> fun w => (w.1, w.2.1, (w.2.2 + 1) % 65536))) (s.dict, s.lamps.trim, s.lamps.gen)

/-- The largest value whose test holds, for a test that holds up to some value below 2^21 and not above. -/
def searchMax (ok : Nat → Bool) : Nat → Nat → Nat
  | 0, x => x
  | n + 1, x => let y := x + 2 ^ n; searchMax ok n (if ok y then y else x)

/-- Intensity X of a LEVEL under a BandCurve (R378), rounded half up from the exact value (log entry 33). -/
def lampX (curve level : Nat) : Nat :=
  let p := field curve 0 16
  match field curve 30 2 with
  | 0 => (roundDiv (2 ^ 20 * (level : Int)) 4095).toNat
  | 1 => searchMax (fun x => decide ((2 * x - 1) ^ 256 * 4095 ^ p ≤ (2 ^ 21) ^ 256 * level ^ p)) 21 0
  | 2 => if level = 0 then 0 else searchMax (fun x => decide ((2 * x - 1) ^ p * 2 ^ (4095 - level) ≤ 2 ^ (21 * p))) 21 0
  | _ => 0

/-- Full-scale code before any lift (R379). -/
def fullCode (fullScale trim : Nat) : Nat := min ((fullScale * trim + 16384) / 32768) 4095

/-- Full-scale code lifted for `k` failed neighbours (R398), and whether 4,095 capped it. -/
def liftedCode (full k liftPct : Nat) : Nat × Bool :=
  let v := full * (100 + k * liftPct) / 100
  (min v 4095, decide (4095 < v))

/-- Code D and width W of a crosspoint (R380), with W in 1/4 ns; none for no pulse. -/
def lampPulseOf (full x width : Nat) : Option (Nat × Nat) :=
  let d := if 65536 ≤ x then (full * x + 2 ^ 19) / 2 ^ 20 else (full + 8) / 16
  let w := if 65536 ≤ x then width else (width * x + 32768) / 65536
  if w < 8 then none else some (d, w)

/-- The pulses of a line (R373 to R375, R379, R380), with BandEnable as it stands. -/
def lampPlan (s : State) (r : LineRec) (trim : Table Nat) : List LampPulse :=
  let st := r.stream
  let light := r.nat (Obj.phaseLight st r.phase)
  let g := ns (s.nat (Obj.lampGuard st))
  let e := r.exposure
  let full := if field light 0 32 = 0 then e - 2 * g else field light 0 32 * e / max (r.nat (Obj.phaseExposure st r.phase)) 1
  if r.dark then []
  else (List.range 16).filterMap fun b =>
    if !bitAt light (48 + b) || !s.flag (Obj.bandEnable b) then none
    else
      let x := lampX (r.nat (Obj.bandCurve b)) (field light 36 12)
      let codes := (s.columnsOf b).filterMap fun c =>
        let p := s.xpoint (xpIndex b c)
        let base := fullCode (r.nat (Obj.bandFullScale b)) (Table.get 32768 trim (xpIndex b c))
        let on := p.liftFrom.any fun l => l.1 == st && decide (l.2 ≤ r.line)
        let f := if on then (liftedCode base p.lifts (s.nat Obj.liftPct)).1 else base
        (lampPulseOf f x full).map fun d => (c, d.1)
      match lampPulseOf 0 x full with
      | none => none
      | some (_, w) =>
        let offset := match field light 34 2 with
          | 0 => g
          | 1 => (e - w) / 2
          | _ => e - g - w
        some { line := some (st, r.line), band := b, offset := offset, width := w, codes := codes }

/-- A phase of the line names a disabled band (R262). -/
def bandOffFor (s : State) (r : LineRec) : Bool :=
  (List.range 16).any fun b => bitAt (r.nat (Obj.phaseLight r.stream r.phase)) (48 + b) && !s.flag (Obj.bandEnable b)

/-! ### Pulses -/

/-- Start instant of a pulse, if its line still has a window. -/
def State.pulseAt (s : State) (p : LampPulse) : Option Nat :=
  match p.line with
  | none => some p.offset
  | some (st, line) => (s.recOf st line).map fun r => s.windowOpens r + p.offset

/-- A lamp pulse of a band changed, or removed, the first that satisfies a test. -/
def updPulse (test : LampPulse → Bool) (f : LampPulse → Option LampPulse) : List LampPulse → List LampPulse
  | [] => []
  | p :: t => if test p then (match f p with | some q => q :: t | none => t) else p :: updPulse test f t

/-- The pulses rewritten. -/
def State.mapPulses (s : State) (f : List LampPulse → List LampPulse) : State :=
  { s with lamps := { s.lamps with pulses := f s.lamps.pulses } }

/-- LAMP_BAND driven (R370). -/
def driveBand (b : Nat) (on : Bool) (at_ : Nat) (s : State) : State :=
  if s.power.halted then s else s.emit (.pin .lampBand b (xor on (s.nat (Obj.bandPolarity b) == 1)) at_)

/-- The next pulse of a band whose switch is still open. -/
def waiting (b : Nat) (p : LampPulse) : Bool := p.band == b && !p.banded
/-- The next pulse of a band whose switch is closed and whose sinks are off. -/
def readyPulse (b : Nat) (p : LampPulse) : Bool := p.band == b && p.banded && p.onSince.isNone
/-- The pulse of a band in progress. -/
def litPulse (b : Nat) (p : LampPulse) : Bool := p.band == b && p.onSince.isSome

/-- An instant lies within BlankTime after the deassertion of a band that shares a column (R377). -/
def State.blanked (s : State) (b t : Nat) : Bool :=
  s.lamps.lastOff.any fun e => decide (t < e.2 + ns (s.nat Obj.blankTime)) &&
    (s.nat (Obj.bandColumns e.1) &&& s.nat (Obj.bandColumns b)) != 0

/-- BAND_ASSERT: BandLead before a pulse LAMP_BAND asserts, never within BlankTime of a band that shares a column (R377). -/
def execBandAssert (b : Fin 16) (s : State) : Result :=
  .next <| match s.lamps.pulses.find? (waiting b) with
    | none => s
    | some p =>
      match s.pulseAt p with
      | none => s.mapPulses (updPulse (waiting b) fun _ => none)
      | some t =>
        let lead := ns (s.nat Obj.bandLead)
        if s.now + lead < t || s.blanked b (t - lead) then s
        else driveBand b true (t - lead) (s.mapPulses (updPulse (waiting b) fun p => some { p with banded := true }))

/-- PULSE_START: the lit columns begin to sink their codes (R375, R380); a failed crosspoint takes 0 (R393), and a line that
lights an UNVERIFIED one carries LAMP_UNVERIFIED (R394). -/
def execPulseStart (b : Fin 16) (s : State) : Result :=
  .next <| match s.lamps.pulses.find? (readyPulse b) with
    | none => s
    | some p =>
      match s.pulseAt p with
      | none => driveBand b false s.now (s.mapPulses (updPulse (readyPulse b) fun _ => none))
      | some t =>
        if s.now < t then s
        else
          let codes := p.codes.map fun c => (c.1, if (s.xpoint (xpIndex b c.1)).failed then 0 else c.2)
          let s := s.mapPulses (updPulse (readyPulse b) fun p => some { p with onSince := some t, codes := codes })
          let doubt := codes.any fun c => (s.xpoint (xpIndex b c.1)).state == .unverified
          let s := codes.foldl (fun s c =>
            let s := s.updXpoint (xpIndex b c.1) fun x => { x with dLast := c.2 }
            if c.2 = 0 then s else s.emit (.pin .lampCol c.1 true t)) s
          match p.line with
          | some (st, line) => if doubt then updRec st line (fun r => { r with lampUnverified := true }) s else s
          | none => s

/-- The sinks of a band stop, its switch opens and its columns discharge (R377). -/
def endPulse (b at_ : Nat) (p : LampPulse) (s : State) : State :=
  let s := p.codes.foldl (fun s c => if c.2 = 0 then s else s.emit (.pin .lampCol c.1 false at_)) s
  let s := driveBand b false at_ s
  let l := s.lamps
  { s with lamps := { l with pulses := updPulse (litPulse b) (fun _ => none) l.pulses,
                             discharging := (b, at_ + ns (s.nat Obj.dischargeTime)) :: l.discharging.filter (fun d => d.1 != b),
                             lastOff := Table.set 0 l.lastOff b at_ } }

/-- A lit crosspoint counts an unchecked pulse; the 256th in a row makes it UNVERIFIED (R394). -/
def countUnchecked (b c : Nat) (s : State) : State :=
  s.updXpoint (xpIndex b c) fun x =>
    let n := min (x.unchecked + 1) 256
    if n = 256 && x.state == .verified then { x with unchecked := n, state := .unverified, since := s.now, told := false }
    else { x with unchecked := n }

/-- A line's pulse adds to WEAR_LAMP's measure of its band: mean code of its lit crosspoints × mean DriftFactor of the phases that
name the band ÷ 65,536 (R660). -/
def lampFeed (p : LampPulse) (s : State) : State :=
  let lit := (p.codes.map Prod.snd).filter (· != 0)
  let fs := (List.range 64).flatMap fun st => ((List.range (s.nat (Obj.phases st))).filter fun ph =>
    bitAt (s.nat (Obj.phaseLight st ph)) (48 + p.band)).map fun ph => s.nat (Obj.driftFactor st ph)
  if p.line.isNone || lit.isEmpty || fs.isEmpty then s
  else
    let v := sumNat lit * sumNat fs / (lit.length * fs.length * 65536)
    let a := Table.get (0, 0) s.dep.lampAcc p.band
    { s with dep := { s.dep with lampAcc := Table.set (0, 0) s.dep.lampAcc p.band (a.1 + v, a.2 + 1),
                                 hourSince := if s.dep.lampAcc.isEmpty then s.now else s.dep.hourSince } }

/-- PULSE_END: at the pulse end the sinks stop, LAMP_BAND deasserts and discharge begins (R377, R394). -/
def execPulseEnd (b : Fin 16) (s : State) : Result :=
  .next <| match s.lamps.pulses.find? (litPulse b) with
    | none => s
    | some p =>
      let t := p.onSince.getD 0 + p.width
      if s.now < t then s
      else
        let s := if p.width < us 2 then p.codes.foldl (fun s c => countUnchecked b c.1 s) s else s
        endPulse b t p (lampFeed p s)

/-- DISCHARGE_END: DischargeTime after a pulse the columns leave the discharge level (R377). -/
def execDischargeEnd (b : Fin 16) (s : State) : Result :=
  .next { s with lamps := { s.lamps with
                            discharging := s.lamps.discharging.filter fun d => !(d.1 == b.val && decide (d.2 ≤ s.now)) } }

/-! ### Checked pulses and faults -/

/-- A crosspoint enters OPEN, SHORT or NEIGHBOUR_SHORT (R393): its event and its fault report. -/
def failXpoint (i : Nat) (st : XpState) (s : State) : State :=
  if (s.xpoint i).failed then s
  else
    let s := s.updXpoint i fun x => { x with state := st }
    let isl := islandOf 1 (i % 64 / 32)
    match st with
    | .open_ => s.raiseFault .lampOpen [i] Kind.lampOpen 2 i 0 isl
    | .short => s.raiseFault .lampShort [i] Kind.lampShort 2 i 0 isl
    | _ => s.raiseFault .lampNeighbourShort [i] Kind.lampNeighbourShort 2 i 0 isl

/-- Columns become NEIGHBOUR_SHORT in every band that populates them (R391, R392). -/
def shortColumns (cs : List Nat) (s : State) : State :=
  cs.foldl (fun s c => (List.range 16).foldl (fun s b =>
    if s.populated b c then failXpoint (xpIndex b c) .neighbourShort s else s) s) s

/-- One lit sink's measurement in a checked pulse (R389, R390, R394, R395). -/
def checkLit (b : Nat) (p : LampPulse) (lit : List SinkMeas) (m : SinkMeas) (s : State) : State :=
  let i := xpIndex b m.column
  let d := (p.codes.lookup m.column.val).getD 0
  let cand := decide (10 * m.code < d) && decide (m.millivolt < 200)
  let others := lit.filter fun o => o.column != m.column
  let regOther := others.any fun o => decide (800 ≤ o.millivolt)
  let railTop := s.nat Obj.lampRailSetpoint == s.nat Obj.lampRailMax
  let high := !others.isEmpty && decide (medianNat (others.map SinkMeas.millivolt) + s.nat Obj.shortMargin < m.millivolt)
  let confirm := s.nat Obj.openConfirm
  let x := s.xpoint i
  let openRun := if cand && (regOther || railTop) then x.openRun + 1 else 0
  let shortRun := if high then x.shortRun + 1 else 0
  let s := s.updXpoint i fun x =>
    { x with openRun := openRun, shortRun := shortRun, unchecked := 0, regOk := decide (800 ≤ m.millivolt), millivolt := m.millivolt,
             state := if x.state == .unverified && !cand && !high then .verified else x.state }
  if confirm ≤ openRun then failXpoint i .open_ s
  else if confirm ≤ shortRun then failXpoint i .short s
  else s

/-- One unlit column next to a lit one in a checked pulse (R392); its `millivolt` is the pull toward the lit column. -/
def checkUnlit (b : Nat) (lit : List SinkMeas) (m : SinkMeas) (s : State) : State :=
  let i := xpIndex b m.column
  let near := (lit.map fun o => o.column.val).filter fun c => c == m.column.val + 1 || c + 1 == m.column.val
  let pulled := !near.isEmpty && decide (300 < m.millivolt)
  let run := if pulled then (s.xpoint i).pulledRun + 1 else 0
  let s := s.updXpoint i fun x => { x with pulledRun := run }
  if pulled && decide (s.nat Obj.openConfirm ≤ run) then shortColumns (m.column.val :: near) s else s

/-- What the headroom loop keeps of a checked pulse (R400). -/
def headroomTake (b : Nat) (p : LampPulse) (lit : List SinkMeas) (s : State) : State :=
  let good := lit.filter fun m => !(s.xpoint (xpIndex b m.column)).failed
  let anyReg := lit.any fun m => decide (800 ≤ m.millivolt)
  let starved := good.any fun m =>
    let d := (p.codes.lookup m.column.val).getD 0
    let cand := decide (10 * m.code < d) && decide (m.millivolt < 200)
    if cand then !anyReg else decide (m.millivolt < 800)
  let least := (lit.map SinkMeas.millivolt).min?
  { s with lamps := { s.lamps with sawChecked := true, starved := s.lamps.starved || starved,
                                   leastMv := match s.lamps.leastMv, least with
                                     | some a, some b => some (min a b)
                                     | none, b => b
                                     | a, none => a } }

/-- A measured column is on: its sink drives, with a code of the pulse other than 0. -/
def litNow (p : LampPulse) (m : SinkMeas) : Bool :=
  m.lit && match p.codes.lookup m.column.val with
    | some d => d != 0
    | none => false

/-- PULSE_CHECK: in a checked pulse each lit sink's current and pin voltage after settling, and the pull of unlit
neighbours (R388 to R392). -/
def execPulseCheck (b : Fin 16) (meas : List SinkMeas) (s : State) : Result :=
  .next <| match s.lamps.pulses.find? (litPulse b) with
    | none => s
    | some p =>
      if p.width < us 2 || p.measured || s.now < p.onSince.getD 0 + us 2 then s
      else
        let s := s.mapPulses (updPulse (litPulse b) fun p => some { p with measured := true })
        let lit := meas.filter (litNow p)
        let s := headroomTake b p lit s
        let s := lit.foldl (fun s m => checkLit b p lit m s) s
        (meas.filter fun m => !m.lit).foldl (fun s m => checkUnlit b lit m s) s

/-- The neighbour test starts (R391): at a lamp domain's power-on, or on LampTest. -/
def startLampTest (s : State) : State :=
  { s with lamps := { s.lamps with testUntil := some (s.now + 4 * 1280000) } }

/-- LampTest is accepted in Idle-Ready and Maintenance with every band disabled (R391). -/
def lampTestOk (s : State) : Bool :=
  (s.mode == .idleReady || s.mode == .maintenance) && (List.range 16).all fun b => !s.flag (Obj.bandEnable b)

/-- LAMP_TEST: a LampTest write starts the neighbour test (R391). -/
def execLampTest (s : State) : Result := .next (if lampTestOk s then startLampTest s else s)

/-- LAMP_TEST_DONE: the 1.28 ms test completes; shorted columns are marked (R391). -/
def execLampTestDone (shorted : List (Fin 64)) (s : State) : Result :=
  .next <| match s.lamps.testUntil with
    | none => s
    | some t =>
      if s.now < t then s
      else shortColumns (shorted.map Fin.val) { s with lamps := { s.lamps with testUntil := none } }

/-! ### Diagnostic pulses (R394 to R396) -/

/-- Streams that name a band in a phase they run. -/
def State.streamsNaming (s : State) (b : Nat) : List Nat :=
  (List.range 64).filter fun st => (List.range (s.nat (Obj.phases st))).any fun ph => bitAt (s.nat (Obj.phaseLight st ph)) (48 + b)

/-- A blanking interval of 5 µs starts now for a band (R395): no band on its columns is lit or about to be, and no window of
a stream that names it or views it is open within the interval. -/
def diagInterval (b : Nat) (s : State) : Bool :=
  let cols := s.nat (Obj.bandColumns b)
  let clear := (s.streamsNaming b) ++ (List.range 64).filter fun st => bitAt (s.nat (Obj.bandViewers b)) st
  let lampFree := s.lamps.pulses.all fun p =>
    (s.nat (Obj.bandColumns p.band)) &&& cols == 0 ||
      (!p.banded && match s.pulseAt p with
        | some t => decide (s.now + us 5 + ns (s.nat Obj.bandLead) ≤ t)
        | none => true)
  let windowFree := s.records.all fun r => !clear.contains r.stream ||
    decide (s.windowOpens r + r.exposure ≤ s.now ∨ s.now + us 5 ≤ s.windowOpens r)
  lampFree && windowFree

/-- DIAG_PULSE: a 3 µs diagnostic pulse of a band with an UNVERIFIED crosspoint, 1 µs into a blanking interval (R395). -/
def execDiagPulse (b : Fin 16) (s : State) : Result :=
  let cols := s.columnsOf b
  let doubt := cols.any fun c => (s.xpoint (xpIndex b c)).state == .unverified
  .next <| if !doubt || !s.flag (Obj.bandEnable b) || !diagInterval b s then s
    else
      let codes := (cols.filter fun c => !(s.xpoint (xpIndex b c)).failed).map fun c =>
        let full := fullCode (s.nat (Obj.bandFullScale b)) (Table.get 32768 s.lamps.trim (xpIndex b c))
        (c, max (s.xpoint (xpIndex b c)).dLast (full / 16))
      s.mapPulses fun ps =>
        { line := none, band := b, offset := s.now + us 1, width := us 3, codes := codes } :: ps

/-- LAMP_UNVERIFIED: no diagnostic interval within 50 ms (R396). -/
def execLampUnverified (b : Fin 16) (col : Fin 64) (s : State) : Result :=
  let i := xpIndex b col
  let x := s.xpoint i
  .next <| if x.state != .unverified || x.told || s.now < x.since + ms 50 then s
    else (s.updXpoint i fun x => { x with told := true }).raiseFault .lampUnverified [i] Kind.lampUnverified 1 i 0 (islandOf 1 (col / 32))

/-! ### The neighbour lift (R398, R399) -/

/-- Populated neighbours of a crosspoint that have not failed. -/
def State.liftable (s : State) (b c : Nat) : List Nat :=
  ((if c = 0 then [] else [c - 1]) ++ [c + 1]).filter fun n => s.populated b n && !(s.xpoint (xpIndex b n)).failed

/-! ### The SYNC bus (R382 to R386) -/

/-- A broadcast: every S group accepted so far applies to windows from SyncApplyDelay after it (R382). -/
def syncBroadcast (s : State) : State :=
  { s with groupsWaiting := s.groupsWaiting.map fun g =>
             if g.boundary == 4 && g.applyAt.isNone then { g with applyAt := some (s.now + ns (s.nat Obj.syncApplyDelay)) } else g }

/-- SyncFire is accepted with SyncRole 2 (R383). -/
def syncFireOk (s : State) : Bool := s.nat Obj.syncRole == 2

/-- SYNC_FIRE: a master drives SYNC low for 1 µs (R383). -/
def execSyncFire (s : State) : Result :=
  .next (if syncFireOk s then s.emits [.pin .sync 0 false s.now, .pin .sync 0 true (s.now + us 1)] else s)

/-- An edge of SYNC is not valid yet: after a fault SYNC has to be high for 10 µs first (R386). -/
def State.syncUnfit (s : State) : Bool := s.lamps.syncFault.any fun t => decide (s.now < t + us 10)

/-- SYNC_EDGE: a valid falling edge of SYNC is a broadcast, a master's own too (R382, R383, R386). -/
def execSyncEdge (s : State) : Result :=
  .next <| if s.nat Obj.syncRole = 0 || s.syncUnfit then s
    else syncBroadcast (({ s with lamps := { s.lamps with syncFault := none } } : State).countWrap Obj.syncCount)

/-- A group whose instant is not yet reached loses it at a SYNC fault and waits for the next edge (R386). -/
def withdrawInstant (now : Nat) (g : CommitGroup) : CommitGroup :=
  match g.applyAt with
  | some t => if now < t then { g with applyAt := none } else g
  | none => g

/-- SYNC_FAULT: SYNC stays low for over 10 µs; no S group applies until a valid pulse follows (R386). -/
def execSyncFault (s : State) : Result :=
  .next <| if s.nat Obj.syncRole = 0 then s
    else
      let s := { s with lamps := { s.lamps with syncFault := some s.now },
                        groupsWaiting := s.groupsWaiting.map (withdrawInstant s.now) }
      s.raiseFault .syncFault [] Kind.syncFault 2 0 0 (islandOf 0 0)

/-! ### Bands and the rail -/

/-- A band is disabled: its pulse in progress is cut, and scheduled lines are not lit by it (R387). -/
def disableBand (b : Nat) (s : State) : State :=
  let s := s.setReg (Obj.bandEnable b) 0
  let s := match s.lamps.pulses.find? (litPulse b) with
    | none => s
    | some p =>
      let s := (endPulse b s.now p s).count (Obj.bandCuts b)
      match p.line with
      | some (st, line) => (updRec st line (fun r => { r with lampCut := true }) s).raise .lampBandCut [b, st, line]
      | none => s.raise .lampBandCut [b]
  let rest := s.lamps.pulses.filter fun p => p.band == b
  let s := if rest.any LampPulse.banded then driveBand b false s.now s else s
  let s := rest.foldl (fun s p => match p.line with
    | some (st, line) => updRec st line (fun r => { r with bandOff := true }) s
    | none => s) s
  s.mapPulses fun ps => ps.filter fun p => p.band != b

/-- BAND_ENABLE: a BandEnable write: 0 cuts the band (R387), 1 applies to lines scheduled after it. -/
def execBandEnable (b : Fin 16) (v : Bool) (s : State) : Result :=
  .next <| if v then
      let s := s.setReg (Obj.bandEnable b) 1
      if s.lamps.driven.contains b.val then s
      else driveBand b false s.now { s with lamps := { s.lamps with driven := b.val :: s.lamps.driven } }
    else disableBand b s

/-- The lamp rail is not driven: it is OFF, or a fault holds its loop (R625). -/
def State.lampRailHeld (s : State) : Bool := s.nat (Obj.railState 7) == 0 || s.nat (Obj.railState 7) == 3

/-- HEADROOM_EVAL: every HeadroomPeriod the lamp rail's set point rises, falls or holds (R400, R401); a rail fault holds it
(R625). -/
def execHeadroomEval (s : State) : Result :=
  if s.lampRailHeld || (s.nat Obj.headroomMode ≠ 0 && !s.loopDue 4 0 (us (s.nat Obj.headroomPeriod))) then .next s else
  let s := s.loopRan 4 0
  let l := s.lamps
  let fresh := { s with lamps := { l with sawChecked := false, starved := false, leastMv := none } }
  .next <| if s.nat Obj.headroomMode = 0 then fresh.setReg Obj.lampRailSetpoint (s.reg Obj.lampRailFixed)
    else
      let sp := s.reg Obj.lampRailSetpoint
      let high := match l.leastMv with
        | some v => decide (800 + s.nat Obj.headroomTarget + 50 ≤ v)
        | none => false
      let want := if !l.sawChecked then sp else if l.starved then sp + 200 else if high then sp - 25 else sp
      let held := clampInt (s.reg Obj.lampRailMin) (s.reg Obj.lampRailMax) want
      let bound := if !l.sawChecked then l.atBound else if held = want then none else some (decide (held < want))
      let s := { fresh with lamps := { fresh.lamps with atBound := bound } }
      let s := s.setReg Obj.lampRailSetpoint held
      if bound.isSome && bound != l.atBound then (s.count Obj.headroomClamps).raise .policyClamp [b2n (bound == some true)] else s

end Sys2Proof.Machine
end

