-- ==== Sys2Proof/Machine/Commit.lean ====
section
/-! DEFINITION. Commit groups entering (R23 to R31, R222, R308, R427, R769): where a member belongs, what it changes, and
the reported sums that follow from the configuration (R216, R220, R407, R410, R496). -/
namespace Sys2Proof.Machine

/-! ### Entries by index and subindex -/

/-- The catalogue row of an entry (R10, R11). -/
def rowOf (index sub : Nat) : Option Row :=
  catalogue.find? fun r => decide (r.index ≤ index ∧ index < r.index + r.count ∧ r.sub ≤ sub ∧ sub < r.sub + r.subs)

/-- The default of an entry. -/
def dfltOf (index sub : Nat) : Int :=
  if 0xB100 ≤ index && index < 0xB200 && sub = 1 then faultPolicyDefault (index - 0xB100)
  else match rowOf index sub with
    | some r => r.dflt
    | none => 0

/-- An entry by its key. -/
def objOfKey (key : Nat) : Obj := ⟨key / 256, key % 256, dfltOf (key / 256) (key % 256)⟩

/-! ### Sums of the configuration -/

/-- Segments of a stream line by configuration alone, in stream order (R206, R216): lane portions, then runs of 8,192 pixels. -/
def State.configSegments (s : State) (st : Nat) : List Nat :=
  let runs := fun (n : Nat) => List.replicate (n / 8192) 8192 ++ (if n % 8192 = 0 then [] else [n % 8192])
  (s.tribs st).flatMap fun t =>
    if t.kind = 0 then
      let per := (s.group t.source).cameraPixels / max (s.laneCount t.source) 1
      let cut := if per = 0 then runs t.pixels
        else ((List.range (s.laneCount t.source)).map fun i =>
          let w := t.within (i * per) ((i + 1) * per)
          w.2 - w.1).flatMap runs
      if t.reverse then cut.reverse else cut
    else if t.reverse then (runs t.pixels).reverse else runs t.pixels

/-- Slice cycles of one line of a stream (R216). -/
def State.lineCycles (s : State) (st : Nat) : Nat := sumNat ((s.configSegments st).map fun n => n / 4 + 16)

/-- Slice cycles per second of every configured stream (R216). -/
def State.loadCycles (s : State) : Nat :=
  sumNat ((List.range 64).map fun st => s.nat (Obj.maxLineRate st) * s.lineCycles st)

/-- LineBytes of a stream (R410). -/
def State.lineBytesOf (s : State) (st : Nat) : Nat :=
  let w := s.nat (Obj.storedWidthMax st)
  let plain := (widthOf (s.tribs st) * w + 255) / 256 * 32
  if s.flag (Obj.compressionAllowed st) then
    let rec_ := sumNat ((s.configSegments st).map fun n => 4 + 4 * ((n * w + 5 * ((n + 31) / 32) + 31) / 32))
    max plain (32 * ((rec_ + 31) / 32))
  else plain

/-- Sum of MaxLineRate × LineBytes × 8 over the streams picked (R407), bit/s. -/
def State.reservoirLoad (s : State) (pick : Nat → Bool) : Nat :=
  sumNat (((List.range 64).filter fun st => pick st && widthOf (s.tribs st) != 0).map fun st =>
    s.nat (Obj.maxLineRate st) * s.lineBytesOf st * 8)

/-- Class0HostLoad (R496), bytes/s. -/
def State.class0Load (s : State) : Nat :=
  sumNat (((List.range 64).filter fun st => s.nat (Obj.streamClass st) == 0 && widthOf (s.tribs st) != 0).map fun st =>
    s.nat (Obj.maxLineRate st) * (s.lineBytesOf st + 32))

/-- Sum of MaxLineRate × (LineBytes + 32) over the sealed streams (R693), bytes/s. -/
def State.sealBytes (s : State) : Nat :=
  sumNat (((List.range 64).filter fun st => s.flag (Obj.sealEnable st)).map fun st =>
    s.nat (Obj.maxLineRate st) * (s.lineBytesOf st + 32))

/-- Coefficient rows of one set of a stream (R220). -/
def State.coefRowsOf (s : State) (st : Nat) : Nat := (widthOf (s.tribs st) * s.nat (Obj.phases st) + 63) / 64

/-- Coefficient rows of every set (R221). -/
def State.coefRowsUsed (s : State) : Nat :=
  sumNat ((List.range 64).map fun st => s.coefRowsOf st * (1 + s.nat (Obj.coefShadow st)))

/-- Bytes rounded up to 2 MiB (R413). -/
def mib2 (n : Nat) : Nat := (n + 2097151) / 2097152 * 2097152

/-- Ring, page record and edge areas of a stream (R413): none for a ring of no lines. -/
def State.areasOf (s : State) (st : Nat) : Nat × Nat × Nat :=
  let n := s.nat (Obj.ringLines st)
  if n = 0 then (0, 0, 0)
  else
    let ph := max (s.nat (Obj.phases st)) 1
    (mib2 (n * (32 + s.lineBytesOf st)), mib2 (128 * s.nat (Obj.pageRecordEntries st)), mib2 (8 * ((n + ph - 1) / ph)))

/-- The calibration region (R261), and every allocation (R413). -/
def State.allocated (s : State) : Nat :=
  402653184 + sumNat ((List.range 64).map fun st => let a := s.areasOf st; a.1 + a.2.1 + a.2.2)

/-- The reported values that follow from the configuration in force: widths, slots, coefficient rows, loads, ReadoutTime. -/
def refreshConfig (s : State) : State :=
  let t := (List.range 64).foldl (fun (t : State × Nat) st =>
    let s := t.1
    let rows := s.coefRowsOf st
    let s := s.setReg (Obj.streamWidth st) (widthOf (s.tribs st))
    let s := s.setReg (Obj.slotBytes st) (32 + s.lineBytesOf st)
    let active := t.2 + (if (s.strm st).second && s.flag (Obj.coefShadow st) then rows else 0)
    (s.setReg (Obj.coefBaseRow st) active, t.2 + rows * (1 + s.nat (Obj.coefShadow st)))) (s, 0)
  let s := t.1
  let s := s.setReg Obj.coefFreeRows (114688 - t.2 : Nat)
  let s := s.setReg Obj.pipelineLoad (s.loadCycles * 100 / 102400000000 : Nat)
  let s := s.setReg Obj.writeBudgetUsed (s.reservoirLoad (fun _ => true) / 1000000 : Nat)
  let s := s.setReg Obj.readBudgetUsed (s.reservoirLoad (fun st => s.nat (Obj.deliverScope st) != 2) / 1000000 : Nat)
  let s := s.setReg Obj.class0HostLoad (s.class0Load / 1000000 : Nat)
  let s := s.setReg Obj.sealLoad (s.sealBytes / 1000000 : Nat)
  let s := s.setReg Obj.reservoirFree ((reservoirBytes : Int) - s.allocated)
  (List.range 32).foldl (fun s p =>
    s.setReg (Obj.readoutTime p) (if s.flag (Obj.portEnable p) then s.readoutNs p else 0)) s

/-! ### Members -/

/-- Streams an entry belongs to (R29): its own, or those whose tributaries use it. -/
def State.streamsOfEntry (s : State) (index sub : Nat) : List Nat :=
  let uses := fun (f : Trib → Bool) => (List.range 64).filter fun st => (s.tribs st).any f
  if index = 0x2031 || (0x6020 ≤ index && index ≤ 0x602C) || (0x6100 ≤ index && index ≤ 0x6106) || index = 0x9010 || index = 0xC100 then
    [sub - 1]
  else if 0x5100 ≤ index && index < 0x5140 then [index - 0x5100]
  else if 0x5200 ≤ index && index < 0x5240 then [index - 0x5200]
  else if 0x5300 ≤ index && index < 0x5340 then [index - 0x5300]
  else if 0x5400 ≤ index && index < 0x5440 then [index - 0x5400]
  else if 0x5501 ≤ index && index < 0x5600 then uses fun t => t.curve == index - 0x5500
  else if 0x5700 ≤ index && index < 0x5740 then [index - 0x5700]
  else if 0x7100 ≤ index && index < 0x7140 then [index - 0x7100]
  else if 0x8100 ≤ index && index < 0x8140 then [index - 0x8100]
  else if 0x8200 ≤ index && index < 0x8240 then [index - 0x8200]
  else if 0x8300 ≤ index && index < 0x8340 then [index - 0x8300]
  else if 0x3200 ≤ index && index < 0x3260 then uses fun t => t.kind == 0 && t.source == index - 0x3200
  else if 0x4100 ≤ index && index < 0x4120 then uses fun t => t.kind == 1 && t.source == index - 0x4100
  else if 0x4200 ≤ index && index < 0x4220 then
    let p := s.nat (Obj.inputPort (index - 0x4200))
    uses fun t => t.kind == 1 && t.source == p
  else []

/-- A coefficient entry as the store holds it at a logical address: OFFSET, GAIN and its check code (R219). -/
def entryWord (addr : Nat) (e : Int × Nat) : Nat :=
  let v := toBits 18 e.1 + 2 ^ 18 * e.2
  v + 2 ^ 36 * (Config.checkCode v addr % 256)

/-- A CoefTable's bytes as entries that differ from the defaults (R226). -/
def coefOfBytes : Nat → Nat → Bytes → Table (Int × Nat)
  | 0, _, _ => []
  | n + 1, i, b =>
    let e : Int × Nat := (signed 18 (leNat (b.take 3)), field (leNat ((b.drop 3).take 3)) 0 18)
    let rest := coefOfBytes n (i + 1) (b.drop 6)
    if e = (0, 65536) then rest else (i, e) :: rest

/-- A DefectMap's bytes (R226). -/
def defectsOfBytes : Nat → Bytes → List (Nat × Nat)
  | 0, _ => []
  | n + 1, b => let v := leNat (b.take 4); (field v 0 18, field v 30 2) :: defectsOfBytes n (b.drop 4)

/-- A Curve's knots (R226). -/
def knotsOfBytes : Nat → Bytes → List Nat
  | 0, _ => []
  | n + 1, b => field (leNat (b.take 3)) 0 18 :: knotsOfBytes n (b.drop 3)

/-- A Curve is the device's: every stream that names its slot has taken it (R29). -/
def settleCurve (slot : Nat) (knots : List Nat) (s : State) : State :=
  (List.range 64).foldl (fun s st => s.updStrm st fun x => { x with tables := { x.tables with curves := Table.set [] x.tables.curves slot [] } })
    { s with curves := Table.set [] s.curves slot knots }

/-- A CoefTable, DefectMap, Curve or LampTrim in effect, from line `line` of the stream where its group enters one: a CoefTable of a stream
with CoefShadow 1 by exchanging its row sets (R222), a Curve for that stream alone (R29). -/
def applyBlob (st line index sub : Nat) (b : Bytes) (s : State) : State :=
  if 0x5400 ≤ index && index < 0x5440 then
    let o := index - 0x5400
    let x := s.strm o
    if sub = 1 then
      let swap := s.flag (Obj.coefShadow o)
      let s := s.setStrm o { x with tables := { x.tables with coef := coefOfBytes (b.length / 6) 0 b }, second := x.second != swap,
                                    swapLine := if swap && s.streamOpen? o then some line else none }
      let s := s.setReg (Obj.tableState o) 1
      if s.streamOpen? o then s.updRing o fun r => { r with tableGen := (r.tableGen + 1) % 65536 } else s
    else s.setStrm o { x with tables := { x.tables with defects := defectsOfBytes (b.length / 4) b } }
  else if 0x5501 ≤ index && index < 0x5600 then
    let k := knotsOfBytes 257 b
    if st < 64 then s.updStrm st fun x => { x with tables := { x.tables with curves := Table.set [] x.tables.curves (index - 0x5500) k } }
    else settleCurve (index - 0x5500) k s
  else if index = 0x7000 then
    { s with lamps := { s.lamps with trim := (List.range 1024).foldl (fun t i =>
                                     Table.set 32768 t i (leNat ((b.drop (2 * i)).take 2))) s.lamps.trim } }
  else if index = 0xD000 then { s with sec := { s.sec with sandboxImage := b } }
  else s

/-- The pin of a TioConfig that entered shows its function's level (R46, R318), driven anew where it becomes an output or its polarity
changes; an input keeps its level at the ball, so that a new
polarity exchanges asserted and deasserted (R334), and an asserted QUICK_STOP_IN acts (R773). -/
def tioEnter (t : Nat) (old : Nat) (s : State) : State :=
  let src := s.tioSource t
  let s := if s.tioIsInput t && bitAt old 25 != s.tioLow t then s.updTio t fun x => { x with level := !x.level } else s
  let fresh := field old 26 6 < 16 || bitAt old 25 != s.tioLow t
  let drive := fun (on : Bool) (s : State) => driveTio t on s.now (if fresh then s.updTio t fun x => { x with level := !on } else s)
  match s.tioFn t with
  | 16 => drive (s.queue src).weir s
  | 17 => drive (bitAt (s.ring (src / 16)).weirs (src % 16)) s
  | 19 => drive (s.seam src).divert s
  | 20 => drive ((s.motion src).state != .off && (s.motion src).state != .fault) s
  | 18 | 21 | 22 => drive false (s.updTio t fun x => { x with instants := [], pulseEnd := none })
  | 3 => if (s.tio t).level then quickStopActs t s else s
  | _ => s

/-- K of a filter preset, which is also its settling count, and D (R523). -/
def presetOf (v : Nat) : Nat × Nat :=
  match v with
  | 0 => (3, 4)
  | 1 => (5, 16)
  | 2 => (7, 64)
  | _ => (9, 256)

/-- Channels of a converter's regular sequence (R512). -/
def State.sequence (s : State) (j : Nat) : List Nat :=
  ((List.range 16).map fun e => s.nat (Obj.seqChannel j e)).takeWhile (· != 255)

/-- The converter that converts for a channel's converter: a FOLLOWER's samples belong to its pair (R512). -/
def State.multiplexed (s : State) (j : Nat) : Bool :=
  decide (1 < (s.sequence j).length) || (List.range 64).any fun k => s.flag (Obj.chInjected k) && s.nat (Obj.chConverter k) == j

/-- A committed change of a channel's pins, gain, preset, averaging or generator, or ChEnable: its filter is cleared and it
settles (R524). -/
def feClear (k : Nat) (s : State) : State :=
  let x := Table.get {} s.fe.chans k
  let p := presetOf (s.nat (Obj.preset k))
  let x := { x with gain := none, lowRun := 0, clamped := none, newGain := false, step := false, main := {}, quad := {}, count := 0, clipAt := none,
                    clampAt := none, lateAt := none, settle := p.1, discard := s.multiplexed (s.nat (Obj.chConverter k)) }
  { s with fe := { s.fe with chans := Table.set {} s.fe.chans k x } }

/-- Another AutoRange enters: it holds at no bound of the old one (R522). -/
def autoRangeEnters (k : Nat) (s : State) : State :=
  { s with fe := { s.fe with chans := Table.set {} s.fe.chans k { Table.get {} s.fe.chans k with clamped := none } } }

/-- The lanes of a link group change (R771, R772): it holds nothing of a link, and is DOWN until its lanes start training. -/
def groupLanesEnter (g : Nat) (s : State) : State := s.setGroup g {}

/-- One member takes effect, at line `line` of the stream where the group enters one. -/
def applyMember (st line : Nat) (m : Nat × Val) (s : State) : State :=
  let index := m.1 / 256
  let sub := m.1 % 256
  match m.2 with
  | .blob b => applyBlob st line index sub b s
  | .num v =>
    let o := objOfKey m.1
    let old := s.reg o
    let s := s.setReg o v
    if index = 0x6020 && s.nat (Obj.triggerSource (sub - 1)) = 1 && sub = st + 1 && s.streamOpen? st then
      -- the boundary line keeps its target (R308)
      s.setReg (Obj.triggerBase st) (s.reg (Obj.triggerBase st) + line * (old - v))
    else if 0x3200 ≤ index && index < 0x3260 && 1 ≤ sub && sub ≤ 9 then
      if old = v then s else groupLanesEnter (index - 0x3200) s
    else if 0x6010 ≤ index && index < 0x6020 && sub = 1 then posFormatEnters (index - 0x6010) old s
    else if 0x6010 ≤ index && index < 0x6020 && sub = 7 then hysteresisEnters (index - 0x6010) s
    else if 0x6200 ≤ index && index < 0x6260 && sub = 1 then tioEnter (index - 0x6200) old.toNat s
    else if 0xA200 ≤ index && index < 0xA240 && ([1, 2, 3, 6, 8, 9, 10, 11] : List Nat).contains sub then feClear (index - 0xA200) s
    else if 0xA200 ≤ index && index < 0xA240 && sub = 7 then autoRangeEnters (index - 0xA200) s
    else if index = 0x7000 && (sub = 2 || sub = 3) && s.nat Obj.headroomMode = 0 then
      s.setReg Obj.lampRailSetpoint (s.reg Obj.lampRailFixed)
    else if 0x6110 ≤ index && index < 0x6120 && 7 ≤ sub && sub ≤ 9 then paceFixed (index - 0x6110) s
    else if 0x5700 ≤ index && index < 0x5740 then captureEnters (index - 0x5700) line s
    else if index = 0xC100 && old = 0 && v ≠ 0 then sealEnters (sub - 1) s
    else if index = 0xC300 then alarmEval s
    else if index = 0xC310 then driveAlarm (sub - 1) s
    else if index = 0xD000 && sub = 2 then s.setReg Obj.sandboxStatus v
    else s

/-- What a change of width or Phases does to a stream's tables (R769). -/
def resetTables (members : List (Nat × Val)) (st : Nat) (w0 p0 : Nat) (s : State) : State :=
  let has := fun sub => members.any fun m => m.1 == (0x5400 + st) * 256 + sub
  let w := widthOf (s.tribs st)
  let wide := w != w0
  let s := if (wide || s.nat (Obj.phases st) != p0) && !has 1 then
      (s.updStrm st fun x => { x with tables := { x.tables with coef := [] } }).setReg (Obj.tableState st) 0 else s
  if wide && !has 2 then s.updStrm st fun x => { x with tables := { x.tables with defects := [] } } else s

/-- The members of a group in effect, in order; for a group of boundary M the sums of the configuration follow. -/
def applyMembers (st line : Nat) (ms : List (Nat × Val)) (s : State) : State :=
  let before := (List.range 64).map fun k => (k, widthOf (s.tribs k), s.nat (Obj.phases k))
  let s := ms.foldl (fun s m => applyMember st line m s) s
  let s := before.foldl (fun s b =>
    if widthOf (s.tribs b.1) = b.2.1 && s.nat (Obj.phases b.1) = b.2.2 then s else resetTables ms b.1 b.2.1 b.2.2 s) s
  refreshConfig s

/-- COMMIT_DONE (R562). -/
def commitDone (id stream line : Nat) (s : State) : State := s.raise .commitDone [id, stream, line]

/-! ### Groups of streams (R28 to R30, R427) -/

/-- The next line a stream will schedule. -/
def State.nextLineOf (s : State) (st : Nat) : Nat := (s.gen st).next

/-- The line after which the open page ends, where that is already decided (R422, R424, R428); none too where a P group has entered
after it, so that it ends there. -/
def State.pageEnd (s : State) (st : Nat) : Option Nat :=
  let r := s.ring st
  let ph := s.nat (Obj.phases st)
  match r.page with
  | none => none
  | some p =>
    if p.firstLine < r.pageFloor then none else
    let cap := p.firstLine + s.nat (Obj.pageMaxCycles st) * ph
    if s.nat (Obj.pageMode st) = 0 then some (min cap (p.firstLine + s.nat (Obj.pageCycles st) * ph))
    else match r.closeAfter with
      | some k => some (min cap ((k + 1) * ph))
      | none => some cap

/-- A group of a boundary may enter a running stream at its next line (R23, R427). -/
def State.boundaryAt (s : State) (st boundary : Nat) : Bool :=
  let n := s.nextLineOf st
  let ph := max (s.nat (Obj.phases st)) 1
  match boundary with
  | 3 => true
  | 2 => n % ph == 0
  | 1 =>
    if s.nat (Obj.pageMode st) = 0 then
      let f := match (s.ring st).page with
        | some p => max p.firstLine (s.ring st).pageFloor
        | none => (s.ring st).pageFloor
      decide (f ≤ n) && (n - f) % (max (min (s.nat (Obj.pageCycles st)) (s.nat (Obj.pageMaxCycles st))) 1 * ph) == 0
    else match s.pageEnd st with
      | none => n % ph == 0
      | some e => e == n
  | _ => false

/-- The curves of a group that its last stream has taken. -/
def settleCurves (ms : List (Nat × Val)) (s : State) : State :=
  ms.foldl (fun s m =>
    match m.2 with
    | .blob b => if 0x5501 ≤ m.1 / 256 && m.1 / 256 < 0x5600 then settleCurve (m.1 / 256 - 0x5500) (knotsOfBytes 257 b) s else s
    | .num _ => s) s

/-- A committed table of a stream waits for its page boundary (R254): a CoefTable, a DefectMap or a Curve. -/
def State.tableWaits (s : State) (st : Nat) (coefOnly : Bool) : Bool :=
  s.groupsWaiting.any fun g => g.streams.contains st && g.members.any fun m =>
    let i := m.1 / 256
    if coefOnly then i = 0x5400 + st && m.1 % 256 = 1
    else 0x5400 ≤ i && i < 0x5600 && (s.streamsOfEntry i (m.1 % 256)).contains st

/-- TableState (R255): 3 while lines that read the set exchanged last are open, 2 while a CoefTable waits. -/
def State.tableStateOf (s : State) (st : Nat) : Nat :=
  let old := match (s.strm st).swapLine with
    | some n => s.records.any fun r => r.stream == st && decide (r.line < n)
    | none => false
  if old then 3 else if s.tableWaits st true then 2 else s.nat (Obj.tableState st)

/-- A stream holds as many waiting groups as it may (R31). -/
def State.groupsFull (s : State) (st : Nat) : Bool := 4 ≤ (s.groupsWaiting.filter fun g => g.streams.contains st).length

/-- A stream takes its members of a waiting group at its next line (R28, R29). -/
def enterStream (g : CommitGroup) (st : Nat) (s : State) : State :=
  let n := s.nextLineOf st
  let mine := g.members.filter fun m =>
    let o := s.streamsOfEntry (m.1 / 256) (m.1 % 256)
    o.contains st || (o.isEmpty && !g.begun)
  let s := applyMembers st n mine s
  let s := if g.boundary = 1 then s.updRing st fun r => { r with pageFloor := max r.pageFloor n } else s
  let left := g.streams.filter (· != st)
  let s := if left.isEmpty then settleCurves g.members s else s
  let s := { s with groupsWaiting := if left.isEmpty then s.groupsWaiting.filter fun w => w.id != g.id
                                     else s.groupsWaiting.map fun w => if w.id == g.id then { w with streams := left, begun := true } else w }
  commitDone g.id st (n % 2 ^ 32) s

/-- Groups of L, C and P that are due at the next line of a stream enter, in order of acceptance; an earlier group of the
stream that still waits holds the later ones back (R31). -/
def enterDue (st : Nat) : Nat → State → State
  | 0, s => s
  | n + 1, s =>
    match s.groupsWaiting.find? fun g => g.streams.contains st && 1 ≤ g.boundary && g.boundary ≤ 3 with
    | none => s
    | some g => if s.boundaryAt st g.boundary then enterDue st n (enterStream g st s) else s

/-- A stream that is not running takes every waiting group before its first line (R30). -/
def enterIdle (st : Nat) (s : State) : State :=
  (s.groupsWaiting.filter fun g => g.streams.contains st && 1 ≤ g.boundary && g.boundary ≤ 3).foldl
    (fun s g => enterStream g st s) s

/-- Streams the members of a group belong to, each once (R29). -/
def State.streamsOfMembers (s : State) (ms : List (Nat × Val)) : List Nat :=
  (List.range 64).filter fun st => ms.any fun m => (s.streamsOfEntry (m.1 / 256) (m.1 % 256)).contains st

/-- A group takes effect as a whole (R24, R29, R382), with one COMMIT_DONE for each stream it belongs to (R562). -/
def enterPlain (g : CommitGroup) (s : State) : State :=
  let s := applyMembers 64 0 g.members { s with groupsWaiting := s.groupsWaiting.filter fun w => w.id != g.id }
  let s := if g.boundary = 4 then { s with lamps := { s.lamps with gen := (s.lamps.gen + 1) % 65536 } } else s
  match s.streamsOfMembers g.members with
  | [] => commitDone g.id 0xFF (maxU 32) s
  | sts => sts.foldl (fun s st => commitDone g.id st (s.nextLineOf st % 2 ^ 32) s) s

/-- COMMIT_ENTER: an accepted group reaches its boundary (R23, R28, R382): L, C and P groups at the stream's next line, S
groups at the window opening their broadcast set; M groups enter with their mode. -/
def execCommitEnter (id : Nat) (st : Option (Fin 64)) (s : State) : Result :=
  .next <| match s.groupsWaiting.find? fun g => g.id == id with
    | none => s
    | some g =>
      match g.boundary, st with
      | 4, _ => match g.applyAt with
        | some t => if t ≤ s.now then enterPlain g s else s
        | none => s
      | 0, _ => s
      | b, some st =>
        let first := (s.groupsWaiting.find? fun w => w.streams.contains st.val && 1 ≤ w.boundary && w.boundary ≤ 3)
        if g.streams.contains st.val && first.map CommitGroup.id == some id && (!s.streamOpen? st || s.boundaryAt st b)
        then enterStream g st s else s
      | _, none => if g.streams.isEmpty then enterPlain g s else s

end Sys2Proof.Machine
end

