-- ==== Sys2Proof/Machine/Generator.lean ====
section
/-! DEFINITION. The trigger generator (R301 to R310, R343, R217, R352, R397): scheduling a line, withdrawing and placing
lines at edges, the line's trigger instant, and the opening of a stream (R30, R414). -/
namespace Sys2Proof.Machine

/-! ### A line's facts -/

/-- Portions a line awaits (R125, R208): of a group one for each LANE_ID with pixels in the contribution, of a port one. -/
def State.partsOf (s : State) (st : Nat) : List Part :=
  (s.tribs st).zipIdx.flatMap fun (e : Trib × Nat) =>
    let t := e.1
    if t.kind = 0 then
      let n := s.laneCount t.source
      let per := (s.group t.source).cameraPixels / max n 1
      if per = 0 then [{ trib := e.2, portion := 0, need := t.pixels }]
      else (List.range n).filterMap fun i =>
        let w := t.within (i * per) ((i + 1) * per)
        if w.2 - w.1 = 0 then none else some { trib := e.2, portion := i, need := w.2 - w.1 }
    else [{ trib := e.2, portion := 0, need := t.pixels }]

/-- Exposure E_n of a phase (R343, R373): `v` is the K and span of the prediction that placed the line; none without one. -/
def State.exposureFor (s : State) (regs : Obj → Nat) (st ph : Nat) (v : Option (Nat × Nat)) (positioned : Bool) : Nat :=
  let e := regs (Obj.phaseExposure st ph)
  let u := s.nat (Obj.streamTransport st)
  if s.nat (Obj.rampExposure st) = 0 || !positioned || 16 ≤ u then e
  else
    let lo := (e * 65536 * 257 + regs (Obj.normMax st) * 256 - 1) / max (regs (Obj.normMax st) * 256) 1
    let hi := e * 65536 * 255 / max (regs (Obj.normMin st) * 256) 1
    match v with
    | none => hi
    | some (k, span) =>
      let ref := s.nat (Obj.rampRefSpeed u)
      max lo (min hi ((2 * e * ref * span + k * 1000000000) / (2 * k * 1000000000)))

/-- Every tributary of a stream is analog. -/
def State.allAnalog (s : State) (st : Nat) : Bool := (s.tribs st).all fun t => t.kind == 1

/-- Bands a phase of a stream names. -/
def State.bandsOf (s : State) (st ph : Nat) : Nat := field (s.nat (Obj.phaseLight st ph)) 48 16

/-- Another stream that uses one of the bands is inside a page (R265). -/
def State.bandsInPage (s : State) (st ph : Nat) : Bool :=
  (List.range 64).any fun o => o != st && s.streamOpen? o && !s.pageGap o &&
    (List.range (s.nat (Obj.phases o))).any fun p => (s.bandsOf o p &&& s.bandsOf st ph) != 0

/-- A line of a stream, at a position or an instant, is outside every page as far as it can be told (R256): no page is open, and no gate
that opens one lies before it. -/
def State.gapAt (s : State) (st : Nat) (here : Int) : Bool :=
  s.pageGap st && (s.ring st).gates.all fun g => !g.opens || decide (here < g.at_)

/-- A running capture takes the line, and whether it darkens it (R256, R257, R264, R265). -/
def captureMark (s : State) (st n ph : Nat) (here : Int) : Bool × Bool :=
  let c := s.calib st
  let started := match c.fromLine with
    | some f => decide (f ≤ n)
    | none => false
  let restore := match c.restoreAt with
    | some k => decide (n < k)
    | none => false
  if c.state != .capturing || !started then (false, restore)
  else
    let room := decide ((Table.get {} c.work ph).lines + Table.get 0 c.inFlight ph < c.lines)
    let sel := bitAt c.mask ph && room
    match c.kind with
    | 1 => (sel, true)
    | 2 => (sel, false)
    | 3 => let t := sel && s.gapAt st here && !s.bandsInPage st ph; (t, t)
    | 4 => (sel && s.gapAt st here, false)
    | _ => (false, false)

/-- A line's trigger is withheld to open a diagnostic interval (R397): a band it must clear has an UNVERIFIED crosspoint,
and every stream that interval must clear permits it and is outside every page. -/
def State.withholds (s : State) (st : Nat) : Bool :=
  decide ((s.gen st).withheld < 2) && (List.range 16).any fun b =>
    let clear := s.streamsNaming b ++ (List.range 64).filter fun v => bitAt (s.nat (Obj.bandViewers b)) v
    clear.contains st && s.flag (Obj.bandEnable b) &&
      (s.columnsOf b).any (fun c => (s.xpoint (xpIndex b c)).state == .unverified) &&
      clear.all fun v => s.flag (Obj.diagSuppress v) && s.pageGap v

/-- The position facts of a line (R310, R419). -/
structure Placed where
  /-- POS_KIND, P_TARGET and the latched pair. -/
  kind : Nat
  target : Int := 0
  pos : Int := 0
  dt : Int := 0
  /-- K and span of the prediction that placed it. -/
  v : Option (Nat × Nat) := none
  slip : Bool := false
  deriving DecidableEq, Repr

/-- The TRIGGER of a line to each link group of the stream that is UP, while it completes TriggerLead before the scheduled instant (R162;
DESIGN CHOICE, log entry 95: later than that none is sent, and the line closes under R19). -/
def sendTriggers (r : LineRec) (s : State) : State :=
  (tribsOf r.nat r.stream).foldl (fun s t =>
    let g := t.source
    let st := (s.group g).state
    if t.kind = 0 && (st == .up || st == .spareInUse) && decide (s.now + us (r.nat (Obj.triggerLead g)) ≤ r.sched) then
      sendBack g 0x11 (pack [(36, 1, r.nat (Obj.triggerLateOk g)), (32, 4, r.phase), (0, 32, r.seq)])
        (leBytes 16 (pack [(96, 2, r.sched % 4), (64, 32, r.exposure), (0, 64, r.sched / 4)])) s
    else s) s

/-- The stream's trigger rate against MaxLineRate over 1 ms (R217): one count for each unbroken run of excess. -/
def countRate (st at_ : Nat) (s : State) : State :=
  let limit := (s.nat (Obj.maxLineRate st) + 999) / 1000
  let before := (s.strm st).recent
  let now := at_ :: before.filter fun t => decide (at_ < t + ms 1)
  let s := s.updStrm st fun x => { x with recent := now }
  if limit < now.length && before.length ≤ limit then s.count (Obj.lineRateExceeded st) else s

/-- Line n_last + 1 of a stopped stream triggers (R352, R354): SEAM_RESUME, the gates taken again, and RUNNING once every
stream of the transport has it (R344): a restart completed, counted in SEAMS (R366), at PacingFixed with PacingMode 0 (R342). -/
def seamResume (r : LineRec) (s : State) : State :=
  let st := r.stream
  let s := (s.updSeam st fun x => { x with resumeLine := none }).count (Obj.seamResumes st)
  let s := s.raise .seamResumed [st, (r.line % 2 ^ 32 : Nat)]
  let s := if (s.seam st).holding then releaseGates st (r.sched / 4) r.pTarget s else s
  let u := s.nat (Obj.streamTransport st)
  if u < 16 && (s.trans u).state == .restarting && (s.runningOf u).all fun o => (s.seam o).resumeLine.isNone
  then paceFixed u ((transEnter u .running s).updTrans u fun x => { x with seams := (x.seams + 1) % 65536 }) else s

/-- One line scheduled (R16, R303, R307, R309): the number assigned, the record opened, the lamps planned, the trigger sent;
or the line withheld and emitted with LOST (R307, R397). -/
def scheduleLine (st : Nat) (want : Nat) (p : Placed) (s : State) : State :=
  let s := enterDue st s.groupsWaiting.length s
  let g := s.gen st
  let n := g.next
  let phases := max (s.nat (Obj.phases st)) 1
  let ph := n % phases
  let minP := ns (s.nat (Obj.triggerMinPeriod st))
  let at_ := match g.last with
    | some t => max want (t + minP)
    | none => want
  let late := decide (ns (s.nat (Obj.triggerMaxDelay st)) < at_ - want)
  let hold := !late && s.withholds st
  let opens := match (s.tribs st).find? fun t => t.kind == 1 with
    | some t => max at_ ((s.port t.source).prevP)
    | none => at_
  let view := s.lampView opens
  let regs := fun (o : Obj) => (Table.get o.dflt view.1 o.key).toNat
  let mark := captureMark s st n ph (if p.kind = 1 then p.target else ((at_ / 4 : Nat) : Int))
  let r : LineRec :=
    { stream := st, line := n, seq := g.seq, phase := ph, cycle := n / phases, sched := at_,
      exposure := s.exposureFor regs st ph p.v (p.kind == 1), posKind := p.kind, pTarget := p.target, latchPos := p.pos, latchDt := p.dt,
      lampGen := view.2.2, parts := s.partsOf st, regs := view.1, tables := (s.strm st).tables, curves := s.curves,
      tableGen := (s.ring st).tableGen,
      seamResume := (s.seam st).resumeLine == some n, trigSlip := p.slip, predicted := p.v.isSome,
      calTake := mark.1, dark := mark.2 }
  let r := { r with bandOff := bandOffFor s r }
  let s := s.updGen st fun g =>
    { g with next := n + 1, seq := (g.seq + 1) % 2 ^ 32, triggered := max g.triggered (n + 1), used := g.used.filter fun k => decide (n + 1 < k),
             last := if late || hold then g.last else some at_, withheld := if hold then g.withheld + 1 else 0 }
  let s := s.updStrm st fun x => { x with state := if x.state == .opening then .running else x.state }
  let s := if r.seamResume then seamResume r s else s
  let s := if r.calTake then s.updCalib st fun c => { c with inFlight := Table.set 0 c.inFlight ph (Table.get 0 c.inFlight ph + 1) } else s
  if late then
    let s := (s.updGen st fun g => { g with used := g.used ++ [n] }).count (Obj.overspeedLines st)
    let s := s.raiseFault .posOverspeed [st, (n % 2 ^ 32 : Nat)] Kind.posOverspeed 2 st 0 (islandOf 0 0)
    loseRec r { s with records := s.records ++ [r] }
  else if hold then
    let s := (s.updGen st fun g => { g with used := g.used ++ [n] }).count (Obj.diagLinesWithheld st)
    loseRec r { s with records := s.records ++ [r] }
  else
    let s := { s with records := s.records ++ [r] }
    let s := s.mapPulses fun ps => ps ++ lampPlan s r view.2.1
    countRate st at_ (sendTriggers r s)

/-- The stream's transport is STOPPABLE (R335). -/
def State.stoppable (s : State) (st : Nat) : Bool := s.kindOf st == 1

/-- Scheduling is held: in Hold, and on the way into it once the page ends, for a stream that no STOPPABLE transport stops (R362). -/
def State.genHeld (s : State) (st : Nat) : Bool :=
  (s.gen st).held || (s.target == some .hold && !s.stoppable st && s.boundaryAt st 1)

/-- Numbers a withdrawal left already emitted above it are passed over. -/
def skipUsed (st : Nat) (s : State) : State :=
  s.updGen st fun g =>
    let skip := (List.range 64).find? fun i => !g.used.contains (g.next + i)
    { g with next := g.next + skip.getD 0 }

/-- Before a line is placed: numbers already emitted are passed over, and the groups due at the line enter, so that its own instant
follows them (R23, R28). -/
def readyToPlace (st : Nat) (s : State) : State :=
  let s := skipUsed st s
  if s.genHeld st then s else enterDue st s.groupsWaiting.length s

/-! ### Timer streams (R309) -/

/-- Timer lines due within FreezeLead, `n` at most. -/
def timerRun (st : Nat) : Nat → State → State
  | 0, s => s
  | k + 1, s =>
    let s := readyToPlace st s
    let g := s.gen st
    let inst := g.t0 + g.next * s.reg (Obj.linePeriod st)
    if s.genHeld st || (s.now : Int) + 4 * s.reg (Obj.freezeLead st) < inst then s
    else
      let c := s.nat (Obj.triggerChannel st)
      let e := (s.posChan c).latches.head?
      let p : Placed := match decide (c < 16), e with
        | true, some e => { kind := 2, target := e.1 * 65536, pos := e.1, dt := e.2 }
        | true, none => { kind := 2, target := s.extPos c * 65536, pos := s.extPos c, dt := 0 }
        | _, _ => { kind := 0 }
      timerRun st k (scheduleLine st inst.toNat p s)

/-! ### Position streams (R301 to R306) -/

/-- Target P_n (R301), in 1/65,536 counts. -/
def State.targetOf (s : State) (st n : Nat) : Int := s.reg (Obj.triggerBase st) + n * s.reg (Obj.linePitch st)

/-- Position predicted at an instant in 1/4 ns (R300), in 1/65,536 counts. -/
def State.predictAtQ (s : State) (c : Nat) (q : Nat) : Int :=
  let e := s.predictEnds c
  let k := s.nat (Obj.extrapEdges c)
  let span := (e.1.2 : Int) - e.2.2
  if span ≤ 0 then e.1.1 * 65536
  else e.1.1 * 65536 + (((q : Int) - 4 * e.1.2) * k * 65536 + 2 * span) / (4 * span)

/-- The exposure of a line has started: at its scheduled instant for a camera, at the opening of its window for a port (R176, R306). -/
def State.exposing (s : State) (r : LineRec) : Bool :=
  decide (r.sched ≤ s.now) && ((r.parts.any fun q => q.got != 0) || (tribsOf r.nat r.stream).any fun t =>
    t.kind == 0 || (s.port t.source).queue.any fun l => l.seq == r.seq)

/-- A line that is off its target at an edge is withdrawn (R306): TRIG_CANCEL to the groups, its window not opened on a
port; a line whose exposure has started is kept as a slip. -/
def withdraw (st : Nat) (r : LineRec) (s : State) : State :=
  if s.exposing r then (if r.trigSlip then s else slipRec r s)
  else
    let gs := ((tribsOf r.nat st).filter fun t => t.kind == 0 && ((s.group t.source).state == .up || (s.group t.source).state == .spareInUse)).map
      Trib.source
    if gs.isEmpty then withdrawRec r s
    else
      let s := gs.foldl (fun s g => sendCancel g r.seq r.seq s) s
      updRec st r.line (fun r => { r with cancelling := gs }) s

/-- The check of scheduled lines at a new edge (R306, R310). -/
def recheck (st c : Nat) (s : State) : State :=
  let seen := (s.gen st).edgeSeen.getD 0
  let live := s.records.filter fun r => r.stream == st && r.predicted && r.cancelling.isEmpty && decide (4 * seen ≤ r.sched)
  live.foldl (fun s r =>
    let off := (s.predictAtQ c r.sched - r.pTarget).natAbs
    if !s.predictValid c || s.nat (Obj.triggerTolerance st) < off then withdraw st r s
    else if s.now < r.sched then
      match (s.posChan c).latches.head? with
      | some e => updRec st r.line (fun r => { r with latchPos := e.1, latchDt := e.2 }) s
      | none => s
    else s) s

/-- Lines whose target the reported position has reached without a valid prediction (R305). -/
def placeReached (st c stamp : Nat) : Nat → State → State
  | 0, s => s
  | k + 1, s =>
    let s := readyToPlace st s
    let n := (s.gen st).next
    if s.genHeld st || s.extPos c * 65536 < s.targetOf st n then s
    else
      let analog := s.allAnalog st
      let at_ := if analog then ns (stamp + 200) else ns (stamp + s.nat (Obj.freezeLead st))
      let p : Placed := { kind := 1, target := s.targetOf st n, pos := s.extPos c, dt := stamp, slip := !analog }
      let s := if analog then s
        else (s.count (Obj.triggerSlips st)).raise .posTriggerSlip [st, (n % 2 ^ 32 : Nat)]
      placeReached st c stamp k (scheduleLine st at_ p s)

/-- Lines the prediction places within FreezeLead (R303). -/
def placePredicted (st c : Nat) : Nat → State → State
  | 0, s => s
  | k + 1, s =>
    let s := readyToPlace st s
    let n := (s.gen st).next
    let target := s.targetOf st n
    let e := s.predictEnds c
    let inst := s.predictInstant c target
    if s.genHeld st || target ≤ e.1.1 * 65536 || (s.now : Int) + 4 * s.reg (Obj.freezeLead st) < inst then s
    else
      let p : Placed := { kind := 1, target := target, pos := e.1.1, dt := e.1.2,
                          v := some (s.nat (Obj.extrapEdges c), e.1.2 - e.2.2) }
      placePredicted st c k (scheduleLine st inst.toNat p s)

/-- Lines one evaluation may place at most; a stream's triggers are never closer than 500 ns (R307). -/
def placeFuel : Nat := 4096

/-- One evaluation of a position stream (R302 to R306). -/
def positionRun (st : Nat) (s : State) : State :=
  let c := s.nat (Obj.triggerChannel st)
  if 16 ≤ c then s
  else
    let l := (s.posChan c).latches
    let stamp := (l.head?.map Prod.snd).getD 0
    let fresh := !l.isEmpty && (s.gen st).edgeSeen != some stamp
    let s := if fresh then recheck st c s else s
    let upward := match l with
      | a :: b :: _ => decide (b.1 < a.1)
      | _ => true
    let waits := s.genHeld st || s.records.any fun r => r.stream == st && !r.cancelling.isEmpty
    let s := if fresh && upward && !waits then placeReached st c stamp placeFuel s else s
    let s := if s.predictValid c && !waits then placePredicted st c placeFuel s else s
    if fresh then s.updGen st fun g => { g with edgeSeen := some stamp } else s

/-- A stream takes triggers: open and not closing (R212). -/
def State.triggering (s : State) (st : Nat) : Bool :=
  (s.strm st).state == .opening || (s.strm st).state == .running

/-- A slice cluster ramps that a stream's first trigger waits for (R613). -/
def State.clusterRamps (s : State) (st : Nat) : Bool :=
  (s.strm st).state == .opening && (List.range 16).any fun k => s.nat (Obj.domainState (26 + k)) == 1

/-- GENERATOR_EVALUATE: one evaluation of a stream's generator, every 250 ns and at every edge (R303, R309). Slice clusters that ramp for a
stream delay its opening (R613), and T0 with it (DESIGN CHOICE, log entry 106). -/
def execGeneratorEvaluate (st : Fin 64) (s : State) : Result :=
  .next <| if !s.triggering st then s
    else if s.clusterRamps st then s.updGen st fun g => { g with t0 := (s.now : Int) + 4 * s.reg (Obj.freezeLead st) }
    else if s.nat (Obj.triggerSource st) = 1 then positionRun st s
    else timerRun st placeFuel s

/-! ### Opening a stream -/

/-- A stream may open (R413, R414, R771): its ring has slots and holds no HOLD or HOST mark, and no group of it has
FAILED. -/
def State.openable (s : State) (st : Nat) : Bool :=
  (s.ring st).allocated && s.nat (Obj.ringLines st) != 0 && !(s.tribs st).isEmpty &&
    (s.ring st).marks.all (fun m => m.kind != .hold && m.kind != .host) &&
    (s.tribs st).all fun t => t.kind != 0 || (s.group t.source).state != .failed

/-- A stream opens (R30, R301, R309, R414, R415, R424): waiting groups enter, the ring is emptied, p0 or T0 is set, an
asserted gate opens a page at the first cycle, and the transport runs. -/
def openStream (st : Nat) (s : State) : State :=
  let s := enterIdle st s
  let r := s.ring st
  let pins := (s.pinsOf 2 st).filter fun t => (s.tio t).level
  let gates : List GateEvent := if s.nat (Obj.pageMode st) = 1 && !pins.isEmpty then [⟨true, -(2 ^ 100)⟩] else []
  let marks : List Mark := if s.nat (Obj.deliverScope st) = 2 then [] else [⟨.delivery, 0, 0⟩]
  let s := s.setRing st { allocated := r.allocated, base := r.base, recordBase := r.recordBase, edgeBase := r.edgeBase,
                          marks := marks, gates := gates, gatePins := pins }
  let x := s.strm st
  let s := s.setStrm st { x with state := .opening, drift := [], lastEntered := none, lastWritten := none, firstLine := 0, endLine := none,
                                 ignored := [], recent := [], heldOpen := none }
  let s := s.updCalib st fun c => { c with restoreAt := none, fromLine := c.fromLine.map fun _ => 0, inFlight := [] }
  -- what an earlier opening left to the link no longer moves a mark
  let s := dropLineEnds (· == st) s
  let c := s.nat (Obj.triggerChannel st)
  let s := s.updGen st fun g => { seq := g.seq, t0 := (s.now : Int) + 4 * s.reg (Obj.freezeLead st) }
  let s := if s.nat (Obj.triggerSource st) = 1 && decide (c < 16) then
      s.setReg (Obj.triggerBase st) (s.extPos c * 65536 + s.reg (Obj.triggerStartOffset st)) else s
  let s := (s.tribs st).foldl (fun s t =>
    if t.kind = 1 && s.bank (t.source / 8) == .ready && s.flag (Obj.portEnable t.source) then
      s.updPort t.source fun p => { p with state := .running, prevP := 0, prevR := 0 } else s) s
  let s := s.updSeam st fun x => { divert := x.divert, divertUntil := x.divertUntil }
  let s := (s.tribs st).foldl (fun s t => if t.kind = 0 then keepAwake t.source s else s) s
  let s := weirEval st s
  let u := s.nat (Obj.streamTransport st)
  if u < 16 then transStreamOpened u s else s

/-! ### The trigger instant -/

/-- At its trigger a GAP_DARK line is given up where another stream that uses its bands is inside a page by then (R265). -/
def gapRecheck (r : LineRec) (s : State) : State :=
  if r.calTake && (s.calib r.stream).kind = 3 && s.bandsInPage r.stream r.phase then
    (updRec r.stream r.line (fun r => { r with calTake := false }) s).updCalib r.stream fun c =>
      { c with inFlight := Table.set 0 c.inFlight r.phase (Table.get 0 c.inFlight r.phase - 1) }
  else s

/-- TRIGGER_OUT pins of a stream pulse at a line's scheduled instant (R318). -/
def triggerOut (st : Nat) (at_ : Nat) (s : State) : State :=
  (s.pinsOf 22 st).foldl (fun s t => pulseTio t at_ s) s

end Sys2Proof.Machine
end

