-- ==== Sys2Proof/Machine/Spares.lean ====
section
/-! DEFINITION. Spare pools, repair records, wear crossings and coefficient row mapping (R225, R651, R660, R663 to R665):
what the data path and the arbiter share. -/
namespace Sys2Proof.Machine

/-! ### Pools (R640, R651) -/

/-- The spare pool of a kind, numbered as SparePoolLeft less 16; the TMR copies are pool 8. None where R640 has "—". -/
def poolOf (kind detail : Nat) : Option Nat :=
  if kind = 0x01 || kind = 0x02 || kind = 0x03 || kind = 0x60 then some 0
  else if kind = 0x18 || kind = 0x61 || kind = 0x62 then some 1
  else if kind = 0x20 then some (2 + detail / 16 % 2)
  else if kind = 0x64 then (if 0x100 ≤ detail then some 4 else some (2 + detail / 16 % 2))
  else if kind = 0x19 then some 4
  else if kind = 0x38 || kind = 0x39 || kind = 0x3A || kind = 0x63 then some 5
  else if kind = 0x1D then some 6
  else if kind = 0x29 then some 7
  else if kind = 0x28 then some 8
  else none

/-- FaultPolicy of a kind has SPARE set (R641). -/
def State.policy (s : State) (kind bit : Nat) : Bool := bitAt (s.nat (Obj.faultPolicy kind)) bit

/-- Slices 64 to 67 that can be brought in: warm, or cold (R651). -/
def State.spareSlices (s : State) : List Nat :=
  [64, 65, 66, 67].filter fun k =>
    let x := s.slice k
    (x.state == .spareWarm || x.state == .spareCold) && x.boundTo.isNone && !x.faulted

/-- Spare slices warm and free. -/
def State.warmSlices (s : State) : List Nat := s.spareSlices.filter fun k => (s.slice k).state == .spareWarm

/-- Spare rows left in a coefficient entry bank (R651). -/
def State.rowsLeft (s : State) (bank : Nat) : Nat := 36 - Table.get 0 s.dep.rowsUsed bank

/-- Populated crosspoints of enabled bands, neither failed nor lifted (R651). -/
def State.lampUnits (s : State) : Nat :=
  sumNat ((List.range 16).map fun b =>
    if s.flag (Obj.bandEnable b) then
      ((s.columnsOf b).filter fun c =>
        let x := s.xpoint (xpIndex b c)
        (x.state == .verified || x.state == .unverified) && x.lifts == 0).length
    else 0)

/-- Spare segments left in the switch of a domain. -/
def State.segmentsLeft (s : State) (d : Nat) : Nat := (Table.get {} s.dep.switches d).spares

/-- Units left in a pool (SparePoolLeft, R651). -/
def State.poolLeft (s : State) (pool : Nat) : Nat :=
  match pool with
  | 0 => ((List.range 96).filter s.spareReady).length
  | 1 => s.spareSlices.length
  | 2 => if s.failedCount 0 = 0 then 1 else 0
  | 3 => if Config.oneStack then 0 else if s.failedCount 1 = 0 then 1 else 0
  | 4 => s.nat Obj.coefSpareRows
  | 5 => s.lampUnits
  | 6 => ((List.range 64).map s.segmentsLeft).foldl min 2
  | 7 => if s.dep.coresOut.isEmpty then 1 else 0
  | 8 => if s.dep.retiredCopy.isSome then 0 else 1
  | _ => 0

/-- A pool is exhausted: a unit it protects has no ready spare (R651). -/
def State.poolEmpty (s : State) (pool : Nat) : Bool :=
  match pool with
  | 0 => (List.range 96).any fun g => s.cfgLane g 8 != 255 && !s.spareReady g
  | 1 => s.mode != .sentinel && s.mode != .boot && s.spareSlices.isEmpty && (List.range 68).any fun k => (s.slice k).state == .active
  | 3 => !Config.oneStack && s.failedCount 1 != 0
  | 4 => (List.range 64).any fun b => s.rowsLeft b == 0
  | 5 => false
  | p => s.poolLeft p == 0

/-- Pools newly exhausted are told once (R670). -/
def notePools (s : State) : State :=
  (List.range 9).foldl (fun s p =>
    let was := s.dep.exhausted.contains p
    let now := s.poolEmpty p
    if now && !was then
      { s with dep := { s.dep with exhausted := s.dep.exhausted ++ [p] } }.raise .spareExhausted [p]
    else if was && !now then { s with dep := { s.dep with exhausted := s.dep.exhausted.filter (· != p) } }
    else s) s

/-! ### Repairs and insertions (R663 to R665, R670) -/

/-- A spare insertion, or a unit taken out of use, recorded with the instant of its decision (R663); REPAIR_RECORD_WRITE carries it to
boot flash. -/
def recordRepairAt (dt rkind origin unit detail fault : Nat) (s : State) : State :=
  let r : Repair := { dt := dt, rkind := rkind, origin := origin, active := true, unit := unit, detail := detail, fault := fault,
                      seq := s.dep.repairSeq % 256 }
  { s with dep := { s.dep with repairs := s.dep.repairs ++ [r], repairSeq := s.dep.repairSeq + 1 } }

/-- The same for a decision of this instant. -/
def recordRepair (rkind origin unit detail fault : Nat) (s : State) : State := recordRepairAt s.dt rkind origin unit detail fault s

/-- The active soft records of a unit changed. -/
def updRepair (rkind unit : Nat) (f : Repair → Repair) (s : State) : State :=
  { s with dep := { s.dep with repairs := s.dep.repairs.map fun (r : Repair) => if r.active && r.rkind == rkind && r.unit == unit then f r else r } }

/-- An insertion is counted: origin 0 emergency, 1 planned (R671). -/
def countInsertion (origin : Nat) (s : State) : State :=
  if origin = 1 then s.count Obj.insertionsPlanned else s.count Obj.insertionsEmergency

/-- The queues of the lane or slice that a spare replaces are flushed (R43; DESIGN CHOICE, log entry 89: these). -/
def flushReplaced (pool unit : Nat) (s : State) : State :=
  match pool with
  | 0 => flushIsland (islandOf 2 unit) s
  | 1 => flushIsland (islandOf 3 unit) s
  | _ => s

/-- SPARE_INSERTED (R670). -/
def inserted (pool unit spare origin : Nat) (s : State) : State :=
  notePools ((flushReplaced pool unit s).raise .spareInserted [pool, unit, spare, origin])

/-- A management core out of use: the others are the pair, or the last runs alone (R649, R664). -/
def retireCore (core : Nat) (s : State) : State :=
  let s := { s with dep := { s.dep with coresOut := s.dep.coresOut.filter (· != core) ++ [core] } }
  s.setReg Obj.lockstepState (if s.dep.coresOut.length = 1 then 1 else 3)

/-! ### Wear (R660) -/

/-- A unit of an indicator (0 lane, 1 slice, 2 ageing, 3 lamp, 4 DRAM) against its threshold: a crossing is reported once
until the measure falls back. -/
def wearCheck (ind unit : Nat) (past : Bool) (s : State) : State :=
  let was := s.dep.crossed.contains (ind, unit)
  if past && !was then
    { s with dep := { s.dep with crossed := s.dep.crossed ++ [(ind, unit)] } }.raiseFault .wearCrossed [ind, unit]
      (Kind.wearLane + ind) 1 unit 2 (islandOf 10 0)
  else if was && !past then { s with dep := { s.dep with crossed := s.dep.crossed.filter (· != (ind, unit)) } }
  else s

/-- Unit number of a coefficient entry bank in WEAR_DRAM reports (DESIGN CHOICE, log entry 40). -/
def bankUnit (bank : Nat) : Nat := 0x100 + bank

/-! ### Coefficient rows (R225) -/

def State.coefRow (s : State) (row : Nat) : CoefRow := Table.get {} s.coefRows row
def State.updCoefRow (s : State) (row : Nat) (f : CoefRow → CoefRow) : State :=
  { s with coefRows := Table.set {} s.coefRows row (f (s.coefRow row)) }

/-- A row is mapped to a spare row of its bank and awaits its rewrite (R225); without one its entries stay uncorrectable. -/
def mapCoefRow (row origin : Nat) (s : State) : State :=
  let bank := row % 64
  let used := Table.get 0 s.dep.rowsUsed bank
  if s.rowsLeft bank = 0 then s.updCoefRow row fun x => { x with bad := true }
  else
    let s := s.updCoefRow row fun x => { x with remapped := true, bad := true, corrected := [] }
    let s := { s with dep := { s.dep with rowsUsed := Table.set 0 s.dep.rowsUsed bank (used + 1) } }
    let s := s.setReg Obj.coefSpareRows (s.nat Obj.coefSpareRows - 1 : Nat)
    let s := recordRepair 2 origin (row / 64) (bank * 256 + used) Kind.coefUncorrectable s
    let s := wearCheck 4 (bankUnit bank) (decide (s.rowsLeft bank ≤ s.nat Obj.coefWearRows)) s
    inserted 4 row used origin (countInsertion origin s)

end Sys2Proof.Machine
end

