-- ==== Sys2Proof/Machine/Stages.lean ====
section
/-! DEFINITION. The correction stages of a slice (R227 to R246): from the pixels of a segment to its output item. -/
namespace Sys2Proof.Machine

/-! ### Stage 2: defect replacement (R228 to R230, R224) -/

/-- The largest value of 18 bits. -/
def u18max : Nat := 262143

/-- Source pixels of a replaced pixel, left first: those METHOD names (R228). METHOD 3 takes the nearest pixels outside the
map within 4 on each side. -/
def sourcesOf (defects : List (Nat × Nat)) (x method : Nat) : Option Nat × Option Nat :=
  let free := fun (p : Nat) => !(defects.any fun d => d.1 == p)
  let left := if x = 0 then none else some (x - 1)
  match method with
  | 0 => (left, none)
  | 1 => (none, some (x + 1))
  | 2 => (left, some (x + 1))
  | _ => (([1, 2, 3, 4].find? fun a => decide (a ≤ x) && free (x - a)).map fun a => x - a,
          ([1, 2, 3, 4].find? fun a => free (x + a)).map fun a => x + a)

/-- The value that replaces a pixel, from the stage-1 values of the segment (R228, R230); none without a source in it. -/
def replaceValue (u : List Nat) (first x : Nat) (method : Nat) (src : Option Nat × Option Nat) : Option Nat :=
  let at_ := fun (o : Option Nat) => match o with
    | some p => if first ≤ p then (u[p - first]?).map fun v => (p, v) else none
    | none => none
  match at_ src.1, at_ src.2 with
  | some l, some r =>
    if method = 3 then
      let a := x - l.1
      let b := r.1 - x
      some ((l.2 * b + r.2 * a + (a + b) / 2) / (a + b))
    else some ((l.2 + r.2 + 1) / 2)
  | some l, none => some l.2
  | none, some r => some r.2
  | none, none => none

/-! ### Stages 3 to 7 -/

/-- Stages 3 to 5 before the clamp (R227): offset, gain, ratio, rounded half up at 32 bits. -/
def normalised (u : Nat) (offset : Int) (gain r : Nat) : Int := (((u : Int) - offset) * gain * r + 2 ^ 31) / 2 ^ 32

/-- The knots of a slot that has never been committed (R234). -/
def identityKnots : List Nat := (List.range 257).map fun i => min (1024 * i) u18max

/-- Stage 6 (R234); none is slot 0. -/
def linearise (knots : Option (List Nat)) (x : Nat) : Nat :=
  match knots with
  | none => x
  | some k =>
    let i := x / 1024
    let lo : Int := k.getD i 0
    let hi : Int := k.getD (i + 1) 0
    (clampInt 0 u18max (lo + ((hi - lo) * (x % 1024 : Nat) + 512) / 1024)).toNat

/-- Stage 7 (R239). -/
def driftScale (x q : Nat) : Nat := min ((x * q + 32768) / 65536) u18max

/-- The rounding of stage 9 (R241). -/
def narrow (w x : Nat) : Nat := if 18 ≤ w then x else min ((x + 2 ^ (17 - w)) / 2 ^ (18 - w)) (2 ^ w - 1)

/-! ### Lossless compression (R243 to R246) -/

/-- The residual of a value against its prediction, mapped to an unsigned number (R244). -/
def residual (w pred o : Nat) : Nat :=
  let e := signed w ((o + 2 ^ w - pred % 2 ^ w) % 2 ^ w)
  if 0 ≤ e then (2 * e).toNat else (-2 * e - 1).toNat

/-- Residuals of a run of values after `pred`. -/
def residuals (w : Nat) : Nat → List Nat → List Nat
  | _, [] => []
  | pred, o :: t => residual w pred o :: residuals w o t

/-- Bits of one mapped residual under K (R245). -/
def codeLength (w k z : Nat) : Nat := if z / 2 ^ k < 24 then z / 2 ^ k + 1 + k else 24 + w

/-- One mapped residual coded under K (R245). -/
def codeBits (w k z : Nat) : List Bool :=
  let q := z / 2 ^ k
  if q < 24 then List.replicate q true ++ [false] ++ natBits k z else List.replicate 24 true ++ natBits w z

/-- The K of a block: fewest bits, the lowest on a tie, 31 only when strictly shortest (R246). -/
def chooseK (w : Nat) (zs : List Nat) : Nat :=
  let cost := fun (k : Nat) => sumNat (zs.map (codeLength w k))
  let best := (List.range w).foldl (fun b k => if cost k < cost b then k else b) 0
  if w * zs.length < cost best then 31 else best

/-- One block of up to 32 values (R245). -/
def blockBits (w : Nat) (os zs : List Nat) : List Bool :=
  let k := chooseK w zs
  natBits 5 k ++ (if k = 31 then os.flatMap (natBits w) else zs.flatMap (codeBits w k))

/-- The blocks of a segment; the fuel is its length. -/
def blocksBits (w : Nat) : Nat → List Nat → List Nat → List Bool
  | 0, _, _ => []
  | n + 1, os, zs =>
    if os.isEmpty then [] else blockBits w (os.take 32) (zs.take 32) ++ blocksBits w n (os.drop 32) (zs.drop 32)

/-- The segment record of R243. -/
def compressRecord (w : Nat) (os : List Nat) : Bytes :=
  let bits := blocksBits w os.length os (residuals w (2 ^ (w - 1)) os)
  let payload := padTo 4 (packBits bits.length bits)
  leBytes 4 (pack [(16, 16, payload.length / 4), (12, 4, widthCode w), (0, 12, os.length / 4 - 1)]) ++ payload

/-- The packed values of a segment (R242). -/
def packValues (w : Nat) (os : List Nat) : Bytes :=
  let bits := os.flatMap (natBits w)
  packBits bits.length bits

/-! ### A whole segment -/

/-- What a slice makes of a segment. -/
structure SegOut where
  /-- The output item's bytes. -/
  bytes : Bytes
  /-- Stage-1 values, stage-6 values, stage-7 values, in order. -/
  raw : List Nat
  lin : List Nat
  tap : List Nat
  replaced : Bool
  unreplaced : Nat
  satLow : Nat
  satHigh : Nat
  deriving DecidableEq, Repr

/-- The entry of a pixel (R220). -/
def entryOf (r : LineRec) (width x : Nat) : Int × Nat := Table.get (0, 65536) r.tables.coef (r.phase * width + x)

/-- Offset and gain of a pixel whose entry read is uncorrectable (R224): from the entries of its neighbours in the segment
whose own reads are correctable. -/
def entryBetween (r : LineRec) (width first n x : Nat) (bad : List Nat) : Int × Nat :=
  let ok := fun (p : Nat) => decide (first ≤ p ∧ p < first + n) && !bad.contains p
  let l := if x ≠ 0 && ok (x - 1) then some (entryOf r width (x - 1)) else none
  let h := if ok (x + 1) then some (entryOf r width (x + 1)) else none
  match l, h with
  | some a, some b => ((a.1 + b.1 + 1) / 2, (a.2 + b.2 + 1) / 2)
  | some a, none => a
  | none, some b => b
  | none, none => (0, 65536)

/-- Stages 1 to 9 of a segment of a line (R227): `bad` are the pixels whose entries cannot be corrected. -/
def correctSegment (r : LineRec) (g : Segment) (bits : Nat) (knots : Option (List Nat)) (bad : List Nat) : SegOut :=
  let st := r.stream
  let ts := tribsOf r.nat st
  let width := widthOf ts
  let u := g.pixels.map fun v => v * 2 ^ (18 - bits)
  let px := (List.range u.length).map fun i =>
    let x := g.first + i
    let own := u.getD i 0
    let isBad := bad.contains x
    let method := if isBad then some 2 else (r.tables.defects.find? fun d => d.1 == x).map Prod.snd
    let v := method.map fun m => replaceValue u g.first x m (sourcesOf r.tables.defects x m)
    let e := if isBad then entryBetween r width g.first u.length x bad else entryOf r width x
    let y := normalised ((v.getD none).getD own) e.1 e.2 r.r
    let c := (clampInt 0 u18max y).toNat
    let l := linearise knots c
    (l, driftScale l r.q, v, y)
  let w := r.nat (Obj.storedWidth st)
  let os := px.map fun p => narrow w p.2.1
  { bytes := if r.nat (Obj.compression st) = 1 then compressRecord w os else packValues w os,
    raw := u, lin := px.map fun p => p.1, tap := px.map fun p => p.2.1,
    replaced := px.any fun p => match p.2.2.1 with
      | some (some _) => true
      | _ => false,
    unreplaced := (px.filter fun p => p.2.2.1 == some none).length,
    satLow := (px.filter fun p => decide (p.2.2.2 < 0)).length,
    satHigh := (px.filter fun p => decide ((u18max : Int) < p.2.2.2)).length }

end Sys2Proof.Machine
end

