-- ==== Sys2Proof/Machine/Pipeline.lean ====
section
/-! DEFINITION. Crossbar, dealer and slices (R210 to R225, R231 to R238, R247 to R251). -/
namespace Sys2Proof.Machine

/-- Pixels the crossbar buffer holds at most (R217). -/
def crossbarPixels : Nat := 4194304

/-- SEGMENT_ARRIVES: the oldest unpacked segment of a stream reaches the crossbar; one that does not fit is discarded and its
line emitted with LOST (R217). -/
def execSegmentArrives (st : Fin 64) (s : State) : Result :=
  .next <| match s.ingest.find? fun g => g.stream == st.val with
    | none => s
    | some g =>
      let s := { s with ingest := s.ingest.erase g }
      if crossbarPixels < sumNat (s.crossbar.map fun (x : Segment) => x.pixels.length) + g.pixels.length then
        loseLine st g.line (s.raiseFault .pipelineOverrun [st] Kind.pipelineOverrun 2 st 1 (islandOf 4 0))
      else { s with crossbar := s.crossbar ++ [g] }

/-! ### Dealing (R211, R213, R231, R232, R236, R237) -/

/-- Segments that wait in a slice. -/
def Slice.waits (x : Slice) : List Segment := x.replay ++ x.c0.toList ++ x.queue
/-- Pixels queued and in progress in a slice. -/
def Slice.load (x : Slice) : Nat := sumNat ((x.waits ++ x.current.toList).map fun (g : Segment) => g.pixels.length)

/-- A slice is in the dealing pool. -/
def Slice.deals (x : Slice) : Bool := x.state == .active && !x.faulted && !x.worn

/-- A slice's port has room for a segment of a class (R213). -/
def Slice.room (x : Slice) (cls : Nat) : Bool :=
  if cls = 0 then !((x.waits ++ x.current.toList).any fun g => g.cls == 0) else decide (x.queue.length < 2)

/-- The slice that takes a segment: fewest pixels, then the lowest number (R213). -/
def State.pickSlice (s : State) (cls : Nat) : Option Nat :=
  let ks := (List.range 68).filter fun k => (s.slice k).deals && (s.slice k).room cls
  ks.foldl (fun b k => match b with
    | none => some k
    | some j => if (s.slice k).load < (s.slice j).load then some k else some j) none

/-- A slice without a segment in progress begins the next one: a replay first (R249), then the class 0 place. -/
def Slice.begin (x : Slice) : Slice :=
  match x.current, x.replay, x.c0, x.queue with
  | some _, _, _, _ => x
  | none, g :: t, _, _ => { x with current := some g, replay := t }
  | none, [], some g, _ => { x with current := some g, c0 := none }
  | none, [], none, g :: t => { x with current := some g, queue := t }
  | none, [], none, [] => x

/-- A segment can be dealt: its line's record is open and its measured exposure known, and every lower line of the stream whose record is
open has entered (R211, R231). -/
def State.dealable (s : State) (g : Segment) : Bool :=
  match s.recOf g.stream g.line with
  | none => false
  | some r => r.expMeas.isSome && (s.pickSlice g.cls).isSome &&
      !(s.records.any fun e => e.stream == g.stream && decide (e.line < g.line) && !e.entered)

/-- Ratio r of a line, and whether it was clamped (R231, R232). -/
def LineRec.ratio (r : LineRec) : Nat × Bool :=
  let st := r.stream
  if r.nat (Obj.normEnable st) = 0 then (65536, false)
  else
    let e := r.expMeas.getD 0
    let lo := r.nat (Obj.normMin st)
    let hi := r.nat (Obj.normMax st)
    if e = 0 then (hi, true)
    else
      let v := (2 ^ 17 * r.nat (Obj.exposureRef st r.phase) + e) / (2 * e)
      if v < lo then (lo, true) else if hi < v then (hi, true) else (v, false)

/-- Factor q of a line, whether it was clamped, and whether it came late (R236 to R239). -/
def LineRec.factor (r : LineRec) (d : Drift) : Nat × Bool × Bool :=
  let st := r.stream
  let lag := r.nat (Obj.driftLag st)
  if r.nat (Obj.driftEnable st) = 0 || r.cycle < lag then (65536, false, false)
  else
    let k := r.cycle - lag
    if k < d.processed then
      let f := d.history.getD (d.processed - 1 - k) (65536, false)
      (f.1, f.2, false)
    else
      let f := d.history.head?.getD (65536, false)
      (f.1, f.2, true)

/-- The first segment of a line is dealt: the line passes the stream entry point, and r and q are formed (R211, R231 to R237). -/
def enterLine (r : LineRec) (s : State) : State :=
  let st := r.stream
  let n : Int := (r.line % 2 ^ 32 : Nat)
  let a := r.ratio
  let f := r.factor (Table.get {} (s.strm st).drift r.phase)
  let s := if a.2 then ((s.count (Obj.normClamps st)).updStrm st fun x => { x with normClamp := true }).raise .normLimit [st, n] else s
  let s := if f.2.1 then ((s.count (Obj.driftClamps st)).updStrm st fun x => { x with driftClamp := true }).raise .driftLimit [st, n] else s
  let s := if f.2.2 then s.count (Obj.driftLate st) else s
  let s := s.setReg (Obj.driftFactor st r.phase) f.1
  let s := s.updStrm st fun x => { x with lastEntered := some (max (x.lastEntered.getD 0) r.line) }
  updRec st r.line (fun r => { r with entered := true, r := a.1, q := f.1, normClamp := a.2, driftClamp := f.2.1, driftLate := f.2.2 }) s

/-- SEGMENT_DEAL: the dealer gives the oldest segment that can go to a slice, class 0 before every other class (R54, R213). -/
def execSegmentDeal (s : State) : Result :=
  .next <| match (s.crossbar.filter fun g => g.cls == 0 && s.dealable g) ++ (s.crossbar.filter fun g => g.cls != 0 && s.dealable g) with
    | [] => s
    | g :: _ =>
      match s.pickSlice g.cls, s.recOf g.stream g.line with
      | some k, some r =>
        let s := { s with crossbar := s.crossbar.erase g }
        let s := if r.entered then s else enterLine r s
        s.updSlice k fun x => (if g.cls = 0 then { x with c0 := some g } else { x with queue := x.queue ++ [g] }).begin
      | _, _ => s

/-! ### Completion (R215, R223, R224, R247, R248) -/

/-- Logical row of a stream pixel's entry (R218, R220). -/
def State.rowOfPixel (s : State) (r : LineRec) (x : Nat) : Nat :=
  s.nat (Obj.coefBaseRow r.stream) + (r.phase * widthOf (tribsOf r.nat r.stream) + x) / 64

/-- Corrected entry reads: counted, and a row with 16 of them within 1 s is mapped to a spare row (R223, R225). -/
def correctedReads (rows : List Nat) (s : State) : State :=
  rows.foldl (fun s row =>
    let s := s.count Obj.coefCorrected
    let times := s.now :: (s.coefRow row).corrected.filter fun t => decide (s.now < t + ms 1000)
    let s := s.updCoefRow row fun x => { x with corrected := times }
    if 16 ≤ times.length && !(s.coefRow row).bad && s.policy Kind.coefUncorrectable 12 then mapCoefRow row 0 s else s) s

/-- Uncorrectable entry reads: every one counted and told, each row reported once (R224, R253). -/
def uncorrectableReads (rows : List Nat) (s : State) : State :=
  rows.foldl (fun s (row : Nat) =>
    let s := (s.count Obj.coefUncorrectable).raise .coefUncorrectable [row] 2
    if (s.coefRow row).reported then s
    else (s.updCoefRow row fun x => { x with reported := true }).report Kind.coefUncorrectable 2 row 1 (islandOf 4 (row % 64 / 16))) s

/-- The output item of a segment joins its line (R233, R235, R240, R258). -/
def takeOut (r : LineRec) (g : Segment) (bits : Nat) (o : SegOut) (s : State) : State :=
  let st := r.stream
  let s := if o.satLow = 0 then s else s.count (Obj.satLow st) o.satLow
  let s := if o.satHigh = 0 then s else s.count (Obj.satHigh st) o.satHigh
  let s := if o.satLow + o.satHigh = 0 then s else s.updStrm st fun x => { x with sat := true }
  let s := if o.unreplaced = 0 then s else s.count (Obj.defectUnreplaced st) o.unreplaced
  let idx := fun (vs : List Nat) => vs.zipIdx.map fun (p : Nat × Nat) => (g.first + p.2, p.1)
  let lo := r.nat (Obj.driftFirst st)
  let hi := lo + r.nat (Obj.driftCount st)
  let win := (idx o.lin).filter fun p => decide (lo ≤ p.1 ∧ p.1 < hi)
  let full := 2 ^ bits - 1
  updRec st r.line (fun r =>
    { r with items := r.items ++ [(g.first, o.bytes)], pixelsDone := r.pixelsDone + o.raw.length, replaced := r.replaced || o.replaced,
             winSum := r.winSum + sumNat (win.map Prod.snd), winCount := r.winCount + win.length,
             tap := if r.phase = r.nat (Obj.edgePhase st) then r.tap ++ idx o.tap else r.tap,
             rawTap := if r.calTake then
                 r.rawTap ++ (idx g.pixels).map fun p => (p.1, p.2 * 2 ^ (18 - bits), p.2 == full)
               else r.rawTap }) s

/-- A slice's segment in progress is done with: its raw data is retained, the next one begins (R214), a worn slice that has
emptied is retired (R659), and an insertion that has replayed everything is reported (R655). -/
def sliceDone (k : Nat) (s : State) : State :=
  let s := s.updSlice k fun x => ({ x with retained := x.current, current := none, committed := true } : Slice).begin
  let s := { s with power := { s.power with clusterUsed := Table.set 0 s.power.clusterUsed (k / 4) s.now } }
  let x := s.slice k
  if x.current.isSome then s
  else if x.worn then s.updSlice k fun x => { x with state := .failed, worn := false }
  else match x.boundTo with
    | some f => if x.inserted then s else inserted 1 f k 0 (s.updSlice k fun x => { x with inserted := true })
    | none => s

/-- A residue mismatch (R248): the output item rewinds, the dealer withdraws the slice and takes its queue back. -/
def residueFault (k : Nat) (g : Segment) (s : State) : State :=
  let x := s.slice k
  let before := x.mismatches.filter fun t => decide (s.now < t + ms 86400000)
  let recent := s.now :: before
  let s := { s with crossbar := x.waits ++ s.crossbar }
  let s := s.updSlice k fun x => { x with replay := [], c0 := none, queue := [], faulted := true, mismatches := recent }
  let s := (s.count Obj.residueErrors).raiseFault .sliceResidue [k] Kind.sliceResidue 2 k 1 (islandOf 3 k)
  -- it may have fallen back since its last mismatch
  let s := wearCheck 1 k (decide (s.nat Obj.sliceWearCount ≤ before.length)) s
  let s := wearCheck 1 k (decide (s.nat Obj.sliceWearCount ≤ recent.length)) s
  if 2 ≤ g.replays then
    -- the second replay failed too (R250)
    loseLine g.stream g.line (s.updSlice k fun x => { x with current := none })
  else s

/-- SEGMENT_COMPLETE: a slice completes a segment, or finds a residue mismatch in it; `uncorrectable` and `corrected` are the
stream pixels whose entries it read so. -/
def execSegmentComplete (k : Fin 68) (residue : Bool) (uncorrectable corrected : List Nat) (s : State) : Result :=
  .next <| match (s.slice k).current with
    | none => s
    | some g =>
      if (s.slice k).faulted then s
      else if residue then residueFault k g s
      else match s.recOf g.stream g.line with
        | none => sliceDone k s
        | some r =>
          let rowOf := s.rowOfPixel r
          let here := (List.range g.pixels.length).map (g.first + ·)
          let bad := here.filter fun x => uncorrectable.contains x || (s.coefRow (rowOf x)).bad
          let ts := tribsOf r.nat g.stream
          let knots := match ts[g.trib]? with
            | some t => if t.curve = 0 then none
              else let c := r.knots t.curve
                   some (if c.isEmpty then identityKnots else c)
            | none => none
          let bits := widthBits g.width
          let o := correctSegment r g bits knots bad
          let s := takeOut r g bits o s
          let s := correctedReads ((here.filter fun x => corrected.contains x && !bad.contains x).map rowOf) s
          let s := uncorrectableReads (bad.map rowOf) s
          lineCheck g.stream g.line (sliceDone k s)

/-! ### Built-in test and rows -/

/-- A slice's pool loses it for good: FAILED; the record made when it was taken out of use names the spare that stays (R251, R663). -/
def retireSlice (k spare : Nat) (s : State) : State :=
  updRepair 1 k (fun r => { r with detail := spare })
    (s.updSlice k fun x => { x with state := .failed, faulted := false, boundTo := none })

/-- A spare slice that is not in the dealing pool stands by again: warm, or cold (R632). -/
def standBy (j : Nat) (s : State) : State :=
  s.updSlice j fun x => { x with state := if j - 64 < s.nat Obj.warmSpareSlices then .spareWarm else .spareCold,
                                 faulted := false, boundTo := none, inserted := false }

/-- A slice passes its test: back to the pool, or to the spares; the spare bound to its port is free again (R251), and its record is of
no repair in force (R663). -/
def sliceReturns (k : Nat) (spare : Option Nat) (s : State) : State :=
  let s := updRepair 1 k (fun r => { r with active := false }) (s.updSlice k fun x => { x with current := none })
  let s := if k < 64 || (s.slice k).permanent then s.updSlice k fun x => { x with state := .active, faulted := false } else standBy k s
  match spare with
  | some j => standBy j s
  | none => s

/-- A slice fails its test: FAILED, its spare made permanent; without a spare the pool is one slice smaller (R251). -/
def sliceRetires (k : Nat) (spare : Option Nat) (s : State) : State :=
  if 64 ≤ k && !(s.slice k).permanent then notePools (retireSlice k 0 s)
  else match spare.or s.warmSlices.head? with
    | some j =>
      let s := retireSlice k j s
      let s := s.updSlice j fun x => { x with state := .active, boundTo := none, inserted := false, permanent := true }
      if spare.isSome then notePools s else inserted 1 k j 0 (countInsertion 0 s)
    | none =>
      let s := retireSlice k 0 s
      let s := s.setReg Obj.slicesActive (s.nat Obj.slicesActive - 1 : Nat)
      notePools (s.report Kind.sliceResidue 3 k 1 (islandOf 3 k))

/-- The replay that a slice's built-in test follows is still under way (R251). -/
def State.replayRuns (s : State) (k : Nat) : Bool :=
  match (s.slice k).awaits with
  | none => false
  | some a => s.slices.any fun p => (p.2.waits ++ p.2.current.toList).any fun g => decide ((g.stream, g.line, g.first) = a)

/-- SLICE_BIST: the built-in test of a slice withdrawn by a residue fault ends (R251), after the replay. -/
def execSliceBist (k : Fin 68) (pass : Bool) (s : State) : Result :=
  let spare := (List.range 68).find? fun j => (s.slice j).boundTo == some k.val
  .next <| if (s.slice k).state != .testing || s.replayRuns k then s
    else if pass then sliceReturns k spare s else sliceRetires k spare s

/-- COEF_ROW_REWRITE: the rewrite of a mapped row completes (R225): its entries read again, and a new fault may be reported. -/
def execCoefRowRewrite (row : Nat) (s : State) : Result :=
  .next <| if (s.coefRow row).remapped && (s.coefRow row).bad then
    s.updCoefRow row fun x => { x with bad := false, reported := false } else s

end Sys2Proof.Machine
end

