-- ==== Sys2Proof/Machine/Calibration.lean ====
section
/-! DEFINITION. Captures, derivations and lamp warm-up (R256 to R280). -/
namespace Sys2Proof.Machine

/-! ### Accepted groups (R24, R29 to R31) -/

/-- An accepted group of a boundary: at once where it belongs to no stream, has boundary I or names a mode in force; at once
too in the streams that are not running; waiting otherwise. `inForce` says that the group's mode is in force (R24). -/
def acceptGroup (boundary : Nat) (ms : List (Nat × Val)) (inForce : Bool) (s : State) : State :=
  let sts := if 1 ≤ boundary && boundary ≤ 3 then s.streamsOfMembers ms else []
  let g : CommitGroup := { id := s.commitNext % 65536, boundary := boundary, members := ms, streams := sts }
  let s := { s with commitNext := s.commitNext + 1, groupsWaiting := s.groupsWaiting ++ [g] }
  match boundary with
  | 0 => if inForce then enterPlain g s else s
  | 4 => s
  | 5 => enterPlain g s
  | _ => if sts.isEmpty then enterPlain g s
    else sts.foldl (fun s st => if s.streamOpen? st then s else enterIdle st s) s

/-! ### Commands of CalCommand (R256, R257) -/

/-- A capture or a derivation of the stream is in progress. -/
def Calib.busy (c : Calib) : Bool := c.armed || c.state == .waitingWarm || c.state == .capturing || c.state == .deriving_

/-- Modes in which a command code is accepted (R256). -/
def calModes (code : Nat) (m : Mode) : Bool :=
  match code with
  | 1 | 2 => m == .calibrate
  | 3 | 4 => m == .scan || m == .stream
  | 5 => m == .idleReady || m == .calibrate || m == .scan || m == .stream
  | _ => true

/-- A capture command is accepted: a commit group of its own with boundary C carries it (R257); a white one waits for WARM (R280). -/
def armCapture (st code : Nat) (s : State) : State :=
  let s := s.updCalib st fun c =>
    let c := { c with kind := code, result := 0, lines := s.nat (Obj.calLines st), mask := s.nat (Obj.calPhaseMask st),
                      work := [], excluded := [], inFlight := [], taken := 0, fromLine := none }
    if (code = 2 || code = 4) && s.warmup.state == .warming then { c with state := .waitingWarm }
    else { c with armed := true, state := .idle }
  acceptGroup 2 [(captureKey st, .num code)] false s

/-- ABORT: what is in progress ends FAILED with RESULT ABORTED (R263). -/
def abortCal (st : Nat) (s : State) : State :=
  let s := if (s.calib st).busy then failCapture st 10 s else s
  s.updCalib st fun c => { c with kind := 6 }

/-- A CalCommand code, 1 to 6 (R256): CAL_BUSY while something is in progress, nothing in another mode, nor for a capture of a stream that
holds its four waiting groups (R31). -/
def calCommand (st code : Nat) (s : State) : State :=
  if code = 6 then abortCal st s
  else if (s.calib st).busy then s.raise .calBusy [st, code]
  else if !calModes code s.mode then s
  else if code = 5 then s.updCalib st fun c => { c with kind := 5, result := 0, state := .deriving_ }
  else if s.groupsFull st then s
  else armCapture st code s

/-- CAL_DARK (R256). -/
def execCalDark (st : Fin 64) (s : State) : Result := .next (calCommand st 1 s)
/-- CAL_WHITE (R256). -/
def execCalWhite (st : Fin 64) (s : State) : Result := .next (calCommand st 2 s)
/-- CAL_GAP_DARK (R256). -/
def execCalGapDark (st : Fin 64) (s : State) : Result := .next (calCommand st 3 s)
/-- CAL_GAP_WHITE (R256). -/
def execCalGapWhite (st : Fin 64) (s : State) : Result := .next (calCommand st 4 s)
/-- CAL_DERIVE (R256). -/
def execCalDerive (st : Fin 64) (s : State) : Result := .next (calCommand st 5 s)
/-- CAL_ABORT (R256, R263). -/
def execCalAbort (st : Fin 64) (s : State) : Result := .next (calCommand st 6 s)

/-! ### Captures -/

/-- CAPTURE_START: a capture's group enters at the next phase cycle of its stream, or a white capture that waited starts once the lamps
are WARM (R257, R280). -/
def execCaptureStart (st : Fin 64) (s : State) : Result :=
  let c := s.calib st
  .next <| match s.groupsWaiting.find? fun g => g.captures st with
    | some g =>
      let first := s.groupsWaiting.find? fun w => w.streams.contains st.val && 1 ≤ w.boundary && w.boundary ≤ 3
      if first.map CommitGroup.id == some g.id && (!s.streamOpen? st || s.boundaryAt st 2) then enterStream g st s else s
    | none =>
      if c.state == .waitingWarm && s.warmup.state == .warm && s.triggering st then captureEnters st (s.nextCycleLine st) s else s

/-- Phases a stream runs that a mask selects. -/
def State.phasesIn (s : State) (st mask : Nat) : List Nat := (List.range (s.nat (Obj.phases st))).filter (bitAt mask)

/-- CAPTURE_COMPLETE: every selected phase holds CalLines good lines; the working set becomes the kept set of its kind
(R259, R261), and a DARK capture lets the lamps back at the next phase cycle (R264). -/
def execCaptureComplete (st : Fin 64) (s : State) : Result :=
  let c := s.calib st
  .next <| if c.state != .capturing || !((s.phasesIn st c.mask).all fun ph => decide (c.lines ≤ (Table.get {} c.work ph).lines)) then s
    else
      let set : CalSet := { doneAt := s.dt, gap := decide (3 ≤ c.kind), phases := c.work }
      let c := { c with state := .captured, result := 0, work := [], excluded := [],
                        restoreAt := if c.kind = 1 then some (s.nextCycleLine st) else c.restoreAt }
      let c := if c.white? then { c with white := some set } else { c with dark := some set }
      (s.setCalib st c).raise .calDone [st, 0]

/-! ### Derivation (R267 to R272) -/

/-- The mean of an even number of values is that of the two middle ones, rounded half up (R268). -/
def insertInt (x : Int) : List Int → List Int
  | [] => [x]
  | y :: t => if x ≤ y then x :: y :: t else y :: insertInt x t

/-- The median of R268. -/
def medianInt (l : List Int) : Int :=
  let v := l.foldr insertInt []
  let n := v.length
  if n = 0 then 0
  else if n % 2 = 1 then v.getD (n / 2) 0
  else (v.getD (n / 2 - 1) 0 + v.getD (n / 2) 0 + 1) / 2

/-- The neighbourhood of pixel `i` of a tributary of `n` pixels (R268). -/
def neighbourhood (n i : Nat) : List Nat :=
  let lo := min (i - 16) (n - 33)
  ((List.range (min 33 n)).map (lo + ·)).filter (· != i)

/-- What a derivation measures of a pixel in a phase. -/
structure CalPixel where
  d : Nat
  w : Nat
  sigma : Nat
  clips : Nat
  deriving DecidableEq, Repr

/-- D, W, σ and CLIPS of a pixel in a phase. -/
def calPixel (dark white : CalPhase) (x : Nat) : CalPixel :=
  let a := Table.get {} dark.recs x
  let b := Table.get {} white.recs x
  let n := max dark.lines 1
  let d := (roundDiv a.sum n).toNat
  { d := d, w := (roundDiv b.sum (max white.lines 1)).toNat, clips := b.clips,
    sigma := if n * d * d ≤ a.sumsq then isqrt ((a.sumsq - n * d * d) / n) else Config.sigmaOpen a.sumsq n d }

/-- r_cal: the ratio R231 gives for the mean exposure of the white lines, rounded half up; NormMax for an exposure of 0 (R232). -/
def State.calRatio (s : State) (st ph : Nat) (white : CalPhase) : Nat :=
  let e := (roundDiv white.exposure (max white.lines 1)).toNat
  if e = 0 then s.nat (Obj.normMax st) else (2 ^ 17 * s.nat (Obj.exposureRef st ph) + e) / (2 * e)

/-- OFFSET and GAIN of R267; no GAIN where it is above every limit. -/
def calEntry (p : CalPixel) (pedestal target r : Nat) : Int × Option Nat :=
  let o := clampInt (-131072) 131071 ((p.d : Int) - pedestal)
  let span := (p.w : Int) - o
  if span ≤ 0 || r = 0 then (o, none)
  else (o, some (min (roundDiv ((target * 2 ^ 32 : Nat) : Int) (span.toNat * r)).toNat 262143))

/-- The tests of R268 for pixel `i` of a tributary's pixels, as bits in the table's order. -/
def State.calMarks (s : State) (st : Nat) (ps : List CalPixel) (i r : Nat) : Nat :=
  match ps[i]? with
  | none => 0
  | some p =>
    let near := (neighbourhood ps.length i).filterMap fun j => ps[j]?
    let dm := medianInt (near.map fun q => (q.d : Int))
    let wm := medianInt (near.map fun q => (q.w : Int) - q.d)
    let e := calEntry p (s.nat (Obj.calPedestal st)) (s.nat (Obj.calWhiteTarget st)) r
    let o := (p.d : Int) - s.nat (Obj.calPedestal st)
    pack [(0, 1, b2n (decide ((s.nat (Obj.defectDarkLimit st) : Int) < (p.d : Int) - dm))),
          (1, 1, b2n (decide ((s.nat (Obj.defectWhitePct st) : Int) * wm < ((((p.w : Int) - p.d - wm).natAbs * 100 : Nat) : Int)))),
          (2, 1, b2n (decide (s.nat (Obj.defectNoiseLimit st) < p.sigma))),
          (3, 1, b2n (decide (0 < p.clips))),
          (4, 1, b2n (match e.2 with
            | none => true
            | some g => decide (s.nat (Obj.calGainMax st) < g))),
          (5, 1, b2n (decide (o < -131072 ∨ 131071 < o)))]

/-- Bounds of the segment that holds a pixel. -/
def segmentAround (segs : List Nat) (x : Nat) : Nat × Nat :=
  let p := segs.foldl (fun (a : Nat × Nat × Nat) n =>
    -- start of the next segment, bounds found
    (a.1 + n, if a.1 ≤ x && x < a.1 + n then (a.1, a.1 + n) else a.2)) (0, 0, 0)
  p.2

/-- The METHOD of a map pixel (R269); none where R229 cannot hold. -/
def calMethod (map : List Nat) (segs : List Nat) (width x : Nat) : Option Nat :=
  let b := segmentAround segs x
  let ok := fun (p : Nat) => decide (b.1 ≤ p ∧ p < b.2) && !map.contains p
  let free := fun (p : Nat) => decide (p < width) && !map.contains p
  let l := decide (x ≠ 0) && ok (x - 1)
  let h := ok (x + 1)
  if l && h then some 2
  else if l then some 0
  else if h then some 1
  else if ([1, 2, 3, 4].any fun a => decide (a ≤ x) && free (x - a)) && [1, 2, 3, 4].any fun a => free (x + a) then some 3
  else none

/-- The entry a map pixel takes from its sources (R270). -/
def mapEntry (entry : Nat → Int × Nat) (defects : List (Nat × Nat)) (x method : Nat) : Int × Nat :=
  match sourcesOf defects x method with
  | (some l, some h) =>
    let a := entry l
    let b := entry h
    if method = 3 then
      let i := x - l
      let j := h - x
      ((a.1 * j + b.1 * i + ((i + j) / 2 : Nat)).tdiv ((i + j : Nat) : Int), (a.2 * j + b.2 * i + (i + j) / 2) / max (i + j) 1)
    else ((a.1 + b.1 + 1) / 2, (a.2 + b.2 + 1) / 2)
  | (some l, none) => entry l
  | (none, some h) => entry h
  | (none, none) => entry x

/-- What a derivation answers: the RESULT, CalReport and the tables. -/
structure Derived where
  result : Nat := 0
  report : Nat := 0
  tables : CalTables := {}
  deriving DecidableEq, Repr

/-- One selected phase measured: phase, r_cal, pixels by stream pixel, marks by stream pixel. -/
def State.calPhaseOf (s : State) (st ph : Nat) (dark white : CalSet) : Nat × Nat × List CalPixel × List Nat :=
  let d := Table.get {} dark.phases ph
  let w := Table.get {} white.phases ph
  let r := s.calRatio st ph w
  let ts := s.tribs st
  let parts := (List.range ts.length).map fun k =>
    let base := tribBase ts k
    (List.range (tribBase ts (k + 1) - base)).map fun i => calPixel d w (base + i)
  (ph, r, parts.flatten, parts.flatMap fun ps => (List.range ps.length).map fun i => s.calMarks st ps i r)

/-- DriftRef of a phase with a reference window (R271). -/
def State.calDriftRef (s : State) (st r : Nat) (entry : Nat → Int × Nat) (ps : List CalPixel) : Nat :=
  let lo := s.nat (Obj.driftFirst st)
  let n := s.nat (Obj.driftCount st)
  let ts := s.tribs st
  let vs := (List.range n).map fun i =>
    let x := lo + i
    let t := ((List.range ts.length).find? fun k => decide (x < tribBase ts (k + 1))).bind fun k => ts[k]?
    let knots := match t with
      | some t => if t.curve = 0 then none
        else let c := s.knots st t.curve
             some (if c.isEmpty then identityKnots else c)
      | none => none
    let e := entry x
    linearise knots (clampInt 0 u18max (normalised ((ps.getD x ⟨0, 0, 0, 0⟩).w) e.1 e.2 r)).toNat
  (roundDiv (sumNat vs) (max n 1)).toNat

/-- A derivation of a stream from its kept sets (R267 to R272, R274). -/
def State.derive (s : State) (st : Nat) : Derived :=
  let c := s.calib st
  let old := fun (k : Option CalSet) => match k with
    | some k => k.gap && decide (k.doneAt + 1000000000 * s.nat (Obj.calMaxAge st) < s.dt)
    | none => false
  let phs := s.phasesIn st (s.nat (Obj.calPhaseMask st))
  match c.dark, c.white with
  | some dark, some white =>
    if phs.any fun ph => (Table.get {} dark.phases ph).lines = 0 || (Table.get {} white.phases ph).lines = 0 then { result := 6 }
    else if old c.dark || old c.white then { result := 7 }
    else
      let ms := phs.map fun ph => s.calPhaseOf st ph dark white
      let width := widthOf (s.tribs st)
      let marks := (List.range width).map fun x => ms.foldl (fun a m => a ||| m.2.2.2.getD x 0) 0
      let map := (List.range width).filter fun x => marks.getD x 0 != 0
      let count := fun (b : Nat) => min ((marks.filter fun m => bitAt m b).length) 65535
      let clipped := ms.filter fun m => decide (64 < (m.2.2.2.filter fun v => bitAt v 3).length)
      let report := pack [(112, 16, count 0), (96, 16, count 1), (80, 16, count 2), (64, 16, count 3), (48, 16, count 4), (32, 16, count 5),
        (16, 16, min map.length 65535), (0, 16, (clipped.map fun m => 2 ^ m.1).foldl (· ||| ·) 0)]
      let segs := s.configSegments st
      let methods := map.map fun x => (x, calMethod map segs width x)
      let others := sumNat ((List.range 64).map fun o => if o = st then 0 else (s.strm o).tables.defects.length)
      if !clipped.isEmpty then { result := 3, report := report }
      else if methods.any fun m => m.2.isNone then { result := 5, report := report }
      else if 4096 < map.length || 65536 < others + map.length then { result := 4, report := report }
      else
        let defects := methods.map fun m => (m.1, m.2.getD 0)
        let entryIn := fun (ph x : Nat) => match ms.find? fun m => m.1 == ph with
          | some m =>
            let e := calEntry (m.2.2.1.getD x ⟨0, 0, 0, 0⟩) (s.nat (Obj.calPedestal st)) (s.nat (Obj.calWhiteTarget st)) m.2.1
            (e.1, e.2.getD 262143)
          | none => Table.get (0, 65536) (s.strm st).tables.coef (ph * width + x)
        let final := fun (ph x : Nat) => match defects.lookup x with
          | some k => mapEntry (entryIn ph) defects x k
          | none => entryIn ph x
        let coef := (List.range (s.nat (Obj.phases st) * width)).filterMap fun i =>
          let e : Int × Nat := final (i / width) (i % width)
          if e = (0, 65536) then none else some (i, e)
        let refs := if s.nat (Obj.driftCount st) = 0 then [] else ms.map fun m => (m.1, s.calDriftRef st m.2.1 (final m.1) m.2.2.1)
        let tables : CalTables := { coef := coef, defects := defects, driftRefs := refs }
        let noShadow := s.flag (Obj.calAutoStage st) && s.streamOpen? st && !s.flag (Obj.coefShadow st)
        { result := if noShadow then 9 else 0, report := report, tables := tables }
  | _, _ => { result := 6 }

/-- A CoefTable as bytes (R226). -/
def coefBytes (n : Nat) (t : Table (Int × Nat)) : Bytes :=
  (List.range n).flatMap fun i =>
    let e := Table.get (0, 65536) t i
    leBytes 3 (toBits 18 e.1) ++ leBytes 3 e.2

/-- A DefectMap as bytes (R226). -/
def defectBytes (ds : List (Nat × Nat)) : Bytes := ds.flatMap fun d => leBytes 4 (d.2 * 2 ^ 30 + d.1)

/-- DERIVE_DONE: Peony completes a derivation (R273): tables kept in CalDerived, staged as one group of boundary P where
CalAutoStage is 1 and the stream holds fewer than four waiting groups (R31), or the derivation FAILED (R272, R274). -/
def execDeriveDone (st : Fin 64) (s : State) : Result :=
  .next <| if (s.calib st).state != .deriving_ then s
    else
      let d := s.derive st
      let s := s.setReg (Obj.calReport st) d.report
      let keep := d.result = 0 || d.result = 9
      let s := if keep then s.updCalib st fun c => { c with derived := some d.tables } else s
      if d.result ≠ 0 then failCapture st d.result s
      else
        let s := { s with dep := { s.dep with lampRef := s.dep.lampMean } }
        let stage := s.flag (Obj.calAutoStage st) && !s.groupsFull st
        let s := s.updCalib st fun c => { c with result := 0, state := if stage then .staged else .captured }
        let s := s.raise .calDone [st, 0]
        if !stage then s
        else
          let n := s.nat (Obj.phases st) * widthOf (s.tribs st)
          let ms := [((0x5400 + st.val) * 256 + 1, Val.blob (coefBytes n d.tables.coef)),
                     ((0x5400 + st.val) * 256 + 2, Val.blob (defectBytes d.tables.defects))] ++
            d.tables.driftRefs.map fun r => ((Obj.driftRef st r.1).key, Val.num r.2)
          acceptGroup 1 ms false s

/-! ### Lamp warm-up (R277 to R280) -/

/-- WARMING is entered (R278). -/
def enterWarming (s : State) : State := { s with warmup := { s.warmup with state := .warming, since := s.now, settled := 0 } }

/-- The lamp power domains are on, or off (R278). -/
def lampDomains (on : Bool) (s : State) : State :=
  if on then (if s.warmup.state == .off then enterWarming s else s)
  else { s with warmup := { s.warmup with state := .off, settled := 0 } }

/-- Warm-up sources in use. -/
def State.warmSources (s : State) : List Nat := (List.range 8).filter fun i => field (s.nat (Obj.warmupSource i)) 30 2 != 0

/-- The drift rate of a source (R277), in ppm/s, from the sums and counts of two intervals; none without a value or with a
mean of 0. The interval is in ms. -/
def warmRate (now before : Int × Nat) (interval : Nat) : Option Int :=
  if now.2 = 0 || before.2 = 0 || now.1 = 0 then none
  else
    let d := (now.1 * before.2 - before.1 * now.2).natAbs * 1000000000
    let v := now.1 * before.2 * interval
    if 0 < v then some (roundDiv d v.toNat) else some (-1)

/-- One source at the end of an interval: its rate reported, and whether it is settled. A mean below 0 gives a rate the spec
does not state (log entry 6). -/
def warmSource (i : Nat) (s : State) : Bool × State :=
  let w := s.warmup
  match warmRate (Table.get (0, 0) w.acc i) (Table.get (0, 0) w.prev i) (s.nat Obj.warmupInterval) with
  | none => (false, s)
  | some r =>
    let f := if r < 0 then let o := s.free (2 ^ 32); (o.1, o.2) else (min r.toNat (maxU 32), s)
    (decide (f.1 < f.2.nat Obj.warmupThreshold), f.2.setReg (Obj.warmupRate i) f.1)

/-- WARMUP_INTERVAL: every WarmupInterval each source's drift rate; WARM after WarmupHold settled intervals (R277, R278). -/
def execWarmupInterval (s : State) : Result :=
  if !s.loopDue 1 0 (ms (s.nat Obj.warmupInterval)) then .next s else
  let s := s.loopRan 1 0
  let t := s.warmSources.foldl (fun (t : Bool × State) i => let u := warmSource i t.2; (t.1 && u.1, u.2)) (true, s)
  let s := t.2
  let w := s.warmup
  let settled := if t.1 then w.settled + 1 else 0
  let w := { w with prev := w.acc, acc := [], settled := if w.state == .warming then settled else 0 }
  .next <| if w.state == .warming && decide (s.nat Obj.warmupHold ≤ settled) then
      ({ s with warmup := { w with state := .warm } } : State).raise .lampWarm []
    else { s with warmup := w }

/-- The slowest source: the highest rate, the lowest number on a tie. -/
def State.slowestSource (s : State) : Nat :=
  s.warmSources.foldl (fun b i => if s.nat (Obj.warmupRate b) < s.nat (Obj.warmupRate i) then i else b) (s.warmSources.head?.getD 0)

/-- LAMP_WARMUP_TIMEOUT: WarmupTimeout has elapsed in WARMING (R278 to R280): waiting white captures fail. -/
def execLampWarmupTimeout (s : State) : Result :=
  .next <| if s.warmup.state != .warming || s.now < s.warmup.since + ms (1000 * s.nat Obj.warmupTimeout) then s
    else
      let s := { s with warmup := { s.warmup with state := .timeout } }
      let s := s.raiseFault .lampWarmupTimeout [s.slowestSource] Kind.lampWarmupTimeout 1 s.slowestSource 2 (islandOf 10 0)
      (List.range 64).foldl (fun s st => if (s.calib st).state == .waitingWarm then failCapture st 8 s else s) s

/-- WARMUP_RESTART: WarmupRestart written 1 (R278). -/
def execWarmupRestart (s : State) : Result := .next (enterWarming s)

end Sys2Proof.Machine
end

