-- ==== Sys2Proof/Machine/Delta.lean ====
section
/-! DEFINITION. The host port and the Delta engine (R438 to R441, R448 to R499): windows, channels, descriptors, the forming of
writes, completion. -/
namespace Sys2Proof.Machine

/-! ### Channels -/

/-- The completion queue changed. -/
def State.updCq (s : State) (f : CplQueue → CplQueue) : State := { s with host := { s.host with cq := f s.host.cq } }
/-- The mailbox changed. -/
def State.updMbx (s : State) (f : Mailbox → Mailbox) : State := { s with host := { s.host with mbx := f s.host.mbx } }

/-- MSI-X vector of a channel (R458). -/
def State.chanVector (s : State) (n : Nat) : Nat := (s.chan n).vec.getD n

/-- Address of a DLT_CH_NEXT word, and whether it lies in descriptor memory (R458). -/
def descAddr (raw : Nat) : Nat := raw / 64 * 64
def descLocal (raw : Nat) : Bool := bitAt raw 1
/-- Bytes of descriptor memory (R451). -/
def descBytes : Nat := 1048576

/-! ### Descriptors (R468 to R473) -/
namespace Desc
def lineCount (d : Nat) : Nat := field d 16 16
def stride (d : Nat) : Nat := field d 32 32
def format (d : Nat) : Nat := field d 14 2
def srcKind (d : Nat) : Nat := field d 12 2
def dstLocal (d : Nat) : Bool := bitAt d 11
def fixedSrc (d : Nat) : Bool := bitAt d 10
def fixedDst (d : Nat) : Bool := bitAt d 9
def barrier (d : Nat) : Bool := bitAt d 8
def irq (d : Nat) : Bool := bitAt d 7
/-- END. -/
def last (d : Nat) : Bool := bitAt d 128
/-- NEXT as a DLT_CH_NEXT word. -/
def next (d : Nat) : Nat := field d 134 58 * 64 + 2 * field d 129 1
def dst (d : Nat) : Nat := field d 192 64
def srcAddr (d : Nat) : Nat := field d 448 64
def srcStride (d : Nat) : Nat := field d 416 32
/-- D1: LENGTH. -/
def length (d : Nat) : Nat := field d 416 32 + 1
def lineBytes (d : Nat) : Nat := field d 396 20 + 1
/-- 0 host memory, 1 descriptor memory, 2 reservoir. -/
def srcSpace (d : Nat) : Nat := field d 394 2
def stream (d : Nat) : Nat := field d 506 6
def withTags (d : Nat) : Bool := bitAt d 505
def pageEnd (d : Nat) : Bool := bitAt d 504
/-- A field of the fetch request (R472). -/
def fetch (d b w : Nat) : Nat := field d (256 + b) w
end Desc

/-- Lines of a descriptor, or bytes of a D1 copy. -/
def descTotal (d : Nat) (job : Option FetchJob) : Nat :=
  if Desc.format d = 0 then Desc.length d
  else match job with
    | some j => j.count
    | none => if Desc.srcKind d = 1 then Desc.fetch d 160 32 else Desc.lineCount d

/-! ### The reservoir as Delta and the host read it (R438) -/

/-- One byte of the usable reservoir; none in the calibration region, whose layout the spec does not give. -/
def State.reservoirByte (s : State) (a : Nat) : Option Byte :=
  let hit := (List.range 64).findSome? fun st =>
    let r := s.ring st
    if !r.allocated then none
    else
      let slot := s.nat (Obj.slotBytes st)
      let recs := s.nat (Obj.pageRecordEntries st)
      let area := s.areasOf st
      if r.base ≤ a && a < r.base + s.nat (Obj.ringLines st) * slot then
        some ((Table.get {} r.slots ((a - r.base) / slot)).byte ((a - r.base) % slot))
      else if r.recordBase ≤ a && a < r.recordBase + 128 * recs then
        match Table.get none r.records ((a - r.recordBase) / 128) with
        | some p => some ((pageBytes st p).getD ((a - r.recordBase) % 128) 0)
        | none => some 0
      else if r.edgeBase ≤ a && a < r.edgeBase + area.2.2 then
        some ((leBytes 8 (Table.get 0 r.entries ((a - r.edgeBase) / 8))).getD ((a - r.edgeBase) % 8) 0)
      else none
  match hit with
  | some b => some b
  | none => if a < 402653184 then none else some 0

/-- Bytes of the reservoir; those the spec does not give are open values (log entry 6), and so are those that two failed
channels lose. At or above ReservoirUsable every byte reads all ones (R438). -/
def readReservoir (a len : Nat) (s : State) : Bytes × State :=
  let k := s.freeCount
  let bytes := (List.range len).map fun i =>
    let x := a + i
    if reservoirBytes ≤ x then (255 : Byte)
    else if (s.badUnits x 1).2 ≠ 0 then BitVec.ofNat 8 (Config.freeByte k i)
    else match s.reservoirByte x with
      | some b => b
      | none => BitVec.ofNat 8 (Config.freeByte k i)
  let bad := s.badUnits a len
  (bytes, ({ s with freeCount := k + 1 } : State).count Obj.reservoirRebuilt bad.1)

/-- BAR4_READ: a host read of the reservoir window (R438). -/
def execBar4Read (off len : Nat) (s : State) : Result :=
  .next <| let r := readReservoir off len s
    enq bar4Chan (.hostCompletion true r.1) r.2

/-- BAR4_WRITE: discarded, counted and reported to the host (R452). -/
def execBar4Write (_off : Nat) (_data : Bytes) (s : State) : Result := .next ((s.count Obj.bar4WritesDropped).emit .unsupportedRequest)

/-! ### Writes (R482) -/

/-- Body writes: whole 64-byte blocks cut at Max_Payload_Size boundaries; the fuel is the number of bytes. -/
def bodyWrites (mps : Nat) : Nat → Nat → Bytes → List (Nat × Bytes)
  | 0, _, _ => []
  | n + 1, a, b =>
    if b.isEmpty then []
    else
      let k := min (mps - a % mps) (b.length / 64 * 64)
      if k = 0 then [(a, b)] else (a, b.take k) :: bodyWrites mps n (a + k) (b.drop k)

/-- The writes of a run: head, body, tail (R482). -/
def runWrites (mps a : Nat) (b : Bytes) : List (Nat × Bytes) :=
  if b.isEmpty then []
  else if a % 64 + b.length ≤ 64 then [(a, b)]
  else
    let h := (64 - a % 64) % 64
    let body := b.drop h
    let whole := body.length / 64 * 64
    (if h = 0 then [] else [(a, b.take h)]) ++ bodyWrites mps body.length (a + h) (body.take whole) ++
      (if body.length = whole then [] else [(a + h + whole, body.drop whole)])

/-- Bytes of a channel put into host memory as one run, or into descriptor memory. -/
def putRun (n : Nat) (toLocal : Bool) (a : Nat) (b : Bytes) (s : State) : State :=
  if toLocal then { s with host := { s.host with mem := s.host.mem.writeN a b } }
  else enqs n ((runWrites s.host.mps a b).map fun w => .hostWrite w.1 w.2) s

/-- A D1 copy's destination: 4-byte writes at one address where it is fixed; descending where the areas overlap upward (R474,
R475). -/
def putCopy (n d : Nat) (b : Bytes) (s : State) : State :=
  let a := Desc.dst d
  if Desc.fixedDst d then
    (List.range (b.length / 4)).foldl (fun s i => putRun n (Desc.dstLocal d) a ((b.drop (4 * i)).take 4) s) s
  else
    let same := Desc.srcSpace d = (if Desc.dstLocal d then 1 else 0)
    let down := same && !Desc.fixedSrc d && decide (Desc.srcAddr d < a ∧ a < Desc.srcAddr d + Desc.length d)
    if down && !Desc.dstLocal d then enqs n ((runWrites s.host.mps a b).reverse.map fun w => .hostWrite w.1 w.2) s
    else putRun n (Desc.dstLocal d) a b s

/-- The run in hand of a channel is written. -/
def flushRun (n : Nat) (s : State) : State :=
  let c := s.chan n
  match c.desc with
  | none => s
  | some d =>
    if c.run.isEmpty then s
    else
      let s := if Desc.format d = 0 then putCopy n d c.run s else putRun n (Desc.dstLocal d) c.runAt c.run s
      let last := if Desc.fixedDst d && Desc.format d = 0 then Desc.dst d + 3 else c.runAt + c.run.length - 1
      s.updChan n fun c => { c with run := [], lastByte := some last }

/-- One line joins the run of its descriptor, or starts the next one (R482); into descriptor memory it is written at once
(R476). -/
def addLine (n a : Nat) (b : Bytes) (s : State) : State :=
  let c := s.chan n
  let isLocal := match c.desc with
    | some d => Desc.dstLocal d
    | none => false
  let s := if isLocal || c.run.isEmpty || c.runAt + c.run.length != a then flushRun n s else s
  let s := s.updChan n fun c => if c.run.isEmpty then { c with runAt := a, run := b } else { c with run := c.run ++ b }
  if isLocal then flushRun n s else s

/-! ### Fetches (R439 to R441) -/

/-- The fetch request of a descriptor: an error code, or the request with its ranges resolved. -/
def State.fetchJob (s : State) (d : Nat) : Nat × Option FetchJob :=
  let f := Desc.fetch d
  let st := f 117 6
  let kind := f 114 3
  let sel := f 106 2
  let rel := f 108 4
  let page := f 74 32
  let r := s.ring st
  let w := widthOf (s.tribs st)
  let ph := max (s.nat (Obj.phases st)) 1
  if f 0 74 ≠ 0 || 4 ≤ kind || sel = 3 then (1, none)
  else if 10 ≤ rel then (11, none)
  else
    let rec_ := (Table.get none r.records (page % max (s.nat (Obj.pageRecordEntries st)) 1)).filter fun p => p.number == page
    let base : Option (Nat × Nat × Nat × Nat) :=
      if sel = 0 || kind = 2 then some (f 192 64, f 160 32, f 142 18, f 123 19)
      else match rec_ with
        | none => none
        | some p =>
          if sel = 2 && p.cropValid && !p.opened then
            some (p.cropFirst, p.cropLast + 1 - p.cropFirst, p.cropLeft, p.cropRight + 1 - p.cropLeft)
          else some (p.firstLine, if p.opened then r.pageNext - p.firstLine else p.lines + p.dropped, f 142 18, f 123 19)
    match base with
    | none => (11, none)
    | some (first, lines, px, pn) =>
      let narrow := px % 4 ≠ 0 || pn % 4 ≠ 0 || pn = 0 || w < px + pn ||
        (s.flag (Obj.compressionAllowed st) && (px ≠ 0 || pn ≠ w))
      let e := s.nat (Obj.edgePhase st)
      let skip := (e + ph - first % ph) % ph
      let count := if kind = 3 then (lines + ph - 1 - skip) / ph else lines
      if ((sel = 0 || kind = 2) && (lines = 0 || 65535 < lines)) || (kind = 0 && narrow) then (11, none)
      else (0, some { stream := st, kind := kind, first := if kind = 3 then first + skip else first, count := count, firstPixel := px,
                      pixelCount := pn, withTags := kind = 0 && f 113 1 = 1, protect := f 112 1 = 1, release := rel, page := page })

/-- StoredWidth a fetch delivers: of the first line fetched, from when there is one; before, of its first line if the ring holds it, else
the one in effect. -/
def State.fetchWidth (s : State) (j : FetchJob) : Nat :=
  j.width.getD (match s.slotOf j.stream j.first with
    | some x => x.width
    | none => s.nat (Obj.storedWidth j.stream))

/-- Bytes of one delivered line of a fetch (R440, R477). -/
def State.fetchLineBytes (s : State) (j : FetchJob) : Nat :=
  match j.kind with
  | 0 => (if j.withTags then 32 else 0) + (if s.flag (Obj.compressionAllowed j.stream) then s.lineBytesOf j.stream
      else j.pixelCount * s.fetchWidth j / 8)
  | 1 => 32
  | 2 => 128
  | _ => 8

/-- Lines of a stream lost to two unreadable units of a stripe (R406): LOST in the tag delivered, counted, reported. -/
def lostUnits (st : Nat) (s : State) : State :=
  (s.count Obj.reservoirLost).raiseFault .reservoirLost [st] Kind.reservoirLost 3 st 1 (islandOf 5 0)

/-- A slot read for delivery: its tag and `len` stored bytes from `off`, rebuilt or lost where its units are (R406). -/
def readSlot (st line off len : Nat) (x : RingSlot) (s : State) : Nat × Bytes × State :=
  let bad := s.badUnits (s.slotAddr st line) (32 + off + len)
  let s := s.count Obj.reservoirRebuilt bad.1
  let bytes := (List.range len).map fun i => x.byte (32 + off + i)
  if bad.2 = 0 then (x.tag, bytes, s)
  else
    let k := s.freeCount
    let s := lostUnits st { s with freeCount := k + 1 }
    (if bitAt x.tag 17 then x.tag else x.tag + 2 ^ 17, (List.range len).map fun i => BitVec.ofNat 8 (Config.freeByte k i), s)

/-- Stored bytes of a slot: of a placeholder, those of an uncompressed line. -/
def State.storedBytes (s : State) (st : Nat) (x : RingSlot) : Nat :=
  if x.undef.isSome then (x.width * widthOf (s.tribs st) + 255) / 256 * 32 else x.bytes.length

/-- What line `i` of a fetch delivers: its bytes and whether it is missing; none while it is waited for (R440, R441). -/
def fetchLine (j : FetchJob) (i : Nat) (expired : Bool) (s : State) : Option (Bytes × Bool × State) :=
  let st := j.stream
  let r := s.ring st
  let ph := max (s.nat (Obj.phases st)) 1
  match j.kind with
  | 2 =>
    let number := (j.page + i) % 2 ^ 32
    match (Table.get none r.records (number % max (s.nat (Obj.pageRecordEntries st)) 1)).filter fun p => p.number == number with
    | some p => some (pageBytes st p, false, s)
    | none => some (List.replicate 128 0, false, s)
  | 3 =>
    let line := j.first + i * ph
    let n := max ((s.nat (Obj.ringLines st) + ph - 1) / ph) 1
    if j.gone then some (List.replicate 8 0, true, s)
    else if line < r.pageNext then
      if (r.pageNext - 1) / ph - line / ph < n then some (leBytes 8 (Table.get 0 r.entries (line / ph % n)), false, s)
      else some (List.replicate 8 0, true, s)
    else if expired then some (List.replicate 8 0, true, s)
    else none
  | _ =>
    let line := j.first + i
    let w := s.fetchWidth j
    let whole := s.flag (Obj.compressionAllowed st)
    let missing : Bytes × Bool × State :=
      let tag := leBytes 32 (pack [(176, 32, line % 2 ^ 32), (17, 1, 1)])
      let px := List.replicate (if whole then s.lineBytesOf st else j.pixelCount * w / 8) 0
      (if j.kind = 1 then tag else (if j.withTags then tag else []) ++ px, true, s)
    if j.gone then some missing
    else match s.slotOf st line with
      | some x =>
        if x.width ≠ w then some missing
        else if j.kind = 1 then
          let v := readSlot st line 0 0 x s
          some (leBytes 32 v.1, false, v.2.2)
        else
          let v := if x.compressed then readSlot st line 0 (s.storedBytes st x) x s
            else readSlot st line (j.firstPixel * w / 8) (j.pixelCount * w / 8) x s
          let px := if x.compressed then v.2.1 ++ List.replicate (s.lineBytesOf st - v.2.1.length) 0 else v.2.1
          some ((if j.withTags then leBytes 32 v.1 else []) ++ px, false, v.2.2)
      | none => if line < r.pageNext || expired then some missing else none

/-! ### Checks of a descriptor (R469, R471, R474, R477, R478, R492) -/

/-- The highest byte, plus one, that an ADDRESS descriptor touches from an address with a stride. -/
def addressEnd (d a stride_ : Nat) (fixed : Bool) : Nat :=
  if Desc.format d = 0 then a + (if fixed then 4 else Desc.length d)
  else a + (Desc.lineCount d - 1) * stride_ + Desc.lineBytes d

/-- Reserved values and forbidden combinations of an ADDRESS descriptor (R471, R474). -/
def addressInvalid (d : Nat) : Bool :=
  let one := Desc.format d = 0
  Desc.srcSpace d = 3 || field d 256 138 ≠ 0 || (one && (Desc.lineCount d ≠ 0 || field d 396 20 ≠ 0)) || (!one && Desc.lineCount d = 0) ||
    (one && Desc.fixedSrc d && (Desc.srcAddr d % 4 ≠ 0 || Desc.length d % 4 ≠ 0)) ||
    (one && Desc.fixedDst d && (Desc.dst d % 4 ≠ 0 || Desc.length d % 4 ≠ 0))

/-- An address of an ADDRESS descriptor beyond its space (R492). -/
def addressRange (d : Nat) : Bool :=
  let src := addressEnd d (Desc.srcAddr d) (Desc.srcStride d) (Desc.fixedSrc d)
  let dst := addressEnd d (Desc.dst d) (Desc.stride d) (Desc.fixedDst d)
  (Desc.srcSpace d = 1 && descBytes < src) || (Desc.srcSpace d = 2 && reservoirBytes < src) || (Desc.dstLocal d && descBytes < dst)

/-- The error a descriptor has before any data moves, 0 for none, and its fetch. -/
def State.descCheck (s : State) (n d : Nat) : Nat × Option FetchJob :=
  if field d 130 4 ≠ 0 || field d 0 6 ≠ 0 || 2 ≤ Desc.format d || Desc.srcKind d = 3 ||
      (Desc.srcKind d ≠ 0 && (Desc.format d ≠ 1 || Desc.dstLocal d)) then (1, none)
  else if Desc.srcKind d = 0 then
    (if addressInvalid d then 1 else if addressRange d then 9 else 0, none)
  else if Desc.srcKind d = 1 then
    if Desc.lineCount d ≠ 0 then (1, none)
    else match s.fetchJob d with
      | (0, some j) => if Desc.stride d < s.fetchLineBytes j then (1, none) else (0, some j)
      | (e, _) => (e, none)
  else if field d 448 56 ≠ 0 || field d 256 128 ≠ 0 || Desc.lineCount d = 0 then (1, none)
  else if s.boundStream n ≠ some (Desc.stream d) then (12, none)
  else if Desc.stride d < s.lineBytesOf (Desc.stream d) + (if Desc.withTags d then 32 else 0) then (1, none)
  else (0, none)

/-! ### Running a channel -/

/-- Bytes of the next source read of an ADDRESS descriptor, and its address: one D2 line, or a D1 piece up to a 4 KiB boundary
(one 4-byte request at a fixed host address) (R483). -/
def DltChan.piece (c : DltChan) (d : Nat) : Nat × Nat :=
  if Desc.format d = 1 then (Desc.srcAddr d + c.pos * Desc.srcStride d, Desc.lineBytes d)
  else if Desc.fixedSrc d then (Desc.srcAddr d, 4)
  else
    let a := Desc.srcAddr d + c.pos
    (a, min (Desc.length d - c.pos) (4096 - a % 4096))

/-- Read requests of a length: cut at Max_Read_Request_Size and at 4 KiB boundaries (R483); the fuel is the number of bytes. -/
def readCuts (mrrs : Nat) : Nat → Nat → Nat → List (Nat × Nat)
  | 0, _, _ => []
  | k + 1, a, n =>
    if n = 0 then []
    else
      let m := min n (min (max mrrs 128) (4096 - a % 4096))
      (a, m) :: readCuts mrrs k (a + m) (n - m)

/-- Host memory is to be read for a channel (R483, R484). -/
def askHost (n a len : Nat) (s : State) : State := enqs n ((readCuts s.host.mrrs len a len).map fun r => .hostRead r.1 r.2) s

/-- A read request of a channel has not been issued yet: nothing can answer it. -/
def DltChan.unasked (c : DltChan) : Bool := c.tx.any fun t => match t with
  | .send _ (.hostRead ..) => true
  | _ => false

/-- The request a running channel makes next of host memory. -/
def requestNext (n : Nat) (s : State) : State :=
  let c := s.chan n
  match c.phase with
  | .reread => if descLocal c.cur then s else askHost n (descAddr c.cur + 16) 8 s
  | .fetch => if descLocal c.want || s.chanClass n = 0 then s else askHost n (descAddr c.want) 64 s
  | .data => match c.desc with
    | some d => if Desc.srcKind d = 0 && Desc.srcSpace d = 0 then
        let p := c.piece d
        askHost n p.1 p.2 s
      else s
    | none => s
  | _ => s

/-- A descriptor is taken up (R467): its checks, its FETCH mark, its first read. -/
def loadDesc (n raw d : Nat) (s : State) : State :=
  let e := s.descCheck n d
  let s := s.updChan n fun c =>
    { c with state := .running, cur := raw, desc := some d, prefetched := none, pos := 0, fetch := e.2, firstLine := none, lastLine := none, withdrawn := false, run := [],
             lastByte := none, starveTold := false, code := e.1, count := descTotal d e.2, phase := if e.1 = 0 then .data else .complete }
  let s := match e.2 with
    | some j => if j.protect then moveMark j.stream (fun r => r.placeMark .fetch n j.first) s else s
    | none => s
  requestNext n s

/-- A channel's completion record, class 3 (R53), written at DLT_CQ_TAIL, with its PHASE, and vector 2,046 (R488, R490). -/
def pushRecord (n rec_ : Nat) (s : State) : State :=
  let q := s.host.cq
  let entries := 2 ^ q.log
  let s := { s with host := { s.host with cq := { q with tail := (q.tail + 1) % entries,
                                                         phase := if q.tail + 1 = entries then !q.phase else q.phase } } }
  let rec_ := rec_ + (if q.phase then 2 ^ 194 else 0)
  let s := s.updChan n fun c =>
    { c with tx := c.tx ++ (runWrites s.host.mps (q.base + 32 * q.tail) (leBytes 32 rec_)).map fun w => .send 3 (.hostWrite w.1 w.2) }
  if s.spaced s.host.cq.sentAt (us 1) then sendVector n 2046 (s.updCq fun q => { q with sentAt := some s.now, owed := false })
  else s.updCq fun q => { q with owed := true }

/-- The completion queue holds entries − 1 unconsumed records (R490). -/
def CplQueue.full (q : CplQueue) : Bool :=
  let n := 2 ^ q.log
  decide (n ≤ (q.tail + n - q.head) % n + 1)

/-- A completion record is written, or held for lack of space with DLT_CQ_FULL (R490); true where it is held. -/
def signalRecord (n rec_ : Nat) (s : State) : Bool × State :=
  if !s.host.cq.en then (false, s)
  else if s.host.cq.full || !s.host.cq.held.isEmpty then
    (true, (s.updCq fun q => { q with held := q.held ++ [(n, rec_)] }).raise .dltCqFull [n])
  else (false, pushRecord n rec_ s)

/-- Modes whose completions are MSI-X messages (R487). -/
def Mode.signalsMsix (m : Mode) : Bool := m == .scan || m == .stream || m == .idleReady || m == .hold || m == .degraded
/-- Modes whose completions are records (R487). -/
def Mode.signalsRecord (m : Mode) : Bool := m == .boot || m == .configure || m == .calibrate || m == .maintenance

/-- A completion record without PHASE (R488). -/
def State.recordOf (s : State) (n code aux count : Nat) : Nat :=
  let c := s.chan n
  pack [(198, 58, c.cur / 64), (192, 1, b2n (descLocal c.cur)), (128, 64, s.dt), (64, 64, aux), (56, 8, n),
        (54, 2, if code = 0 then 1 else 2), (48, 6, code), (40, 2, s.chanClass n), (0, 40, count)]

/-- The channel enters ERROR at an address (R492, R495). -/
def chanError (n raw code : Nat) (s : State) : State :=
  let s := s.updChan n fun c => { c with state := .error, phase := .none, cur := raw, error := code, desc := none, prefetched := none }
  let s := s.raiseFault .dltChannelError [n, code] Kind.dltChannelError 2 n 1 (islandOf 7 0)
  if s.mode.signalsRecord then (signalRecord n (s.recordOf n code 0 0) s).2 else s

/-- A descriptor fetch is due: a class 0 channel follows only descriptor memory (R492, R497). -/
def fetchDue (n raw : Nat) (s : State) : State :=
  if s.chanClass n = 0 && !descLocal raw then chanError n raw 3 s
  else requestNext n (s.updChan n fun c => { c with state := .running, phase := .fetch, want := raw })

/-- A channel goes on after a wait: with the descriptor it holds, the one it is to fetch, or the NEXT field it is to read
again. -/
def resume (n : Nat) (s : State) : State :=
  let c := s.chan n
  match c.state with
  | .idle => fetchDue n c.next s
  | .stoppedAtEnd => requestNext n (s.updChan n fun c => { c with state := .running, phase := .reread, follow := true })
  | .waitingStart => match c.prefetched with
    | some (a, d) => loadDesc n a d s
    | none => fetchDue n c.want s
  | _ => s

/-- The channel would wait: it uses a credit instead where it has one (R465). -/
def chanWait (n : Nat) (st : ChState) (s : State) : State :=
  let s := s.updChan n fun c => { c with state := st, phase := .none }
  let c := s.chan n
  if c.credit = 0 then s else resume n (s.updChan n fun c => { c with credit := c.credit - 1 })

/-- A start event of a channel (R464 to R466): it starts a waiting channel, and adds a credit to a busy one. -/
def startEvent (n : Nat) (s : State) : State :=
  match (s.chan n).state with
  | .idle | .stoppedAtEnd | .waitingStart => resume n s
  | .running | .waitingCq => s.updChan n fun c => { c with credit := min (c.credit + 1) 65535 }
  | _ => s

/-- The descriptor after the one completed (R466, R467): the one held on chip, or what its NEXT field now says. -/
def nextDesc (n : Nat) (s : State) : State :=
  let c := s.chan n
  let s := s.updChan n fun c => { c with desc := none, fetch := none, run := [], state := .running }
  match c.prefetched with
  | some (a, d) => if c.paced then chanWait n .waitingStart s else loadDesc n a d s
  | none => requestNext n (s.updChan n fun c => { c with phase := .reread, follow := false })

/-- 64 bytes, or fewer, of descriptor memory as a number; none beyond it. -/
def State.localRead (s : State) (a len : Nat) : Option Nat :=
  if descBytes < a + len then none else some (leNat (s.host.mem.readN a len))

/-- What a read at a descriptor address answers. -/
def State.descRead (s : State) (raw off len : Nat) (reply : ReadReply) : Option Nat :=
  match reply with
  | .uncorrectable => if descLocal raw then none else some 0
  | .failed _ => if descLocal raw then s.localRead (descAddr raw + off) len else none
  | .data b => if descLocal raw then s.localRead (descAddr raw + off) len else some (leNat (b.take len))

/-- DESCRIPTOR_FETCH: the read of a preceding descriptor's NEXT field, or of a descriptor, answers; on a channel at work, the
next linked descriptor of descriptor memory is taken on chip (R464, R467, R497). -/
def execDescriptorFetch (n : Fin 256) (reply : ReadReply) (s : State) : Result :=
  let c := s.chan n
  .next <| if c.state != .running then s
    else match c.phase with
      | .reread => if c.unasked then s else match s.descRead c.cur 16 8 reply with
        | none => chanError n c.cur 2 s
        | some v =>
          if v % 2 = 1 then chanWait n .stoppedAtEnd s
          else
            let raw := v / 64 * 64 + 2 * field v 1 1
            let s := s.updChan n fun c => { c with want := raw }
            if c.paced && !c.follow then chanWait n .waitingStart s else fetchDue n raw s
      | .fetch => if c.unasked then s else match s.descRead c.want 0 64 reply with
        | none => chanError n c.want 2 s
        | some d => loadDesc n c.want d s
      | .data | .flush | .complete =>
        if c.prefetched.isSome || !descLocal c.cur then s
        else match s.localRead (descAddr c.cur + 16) 8 with
          | none => s
          | some v =>
            let raw := v / 64 * 64 + 2 * field v 1 1
            if v % 2 = 1 || !descLocal raw then s
            else match s.localRead (descAddr raw) 64 with
              | none => s
              | some d => s.updChan n fun c => { c with prefetched := some (raw, d) }
      | .none => s

/-- The last data of a descriptor has been written: its flush read with BARRIER, or its completion (R486). -/
def finishData (n count : Nat) (s : State) : State :=
  let s := flushRun n s
  let c := s.chan n
  match c.desc, c.lastByte with
  | some d, some b =>
    if Desc.barrier d && !Desc.dstLocal d then
      enq n (.hostRead (b / 4 * 4) 0) (s.updChan n fun c => { c with phase := .flush, code := 0, count := count })
    else s.updChan n fun c => { c with phase := .complete, code := 0, count := count }
  | _, _ => s.updChan n fun c => { c with phase := .complete, code := 0, count := count }

/-- An error in a descriptor's data path (R493, R494): what earlier beats hold is written, and COUNT is an open value of at
most what was left after the failing read (log entry 6). -/
def dataError (n code left : Nat) (s : State) : State :=
  let s := flushRun n s
  let f := s.free (left + 1)
  f.2.updChan n fun c => { c with phase := .complete, code := code, count := f.1 }

/-- A piece of an ADDRESS source, from its bytes. -/
def takePiece (n d : Nat) (b : Bytes) (s : State) : State :=
  let c := s.chan n
  let s := if Desc.format d = 0 then
      s.updChan n fun c => { c with runAt := Desc.dst d, run := c.run ++ b, pos := c.pos + b.length }
    else (addLine n (Desc.dst d + c.pos * Desc.stride d) b s).updChan n fun c => { c with pos := c.pos + 1 }
  if descTotal d none ≤ (s.chan n).pos then finishData n 0 s else requestNext n s

/-- The next line of a fetch: delivered, or waited for (R440, R441). -/
def fetchStep (n d : Nat) (j : FetchJob) (s : State) : State :=
  let c := s.chan n
  if j.count ≤ c.pos then finishData n 0 s
  else
    let limit := us (s.nat (Obj.fetchWait j.stream))
    let expired := match j.waitSince with
      | some t => decide (t + limit ≤ s.now)
      | none => decide (limit = 0)
    let held := (s.slotOf j.stream (j.first + c.pos)).map RingSlot.width
    let j := { j with width := j.width.or (if j.gone then none else held) }
    match fetchLine j c.pos expired s with
    | none => s.updChan n fun c => { c with fetch := some { j with waitSince := some (j.waitSince.getD s.now) } }
    | some (b, missing, s) =>
      let s := if missing then s.count (Obj.fetchMissing j.stream) else s
      let s := addLine n (Desc.dst d + c.pos * Desc.stride d) b s
      let step := if j.kind = 3 then max (s.nat (Obj.phases j.stream)) 1 else 1
      let s := if j.protect && !j.gone then moveMark j.stream (fun r => r.placeMark .fetch n (j.first + (c.pos + 1) * step)) s else s
      let s := s.updChan n fun c =>
        { c with pos := c.pos + 1, fetch := some { j with waitSince := none, missing := j.missing + b2n missing } }
      if j.count ≤ c.pos + 1 then finishData n 0 s else s

/-- SOURCE_READ_COMPLETION: a read for a descriptor answers: one D2 line, one D1 piece, or the next line of a fetch; an error
makes the descriptor BAD (R440, R474 to R477, R493). -/
def execSourceReadCompletion (n : Fin 256) (reply : ReadReply) (s : State) : Result :=
  let c := s.chan n
  .next <| if c.state != .running || c.phase != .data then s
    else match c.desc, c.fetch with
      | some d, some j => fetchStep n d j s
      | some d, none =>
        if Desc.srcKind d ≠ 0 || c.unasked then s
        else
          let p := c.piece d
          let left := descTotal d none - c.pos - (if Desc.format d = 0 then p.2 else 1)
          match Desc.srcSpace d, reply with
          | 0, .failed e => dataError n (4 + e) left s
          | 0, .data b => takePiece n d ((b ++ List.replicate p.2 0).take p.2) s
          | 0, .uncorrectable => s
          | 1, .uncorrectable => dataError n 8 left s
          | 1, _ => takePiece n d (s.host.mem.readN p.1 p.2) s
          | _, _ =>
            if (s.badUnits p.1 p.2).2 ≠ 0 then dataError n 8 left s
            else let r := readReservoir p.1 p.2 s
                 takePiece n d r.1 r.2
      | none, _ => s

/-- FETCH_WAIT_EXPIRE: a fetched line has not been written within FetchWait: it is delivered as missing (R440, R441). -/
def execFetchWaitExpire (n : Fin 256) (s : State) : Result :=
  let c := s.chan n
  .next <| match c.desc, c.fetch with
    | some d, some j =>
      if c.state != .running || c.phase != .data then s
      else match j.waitSince with
        | some t => if s.now < t + us (s.nat (Obj.fetchWait j.stream)) then s else fetchStep n d j s
        | none => s
    | _, _ => s

/-- FLUSH_READ_COMPLETION: the zero-length read of a BARRIER descriptor completes, or fails (R486, R494). -/
def execFlushReadCompletion (n : Fin 256) (ok : Bool) (s : State) : Result :=
  .next <| if (s.chan n).phase != .flush || (s.chan n).unasked then s
    else s.updChan n fun c => { c with phase := .complete, code := if ok then 0 else 10, count := if ok then c.count else 0 }

/-- The marks and the release of a fetch that ends (R415, R439, R441). -/
def endFetch (n code : Nat) (j : FetchJob) (s : State) : State :=
  let s := if j.protect then moveMark j.stream (fun r => r.dropMark .fetch n) s else s
  let s := if j.missing = 0 then s else s.raise .fetchMissing [j.stream, j.missing]
  if code ≠ 0 || j.release = 0 then s
  else if j.release = 1 then releasePage j.stream j.page s
  else
    let k := j.release - 2
    moveMark j.stream (fun r => r.dropMark .host k) (s.setReg (Obj.hostMark j.stream k) (maxU 64))

/-- A write-back into a descriptor. -/
def writeBack (n raw off : Nat) (b : Bytes) (s : State) : State := putRun n (descLocal raw) (descAddr raw + off) b s

/-- DESCRIPTOR_COMPLETE: every write of the descriptor has been issued; STATUS is written back and the completion signalled as the mode directs; the channel goes on
(R466, R467, R470, R487, R490, R493). -/
def execDescriptorComplete (n : Fin 256) (s : State) : Result :=
  let c := s.chan n
  .next <| match c.desc with
    | none => s
    | some d =>
      if c.state != .running || c.phase != .complete || !c.tx.isEmpty then s
      else
        let missing := (c.fetch.map FetchJob.missing).getD 0
        let isStream := Desc.srcKind d = 2 && Desc.format d = 1
        let first := c.firstLine.getD (maxU 64)
        let s := match c.fetch with
          | some j => endFetch n c.code j s
          | none => s
        let s := if isStream then writeBack n c.cur 48 (leBytes 8 first) s else s
        let s := writeBack n c.cur 8 (leBytes 8 (pack [(62, 2, if c.code = 0 then 1 else 2), (56, 6, c.code), (40, 16, min missing 65535),
          (0, 40, c.count)])) s
        let s := if c.code = 0 then s.updChan n fun c => { c with done := (c.done + 1) % 2 ^ 32, phase := .none }
          else (s.count Obj.descriptorsBad).updChan n fun c => { c with bad := min (c.bad + 1) (maxU 32), err := true, error := c.code, phase := .none }
        let s := { s with host := { s.host with serving := if s.host.serving == some n.val then none else s.host.serving } }
        let tell := Desc.irq d || decide (c.code ≠ 0)
        let aux := if isStream then first else if c.fetch.isSome then missing else 0
        let r := if !tell then (false, s)
          else if s.mode.signalsMsix then (false, sendVector n (s.chanVector n) s)
          else if s.mode.signalsRecord then signalRecord n (s.recordOf n c.code aux c.count) s
          else (false, s)
        let s := if r.1 then r.2.updChan n fun c => { c with state := .waitingCq } else nextDesc n r.2
        (List.range 256).foldl (fun s m =>
          if (s.chan m).startSrc = 2 && (s.chan m).chainCh = n.val then startEvent m s else s) s

/-! ### Streaming delivery (R463, R478 to R481, R57) -/

/-- A line is the last of a page that has closed: the lines of the page after it, if any, were dropped (R417). -/
def State.endsPage (s : State) (st line : Nat) : Bool :=
  (s.ring st).records.any fun e => match e.2 with
    | some p => !p.opened && decide (p.firstLine ≤ line) && decide (line < p.firstLine + p.lines + p.dropped) &&
        ((List.range (p.firstLine + p.lines + p.dropped - (line + 1))).all fun i => p.missing.contains (line + 1 + i))
    | none => false

/-- The next line that streaming delivery takes from a mark on, and the lines it passes over: the fuel bounds them. -/
def State.nextDelivery (s : State) (st : Nat) : Nat → Nat → Option Nat × Nat
  | 0, n => (none, n)
  | k + 1, n =>
    let r := s.ring st
    if r.pageNext ≤ n then (none, n)
    else match s.slotOf st n with
      | none => s.nextDelivery st k (n + 1)
      | some x =>
        if s.nat (Obj.deliverScope st) = 0 || x.inPage then (some n, n)
        else
          let settled := match r.marks.find? fun m => m.kind == .pending with
            | some m => decide (n < m.index)
            | none => true
          if settled && !(r.page.any fun p => decide (p.firstLine ≤ n)) then s.nextDelivery st k (n + 1) else (none, n)

/-- The longest posted-credit stall seen so far (R57): each class 0 delivery may have met a longer one, of an open length in ns. -/
def creditStall (s : State) : State :=
  let f := s.free (2 ^ 32)
  f.2.setReg Obj.class0CreditStallMax (max (s.nat Obj.class0CreditStallMax) f.1 : Nat)

/-- A class 0 line that misses the bound of R55 is counted (R57); DESIGN CHOICE, log entry 90: a placeholder of which no pixel came is
not. -/
def class0Done (st line : Nat) (x : RingSlot) (s : State) : State :=
  if x.lastPixel.any fun t => decide (t + us 40 < s.now) then (s.count Obj.class0Misses).raise .class0Late [st, (line % 2 ^ 32 : Nat)] else s

/-- A streamed line's tag write has been issued: the DELIVERY mark passes it (R479), and a class 0 line that misses the bound of R55 is
counted (R57). -/
def lineDone (st line : Nat) (s : State) : State :=
  let s := moveMark st (fun r => r.placeMark .delivery 0 (line + 1)) s
  match s.slotOf st line with
  | some x => if x.cls = 0 then class0Done st line x (creditStall s) else s
  | none => s

/-- A line taken by a STREAM descriptor: its pixel writes, then its tag write, then its end (R479). -/
def deliverLine (n d st line : Nat) (x : RingSlot) (s : State) : State :=
  let c := s.chan n
  let v := readSlot st line 0 (s.storedBytes st x) x s
  let s := v.2.2
  let a := Desc.dst d + c.pos * Desc.stride d
  let tags := Desc.withTags d
  let px := a + (if tags then 32 else 0)
  let s := putRun n false px v.2.1 s
  let s := if tags then putRun n false a (leBytes 32 v.1) s else s
  let lastByte := if tags then a + 31 else px + v.2.1.length - 1
  let cls := s.txClass n
  s.updChan n fun c => { c with pos := c.pos + 1, firstLine := some (c.firstLine.getD line), lastLine := some line, lastByte := some lastByte,
                                tx := c.tx ++ [.lineEnd cls st line] }

/-- The line after the last one of a stream that a channel has taken: the mark has not passed those that wait for the link. -/
def DltChan.after (c : DltChan) (st mark : Nat) : Nat :=
  c.tx.foldl (fun m t => match t with
    | .lineEnd _ o line => if o = st then line + 1 else m
    | .send .. => m) mark

/-- A STREAM descriptor has delivered all it is to (R480). -/
def streamDone (d st : Nat) (c : DltChan) (s : State) : Bool :=
  let atEnd := match c.lastLine with
    | some l => (Desc.pageEnd d && s.endsPage st l) || (match s.slotOf st l with
        | some x => bitAt x.tag 11
        | none => false)
    | none => false
  decide (Desc.lineCount d ≤ c.pos) || atEnd || (Desc.pageEnd d && c.withdrawn)

/-- STREAM_LINE_DELIVER: a line is ready for streaming delivery: the bound channel's STREAM descriptor takes it; a channel
without a descriptor is starved (R463, R478 to R480). -/
def execStreamLineDeliver (st : Fin 64) (s : State) : Result :=
  let n := s.nat (Obj.streamChannel st)
  .next <| if 256 ≤ n || s.nat (Obj.deliverScope st) = 2 then s
    else
      let c := s.chan n
      let mark := ((s.ring st).marks.find? fun m => m.kind == .delivery).map Mark.index
      match mark with
      | none => s
      | some m =>
        let from_ := c.after st m
        let f := s.nextDelivery st (s.nat (Obj.ringLines st) + 1) from_
        let skip := fun (s : State) => if f.2 = m || from_ ≠ m then s else moveMark st (fun r => r.placeMark .delivery 0 f.2) s
        match c.state, c.phase, c.desc with
        | .running, .data, some d =>
          if Desc.srcKind d ≠ 2 then s
          else if streamDone d st c s then finishData n (Desc.lineCount d - c.pos) s
          else
            let s := skip s
            match f.1 with
            | none => s
            | some line => match s.slotOf st line with
              | none => s
              | some x =>
                let s := deliverLine n d st line x s
                let c := s.chan n
                if streamDone d st c s then finishData n (Desc.lineCount d - c.pos) s else s
        | .idle, _, _ | .stoppedAtEnd, _, _ =>
          if f.1.isNone then skip s
          else if c.starveTold then s
          else (s.updChan n fun c => { c with starved := true, starveTold := true }).raise .dltStarved [n, st]
        | _, _, _ => s

/-! ### Enabling and starting (R459 to R465) -/

/-- EN written 0, or the channel disabled by a mode or the link (R453, R461, R487): everything in hand is dropped. -/
def disableChan (n : Nat) (s : State) : State :=
  let c := s.chan n
  if c.state == .off then s
  else
    let s := match c.fetch with
      | some j => if j.protect then moveMark j.stream (fun r => r.dropMark .fetch n) s else s
      | none => s
    let s := s.updCq fun q => { q with held := q.held.filter fun h => h.1 != n }
    s.updChan n fun c => { c with state := .disabling, phase := .none, desc := none, prefetched := none, fetch := none, run := [], credit := 0,
                                  enAgain := false, tx := [] }

/-- The first k whose timer event lies at or after now. -/
def DltChan.firstTick (c : DltChan) (dt : Nat) : Nat :=
  if dt ≤ c.firstDt || c.period = 0 then 0 else (dt - c.firstDt + c.period - 1) / c.period

/-- EN written 1 (R461): a channel that is OFF becomes IDLE; during DISABLING, on reaching OFF. In the modes that keep
channels disabled it stays OFF (R487). -/
def enableChan (n : Nat) (s : State) : State :=
  if !s.mode.signalsMsix && !s.mode.signalsRecord then s
  else match (s.chan n).state with
    | .off => s.updChan n fun c => { c with state := .idle, phase := .none, credit := 0, tick := c.firstTick s.dt }
    | .disabling => s.updChan n fun c => { c with enAgain := true }
    | _ => s

/-- DLT_CH_EN_SET (R461). -/
def execDltChEnSet (n : Fin 256) (s : State) : Result := .next (enableChan n s)
/-- DLT_CH_EN_CLEAR (R461). -/
def execDltChEnClear (n : Fin 256) (s : State) : Result := .next (disableChan n s)
/-- CHANNEL_DISABLE: a ChannelDisable write clears EN of the selected channel (R501). -/
def execChannelDisable (n : Fin 256) (s : State) : Result := .next (disableChan n s)

/-- CHANNEL_OFF: a disabling channel reaches OFF (R461). -/
def execChannelOff (n : Fin 256) (s : State) : Result :=
  .next <| if (s.chan n).state != .disabling then s
    else
      let again := (s.chan n).enAgain
      let s := s.updChan n fun c => { c with state := .off, enAgain := false }
      if again then enableChan n s else s

/-- DLT_CH_DOORBELL: a start event of a channel with START_SRC 0 (R464). -/
def execDltChDoorbell (n : Fin 256) (s : State) : Result :=
  .next (if (s.chan n).startSrc = 0 then startEvent n s else s)

/-- CHANNEL_TIMER_START: a timer start event falls due (R465). -/
def execChannelTimerStart (n : Fin 256) (s : State) : Result :=
  let c := s.chan n
  .next <| if c.startSrc ≠ 1 || c.state == .off || c.state == .disabling || c.period < 1000 || s.dt < c.firstDt + c.tick * c.period then s
    else startEvent n (s.updChan n fun c => { c with tick := c.tick + 1 })

/-- DLT_CH_NEXT written: the start of the chain; STARVED is cleared (R458, R460). -/
def writeNext (n v : Nat) (s : State) : State :=
  s.updChan n fun c => { c with next := v / 64 * 64 + 2 * field v 1 1, starved := false }

/-- CHANNEL_NEXT_WRITE (R460). -/
def execChannelNextWrite (n : Fin 256) (v : BitVec 64) (s : State) : Result := .next (writeNext n v.toNat s)

/-! ### The completion queue, vectors and the mailbox -/

/-- Held completions proceed while the queue has room (R490). -/
def releaseHeld : Nat → State → State
  | 0, s => s
  | k + 1, s =>
    match s.host.cq.held with
    | [] => s
    | h :: t =>
      if s.host.cq.full then s
      else
        let s := pushRecord h.1 h.2 (s.updCq fun q => { q with held := t })
        releaseHeld k (if (s.chan h.1).state == .waitingCq then nextDesc h.1 s else s)

/-- DLT_CQ_HEAD written (R490). -/
def writeCqHead (v : Nat) (s : State) : State :=
  let s := s.updCq fun q => { q with head := v % 2 ^ q.log }
  if s.host.cq.en then releaseHeld s.host.cq.held.length s else s

/-- DLT_CQ_HEAD (R490). -/
def execDltCqHead (v : BitVec 32) (s : State) : Result := .next (writeCqHead v.toNat s)

/-- DLT_CQ_CTL written (R489): changes only while EN is 0; enabling starts the queue empty. -/
def writeCqCtl (v : Nat) (s : State) : State :=
  let on := bitAt v 31
  let lg := field v 0 5
  s.updCq fun q =>
    if q.en then (if on then q else { q with en := false })
    else if lg < 6 || 16 < lg then q
    else if on then { q with en := true, log := lg, head := 0, tail := 0, phase := true }
    else { q with log := lg }

/-- A vector unmasked: its pending message goes out (R457). -/
def unmask (v : Nat) (s : State) : State :=
  let e := Table.get {} s.host.msix v
  let s := { s with host := { s.host with msix := Table.set {} s.host.msix v { e with masked := false, pending := false } } }
  if e.pending then enq mgmtChan (.msix v) s else s

/-- MSIX_UNMASK (R457). -/
def execMsixUnmask (v : Fin 2048) (s : State) : Result := .next (unmask v s)

/-- A route whose subscriber spoke in a session loses it with the session (DEDUCED, log entry 41). -/
def EventRoute.leave (r : EventRoute) (num : Nat) : EventRoute :=
  if r.subscriber.any fun t => t.2 == num then {} else r

/-- EventSubscribers follows the routes (R587). -/
def noteSubscribers (s : State) : State :=
  s.setReg Obj.eventSubscribers (b2n s.kdps.net.subscriber.isSome + 2 * b2n s.kdps.mail.subscriber.isSome : Nat)

/-- A session ends: its staged groups and its transfers go (R563, R568). -/
def closeSession (num : Nat) (s : State) : State :=
  let k := s.kdps
  let sessions := k.sessions.filter fun x => x.num != num
  noteSubscribers <| { s with kdps := { k with net := k.net.leave num, mail := k.mail.leave num, sessions := sessions, staged := k.staged.filter fun g => g.owner != num,
                                               transfers := k.transfers.filter fun t => t.owner != num } }.setReg Obj.sessionsOpen
    ((sessions.filter Session.opened).length : Nat)

/-- The mailbox empties and its sessions close (R579, R580). -/
def emptyMailbox (s : State) : State :=
  let s := (s.kdps.sessions.filter Session.mailbox).foldl (fun s x => closeSession x.num s) s
  s.updMbx fun m => { m with txHead := 0, txTail := 0, rxHead := 0, rxTail := 0, held := [], rxOwed := false, txOwed := false }

/-- MBX_DISABLE: MBX_CTL EN written 0 (R579). -/
def execMbxDisable (s : State) : Result := .next ((emptyMailbox s).updMbx fun m => { m with en := false })

/-- Slots at MBX_TX_HEAD whose byte count is out of range are passed over and counted (R580). -/
def skipBadSlots : Nat → State → State
  | 0, s => s
  | k + 1, s =>
    let m := s.host.mbx
    let len := leNat (m.txRing.readN (2048 * m.txHead) 4)
    if m.txHead = m.txTail || (16 ≤ len && len ≤ 1488) then s
    else skipBadSlots k (txVector (s.updMbx fun m => { m with txHead := (m.txHead + 1) % 2048, malformed := min (m.malformed + 1) 65535 }))

/-- MBX_TX_TAIL written: the host has filled slots (R580). -/
def writeTxTail (v : Nat) (s : State) : State :=
  if !s.host.mbx.en then s else skipBadSlots 2048 (s.updMbx fun m => { m with txTail := v % 2048 })
/-- MBX_TX_TAIL (R580). -/
def execMbxTxTail (v : BitVec 32) (s : State) : Result := .next (writeTxTail v.toNat s)

/-- Held packets go into the RX ring while it has room. -/
def fillRx : Nat → State → State
  | 0, s => s
  | k + 1, s =>
    match s.host.mbx.held with
    | [] => s
    | p :: t => if s.host.mbx.room then fillRx k (mbxFill p (s.updMbx fun m => { m with held := t })) else s

/-- MBX_RX_HEAD written: the host has consumed slots (R580). -/
def writeRxHead (v : Nat) (s : State) : State :=
  if !s.host.mbx.en then s else fillRx s.host.mbx.held.length (s.updMbx fun m => { m with rxHead := v % 2048 })
/-- MBX_RX_HEAD (R580). -/
def execMbxRxHead (v : BitVec 32) (s : State) : Result := .next (writeRxHead v.toNat s)

/-- Vectors owed to their least interval go out (R490, R580). -/
def owedVectors (s : State) : State :=
  let s := if s.host.cq.owed && s.spaced s.host.cq.sentAt (us 1) then
    sendVector mgmtChan 2046 (s.updCq fun q => { q with sentAt := some s.now, owed := false }) else s
  let s := if s.host.mbx.rxOwed && s.spaced s.host.mbx.rxSent (us 10) then rxVector s else s
  if s.host.mbx.txOwed && s.spaced s.host.mbx.txSent (us 10) then txVector s else s

/-! ### The control window (R455, R458, R459, R489, R579) -/

/-- One half of a 64-bit register replaced. -/
def half (old : Nat) (high : Bool) (v : Nat) : Nat :=
  if high then old % 2 ^ 32 + v * 2 ^ 32 else old / 2 ^ 32 * 2 ^ 32 + v

/-- DLT_CH_CTL written (R459). -/
def writeChanCtl (n v : Nat) (s : State) : State :=
  let cls := field v 29 2
  let bound := (s.boundStream n).isSome
  let s := s.updChan n fun c => { c with cls := if bound || cls = 0 then c.cls else cls, paced := bitAt v 28, startSrc := field v 26 2, chainCh := field v 18 8 }
  if bitAt v 31 then enableChan n s else disableChan n s

/-- A register of a channel's block written (R458). -/
def writeChanReg (n r v : Nat) (s : State) : State :=
  match r with
  | 0x00 => writeChanCtl n v s
  | 0x08 => writeNext n (half (s.chan n).next false v) s
  | 0x0C => writeNext n (half (s.chan n).next true v) s
  | 0x18 => if v % 2 ^ 11 ≤ 2043 then s.updChan n fun c => { c with vec := some (v % 2 ^ 11) } else s
  | 0x20 => s.updChan n fun c => { c with period := half c.period false v }
  | 0x24 => s.updChan n fun c => { c with period := half c.period true v }
  | 0x28 => s.updChan n fun c => { c with firstDt := half c.firstDt false v }
  | 0x2C => s.updChan n fun c => { c with firstDt := half c.firstDt true v }
  | _ => s

/-- A word of the MSI-X table written (R455, R457). -/
def writeMsix (v word x : Nat) (s : State) : State :=
  let e := Table.get {} s.host.msix v
  let put := fun (e : MsixEntry) => { s with host := { s.host with msix := Table.set {} s.host.msix v e } }
  match word with
  | 0 => put { e with addr := half e.addr false x }
  | 1 => put { e with addr := half e.addr true x }
  | 2 => put { e with data := x }
  | _ => if x % 2 = 1 then put { e with masked := true } else unmask v s

/-- BAR0_REGISTER_WRITE: a host write into the control window; reserved space ignores it (R455). -/
def execBar0RegisterWrite (off : Nat) (v : BitVec 32) (s : State) : Result :=
  let x := v.toNat
  .next <| if off % 4 ≠ 0 then s
    else if off < 0x10000 then
      match off with
      | 0x08 => s.updCq fun q => { q with base := half q.base false x / 4096 * 4096 }
      | 0x0C => s.updCq fun q => { q with base := half q.base true x / 4096 * 4096 }
      | 0x10 => writeCqCtl x s
      | 0x14 => writeCqHead x s
      | _ => s
    else if off < 0x20000 then writeChanReg ((off - 0x10000) / 256) ((off - 0x10000) % 256) x s
    else if off < 0x28000 then writeMsix ((off - 0x20000) / 16) ((off - 0x20000) % 16 / 4) x s
    else if off < 0x100000 then s
    else if off < 0x200000 then
      if (off - 0x100000) % 4096 = 0 && (s.chan ((off - 0x100000) / 4096)).startSrc = 0 then startEvent ((off - 0x100000) / 4096) s else s
    else if off = 0x200000 then
      if x % 2 = 1 then s.updMbx fun m => { m with en := true } else (emptyMailbox s).updMbx fun m => { m with en := false }
    else if off = 0x200014 then writeTxTail x s
    else if off = 0x200018 then writeRxHead x s
    else if 0x210000 ≤ off && off < 0x610000 then
      s.updMbx fun m => { m with txRing := m.txRing.writeN (off - 0x210000) (leBytes 4 x) }
    else s

/-! ### The link (R448 to R454) -/

/-- HostLinkRating of a link (R450), MB/s. -/
def linkRating (gen width : Nat) : Nat :=
  let x16 := match gen with
    | 5 => 52000
    | 4 => 26000
    | 3 => 13000
    | 2 => 6500
    | 1 => 3250
    | _ => 0
  x16 * width / 16

/-- A width and generation the endpoint trains at (R448). -/
def linkOk (gen width : Nat) : Bool := decide (1 ≤ gen ∧ gen ≤ 5) && (width == 4 || width == 8 || width == 16)

/-- HostLinkState of a link that is UP (R501). -/
def linkWord (gen width mps : Nat) : Nat :=
  pack [(28, 4, 2), (24, 4, gen), (16, 8, width), (12, 4, if mps = 512 then 2 else if mps = 256 then 1 else 0)]

/-- Every channel disabled, as by a write of 0 to EN (R453, R487). -/
def disableAll (s : State) : State := (List.range 256).foldl (fun s n => disableChan n s) s

/-- The link goes down (R453): channels disabled, LINK_DOWN in their status, HOST_LINK_DOWN. -/
def linkDown (s : State) : State :=
  let s := (List.range 256).foldl (fun s n =>
    if (s.chan n).state == .off then s else disableChan n (s.updChan n fun c => { c with error := 13 })) s
  let s := (s.setReg Obj.hostLinkState 0).setReg Obj.hostLinkRating 0
  s.raiseFault .hostLinkDown [] Kind.hostLinkDown 2 0 1 (islandOf 6 0)

/-- HOST_LINK_DOWN: the link leaves L0 for Detect or Disabled (R453). -/
def execHostLinkDown (s : State) : Result := .next (linkDown s)

/-- HOST_LINK_DEGRADED: the link retrains to a lower rating (R454), told while a class 0 stream runs. -/
def execHostLinkDegraded (gen width : Nat) (s : State) : Result :=
  .next <| if !linkOk gen width || s.nat Obj.hostLinkRating ≤ linkRating gen width then s
    else
      let s := (s.setReg Obj.hostLinkState (linkWord gen width s.host.mps)).setReg Obj.hostLinkRating (linkRating gen width)
      if (List.range 64).any fun st => s.streamOpen? st && s.nat (Obj.streamClass st) == 0 then
        (s.count Obj.linkRetrains).raiseFault .hostLinkDegraded [gen, width] Kind.hostLinkDegraded 2 0 1 (islandOf 6 0)
      else s

/-- HOST_LINK_UP: link training completes at a supported width and rate; at x2 or x1 it does not, and HOST_LINK_DOWN is raised
(R448, R450). -/
def execHostLinkUp (gen width : Nat) (sizes : LinkSizes) (s : State) : Result :=
  .next <| if s.host.perst || s.mode == .off || s.mode == .sentinel then s
    else if !linkOk gen width then s.raiseFault .hostLinkDown [] Kind.hostLinkDown 2 0 1 (islandOf 6 0)
    else
      let mps := if sizes.mps = 512 then 512 else if sizes.mps = 256 then 256 else 128
      let s := { s with host := { s.host with mps := mps, mrrs := min 4096 (max 128 sizes.mrrs) } }
      (s.setReg Obj.hostLinkState (linkWord gen width mps)).setReg Obj.hostLinkRating (linkRating gen width)

/-! ### The schedule of the link (R54, R484, R485) -/

/-- Traffic class of a transaction. -/
def Tx.cls : Tx → Nat
  | .send k _ => k
  | .lineEnd k _ _ => k
/-- Link bytes of a transaction: the data it carries or asks for (DESIGN CHOICE, log entry 91). -/
def Tx.bytes : Tx → Nat
  | .send _ (.hostWrite _ b) => b.length
  | .send _ (.hostRead _ n) => n
  | .send _ (.hostCompletion _ b) => b.length
  | .send _ (.msix _) => 4
  | _ => 0

/-- Channels with ready work of a class. -/
def State.ready (s : State) (k : Nat) : List Nat :=
  (s.host.chans.map Prod.fst ++ [mgmtChan, bar4Chan]).filter fun n => ((s.txOf n).head?.map Tx.cls) == some k

/-- The channel whose turn it is within a class: the next after the one served last. -/
def nextTurn (last : Nat) (l : List Nat) : Option Nat := (l.find? fun n => decide (last ≤ n)).or l.head?

/-- The weight of a class 1 to 3 (R484, R501). -/
def State.weight (s : State) (k : Nat) : Nat := field (s.nat Obj.deliveryWeights) (24 - 8 * k) 8
/-- The link time at which a class's next transaction starts: its own share, not behind the link (DESIGN CHOICE, log entry 91). -/
def State.linkStart (s : State) (k : Nat) : Nat := max (Table.get 0 s.host.shares k) s.host.linkTime

/-- The class served next: class 0 first; among the others the one whose share is furthest behind (R54, R484). -/
def State.pickClass (s : State) : Option Nat :=
  if !(s.ready 0).isEmpty then some 0
  else ([1, 2, 3].filter fun k => !(s.ready k).isEmpty).foldl (fun b k => match b with
    | none => some k
    | some j => if s.linkStart k < s.linkStart j then some k else some j) none

/-- Class 0 work pre-empts the channel of another class that was moving data and still has some (R485). -/
def preempt (s : State) : State :=
  match s.host.serving with
  | none => s
  | some m =>
    let s := if (s.txOf m).isEmpty then s else s.updChan m fun c => { c with preempt := (c.preempt + 1) % 2 ^ 32 }
    { s with host := { s.host with serving := none } }

/-- A transaction is issued on the link. -/
def issueTx (t : Tx) (s : State) : State :=
  match t with
  | .send _ o => s.emit o
  | .lineEnd _ st line => lineDone st line s

/-- The ends of lines whose last write has just been issued; the fuel is the number of transactions. -/
def passEnds (n : Nat) : Nat → State → State
  | 0, s => s
  | k + 1, s => match s.txOf n with
    | .lineEnd _ st line :: t => passEnds n k (lineDone st line (s.setTx n t))
    | _ => s

/-- The first transaction of a channel is issued for its class: the link is busy for its bytes at HostLinkRating, and the class's share
moves by them over its weight. -/
def serveChan (k n : Nat) (t : Tx) (rest : List Tx) (s : State) : State :=
  let start := s.linkStart k
  let rate := s.nat Obj.hostLinkRating
  let s := if k = 0 then preempt s else { s with host := { s.host with serving := if n < 256 then some n else none } }
  let s := s.setTx n rest
  let s := { s with host := { s.host with linkFree := s.now + (4000 * t.bytes + rate - 1) / rate, turns := Table.set 0 s.host.turns k (n + 1) } }
  let s := if k = 0 then s
    else { s with host := { s.host with linkTime := start, shares := Table.set 0 s.host.shares k (start + t.bytes * 65536 / s.weight k) } }
  passEnds n rest.length (issueTx t s)

/-- The link is UP and free: the next transaction goes out (R484). A write being transmitted completes first (R485). -/
def deltaIssue (s : State) : State :=
  if s.nat Obj.hostLinkRating = 0 || s.now < s.host.linkFree then s
  else match s.pickClass with
    | none => s
    | some k => match nextTurn (Table.get 0 s.host.turns k) (s.ready k) with
      | none => s
      | some n => match s.txOf n with
        | [] => s
        | t :: rest => serveChan k n t rest s

/-- An entry to Configure takes the rings away: fetches in progress find every further line missing (R413). -/
def fetchesGone (s : State) : State :=
  let s := dropLineEnds (fun _ => true) s
  { s with host := { s.host with chans := s.host.chans.map fun (p : Nat × DltChan) =>
                                 (p.1, { p.2 with fetch := p.2.fetch.map fun j => { j with gone := true } }) } }

end Sys2Proof.Machine
end

