-- ==== Sys2Proof/Machine/FrontEnd.lean ====
section
/-! DEFINITION. The auxiliary sensor front end (R502 to R537): converters and triggers, averaging and autoranging, filters and the
detector, thresholds, result records and rings, path tests; and the instants that trigger them (R318, R513). -/
namespace Sys2Proof.Machine

def State.conv (s : State) (j : Nat) : Converter := Table.get {} s.fe.convs j
def State.setConv (s : State) (j : Nat) (x : Converter) : State := { s with fe := { s.fe with convs := Table.set {} s.fe.convs j x } }
def State.updConv (s : State) (j : Nat) (f : Converter → Converter) : State := s.setConv j (f (s.conv j))
def State.feChan (s : State) (k : Nat) : FeChan := Table.get {} s.fe.chans k
def State.setFeChan (s : State) (k : Nat) (x : FeChan) : State := { s with fe := { s.fe with chans := Table.set {} s.fe.chans k x } }
def State.updFeChan (s : State) (k : Nat) (f : FeChan → FeChan) : State := s.setFeChan k (f (s.feChan k))
def State.feIsland (s : State) (i : Nat) : FeIsland := Table.get {} s.fe.islands i
def State.updFeIsland (s : State) (i : Nat) (f : FeIsland → FeIsland) : State :=
  { s with fe := { s.fe with islands := Table.set {} s.fe.islands i (f (s.feIsland i)) } }

/-! ### Sine, cosine, arc tangent and roots (R526) -/

/-- π in 10^-30 rad. -/
def piAtto : Int := 3141592653589793238462643383280

/-- Taylor terms of sine, in 10^-30: the term in hand, its index, x² in 10^-30. -/
def sineTerms : Nat → Int → Int → Int → Int
  | 0, _, _, _ => 0
  | n + 1, term, x2, i =>
    term + sineTerms n (-(term * x2 / 10 ^ 30) / ((2 * i) * (2 * i + 1))) x2 (i + 1)

/-- Sine of an angle in 10^-30 rad, in 10^-30. -/
def sineOf (a : Int) : Int :=
  let x := a % (2 * piAtto)
  -- folded to the quadrant around 0
  let y := if x ≤ piAtto / 2 then x else if x ≤ 3 * piAtto / 2 then piAtto - x else x - 2 * piAtto
  sineTerms 20 y (y * y / 10 ^ 30) 1

/-- 131,072 × sine, rounded (the listing before R526); at its top an open value. -/
def sine17 (a : Int) : Int :=
  let v := (2 * 131072 * sineOf a + 10 ^ 30) / (2 * 10 ^ 30)
  if 131071 < v then Config.sineTop else v

/-- The phase of a generator at an instant in 1/4 ns (R506), in 10^-30 rad. -/
def genPhase (ftw q : Nat) : Int :=
  let m : Nat := 10 * 2 ^ 32
  2 * piAtto * ((ftw * q % m : Nat) : Int) / (m : Nat)

/-- A product brought down by 16 bits, rounded half up. -/
def down16 (v : Int) : Int := (v + 32768) / 65536

/-- A square root rounded to the nearest whole number. -/
def roundSqrt (v : Nat) : Nat := (isqrt (4 * v) + 1) / 2

/-- 10^6 × atan2(Q, I), rounded: µrad. -/
def phaseMicro (i q : Int) : Int :=
  if i = 0 && q = 0 then 0
  else
    let a := i.natAbs
    let b := q.natAbs
    let t : Int := if b ≤ a then atanSmall b a else (halfPi : Int) - atanSmall a b
    let u : Int := if i < 0 then 2 * (halfPi : Int) - t else t
    let m := (2 * u + 10 ^ 18) / (2 * 10 ^ 18)
    if q < 0 then -m else m

/-! ### Items and rings (R532 to R535) -/

/-- An item put into an island's queue, or dropped when 64 wait (R534). -/
def feItem (i : Nat) (item : List Nat) (s : State) : State :=
  let x := s.feIsland i
  if x.queue.length < 64 then s.updFeIsland i fun x => { x with queue := x.queue ++ [item] }
  else
    let s := (s.count (Obj.feDropped i)).updFeIsland i fun x => { x with gap := true }
    if s.spaced x.told (ms 1) then (s.updFeIsland i fun x => { x with told := some s.now }).raise .feQueueDrop [i] else s

/-- Slots of an island's ring (R533). -/
def State.feSlots (s : State) (i : Nat) : Nat := (s.nat (Obj.feRingBytes i) - 64) / 16
/-- HEAD as it stands in descriptor memory. -/
def State.feHead (s : State) (i : Nat) : Nat := leNat (s.host.mem.readN (s.nat (Obj.feRingBase i) + 4) 4)
/-- Bytes written to descriptor memory. -/
def State.writeMem (s : State) (a : Nat) (b : Bytes) : State := { s with host := { s.host with mem := s.host.mem.writeN a b } }

/-- FE_ITEM_WRITE: the oldest item of an island goes into its ring once the ring has room for all of it, and TAIL passes it in
one write (R533, R534). -/
def execFeItemWrite (i : Fin 2) (s : State) : Result :=
  let x := s.feIsland i
  .next <| match x.queue with
    | [] => s
    | item :: rest =>
      let base := s.nat (Obj.feRingBase i)
      let n := s.feSlots i
      if base = maxU 32 || n = 0 then s
      else
        let room := (s.feHead i % n + n - x.tail % n - 1) % n
        if room < item.length then s
        else
          let item := match item with
            | r :: t => (if x.gap then r + 2 ^ 17 else r) :: t
            | [] => []
          let s := item.zipIdx.foldl (fun s p => s.writeMem (base + 64 + 16 * ((x.tail + p.2) % n)) (leBytes 16 p.1)) s
          let tail := (x.tail + item.length) % n
          (s.writeMem base (leBytes 4 tail)).updFeIsland i fun x => { x with queue := rest, tail := tail, gap := false }

/-- FE_QUEUE_FLUSH: queued items are discarded, TAIL takes the HEAD it reads, and the next record carries GAP (R535). -/
def execFeQueueFlush (i : Fin 2) (s : State) : Result :=
  .next <| if !(s.feIsland i).powered then s
    else
      let base := s.nat (Obj.feRingBase i)
      if base = maxU 32 then s.updFeIsland i fun x => { x with queue := [], gap := true }
      else
        let head := s.feHead i % max (s.feSlots i) 1
        (s.writeMem base (leBytes 4 head)).updFeIsland i fun x => { x with queue := [], gap := true, tail := head }

/-! ### Codes, autoranging, averaging (R511, R519 to R522) -/

/-- Gain code of a channel in effect (R511, R520). -/
def State.feGain (s : State) (k : Nat) : Nat :=
  let a := s.nat (Obj.autoRange k)
  let g := s.nat (Obj.chGain k)
  if bitAt a 15 && !s.multiplexed (s.nat (Obj.chConverter k)) then min (max ((s.feChan k).gain.getD g) (field a 11 4)) (field a 7 4) else g

/-- A state register multiplied by G_new ÷ G_old (R521). -/
def rescale (up : Bool) (v : Int) : Int := if up then 2 * v else (v + 1) / 2
/-- A filter's registers rescaled. -/
def Cic.rescale (up : Bool) (c : Cic) : Cic := { ints := c.ints.map (Machine.rescale up), combs := c.combs.map (Machine.rescale up) }

/-- A range switch to gain code `g` (R520, R521): the filters follow; the averaging sum is the caller's. -/
def switchRange (k g : Nat) (up : Bool) (s : State) : State :=
  s.updFeChan k fun x => { x with gain := some g, lowRun := 0, newGain := true, clamped := none, main := x.main.rescale up, quad := x.quad.rescale up }

/-- Autoranging holds at a bound (R522); direction 0 down, 1 up. -/
def holdRange (k dir : Nat) (s : State) : State :=
  if (s.feChan k).clamped == some dir then s else (s.updFeChan k fun x => { x with clamped := some dir }).raise .policyClamp [k, dir]

/-- One code taken: the averaging sum and the range (R519 to R522). -/
def feCode (k : Nat) (code : Int) (t : Int × Bool × State) : Int × Bool × State :=
  let c := clampInt (-131072) 131071 code
  let clip := t.2.1 || c == -131072 || c == 131071
  let s := t.2.2
  let s := if (s.feChan k).newGain then s.updFeChan k fun x => { x with newGain := false, step := true } else s
  let sum := t.1 + c
  let a := s.nat (Obj.autoRange k)
  if !bitAt a 15 || s.multiplexed (s.nat (Obj.chConverter k)) then (sum, clip, s)
  else
    let g := s.feGain k
    if 114688 ≤ c.natAbs then
      if field a 11 4 < g then (rescale false sum, clip, switchRange k (g - 1) false s)
      else (sum, clip, holdRange k 0 (s.updFeChan k fun x => { x with lowRun := 0 }))
    else if c.natAbs < 24576 then
      let n := (s.feChan k).lowRun + 1
      if n < s.nat (Obj.autoRangeHold k) then (sum, clip, s.updFeChan k fun x => { x with lowRun := n, clamped := none })
      else if g < field a 7 4 then (rescale true sum, clip, switchRange k (g + 1) true s)
      else (sum, clip, holdRange k 1 (s.updFeChan k fun x => { x with lowRun := n }))
    else (sum, clip, s.updFeChan k fun x => { x with lowRun := 0, clamped := none })

/-! ### Filters (R523) -/

/-- A sample into K integrators. -/
def cicIn : Nat → List Int → Int → List Int
  | 0, _, _ => []
  | n + 1, l, a => let v := l.headD 0 + a; v :: cicIn n l.tail v

/-- The combs at an output: the value and the new delays. -/
def cicOut : Nat → List Int → Int → Int × List Int
  | 0, _, v => (v, [])
  | n + 1, l, v => let r := cicOut n l.tail (v - l.headD 0); (r.1, v :: r.2)

/-- log2 of D. -/
def presetLog (v : Nat) : Nat := 2 * (min v 3 + 1)

/-- One sample into a filter; at an output, its normalised value. -/
def Cic.push (c : Cic) (preset : Nat) (isOut : Bool) (a : Int) : Option Int × Cic :=
  let k := (presetOf preset).1
  let ints := cicIn k c.ints a
  if !isOut then (none, { c with ints := ints })
  else
    let r := cicOut k c.combs (ints.getLastD 0)
    let m := k * presetLog preset
    (some ((r.1 + 2 ^ (m - 1)) / 2 ^ m), { ints := ints, combs := r.2 })

/-- A value that does not fit 32 bits is one the spec does not state (log entry 6). -/
def fit32 (v : Int) (s : State) : Int × State :=
  if -2147483648 ≤ v && v ≤ 2147483647 then (v, s)
  else let f := s.free (2 ^ 32); (signed 32 f.1, f.2)

/-! ### Thresholds (R528 to R531) -/

/-- A threshold unit on an output (R529): whether it is armed next, and whether it fires. -/
def thresholdStep (unit : Nat) (armed : Bool) (v : Int) : Bool × Bool :=
  let level := signed 32 (field unit 0 32)
  let hyst : Int := field unit 32 28
  let falling := bitAt unit 62
  if armed then
    let fires := if falling then decide (v ≤ level) else decide (level ≤ v)
    (!fires, fires)
  else (if falling then decide (level + hyst < v) else decide (v < level - hyst), false)

/-- The facts of an output that its records share. -/
structure FeOut where
  chan : Nat
  dt : Nat
  /-- SETTLING to TEST, in bits 23 to 18. -/
  flags : Nat
  settling : Bool
  seq : Nat
  deriving DecidableEq, Repr

/-- A result record (R532) without GAP. -/
def FeOut.record (o : FeOut) (kind unit : Nat) (v : Int) : Nat :=
  pack [(64, 64, o.dt), (32, 32, toBits 32 v), (26, 6, o.chan), (24, 2, kind), (16, 1, unit), (0, 16, o.seq)] + o.flags

/-- One threshold unit evaluated; `vals` are the output's values by SOURCE (R528 to R531). -/
def threshold (o : FeOut) (e : Nat) (vals : List (Nat × Int)) (s : State) : State :=
  let k := o.chan
  let unit := s.nat (Obj.chThreshold k e)
  if !bitAt unit 63 || o.settling then s
  else match vals.lookup (field unit 60 2) with
    | none => s
    | some v =>
      let x := s.feChan k
      let r := thresholdStep unit (if e = 0 then x.armed0 else x.armed1) v
      let s := s.updFeChan k fun x => if e = 0 then { x with armed0 := r.1 } else { x with armed1 := r.1 }
      if !r.2 then s
      else
        let s := feItem (s.nat (Obj.chConverter k) / 8) [o.record 3 e v] s
        (s.count (Obj.thrEvents k)).raise .feThreshold [k, e, v, o.dt]

/-! ### Samples and outputs -/

/-- The demodulator's two products of a sample: with the sine, which gives I, and with the cosine, which gives Q (R526). -/
def demodulate (s : State) (k g : Nat) (a : Int) (q : Nat) : Int × Int :=
  let gen : FeGen := Table.get {} s.fe.gens g
  let phi := genPhase gen.ftw q + s.reg (Obj.detPhase k) * 10 ^ 24
  (down16 (a * sine17 phi), down16 (a * sine17 (phi + piAtto / 2)))

/-- The sample `p` contributes to the output at sample `n` (R523: K filters of D samples). -/
def contributes (preset n : Nat) (p : Option Nat) : Bool :=
  match p with
  | none => false
  | some p => decide (n ≤ p + (presetOf preset).1 * ((presetOf preset).2 - 1))

/-- The value or, of a detector, magnitude and phase of one output: written as records, kept as the latest, given to the warm-up and
to the thresholds (R519, R521, R526). -/
def feOutput (k : Nat) (o : FeOut) (y i qd : Int) (s : State) : State :=
  let isl := s.nat (Obj.chConverter k) / 8
  let warm := fun w => field w 30 2 == 1 && field w 0 16 == k
  if s.nat (Obj.detGenerator k) = 255 then
    let v := fit32 y s
    let s := (feItem isl [o.record 0 0 v.1] v.2).setReg (Obj.lastValue k) v.1
    let s := warmSample warm v.1 s
    threshold o 1 [(0, v.1)] (threshold o 0 [(0, v.1)] s)
  else
    let m := fit32 (roundSqrt (i.natAbs * i.natAbs + qd.natAbs * qd.natAbs)) s
    let ph := phaseMicro i qd
    let s := (feItem isl [o.record 1 0 m.1, o.record 2 0 ph] m.2).setReg (Obj.lastValue k) m.1
    let s := s.setReg (Obj.lastPhase k) ph
    let s := warmSample warm m.1 s
    threshold o 1 [(1, m.1), (2, ph)] (threshold o 0 [(1, m.1), (2, ph)] s)

/-- A filter input sample of a channel, with the sample instant of its last code (R519, R524, R527, R531). -/
def feSample (k : Nat) (a : Int) (q : Nat) (clip late : Bool) (s : State) : State :=
  let x := s.feChan k
  if x.discard then s.setFeChan k { x with discard := false }
  else
    let preset := s.nat (Obj.preset k)
    let n := x.count + 1
    let isOut := n % (presetOf preset).2 == 0
    let g := s.nat (Obj.detGenerator k)
    let p := if g = 255 then (a, 0) else demodulate s k g a q
    let r1 := x.main.push preset isOut p.1
    let r2 := x.quad.push preset isOut p.2
    let r0 := x.main.push preset isOut a
    let x := { x with count := n, clipAt := if clip then some n else x.clipAt, lateAt := if late then some n else x.lateAt }
    let x := if g = 255 then { x with main := r0.2 } else { x with main := r1.2, quad := r2.2 }
    if !isOut then s.setFeChan k x
    else
      let scale : Int := 2 ^ (8 - s.feGain k)
      let settling := decide (0 < x.settle)
      let seq := (x.seq + 1) % 65536
      let o : FeOut :=
        { chan := k, dt := q / 4, settling := settling, seq := seq,
          flags := pack [(23, 1, b2n settling), (22, 1, b2n x.step), (21, 1, b2n (contributes preset n x.clipAt)),
            (20, 1, b2n (contributes preset n x.clampAt)), (19, 1, b2n (contributes preset n x.lateAt)),
            (18, 1, b2n ((s.conv (s.nat (Obj.chConverter k))).test.any fun t => t.1 == k))] }
      feOutput k o ((r0.1.getD 0) * scale) ((r1.1.getD 0) * scale) ((r2.1.getD 0) * scale)
        (s.setFeChan k { x with seq := seq, settle := x.settle - 1, step := false })

/-- The codes of one channel in a run averaged into a sample (R519). -/
def feChannelRun (k : Nat) (codes : List Int) (q : Nat) (late : Bool) (s : State) : State :=
  if !s.flag (Obj.chEnable k) then s
  else
    let t := codes.foldl (fun t c => feCode k c t) ((0 : Int), false, s)
    let sh := s.nat (Obj.avgShift k)
    let a := if sh = 0 then t.1 else (t.1 + 2 ^ (sh - 1)) / 2 ^ sh
    feSample k a q t.2.1 late t.2.2

/-! ### Runs and triggers (R510 to R517) -/

/-- Conversion period of a converter in 1/4 ns. -/
def State.convPeriod (s : State) (j : Nat) : Nat := if s.nat (Obj.convMode j) = 2 then 1000 else 2000
/-- Conversions of one run. -/
def State.runLength (s : State) (j : Nat) : Nat := sumNat ((s.sequence j).map fun k => s.nat (Obj.avgCount k))
/-- Sample instant of the i-th conversion of a run. -/
def FeRun.instant (r : FeRun) (per i : Nat) : Nat :=
  r.at_ + i * per + sumNat ((r.shifts.filter fun p => decide (p.1 ≤ i)).map Prod.snd)
/-- A timer or line trigger starts a conversion of a converter within 4 µs (R510, R513). -/
def State.convSoon (s : State) (j : Nat) : Bool :=
  let delay := ns (s.nat (Obj.trigDelay j))
  let limit := s.now + us 4
  [s.nat (Obj.trigSource j), s.nat (Obj.injTrigSource j)].any fun v => match field v 28 4 with
    | 1 => let p := max (s.nat (Obj.trigPeriod j)) 1
           decide ((s.now / p + 1) * p + delay ≤ limit)
    | 4 => s.records.any fun r => r.stream == field v 16 12 && !r.fired && decide (r.sched + delay ≤ limit)
    | _ => false

/-- Start-up time of an idle converter, 1/4 ns: with LowPower at 1 it is powered down unless a conversion is due within 4 µs (R510). -/
def State.startUp (s : State) (j : Nat) : Nat := if s.flag (Obj.lowPower j) && !s.convSoon j then 6000 else 0

/-- Conversion time (R510), 1/4 ns. -/
def convTime : Nat := 1500

/-- The regular run is set aside at an instant (R517, R518): the conversion in progress starts again later. -/
def pauseRun (j : Nat) (mark : Bool) (s : State) : State :=
  match (s.conv j).run with
  | none => s
  | some r =>
    if r.paused.isSome then s
    else match (List.range (s.runLength j)).find? fun i => decide (s.now < r.instant (s.convPeriod j) i + convTime) with
      | none => s
      | some i => s.updConv j fun x =>
          { x with run := some { r with paused := some i, restarted := if mark then i :: r.restarted else r.restarted } }

/-- The regular run goes on from an instant: the conversion set aside starts its acquisition again. -/
def resumeRun (j from_ : Nat) (s : State) : State :=
  s.updConv j fun x =>
    { x with state := .converting,
             run := x.run.map fun r => match r.paused with
               | none => r
               | some i => { r with paused := none, shifts := (i, from_ + 500 - r.instant (s.convPeriod j) i) :: r.shifts } }

/-- A run starts. -/
def startRun (j at_ : Nat) (late : Bool) (s : State) : State :=
  s.updConv j fun x => { x with state := .converting, run := some { at_ := at_, late := late }, held := false }

/-- An injected conversion starts at an instant (R517). -/
def startInj (j k from_ : Nat) (waited : Bool) (s : State) : State :=
  let idle := (s.conv j).state == .idle
  let acq := 1500 + (if idle then s.startUp j else 0)
  let delay := ns (s.nat (Obj.trigDelay j))
  let kind := field (s.nat (Obj.injTrigSource j)) 28 4
  let early := (kind = 2 || kind = 3 || kind = 5) && delay < acq
  let at_ := if (kind = 1 || kind = 4) && !waited then from_ + delay else from_ + max delay acq
  let s := pauseRun j true s
  s.updConv j fun x => { x with state := .converting, inj := some { chan := k, at_ := at_, late := waited || early } }

/-- A calibration starts (R518). -/
def startCal (j : Nat) (s : State) : State :=
  (pauseRun j false s).updConv j fun x => { x with state := .calibrating, calDue := false, calAt := s.now }

/-- The converter is free from an instant on: pending injected conversions in ascending channel number, then a requested
calibration, then the regular run, then a held trigger (R516 to R518). -/
def convFree (j from_ : Nat) (s : State) : State :=
  let x := s.conv j
  match x.injWait with
  | k :: rest => startInj j k from_ true (s.updConv j fun x => { x with injWait := rest, state := .idle })
  | [] =>
    if x.calDue then startCal j s
    else if x.run.isSome then resumeRun j from_ s
    else if x.held then startRun j (from_ + 500) true s
    else s.updConv j fun x => { x with state := .idle }

/-- A trigger that finds one held is counted (R516). -/
def missedTrigger (j : Nat) (s : State) : State :=
  let s := s.count (Obj.missedTriggers j)
  if s.spaced (s.conv j).told (ms 1) then (s.updConv j fun x => { x with told := some s.now }).raise .feTriggerMissed [j] else s

/-- A regular trigger of a converter, at its trigger instant (R513, R514, R516); `fixed` for kinds 1 and 4. -/
def feTrigger (j at_ : Nat) (fixed : Bool) (s : State) : State :=
  let x := s.conv j
  let mode := s.nat (Obj.convMode j)
  if (mode ≠ 1 && mode ≠ 2) || s.runLength j = 0 then s
  else match x.state with
    | .off | .failed => s
    | .idle =>
      let delay := ns (s.nat (Obj.trigDelay j))
      let need := 500 + s.startUp j
      if fixed || need ≤ delay then startRun j (at_ + delay) false s else startRun j (at_ + need) true s
    | _ => if x.held then missedTrigger j s else s.updConv j fun x => { x with held := true }

/-- A threshold unit written: it is enabled disarmed, and disabled it is not armed (R529). -/
def writeThreshold (k e v : Nat) (s : State) : State :=
  let stays := bitAt (s.nat (Obj.chThreshold k e)) 63 && bitAt v 63
  (s.setReg (Obj.chThreshold k e) v).updFeChan k fun x =>
    if e = 0 then { x with armed0 := x.armed0 && stays } else { x with armed1 := x.armed1 && stays }

/-- KIND and SOURCE of a trigger source (R513). -/
def trigKind (v : Nat) : Nat := field v 28 4
def trigSrc (v : Nat) : Nat := field v 16 12

/-- Converters triggered by a kind and a source. -/
def State.convsOn (s : State) (kind src : Nat) : List Nat :=
  (List.range 16).filter fun j => trigKind (s.nat (Obj.trigSource j)) == kind && trigSrc (s.nat (Obj.trigSource j)) == src

/-- FE_TIMER_TRIGGER: DT reaches a multiple of TrigPeriod (R513). -/
def execFeTimerTrigger (j : Fin 16) (s : State) : Result :=
  let p := max (s.nat (Obj.trigPeriod j)) 1
  let t := s.now / p * p
  .next <| if trigKind (s.nat (Obj.trigSource j)) ≠ 1 || t ≤ (s.conv j).lastTick then s
    else feTrigger j t true (s.updConv j fun x => { x with lastTick := t })

/-- FE_PULSE_TRIGGER: TrigWidth after an EVENT_IN edge the pin is still asserted (R513). -/
def execFePulseTrigger (j : Fin 16) (s : State) : Result :=
  let src := s.nat (Obj.trigSource j)
  .next <| match (s.conv j).pulse with
    | none => s
    | some stamp =>
      let t := ns (stamp + s.nat (Obj.trigWidth j))
      if trigKind src ≠ 3 || s.now < t then s
      else
        let s := s.updConv j fun x => { x with pulse := none }
        if (s.tio (trigSrc src)).level then feTrigger j t false s else s

/-- CONV_START: a ConvStart write of 1 is a software trigger (R513). -/
def execConvStart (j : Fin 16) (s : State) : Result :=
  .next <| if trigKind (s.nat (Obj.trigSource j)) = 5 then feTrigger j s.now false s else s

/-- TIO_EDGE: an asserting edge of an EVENT_IN pin is stamped and raised; converters that it triggers start, or wait for its
width (R318, R513). -/
def execTioEdge (t : Fin 96) (s : State) : Result :=
  .next <| if s.tioFn t ≠ 4 then s
    else
      let at_ := s.tioStamp t
      let s := (stampTio t true s).raise .tioEdge [t, at_]
      let s := (s.convsOn 2 t).foldl (fun s j => feTrigger j (ns at_) false s) s
      (s.convsOn 3 t).foldl (fun s j => s.updConv j fun x => { x with pulse := some at_ }) s

/-- LINE_TRIGGER_INSTANT: a line's scheduled instant comes: TRIGGER_OUT pins pulse and converters of kind 4 run (R318, R513). -/
def execLineTriggerInstant (st : Fin 64) (line : Nat) (s : State) : Result :=
  .next <| match s.recOf st line with
    | none => s
    | some r =>
      if r.fired || s.now < r.sched then s
      else
        let s := triggerOut st r.sched (gapRecheck r (updRec st line (fun r => { r with fired := true }) s))
        (s.convsOn 4 st).foldl (fun s j => feTrigger j r.sched true s) s

/-- INJECTED_TRIGGER: an injected channel's trigger aborts the regular conversion in progress (R517), or waits for the
converter (R516). -/
def execInjectedTrigger (k : Fin 64) (s : State) : Result :=
  let j := s.nat (Obj.chConverter k)
  let x := s.conv j
  .next <| if !s.flag (Obj.chInjected k) || !s.flag (Obj.chEnable k) || trigKind (s.nat (Obj.injTrigSource j)) = 0 then s
    else match x.state with
      | .off | .failed => s
      | _ =>
        if x.inj.isNone && (x.state == .idle || x.state == .converting) then startInj j k s.now false s
        else if x.injWait.contains k.val then missedTrigger j s
        else s.updConv j fun x => { x with injWait := insertSorted k x.injWait }

/-- The channels of a completed run, in the sequence's order: `i` conversions lie before them. -/
def feRunChannels (j : Nat) (r : FeRun) : List Nat → List (List Int) → Nat → State → State
  | [], _, _, s => s
  | k :: ks, codes, i, s =>
    let n := s.nat (Obj.avgCount k)
    let late := r.late || r.restarted.any fun p => decide (i ≤ p ∧ p < i + n)
    let q := r.instant (s.convPeriod j) (i + n - 1)
    feRunChannels j r ks codes.tail (i + n) (feChannelRun k (((codes.headD []) ++ List.replicate n 0).take n) q late s)

/-- RUN_COMPLETE: an injected conversion, or else the regular run, has its codes: they are averaged, filtered and written as
records (R517, R519). -/
def execRunComplete (j : Fin 16) (codes : List (List Int)) (s : State) : Result :=
  let x := s.conv j
  .next <| if x.state != .converting then s
    else match x.inj, x.run with
      | some i, _ =>
        if s.now < i.at_ + convTime then s
        else
          let s := feChannelRun i.chan [(codes.headD []).headD 0] i.at_ i.late (s.updConv j fun x => { x with inj := none })
          convFree j (i.at_ + convTime) s
      | none, some r =>
        let last := r.instant (s.convPeriod j) (s.runLength j - 1)
        if r.paused.isSome || s.now < last + convTime then s
        else
          let s := feRunChannels j r (s.sequence j) codes 0 (s.updConv j fun x => { x with run := none })
          convFree j (last + convTime) s
      | none, none => s

/-! ### Calibration (R518) -/

/-- A self-calibration is requested of a converter. -/
def requestCal (j : Nat) (s : State) : State :=
  let x := s.conv j
  match x.state with
  | .off => s
  | .idle | .failed => startCal j s
  | .converting => if x.inj.isNone then startCal j s else s.updConv j fun x => { x with calDue := true }
  | _ => s.updConv j fun x => { x with calDue := true }

/-- FE_CALIBRATE: a FeCalibrate write of 1 (R518). -/
def execFeCalibrate (j : Fin 16) (s : State) : Result := .next (requestCal j s)

/-- FE_CAL_PERIOD: FeCalPeriod has passed since the converter's last calibration (R518). -/
def execFeCalPeriod (j : Fin 16) (s : State) : Result :=
  let p := s.nat Obj.feCalPeriod
  .next <| if p = 0 || s.now < (s.conv j).lastCal + ms (1000 * p) then s else requestCal j s

/-- The state of an island after a calibration: READY once every converter has succeeded (R518). -/
def feReady (i : Nat) (s : State) : State :=
  let js := (List.range 8).map (8 * i + ·)
  if s.nat (Obj.feIslandState i) ≠ 1 && s.nat (Obj.feIslandState i) ≠ 3 then s
  else if js.any fun j => (s.conv j).state == .failed then s.setReg (Obj.feIslandState i) 3
  else if js.all fun j => (s.conv j).ready then s.setReg (Obj.feIslandState i) 2
  else s

/-- FE_CAL_DONE: the 24 µs calibration of a converter completes, or fails (R518). -/
def execFeCalDone (j : Fin 16) (ok : Bool) (s : State) : Result :=
  let x := s.conv j
  .next <| if x.state != .calibrating || s.now < x.calAt + us 24 then s
    else
      let s := s.updConv j fun x => { x with lastCal := s.now }
      if ok then convFree j (x.calAt + us 24) (feReady (j / 8) (s.updConv j fun x => { x with ready := true, state := .idle }))
      else
        let s := s.updConv j fun x => { x with state := .failed, run := none, held := false, injWait := [] }
        feReady (j / 8) (s.raiseFault .feCalFail [j] Kind.feCalFail 3 j 1 (islandOf 9 (j / 8)))

/-- An island powers on, or off (R518): on, its ring starts empty and every converter calibrates. -/
def fePower (i : Nat) (on : Bool) (s : State) : State :=
  let js := (List.range 8).map (8 * i + ·)
  if (s.feIsland i).powered == on then s
  else if on then
    let base := s.nat (Obj.feRingBase i)
    let s := s.updFeIsland i fun x => { x with powered := true, tail := 0 }
    let s := if base = maxU 32 then s else s.writeMem base (List.replicate 64 0)
    let s := js.foldl (fun s j => s.setConv j { state := .calibrating, calAt := s.now, lastCal := s.now, lastTick := s.now }) s
    let s := (List.range 4).foldl (fun s g =>
      let g := 4 * i + g
      if s.flag (Obj.genEnable g) then
        let gen : FeGen := ⟨s.nat (Obj.genFrequency g), s.nat (Obj.genAmplitude g), s.nat (Obj.genOffset g)⟩
        { s with fe := { s.fe with gens := Table.set {} s.fe.gens g gen } }.setReg (Obj.genState g) 1
      else s) s
    s.setReg (Obj.feIslandState i) 1
  else
    let s := s.updFeIsland i fun x => { x with powered := false }
    let s := js.foldl (fun s j => s.setConv j {}) s
    let s := (List.range 4).foldl (fun s g => s.setReg (Obj.genState (4 * i + g)) 0) s
    s.setReg (Obj.feIslandState i) 0

/-! ### Generators (R506 to R509, R525) -/

/-- GEN_ZERO_CROSSING: a written frequency, amplitude or offset takes effect; detector channels settle again (R508, R525). -/
def execGenZeroCrossing (g : Fin 8) (s : State) : Result :=
  let now : FeGen := Table.get {} s.fe.gens g
  let want : FeGen := ⟨s.nat (Obj.genFrequency g), s.nat (Obj.genAmplitude g), s.nat (Obj.genOffset g)⟩
  .next <| if s.nat (Obj.genState g) ≠ 1 || now = want then s
    else
      let s := { s with fe := { s.fe with gens := Table.set {} s.fe.gens g want } }
      let s := s.countWrap (Obj.genChanges g)
      (List.range 64).foldl (fun s k =>
        if s.nat (Obj.detGenerator k) = g.val then s.updFeChan k fun x => { x with settle := (presetOf (s.nat (Obj.preset k))).1 } else s) s

/-- GEN_ENABLE: a GenEnable write starts a generator of a powered island, restarts it after an overcurrent, or stops it (R509). -/
def execGenEnable (g : Fin 8) (v : Bool) (s : State) : Result :=
  .next <|
    let s := s.setReg (Obj.genEnable g) (b2n v)
    if !v then s.setReg (Obj.genState g) 0
    else if !(s.feIsland (g / 4)).powered || s.nat (Obj.genState g) = 1 then s
    else
      let gen : FeGen := ⟨s.nat (Obj.genFrequency g), s.nat (Obj.genAmplitude g), s.nat (Obj.genOffset g)⟩
      { s with fe := { s.fe with gens := Table.set {} s.fe.gens g gen } }.setReg (Obj.genState g) 1

/-- FE_GEN_OVERCURRENT: over 20 mA peak for 10 µs: high impedance, OVERCURRENT (R509). -/
def execFeGenOvercurrent (g : Fin 8) (s : State) : Result :=
  .next <| if s.nat (Obj.genState g) ≠ 1 then s
    else (s.setReg (Obj.genState g) 2).raiseFault .feGenOvercurrent [g] Kind.feGenOvercurrent 2 g 1 (islandOf 9 (g / 4))

/-! ### Clamps (R505) -/

/-- FE_CLAMP: a pin's clamp current exceeds the threshold: its flag, CLAMPED on the results of the channels that use it, and
FE_CLAMP at most once per ms (R505). -/
def execFeClamp (p : Fin 64) (s : State) : Result :=
  .next <| if !(s.feIsland (p / 32)).powered then s
    else
      let f := s.nat Obj.clampFlags
      let s := s.setReg Obj.clampFlags (if bitAt f p then f else f + 2 ^ p.val : Nat)
      let s := (List.range 64).foldl (fun s k =>
        if s.nat (Obj.chPos k) = p.val || s.nat (Obj.chNeg k) = p.val then s.updFeChan k fun x => { x with clampAt := some (x.count + 1) } else s) s
      let t := Table.get 0 s.fe.clampTold p
      if t = 0 || t - 1 + ms 1 ≤ s.now then
        let s := { s with fe := { s.fe with clampTold := Table.set 0 s.fe.clampTold p (s.now + 1) } }
        (s.count Obj.clampEvents).raise .feClamp [p]
      else s

/-! ### Path tests (R536, R537) -/

/-- ChTest is accepted in Idle-Ready, Calibrate and Maintenance, on a converter that is up (R537). -/
def chTestOk (k : Nat) (s : State) : Bool :=
  (s.mode == .idleReady || s.mode == .calibrate || s.mode == .maintenance) &&
    match (s.conv (s.nat (Obj.chConverter k))).state with
    | .idle | .converting => true
    | _ => false

/-- A ChTest write of 1: the converter leaves its sequence for the test (R536). -/
def startTest (k : Nat) (s : State) : State :=
  if !chTestOk k s then s
  else
    let j := s.nat (Obj.chConverter k)
    -- an injected conversion in progress waits again
    let w := match (s.conv j).inj with
      | some i => if (s.conv j).injWait.contains i.chan then (s.conv j).injWait else insertSorted i.chan (s.conv j).injWait
      | none => (s.conv j).injWait
    (pauseRun j false s).updConv j fun x => { x with state := .testing, test := some (k, s.now), inj := none, injWait := w }

/-- CH_TEST (R536). -/
def execChTest (k : Fin 64) (s : State) : Result := .next (startTest k s)

/-- A level to the nearest DAC step, nV (R536). -/
def dacStep (fine : Bool) (v : Nat) : Nat :=
  let step := if fine then 15625 else 1000000
  (2 * v + step) / (2 * step) * step

/-- V1 and V2 of a test at a gain code, nV (R536). -/
def testLevels (code : Nat) : Nat × Nat :=
  let v2 := min (6291456000 / 2 ^ code) 4000000000
  let fine := decide (v2 < 60000000)
  let v2 := dacStep fine v2
  (dacStep fine ((v2 + 1) / 3), v2)

/-- The results of a channel's path test, from the means m1 and m2 in nV input-referred: gain error and offset are stored, and a
channel outside the tolerance is told and reported (R536, R537). -/
def takeTest (k : Nat) (m1 m2 : Int) (s : State) : State :=
  let code := s.feGain k
  let v := testLevels code
  let span : Int := (v.2 : Int) - v.1
  let gainNum := m2 - m1 - span
  let offNum := m1 * span - v.1 * (m2 - m1)
  let tol := s.nat Obj.feTestTolerance
  -- full scale ÷ G in nV
  let scale := 8388608000 / 2 ^ code
  let pass := decide (gainNum.natAbs * 10000 ≤ tol * span.natAbs) && decide (offNum.natAbs * 10000 ≤ tol * scale * span.natAbs)
  let e := fit32 (roundDiv (gainNum * 1000000) span.toNat) s
  let o := fit32 (roundDiv offNum (250 * span.toNat)) e.2
  let s := o.2.setReg (Obj.chTestResult k) (toBits 32 e.1 * 2 ^ 32 + toBits 32 o.1 : Nat)
  let s := s.updFeChan k fun x => { x with testPass := pass }
  if pass then s else s.raiseFault .fePathFail [k] Kind.fePathFail 3 k 1 (islandOf 9 (s.nat (Obj.chConverter k) / 8))

/-- CH_TEST_DONE: the 84 µs path test completes; its results are taken and the converter is free (R536, R537). -/
def execChTestDone (k : Fin 64) (m1 m2 : Int) (s : State) : Result :=
  let j := s.nat (Obj.chConverter k)
  .next <| match (s.conv j).test with
    | none => s
    | some (c, t) =>
      if c ≠ k.val || s.now < t + us 84 then s
      else convFree j (t + us 84) ((takeTest k m1 m2 s).updConv j fun x => { x with test := none, state := .idle })

end Sys2Proof.Machine
end

