-- ==== Sys2Proof/Machine/Queues.lean ====
section
/-! DEFINITION. The commands of the crossing queues (R36 to R46): writing, pointer faults, flushing. -/
namespace Sys2Proof.Machine

/-- QUEUE_WRITE: words of an item arrive. They wait while the queue is full or earlier ones wait (R38, R41), are discarded while it drains
(R43), rewind the item where it is bad (R40), and make it visible with its last word (R39). -/
def execQueueWrite (q : Fin 1024) (cls : Fin 4) (words : Nat) (last bad : Bool) (line : Option (Fin 64 × Nat)) (s : State) : Result :=
  .next (queueTurn q (fun x => { x with waiting := x.waiting ++ [⟨cls, words, last, bad, line.map fun l => (l.1.val, l.2)⟩] }) s)

/-- Raw data of a line still held: by the ingest path, the crossbar or a slice input (R42). -/
def State.rawHeld (s : State) (st line : Nat) : Bool :=
  s.ingest.any (Segment.of st line) || s.crossbar.any (Segment.of st line) ||
    s.slices.any fun (p : Nat × Slice) =>
      (p.2.replay ++ p.2.queue ++ p.2.c0.toList ++ p.2.current.toList ++ p.2.retained.toList).any (Segment.of st line)

/-- A line whose item a pointer fault discarded (R42): recomputed with REPAIRED where its raw data is still held, LOST otherwise, in its
open record or in the tag already written. -/
def lineHit (st line : Nat) (s : State) : State :=
  let held := s.rawHeld st line
  match s.recOf st line with
  | some _ => if held then updRec st line (fun r => { r with repaired := true }) s else loseLine st line s
  | none => markSlot st line (!held) s

/-- QUEUE_POINTER: the duplicated pointers disagree (R42): the queue resets, RESETTING until the next tick, the fault is reported, and every
line whose item was in it, the partial one's too, carries REPAIRED or LOST. DESIGN CHOICE, log entry 88: the report's ISLAND is the
queue's source and its PLANE that island's, and a producer part-way through an item is drained (R43). -/
def execQueuePointer (q : Fin 1024) (s : State) : Result :=
  let x := s.queue q
  let lines := ((x.items.filterMap QItem.line) ++ (if x.openWords = 0 then [] else x.openLine.toList)).eraseDups
  let s := queueTurn q (fun x => { x with items := [], openWords := 0, openLine := none, draining := x.draining || x.openWords != 0, ptrFault := true,
                                          resetting := true, pointerFaults := satInc x.pointerFaults 1 }) s
  let s := s.report Kind.queuePointer 2 q (islandPlane (queueInfo q).1) (queueInfo q).1
  .next (lines.foldl (fun s l => lineHit l.1 l.2 s) s)

/-- QUEUE_FLUSH: a QueueFlush write flushes the queue that QueueSelect names, in Maintenance only (R43). -/
def execQueueFlush (s : State) : Result :=
  .next <| if s.mode == .maintenance then flushQueue (s.nat Obj.queueSelect) s else s

end Sys2Proof.Machine
end

