-- ==== Sys2Proof/Machine/Power.lean ====
section
/-! DEFINITION. Power domains, rails, adaptive voltage scaling, the thermal limits, and the decision for Safe Halt (R616 to
R632). -/
namespace Sys2Proof.Machine

/-! ### Modes -/

/-- Code of a mode (R603). -/
def Mode.code : Mode → Nat
  | .off => 0 | .sentinel => 1 | .boot => 2 | .configure => 3 | .calibrate => 4 | .idleReady => 5
  | .scan => 6 | .stream => 7 | .hold => 8 | .maintenance => 9 | .degraded => 10 | .safeHalt => 11

/-- The mode whose rules apply in Hold and in Degraded: the mode held from, the mode left (R603, R774). -/
def State.modeUnder (s : State) : Mode :=
  match s.mode with
  | .hold => s.power.heldFrom
  | .degraded => if s.power.leftFor == .hold then s.power.heldFrom else s.power.leftFor
  | m => m

/-- Configure to Degraded. -/
def Mode.configured (m : Mode) : Bool := decide (3 ≤ m.code ∧ m.code ≤ 10)
/-- Boot onward. -/
def Mode.booted (m : Mode) : Bool := decide (2 ≤ m.code)

/-! ### Slice clusters in Scan and Calibrate (R613) -/

/-- Slices of a cluster that have not failed. -/
def State.clusterSlices (s : State) (k : Nat) : Nat :=
  ((List.range 4).filter fun i => (s.slice (4 * k + i)).state != .failed).length

/-- Slice cycles per second of the open streams (R216). -/
def State.openCycles (s : State) : Nat :=
  sumNat (((List.range 64).filter s.streamOpen?).map fun st => s.nat (Obj.maxLineRate st) * s.lineCycles st)

/-- Clusters, counted from 0, that keep a load under 95 % of their capacity of 1.6 × 10^9 cycles per slice (R216, R613). -/
def State.clustersFor (s : State) (load : Nat) : Nat → Nat → Nat → Nat
  | 0, k, _ => k
  | n + 1, k, cap => if load * 100 ≤ cap * 95 then k else s.clustersFor load n (k + 1) (cap + 1600000000 * s.clusterSlices k)

/-- A slice cluster is needed: the open streams' clusters and one further (R613). -/
def State.clusterNeeded (s : State) (k : Nat) : Bool := decide (k < s.clustersFor s.openCycles 16 0 0 + 1)

/-! ### Domains (R620 to R622) -/

/-- A lane stays DISABLED: not enabled, or both directions requested OFF (R106). -/
def State.laneIdle (s : State) (l : Nat) : Bool :=
  !s.flag (Obj.laneEnable l) || (s.nat (Obj.fwdPowerReq l) == 2 && s.nat (Obj.backPowerReq l) == 2)
/-- Some lane of a quad is not DISABLED. -/
def State.quadOn (s : State) (d : Nat) : Bool := (List.range 4).any fun i => !s.laneIdle (4 * d + i)
/-- Some port of a bank is enabled. -/
def State.bankOn (s : State) (b : Nat) : Bool := (List.range 8).any fun i => s.flag (Obj.portEnable (8 * b + i))
/-- Some channel or generator of a front-end island is enabled. -/
def State.feOn (s : State) (i : Nat) : Bool :=
  ((List.range 64).any fun k => s.flag (Obj.chEnable k) && s.nat (Obj.chConverter k) / 8 == i) ||
    (List.range 4).any fun g => s.flag (Obj.genEnable (4 * i + g))
/-- Some band with a column in a lamp sink island is enabled. -/
def State.sinkOn (s : State) (i : Nat) : Bool :=
  (List.range 16).any fun b => s.flag (Obj.bandEnable b) && (s.columnsOf b).any fun c => c / 32 == i
/-- Cluster 16 is on (R632). -/
def State.spareClusterOn (s : State) : Bool :=
  s.flag Obj.warmSpareSlices || [64, 65, 66, 67].any fun k => (s.slice k).permanent

/-- A domain is to be on in a mode (R620). -/
def State.domainWanted (s : State) (m : Mode) (d : Nat) : Bool :=
  if d < 26 then m.configured && s.quadOn d
  else if d < 42 then
    m.configured &&
      (match (if m == s.mode then s.modeUnder else m) with
       | .scan | .calibrate => s.clusterNeeded (d - 26) || s.nat (Obj.domainState d) == 2
       | _ => true)
  else if d = 42 then m.configured && s.spareClusterOn
  else if d < 47 then m.configured
  else if d = 47 then m.configured || m == .safeHalt
  else if d = 48 then !Config.oneStack && (m.configured || m == .safeHalt)
  else if d = 51 then m.booted && (s.flag Obj.spareCoreWarm || !s.dep.coresOut.isEmpty)
  else if d = 53 || d = 63 then m != .off
  else if d = 54 then m.booted && m != .safeHalt
  else if d < 53 then m.booted
  else if d < 59 then m.configured && s.bankOn (d - 55)
  else if d < 61 then m.configured && s.feOn (d - 59)
  else m.configured && s.sinkOn (d - 61)

/-- The islands of a domain: row of R14 and instance. -/
def islandsOf (d : Nat) : List (Nat × Nat) :=
  if d < 26 then (List.range 4).map fun i => (2, 4 * d + i)
  else if d < 43 then (List.range 4).map fun i => (3, 4 * (d - 26) + i)
  else if d < 47 then [(4, d - 43)]
  else if d < 49 then [(5, d - 47)]
  else if d = 49 then [(6, 0), (7, 0)]
  else if d = 50 then [(10, 0), (11, 0), (12, 0)]
  else if d = 52 then [(13, 0)]
  else if d = 53 then [(14, 0), (16, 0)]
  else if d = 54 then [(0, 0)]
  else if d < 55 then []
  else if d < 59 then [(8, d - 55)]
  else if d < 61 then [(9, d - 59)]
  else if d < 63 then [(1, d - 61)]
  else [(15, 0)]

/-- A queue goes into or out of a domain's islands. -/
def queueOfDomain (d q : Nat) : Bool :=
  let ids := (islandsOf d).map fun p => islandOf p.1 p.2
  ids.contains (queueInfo q).1 || ids.contains (queueInfo q).2.1

/-- Every queue into or out of a domain's islands is flushed (R621). -/
def flushDomain (d : Nat) (s : State) : State :=
  (s.queues.map Prod.fst).foldl (fun s q => if queueOfDomain d q then flushQueue q s else s) s

/-- A queue of a domain is in FLUSH_DRAINING: the domain does not ramp until it has ended (R622). -/
def State.domainDraining (s : State) (d : Nat) : Bool := s.queues.any fun p => p.2.draining && queueOfDomain d p.1

/-- A slice whose cluster comes up: active, or a warm or a cold spare (R632). -/
def sliceUp (k : Nat) (s : State) : State :=
  let x := s.slice k
  if x.state != .off then s
  else
    let st : SliceState := if k < 64 || x.permanent then .active else if k - 64 < s.nat Obj.warmSpareSlices then .spareWarm else .spareCold
    s.setSlice k { state := st, permanent := x.permanent, mismatches := x.mismatches }

/-- A slice whose cluster goes down. -/
def sliceDown (k : Nat) (s : State) : State :=
  let x := s.slice k
  s.setSlice k { state := if x.state == .failed then .failed else .off, permanent := x.permanent, mismatches := x.mismatches }

/-- A lane whose domain is on and whose directions are both requested not OFF (R106). -/
def State.laneWanted (s : State) (l : Nat) : Bool :=
  s.flag (Obj.laneEnable l) && s.nat (Obj.domainState (l / 4)) == 2 && s.nat (Obj.fwdPowerReq l) != 2 && s.nat (Obj.backPowerReq l) != 2

/-- The units of a domain once it is ON (R106, R195, R278, R391, R518). -/
def domainUp (d : Nat) (s : State) : State :=
  if d < 26 then
    (List.range 4).foldl (fun s i =>
      let l := 4 * d + i
      if s.laneWanted l && (s.lane l).state == .disabled && (s.target == some .idleReady || (s.lane l).trainDue)
      then startTraining l s else s) s
  else if d < 43 then (List.range 4).foldl (fun s i => sliceUp (4 * (d - 26) + i) s) s
  else if 55 ≤ d && d < 59 then
    let b := d - 55
    let s := s.setBank b .calibrating
    (List.range 8).foldl (fun s i =>
      if s.flag (Obj.portEnable (8 * b + i)) then portUp (8 * b + i) s else s) s
  else if 59 ≤ d && d < 61 then fePower (d - 59) true s
  else if 61 ≤ d && d < 63 then startLampTest (lampDomains true s)
  else s

/-- The units of a domain that turns off: their outputs at their reset values (R621). -/
def domainDown (d : Nat) (s : State) : State :=
  if d < 26 then (List.range 4).foldl (fun s i => laneDown (4 * d + i) s) s
  else if d < 43 then (List.range 4).foldl (fun s i => sliceDown (4 * (d - 26) + i) s) s
  else if 55 ≤ d && d < 59 then
    (List.range 8).foldl (fun s i => portDown (8 * (d - 55) + i) s) (s.setBank (d - 55) .off)
  else if 59 ≤ d && d < 61 then fePower (d - 59) false s
  else if 61 ≤ d && d < 63 then
    if s.nat (Obj.domainState (123 - d)) = 0 then lampDomains false s else s
  else s

/-! ### Rails (R623 to R625, R723) -/

/-- A rail's set point, in 0.5 mV. -/
def setRail (r v : Nat) (s : State) : State :=
  let s := s.setReg (Obj.railSetpoint r) v
  if r = 0 then s.setReg Obj.avsSetpoint v else s

/-- A rail is enabled at its start set point (R723, R729); the lamp rail then stands where its headroom loop starts, or at
LampRailFixed (R401, R623). -/
def enableRail (r : Nat) (s : State) : State :=
  let p := Config.powerRecord r
  let s := (s.setReg (Obj.railPhases r) p.1).setReg (Obj.railFrequency r) p.2.1
  let mv := if r = 7 && s.nat Obj.headroomMode = 0 then s.nat Obj.lampRailFixed else p.2.2
  let s := if r = 7 then s.setReg Obj.lampRailSetpoint mv else s
  setRail r (2 * mv) (s.setReg (Obj.railState r) 1)

/-- A rail ramps down. -/
def disableRail (r : Nat) (s : State) : State :=
  (setRail r 0 (s.setReg (Obj.railState r) 0)).setReg (Obj.railVoltage r) 0

/-! ### Domains following the mode and the configuration -/

/-- A domain is switched on or off as a mode wants it (R620 to R622): it ramps once its queues have drained (R622); a lamp domain waits for
rail 7 (R723). -/
def switchDomain (m : Mode) (s : State) (d : Nat) : State :=
  let st := s.nat (Obj.domainState d)
  if s.domainWanted m d then
    if st ≠ 0 || s.domainDraining d then s
    else if 61 ≤ d && d < 63 && s.nat (Obj.railState 7) ≠ 2 then
      (if s.nat (Obj.railState 7) = 0 then enableRail 7 s else s)
    else (s.setReg (Obj.domainState d) 1).countWrap (Obj.domainSwitchings d)
  else if st = 0 then s
  else domainDown d ((flushDomain d s).setReg (Obj.domainState d) 0)

/-- Every domain follows a mode and the configuration. -/
def domainsFollow (m : Mode) (s : State) : State := (List.range 64).foldl (switchDomain m) s

/-- DOMAIN_ON: a domain that ramps reaches ON and its islands start (R622). -/
def execDomainOn (d : Fin 64) (s : State) : Result :=
  .next <| if s.nat (Obj.domainState d) = 1 then domainUp d (s.setReg (Obj.domainState d) 2) else s

/-- DOMAIN_FAULT: a domain not ON within 500 µs is FAILED (R622). -/
def execDomainFault (d : Fin 64) (s : State) : Result :=
  .next <| if s.nat (Obj.domainState d) = 1 then
      (s.setReg (Obj.domainState d) 3).raiseFault .domainFault [d.val] Kind.domainFault 3 d 2 (islandOf 15 0)
    else s

/-- FLUSH_DRAIN_END: the producer's last word of the partial item arrives (R43); a domain that waited for it ramps (R622). -/
def execFlushDrainEnd (q : Fin 1024) (s : State) : Result :=
  .next <|
    let m := s.target.getD s.mode
    let s := queueTurn q (fun x => { x with draining := false }) s
    if !m.booted then s
    else ((List.range 64).filter fun d => s.nat (Obj.domainState d) == 0 && queueOfDomain d q).foldl (switchDomain m) s

/-- CLUSTER_OFF: 10 ms after its last segment a slice cluster that the open streams no longer need turns off (R613). -/
def execClusterOff (k : Fin 16) (s : State) : Result :=
  let d := 26 + k.val
  let m := s.modeUnder
  let idle := (List.range 4).all fun i => let x := s.slice (4 * k + i); x.current.isNone && x.waits.isEmpty
  .next <| if (m == .scan || m == .calibrate) && s.nat (Obj.domainState d) = 2 && !s.clusterNeeded k && idle &&
      decide (Table.get 0 s.power.clusterUsed k + ms 10 ≤ s.now)
    then domainDown d ((flushDomain d s).setReg (Obj.domainState d) 0) else s

/-! ### Safe Halt (R616) -/

/-- Lamp bands and sinks go inactive; a lit pulse is cut (R387, R616). -/
def darkenLamps (s : State) : State :=
  let s := (List.range 16).foldl (fun s b =>
    let s := match s.lamps.pulses.find? (litPulse b) with
      | none => s
      | some p =>
        let s := (endPulse b s.now p s).count (Obj.bandCuts b)
        match p.line with
        | some (st, line) => (updRec st line (fun r => { r with lampCut := true }) s).raise .lampBandCut [b, st, line]
        | none => s.raise .lampBandCut [b]
    if s.lamps.pulses.any fun p => p.band == b && p.banded then driveBand b false s.now s else s) s
  s.mapPulses fun _ => []

/-- Sensor timing outputs, excitation pins and timing I/O outputs go inactive (R616). -/
def quietPins (s : State) : State :=
  let s := (List.range 32).foldl (fun s p =>
    (quietPort p s).updPort p fun x => { x with queue := [], state := if x.state == .running then .idle else x.state }) s
  let s := (List.range 96).foldl (fun s t =>
    if 16 ≤ s.tioFn t && s.tioFn t != 20 then
      driveTio t false s.now (s.updTio t fun x => { x with instants := [], pulseEnd := none })
    else s) s
  { s with fe := { s.fe with gens := [] } }

/-- Every stream ends at once (R616): nothing more is triggered, written or emitted; open pages keep their records. -/
def endStreams (s : State) : State :=
  let s := (List.range 64).foldl (fun s st =>
    if (s.strm st).state == .closed then s
    else
      let s := if (s.calib st).state == .capturing || (s.calib st).state == .waitingWarm || (s.calib st).armed
        then failCapture st 1 s else s
      let s := s.updStrm st fun x => { x with state := .closed }
      s.updSeam st fun x => { x with resumeLine := none, holding := false, heldPins := [] }) s
  { s with records := [], ingest := [], crossbar := [],
           slices := s.slices.map fun (p : Nat × Slice) =>
                     (p.1, { p.2 with replay := [], queue := [], c0 := none, current := none, retained := none, boundTo := none }) }

/-- The block is halted from this instant (R616). -/
def haltDecided (s : State) : State :=
  { s with power := { s.power with halted := true, haltAt := some s.now, degradeDue := none }, target := some .safeHalt }

/-- Every axis stops: hard, or with its quick stop (R616). -/
def stopMotion (hard : Bool) (s : State) : State :=
  (List.range 16).foldl (fun s m => if hard then motHardStop m s else motQuickStop m s) s

/-- Every stream of every transport has closed (R344, R616): one that stands is IDLE, one that moves is STOPPING until its quick stop has
ended. -/
def idleTransports (s : State) : State :=
  { s with transports := s.transports.map fun (p : Nat × Transport) =>
             let moves := decide (s.nat (Obj.transportMotion p.1) < 16) && s.nat (Obj.transportKind p.1) != 0 &&
               (s.motion (s.nat (Obj.transportMotion p.1))).vel != 0
             (p.1, { p.2 with state := if moves && p.2.state != .idle && p.2.state != .fault then .stopping else .idle, since := none,
                              clamped := false }) }

/-- The decision for Safe Halt, with its cause (R616, R636): the work of R616 at once; ModeState follows. It pre-empts every
transition (R607, R608). `hard` when the timing island has failed. -/
def safeHalt (cause : Nat) (hard : Bool) (s : State) : State :=
  if s.power.halted || !s.mode.booted then s
  else
    let s := stopMotion hard (haltDecided (disableAll (endStreams (quietPins (darkenLamps s)))))
    alarmEval (audit 0x0E .device 0 0 0 (leBytes 1 cause) true ((idleTransports s).setReg Obj.safeHaltCause cause))

/-- MOTOR_ENABLE_RELEASE: at the standstill of its motion channel, or 500 ms after the decision, a MOTOR_ENABLE_OUT pin deasserts
(R616). -/
def execMotorEnableRelease (s : State) : Result :=
  .next <| match s.power.haltAt with
    | none => s
    | some t =>
      let late := decide (t + ms 500 ≤ s.now)
      let u := (List.range 96).foldl (fun s p =>
        if s.tioFn p == 20 && (late || (s.motion (s.tioSource p)).vel == 0) then driveTio p false s.now s else s) s
      if late || (List.range 16).all fun m => (s.motion m).vel == 0 then { u with power := { u.power with haltAt := none } } else u

/-! ### Rail and thermal faults -/

/-- RAIL_FAULT: a rail stands outside ±5 % of its set point for 50 µs outside a ramp (R625): rails 0 to 6 halt, rail 7 disables every
band. -/
def execRailFault (r : Fin 8) (s : State) : Result :=
  .next <| if s.nat (Obj.railState r) ≠ 2 then s
    else
      let s := (s.setReg (Obj.railState r) 3).count (Obj.railFaults r)
      let s := s.raiseFault .railFault [r.val] Kind.railFault (if r = 7 then 2 else 4) r 2 (islandOf 15 0)
      if r = 7 then (List.range 16).foldl (fun s b => if s.flag (Obj.bandEnable b) then disableBand b s else s) s
      else safeHalt 5 false s

/-- TJ_HOT measured (R598, R599, R636). -/
def noteTj (t : Int) (s : State) : State :=
  let s := { s with power := { s.power with tjHot := t } }
  if s.reg Obj.tjMaxSeen < t then s.setReg Obj.tjMaxSeen t else s

/-- THERMAL_WARN: TJ_HOT, as measured, has reached TjWarnLimit (R619), or has fallen below it again. -/
def execThermalWarn (t : Int) (s : State) : Result :=
  let s := noteTj t s
  let hot := decide (s.reg Obj.tjWarnLimit ≤ t)
  let was := s.power.warned
  let s := { s with power := { s.power with warned := hot } }
  .next <| alarmEval (if hot && !was then s.raiseFault .thermalWarn [t] Kind.thermalWarn 1 0 2 (islandOf 15 0) else s)

/-- THERMAL_SHUTDOWN: TJ_HOT has stood at or above TjShutdown for 1 ms (R619): Safe Halt. -/
def execThermalShutdown (t : Int) (s : State) : Result :=
  let s := noteTj t s
  .next <| if t < s.reg Obj.tjShutdown then s
    else safeHalt 2 false (s.raiseFault .thermalShutdown [t] Kind.thermalShutdown 4 0 2 (islandOf 15 0))

/-! ### Adaptive voltage scaling (R627 to R630) -/

/-- Set point bounds of the loop, in 0.5 mV (R627). -/
def State.avsFloorNow (s : State) : Nat := max 1300 (2 * s.nat Obj.avsFloor)
def State.avsCeilingNow (s : State) : Nat := min 1800 (2 * s.nat Obj.avsCeiling)

/-- AvsStatus: CLAMPED, its direction (1 up), and above the ceiling after a droop (R636). -/
def setAvsStatus (clamped up above : Bool) (s : State) : State :=
  s.setReg Obj.avsStatus (b2n clamped + 2 * b2n up + 4 * b2n above : Nat)

/-- The loop holds at a bound (R628): told and counted once on each entry. -/
def avsClamp (up : Bool) (s : State) : State :=
  let v := s.nat Obj.avsStatus
  let was := bitAt v 0 && bitAt v 1 == up
  let s := setAvsStatus true up false s
  if was then s else (s.count Obj.avsClamps).raise .policyClamp [b2n up]

/-- The loop wants a set point: it takes what its bounds leave of it (R627, R628). -/
def avsMove (want : Int) (s : State) : State :=
  let lo : Int := s.avsFloorNow
  let hi : Int := s.avsCeilingNow
  let v := clampInt lo hi want
  let s := setRail 0 v.toNat s
  if want < lo then avsClamp false s else if hi < want then avsClamp true s else setAvsStatus false false false s

/-- AVS_EVAL: every 10 µs the VCORE set point follows the worst slack (R627), or holds AvsFixed; it runs from Configure on (R723),
and pauses while the set point falls back from a droop (R629). -/
def execAvsEval (slack : Int) (s : State) : Result :=
  let mode := s.nat Obj.avsMode
  if !s.mode.talks || (mode ≠ 0 && !s.loopDue 5 0 (us 10)) then .next s else
  let s := (s.loopRan 5 0).setReg Obj.avsSlack (clampInt (-128) 127 slack)
  let high := s.power.avsHigh
  let setHigh := fun (n : Nat) (s : State) => { s with power := { s.power with avsHigh := n } }
  .next <| if mode = 0 then
      setAvsStatus false false false (setRail 0 (2 * s.nat Obj.avsFixed) { s with power := { s.power with avsHigh := 0, droopAt := none } })
    else if s.power.droopAt.isSome then setHigh 0 s
    else
      let target := s.reg Obj.avsTarget
      let v := s.reg Obj.avsSetpoint
      if slack < target - 2 then avsMove (v + 10) (setHigh 0 s)
      else if target + 2 < slack then
        if 100 ≤ high + 1 then avsMove (v - 5) (setHigh 0 s) else setHigh (high + 1) s
      else avsMove v (setHigh 0 s)

/-- AVS_DROOP: a monitor reports slack below 0 (R629): up by 25 mV at once, past the ceiling if need be; AVS_MARGIN where it already
stands as high as it may (R630). -/
def execAvsDroop (monitor : Nat) (s : State) : Result :=
  if !s.mode.talks || s.nat Obj.avsMode = 0 then .next s else
  let v := s.nat Obj.avsSetpoint
  let c := 2 * s.nat Obj.avsCeiling
  let top := min (c + 50) 1800
  let raised := min (v + 50) top
  let d : Droop := ⟨s.dt, v, raised, s.nat Obj.avsCeiling⟩
  let log := s.power.droops ++ [d]
  let above := decide (c < raised)
  let s := { s with power := { s.power with droops := latest 16 log, avsHigh := 0,
                                            droopAt := if above then some s.now else none } }
  let s := setAvsStatus false false above (setRail 0 raised (s.count Obj.avsDroops))
  let s := if v < raised then s.raiseFault .avsDroop [monitor, v, raised] Kind.avsDroop 0 monitor 2 (islandOf 15 0) else s
  .next <| if top ≤ v then s.raiseFault .avsMargin [monitor] Kind.avsMargin 2 monitor 2 (islandOf 15 0) else s

/-- AVS_FALLBACK: from 1 ms after the last droop on, every 10 µs, the set point falls by 2.5 mV until it lies within AvsCeiling, where R627
resumes (R629): the first step comes at the end of the first 10 µs, as in the example under R631. -/
def execAvsFallback (s : State) : Result :=
  .next <| match s.power.droopAt with
    | none => s
    | some t =>
      if s.nat Obj.avsMode = 0 || s.now < t + ms 1 + us 10 then s
      else
        let v := s.nat Obj.avsSetpoint - 5
        let above := decide (2 * s.nat Obj.avsCeiling < v)
        let s := setAvsStatus false false above (setRail 0 v s)
        { s with power := { s.power with droopAt := if above then some (s.now - ms 1) else none } }

end Sys2Proof.Machine
end

