-- ==== Sys2Proof/Machine/Startup.lean ====
section
/-! DEFINITION. Reset sources, start-up from the standby rails to a running Peony, failed boots and recovery (R601, R666, R673,
R681, R687, R717 to R735). -/
namespace Sys2Proof.Machine

/-! ### Entering a mode (R603, R636) -/

/-- ModeState takes a mode: the transition ends, ModePrevious, ModeEntryTime and ModeTransitions follow, MODE_CHANGED is raised
(R635, R636). -/
def enterMode (m : Mode) (cause : Nat) (s : State) : State :=
  let old := s.mode
  let s := { s with mode := m, target := none }
  let s := ((s.setReg Obj.modePrevious old.code).setReg Obj.modeEntryTime s.dt).countWrap Obj.modeTransitions
  s.raise .modeChanged [old.code, m.code, cause]

/-! ### What a reset keeps (R601) -/

/-- The state a loss of the standby rails leaves: limited-change objects, repairs, the audit log, the contents of fuses and boot
flash, and the levels other parties hold on pins. A repair record not yet written is lost, a cleared one becomes inactive (R668). -/
def persistent (s : State) : State :=
  let x := s.sec
  { pending := s.pending, freeCount := s.freeCount, out := s.out, raised := s.raised,
    dict := s.dict.filter (fun e => decide (0xE00000 ≤ e.1 ∧ e.1 < 0xF00000)),
    host := { perst := s.host.perst }, kdps := { addr := { enumIn := s.kdps.addr.enumIn } }, power := { tjHot := s.power.tjHot },
    dep := { repairs := (s.dep.repairs.filter Repair.stored).map fun r => if r.clearNext then { r with active := false, clearNext := false } else r,
                                                                                                       hard := s.dep.hard, repairSeq := s.dep.repairSeq, areaBad := s.dep.areaBad },
    sec := { attest := x.attest, nextGeneration := x.nextGeneration, identity := x.identity, vendor := x.vendor, factory := x.factory,
             roleKeys := x.roleKeys, ownerBlock := x.ownerBlock, lwUsed := x.lwUsed, torn := x.torn, slots := x.slots,
             active := x.active, draws := x.draws, audit := x.audit, auditNext := x.auditNext, auditFloor := x.auditFloor,
             lastChain := x.lastChain, tamperIn := x.tamperIn, zeroising := x.zeroising },
    boot := { standby := s.boot.standby, record := s.boot.record, wake := s.boot.wake } }

/-! ### Rails and Boot entry (R722 to R724) -/

/-- BootStage: the stage, and FAILED with a rail number (R736). -/
def setStage (stage : Nat) (s : State) : State := s.setReg Obj.bootStage stage
/-- A stage failed. -/
def failStage (stage rail : Nat) (s : State) : State := s.setReg Obj.bootStage (0x8000 + 256 * rail + stage : Nat)

/-- What Boot starts with (R722): BootTimes, the limits of the temperature grade, a locked address (R547), the domains of Boot.
`before` is the time from t0 to Boot entry. -/
def bootSetup (before : Nat) (s : State) : State :=
  let s := (setStage 3 s).setReg Obj.bootTimes ((before / 4000 * 2 ^ 32 : Nat) : Int)
  let s := if Config.gradeI then (s.setReg Obj.tjWarnLimit 1000).setReg Obj.tjShutdown 1150 else s
  let a := s.nat Obj.nodeAddressLock
  let s := if a = 0 then s else (s.setReg Obj.nodeAddress a).setReg Obj.addressSource 2
  let s := if a ≠ 0 && s.kdps.addr.enumIn then
      { s with kdps := { s.kdps with addr := { s.kdps.addr with enumOutAt := some (s.now + ms 1) } } } else s
  domainsFollow .boot s

/-- Boot is entered (R722): DT starts from 0. -/
def enterBoot (s : State) : State :=
  let before := s.boot.before + s.now
  bootSetup before (enterMode .boot 0 { s with now := 0, grayDt := 0, loops := [], boot := { s.boot with before := before, starting := true, rail := 8 } })

/-- The rails up to 6 are enabled one after the other; Boot follows the last (R722, R723). -/
def raiseRails (s : State) : State :=
  match (List.range 7).find? fun r => s.nat (Obj.railState r) != 2 with
  | none => enterBoot s
  | some r =>
    let s := { s with target := some .boot, boot := { s.boot with starting := true, rail := r } }
    if s.nat (Obj.railState r) = 1 then s else enableRail r s

/-- The way to Boot ends where it stands. -/
def startEnds (s : State) : State := { s with target := none, boot := { s.boot with starting := false, rail := 0 } }

/-- The power controller reads the board power record and starts the rails; a record that fails leaves the Penori in Sentinel
(R722, R730, R733). -/
def powerUp (s : State) : State :=
  if s.boot.record then raiseRails (setStage 2 s)
  else startEnds (failStage 1 0 { s with boot := { s.boot with recordBad := some s.now } })

/-- The sentinel starts, with what a loss of the standby rails left. -/
def standbyUp (record : Bool) (s : State) : State :=
  let p := persistent s
  domainsFollow .sentinel { p with boot := { p.boot with standby := true, record := record, starting := true } }

/-- STANDBY_IN_RANGE: both standby rails come within range (R604, R717 POWER_ON): Sentinel, then on to Boot (R618). `record` says
whether a copy of the board power record passes R730. -/
def execStandbyInRange (record : Bool) (s : State) : Result :=
  let fresh := s.mode == .sentinel && s.boot.starting && s.nat (Obj.railState 0) == 0
  .next <| if s.mode == .off || fresh then powerUp (setStage 1 (standbyUp record s)) else s

/-- STANDBY_OUT_OF_RANGE: a standby rail is lost: Off (R604). -/
def execStandbyOutOfRange (s : State) : Result :=
  let p := persistent s
  .next { p with mode := .off, target := none, boot := { p.boot with standby := false, starting := false, wake := false } }

/-- RAIL_REGULATING: an enabled rail regulates at its set point (R723): the next one follows, Boot after rail 6, and the lamp
domains after rail 7. -/
def execRailRegulating (r : Fin 8) (s : State) : Result :=
  .next <| if s.nat (Obj.railState r) ≠ 1 then s
    else
      let t := (s.setReg (Obj.railState r) 2).setReg (Obj.railVoltage r) (s.nat (Obj.railSetpoint r) / 2 : Nat)
      if r = 7 then domainsFollow s.mode t
      else if s.mode == .sentinel && s.boot.starting && s.boot.rail = r.val then raiseRails t else t

/-- Rails 0 to 6 ramp down in reverse order (R724). -/
def rampDown (s : State) : State :=
  ((List.range 7).reverse).foldl (fun s i => if s.nat (Obj.railState i) = 0 then s else disableRail i s) s

/-- BOOT_RAIL_TIMEOUT: a rail does not regulate within 5 ms of its enable at start-up: the rails ramp down in reverse order and the
Penori stays in Sentinel (R724). -/
def execBootRailTimeout (r : Fin 8) (s : State) : Result :=
  .next <| if s.mode == .sentinel && s.boot.starting && s.boot.rail = r.val && s.nat (Obj.railState r) = 1 then
      startEnds (failStage 2 r (rampDown s))
    else s

/-! ### Waking from Sentinel (R618, R726) -/

/-- A wake source starts the way to Boot; one other than PE_PERST_N asserts PE_WAKE_N while that pin is asserted (R618, R726). -/
def wakeUp (fromPerst : Bool) (s : State) : State :=
  if s.mode != .sentinel || s.boot.starting then s
  else
    powerUp (if !fromPerst && s.host.perst && !s.boot.wake then
      { s with boot := { s.boot with wake := true } }.emit (.pin .peWakeN 0 true s.now) else s)

/-! ### Resets (R717 to R720) -/

/-- ResetCause takes a source, with MULTIPLE where a reset or the start-up is in progress (R720, R735). -/
def noteCause (source : Nat) (s : State) : State := s.setReg Obj.resetCause (source + (if s.boot.starting then 128 else 0) : Nat)

/-- What stands right after a device reset (R601, R719, R720): everything outside the sentinel and power controller domains in its
reset state, outputs included. -/
def resetLeaves (source : Nat) (s : State) : State :=
  let c := noteCause source s
  let p := persistent c
  let p := { p with mode := s.mode, target := none, boot := { p.boot with starting := true } }
  let p := [Obj.wakeSources, Obj.resetCause, Obj.bootStage, Obj.bootAttempts, Obj.domainState 53, Obj.domainState 63].foldl
    (fun p o => p.setReg o (c.reg o)) p
  (p.setReg Obj.resetCount (((s.nat Obj.resetCount) + 1) % 2 ^ 32 : Nat)).emit (.outputsReset s.now)

/-- Rails 0 to 6 stay in regulation over a reset (R719). -/
def keepRails (s p : State) : State :=
  let p := (List.range 7).foldl (fun p r =>
    if s.nat (Obj.railState r) = 2 then
      [Obj.railState r, Obj.railSetpoint r, Obj.railVoltage r, Obj.railPhases r, Obj.railFrequency r].foldl
        (fun p o => p.setReg o (s.reg o)) p else p) p
  p.setReg Obj.avsSetpoint (p.reg (Obj.railSetpoint 0))

/-- The way to Boot is not taken: a reset ends in Sentinel (R717). -/
def stayInSentinel (s : State) : State := { setStage 0 s with boot := { s.boot with starting := false } }

/-- A device reset: Boot is entered again, or Sentinel for source SENTINEL (R601, R717, R719). -/
def deviceReset (source : Nat) (s : State) : State :=
  if s.mode == .off then s
  else if source = 5 then enterMode .sentinel 0 (stayInSentinel (resetLeaves source s))
  else raiseRails (keepRails s (resetLeaves source s))

/-- DEVICE_RESET: a write of 1 to DeviceReset (R717 COMMAND), from Configure on, in Safe Halt and in recovery. -/
def execDeviceReset (s : State) : Result := .next (if s.mode.talks || s.boot.recovery then deviceReset 4 s else s)

/-- The start-up stands where only POWER_ON or PERST_DEVICE retries it: the self-test failed (R733). -/
def State.bootStuck (s : State) : Bool := s.mode == .boot && s.nat Obj.bootStage == 0x8003

/-- Consecutive failed boots of a slot (R732, R736). -/
def State.attempts (s : State) (slot : Nat) : Nat := field (s.nat Obj.bootAttempts) (8 * slot) 8

/-- A watchdog reset before Idle-Ready is first reached counts against the slot (R732). -/
def countAttempt (s : State) : State :=
  if s.boot.reached then s
  else
    let slot := if s.boot.peony then s.sec.running else s.boot.toTry.head?.getD s.sec.active
    s.setReg Obj.bootAttempts (putField (s.nat Obj.bootAttempts) (8 * slot) 8 (min (s.attempts slot + 1) 255) : Nat)

/-- BOOT_WATCHDOG: Configure is not entered within BootWatchdog of Boot entry (R717, R732). Recovery stays in Boot (R734). -/
def execBootWatchdog (s : State) : Result :=
  .next <| if s.mode == .boot && !s.boot.recovery && !s.bootStuck && decide (ms (s.nat Obj.bootWatchdog) ≤ s.now)
    then deviceReset 6 (countAttempt s) else s

/-- MGMT_WATCHDOG: Peony fails to service its watchdog for WatchdogPeriod, in any mode from Configure on (R717, R732). -/
def execMgmtWatchdog (s : State) : Result := .next (if s.mode.talks then deviceReset 7 (countAttempt s) else s)

/-- JTAG_SYSTEM_RESET: while DebugState is OPEN (R717). -/
def execJtagSystemReset (s : State) : Result := .next (if s.sec.debugOpen then deviceReset 8 s else s)

/-- The reach of PERST: Delta, the mailbox and the PCIe configuration space (R453, R580, R717). -/
def hostReset (s : State) : State :=
  let s := emptyMailbox s
  let s := { s with host := { s.host with mps := 128, mrrs := 512, msix := [], mgmt := [], bar4 := [] } }
  if s.mode == .sentinel then s else linkDown s

/-- PERST_ASSERT: the asserting edge of PE_PERST_N (R717, R718, R720). -/
def execPerstAssert (s : State) : Result :=
  .next <| if s.host.perst then s
    else
      let s := { s with host := { s.host with perst := true } }
      if s.mode == .off then s
      else if s.power.halted || s.nat Obj.perstReach = 1 then deviceReset 3 s
      else hostReset (noteCause 2 s)

/-- PERST_DEASSERT: PE_WAKE_N is released, and Sentinel is left where WakeSources [0] enables it (R618, R726). -/
def execPerstDeassert (s : State) : Result :=
  .next <| if !s.host.perst then s
    else
      let s := { s with host := { s.host with perst := false } }
      let s := if s.boot.wake then { s with boot := { s.boot with wake := false } }.emit (.pin .peWakeN 0 false s.now) else s
      if bitAt (s.nat Obj.wakeSources) 0 then wakeUp true s else s

/-! ### Repairs applied at boot (R666, R667) -/

/-- A repair record's effect on the unit it names (R663, R664). LANE_SPARED waits for the group's configuration (R667). -/
def applyRepair (r : Repair) (s : State) : State :=
  match r.rkind with
  | 1 =>
    let s := s.updSlice r.unit fun x => { x with state := .failed }
    if 64 ≤ r.detail then s.updSlice r.detail fun x => { x with permanent := true }
    else if 64 ≤ r.unit && !(s.slice r.unit).permanent then s
    else s.setReg Obj.slicesActive (s.nat Obj.slicesActive - 1 : Nat)
  | 2 =>
    let bank := r.detail / 256
    let s := s.updCoefRow (r.unit * 64 + bank) fun x => { x with remapped := true }
    let s := { s with dep := { s.dep with rowsUsed := Table.set 0 s.dep.rowsUsed bank (max (Table.get 0 s.dep.rowsUsed bank) (r.detail % 256 + 1)) } }
    s.setReg Obj.coefSpareRows (s.nat Obj.coefSpareRows - 1 : Nat)
  | 3 => s.setReg Obj.channelFailed ((s.nat Obj.channelFailed) ||| 2 ^ r.unit : Nat)
  | 4 =>
    let d := Table.get {} s.dep.switches r.unit
    { s with dep := { s.dep with switches := Table.set {} s.dep.switches r.unit { d with spares := d.spares - 1, opened := d.opened ++ [r.detail] } } }
  | 5 =>
    retireCore r.unit s
  | 6 => { s with dep := { s.dep with retiredCopy := some r.unit } }.setReg Obj.tmrState 2
  | 8 =>
    let st : XpState := if r.fault = Kind.lampShort then .short else if r.fault = Kind.lampNeighbourShort then .neighbourShort else .open_
    let s := s.updXpoint r.unit fun x => { x with state := st }
    { s with lamps := { s.lamps with liftsDue := s.lamps.liftsDue ++ [r.unit] } }
  | _ => s

/-- The hard repairs from fuses, before any data-plane domain powers on (R666). -/
def applyHard (s : State) : State := (s.dep.hard.filter Repair.active).foldl (fun s r => applyRepair r s) s

/-- The soft repairs, once the repair area's CRC-32C is verified; a bad area applies none and is told (R666, R733). -/
def applySoft (s : State) : State :=
  if s.dep.areaBad then s.raise .repairAreaInvalid []
  else
    let s := { s with dep := { s.dep with repairs := s.dep.repairs.map fun (r : Repair) => if r.active then { r with origin := 2 } else r } }
    (s.dep.repairs.filter Repair.active).foldl (fun s r => applyRepair r s) s

/-- The lanes of re-applied LANE_SPARED records become their group's spare, where the group is configured with them (R667). -/
def applySparedLanes (s : State) : State :=
  (s.dep.repairs.filter fun r => r.active && r.rkind == 7 && r.origin == 2).foldl (fun s r =>
    match s.groupOfLane r.unit with
    | none => s
    | some g =>
      match (List.range 8).find? fun i => s.cfgLane g i == r.unit with
      | some i =>
        if s.cfgLane g 8 = 255 then s
        else s.updGroup g fun x => { x with moved := [(i, s.cfgLane g 8)], spareLane := some r.unit }
      | none => s) s

/-! ### Self-test (R673, R674, R733) -/

/-- A failed self-test, power-up or later: ERROR, its audit record, and a TAMPER report with DETAIL bit 8. R704 does not number
the tests: the number recorded is an open value. -/
def selfTestFails (s : State) : State :=
  let n := s.free 256
  let s := audit 0x0D .device 0 0 0 (leBytes 1 n.1) true (n.2.setReg Obj.securityState 2)
  let s := if s.mode == .boot && !s.boot.tested then { failStage 3 0 s with boot := { s.boot with toTry := [] } } else s
  alarmEval (watchConditions (s.report Kind.tamper 4 256 2 (islandOf 13 0)))

/-- Uses whose valid fuse is unburnt are told (R687). -/
def tellTorn (s : State) : State :=
  let s := s.sec.torn.foldl (fun s i => audit 0x07 .device (0xE000 + i) 0 0 (leBytes 2 (Table.get 0 s.sec.lwUsed i)) false s) s
  { s with sec := { s.sec with torn := [] } }

/-- An attestation key pair is created where none is held and the identity key can endorse it (R677, R709). -/
def makeAttestation (s : State) : State :=
  if s.sec.attest.isNone && s.sec.identity then
    { s with sec := { s.sec with attest := some s.sec.nextGeneration, nextGeneration := s.sec.nextGeneration + 1 } } else s

/-- The order in which Primrose tries the slots: the active one first, unless it has failed three boots (R682, R732). -/
def State.slotOrder (s : State) : List Nat :=
  let a := s.sec.active
  if 3 ≤ s.attempts a then [1 - a, a] else [a, 1 - a]

/-! ### Primrose (R681, R682, R734) -/

/-- KEY_ID of a hybrid public key block: the first 8 bytes of its SHA-384 digest (R677). -/
def keyId (block : Bytes) : Nat := leNat ((Config.sha384 block).take 8)

/-- A KEY_ID stands in a KeyRevocation slot (R685). -/
def State.revoked (s : State) (id : Nat) : Bool := (List.range 8).any fun e => id != 0 && s.nat (Obj.keyRevocation e) == id

/-- The owner block in boot flash hashes to OwnerKeyHash. -/
def State.ownerFits (s : State) : Bool := leNat (Config.sha384 s.sec.ownerBlock) == s.nat Obj.ownerKeyHash

/-- The first check of R681 that a slot fails; none if it passes all. -/
def slotFails (c : SlotCheck) (s : State) : Option Nat :=
  if !c.present || !c.known || s.revoked c.virgeantKey.toNat then some 1
  else if !c.signatures then some 2
  else if s.flag Obj.ownerKeyHash && !(s.ownerFits && c.ownerKey.toNat == keyId s.sec.ownerBlock && c.ownerSigned) then some 3
  else if c.svn.toNat < s.nat Obj.antiRollback then some 4
  else if !c.digest then some 5
  else none

/-- Boot stays in recovery (R734). -/
def enterRecovery (s : State) : State := { s with target := none, boot := { s.boot with recovery := true, starting := false } }

/-- A slot is rejected for a check it fails: it is no longer valid, the rejection is recorded and told, and the other slot is tried, or
Boot stays in recovery (R682, R734). -/
def rejectSlot (slot k : Nat) (s : State) : State :=
  let was : PeonySlot := Table.get {} s.sec.slots slot
  let left := s.boot.toTry.drop 1
  let s := { s with sec := { s.sec with slots := Table.set {} s.sec.slots slot { was with valid := false } },
                    boot := { s.boot with toTry := left } }
  let s := (audit 0x02 .device 0 0 0 (leBytes 1 slot ++ leBytes 1 k) false s).raise .firmwareRejected [slot, k]
  let s := s.setReg Obj.bootSlot 0x80
  if left.isEmpty then enterRecovery (setStage 8 s) else s

/-- The way from Boot to Configure begins (R604). -/
def toConfigure (s : State) : State := { s with target := some .configure }

/-- A slot that passes runs its Peony (R682). -/
def runSlot (slot : Nat) (c : SlotCheck) (s : State) : State :=
  let x : PeonySlot := ⟨true, c.version.toNat, c.svn.toNat, c.virgeantKey.toNat, c.ownerKey.toNat⟩
  let s := toConfigure { s with boot := { s.boot with peony := true, toTry := [] },
                                sec := { s.sec with running := slot, slots := Table.set {} s.sec.slots slot x } }
  let s := (s.setReg Obj.peonyVersion x.version).setReg Obj.bootSlot (slot + 128 * b2n (bitAt (s.nat Obj.bootSlot) 7) : Nat)
  setStage 5 s

/-- BOOT_SLOT_VERIFY: Primrose reads the slot it is to try: it rejects it, and after the second enters recovery, or starts it on the
way to Configure (R681, R682, R732, R734). Nothing follows once Safe Halt is decided (R608). -/
def execBootSlotVerify (slot : Fin 2) (c : SlotCheck) (s : State) : Result :=
  if s.mode != .boot || s.power.halted || !s.boot.tested || s.boot.peony || s.boot.toTry.head? != some slot.val then .next s else
  let fails := match slotFails c s with
    | some k => some k
    | none => if 3 ≤ s.attempts slot then some 5 else none
  .next <| match fails with
    | some k => rejectSlot slot k s
    | none => runSlot slot c s

end Sys2Proof.Machine
end

