-- ==== Sys2Proof/Machine/Modes.lean ====
section
/-! DEFINITION. Mode requests and transitions, Hold, Degraded's entry and exit, and StreamEnable in each mode (R362 to R364, R413,
R603 to R615, R692, R774). -/
namespace Sys2Proof.Machine

/-! ### Roles (R12) -/

/-- Code of a role (R555). -/
def roleCode : Role → Nat
  | .operator => 1 | .integrator => 2 | .securityOfficer => 3 | .vendorService => 4

/-- A role meets a least role: the first three are ordered, Vendor Service stands apart (R12). -/
def roleMeets (role least : Nat) : Bool := if role = 4 || least = 4 then role == least else decide (least ≤ role)

/-! ### Requests (R604, R606, R607, R609, R617, R692) -/

/-- The role a request needs (R606). -/
def Mode.role (m : Mode) : Nat := if m == .idleReady || m == .scan || m == .stream || m == .hold then 1 else 2

/-- A request for a mode is listed from the present one (R604). -/
def State.requestListed (s : State) (m : Mode) : Bool :=
  match m with
  | .sentinel | .calibrate => s.mode == .idleReady
  | .configure => s.mode == .idleReady || s.mode == .calibrate || s.mode == .maintenance || s.mode == .degraded
  | .idleReady => s.mode == .configure || s.mode == .calibrate || s.mode == .scan || s.mode == .stream || s.mode == .hold || s.mode == .maintenance
  | .scan => s.mode == .idleReady || (s.mode == .hold && s.power.heldFrom == .scan)
  | .stream => s.mode == .idleReady || (s.mode == .hold && s.power.heldFrom == .stream)
  | .hold => s.mode == .scan || s.mode == .stream
  | .maintenance => s.mode == .idleReady || s.mode == .degraded
  | .safeHalt => s.mode.booted && s.mode != .safeHalt
  | .off | .boot | .degraded => false

/-- The error a request is answered with (R606, R607, R609, R617, R692); none for one that is taken. -/
def modeError (role : Nat) (m : Mode) (s : State) : Option Nat :=
  if !roleMeets role m.role then some 0x08
  else if s.power.halted || s.mode == .safeHalt then some 0x09
  else if s.target.isSome && m != .safeHalt then some 0x0A
  else if !s.requestListed m then some 0x09
  else if m == .stream && !(List.range 64).any (fun st => s.flag (Obj.streamEnable st)) then some 0x09
  else if s.mode == .configure && m != .safeHalt && s.conditionFails then some 0x09
  else none

/-! ### Units that follow the configuration (R106, R188, R310) -/

/-- Lanes and ports that the configuration does not enable stand DISABLED; an enabled port of a powered bank is IDLE. -/
def unitsFollow (s : State) : State :=
  let s := (List.range 104).foldl (fun s l =>
    if (s.lane l).state != .disabled && !s.flag (Obj.laneEnable l) then laneDown l s else s) s
  (List.range 32).foldl (fun s p =>
    let x := s.port p
    if !s.flag (Obj.portEnable p) then portDown p s
    else if (x.state == .disabled || x.state == .idle) && s.nat (Obj.domainState (55 + p / 8)) = 2 then portUp p s
    else s) s

/-- Lanes of the states given begin training (R106). -/
def trainLanes (pick : LaneState → Bool) (s : State) : State :=
  (List.range 104).foldl (fun s l => if s.laneWanted l && pick (s.lane l).state then startTraining l s else s) s

/-! ### Opening and closing with a mode (R414, R610, R611) -/

/-- A stream opens, or the marks in its ring refuse it (R413, R414, R771). -/
def tryOpen (st : Nat) (s : State) : State :=
  if s.streamOpen? st then s
  else if s.openable st then openStream st s
  else if (s.ring st).marks.any (fun m => m.kind == .hold || m.kind == .host) then s.raise .ringMarked [st] else s

/-- Every stream with StreamEnable at 1 opens (R610). -/
def openHeld (s : State) : State :=
  (List.range 64).foldl (fun s st => if s.flag (Obj.streamEnable st) then tryOpen st s else s) s

/-- Every stream closes as a write of 0 does; STOPPABLE transports stop without backing up (R610, R611). -/
def leaveStreams (s : State) : State :=
  let s := (List.range 16).foldl (fun s u =>
    stopRequest u s) s
  (List.range 64).foldl (fun s st => if s.streamOpen? st then closeStream st s else s) s

/-- Every stream is CLOSED and every transport at standstill (R604). -/
def State.allClosed (s : State) : Bool :=
  ((List.range 64).all fun st => !s.streamOpen? st) && (List.range 16).all fun u => (s.trans u).state == .idle

/-! ### Hold (R362 to R364) -/

/-- A stream takes triggers still, on the way into Hold: it is inside a page that has not ended. -/
def State.inPage (s : State) (st : Nat) : Bool :=
  s.triggering st && !s.stoppable st && !(s.genHeld st && s.pageGap st)

/-- HOLD_PENDING of a transport: Hold entry waits for a page of one of its streams to end (R362, R366). -/
def State.holdPending (s : State) (u : Nat) : Bool := s.target == some .hold && (s.streamsOf u).any s.inPage

/-- Every STOPPABLE transport with a running stream is HELD and no entry is deferred (R362). -/
def State.holdReady (s : State) : Bool :=
  ((List.range 16).all fun u => s.nat (Obj.transportKind u) != 1 || (s.runningOf u).isEmpty || (s.trans u).state == .held) &&
    (List.range 64).all fun st => !s.inPage st

/-- The way into Hold begins: STOPPABLE transports stop and back up, or are HELD where they stand at their back-up point (R362); no StreamEnable write is held yet (R774). -/
def startHold (s : State) : State :=
  let s := (List.range 64).foldl (fun s st => s.updStrm st fun x => { x with heldOpen := none }) s
  (List.range 16).foldl (fun s u =>
    if s.nat (Obj.transportKind u) != 1 || (s.runningOf u).isEmpty then s
    else if (s.trans u).state == .stopped then transEnter u .held s else stopRequest u s) s

/-- The commanded position at which a transport stands at its back-up point again, where its position channel has moved since the arrival
there (R364; log entry 105). -/
def State.backupAgain (s : State) (u : Nat) : Int :=
  let c := s.nat (Obj.transportChannel u)
  let m := s.nat (Obj.transportMotion u)
  let ratio := s.nat (Obj.followRatio m)
  s.reg (Obj.commandedPosition m) +
    (if c < 16 && ratio != 0 then roundDiv (((s.trans u).backupPos - s.extPos c) * 65536) ratio else 0)

/-- The back-up point is left behind: the transport moves there, in position mode, before it restarts (R364). -/
def returnToBackup (u : Nat) (s : State) : State :=
  let m := s.nat (Obj.transportMotion u)
  let dest := s.backupAgain u
  if (s.trans u).state != .held || 16 ≤ m || s.reg (Obj.commandedPosition m) = dest then s
  else
    let s := s.updTrans u fun x => { x with state := .backingUp, since := none, backupTo := dest }
    s.updMotion m fun y => { y with idleHold := false, moveTo := some dest, moveSpeed := s.nat (Obj.backupVelocity u) }

/-- A stream's numbering continues after Hold: T0 of a timer stream, p0 of a position stream that no STOPPABLE transport carries
(R364). -/
def resumeStream (st : Nat) (s : State) : State :=
  let g := s.gen st
  let s := s.setGen st { g with held := false, t0 := if s.nat (Obj.triggerSource st) = 1 then g.t0
                                                     else (s.now : Int) + 4 * s.reg (Obj.freezeLead st) - g.next * s.reg (Obj.linePeriod st) }
  let c := s.nat (Obj.triggerChannel st)
  if s.nat (Obj.triggerSource st) = 1 && decide (c < 16) && !s.stoppable st then
    s.setReg (Obj.triggerBase st) (s.extPos c * 65536 + s.reg (Obj.triggerStartOffset st) - g.next * s.reg (Obj.linePitch st))
  else s

/-- Hold is left for the mode held from: triggers resume, held StreamEnable writes take effect (R364, R774). -/
def exitHold (s : State) : State :=
  let s := (List.range 64).foldl (fun s st => if s.triggering st then resumeStream st s else s) s
  let s := (List.range 16).foldl (fun s u => returnToBackup u s) s
  (List.range 64).foldl (fun s st =>
    let h := (s.strm st).heldOpen
    let s := s.updStrm st fun x => { x with heldOpen := none }
    match h with
    | some true => tryOpen st s
    | some false => closeStream st s
    | none => s) s

/-! ### Degraded (R608, R615, R643, R645) -/

/-- The arbiter's decision for Degraded on a report (R604, R643). -/
def startDegraded (r : FaultReport) (s : State) : State :=
  { s with target := some .degraded, power := { s.power with leftFor := s.mode, degradeDue := none } }.setReg Obj.degradedCause r.word

/-- The modes Degraded is entered from (R604). -/
def Mode.degradable (m : Mode) : Bool := m == .calibrate || m == .idleReady || m == .scan || m == .stream || m == .hold

/-- A mode has been reached in which a report that sustained Degraded, and still holds, enters it again (R608, R615). -/
def degradeAgain (s : State) : State :=
  let due := match s.power.degradeDue with
    | some r => if s.dep.sustain.contains r then some r else s.dep.sustain.getLast?
    | none => s.dep.sustain.getLast?
  match due with
  | some r => if s.target.isNone && s.mode.degradable then startDegraded r s else s
  | none => { s with power := { s.power with degradeDue := none } }

/-- Capacity is restored: the way back to the mode left (R604, R645). -/
def restoreDue (s : State) : State :=
  if s.mode == .degraded && s.target.isNone && s.dep.sustain.isEmpty then { s with target := some s.power.leftFor } else s

/-! ### Entries -/

/-- Rings, page records and edge areas are allocated from the values in effect, behind the calibration region (R413). -/
def allocateRings (s : State) : State :=
  let go := (List.range 64).foldl (fun (t : Table Ring × Nat) st =>
    let a := s.areasOf st
    if a.1 = 0 then t
    else (Table.set {} t.1 st { allocated := true, base := t.2, recordBase := t.2 + a.1, edgeBase := t.2 + a.1 + a.2.1 },
      t.2 + a.1 + a.2.1 + a.2.2)) ([], 402653184)
  { s with rings := go.1 }

/-- M: Configure groups that wait enter, in order of acceptance (R23, R24, R31). -/
def enterWaiting (s : State) : State :=
  (s.groupsWaiting.filter fun g => g.boundary == 0).foldl (fun s g => enterPlain g s) s

/-- Every group is DOWN from entry to Configure (R771). -/
def groupsDown (s : State) : State :=
  (List.range 96).foldl (fun s g => if (s.group g).state == .down then s else s.updGroup g fun x => { x with state := .down }) s

/-- A DOWN group whose lanes all stand, with none to train, is LINKING when Idle-Ready is asked for (R771; DESIGN CHOICE, log entry
99). -/
def groupsLink (s : State) : State :=
  (List.range 96).foldl (fun s g =>
    let ls := (s.lanesOfGroup g).filter fun l => s.idOfLane g l != some 8
    if (s.group g).state == .down && !ls.isEmpty && ls.all fun l => (s.lane l).state != .disabled && (s.lane l).state != .failed
    then s.updGroup g fun x => { x with state := .linking, linkChecked := false } else s) s

/-- What every entry to Configure does (R51, R106, R413, R620, R698, R771): waiting groups enter, link groups are DOWN, the rings go, FAILED lanes train again, seal
blocks count from 0. -/
def configureEntry (s : State) : State :=
  let s := fetchesGone s
  let s := { s with rings := [], sec := { s.sec with sealIndex := 0, hashing := [] },
                    kdps := { s.kdps with ptp := { s.kdps.ptp with stepped := false } } }
  let s := (List.range 64).foldl (fun s st => (List.range 8).foldl (fun s k =>
    s.setReg (Obj.hostMark st k) (Obj.hostMark st k).dflt) s) s
  let s := refreshConfig (unitsFollow (groupsDown (enterWaiting s)))
  let s := domainsFollow .configure s
  let s := (List.range 104).foldl (fun s l =>
    if (s.lane l).state == .disabled && !s.laneIdle l && s.nat (Obj.domainState (l / 4)) == 1
    then s.updLane l fun x => { x with trainDue := true } else s) s
  trainLanes (fun x => x == .failed || x == .disabled) s

/-- Configure is entered from Boot: the repair area is checked, soft repairs apply, the BOOT record is written (R666, R722, R733, R704). -/
def firstConfigure (s : State) : State :=
  let s := applySoft (setStage 6 s)
  let x : PeonySlot := Table.get {} s.sec.slots s.sec.running
  let s := audit 0x01 .device 0 0 0 (leBytes 1 (s.nat Obj.resetCause) ++ leBytes 4 x.version ++ leBytes 1 x.svn) true s
  let t := (s.boot.before + s.now) / 4000
  let s := (setStage 7 s).setReg Obj.bootTimes (s.reg Obj.bootTimes + t * 2 ^ 64)
  watchConditions { s with boot := { s.boot with starting := false } }

/-- Running tests end, and lanes leave TEST (R106, R604). -/
def endTests (s : State) : State :=
  let s := (List.range 104).foldl (fun s l =>
    if (s.lane l).state == .test then
      let v := s.nat (Obj.prbsCtl l)
      endTest l (s.setReg (Obj.prbsCtl l) (putField v 30 2 0 : Nat))
    else s) s
  let s := (List.range 16).foldl (fun s j =>
    if (s.conv j).test.isSome then
      let t := (s.conv j).state == .testing
      let s := s.updConv j fun x => { x with test := none }
      if t then convFree j s.now s else s
    else s) s
  { s with lamps := { s.lamps with testUntil := none } }

/-- Idle-Ready is reached: the first time after a boot, the slot's count of failed boots clears (R732). -/
def noteReached (s : State) : State :=
  if s.boot.reached then s
  else { s with boot := { s.boot with reached := true } }.setReg Obj.bootAttempts (putField (s.nat Obj.bootAttempts) (8 * s.sec.running) 8 0 : Nat)

/-! ### The start of a transition -/

/-- What a request sets going (R604, R607). -/
def startMode (m : Mode) (s : State) : State :=
  match m with
  | .safeHalt => safeHalt 4 false s
  | .hold => if s.mode == .degraded then { s with target := some .hold } else startHold { s with target := some .hold }
  | .idleReady =>
    if s.mode == .configure then
      let s := { applySparedLanes s with target := some .idleReady }
      groupsLink (trainLanes (· == .disabled) (domainsFollow .idleReady (unitsFollow s)))
    else leaveStreams { s with target := some .idleReady }
  | .configure | .maintenance => leaveStreams { s with target := some m }
  | .stream => domainsFollow .stream { s with target := some m }
  | _ => { s with target := some m }

/-- A mode request of a role (R606, R607). -/
def requestMode (role : Nat) (m : Mode) (s : State) : State :=
  match modeError role m s with
  | some _ => s
  | none => startMode m s

/-- MODE_REQUEST_SENTINEL (R606, R618). -/
def execModeRequestSentinel (r : Role) (s : State) : Result := .next (requestMode (roleCode r) .sentinel s)
/-- MODE_REQUEST_CONFIGURE (R606). -/
def execModeRequestConfigure (r : Role) (s : State) : Result := .next (requestMode (roleCode r) .configure s)
/-- MODE_REQUEST_CALIBRATE (R606). -/
def execModeRequestCalibrate (r : Role) (s : State) : Result := .next (requestMode (roleCode r) .calibrate s)
/-- MODE_REQUEST_IDLE_READY (R606, R610, R611). -/
def execModeRequestIdleReady (r : Role) (s : State) : Result := .next (requestMode (roleCode r) .idleReady s)
/-- MODE_REQUEST_SCAN (R606, R613). -/
def execModeRequestScan (r : Role) (s : State) : Result := .next (requestMode (roleCode r) .scan s)
/-- MODE_REQUEST_STREAM (R606, R609, R612). -/
def execModeRequestStream (r : Role) (s : State) : Result := .next (requestMode (roleCode r) .stream s)
/-- MODE_REQUEST_HOLD (R362, R606, R609). -/
def execModeRequestHold (r : Role) (s : State) : Result := .next (requestMode (roleCode r) .hold s)
/-- MODE_REQUEST_MAINTENANCE (R606). -/
def execModeRequestMaintenance (r : Role) (s : State) : Result := .next (requestMode (roleCode r) .maintenance s)
/-- MODE_REQUEST_SAFE_HALT (R606, R607, R616). -/
def execModeRequestSafeHalt (r : Role) (s : State) : Result := .next (requestMode (roleCode r) .safeHalt s)

/-! ### The end of a transition -/

/-- No domain ramps, no lane trains, no bank calibrates: Idle-Ready may be entered from Configure (R605). -/
def State.unitsReady (s : State) : Bool :=
  ((List.range 64).all fun d => s.nat (Obj.domainState d) != 1) &&
    ((List.range 104).all fun l => (s.lane l).state != .training && (s.lane l).state != .aligning) &&
    (List.range 4).all fun b => s.bank b != .calibrating

/-- A transition has what its end needs (R604). -/
def State.transitionReady (s : State) (m : Mode) : Bool :=
  match m with
  | .off | .boot => false
  | .configure => if s.mode == .boot then s.boot.peony else s.allClosed
  | .idleReady => if s.mode == .configure then s.unitsReady else s.mode == .degraded || s.allClosed
  | .stream => s.mode != .idleReady || (List.range 64).all fun d => s.nat (Obj.domainState d) != 1
  | .maintenance => s.allClosed
  | .hold => s.mode == .degraded
  | .sentinel | .calibrate | .scan | .degraded | .safeHalt => true

/-- The cause MODE_CHANGED carries: SafeHaltCause, the kind of the report behind Degraded, otherwise 0 (DESIGN CHOICE, log entry 44). -/
def State.modeCause (s : State) (m : Mode) : Nat :=
  match m with
  | .safeHalt => s.nat Obj.safeHaltCause
  | .degraded => field (s.nat Obj.degradedCause) 40 8
  | _ => 0

/-- What reaching a mode does beyond ModeState (R413, R518, R604, R610, R612). -/
def modeEntry (m from_ : Mode) (s : State) : State :=
  match m with
  | .configure => configureEntry (if from_ == .boot then firstConfigure s else s)
  | .idleReady =>
    let s := if from_ == .configure then allocateRings (refreshConfig s) else if from_ == .maintenance then endTests s else s
    noteReached s
  | .calibrate => if from_ == .idleReady then openHeld ((List.range 16).foldl (fun s j => requestCal j s) s) else s
  | .scan | .stream => if from_ == .idleReady then openHeld s else if from_ == .hold then exitHold s else s
  | _ => s

/-- A transition ends in its mode. -/
def reachMode (m : Mode) (s : State) : State :=
  let from_ := s.mode
  if m == .sentinel then deviceReset 5 s
  else
    let s := modeEntry m from_ (enterMode m (s.modeCause m) s)
    let s := if from_ == .degraded && m == s.power.leftFor then s.raise .degradedRestored [] else s
    degradeAgain (restoreDue (domainsFollow s.mode s))

/-- MODE_TRANSITION_DONE: a transition's work is done: ModeState shows its mode (R604, R607, R608). -/
def execModeTransitionDone (s : State) : Result :=
  .next <| match s.target with
    | some m => if s.transitionReady m then reachMode m s else s
    | none => s

/-- HOLD_ENTRY: every transport is HELD and no entry is deferred: Hold (R362). -/
def execHoldEntry (s : State) : Result :=
  .next <| if s.target == some .hold && s.mode != .degraded && s.holdReady then
      let s := (List.range 64).foldl (fun s st => if s.triggering st then s.updGen st fun g => { g with held := true } else s) s
      reachMode .hold { s with power := { s.power with heldFrom := s.mode } }
    else s

/-! ### StreamEnable (R212, R414, R610, R612, R613, R774) -/

/-- What a StreamEnable write does in a mode: acts at once, is held for the exit from Hold, is held for the next entry, or is
answered with MODE. -/
inductive StreamWrite where
  | now | hold | later | refused
  deriving DecidableEq, Repr

/-- StreamEnable writes by mode; in Degraded as in the mode it was entered from; on the way into Hold as in Hold. -/
def State.streamWrite (s : State) : StreamWrite :=
  match (if s.mode == .degraded then s.power.leftFor else s.mode) with
  | .configure | .idleReady | .maintenance => .later
  | .scan | .calibrate =>
    if s.target == some .hold then .hold else if s.target.isSome && s.target != some .degraded then .later else .now
  | .hold => .hold
  | _ => .refused

/-- The error of a StreamEnable write (R413, R414, R612): MODE, or RANGE where the stream cannot open. -/
def streamWriteError (st : Nat) (v : Bool) (s : State) : Option Nat :=
  match s.streamWrite with
  | .refused => some 0x09
  | .now => if v && !s.streamOpen? st && !s.openable st then some 0x07 else none
  | _ => none

/-- A StreamEnable write carried out; a refused opening over HOLD or HOST marks raises RING_MARKED (R414). -/
def writeStreamEnable (st : Nat) (v : Bool) (s : State) : State :=
  match streamWriteError st v s, s.streamWrite with
  | some 0x07, _ => tryOpen st s
  | some _, _ => s
  | none, .now =>
    let s := s.setReg (Obj.streamEnable st) (b2n v)
    if v then domainsFollow s.mode (tryOpen st s) else closeStream st s
  | none, .hold => (s.setReg (Obj.streamEnable st) (b2n v)).updStrm st fun x => { x with heldOpen := some v }
  | none, _ => s.setReg (Obj.streamEnable st) (b2n v)

/-- STREAM_OPEN: StreamEnable written 1 (R30, R413, R414, R610, R613). -/
def execStreamOpen (st : Fin 64) (s : State) : Result := .next (writeStreamEnable st true s)

/-- STREAM_CLOSE: StreamEnable written 0 (R212, R610, R774). -/
def execStreamClose (st : Fin 64) (s : State) : Result := .next (writeStreamEnable st false s)

end Sys2Proof.Machine
end

