-- ==== Sys2Proof/Machine/Security.lean ====
section
/-! DEFINITION. The security island's services: limited-change objects, keys, zeroisation, page seals, tamper, the debug port and the
sandbox (R673 to R714). Every service comes with the error KDP answers it with; a command applies it only where there is none. -/
namespace Sys2Proof.Machine

/-- The bytes of an ASCII string. -/
def ascii (t : String) : Bytes := t.toList.map fun c => BitVec.ofNat 8 c.toNat

/-- In ERROR, and until its tests have passed, the island offers no service (R673): INTERNAL, with the TAMPER report its failure made
(DESIGN CHOICE, log entry 45). -/
def islandError (s : State) : Option Nat := if s.nat Obj.securityState = 1 then none else some 0x18

/-- A service that needs an audit record is refused with BUSY while the log is full (R705). -/
def recordError (s : State) : Option Nat := (islandError s).or (if s.auditRoom then none else some 0x0A)

/-! ### Zeroisation (R709) -/

/-- Entries that await signing can no longer be signed (R700, R709). -/
def failWaiting (s : State) : State :=
  let all := s.sec.openBlock ++ s.sec.closedBlocks.flatten
  let s := { s with sec := { s.sec with openBlock := [], closedBlocks := [] } }
  all.foldl (fun s e => sealFailed e.stream e.page s) s

/-- Every session but one closes. -/
def closeOthers (keep : Nat) (s : State) : State :=
  (s.kdps.sessions.filter fun x => x.num != keep).foldl (fun s x => closeSession x.num s) s

/-- The keys of a trigger go (R709): 0 Zeroise, 1 tamper, 2 debug port, 3 owner transfer, whose writer keeps its session. ZEROISED
follows once the copies in boot flash are erased. -/
def zeroise (trigger keep : Nat) (s : State) : State :=
  let s := if trigger = 3 then closeOthers keep s else closeOthers 0 s
  let s := match trigger with
    | 2 => { s with sec := { s.sec with withheld := true } }
    | 3 => { s with sec := { s.sec with roleKeys := Table.set [] (Table.set [] s.sec.roleKeys 0 []) 1 [] } }
    | _ => failWaiting { s with sec := { s.sec with attest := none, roleKeys := [], factory := false } }
  let s := if trigger = 1 then { s with sec := { s.sec with identity := false, vendor := false } } else s
  { s with sec := { s.sec with zeroising := s.sec.zeroising ++ [trigger] } }

/-- ZEROISE: a write of 1 to Zeroise (R709). -/
def execZeroise (s : State) : Result := .next (if (islandError s).isSome then s else zeroise 0 0 s)

/-- ZEROISED: the wrapped copies in boot flash are erased: the ZEROISED record with the trigger and the generation destroyed (R704, R709). -/
def execZeroised (s : State) : Result :=
  .next <| match s.sec.zeroising with
    | [] => s
    | t :: rest =>
      let s := { s with sec := { s.sec with zeroising := rest } }
      (audit 0x0C .device 0 0 0 (leBytes 1 t ++ leBytes 2 (s.sec.nextGeneration - 1)) true s).raise .zeroised [t]

/-! ### Tamper (R707 to R710) -/

/-- The response to latched tamper, by TamperState bits: the strongest of the inputs', HALT for a sensor (R707, R708). -/
def State.tamperResponse (s : State) (bits : Nat) : Nat :=
  let of_ := (List.range 4).map fun i => if bitAt bits i then field (s.nat (Obj.tamperConfig i)) 12 2 else 0
  max (maxNat of_) (if field bits 9 3 = 0 then 0 else 2)

/-- The island applies a response: every one writes the TAMPER record; ALARM adds the alarm, HALT Safe Halt, ZEROISE both the tamper
zeroisation and Safe Halt (R708). Only a response that halts is a TAMPER fault report, since every such report halts (R642; DESIGN
CHOICE, log entry 46). -/
def tamperRespond (bits : Nat) (s : State) : State :=
  let resp := s.tamperResponse bits
  let s := audit 0x0B .device 0 0 0 (leBytes 4 bits ++ leBytes 1 resp) true s
  let s := s.raise .tamperDetected [bits, resp] (if 2 ≤ resp then 4 else 0)
  let s := if resp = 3 then zeroise 1 0 s else s
  let s := if 2 ≤ resp then safeHalt 3 false (s.report Kind.tamper 4 bits 2 (islandOf 14 0)) else s
  alarmEval s

/-- TAMPER_DETECTED: enabled inputs, or sensors of the island, count as asserted (R708): latched, and answered, or in Sentinel the way to
Boot is taken and the answer follows the self-test. `sensors` are supply, clock and temperature. -/
def execTamperDetected (inputs : BitVec 4) (sensors : BitVec 8) (s : State) : Result :=
  let on := (List.range 4).filter fun i => inputs.getLsbD i && bitAt (s.nat (Obj.tamperConfig i)) 15
  let bits := sumNat (on.map fun i => 2 ^ i) + 512 * (sensors.toNat % 8)
  .next <| if s.mode == .off || bits = 0 then s
    else
      let s := { s with sec := { s.sec with tamperIn := inputs.toNat } }
      let s := s.setReg Obj.tamperState ((s.nat Obj.tamperState) ||| bits : Nat)
      if s.mode == .sentinel then wakeUp false s
      else if s.mode == .boot && !s.boot.tested then s
      else tamperRespond bits s

/-- TamperClear written 1, with the inputs asserted at that instant (R710). -/
def tamperClear (inputs : Nat) (s : State) : State :=
  let s := { s with sec := { s.sec with tamperIn := inputs } }
  alarmEval (s.setReg Obj.tamperState ((s.nat Obj.tamperState) &&& inputs % 16 : Nat))

/-- TAMPER_CLEAR (R710). -/
def execTamperClear (inputs : BitVec 4) (s : State) : Result := .next (tamperClear inputs.toNat s)

/-! ### Self-test (R673) -/

/-- SelfTestRun written 1: the power-up tests are repeated; no service runs meanwhile (R673). -/
def selfTestRun (s : State) : State := alarmEval (watchConditions (s.setReg Obj.securityState 0))

/-- SELF_TEST_RUN (R673). -/
def execSelfTestRun (s : State) : Result := .next (if (islandError s).isSome then s else selfTestRun s)

/-- SELF_TEST_DONE: the power-up tests end, or the tests a SelfTestRun repeats, or a continuous test fails (R673, R674). -/
def execSelfTestDone (passed : Bool) (s : State) : Result :=
  .next <| if !s.mode.booted || s.nat Obj.securityState = 2 then s
    else if !passed then failWaiting (selfTestFails s)
    else if s.nat Obj.securityState ≠ 0 then s
    else
      let s := s.setReg Obj.securityState 1
      if s.mode == .boot && !s.boot.tested then
        let s := makeAttestation (tellTorn (applyHard (setStage 4 s)))
        let s := { s with boot := { s.boot with tested := true, toTry := s.slotOrder } }
        if s.nat Obj.tamperState = 0 then s else tamperRespond (s.nat Obj.tamperState) s
      else alarmEval (watchConditions s)

/-! ### Keys and services -/

/-- VENDOR_SERVICE_ENABLE: VendorServiceEnable written (R676). -/
def execVendorServiceEnable (v : Bool) (s : State) : Result :=
  .next (if (islandError s).isSome then s else s.setReg Obj.vendorServiceEnable (b2n v))

/-- The error of a RoleKey write (R675, R705): a key is 32 bytes. -/
def roleKeyError (key : Bytes) (s : State) : Option Nat := (recordError s).or (if key.length = 32 then none else some 0x06)
/-- A role key is written, with its audit record (R677, R704). -/
def setRoleKey (a : Actor) (r : Nat) (key : Bytes) (s : State) : State :=
  let s := { s with sec := { s.sec with roleKeys := Table.set [] s.sec.roleKeys r key } }
  audit 0x08 a 0xC010 (r + 1) 0 (leBytes 1 (r + 1) ++ (Config.sha384 key).take 8) false s
/-- ROLE_KEY_SET (R677). -/
def execRoleKeySet (r : Fin 3) (key : Bytes) (s : State) : Result :=
  .next (if (roleKeyError key s).isSome then s else setRoleKey .device r key s)

/-- The key of a role code, 1 to 4 (R677, R678); none where none has been written or the key is destroyed. -/
def State.roleKey (s : State) (role : Nat) : Option Bytes :=
  if role = 4 then (if s.sec.vendor then some Config.vendorKey else none)
  else
    let k := Table.get [] s.sec.roleKeys (role - 1)
    if !k.isEmpty then some k else if role = 3 && s.sec.factory then some Config.factoryKey else none

/-- The error of DebugUnlock (R705, R712): refused while ApprovedModeLock or DebugLock is written. -/
def debugError (s : State) : Option Nat :=
  (recordError s).or (if s.flag Obj.approvedModeLock || s.flag Obj.debugLock then some 0x07 else none)
/-- The debug port opens (R709, R712). -/
def debugUnlock (a : Actor) (s : State) : State :=
  let s := audit 0x0A a 0xC000 8 0 [] false { s with sec := { s.sec with debugOpen := true } }
  zeroise 2 0 s
/-- DEBUG_UNLOCK (R712). -/
def execDebugUnlock (s : State) : Result := .next (if (debugError s).isSome then s else debugUnlock .device s)

/-! ### Limited-change objects (R600, R684 to R690) -/

/-- Writes allowed by index less 0xE000 (R600). -/
def lwAllowed (i : Nat) : Nat :=
  match i with
  | 1 | 2 | 3 => 1
  | 4 => 2
  | 5 => 64
  | 6 => 8
  | 7 => 48
  | _ => 0

/-- Uses consumed. -/
def State.lwUsed (s : State) (i : Nat) : Nat := Table.get 0 s.sec.lwUsed i

/-- What every limited-change write needs (R673, R686, R705): the mode, the audit log, a use left. -/
def lwError (i uses : Nat) (s : State) : Option Nat :=
  if s.mode != .configure && s.mode != .maintenance then some 0x09
  else (recordError s).or (if lwAllowed i < s.lwUsed i + uses then some 0x15 else none)

/-- The record, then the uses (R686). -/
def lwBurn (a : Actor) (i sub uses : Nat) (value : Bytes) (s : State) : State :=
  let s := audit 0x06 a (0xE000 + i) sub 0 (value.take 20) false s
  { s with sec := { s.sec with lwUsed := Table.set 0 s.sec.lwUsed i (s.lwUsed i + uses) } }

/-- NodeAddressLock (R547, R688): in force from the next reset. -/
def nodeLockError (v : Nat) (s : State) : Option Nat := if 1 ≤ v && v ≤ 30 then lwError 1 1 s else some 0x07
def nodeLock (a : Actor) (v : Nat) (s : State) : State := (lwBurn a 1 1 1 (leBytes 1 v) s).setReg Obj.nodeAddressLock v
/-- NODE_ADDRESS_LOCK (R547). -/
def execNodeAddressLock (v : BitVec 8) (s : State) : Result :=
  .next (if (nodeLockError v.toNat s).isSome then s else nodeLock .device v.toNat s)

/-- ApprovedModeLock (R691, R692): accepted only while every condition holds. -/
def approvedError (s : State) : Option Nat := (lwError 2 1 s).or (if s.conditions.all id then none else some 0x07)
def approvedLock (a : Actor) (s : State) : State :=
  let s := (lwBurn a 2 1 1 [1] s).setReg Obj.approvedModeLock 1
  alarmEval (watchConditions (audit 0x09 a 0xE002 1 0 (leBytes 1 (ofBits s.conditions)) false s))
/-- APPROVED_MODE_LOCK (R692). -/
def execApprovedModeLock (s : State) : Result := .next (if (approvedError s).isSome then s else approvedLock .device s)

/-- DebugLock (R712): the port is LOCKED from now on. -/
def debugLock (a : Actor) (s : State) : State :=
  let s := (lwBurn a 3 1 1 [1] s).setReg Obj.debugLock 1
  { s with sec := { s.sec with debugOpen := false } }
/-- DEBUG_LOCK (R712). -/
def execDebugLock (s : State) : Result := .next (if (lwError 3 1 s).isSome then s else debugLock .device s)

/-- OwnerTransferProof carries the present owner's block and its two signatures over the new hash and the serial number (R689). -/
def transferOk (h : Bytes) (s : State) : Bool :=
  let p := s.sec.transferProof
  let block := p.take 2049
  let msg := h ++ Config.serialNumber
  p.length == 5454 && leNat (Config.sha384 block) == s.nat Obj.ownerKeyHash &&
    Config.verifyEc block (Config.sha384 msg) ((p.drop 2049).take 96) &&
    Config.verifyMl block msg (ascii "Owner transfer") (p.drop 2145)

/-- OwnerKeyHash (R689): the first write needs the owner block, the second the transfer's proof. -/
def ownerHashError (h : Bytes) (s : State) : Option Nat :=
  if h.length != 48 then some 0x06
  else (lwError 4 1 s).or
    (if s.lwUsed 4 = 0 then (if s.sec.ownerBlock.length = 2049 then none else some 0x07)
     else if transferOk h s then none else some 0x07)
def ownerHash (a : Actor) (h : Bytes) (s : State) : State :=
  let first := s.lwUsed 4 = 0
  let s := (lwBurn a 4 1 1 h s).setReg Obj.ownerKeyHash (leNat h)
  alarmEval (watchConditions (if first then s else zeroise 3 a.session { s with sec := { s.sec with transferProof := [] } }))
/-- OWNER_KEY_HASH (R689). -/
def execOwnerKeyHash (h : Bytes) (s : State) : Result := .next (if (ownerHashError h s).isSome then s else ownerHash .device h s)

/-- The running Peony's slot. -/
def State.runningSlot (s : State) : PeonySlot := Table.get {} s.sec.slots s.sec.running

/-- AntiRollback (R684): above the present value, at most the running SVN; a use for each step. -/
def rollbackError (v : Nat) (s : State) : Option Nat :=
  if v ≤ s.nat Obj.antiRollback || s.runningSlot.svn < v || 64 < v then some 0x07 else lwError 5 (v - s.nat Obj.antiRollback) s
def rollback (a : Actor) (v : Nat) (s : State) : State :=
  (lwBurn a 5 1 (v - s.nat Obj.antiRollback) (leBytes 1 v) s).setReg Obj.antiRollback v
/-- ANTI_ROLLBACK (R684). -/
def execAntiRollback (v : BitVec 32) (s : State) : Result :=
  .next (if (rollbackError v.toNat s).isSome then s else rollback .device v.toNat s)

/-- ROM keys not revoked. -/
def State.romKeysLeft (s : State) : List Nat := ((List.range 4).map fun i => keyId (Config.romKey i)).filter fun k => !s.revoked k

/-- KeyRevocation (R685, R688): a slot is written once; never the key of the running Peony, the present owner's, or the last ROM key. -/
def revokeError (slot id : Nat) (s : State) : Option Nat :=
  if id = s.runningSlot.key || (s.flag Obj.ownerKeyHash && id = keyId s.sec.ownerBlock) || s.romKeysLeft == [id] then some 0x07
  else (lwError 6 1 s).or (if s.flag (Obj.keyRevocation slot) then some 0x15 else none)
def revoke (a : Actor) (slot id : Nat) (s : State) : State :=
  (lwBurn a 6 (if slot = 0 then 1 else slot + 2) 1 (leBytes 8 id) s).setReg (Obj.keyRevocation slot) id
/-- KEY_REVOCATION (R685). -/
def execKeyRevocation (slot : Fin 8) (id : BitVec 64) (s : State) : Result :=
  .next (if (revokeError slot id.toNat s).isSome then s else revoke .device slot id.toNat s)

/-- The soft record a promotion names: active, of a hard-capable kind (R664, R690). -/
def State.promotable (s : State) (seq : Nat) : Option Repair :=
  s.dep.repairs.find? fun r => r.active && r.seq == seq && decide (r.rkind ≤ 6)

/-- HardRepairPromote (R690). -/
def promoteError (seq : Nat) (s : State) : Option Nat := if (s.promotable seq).isSome then lwError 7 1 s else some 0x07
def promote (a : Actor) (seq : Nat) (s : State) : State :=
  match s.promotable seq with
  | none => s
  | some r =>
    let s := lwBurn a 7 0x32 1 (leBytes 1 seq) s
    let soft := s.dep.repairs.map fun (x : Repair) => if x == r then { x with active := false } else x
    { s with dep := { s.dep with hard := s.dep.hard ++ [{ r with stored := true, clearNext := false }], repairs := soft } }
/-- HARD_REPAIR_PROMOTE (R690). -/
def execHardRepairPromote (seq : BitVec 8) (s : State) : Result :=
  .next (if (promoteError seq.toNat s).isSome then s else promote .device seq.toNat s)

/-! ### Page seals (R693 to R700) -/

/-- Pages of a stream that are to be sealed and are not yet hashed through. -/
def State.toHash (s : State) (st : Nat) : List PageRec :=
  ((s.ring st).records.filterMap Prod.snd).filter fun p => p.toSeal && !p.sealTried

/-- The page of a list that begins first. -/
def earliestPage (ps : List PageRec) : Option PageRec :=
  ps.foldl (fun m p => match m with
    | none => some p
    | some q => if p.firstLine < q.firstLine then some p else m) none

/-- Entries that await signing (R700). -/
def State.awaiting (s : State) : Nat := s.sec.openBlock.length + sumNat (s.sec.closedBlocks.map List.length)

/-- The seal block being filled closes (R699). -/
def closeBlock (s : State) : State :=
  if s.sec.openBlock.isEmpty then s
  else { s with sec := { s.sec with closedBlocks := s.sec.closedBlocks ++ [s.sec.openBlock], openBlock := [] } }

/-- The seal entry of a page (R696, R697): 80 bytes, from its record and its line hashes. -/
def sealEntry (st : Nat) (p : PageRec) (hashes : Bytes) : SealEntry :=
  let prefix_ := leBytes 1 st ++ leBytes 1 p.widthCode ++ leBytes 1 (b2n p.compressed) ++ [0] ++ leBytes 4 p.number ++ leBytes 8 p.firstLine
  let digest := Config.sha384 (prefix_ ++ hashes.take (48 * p.lines))
  let flags := field (leNat (pageBytes st p)) 105 8
  let bytes := digest ++ leBytes 8 p.firstLine ++ leBytes 8 p.firstDt ++ leBytes 4 p.lines ++ leBytes 4 p.dropped ++ leBytes 4 p.number ++
    leBytes 1 st ++ leBytes 1 (128 * b2n p.compressed + p.widthCode) ++ leBytes 1 flags ++ [0]
  ⟨st, p.number, digest, bytes⟩

/-- A page hashed through: its entry joins the open block, or it cannot be sealed (R699, R700). -/
def queueSeal (st : Nat) (p : PageRec) (hashes : Bytes) (s : State) : State :=
  let s := { s with sec := { s.sec with hashing := Table.set none s.sec.hashing st none } }
  if s.nat Obj.securityState = 2 || 4096 ≤ s.awaiting then sealFailed st p.number s
  else
    let s := updRecord st p.number (fun p => { p with sealTried := true }) s
    let since := if s.sec.openBlock.isEmpty then s.now else s.sec.openSince
    let s := { s with sec := { s.sec with openBlock := s.sec.openBlock ++ [sealEntry st p hashes], openSince := since } }
    if 16 ≤ s.sec.openBlock.length then closeBlock s else s

/-- A line of a sealed page was dropped under R417. -/
def State.lineDropped (s : State) (st : Nat) (p : PageRec) (n : Nat) : Bool :=
  p.missing.contains n || (s.ring st).sums.any fun l => l.line == n && !l.written

/-- SEAL_LINE_READ: the seal hash engines read back the next line of a stream's sealed page (R694, R695): hashed, or passed over where it
was dropped; a line overwritten means no seal (R700). Behind the last line of a closed page its entry is queued. -/
def execSealLineRead (st : Fin 64) (s : State) : Result :=
  let work := Table.get none s.sec.hashing st.val
  let pages := s.toHash st
  let page := match work with
    | some w => pages.find? fun (p : PageRec) => p.number == w.number
    | none => earliestPage pages
  .next <| match page with
    | none => { s with sec := { s.sec with hashing := Table.set none s.sec.hashing st.val none } }
    | some p =>
      let w : SealPage := work.getD ⟨p.number, p.firstLine, []⟩
      let here := fun (x : SealPage) (s : State) => { s with sec := { s.sec with hashing := Table.set none s.sec.hashing st.val (some x) } }
      if !p.opened && p.firstLine + p.lines + p.dropped ≤ w.next then queueSeal st p w.hashes s
      else if (s.ring st).pageNext ≤ w.next then s
      else if s.lineDropped st p w.next then here { w with next := w.next + 1 } s
      else match s.slotOf st w.next with
        | none => sealFailed st p.number { s with sec := { s.sec with hashing := Table.set none s.sec.hashing st.val none } }
        | some x =>
          let tag := (List.range 32).map x.byte
          let line := if x.undef.isSome then tag else tag ++ padTo 32 x.bytes
          here { w with next := w.next + 1, hashes := w.hashes ++ (Config.sha384 line).take 48 } s

/-- SEAL_BLOCK_CLOSE: SealMaxDelay after its first entry a block closes (R699). -/
def execSealBlockClose (s : State) : Result :=
  .next <| if s.sec.openSince + ms (s.nat Obj.sealMaxDelay) ≤ s.now then closeBlock s else s

/-- The KEY_ID bytes of the attestation key. -/
def attestKeyBytes (g : Nat) : Bytes := (Config.sha384 (Config.publicBlock 1 g)).take 8

/-- Header, entries and signatures of a seal block (R698). -/
def sealBlock (s : State) (g : Nat) (entries : List SealEntry) (prev : Bytes) : Bytes :=
  let header := leBytes 2 1 ++ leBytes 2 entries.length ++ leBytes 4 s.sec.sealIndex ++ leBytes 8 s.dt ++ attestKeyBytes g ++
    leBytes 1 (b2n s.approved) ++ List.replicate 7 0 ++ prev
  let body := header ++ entries.flatMap SealEntry.bytes
  body ++ Config.signEc 1 g (Config.sha384 body) ++ Config.signMl 1 g body (ascii "Penori seal")

/-- SEAL_ISSUED: the island signs the oldest closed block (R699): block 0 after the SEAL_CHAIN_START record whose CHAIN it carries (R698);
the pages' records take digest and index. -/
def execSealIssued (s : State) : Result :=
  .next <| match s.sec.closedBlocks, s.sec.attest with
    | b :: rest, some g =>
      if s.sec.withheld || s.nat Obj.securityState ≠ 1 || (s.sec.sealIndex = 0 && !s.auditRoom) then s
      else
        let idx := s.sec.sealIndex
        let s := if idx = 0 then audit 0x0F .device 0 0 0 (attestKeyBytes g) false s else s
        let prev := if idx = 0 then s.sec.lastChain else s.sec.prevHash
        let bytes := sealBlock s g b prev
        let s := { s with sec := { s.sec with closedBlocks := rest, blocks := ((idx, bytes) :: s.sec.blocks).take 1024,
                                              sealIndex := idx + 1, prevHash := Config.sha384 bytes } }
        let s := b.foldl (fun s e =>
          updRecord e.stream e.page (fun p => { p with digest := e.digest, sealIndex := idx, sealed := true }) s) s
        (s.setReg Obj.sealLastIndex idx).raise .sealIssued [idx, b.length]
    | _, _ => s

/-! ### Audit acknowledgement (R705) -/

/-- AuditAck names a record the log holds. -/
def auditAckError (seq : Nat) (s : State) : Option Nat := (islandError s).or (if seq < s.sec.auditNext then none else some 0x07)
/-- Records up to SEQ may be overwritten (R705). -/
def auditAck (a : Actor) (seq : Nat) (s : State) : State :=
  let s := { s with sec := { s.sec with auditFloor := max s.sec.auditFloor (seq + 1) } }
  alarmEval (audit 0x10 a 0xC200 5 0 (leBytes 8 seq) false s)
/-- AUDIT_ACK (R705). -/
def execAuditAck (seq : BitVec 64) (s : State) : Result :=
  .next (if (auditAckError seq.toNat s).isSome then s else auditAck .device seq.toNat s)

/-! ### Sandbox (R714) -/

/-- SANDBOX_VIOLATION: an access outside the firewall stops the sandbox core (R714). -/
def execSandboxViolation (s : State) : Result :=
  .next <| if s.nat Obj.sandboxStatus = 1 then (s.setReg Obj.sandboxStatus 2).raise .sandboxViolation [] else s

end Sys2Proof.Machine
end

