-- ==== Sys2Proof/Machine/Confluence.lean ====
section
/-! DEFINITION. The Fault Confluence and the spares: the arbiter's decisions, emergency and planned insertions, wear, the timing
island's copies, repair records, and the close of a trigger record (R19, R20, R33 to R35, R151 to R156, R249, R398, R641 to R668). -/
namespace Sys2Proof.Machine

/-! ### Trigger records (R19, R20) -/

/-- RECORD_CLOSE: the close instant of a trigger record whose line has not arrived complete: LOST, or deferred while a LANE_ID it
awaits is in recovery (R19, R20). -/
def execRecordClose (st : Fin 64) (line : Nat) (s : State) : Result :=
  .next <| match s.recOf st line with
    | none => s
    | some r =>
      if s.now < r.closeAt || !r.parts.any Part.open? then s
      else if s.deferClose r then updRec st line (fun r => { r with deferred := true }) s
      else loseRec r s

/-! ### Lanes (R151 to R156, R103, R659) -/

/-- Kind of the latest report that names a lane as failed. -/
def State.laneFault (s : State) (l : Nat) : Nat :=
  match s.dep.log.reverse.find? fun r => decide (1 ≤ r.kind ∧ r.kind ≤ 3) && r.detail == l with
  | some r => r.kind
  | none => 0

/-- OXBOW_ACK: the failed LANE_ID continues on the spare lane (R152, R154, R771); the insertion is complete (R663, R670). -/
def execOxbowAck (g : Fin 96) (body : BitVec 32) (s : State) : Result :=
  let id := field body.toNat 0 4
  .next <| match (s.group g).oxbow with
    | none => s
    | some (failed, resume) =>
      if failed != id then s
      else
        let spare := s.spareOf g
        let old := s.laneOfId g id
        let plan := (s.lane old).planned
        let s := s.updGroup g fun x =>
          { x with oxbow := none, moved := (id, spare) :: x.moved.filter (fun m => m.1 != id), spareLane := some 255,
                   state := if x.state == .up then .spareInUse else x.state }
        let s := updRx g id (fun q => { q with failedOver := true, lagUntil := some resume }) s
        let s := s.updLane old fun x => { x with retrainPending := true }
        let s := recordRepairAt (s.group g).oxbowAt 7 (b2n plan) old spare (if plan then Kind.wearLane else s.laneFault old) (s.raise .oxbowDone [g, id, spare])
        inserted 0 old spare (b2n plan) s

/-- A switch to a spare lane that fails before its OXBOW_ACK is given up: there is no further spare in the group (R155, R658). -/
def abandonOxbow (g : Nat) (s : State) : State :=
  match (s.group g).oxbow with
  | none => s
  | some (id, _) =>
    let old := s.laneOfId g id
    let s := s.updGroup g fun x => { x with oxbow := none, spareFor := 15 }
    let s := s.updLane old fun x => { x with retrainPending := true, planned := false }
    s.raiseFault .oxbowNoSpare [g, old] Kind.oxbowNoSpare 3 old 1 (islandOf 2 old)

/-- A failed lane: the Oxbow switch to a ready spare, or a retraining at the next page gap (R103, R151, R155, R652). Answers whether
the unit had its spare. -/
def laneFails (l : Nat) (spare : Bool) (s : State) : State × Bool :=
  match s.groupOfLane l with
  | none => (s.updLane l fun x => { x with retrainPending := true }, true)
  | some g =>
    match s.idOfLane g l with
    | none => (s.updLane l fun x => { x with retrainPending := true }, true)
    | some id =>
      if id = 8 then
        let s := (s.updGroup g fun x => { x with spareReady := false }).updLane l fun x => { x with retrainPending := true }
        if (s.group g).oxbow.isSome then (abandonOxbow g s, false) else (s, true)
      else if ((s.group g).oxbow.map Prod.fst) == some id then (s, true)
      else if spare && s.spareReady g then (sendOxbow g id (countInsertion 0 s), true)
      else
        let s := s.updLane l fun x => { x with retrainPending := true }
        (if spare then s.raiseFault .oxbowNoSpare [g, l] Kind.oxbowNoSpare 3 l 1 (islandOf 2 l) else s, false)

/-! ### Slices (R249 to R251, R659) -/

/-- A segment put before a slice's other work (R249). -/
def Slice.first (x : Slice) (g : Segment) : Slice := ({ x with replay := x.replay ++ [g] } : Slice).begin

/-- The active slice with the fewest queued pixels (R249). -/
def State.leastLoaded (s : State) : Option Nat :=
  let queued := fun (k : Nat) => sumNat ((s.slice k).waits.map fun (g : Segment) => g.pixels.length)
  ((List.range 68).filter fun k => (s.slice k).deals).foldl (fun b k => match b with
    | none => some k
    | some j => if queued k < queued j then some k else some j) none

/-- A replayed segment's line carries REPAIRED (R21, R250). -/
def replayMark (g : Segment) (s : State) : State :=
  (updRec g.stream g.line (fun r => { r with repaired := true }) s).count Obj.segmentReplays

/-- A faulted slice: its segment is replayed on a spare bound to its port, or on an active slice, and it runs its test; with SPARE
clear it is out of use and the segment's line is lost (R249, R251, R644). -/
def sliceFails (k : Nat) (spare : Bool) (s : State) : State × Bool :=
  let x := s.slice k
  if !x.faulted || x.state == .failed then (s, true)
  else
    let seg := x.current.map fun (g : Segment) => { g with replays := g.replays + 1 }
    let port := x.boundTo.getD k
    let s := s.updSlice k fun x => { x with state := .testing, current := none, boundTo := none, inserted := false,
                                            awaits := seg.map fun g => (g.stream, g.line, g.first) }
    let lose := fun (s : State) => match seg with
      | some g => loseLine g.stream g.line s
      | none => s
    if !spare then
      let s := lose (recordRepair 1 0 k 0 Kind.sliceResidue (s.updSlice k fun x => { x with state := .failed, faulted := false }))
      (notePools (s.setReg Obj.slicesActive (s.nat Obj.slicesActive - 1 : Nat)), false)
    else match (s.warmSlices ++ s.spareSlices).head? with
      | some j =>
        let s := (recordRepair 1 0 k j Kind.sliceResidue (countInsertion 0 s)).updSlice j fun x => { x with state := .active, boundTo := some port, inserted := seg.isNone }
        match seg with
        | some g => (replayMark g (s.updSlice j fun x => x.first g), true)
        | none => (inserted 1 port j 0 s, true)
      | none =>
        let s := recordRepair 1 0 k 0 Kind.sliceResidue s
        match seg, s.leastLoaded with
        | some g, some j => (replayMark g (s.updSlice j fun x => x.first g), false)
        | _, _ => (lose s, false)

/-- A planned retirement decided at `dt` (R659): the spare joins the pool for good, the worn slice is dealt nothing more and leaves once its queue is
done. -/
def retirePlanned (dt k j fault : Nat) (s : State) : State :=
  let x := s.slice k
  let idle := x.current.isNone && x.waits.isEmpty
  let s := s.updSlice j fun y => { y with state := .active, permanent := true }
  let s := s.updSlice k fun y => if idle then { y with state := .failed, worn := false } else { y with worn := true }
  inserted 1 k j 1 (countInsertion 1 (recordRepairAt dt 1 1 k j fault s))

/-! ### Channels, switch segments, lamps (R398, R653, R654) -/

/-- A reservoir channel, 16 × stack + channel, is marked failed, as decided at `dt` (R653). -/
def markChannel (dt i origin fault : Nat) (s : State) : State :=
  let s := s.setReg Obj.channelFailed ((s.nat Obj.channelFailed) ||| 2 ^ i : Nat)
  inserted (2 + i / 16) i 0 origin (countInsertion origin (recordRepairAt dt 3 origin i 0 fault s))

/-- A reservoir channel fails (R653): the stack's parity covers the first; with SPARE clear the channel is out of use and what lies on
it is lost (R644). -/
def channelFails (i : Nat) (spare : Bool) (s : State) : State × Bool :=
  if bitAt (s.nat Obj.channelFailed) i || s.dep.channelsOut.contains i then (s, true)
  else if !spare then
    (recordRepair 3 0 i 0 Kind.reservoirChannel { s with dep := { s.dep with channelsOut := s.dep.channelsOut ++ [i] } }, false)
  else if s.failedCount (i / 16) = 0 then (markChannel s.dt i 0 Kind.reservoirChannel s, true)
  else
    let s := s.setReg Obj.channelFailed ((s.nat Obj.channelFailed) ||| 2 ^ i : Nat)
    (recordRepair 3 0 i 0 Kind.reservoirChannel s, false)

/-- The switch of a domain. -/
def State.switch (s : State) (d : Nat) : DomainSwitch := Table.get {} s.dep.switches d

/-- A switch segment is opened, a spare one closed first; a switch without a spare goes on with what it has, once, and then its domain
fails (R654, R669). DETAIL is domain + 256 × segment. -/
def segmentFails (detail : Nat) (spare : Bool) (s : State) : State × Bool :=
  let d := detail % 256
  let seg := detail / 256
  let x := s.switch d
  if x.opened.contains seg then (s, true)
  else
    let y := { x with opened := x.opened ++ [seg], spares := if spare then x.spares - 1 else x.spares }
    let s := { s with dep := { s.dep with switches := Table.set {} s.dep.switches d y } }
    if spare && x.spares ≠ 0 then
      (inserted 6 d (32 - x.spares) 0 (countInsertion 0 (recordRepair 4 0 d (32 - x.spares) Kind.switchSegment s)), true)
    else if 3 ≤ x.opened.length && s.nat (Obj.domainState d) = 2 then
      let s := domainDown d ((flushDomain d s).setReg (Obj.domainState d) 3)
      (s.raiseFault .domainFault [d] Kind.domainFault 3 d 2 (islandOf 15 0), false)
    else (recordRepair 4 0 d 0 Kind.switchSegment s, false)

/-- A crosspoint has failed: the lift by its neighbours is decided (R398). -/
def crosspointFails (i kind : Nat) (spare : Bool) (s : State) : State × Bool :=
  let s := recordRepair 8 0 i 0 kind s
  if spare then ({ countInsertion 0 s with lamps := { s.lamps with liftsDue := s.lamps.liftsDue ++ [i] } }, true) else (s, false)

/-- LAMP_LIFT: the lift decided for a failed crosspoint enters at the next phase cycle of every stream that names its band; outcome 0
full, 1 capped, 2 no usable neighbour (R398, R399). -/
def execLampLift (b : Fin 16) (col : Fin 64) (s : State) : Result :=
  let i := xpIndex b col
  .next <| if !s.lamps.liftsDue.contains i then s
    else
      let s := { s with lamps := { s.lamps with liftsDue := s.lamps.liftsDue.filter (· != i) } }
      let ns' := s.liftable b col
      let firsts := (s.streamsNaming b).map fun st => (st, s.nextCycleLine st)
      let k := if ns'.length = 1 then 2 else 1
      let s := ns'.foldl (fun s n => s.updXpoint (xpIndex b n) fun x => { x with lifts := x.lifts + k, liftFrom := firsts }) s
      let capped := ns'.any fun n =>
        (liftedCode (fullCode (s.nat (Obj.bandFullScale b)) (Table.get 32768 s.lamps.trim (xpIndex b n)))
          (s.xpoint (xpIndex b n)).lifts (s.nat Obj.liftPct)).2
      let outcome := if ns'.isEmpty then 2 else if capped then 1 else 0
      let args : List Int := (i : Int) :: (outcome : Int) :: firsts.flatMap fun f => [(f.1 : Int), (f.2 : Int)]
      let s := s.raise .lampLift args (if outcome = 2 then 3 else 0)
      match ns' with
      | [] => s.report Kind.lampLift 3 i 0 (islandOf 0 0)
      | n :: _ => inserted 5 i (xpIndex b n) 0 s

/-! ### The handlers of the kinds (R640, R655, R656) -/

/-- A planned insertion decided (R656). -/
def plan (kind unit : Nat) (s : State) : State :=
  if s.dep.planned.any fun p => p.kind == kind && p.unit == unit then s
  else { s with dep := { s.dep with planned := s.dep.planned ++ [⟨kind, unit, s.now⟩] } }

/-- The planned insertion of a unit is cancelled (R658). -/
def unplan (kind unit : Nat) (s : State) : State :=
  { s with dep := { s.dep with planned := s.dep.planned.filter fun p => !(p.kind == kind && p.unit == unit) } }

/-- A lane has a LANE_ID and its group a ready spare. -/
def State.laneSpared (s : State) (l : Nat) : Bool :=
  match s.groupOfLane l with
  | none => false
  | some g => (s.idOfLane g l).any (· != 8) && s.spareReady g

/-- A planned insertion that a wear report asks for can be carried out (R660). -/
def State.plannable (s : State) (kind unit : Nat) : Bool :=
  if kind = Kind.wearLane then s.laneSpared unit
  else if kind = Kind.wearSlice then (s.slice unit).state != .failed && !s.spareSlices.isEmpty
  else if kind = Kind.wearAgeing then decide (26 ≤ unit ∧ unit < 42) && s.spareSlices.length == 4
  else kind == Kind.wearDram && decide (unit < 0x100) && s.failedCount (unit / 16) == 0

/-- What the arbiter does about the unit a report names, with SPARE of its policy; whether the unit had its spare (R643, R655). -/
def handle (r : FaultReport) (spare : Bool) (s : State) : State × Bool :=
  let u := r.detail
  if 1 ≤ r.kind ∧ r.kind ≤ 3 then laneFails u spare (unplan Kind.wearLane u s)
  else if r.kind = Kind.sliceResidue then sliceFails u spare (unplan Kind.wearSlice u s)
  else if r.kind = Kind.coefUncorrectable then
    if !spare then (s, false)
    else if (s.coefRow u).remapped && (s.coefRow u).bad then (s, true)
    else (mapCoefRow u 0 s, decide (s.rowsLeft (u % 64) ≠ 0))
  else if r.kind = Kind.switchSegment then segmentFails u spare s
  else if r.kind = Kind.reservoirChannel then channelFails u spare (unplan Kind.wearDram u s)
  else if r.kind = Kind.tmrDisagree then (s, s.dep.retiredCopy.isNone)
  else if r.kind = Kind.lockstepMismatch then (s, true)
  else if 0x38 ≤ r.kind ∧ r.kind ≤ 0x3A then crosspointFails u r.kind spare s
  else if 0x60 ≤ r.kind ∧ r.kind ≤ 0x64 then
    if spare && s.plannable r.kind u then (plan r.kind u s, true) else (s, r.kind == Kind.wearLamp)
  else (s, true)

/-! ### Decisions (R33 to R35, R641 to R645) -/

/-- An insertion runs in the pool a report needs, so it waits (R35); a report that names the unit just being inserted does not. -/
def State.poolBusy (s : State) (r : FaultReport) : Bool :=
  match poolOf r.kind r.detail with
  | some 0 => ((List.range 96).any fun g => (s.group g).oxbow.isSome) &&
      !((s.groupOfLane r.detail).any fun g => (s.group g).oxbow.isSome && s.idOfLane g r.detail == some 8)
  | some 1 => ((List.range 68).any fun k => (s.slice k).boundTo.isSome && !(s.slice k).inserted) &&
      !((s.slice r.detail).boundTo.isSome && !(s.slice r.detail).inserted)
  | some 5 => !s.lamps.liftsDue.isEmpty
  | _ => false

/-- A report comes before another: higher SEVERITY, then earlier DT, then lower ISLAND (R34). -/
def FaultReport.before (a b : FaultReport) : Bool :=
  if a.severity ≠ b.severity then decide (b.severity < a.severity)
  else if a.dt ≠ b.dt then decide (a.dt < b.dt)
  else decide (a.island < b.island)

/-- The report to be decided next (R34, R35): among equals the one that came first. -/
def State.nextReport (s : State) : Option FaultReport :=
  (s.reports.filter fun r => !(s.policy r.kind 12 && s.poolBusy r)).foldl (fun b r => match b with
    | none => some r
    | some x => if r.before x then some r else some x) none

/-- A report leads to Safe Halt (R642); rail 7 never does by policy (R625, R640). -/
def State.halting (s : State) (r : FaultReport) : Bool :=
  if r.kind = Kind.railFault then r.severity == 4 || decide (r.detail ≤ 6)
  else r.severity == 4 || r.kind == Kind.thermalShutdown || r.kind == Kind.tamper || s.policy r.kind 15

/-- SafeHaltCause of a report (R636). -/
def FaultReport.haltCause (r : FaultReport) : Nat :=
  if r.kind = Kind.thermalShutdown then 2 else if r.kind = Kind.tamper then 3 else if r.kind = Kind.railFault then 5 else 1

/-- A transport is named by a report (R644). -/
def State.names (s : State) (r : FaultReport) (u : Nat) : Bool :=
  if r.kind = Kind.posWireFault then s.nat (Obj.transportChannel u) == r.detail % 256
  else if r.kind = Kind.motionFollowError then s.nat (Obj.transportMotion u) == r.detail % 256
  else true

/-- STOP_TRANSPORTS (R644). -/
def stopTransports (r : FaultReport) (s : State) : State :=
  ((List.range 16).filter fun u => s.nat (Obj.transportKind u) != 0 && s.names r u).foldl (fun s u =>
    let m := s.nat (Obj.transportMotion u)
    transFault u (if m < 16 then motQuickStop m s else s)) s

/-- A report causes or sustains Degraded (R608, R643). -/
def sustain (r : FaultReport) (s : State) : State :=
  let s := { s with dep := { s.dep with sustain := s.dep.sustain ++ [r] } }
  if !s.mode.degradable then s
  else if s.target.isNone then startDegraded r s
  else { s with power := { s.power with degradeDue := some (s.power.degradeDue.getD r) } }

/-- A report that sustained Degraded is cleared: its unit replaced, back in service, or out of use by commit (R645). -/
def State.cleared (s : State) (r : FaultReport) : Bool :=
  let u := r.detail
  if (1 ≤ r.kind ∧ r.kind ≤ 4) ∨ r.kind = Kind.oxbowNoSpare then
    !s.flag (Obj.laneEnable u) || (s.lane u).state == .active ||
      match s.groupOfLane u with
      | none => true
      | some g => s.idOfLane g u == none || s.idOfLane g u == some 8
  else if r.kind = Kind.sliceResidue then
    (s.slice u).state == .active || (List.range 68).any fun j => (s.slice j).boundTo == some u
  else if r.kind = Kind.coefUncorrectable then (s.coefRow u).remapped || decide (s.coefRowsUsed ≤ u)
  else if r.kind = Kind.domainFault then s.nat (Obj.domainState u) != 3
  else if r.kind = Kind.vadcCalFail then s.bank u == .ready || s.bank u == .off
  else if r.kind = Kind.lampLift then
    !(s.xpoint u).failed || !s.flag (Obj.bandEnable (u / 64)) || !s.populated (u / 64) (u % 64)
  else if r.kind = Kind.reservoirLost then !(s.ring u).allocated
  else false

/-- Reports that have cleared no longer sustain Degraded; with none left it is left (R645). -/
def reviewSustain (s : State) : State :=
  restoreDue { s with dep := { s.dep with sustain := s.dep.sustain.filter fun r => !s.cleared r } }

/-- The decision on one report (R641 to R644) and its action message (R33): bits 0 SPARE, 1 STOP_TRANSPORTS, 2 DEGRADE, 3 SAFE_HALT. -/
def decide_ (r : FaultReport) (s : State) : State :=
  if s.bootStuck then s
  else if s.halting r then
    safeHalt r.haltCause (r.kind == Kind.tmrDisagree) (s.emit (.action r.kind 8 r.detail))
  else
    let stop := s.policy r.kind 13
    let spare := s.policy r.kind 12
    let s := if stop then stopTransports r s else s
    let h := handle r spare s
    let degrade := s.policy r.kind 14 && (r.severity == 3 || (spare && !h.2))
    let s := h.1.emit (.action r.kind (b2n spare + 2 * b2n stop + 4 * b2n degrade) r.detail)
    notePools (if degrade then sustain r s else s)

/-- ARBITER_DECISION: the arbiter takes the pending report that comes first (R33 to R35), and looks whether Degraded can be left
(R645). -/
def execArbiterDecision (s : State) : Result :=
  .next <| reviewSustain <| match s.nextReport with
    | none => s
    | some r => decide_ r { s with reports := s.reports.erase r }

/-! ### Planned insertions (R656 to R659) -/

/-- A stream is at a page gap or a FIXED page boundary (R656). -/
def State.atGap (s : State) (st : Nat) : Bool := s.pageGap st || (s.nat (Obj.pageMode st) == 0 && s.boundaryAt st 1)

/-- The instant a planned insertion waits for has come (R656). -/
def State.plannedGap (s : State) (p : Planned) : Bool :=
  if p.kind = Kind.wearLane then
    match s.streamOfLane p.unit with
    | some st => !s.streamOpen? st || s.atGap st
    | none => true
  else
    let running := (List.range 64).filter s.streamOpen?
    running.isEmpty || running.any s.atGap

/-- A planned insertion's pool is free (R35, R657). -/
def State.plannedFree (s : State) (p : Planned) : Bool :=
  if p.kind = Kind.wearLane then !(List.range 96).any fun g => (s.group g).oxbow.isSome
  else if p.kind = Kind.wearDram then true
  else !(List.range 68).any fun k => (s.slice k).boundTo.isSome && !(s.slice k).inserted

/-- A planned insertion carried out, or dropped where its unit or its spare is gone (R656, R659, R660). -/
def runPlanned (p : Planned) (s : State) : State :=
  let s := unplan p.kind p.unit s
  if !s.plannable p.kind p.unit then s
  else if p.kind = Kind.wearLane then
    match s.groupOfLane p.unit with
    | none => s
    | some g =>
      let s := sendOxbow g ((s.idOfLane g p.unit).getD 0) (countInsertion 1 (s.updLane p.unit fun x => { x with planned := true }))
      s.updGroup g fun x => { x with oxbowAt := p.since / 4 }
  else if p.kind = Kind.wearSlice then
    match s.spareSlices.head? with
    | some j => if (s.slice p.unit).state == .active then retirePlanned (p.since / 4) p.unit j Kind.wearSlice s else s
    | none => s
  else if p.kind = Kind.wearAgeing then
    (List.range 4).foldl (fun s i =>
      let k := 4 * (p.unit - 26) + i
      match s.spareSlices.head? with
      | some j => if (s.slice k).state == .active then retirePlanned (p.since / 4) k j Kind.wearAgeing s else s
      | none => s) s
  else markChannel (p.since / 4) p.unit 1 Kind.wearDram s

/-- PLANNED_INSERTION: a planned insertion whose page gap has come runs (R656). -/
def execPlannedInsertion (s : State) : Result :=
  .next <| match s.dep.planned.find? fun p => s.plannedGap p && s.plannedFree p with
    | none => s
    | some p => runPlanned p s

/-- PLANNED_WAIT_EXPIRE: no gap within PlannedWaitMax: the insertion runs at the end of that time (R656). -/
def execPlannedWaitExpire (s : State) : Result :=
  .next <| match s.dep.planned.find? fun p => decide (p.since + ms (s.nat Obj.plannedWaitMax) ≤ s.now) && s.plannedFree p with
    | none => s
    | some p => runPlanned p s

/-! ### The timing island (R646 to R648) -/

/-- Resynchronisations of the last hour. -/
def State.recentResyncs (s : State) : List (Nat × Nat) := s.dep.resyncs.filter fun p => decide (s.now < p.2 + ms 3600000)

/-- A copy is retired: recorded, and reported DEGRADED (R647). -/
def retireCopy (copy : Nat) (s : State) : State :=
  let t := { s with dep := { s.dep with retiredCopy := some copy, resyncs := s.recentResyncs } }.setReg Obj.tmrState 2
  notePools ((recordRepair 6 0 copy 0 Kind.tmrDisagree t).report Kind.tmrDisagree 2 copy 0 (islandOf 0 0))

/-- A copy is resynchronised, and reported DEGRADED (R646). -/
def resyncCopy (copy : Nat) (s : State) : State :=
  let t := { s with dep := { s.dep with resync := some copy, resyncs := s.recentResyncs ++ [(copy, s.now)] } }.setReg Obj.tmrState 1
  t.report Kind.tmrDisagree 2 copy 0 (islandOf 0 0)

/-- TMR_DISAGREE: a copy disagrees with the other two: it is resynchronised, or retired the third time within 1 h; among two copies a
disagreement leads to Safe Halt (R646 to R648). -/
def execTmrDisagree (copy : Fin 3) (s : State) : Result :=
  .next <| if s.dep.resync == some copy.val || s.dep.retiredCopy == some copy.val then s
    else if s.dep.resync.isSome || s.dep.retiredCopy.isSome then
      safeHalt 1 true (s.report Kind.tmrDisagree 4 copy 0 (islandOf 0 0))
    else if 2 ≤ (s.recentResyncs.filter fun p => p.1 == copy.val).length then retireCopy copy s
    else resyncCopy copy s

/-- TMR_RESYNC_DONE: the copy votes again (R646). -/
def execTmrResyncDone (s : State) : Result :=
  .next <| if s.dep.resync.isNone then s else { s with dep := { s.dep with resync := none } }.setReg Obj.tmrState 0

/-! ### Detection of failing units (R652 to R654) -/

/-- RESERVOIR_CHANNEL: a channel gives 16 uncorrectable units within 1 s, or fails its interface training (R653). -/
def execReservoirChannel (stack : Fin 2) (ch : Fin 16) (s : State) : Result :=
  let i := 16 * stack.val + ch.val
  .next <| if (Config.oneStack && stack = 1) || bitAt (s.nat Obj.channelFailed) i then s
    else s.report Kind.reservoirChannel 2 i 1 (islandOf 5 stack)

/-- Closed segments of a switch: 30 of the 32, the spares in use for those opened. -/
def DomainSwitch.closed (x : DomainSwitch) : List Nat := (List.range (32 - x.spares)).filter fun i => !x.opened.contains i

/-- The runs of checks in which each closed segment of a domain lay more than 20 % off the median drop, this check counted, up to 17
(R654). -/
def State.segmentRuns (s : State) (d : Nat) (drops : List Nat) : List (Nat × Nat) :=
  let x := s.switch d
  let med := medianNat (x.closed.filterMap fun i => drops[i]?)
  let far := fun (i : Nat) => match drops[i]? with
    | some v => decide (med < 5 * (v - med) ∨ med < 5 * (med - v))
    | none => false
  x.closed.map fun i => (i, if far i then min (Table.get 0 x.runs i + 1) 17 else 0)

/-- SWITCH_SEGMENT_CHECK: every 1 ms the drops of an ON domain's segments against their median (R654): the 16th deviation in a row is
reported. `drops` gives each segment's drop. -/
def execSwitchSegmentCheck (d : Fin 64) (drops : List Nat) (s : State) : Result :=
  if s.nat (Obj.domainState d) ≠ 2 || !s.loopDue 6 d (ms 1) then .next s else
  let s := s.loopRan 6 d
  let x := s.switch d
  let runs := s.segmentRuns d drops
  let s := { s with dep := { s.dep with switches := Table.set {} s.dep.switches d
                                          { x with runs := runs.foldl (fun t p => Table.set 0 t p.1 p.2) x.runs } } }
  .next <| (runs.filter fun p => p.2 == 16).foldl (fun s p =>
    s.report Kind.switchSegment 2 (d.val + 256 * p.1) 2 (islandOf 15 0)) s

/-- SPARE_TEST: the periodic test of a warm spare slice ends (R652): one that fails is FAILED. -/
def execSpareTest (k : Fin 68) (pass : Bool) (s : State) : Result :=
  .next <| if (s.slice k).state != .spareWarm || !s.loopDue 7 k (ms (s.nat Obj.spareTestPeriod)) then s
    else if pass then s.loopRan 7 k
    else
      let s := s.loopRan 7 k
      let s := recordRepair 1 0 k 0 Kind.spareTestFail (s.updSlice k fun x => { x with state := .failed })
      notePools (s.report Kind.spareTestFail 2 k 1 (islandOf 3 k))

/-! ### Wear (R660, R661) -/

/-- Sums over hourly minima, newest first: n, Σx, Σy, Σx², Σxy with x the hours before now, negative. -/
def fitSums (ys : List Nat) : Int × Int × Int × Int × Int :=
  ys.zipIdx.foldl (fun a p =>
    let x : Int := -(p.2 : Nat)
    (a.1 + 1, a.2.1 + x, a.2.2.1 + p.1, a.2.2.2.1 + x * x, a.2.2.2.2 + x * p.1)) (0, 0, 0, 0, 0)

/-- The time from now at which the least-squares line reaches a margin, as numerator and denominator in hours; none for a line with
slope zero or positive, or with fewer than 24 minima (R661). -/
def laneHorizon (ys : List Nat) (fail : Nat) : Option (Int × Int) :=
  let a := fitSums ys
  let up := a.1 * a.2.2.2.2 - a.2.1 * a.2.2.1
  let down := a.1 * a.2.2.2.1 - a.2.1 * a.2.1
  if a.1 < 24 || 0 ≤ up then none
  else some (a.2.2.1 * down - up * a.2.1 - (fail : Int) * a.1 * down, a.1 * (-up))

/-- A lane's hour ends: its minimum is kept, and WEAR_LANE evaluated (R660, R661). -/
def laneHour (s : State) (l : Nat) : State :=
  let x := s.lane l
  match x.state, x.hourMin with
  | .active, some m =>
    let ys := (m :: x.hourly).take 168
    let s := s.updLane l fun x => { x with hourMin := none, hourly := ys }
    let past := match laneHorizon ys (s.nat Obj.eyeMarginFail) with
      | some h => decide (h.1 < (s.nat Obj.laneWearHorizon : Int) * h.2)
      | none => false
    wearCheck 0 l past s
  | _, _ => s

/-- A band's hour ends: its mean, and WEAR_LAMP against the value at the last completed DERIVE (R660). -/
def bandHour (s : State) (b : Nat) : State :=
  let a := Table.get (0, 0) s.dep.lampAcc b
  if a.2 = 0 then s
  else
    let mean := a.1 / a.2
    let ref := Table.get 0 s.dep.lampRef b
    let s := { s with dep := { s.dep with lampMean := Table.set 0 s.dep.lampMean b mean } }
    wearCheck 3 b (ref != 0 && decide (ref * (100 + s.nat Obj.lampWearPct) ≤ mean * 100)) s

/-- Every lane's hourly measure (R660, R661). -/
def takeLanes (s : State) : State := (List.range 104).foldl laneHour s

/-- The ageing drifts sampled, each against its limit (R660). -/
def takeAged (m : WearSample) (s : State) : State :=
  m.aged.foldl (fun s p =>
    wearCheck 2 p.1 (decide (s.nat Obj.ageingDriftLimit ≤ p.2)) { s with dep := { s.dep with aged := Table.set 0 s.dep.aged p.1 p.2 } }) s

/-- The corrected errors of the reservoir's banks, counted (R406) and each against its limit (R660). -/
def takeDram (m : WearSample) (s : State) : State :=
  m.dram.foldl (fun s p =>
    let i := 16 * p.1.val + p.2.1.val
    let s := s.count Obj.reservoirCorrected p.2.2
    wearCheck 4 i (decide (s.nat Obj.dramWearRate ≤ p.2.2))
      { s with dep := { s.dep with dramErrors := Table.set 0 s.dep.dramErrors i p.2.2 } }) s

/-- The hour's mean of every lamp band, at the end of the hour in which something was measured (R660). -/
def takeBands (s : State) : State :=
  if s.dep.lampAcc.isEmpty || s.now < s.dep.hourSince + ms 3600000 then s
  else
    let s := (List.range 16).foldl bandHour s
    { s with dep := { s.dep with lampAcc := [], hourSince := s.now } }

/-- WEAR_EVAL: the hourly evaluation of the wear indicators (R660); the hour's corrected units join ReservoirCorrected (R406). -/
def execWearEval (m : WearSample) (s : State) : Result := .next (takeBands (takeDram m (takeAged m (takeLanes s))))

/-! ### Repair records (R665, R668) -/

/-- Index of the oldest record that a test picks. -/
def oldestRecord (test : Repair → Bool) (rs : List Repair) : Option Nat := rs.findIdx? test

/-- One soft record goes to the repair area: into free room, over the oldest inactive record, or nowhere (R665). -/
def storeRecord (s : State) : State :=
  match oldestRecord (fun r => !r.stored && !r.unkept) s.dep.repairs with
  | none => s
  | some i =>
    let put := fun (f : Repair → Repair) (rs : List Repair) => rs.zipIdx.map fun p => if p.2 = i then f p.1 else p.1
    let keep := fun (r : Repair) => { r with stored := true }
    if (s.dep.repairs.filter Repair.stored).length < 256 then { s with dep := { s.dep with repairs := put keep s.dep.repairs } }
    else match oldestRecord (fun r => r.stored && !r.active) s.dep.repairs with
      | some j => { s with dep := { s.dep with repairs := (put keep s.dep.repairs).eraseIdx j } }
      | none =>
        { s with dep := { s.dep with repairs := put (fun r => { r with unkept := true }) s.dep.repairs } }.raise .repairAreaFull []

/-- REPAIR_RECORD_WRITE: every soft record decided goes to boot flash (R665). -/
def execRepairRecordWrite (s : State) : Result :=
  .next (s.dep.repairs.foldl (fun s (_ : Repair) => storeRecord s) s)

/-- RepairClear (R668): a record's SEQ, or 0xFFFF for every soft record; other values are out of range. -/
def repairClearOk (v : Nat) : Bool := decide (v ≤ 255 ∨ v = 0xFFFF)

/-- A RepairClear write carried out: inactive from the next reset (R668). -/
def clearRepairs (v : Nat) (s : State) : State :=
  if !repairClearOk v then s
  else { s with dep := { s.dep with repairs := s.dep.repairs.map fun (r : Repair) =>
                                    if v = 0xFFFF || r.seq = v then { r with clearNext := true } else r } }

/-- REPAIR_CLEAR: a write to RepairClear (R668). -/
def execRepairClear (v : BitVec 16) (s : State) : Result := .next (clearRepairs v.toNat s)

end Sys2Proof.Machine
end

