-- ==== Sys2Proof/Machine/Flags.lean ====
section
/-! DEFINITION. The status words the dictionary reports: every field table of the chapters whose value follows from the state (R47,
R122, R172, R202, R254, R282, R332, R366, R403, R445, R460, R539, R598 and the object tables), and what a read clears. -/
namespace Sys2Proof.Machine

/-! ### Units of the planes -/

/-- QueueStatus of a queue (R47). -/
def State.queueStatus (s : State) (q : Nat) : Nat :=
  let x := s.queue q
  let d := Config.queueDepth q
  pack [(30, 2, if x.resetting then 2 else b2n x.draining), (29, 1, b2n x.weir), (28, 1, b2n (decide (d ≤ x.fill))), (27, 1, b2n x.items.isEmpty),
    (26, 1, b2n x.ptrFault), (16, 8, x.fill), (8, 8, d), (0, 8, if (queueInfo q).2.2.2 then 2 else 0)]

/-- Code of the power of one direction of a lane (R122). -/
def LanePower.code : LanePower → Nat
  | .active => 0 | .sleep => 1 | .off => 2 | .changing => 3

/-- LaneStatus (R122). -/
def State.laneStatus (s : State) (l : Nat) : Nat :=
  let x := s.lane l
  pack [(28, 4, x.state.code), (26, 2, x.fwdPower.code), (24, 2, x.backPower.code), (23, 1, b2n x.cdrLock), (22, 1, b2n x.blockLock),
    (21, 1, b2n x.alignLock), (20, 1, b2n (s.laneDeskewed l)), (19, 1, b2n x.frozen), (18, 1, b2n (x.tapClamped || x.ctleBound.isSome)),
    (17, 1, b2n x.marginWarn), (16, 1, b2n x.marginFail), (15, 1, b2n x.retrainPending), (14, 1, b2n x.signalDetect),
    (8, 4, x.rxLaneId), (0, 8, x.rxAlignSeq)]

/-- PrbsCtl as it reads (R118): CHK_LOCK is the checker's. -/
def State.prbsCtlWord (s : State) (l : Nat) : Nat :=
  let v := s.nat (Obj.prbsCtl l)
  v - field v 26 1 * 2 ^ 26 + b2n (s.lane l).chkLock * 2 ^ 26

/-- PrbsBits as it reads (R119): while the checker is locked, the bits received since. -/
def State.prbsBitsNow (s : State) (l : Nat) : Nat :=
  match (s.lane l).chkSince with
  | some t => (s.now - t) * 275 / 32
  | none => s.nat (Obj.prbsBits l)

/-- GroupStatus (R172). -/
def State.groupStatus (s : State) (g : Nat) : Nat :=
  let x := s.group g
  let l := s.ctlLane g
  pack [(28, 4, x.state.ctorIdx), (24, 4, x.spareFor), (23, 1, b2n (s.spareReady g)), (22, 1, b2n x.timeLocked),
    (18, 4, if l = 255 || l = s.cfgLane g 0 then 0 else 8), (0, 8, if l = 255 then 0 else l)]

/-- PortStatus (R202). -/
def State.portStatus (s : State) (p : Nat) : Nat :=
  let x := s.port p
  pack [(28, 4, x.state.ctorIdx), (27, 1, b2n x.overrun), (26, 1, b2n x.expFault), (25, 1, b2n x.tokenLate), (24, 1, b2n (s.clockRuns p)),
    (0, 24, x.lines)]

/-- StreamStatus (R254). -/
def State.streamStatus (s : State) (st : Nat) : Nat :=
  let x := s.strm st
  pack [(28, 4, x.state.ctorIdx), (27, 1, b2n x.normClamp), (26, 1, b2n x.driftClamp), (25, 1, b2n x.sat), (24, 1, b2n (s.tableWaits st false)),
    (0, 24, x.lines)]

/-- CalStatus (R282). -/
def Calib.status (c : Calib) : Nat :=
  pack [(28, 4, c.state.ctorIdx), (24, 4, c.kind), (16, 8, c.result), (0, 16, min c.taken 65535)]

/-- PosStatus (R332). -/
def State.posStatus (s : State) (c : Nat) : Nat :=
  let x := s.posChan c
  pack [(28, 4, x.state.ctorIdx), (27, 1, b2n x.dirUp), (26, 1, b2n x.edgeFault), (25, 1, b2n x.wireFault), (24, 1, b2n x.indexSeen),
    (23, 1, b2n x.mismatch), (22, 1, b2n (s.predictValid c))]

/-- PosEdgeLatch (R294). -/
def PosChan.latchWord (x : PosChan) : Nat :=
  match x.latches.head? with
  | some e => pack [(64, 64, e.2), (0, 64, toBits 64 e.1)]
  | none => 0

/-- PosCapture (R317). -/
def PosChan.captureWord (x : PosChan) : Nat :=
  pack [(128, 64, x.capture.1), (64, 64, toBits 64 x.capture.2.1), (0, 64, toBits 64 x.capture.2.2)]

/-- TransportStatus (R366). -/
def State.transportStatus (s : State) (u : Nat) : Nat :=
  let x := s.trans u
  pack [(28, 4, x.state.code), (25, 3, x.preset), (24, 1, b2n x.clamped), (23, 1, b2n x.clampUp), (22, 1, b2n ((s.streamsOf u).any fun st => bitAt (s.ring st).weirs 0)),
    (21, 1, b2n ((s.streamsOf u).any fun st => (s.seam st).divert)), (20, 1, b2n (s.holdPending u)), (0, 16, x.seams)]

/-- CrosspointStatus (R403) of crosspoint `i`. -/
def State.crosspointStatus (s : State) (i : Nat) : Nat :=
  let x := s.xpoint i
  if !s.populated (i / 64) (i % 64) then 0
  else pack [(29, 3, x.state.ctorIdx + 1), (28, 1, b2n (x.lifts != 0)), (27, 1, b2n x.regOk), (18, 9, x.unchecked), (0, 12, x.dLast)]

/-- UnverifiedCount: populated crosspoints now UNVERIFIED (R404). -/
def State.unverifiedCount (s : State) : Nat :=
  sumNat ((List.range 16).map fun b => ((s.columnsOf b).filter fun c => (s.xpoint (xpIndex b c)).state == .unverified).length)

/-- RingStatus (R445). -/
def State.ringStatus (s : State) (st : Nat) : Nat :=
  let r := s.ring st
  let state := if !r.allocated then 0 else if r.guardOn then 3 else if s.streamOpen? st then 2 else 1
  pack [(28, 4, state), (24, 4, r.weirs), (23, 1, b2n r.page.isSome), (22, 1, b2n (r.marks.any fun m => m.kind == .hold)),
    (21, 1, b2n (r.marks.any fun m => m.kind == .host)), (20, 1, b2n r.threshBound.isSome), (10, 10, s.ringFill st)]

/-- PageRecord: the record of the page PageRecordSelect names, 0 where it is not held (R431, R446). -/
def State.pageRecordWord (s : State) (st : Nat) : Nat :=
  let n := s.nat (Obj.pageRecordSelect st)
  match (Table.get none (s.ring st).records (n % max (s.nat (Obj.pageRecordEntries st)) 1)).filter fun p => p.number == n with
  | some p => leNat (pageBytes st p)
  | none => 0

/-- DLT_CH_STAT, which ChannelStatus shows (R460). -/
def State.channelStatus (s : State) (n : Nat) : Nat :=
  let c := s.chan n
  let b := s.boundStream n
  pack [(28, 4, c.state.ctorIdx), (27, 1, b2n b.isSome), (26, 1, b2n c.err), (25, 1, b2n c.starved), (24, 1, b2n c.prefetched.isSome),
    (18, 6, c.error), (8, 8, b.getD 255)]

/-- ChStatus (R539). FAILED: its converter has failed, or its last path test did (DEDUCED, log entry 47). -/
def State.chStatus (s : State) (k : Nat) : Nat :=
  let x := s.feChan k
  let c := s.conv (s.nat (Obj.chConverter k))
  let on := s.flag (Obj.chEnable k) && (s.feIsland (s.nat (Obj.chConverter k) / 8)).powered
  let failed := c.state == .failed || (!x.testPass && s.flag (Obj.chTestResult k))
  let state := if !on then 0 else if c.test.any (fun t => t.1 == k) then 3 else if failed then 4 else if x.settle != 0 then 1 else 2
  pack [(28, 4, state), (24, 4, s.feGain k), (20, 4, x.settle), (19, 1, b2n x.armed0), (18, 1, b2n x.armed1), (17, 1, b2n x.clamped.isSome),
    (16, 1, b2n x.testPass), (0, 16, x.seq)]

/-- ConvState (R540). -/
def State.convState (s : State) (j : Nat) : Nat := if s.nat (Obj.convMode j) = 0 then 0 else (s.conv j).state.ctorIdx

/-! ### The management plane -/

/-- Reports of this stepping that the arbiter has not decided (ArbiterPending). -/
def State.arbiterPending (s : State) : Nat := min s.reports.length 65535

/-- Residue mismatches of a slice within the last 24 h (R660). -/
def State.sliceWear (s : State) (k : Nat) : Nat := ((s.slice k).mismatches.filter fun t => decide (s.now < t + ms 86400000)).length

/-- A wear indicator stands at or beyond its threshold for some unit (R598, R660); a slice falls back as its mismatches age. -/
def State.wearBit (s : State) (ind : Nat) : Bool :=
  s.dep.crossed.any fun c => c.1 == ind && (ind != 1 || decide (s.nat Obj.sliceWearCount ≤ s.sliceWear c.2))

/-- HealthSummary (R598). -/
def State.healthSummary (s : State) : Nat :=
  pack [(60, 4, s.mode.code), (56, 4, s.dep.worst.getD 15),
    (48, 8, ((List.range 64).filter fun st => (s.strm st).state == .running || (s.strm st).state == .closing).length),
    (40, 8, ((List.range 104).filter fun l => (s.lane l).state == .failed).length),
    (36, 1, b2n (s.wearBit 4)), (35, 1, b2n (s.wearBit 3)), (34, 1, b2n (s.wearBit 2)), (33, 1, b2n (s.wearBit 1)),
    (32, 1, b2n (s.wearBit 0)), (31, 1, b2n (s.flag Obj.class0Misses)), (30, 1, b2n (s.nat Obj.dtSource == 1 && s.kdps.ptp.locked)),
    (29, 1, b2n ((List.range 8).any s.poolEmpty)), (0, 16, toBits 16 s.power.tjHot)]

/-- A repair record's 128 bits (R663). -/
def Repair.word (r : Repair) (hard : Bool) : Nat :=
  pack [(64, 64, r.dt), (56, 8, r.rkind), (54, 2, r.origin), (53, 1, b2n hard), (52, 1, b2n r.active), (32, 16, r.unit), (16, 16, r.detail),
    (8, 8, r.fault), (0, 8, r.seq)]

/-- WearMeasure of indicator `ind`, unit `u` (R660): none for a lane's line that never reaches EyeMarginFail. Where nothing has been
measured it reads 0. -/
def State.wearMeasure (s : State) (ind u : Nat) : Option Int :=
  match ind with
  | 0 =>
    let ys := (s.lane u).hourly
    if ys.length < 24 then some 0 else (laneHorizon ys (s.nat Obj.eyeMarginFail)).map fun h => h.1 / h.2
  | 1 => some (s.sliceWear u : Nat)
  | 2 => some (Table.get 0 s.dep.aged u : Nat)
  | 3 =>
    let r := Table.get 0 s.dep.lampRef u
    some (if r = 0 then 0 else ((Table.get 0 s.dep.lampMean u : Nat) - (r : Int)) * 100 / r)
  | 4 => some (if 0x100 ≤ u then (s.rowsLeft (u - 0x100) : Nat) else (Table.get 0 s.dep.dramErrors u : Nat))
  | _ => some 0

/-- Whether the segment is heard and PLCA takes part, with the node ID (R542, R587). -/
def State.fnStatus (s : State) : Nat :=
  let a := s.nat Obj.nodeAddress
  pack [(31, 1, b2n s.kdps.addr.beacon), (30, 1, b2n (s.kdps.addr.beacon && a != 0)), (0, 8, if a = 0 then 255 else a)]

/-- PtpStatus (R587): port states in the codes of IEEE 1588: initialising before KDP runs, disabled with PtpRole 0, listening until a
Sync comes, then uncalibrated until locked, slave; master where it sends Sync. -/
def State.ptpStatus (s : State) : Nat :=
  let p := s.kdps.ptp
  let port := if !s.mode.talks then 0 else if s.nat Obj.ptpRole = 0 then 3 else if p.port = 6 then 6
    else if p.port = 9 then (if p.locked then 9 else 8) else 4
  pack [(28, 4, port), (27, 1, b2n p.locked)]

/-- DebugState (R712). -/
def State.debugState (s : State) : Nat := if s.flag Obj.debugLock then 2 else b2n s.sec.debugOpen

/-- FirmwareSlots (R716). -/
def State.firmwareSlots (s : State) : Nat :=
  pack [(31, 1, s.sec.active), (30, 1, b2n (Table.get {} s.sec.slots 0).valid), (29, 1, b2n (Table.get {} s.sec.slots 1).valid),
    (0, 8, s.runningSlot.svn)]

/-- Latest audit record's SEQ and CHAIN (AuditHead, R706): zeros before the first. -/
def State.auditHead (s : State) : Bytes :=
  match s.sec.audit.getLast? with
  | some r => leBytes 8 r.seq ++ (r.chain ++ List.replicate 48 0).take 48
  | none => List.replicate 56 0

/-- AuditStatus (R705). -/
def State.auditStatus (s : State) : Nat := pack [(16, 16, s.unacked), (0, 16, min s.sec.overwrites 65535)]

/-! ### Numeric entries -/

/-- Width of a type on the wire in bits (R594): 0 for STR, DOMAIN and REC. -/
def typeBits (code : Nat) : Nat :=
  ([8, 8, 16, 32, 64, 8, 16, 32, 64, 24, 24, 24, 32, 64] : List Nat).getD (code - 1) 0

/-- An instance of a block of `n` indices from `base`. -/
def inst (index base n : Nat) : Option Nat := if base ≤ index && index < base + n then some (index - base) else none

/-- The status word of one unit, where an index and subindex name it: `n` indices from `base`, subindex `k`. -/
def unitAt (index sub base n k : Nat) (f : Nat → Int) : Option Int :=
  if sub = k then (inst index base n).map f else none

/-- Units whose status word an index reports, one index for each: lanes, groups, ports, slices, streams, channels, transports. -/
def State.unitView (s : State) (index sub : Nat) : Option Int :=
  [unitAt index sub 0x3100 104 2 fun l => s.laneStatus l,
   unitAt index sub 0x3100 104 18 fun l => s.prbsCtlWord l,
   unitAt index sub 0x3100 104 20 fun l => s.prbsBitsNow l,
   unitAt index sub 0x3200 96 10 fun g => s.groupStatus g,
   unitAt index sub 0x4100 32 2 fun p => s.portStatus p,
   unitAt index sub 0x5100 64 2 fun st => s.streamStatus st,
   unitAt index sub 0x5700 64 2 fun st => (s.calib st).status,
   unitAt index sub 0x6010 16 11 fun c => s.posStatus c,
   unitAt index sub 0x6010 16 12 fun c => (s.posChan c).latchWord,
   unitAt index sub 0x6010 16 13 fun c => (s.posChan c).captureWord,
   unitAt index sub 0x6010 16 18 fun c => s.velocityOf c,
   unitAt index sub 0x6050 16 19 fun m => s.followCounts m,
   unitAt index sub 0x6200 96 2 fun t => b2n (s.tio t).level,
   unitAt index sub 0x6200 96 3 fun t => (s.tio t).lastEdge,
   unitAt index sub 0x6110 16 14 fun u => s.transportStatus u,
   unitAt index sub 0x8100 64 2 fun st => (s.ring st).base,
   unitAt index sub 0x8100 64 6 fun st => s.ringStatus st,
   unitAt index sub 0x8100 64 7 fun st => (s.ring st).writeLine,
   unitAt index sub 0x8100 64 8 fun st => ((s.ring st).oldest.getD (maxU 64) : Nat),
   unitAt index sub 0x8100 64 26 fun st => s.pageRecordWord st,
   unitAt index sub 0x8300 64 11 fun st => s.theta st,
   unitAt index sub 0xA200 64 17 fun k => s.chStatus k,
   unitAt index sub 0xA300 16 23 fun j => s.convState j].findSome? id

/-- Single entries, and those with one subindex for each unit. -/
def State.plainView (s : State) (index sub : Nat) : Option Int :=
  let n := fun (v : Nat) => some ((v : Nat) : Int)
  match index, sub with
  | 0x2010, 1 => n s.dt
  | 0x2020, 2 => n (s.queueStatus (s.nat Obj.queueSelect))
  | 0x2020, 3 => n (s.queue (s.nat Obj.queueSelect)).pointerFaults
  | 0x5600, 1 => n (25165824 - sumNat ((List.range 64).map fun st =>
      let c := s.calib st
      sumNat ((c.dark.toList ++ c.white.toList).map fun k => sumNat (k.phases.map fun p => p.2.recs.length)) +
        sumNat (c.work.map fun p => p.2.recs.length)))
  | 0x5600, 2 => n s.warmup.state.ctorIdx
  | 0x5600, 7 => n (if s.warmup.state == .off then 0 else (s.now - s.warmup.since) / 4000000)
  | 0x7000, 21 => n (s.crosspointStatus (s.nat Obj.crosspointSelect))
  | 0x7000, 22 => n (s.xpoint (s.nat Obj.crosspointSelect)).millivolt
  | 0x7000, 26 => n s.unverifiedCount
  | 0x2030, 4 => n s.class0Ingest
  | 0x8000, 1 => n reservoirBytes
  | 0x9020, 2 => n (s.channelStatus (s.nat Obj.channelSelect))
  | 0x1000, 3 => n Config.macAddress
  | 0x1000, 9 => n s.fnStatus
  | 0x1010, 1 => n (b2n s.openAccess)
  | 0x1030, 4 => n (s.kdps.net.queue.length + s.kdps.mail.queue.length)
  | 0x1050, 4 => n s.ptpStatus
  | 0x0100, 6 => n (if Config.oneStack then 1 else 2)
  | 0x0100, 7 => n (b2n Config.gradeI)
  | 0x0100, 8 => n Config.primroseVersion
  | 0x0100, 10 => n (field (s.nat Obj.peonyVersion) 24 8 * 256 + Config.dictionaryMinor % 256)
  -- the lamp rail's set point is the headroom loop's (R400, R401, R623), in 0.5 mV
  | 0x2207, 2 => n (if s.nat (Obj.railState 7) = 0 then 0 else 2 * s.nat Obj.lampRailSetpoint)
  | 0x2040, 1 => n s.healthSummary
  | 0x2040, 7 => n (((s.now : Int) - s.kdps.ptp.shift).toNat / 4000000)
  | 0x2000, 1 => n s.mode.code
  | 0x2000, 3 => n (match s.target with
    | some m => m.code
    | none => 255)
  | 0xB000, 1 => n s.arbiterPending
  | 0xB300, 2 => n (s.dep.repairs.filter Repair.active).length
  | 0xB300, 4 => n s.dep.hard.length
  | 0xC000, 2 => n (b2n s.approved)
  | 0xC000, 3 => n (ofBits s.conditions)
  | 0xC000, 7 => n s.debugState
  | 0xC030, 2 => n s.firmwareSlots
  | 0xC040, 1 => n (match s.sec.attest with
    | some g => leNat (attestKeyBytes g)
    | none => 0)
  | 0xC040, 2 => n (s.sec.attest.getD 0)
  | 0xC200, 1 => n (leNat s.auditHead)
  | 0xC200, 6 => n s.auditStatus
  | i, k =>
    if 1 ≤ i && i ≤ 17 then n (typeBits i)
    else if i = 0x4000 then n (s.bank (k - 1)).ctorIdx
    else if i = 0x5010 then n (s.slice (k - 1)).state.ctorIdx
    else if 0x5400 ≤ i && i < 0x5440 && k = 3 then n (s.tableStateOf (i - 0x5400))
    else if i = 0x602A then n ((s.gen (k - 1)).next % 2 ^ 32)
    else if 0xA000 = i && 13 ≤ k && k ≤ 14 then n 0
    else if 0xB000 = i && 16 ≤ k && k ≤ 23 then n (s.poolLeft (k - 16))
    else if 0xE001 ≤ i && i ≤ 0xE007 && k = 2 then n (lwAllowed (i - 0xE000) - s.lwUsed (i - 0xE000))
    else if i = 0xE007 && k ≠ 0x32 then
      n (match s.dep.hard[if k = 1 then 0 else k - 2]? with
        | some r => r.word true
        | none => 0)
    else none

/-- Bits of a measurement that no command of the table brings: die and stack temperatures, power, rail current,
frames with a bad check sequence. -/
def measuredBits (index sub : Nat) : Option Nat :=
  match index, sub with
  | 0x2040, 2 | 0x2040, 3 | 0x2040, 4 => some 16
  | 0x2040, 6 | 0x1000, 11 => some 32
  | i, 3 => if 0x2100 ≤ i && i < 0x2140 then some 32 else none
  | i, 4 => if 0x2200 ≤ i && i < 0x2208 then some 32 else none
  | _, _ => none

/-- The value a numeric or REC entry reads as (R564), and the state that has met an open value. -/
def State.view (s : State) (index sub : Nat) : Int × State :=
  match measuredBits index sub with
  | some w => let f := s.free (2 ^ w); (if w = 16 then signed 16 f.1 else (f.1 : Int), f.2)
  | none =>
    if index = 0xB200 && sub = 8 then
      let u := s.nat Obj.wearUnitSelect
      match s.wearMeasure (u / 4096) (u % 4096) with
      | some v => (clampInt (-(2 ^ 31)) (2 ^ 31 - 1) v, s)
      | none => let f := s.free (2 ^ 32); (signed 32 f.1, f.2)
    else if sub = 19 && ((inst index 0x3100 104).bind fun l => (s.lane l).chkSince).isSome then
      -- the errors counted since the lock are the pattern's, which no command brings bit by bit (R119, log entry 85)
      let f := s.free (2 ^ 32); ((f.1 : Int), f.2)
    else match (s.unitView index sub).or (s.plainView index sub) with
      | some v => (v, s)
      | none => (s.reg (objOfKey (index * 256 + sub)), s)

/-! ### What a read clears -/

/-- Sticky bits cleared by reading an entry (R47, R122, R202, R254, R332, R501, R540, R598). -/
def readClears (index sub : Nat) (s : State) : State :=
  match index, sub with
  | 0x2020, 3 => let q := s.nat Obj.queueSelect; s.setQueue q { s.queue q with ptrFault := false }
  | 0x2040, 8 => { s with dep := { s.dep with worst := none } }
  | 0xA000, 3 => s.setReg Obj.clampFlags 0
  | i, 6 => match inst i 0x3100 104 with
    | some l => (s.updLane l fun x => { x with marginWarn := false, marginFail := false }).setReg (Obj.eyeMarginMin l) 64
    | none => s
  | i, 15 => match inst i 0x4100 32, inst i 0x6010 16 with
    | some p, _ => s.updPort p fun x => { x with overrun := false }
    | none, some c => s.updPosChan c fun x => { x with wireFault := false }
    | none, none => s
  | i, 16 => match inst i 0x4100 32 with
    | some p => s.updPort p fun x => { x with expFault := false, tokenLate := false }
    | none => s
  | i, 21 => match inst i 0x5100 64 with
    | some st => s.updStrm st fun x => { x with sat := false }
    | none => s
  | i, 22 => match inst i 0x5100 64 with
    | some st => s.updStrm st fun x => { x with normClamp := false }
    | none => s
  | i, 23 => match inst i 0x5100 64 with
    | some st => s.updStrm st fun x => { x with driftClamp := false }
    | none => s
  | i, 14 => match inst i 0x6010 16 with
    | some c => s.updPosChan c fun x => { x with edgeFault := false }
    | none => s
  | i, 7 => match inst i 0x6040 16 with
    | some c => s.updPosChan c fun x => { x with mismatch := false }
    | none => s
  | _, _ => s

/-! ### STR and DOMAIN entries -/

/-- One kept set of CalAccum (R258, R259). -/
def CalSet.bytes (k : CalSet) (phases width : Nat) : Bytes :=
  let heads := (List.range phases).flatMap fun ph =>
    let p := Table.get {} k.phases ph
    leBytes 8 p.exposure ++ leBytes 2 p.lines ++ List.replicate 6 0
  heads ++ (List.range phases).flatMap fun ph =>
    let p := Table.get {} k.phases ph
    (List.range width).flatMap fun x =>
      let r := Table.get {} p.recs x
      leBytes 16 (pack [(82, 46, r.sumsq), (54, 28, r.sum), (36, 18, r.max), (18, 18, r.min), (0, 11, min r.clips 2047)])

/-- QueueMap (R772). -/
def queueMapBytes : Bytes :=
  (List.range 1024).flatMap fun q =>
    let m := Config.queueMap q
    leBytes 1 m.1 ++ leBytes 1 m.2.1 ++ leBytes 1 (b2n m.2.2.1 + 2 * b2n m.2.2.2) ++ [0]

/-- IslandMap (R772): for each island number the row and instance it serves. -/
def islandMapBytes : Bytes :=
  (List.range 196).flatMap fun n =>
    match islandEntry n with
    | some t => leBytes 1 t.2.2 ++ leBytes 1 t.1 ++ leBytes 2 t.2.1
    | none => [0, 0, 0, 0]

/-- AttestChain (R679); empty while no attestation key is held. -/
def State.attestChain (s : State) : Bytes :=
  match s.sec.attest with
  | none => []
  | some g =>
    let e := Config.publicBlock 1 g ++ leBytes 2 g ++ Config.serialNumber
    Config.certificate ++ e ++ Config.signEc 0 0 (Config.sha384 e) ++ Config.signMl 0 0 e []

/-- AuditHeadSigned (R706); unsigned while no attestation key is held. -/
def State.auditHeadSigned (s : State) : Bytes :=
  let m := s.auditHead ++ leBytes 8 s.dt
  match s.sec.attest with
  | none => m
  | some g => m ++ Config.signEc 1 g (Config.sha384 m) ++ Config.signMl 1 g m (ascii "Penori audit")

/-- The kinds R640 lists. -/
def kindListed (k : Nat) : Bool :=
  ([0x01, 0x02, 0x03, 0x04, 0x05, 0x06, 0x07, 0x08, 0x10, 0x11, 0x12, 0x18, 0x19, 0x1A, 0x1B, 0x1C, 0x1D, 0x20, 0x21, 0x22, 0x28, 0x29, 0x2A,
    0x30, 0x31, 0x32, 0x33, 0x34, 0x38, 0x39, 0x3A, 0x3B, 0x3C, 0x3D, 0x3E, 0x40, 0x41, 0x42, 0x48, 0x49, 0x4A, 0x50, 0x51, 0x52, 0x53, 0x54,
    0x58, 0x59, 0x5A, 0x60, 0x61, 0x62, 0x63, 0x64, 0x68] : List Nat).contains k

/-- An index is present (R591): FaultPolicy has one for each kind of R640. -/
def indexPresent (index : Nat) : Bool :=
  if 0xB100 ≤ index && index < 0xB200 then kindListed (index - 0xB100)
  else catalogue.any fun r => decide (r.index ≤ index ∧ index < r.index + r.count)

/-- The catalogue rows of an index. -/
def rowsAt (index : Nat) : List Row := catalogue.filter fun r => decide (r.index ≤ index ∧ index < r.index + r.count)
/-- Highest present subindex of an index (R590). -/
def highestSub (index : Nat) : Nat := maxNat ((rowsAt index).map fun r => r.sub + r.subs - 1)
/-- Code of the lowest minimum role among an index's entries (R590). -/
def lowestRole (index : Nat) : Nat := ((rowsAt index).map fun r => roleCode r.role).min?.getD 1

/-- ObjectDirectory (R596): the present indices visible to the session. The range 0xF000 to 0xFFFF holds no object of the spec. -/
def directoryBytes : Bytes :=
  ((List.range 0xF000).filter indexPresent).flatMap fun i => leBytes 2 i ++ [BitVec.ofNat 8 (highestSub i), BitVec.ofNat 8 (lowestRole i)]

/-- Entries of a stream's coefficient table. -/
def State.entriesOf (s : State) (st : Nat) : Nat := s.nat (Obj.phases st) * widthOf (s.tribs st)

/-- The bytes of an STR or DOMAIN entry in effect (R564). -/
def State.blobView (s : State) (index sub : Nat) : Bytes :=
  match index, sub with
  | 0x0100, 1 => ascii "Virgeant"
  | 0x0100, 2 => ascii "Penori"
  | 0x0100, 3 => Config.orderCode
  | 0x0100, 4 => ascii "B0"
  | 0x0100, 5 => Config.serialNumber
  | 0x0100, 11 => directoryBytes
  | 0x1030, 5 => Config.eventCatalogue
  | 0x2020, 5 => queueMapBytes
  | 0x2020, 6 => islandMapBytes
  | 0x2300, 11 => s.power.droops.flatMap fun d => leBytes 8 d.dt ++ leBytes 2 d.before ++ leBytes 2 d.after ++ leBytes 2 d.ceiling ++ [0, 0]
  | 0x7000, _ => (List.range 1024).flatMap fun i => leBytes 2 (Table.get 32768 s.lamps.trim i)
  | 0xB000, 6 => s.dep.log.flatMap fun r => leBytes 16 r.word
  | 0xB300, 1 => s.dep.repairs.flatMap fun r => leBytes 16 (r.word false)
  | 0xC020, 1 => s.sec.ownerBlock
  | 0xC040, 3 => s.attestChain
  | 0xC110, 3 => (s.sec.blocks.lookup (s.nat Obj.sealBlockSelect)).getD []
  | 0xC200, 2 => s.auditHeadSigned
  | 0xC200, 3 => (s.sec.audit.filter fun r => decide (s.nat Obj.auditFirst ≤ r.seq)).flatMap fun r => r.body ++ (r.chain ++ List.replicate 48 0).take 48
  | 0xD000, 1 => s.sec.sandboxImage
  | i, k =>
    match inst i 0x3400 96, inst i 0x5400 64, inst i 0x5500 256, inst i 0x5700 64 with
    | some g, _, _, _ => if k = 3 then (s.group g).camRegData else (s.group g).identity
    | _, some st, _, _ => if k = 1 then coefBytes (s.entriesOf st) (s.strm st).tables.coef else defectBytes (s.strm st).tables.defects
    | _, _, some c, _ =>
      let knots := Table.get [] s.curves c
      (if knots.isEmpty then identityKnots else knots).flatMap (leBytes 3)
    | _, _, _, some st =>
      let c := s.calib st
      if k = 11 then
        let p := s.nat (Obj.phases st)
        let w := widthOf (s.tribs st)
        (c.dark.getD {}).bytes p w ++ (c.white.getD {}).bytes p w
      else match c.derived with
        | none => []
        | some d => coefBytes (s.entriesOf st) d.coef ++ defectBytes d.defects
    | _, _, _, _ => []

end Sys2Proof.Machine
end

