-- ==== Sys2Proof/Machine/Operands.lean ====
section
/-! DEFINITION. The operand forms of the dictionary protocol: type codes and packing (R584, R585, R594, R765), payload lengths (R767),
what a request names (R590 to R594), entry descriptions (R555), error payloads (R556) and the identity block (R550). -/
namespace Sys2Proof.Machine

/-! ### Types on the wire -/

/-- Type code (R584). -/
def Ty.code : Ty → Nat
  | .bool => 1 | .u8 => 2 | .u16 => 3 | .u32 => 4 | .u64 => 5 | .s8 => 6 | .s16 => 7 | .s32 => 8 | .s64 => 9
  | .u18 => 10 | .s18 => 11 | .fx2_16 => 12 | .fx16_16 => 13 | .time64 => 14 | .str => 15 | .domain => 16 | .record => 17

/-- Two's-complement types. -/
def Ty.signed : Ty → Bool
  | .s8 | .s16 | .s32 | .s64 | .s18 => true
  | _ => false

/-- A value's bytes on the wire: `size` of them; an S18 repeats its sign, a U18 or FX2_16 has zeros above it (R584, R585). -/
def wireBytes (size : Nat) (v : Int) : Bytes := leBytes size (toBits (8 * size) v)

/-- The byte that breaks UTF-8 (R765, RFC 3629): `need` continuation bytes are due, the next one between `lo` and `hi`. A string that
ends inside a character breaks at its length. -/
def utf8From (off need lo hi : Nat) : Bytes → Option Nat
  | [] => if need = 0 then none else some off
  | b :: t =>
    let v := b.toNat
    if need ≠ 0 then (if lo ≤ v && v ≤ hi then utf8From (off + 1) (need - 1) 0x80 0xBF t else some off)
    else if v < 0x80 then utf8From (off + 1) 0 0x80 0xBF t
    else if 0xC2 ≤ v && v ≤ 0xDF then utf8From (off + 1) 1 0x80 0xBF t
    else if v = 0xE0 then utf8From (off + 1) 2 0xA0 0xBF t
    else if v = 0xED then utf8From (off + 1) 2 0x80 0x9F t
    else if 0xE1 ≤ v && v ≤ 0xEF then utf8From (off + 1) 2 0x80 0xBF t
    else if v = 0xF0 then utf8From (off + 1) 3 0x90 0xBF t
    else if 0xF1 ≤ v && v ≤ 0xF3 then utf8From (off + 1) 3 0x80 0xBF t
    else if v = 0xF4 then utf8From (off + 1) 3 0x80 0x8F t
    else some off

/-- The offset of the first ill-formed byte of an STR value (R765). -/
def utf8Error (b : Bytes) : Option Nat := utf8From 0 0 0x80 0xBF b

/-- An error: code and DETAIL (R556). -/
structure Err where
  code : Nat
  detail : Nat := 0
  deriving DecidableEq, Repr

/-- A value read from its bytes, or TYPE_LENGTH (R584, R585, R765). -/
def parseValue (r : Row) (b : Bytes) : Except Err Val :=
  match r.ty with
  | .str => match utf8Error b with
    | some off => .error ⟨0x06, off⟩
    | none => .ok (.blob b)
  | .domain => .ok (.blob b)
  | t =>
    let v := leNat b
    let bad := match t with
      | .bool => decide (1 < v)
      | .u18 | .fx2_16 => decide (2 ^ 18 ≤ v)
      | .s18 => field v 18 6 != (if bitAt v 17 then 63 else 0)
      | _ => false
    if b.length ≠ r.size || bad then .error ⟨0x06, r.size⟩
    else .ok (.num (if t.signed then Machine.signed (8 * r.size) v else (v : Int)))

/-- A value lies within its entry's range column (R556 RANGE). -/
def Row.accepts (r : Row) (v : Int) : Bool :=
  r.ranges.isEmpty || (r.ranges.any fun i => decide (i.1 ≤ v ∧ v ≤ i.2) && decide (v % (max r.multiple 1 : Nat) = 0))

/-! ### Presence (R590 to R594) -/

/-- What an index and subindex name: a row of the tables, or subindex 0. -/
inductive Entry where
  | row (r : Row)
  | top
  deriving DecidableEq, Repr

/-- NO_OBJECT, NO_SUBINDEX, or the entry (R590, R591). -/
def entryAt (index sub : Nat) : Except Err Entry :=
  if !indexPresent index then .error ⟨0x02, 0⟩
  else if sub = 0 then .ok .top
  else match rowOf index sub with
    | some r => .ok (.row r)
    | none => .error ⟨0x03, 0⟩

/-- Minimum role of an entry, as code of R555. -/
def Entry.role (e : Entry) (index : Nat) : Nat :=
  match e with
  | .row r => roleCode r.role
  | .top => lowestRole index

/-- The entries a packet without a role may read (R578). -/
def showStatus (index sub : Nat) : Bool := decide (index < 0x1000) || (index == 0xC000 && (sub == 1 || sub == 2))

/-! ### Payloads (R553, R767) -/

/-- Shortest and longest request payload of an opcode; a SEG_INIT carries TOTAL in DIR 0 only. -/
def payloadBounds (op : Nat) (b : Bytes) : Nat × Nat :=
  match op with
  | 0x02 | 0x09 | 0x0D | 0x13 => (2, 2)
  | 0x03 => (0, 1440)
  | 0x04 | 0x06 | 0x21 => (4, 4)
  | 0x05 => (4, 1456)
  | 0x07 | 0x08 => (1, 1)
  | 0x0A => if b.length ≤ 4 then (8, 12) else if b.getD 4 0 = 0 then (12, 12) else (8, 8)
  | 0x0B => (8, 1448)
  | 0x0C => (4, 8)
  | 0x10 => (36, 36)
  | 0x11 => (48, 48)
  | _ => (0, 0)

/-- The length a payload was expected to have, where it is too short or too long (R767). -/
def lengthError (op : Nat) (b : Bytes) : Option Nat :=
  let m := payloadBounds op b
  if b.length < m.1 then some m.1 else if m.2 < b.length then some m.2 else none

/-- The opcodes of R553 that a host sends. -/
def opcodeKnown (op : Nat) : Bool :=
  ([0x01, 0x02, 0x03, 0x04, 0x05, 0x06, 0x07, 0x08, 0x09, 0x0A, 0x0B, 0x0C, 0x0D, 0x10, 0x11, 0x12, 0x13, 0x21] : List Nat).contains op

/-- The opcodes whose payload begins with INDEX and SUB. -/
def namesEntry (op : Nat) : Bool := op == 0x04 || op == 0x05 || op == 0x06 || op == 0x0A

end Sys2Proof.Machine

namespace Sys2Proof

open Machine

/-- INDEX of a payload, as far as it carries one. -/
def Kdp.index (q : Kdp) : Nat := if q.payload.length < 2 then 0 else leNat (q.payload.take 2)
/-- SUB of a payload. -/
def Kdp.sub (q : Kdp) : Nat := (q.payload.getD 2 0).toNat
/-- Byte `i` of a payload. -/
def Kdp.byte (q : Kdp) (i : Nat) : Nat := (q.payload.getD i 0).toNat
/-- A little-endian field of a payload. -/
def Kdp.word (q : Kdp) (off n : Nat) : Nat := leNat ((q.payload.drop off).take n)

end Sys2Proof

namespace Sys2Proof.Machine

/-! ### Payloads sent -/

/-- An error payload (R556). -/
def errorPayload (index sub : Nat) (e : Err) : Bytes := [BitVec.ofNat 8 e.code, BitVec.ofNat 8 sub] ++ leBytes 2 index ++ leBytes 4 e.detail

/-- The identity block (R550). -/
def State.identityBlock (s : State) : Bytes :=
  let head := leBytes 1 (s.nat Obj.nodeAddress) ++ leBytes 1 (s.nat Obj.addressSource) ++ leBytes 6 Config.macAddress ++
    leBytes 1 s.mode.code ++ [0] ++ leBytes 2 (field (s.nat Obj.peonyVersion) 16 16) ++ (Config.serialNumber ++ List.replicate 16 0).take 16
  head ++ leBytes 4 (crc32c head)

/-- Commit boundary codes of R555: 0 L, 1 C, 2 P, 3 S, 4 M, 5 I. -/
def Boundary.code : Boundary → Nat
  | .line => 0 | .cycle => 1 | .page => 2 | .sync => 3 | .mode => 4 | .immediate => 5
/-- The model's codes of R23's order, coarsest first for M, P, C and L. -/
def Boundary.rank : Boundary → Nat
  | .mode => 0 | .page => 1 | .cycle => 2 | .line => 3 | .sync => 4 | .immediate => 5
/-- The R555 code of a boundary of R23's order. -/
def wireBoundary (rank : Nat) : Nat := ([4, 2, 1, 0, 3, 5] : List Nat).getD rank 5

/-- Access code (R555). -/
def Access.code : Access → Nat
  | .ro => 0 | .rw => 1 | .wo => 2 | .st => 3 | .lw => 4

/-- The default an entry's table gives it: fused and built values are what the part holds, and the temperature limits follow its grade. -/
def defaultOf (index sub : Nat) (s : State) : Int :=
  if index = 0x2000 && sub = 10 then (if Config.gradeI then 1000 else 950)
  else if index = 0x2000 && sub = 11 then (if Config.gradeI then 1150 else 1100)
  else if index = 0x1000 && sub = 3 || index = 0x0100 || index ≤ 17 then (s.view index sub).1
  else dfltOf index sub

/-- The name of an entry as bytes. -/
def nameBytes (t : String) : Bytes := t.toUTF8.toList.map fun b => BitVec.ofNat 8 b.toNat

/-- READ_DESC's response (R555). Every M boundary of the tables names Configure. -/
def State.descPayload (s : State) (index sub : Nat) (e : Entry) : Bytes :=
  let head := leBytes 2 index ++ leBytes 1 sub
  match e with
  | .top => head ++ [2, 0, BitVec.ofNat 8 (lowestRole index), 0xFF, 0xFF] ++ leBytes 4 1 ++ [0, 0, 0, 0] ++ leBytes 1 (highestSub index)
  | .row r =>
    let name := (nameBytes r.name).take 64
    let unit := (nameBytes r.unit).take 32
    let bc := match r.boundary with
      | some b => b.code
      | none => 255
    let mc := if r.boundary = some .mode then 3 else 255
    let dflt := if r.size = 0 then [] else wireBytes r.size (defaultOf index sub s)
    head ++ [BitVec.ofNat 8 r.ty.code, BitVec.ofNat 8 r.access.code, BitVec.ofNat 8 (roleCode r.role), BitVec.ofNat 8 bc, BitVec.ofNat 8 mc] ++
      leBytes 4 r.size ++ [BitVec.ofNat 8 name.length, BitVec.ofNat 8 unit.length, 0, 0] ++ name ++ unit ++ dflt

end Sys2Proof.Machine
end

