-- ==== Sys2Proof/Machine/Checks.lean ====
section
/-! DEFINITION. What the Commit Confluence rejects (R26, R27, R31): the configuration a group would put in force is held against every
rule that names one, and the group's first member that a broken rule rests on is the one it is refused for. -/
namespace Sys2Proof.Machine

/-! ### Values of one entry (R556 RANGE) -/

/-- The layout of an entry's value: reserved bits 0, fields within what its field table gives them. -/
def fieldsOk (index sub v : Nat) : Bool :=
  let within := fun (lo n : Nat) => decide (lo ≤ index ∧ index < lo + n)
  if within 0x5200 64 then
    let t := tribOf v
    t.kind ≤ 1 && t.source < (if t.kind = 0 then 96 else 32) && field v 36 8 == 0 && !bitAt v 17 && t.first % 4 == 0 &&
      decide (b2n t.valid ≤ t.groups ∧ t.groups ≤ 65536)
  else if within 0x6200 96 && sub = 1 then !bitAt v 24
  else if within 0x6110 16 && decide (17 ≤ sub ∧ sub ≤ 24) then decide (1 ≤ field v 32 32 ∧ field v 32 32 ≤ 5000000)
  else if within 0x7010 16 && sub = 4 then
    let p := field v 0 16
    field v 16 14 == 0 && (match field v 30 2 with
      | 0 => true
      | 1 => decide (256 ≤ p ∧ p ≤ 1024)
      | 2 => decide (64 ≤ p ∧ p ≤ 1024)
      | _ => false)
  else if within 0x7100 64 && decide (17 ≤ sub ∧ sub ≤ 32) then field v 34 2 != 3 && field v 32 2 == 0
  else if index = 0x9000 && sub = 3 then field v 24 8 == 0 && ([0, 8, 16] : List Nat).all fun b => field v b 8 != 0
  else if index = 0xA000 && (sub = 7 || sub = 8) then ([4096, 8192, 16384, 32768, 65536] : List Nat).contains v
  else if index = 0xA000 && (sub = 5 || sub = 6) then v % 4096 == 0 || v == maxU 32
  else if index = 0xA100 then field v 0 8 == 0 && decide (field v 12 4 ≤ 4) && (!(([2, 3] : List Nat).contains (field v 12 4)) || decide (field v 8 4 < 8))
  else if within 0xA200 64 && sub = 7 then decide (field v 11 4 ≤ 8 ∧ field v 7 4 ≤ 8)
  else if within 0xA200 64 && (sub = 13 || sub = 14) then field v 60 2 != 3
  else if within 0xA300 16 && (sub = 18 || sub = 26) then
    field v 0 16 == 0 && (match trigKind v with
      | 0 | 1 | 5 => true
      | 2 | 3 => decide (trigSrc v < 96)
      | 4 => decide (trigSrc v < 64)
      | _ => false)
  else if index = 0x1000 && sub = 5 then decide (v < 2 ^ 48) && bitAt v 40
  else if within 0xB100 256 && sub = 1 then field v 0 12 == 0
  else if index = 0xC300 && decide (1 ≤ sub ∧ sub ≤ 4) then field v 8 4 == 0 && field v 0 8 != 0
  else if index = 0xC310 then field v 0 7 == 0
  else if index = 0x5600 && decide (9 ≤ sub ∧ sub ≤ 16) then field v 30 2 != 3 && field v 16 4 == 0
  else true

/-! ### The configuration a group would put in force -/

/-- A member overlaid: a number in the register file, a DefectMap or LampTrim in its table. -/
def overlay (s : State) (m : Nat × Val) : State :=
  let index := m.1 / 256
  match m.2 with
  | .num v => s.setReg (objOfKey m.1) v
  | .blob b =>
    if 0x5400 ≤ index && index < 0x5440 && m.1 % 256 = 2 then
      s.updStrm (index - 0x5400) fun x => { x with tables := { x.tables with defects := defectsOfBytes (b.length / 4) b } }
    else if index = 0x7000 then applyBlob 64 0 index (m.1 % 256) b s
    else s

/-- The configuration in force once every accepted group and then this one have entered. -/
def State.projected (s : State) (ms : List (Nat × Val)) : State :=
  ms.foldl overlay ((s.groupsWaiting.flatMap CommitGroup.members).foldl overlay s)

/-- A broken rule: the entries it rests on, and the error code its members are refused with. -/
structure Broken where
  names : Nat → Nat → Bool
  code : Nat := 0x07

/-- A rule, broken or not. -/
def rule (broken : Bool) (names : Nat → Nat → Bool) (code : Nat := 0x07) : List Broken := if broken then [⟨names, code⟩] else []

/-- Entries of one index. -/
def ents (index : Nat) (subs : List Nat) : Nat → Nat → Bool := fun i b => i == index && subs.contains b
/-- Entries of one index for several units. -/
def entsOf (base : Nat) (units subs : List Nat) : Nat → Nat → Bool := fun i b => (units.any fun u => i == base + u) && subs.contains b
/-- Entries of either kind. -/
def both (a b : Nat → Nat → Bool) : Nat → Nat → Bool := fun i k => a i k || b i k

/-- A stream the configuration gives a tributary. -/
def State.configured (v : State) (st : Nat) : Bool := widthOf (v.tribs st) != 0
/-- Streams the configuration gives a tributary. -/
def State.configuredStreams (v : State) : List Nat := (List.range 64).filter v.configured

/-- Every exposure bound of a phase (R343). -/
def State.exposures (v : State) (st ph : Nat) : List Nat :=
  let e := v.nat (Obj.phaseExposure st ph)
  if v.nat (Obj.rampExposure st) = 0 then [e]
  else
    let m := max (v.nat (Obj.normMax st)) 1
    [(e * 65536 * 257 + m * 256 - 1) / (m * 256), e * 65536 * 255 / (max (v.nat (Obj.normMin st)) 1 * 256)]

/-- The entries that set a stream's exposures. -/
def exposureEnts (st : Nat) : Nat → Nat → Bool :=
  both (both (ents (0x7100 + st) ((List.range 16).map (· + 1))) (ents 0x6101 [st + 1])) (ents (0x5100 + st) [4, 10, 11])

/-! ### Links and ports (R124, R174, R179, R190 to R200) -/

/-- A link group whose lanes cannot be used together (R124). -/
def groupRule (v : State) (g : Nat) : List Broken :=
  let ids := (List.range 8).map fun i => v.cfgLane g i
  let used := v.lanesOfGroup g
  let gap := (List.range 7).any fun i => ids.getD i 255 == 255 && ids.getD (i + 1) 255 != 255
  let twice := used.any fun l => decide (1 < (used.filter (· == l)).length)
  let other := used.any fun l => (List.range 96).any fun o => o != g && (v.lanesOfGroup o).contains l
  let off := used.any fun l => !v.flag (Obj.laneEnable l)
  rule (gap || twice || other || off)
    (both (ents (0x3200 + g) [1, 2, 3, 4, 5, 6, 7, 8, 9]) (entsOf 0x3100 used [1]))

/-- The clock mode, pixel clock and phases an input's mode asks for (R190 to R192). -/
def inputRule (v : State) (i : Nat) : List Broken :=
  let p := v.nat (Obj.inputPort i)
  if 32 ≤ p then []
  else
    let mode := v.nat (Obj.inputMode i)
    let clock := v.nat (Obj.pixelClock p)
    let ddr := v.portDdr p
    let a := v.nat (Obj.samplePhase i)
    let b := v.nat (Obj.secondPhase i)
    let top := 4000000000 / max clock 1
    let pair := mode = 2 || mode = 3
    let here := both (ents (0x4200 + i) [1, 2]) (ents (0x4100 + p) [3, 4])
    let phases := both (ents (0x4200 + i) [1, 2, 3, 4]) (ents (0x4100 + p) [3])
    let sep := 4000000000 < ((a - b) + 62) * clock
    rule (p / 8 != i / 8) (ents (0x4200 + i) [1]) ++
    rule (ddr != (mode == 3) || (mode == 1 && decide (32000000 < clock)) || (pair && i % 2 == 1)) here ++
    rule (pair && v.nat (Obj.inputPort (i + 1)) != 255) (both (ents (0x4200 + i) [1, 2]) (ents (0x4200 + i + 1) [1])) ++
    rule (decide (top ≤ a) || decide (top ≤ b)) phases ++
    rule ((mode == 1 || mode == 2) && decide (a ≤ b)) phases ++
    rule (mode == 1 && (decide (a - b < 62) || sep)) phases

/-- Whether an input writes a tributary position (R196). -/
def State.inputCovers (v : State) (i x : Nat) : Bool :=
  let step := max (v.nat (Obj.pixelStep i)) 1
  let lo := v.nat (Obj.startPixel i)
  decide (lo ≤ x) && (x - lo) % step == 0 && decide ((x - lo) / step < v.nat (Obj.pixelCount i))

/-- The inputs of an enabled port cover its positions once (R197). -/
def portRule (v : State) (p : Nat) : List Broken :=
  if !v.flag (Obj.portEnable p) then []
  else
    let w := v.nat (Obj.portWidth p)
    let ins := v.inputsOf p
    let shape := w % 4 == 0 && decide (4 ≤ w ∧ w ≤ 65536) && ins.all fun i => decide (v.nat (Obj.pixelCount i) ≤ 16384)
    let once := (List.range w).all fun x => (ins.filter fun i => v.inputCovers i x).length == 1
    let all := sumNat (ins.map fun i => v.nat (Obj.pixelCount i)) == w
    rule (!(shape && all && once)) (both (ents (0x4100 + p) [1, 6]) (entsOf 0x4200 (List.range 32) [1, 9, 10, 11, 12])) ++
    rule (decide (v.nat (Obj.tgToSp p) ≤ v.nat (Obj.tgWidth p))) (ents (0x4100 + p) [10, 11])

/-- Exposure and clock limits of a stream with analog tributaries (R179, R200). -/
def analogRule (v : State) (st : Nat) : List Broken :=
  let ports := ((v.tribs st).filter fun t => t.kind == 1).map Trib.source
  if ports.isEmpty then []
  else
    let short := (List.range (v.nat (Obj.phases st))).any fun ph => (v.exposures st ph).any (· < us 1)
    rule short (both (exposureEnts st) (fun i _ => i == 0x5200 + st)) ++
    rule (v.nat (Obj.streamClass st) == 0 && ports.any fun p => decide (v.nat (Obj.pixelClock p) < 10000000))
      (both (both (ents (0x5100 + st) [3]) (fun i _ => i == 0x5200 + st)) (entsOf 0x4100 ports [3]))

/-! ### Streams (R205 to R235, R304, R385, R409 to R418, R462, R496, R693) -/

/-- The line width of a source, where it is known (R207). -/
def State.sourceWidth (v : State) (t : Trib) : Nat :=
  if t.kind = 1 then v.nat (Obj.portWidth t.source) else (v.group t.source).cameraPixels

/-- A tributary table that cannot be joined (R205, R207). -/
def tribRule (v : State) (st : Nat) : List Broken :=
  let ts := v.tribs st
  if ts.isEmpty then []
  else
    let bits := (List.range 16).map fun e => (tribOf (v.nat (Obj.tributary st e))).valid
    let gap := (List.range 15).any fun e => !bits.getD e false && bits.getD (e + 1) false
    let twice := ts.any fun t => decide (1 < (ts.filter fun u => u.kind == t.kind && u.source == t.source).length)
    let shared := ts.any fun t => (List.range 64).any fun o => o != st && (v.tribs o).any fun u => u.kind == t.kind && u.source == t.source
    let wide := ts.any fun t => v.sourceWidth t != 0 && decide (v.sourceWidth t < t.first + t.pixels)
    let ports := (ts.filter fun t => t.kind == 1).map Trib.source
    rule (gap || twice || shared || decide (262144 < widthOf ts)) (fun i _ => i == 0x5200 + st) ++
    rule wide (both (fun i _ => i == 0x5200 + st) (entsOf 0x4100 ports [6]))

/-- Weirs (R45, R418). -/
def weirRule (v : State) (st w : Nat) : List Broken :=
  let m := v.weirMarks st w
  rule (decide (1000 < m.1) || decide (999 < m.2) || (m.1 != 0 && decide (m.1 ≤ m.2))) (ents (0x8100 + st) [9 + w])

/-- Lines a ring needs to keep a sealed page (R693). -/
def State.sealLines (v : State) (st : Nat) : Nat :=
  let e := if v.nat (Obj.pageMode st) = 2 then v.nat (Obj.edgeConfirm st) else 0
  v.nat (Obj.phases st) * (v.nat (Obj.pageLeadCycles st) + e + 2) + (v.nat (Obj.maxLineRate st) * 4 + 9999) / 10000

/-- Rules of one configured stream. -/
def streamRule (v : State) (st : Nat) : List Broken :=
  let a := fun subs => ents (0x5100 + st) subs
  let r := fun subs => ents (0x8100 + st) subs
  let t : Nat → Nat → Bool := fun i _ => i == 0x5200 + st
  let cls := v.nat (Obj.streamClass st)
  let scope := v.nat (Obj.deliverScope st)
  let packed := v.flag (Obj.compressionAllowed st)
  let lead := ((v.tribs st).filter fun t => t.kind == 0).map fun t => 1000 * (v.nat (Obj.triggerLead t.source) + 1)
  let groups := ((v.tribs st).filter fun t => t.kind == 0).map Trib.source
  let chan := v.nat (Obj.streamChannel st)
  rule ((1100 :: lead).any fun l => decide (v.nat (Obj.freezeLead st) < l)) (both (both (ents 0x6025 [st + 1]) t) (entsOf 0x3200 groups [21])) ++
  rule (cls == 0 && (decide ((if Config.oneStack then 524288 else 1048576) < v.lineBytesOf st) || scope != 0))
    (both (both (a [3]) (r [4, 5, 21])) t) ++
  rule (cls == 0 && packed) (both (a [3]) (r [5])) ++
  rule (decide (v.nat (Obj.storedWidthMax st) < v.nat (Obj.storedWidth st))) (both (a [7]) (r [4])) ++
  rule (v.flag (Obj.compression st) && !packed) (both (a [8]) (r [5])) ++
  rule (scope != 2 && chan == 65535) (both (ents 0x9010 [st + 1]) (both (r [21]) t)) ++
  rule (v.flag (Obj.edgeEnable st) && decide (v.nat (Obj.phases st) ≤ v.nat (Obj.edgePhase st))) (both (ents (0x8300 + st) [1, 2]) (a [4])) ++
  rule (decide (v.nat (Obj.edgeThresholdMax st) < v.nat (Obj.edgeThresholdMin st))) (ents (0x8300 + st) [9, 10])

/-- Rules of one stream that hold whether or not it has a tributary. -/
def sealRule (v : State) (st : Nat) : List Broken :=
  if !v.flag (Obj.sealEnable st) then []
  else
    rule (v.nat (Obj.deliverScope st) == 2) (both (ents 0xC100 [st + 1]) (ents (0x8100 + st) [21])) ++
    rule (decide (v.nat (Obj.ringLines st) < v.sealLines st))
      (both (ents 0xC100 [st + 1]) (both (ents (0x8100 + st) [1, 14, 16]) (both (ents (0x5100 + st) [4, 6]) (ents (0x8300 + st) [13]))))

/-- The entries the stored size of lines follows from. -/
def sizeEnts : Nat → Nat → Bool := fun i b =>
  (decide (0x5100 ≤ i ∧ i < 0x5140) && (b == 3 || b == 4 || b == 6 || b == 12)) || decide (0x5200 ≤ i ∧ i < 0x5240) ||
    (decide (0x8100 ≤ i ∧ i < 0x8140) && (b == 1 || b == 4 || b == 5 || b == 21 || b == 22)) ||
    (decide (0x3200 ≤ i ∧ i < 0x3260) && decide (1 ≤ b ∧ b ≤ 8))

/-- Write or read budget in force, bit/s (R407): in Degraded, less the share of a stack with two failed channels (R669). -/
def State.budget (v : State) : Nat :=
  let share := 3200000000000
  let whole := if Config.oneStack then share else 2 * share
  if v.mode != .degraded then whole
  else whole - share * ((List.range (if Config.oneStack then 1 else 2)).filter fun k => decide (2 ≤ v.failedCount k)).length

/-- Slice cycles per second in force (R216, R669). -/
def State.sliceCycles (v : State) : Nat := if v.mode == .degraded then 1600000000 * v.nat Obj.slicesActive else 102400000000

/-- Sums over every stream against what the device has (R216, R221, R407, R413, R496, R614, R693). -/
def sumRules (s v : State) : List Broken :=
  let all : State → Nat := fun x => x.reservoirLoad fun _ => true
  let read : State → Nat := fun x => x.reservoirLoad fun st => x.nat (Obj.deliverScope st) != 2
  let raises := fun (f : State → Nat) => s.mode == .degraded && decide (f s < f v)
  let class0 := v.configuredStreams.filter fun st => v.nat (Obj.streamClass st) == 0
  rule (decide (95 * v.sliceCycles < 100 * v.loadCycles) || raises State.loadCycles) sizeEnts ++
  rule (decide (114688 < v.coefRowsUsed)) sizeEnts ++
  rule (decide (v.budget < all v) || raises all || decide (v.budget < read v) || raises read) sizeEnts ++
  rule (decide (reservoirBytes < v.allocated)) sizeEnts ++
  rule (decide (8 < class0.length)) sizeEnts ++
  rule ((v.nat Obj.hostLinkRating != 0 && decide (v.nat Obj.hostLinkRating * 1000000 < 4 * v.class0Load)) || raises State.class0Load) sizeEnts ++
  rule (decide (16000000000 < v.sealBytes)) (both sizeEnts fun i _ => i == 0xC100) ++
  rule (decide (65536 < sumNat ((List.range 64).map fun st => (v.strm st).tables.defects.length)))
    (fun i b => decide (0x5400 ≤ i ∧ i < 0x5440) && b == 2) ++
  rule ((List.range 64).any fun st => decide (v.nat Obj.syncApplyDelay < v.nat (Obj.freezeLead st) + 1000))
    (both (ents 0x7000 [17]) fun i _ => i == 0x6025)

/-- A channel bound to two streams (R462). -/
def channelRule (v : State) : List Broken :=
  (List.range 64).flatMap fun st =>
    let c := v.nat (Obj.streamChannel st)
    let others := (List.range 64).filter fun o => o != st && v.nat (Obj.streamChannel o) == c
    rule (c != 65535 && !others.isEmpty) (ents 0x9010 ((st :: others).map (· + 1)))

/-! ### Table members (R222, R226, R229, R235, R276) -/

/-- A table staged with the group: its size, its packing and what it says. -/
def tableRule (v : State) (m : Nat × Val) : List Broken :=
  let index := m.1 / 256
  let sub := m.1 % 256
  let me := ents index [sub]
  match m.2 with
  | .num _ => []
  | .blob b =>
    if 0x5400 ≤ index && index < 0x5440 && sub = 1 then
      let st := index - 0x5400
      let n := widthOf (v.tribs st) * v.nat (Obj.phases st)
      let loose := (List.range n).any fun i =>
        let o := leNat ((b.drop (6 * i)).take 3)
        let g := leNat ((b.drop (6 * i + 3)).take 3)
        field o 18 6 != (if bitAt o 17 then 63 else 0) || decide (2 ^ 18 ≤ g)
      rule (b.length != 6 * n) me 0x11 ++
      rule (b.length == 6 * n && loose) me 0x06 ++
      rule (!v.flag (Obj.coefShadow st) && v.streamOpen? st) me
    else if 0x5400 ≤ index && index < 0x5440 && sub = 2 then
      let st := index - 0x5400
      let w := widthOf (v.tribs st)
      let ds := defectsOfBytes (b.length / 4) b
      let reserved := (List.range (b.length / 4)).any fun i => field (leNat ((b.drop (4 * i)).take 4)) 18 12 != 0
      let order := (ds.zip (ds.drop 1)).any fun p => decide (p.2.1 ≤ p.1.1)
      let sources := ds.any fun d =>
        let src := sourcesOf ds d.1 d.2
        let out := fun (o : Option Nat) => match o with
          | none => true
          | some x => decide (w ≤ x)
        let bad := fun (o : Option Nat) => out o || (match o with
          | none => true
          | some x => ds.any fun e => e.1 == x)
        match d.2 with
        | 0 => bad src.1
        | 1 => bad src.2
        | 2 => bad src.1 || bad src.2
        | _ => out src.1 || out src.2
      rule (b.length % 4 != 0 || decide (b.length < 4 ∨ 16384 < b.length)) me 0x11 ++
      rule (reserved || order || (ds.any fun d => decide (w ≤ d.1)) || sources) me
    else if 0x5501 ≤ index && index < 0x5600 then
      let ks := (List.range 257).map fun i => leNat ((b.drop (3 * i)).take 3)
      rule (b.length != 771) me 0x11 ++
      rule (ks.any fun k => decide (2 ^ 18 ≤ k)) me 0x06 ++
      rule ((ks.zip (ks.drop 1)).any fun p => decide (p.2 < p.1)) me
    else if index = 0x7000 then rule (b.length != 2048) me 0x11
    else if index = 0xD000 then rule (decide (524288 < b.length)) me 0x11
    else []

/-! ### Timing pins, motion and transports (R318, R319, R329, R336, R339, R347, R349) -/

/-- A TioConfig outside the function table (R318, R319, R418). -/
def tioRule (v : State) (t : Nat) : List Broken :=
  let src := v.tioSource t
  let pulse := v.tioPulse t
  let ok := match v.tioFn t with
    | 0 | 4 => decide (pulse ≤ 255)
    | 1 => decide (src < 16 ∧ pulse ≤ 255)
    | 2 => decide (src < 64 ∧ pulse ≤ 255)
    | 3 => decide (src ≤ 16 ∧ pulse ≤ 255)
    | 16 => decide (src < 1024)
    | 17 => decide (src / 16 < 64 ∧ src % 16 < 4)
    | 18 | 22 => decide (src < 64 ∧ 1 ≤ pulse)
    | 19 => decide (src < 64)
    | 20 => decide (src < 16)
    | 21 => decide (1 ≤ pulse)
    | _ => false
  rule (!ok) (ents (0x6200 + t) [1])

/-- Twice the step width fits the step period (R329). -/
def stepOk (width vmax : Nat) : Bool := decide (2 * width * vmax ≤ 1000000000)

/-- The stopping distance from a speed (R326), compared: it exceeds `k × q ÷ p` steps, for a positive `p`. -/
def stopsBeyond (speed A J : Nat) (p : Nat) (k q : Nat) : Bool :=
  if A * A ≤ speed * J then decide (k * q * (2 * A * J) < speed * (speed * J + A * A) * p)
  else decide (k * k * q * q * J < speed * speed * speed * p * p)

/-- Whole lines of a stream in the stopping distance (R347). -/
def stopLines (speed A J ratio pitch : Nat) : Nat :=
  if A * A ≤ speed * J then speed * (speed * J + A * A) * ratio / (max (2 * A * J) 1 * max pitch 1)
  else isqrt (speed * speed * speed * ratio * ratio / (max J 1 * max pitch 1 * max pitch 1))

/-- A transport's channels (R336), presets (R339), ring room (R347) and back-up distance (R349). -/
def transportRule (v : State) (u : Nat) : List Broken :=
  let kind := v.nat (Obj.transportKind u)
  let m := v.nat (Obj.transportMotion u)
  let c := v.nat (Obj.transportChannel u)
  let sts := v.streamsOf u
  let n := v.nat (Obj.pacingPresets u)
  let top := v.nat (Obj.pacingMax u)
  let speed := fun k => (v.preset u k).1
  let me := fun subs => ents (0x6110 + u) subs
  let ofStreams : Nat → Nat → Bool := fun i b => (i == 0x6021 || i == 0x6022 || i == 0x6100) && sts.any fun st => b == st + 1
  let A := v.nat (Obj.motAMax m)
  let J := v.nat (Obj.motJMax m)
  let ratio := v.nat (Obj.followRatio m)
  let presets := (List.range n).any fun k =>
    (k != 0 && decide (speed k ≤ speed (k - 1))) || (decide (m < 16) && decide (v.nat (Obj.motVMax m) < speed k)) ||
      (k != 0 && decide ((v.preset u k).2.2 ≤ (v.preset u k).2.1))
  let room := sts.any fun st =>
    let lines := v.nat (Obj.ringLines st)
    let high := (v.weirMarks st 0).1
    lines != 0 && high != 0 &&
      decide (lines * (1000 - high) / 1000 < stopLines (speed top) A J ratio (v.nat (Obj.linePitch st)) + 2)
  let lead := maxNat (sts.map fun st => v.nat (Obj.freezeLead st))
  let extra := (if c < 16 then v.nat (Obj.extrapEdges c) else 0) + 2 + (lead * speed top * ratio + 65535999999999) / 65536000000000
  let back := v.nat (Obj.backupDistance u)
  rule (sts.any fun st => v.nat (Obj.triggerSource st) == 1 && v.nat (Obj.triggerChannel st) != c) (both ofStreams (me [1, 3])) ++
  rule ((kind == 1 || decide (m < 16)) && sts.any fun st => v.nat (Obj.triggerSource st) == 0) (both ofStreams (me [1, 2])) ++
  rule (kind == 1 && decide (16 ≤ m)) (me [1, 2]) ++
  rule (decide (m < 16) && v.nat (Obj.followChannel m) != c) (both (me [1, 2, 3]) (ents (0x6050 + m) [16])) ++
  rule (decide (m < 16) && (List.range 16).any fun o => o != u && v.nat (Obj.transportMotion o) == m)
    (entsOf 0x6110 (List.range 16) [1, 2]) ++
  rule (presets || decide (n ≤ top) || decide (top < v.nat (Obj.pacingMin u)) || decide (n ≤ v.nat (Obj.pacingFixed u)))
    (me ([1, 2, 8, 9, 10, 12] ++ (List.range 8).map (· + 17))) ++
  rule (kind == 1 && decide (m < 16) && room)
    (both (both (me [1, 2, 10, 17, 18, 19, 20, 21, 22, 23, 24]) (ents (0x6050 + m) [17]))
      (fun i b => (i == 0x6020 || i == 0x6100) && (sts.any fun st => b == st + 1) || (b == 1 || b == 9) && sts.any fun st => i == 0x8100 + st)) ++
  rule (kind == 1 && decide (m < 16) && (decide (back < extra) || stopsBeyond (speed top) A J ratio (back - extra) 65536))
    (both (both (me [1, 2, 3, 4, 10, 17, 18, 19, 20, 21, 22, 23, 24]) (ents (0x6050 + m) [17]))
      (fun i b => (i == 0x6025 || i == 0x6100) && (sts.any fun st => b == st + 1) || (b == 16 && decide (c < 16) && i == 0x6010 + c)))

/-! ### Illumination (R372, R376, R381) -/

/-- Bands named in any PhaseLight of a stream. -/
def State.bandsNamed (v : State) (st : Nat) : Nat := (List.range 16).foldl (fun a ph => a ||| v.bandsOf st ph) 0

/-- Two bands share a populated column. -/
def State.columnsMeet (v : State) (a b : Nat) : Bool := (v.nat (Obj.bandColumns a) &&& v.nat (Obj.bandColumns b)) != 0

/-- Bands that may not be lit as they are named, and crosspoints over the duty limit. -/
def lampRules (v : State) : List Broken :=
  let names := (List.range 64).map v.bandsNamed
  let bands := (List.range 16).filter fun b => names.any fun n => bitAt n b
  let lights : Nat → Nat → Bool := fun i b => decide (0x7100 ≤ i ∧ i < 0x7140) && decide (17 ≤ b ∧ b ≤ 32)
  let columns : Nat → Nat → Bool := fun i b => decide (0x7010 ≤ i ∧ i < 0x7020) && b == 2
  let twice := bands.any fun b => decide (1 < (names.filter fun n => bitAt n b).length)
  let meets := bands.any fun a => bands.any fun b => a != b && v.columnsMeet a b &&
    (List.range 64).any fun st => bitAt (names.getD st 0) a && (List.range 64).any fun o => o != st && bitAt (names.getD o 0) b
  let phase := (List.range 64).any fun st => (List.range 16).any fun ph =>
    let m := v.bandsOf st ph
    m != 0 && bands.any fun a => bands.any fun b => a != b && bitAt m a && bitAt m b && v.columnsMeet a b
  let limit := 4095 * v.nat Obj.columnDutyLimit / 100
  let heavy := bands.any fun b => (v.columnsOf b).any fun c =>
    decide (limit < fullCode (v.nat (Obj.bandFullScale b)) (Table.get 32768 v.lamps.trim (xpIndex b c)))
  rule (twice || meets || phase) (both lights columns) ++
  rule heavy (both (both lights columns) (both (ents 0x7000 [12, 24]) fun i b => decide (0x7010 ≤ i ∧ i < 0x7020) && b == 3)) ++
  rule (decide (v.nat Obj.blankTime < v.nat Obj.dischargeTime)) (ents 0x7000 [9, 10]) ++
  rule (decide (v.nat Obj.lampRailMax < v.nat Obj.lampRailMin)) (ents 0x7000 [4, 5])

/-- Pulses and guards fit every exposure of a stream (R376). -/
def pulseRule (v : State) (st : Nat) : List Broken :=
  let g := ns (v.nat (Obj.lampGuard st))
  let long := (List.range (v.nat (Obj.phases st))).any fun ph =>
    let w := field (v.nat (Obj.phaseLight st ph)) 0 32
    let lit := v.bandsOf st ph != 0
    lit && (v.exposures st ph).any fun e =>
      let p := if w = 0 then 0 else w * e / max (v.nat (Obj.phaseExposure st ph)) 1
      decide (e < p + 2 * g)
  rule long (both (exposureEnts st) (ents (0x7100 + st) (33 :: (List.range 16).map (· + 17)))) ++
  rule (decide (2 * v.nat (Obj.lampGuard st) < v.nat Obj.blankTime + v.nat Obj.bandLead)) (both (ents (0x7100 + st) [33]) (ents 0x7000 [9, 11]))

/-! ### Front end (R503, R512, R515, R519, R526) -/

/-- Role and generator of a pin (R502). -/
def State.pinRole' (v : State) (p : Nat) : Nat × Nat := let w := v.nat (Obj.pinRole p); (field w 12 4, field w 8 4)

/-- Rules of an enabled channel. -/
def feChanRule (v : State) (k : Nat) : List Broken :=
  if !v.flag (Obj.chEnable k) then []
  else
    let p := v.nat (Obj.chPos k)
    let n := v.nat (Obj.chNeg k)
    let j := v.nat (Obj.chConverter k)
    let g := v.nat (Obj.detGenerator k)
    let me := fun subs => ents (0xA200 + k) subs
    let pins := ents 0xA100 (if n = 64 then [p + 1] else [p + 1, n + 1])
    let trig := if v.flag (Obj.chInjected k) then v.nat (Obj.injTrigSource j) else v.nat (Obj.trigSource j)
    let slow := trigKind trig == 1 && decide (4000000000 * 2 ^ 32 < 4 * v.nat (Obj.genFrequency g) * 400000000 * v.nat (Obj.trigPeriod j))
    rule ((v.pinRole' p).1 != 1 || (n != 64 && (v.pinRole' n).1 != 1 && (v.pinRole' n).1 != 4)) (both (me [1, 2, 3]) pins) ++
    rule (p == n) (me [1, 2, 3]) ++
    rule (p / 32 != j / 8 || (n != 64 && n / 32 != j / 8)) (me [1, 2, 3, 4]) ++
    rule (decide (g < 8) && (slow || !v.flag (Obj.genEnable g))) (both (me [1, 4, 5, 11]) (ents (0xA300 + j) [18, 19, 26])) ++
    rule (bitAt (v.nat (Obj.autoRange k)) 15 && v.multiplexed j)
      (both (entsOf 0xA200 (List.range 64) [1, 4, 5, 7]) (ents (0xA300 + j) ((List.range 16).map (· + 2))))

/-- Rules of the excitation pins. -/
def pinRule (v : State) (p : Nat) : List Broken :=
  let r := v.pinRole' p
  if r.1 != 2 && r.1 != 3 then []
  else
    let others := (List.range 64).any fun q => q != p && v.pinRole' q == r
    let near := (List.range 64).filter fun k => v.flag (Obj.chEnable k) &&
      (decide (6 ≤ v.nat (Obj.chGain k)) || (bitAt (v.nat (Obj.autoRange k)) 15 && decide (6 ≤ field (v.nat (Obj.autoRange k)) 7 4))) &&
      [v.nat (Obj.chPos k), v.nat (Obj.chNeg k)].any fun q => q != 64 && q / 32 == p / 32 && (q == p + 1 || q + 1 == p)
    rule (r.2 / 4 != p / 32) (ents 0xA100 [p + 1]) ++
    rule others (fun i _ => i == 0xA100) ++
    rule (!near.isEmpty) (both (ents 0xA100 [p + 1]) (entsOf 0xA200 near [1, 2, 3, 6, 7]))

/-- Rules of a converter. -/
def convRule (v : State) (j : Nat) : List Broken :=
  let mode := v.nat (Obj.convMode j)
  let seq := v.sequence j
  let injected := (List.range 64).filter fun k => v.flag (Obj.chEnable k) && v.flag (Obj.chInjected k) &&
    (v.nat (Obj.chConverter k) == j || v.nat (Obj.chConverter k) == j + 1)
  let me := fun subs => ents (0xA300 + j) subs
  let run := v.convPeriod j * v.runLength j + (if v.flag (Obj.lowPower j) then 6000 else 0)
  rule (mode == 2 && (j % 2 == 1 || decide (1 < seq.length) || !injected.isEmpty))
    (both (me ((List.range 17).map (· + 1))) (entsOf 0xA200 injected [1, 4, 5])) ++
  rule ((mode == 1 || mode == 2) && trigKind (v.nat (Obj.trigSource j)) == 1 && decide (v.nat (Obj.trigPeriod j) < run))
    (both (me ((List.range 17).map (· + 1) ++ [18, 19, 22])) (entsOf 0xA200 seq [8]))

/-! ### Power, faults and approved mode (R631, R642, R692) -/

/-- AVS bounds, spare policies and approved mode. -/
def deviceRules (s v : State) : List Broken :=
  let lo := v.nat Obj.avsFloor
  let hi := v.nat Obj.avsCeiling
  let fix := v.nat Obj.avsFixed
  let breaks := v.flag Obj.approvedModeLock && (s.conditions.zip v.conditions).any fun c => c.1 && !c.2
  rule (decide (hi < lo) || decide (fix < lo) || decide (hi < fix)) (ents 0x2300 [2, 3, 4]) ++
  ((List.range 256).flatMap fun k => rule (v.policy k 12 && (poolOf k 0).isNone) (ents (0xB100 + k) [1])) ++
  rule breaks fun i b => i == 0xC100 || (decide (0x8100 ≤ i ∧ i < 0x8140) && b == 21) || (i == 0xD000 && (b == 3 || b == 4))

/-! ### Validation (R26, R27, R31) -/

/-- Every broken rule of the configuration a group would put in force. -/
def brokenRules (s : State) (ms : List (Nat × Val)) : List Broken :=
  let v := s.projected ms
  let sts := v.configuredStreams
  ms.flatMap (tableRule v) ++ (List.range 96).flatMap (groupRule v) ++ (List.range 32).flatMap (inputRule v) ++
    (List.range 32).flatMap (portRule v) ++ sts.flatMap (analogRule v) ++ (List.range 64).flatMap (tribRule v) ++
    (List.range 64).flatMap (fun st => (List.range 4).flatMap (weirRule v st)) ++ sts.flatMap (streamRule v) ++
    (List.range 64).flatMap (sealRule v) ++ sumRules s v ++ channelRule v ++ (List.range 96).flatMap (tioRule v) ++
    (List.range 16).flatMap (fun m => rule (!stepOk (v.nat (Obj.stepWidth m)) (v.nat (Obj.motVMax m))) (ents (0x6050 + m) [9])) ++
    (List.range 16).flatMap (transportRule v) ++ lampRules v ++ sts.flatMap (pulseRule v) ++ (List.range 64).flatMap (feChanRule v) ++
    (List.range 64).flatMap (pinRule v) ++ (List.range 16).flatMap (convRule v) ++ deviceRules s v

/-- The boundary of an entry, in the order of R23; I for one without. -/
def boundaryOf (key : Nat) : Nat :=
  match (rowOf (key / 256) (key % 256)).bind Row.boundary with
  | some b => b.rank
  | none => 5

/-- The boundary of a group: the coarsest of M, P, C and L, or S or I for all its members (R27). -/
def groupBoundary (keys : List Nat) : Nat := (keys.map boundaryOf).foldl min 5

/-- The member whose boundary differs from the first's in a group that mixes S or I with others (R27). -/
def mixedMember (keys : List Nat) : Option Nat :=
  match keys with
  | [] => none
  | k :: _ => if keys.any fun m => decide (4 ≤ boundaryOf m) then keys.find? fun m => boundaryOf m != boundaryOf k else none

/-- A stream that already holds four accepted groups (R31). -/
def State.fullStream (s : State) (boundary : Nat) (ms : List (Nat × Val)) : Option Nat :=
  if 1 ≤ boundary && boundary ≤ 3 then
    (s.streamsOfMembers ms).find? fun st => s.streamOpen? st &&
      decide (4 ≤ (s.groupsWaiting.filter fun g => decide (1 ≤ g.boundary ∧ g.boundary ≤ 3) && g.streams.contains st).length)
  else none

end Sys2Proof.Machine
end

