-- ==== Sys2Proof/Machine/Writes.lean ====
section
/-! DEFINITION. What an accepted write of an entry does, and what its own rule refuses it with (R556 RANGE, MODE, BUSY): one list per
part of the dictionary, each entry without a rule of its own simply taking the value (R11). -/
namespace Sys2Proof.Machine

/-- What a request did: the state, and what follows once its response has been sent. -/
structure Done where
  state : State
  after : State → State := id
  /-- It was refused after all, having raised the event of its refusal. -/
  refused : Option Err := none

/-- What a write answers: its error, or what it did. -/
abbrev Effect := Except Err Done

/-- An error of a code, with the DETAIL R556 gives it. -/
def errOf (s : State) (code : Nat) : Err := ⟨code, if code = 0x09 then s.mode.code else if code = 0x18 then Kind.tamper else 0⟩

/-- A write that a rule refuses. -/
def deny (s : State) (code : Nat) : Effect := .error (errOf s code)
/-- A write that did its work. -/
def did (s : State) : Effect := .ok { state := s }
/-- A write that a rule refuses with an event. -/
def denyTelling (t : State) (code : Nat) : Effect := .ok { state := t, refused := some (errOf t code) }
/-- A write that does its work unless it has an error. -/
def orElseDo (e : Option Nat) (s t : State) : Effect := match e with
  | some code => deny s code
  | none => did t
/-- A write that does its work where a test holds, and is refused with RANGE otherwise. -/
def inRange (ok : Bool) (s t : State) : Effect := if ok then did t else deny s 0x07

/-- The unit an index names in a range of `n` from `base`. -/
def unitOf (index base n : Nat) : Option Nat := if base ≤ index && index < base + n then some (index - base) else none

/-- A mode by its code. -/
def modeOf (code : Nat) : Option Mode :=
  ([.off, .sentinel, .boot, .configure, .calibrate, .idleReady, .scan, .stream, .hold, .maintenance, .degraded, .safeHalt] : List Mode).find?
    fun m => m.code == code

/-! ### Modes, time, queues, start-up (0x2000 to 0x20FF) -/

/-- ModeRequest written (R606, R607): the mode, or MODE or ROLE. -/
def writeMode (role code : Nat) (s : State) : Effect :=
  match modeOf code with
  | none => deny s 0x09
  | some m =>
    match modeError role m s with
    | some 0x08 => .error ⟨0x08, m.role⟩
    | some e => deny s e
    | none => did (requestMode role m s)

/-- Entries of the device. -/
def writeDevice (role index sub : Nat) (v : Int) (s : State) : Option Effect :=
  let n := v.toNat
  if index = 0x2000 && sub = 2 then some (writeMode role n s)
  else if index = 0x2000 && sub = 10 then some (inRange (decide (-400 ≤ v ∧ v ≤ s.reg Obj.tjShutdown - 50)) s (s.setReg Obj.tjWarnLimit v))
  else if index = 0x2020 && sub = 4 then some (if s.mode != .maintenance then deny s 0x09 else did (if n = 0 then s else stateOf s (execQueueFlush s)))
  else if index = 0x2050 && sub = 9 then some (.ok { state := s, after := fun t => deviceReset 4 t })
  else none

/-! ### Lanes, link groups, streams, calibration (0x3000 to 0x57FF) -/

/-- A lane's entries (R97, R109, R118). -/
def writeLane (l sub : Nat) (v : Int) (s : State) : Option Effect :=
  let n := v.toNat
  let lane : Fin 104 := Fin.ofNat 104 l
  match sub with
  | 3 => some (inRange (fwdPowerOk l n s) s (stateOf s (execFwdPowerReq lane (Fin.ofNat 3 n) s)))
  | 4 => some (did (stateOf s (execBackPowerReq lane (Fin.ofNat 3 n) s)))
  | 10 => some (inRange (decide (field n 8 8 ≤ 31 ∧ field n 0 8 ≤ field n 8 8)) s (s.setReg (Obj.ctleRange l) v))
  | 17 => some (did (if n = 0 then s else stateOf s (execRetrain lane s)))
  | 18 => some (if !prbsCtlOk n then deny s 0x07
      else if (bitAt n 31 || bitAt n 30) && s.mode != .maintenance then deny s 0x09
      else
        let t := prbsWrite l n s
        did (if bitAt n 25 then stateOf t (execPrbsInjectOne lane t) else t))
  | _ => none

/-- A link group's proxy entries (R173). -/
def writeCamera (g sub : Nat) (v : Int) (s : State) : Option Effect :=
  let group : Fin 96 := Fin.ofNat 96 g
  match sub with
  | 4 => some (if (s.group g).proxyBusy then deny s 0x0A
      else if v == 2 && decide ((s.group g).camRegData.length ≠ 4 * s.nat (Obj.camRegCount g)) then deny s 0x07
      else did (stateOf s (if v = 1 then execCamRegRead group s else execCamRegWrite group s)))
  | _ => none

/-- A stream's calibration entries (R256, R282). -/
def writeCal (st sub : Nat) (v : Int) (s : State) : Option Effect :=
  let n := v.toNat
  match sub with
  | 1 => some (if n != 6 && (s.calib st).busy then denyTelling (calCommand st n s) 0x0A
      else if n != 6 && !calModes n s.mode then deny s 0x09
      else if n < 5 && s.groupsFull st then .error ⟨0x0C, st⟩
      else did (calCommand st n s))
  | 3 => some (inRange (([16, 32, 64, 128, 256, 512, 1024] : List Nat).contains n) s (s.setReg (Obj.calLines st) v))
  | _ => none

/-- Entries of links, streams and calibration. -/
def writePath (index sub : Nat) (v : Int) (s : State) : Option Effect :=
  let n := v.toNat
  if index = 0x3000 && sub = 2 then some (inRange (decide (n < s.nat Obj.eyeMarginWarn)) s (s.setReg Obj.eyeMarginFail v))
  else match unitOf index 0x3100 104, unitOf index 0x3400 96, unitOf index 0x5100 64, unitOf index 0x5700 64 with
    | some l, _, _, _ => writeLane l sub v s
    | _, some g, _, _ => writeCamera g sub v s
    | _, _, some st, _ =>
      if sub = 1 then
        some (match streamWriteError st (v != 0) s with
          | some e => denyTelling (writeStreamEnable st (v != 0) s) e
          | none => did (writeStreamEnable st (v != 0) s))
      else none
    | _, _, _, some st => writeCal st sub v s
    | none, none, none, none =>
      if index = 0x5600 && sub = 8 then some (did (if n = 0 then s else enterWarming s)) else none

/-! ### Position, motion, timing pins, transports (0x6000 to 0x62FF) -/

/-- A compare unit's values (R311): v below the CountsPerRev of the unit's channel, a control word with a direction and a REARM. -/
def compareOk (k sub n : Nat) (s : State) : Bool :=
  let cpr := s.nat (Obj.countsPerRev (k / 4))
  if sub = 1 then cpr == 0 || decide (n < cpr) else cmpDir n != 3 && field n 16 8 != 0

/-- A motion channel's entries (R325 to R329, R337, R773). -/
def writeMotion (m sub : Nat) (v : Int) (s : State) : Option Effect :=
  let chan : Fin 16 := Fin.ofNat 16 m
  let replan := stateOf s (execMotionReplan chan (Fin.ofNat 32 sub) v s)
  match sub with
  | 1 => some (did (stateOf s (execMotEnable chan (v != 0) s)))
  | 2 | 3 => some (if s.motionBusy m then deny s 0x0A else did replan)
  | 4 => some (if s.motionBusy m then deny s 0x0A else inRange (decide (v.natAbs ≤ s.nat (Obj.motVMax m))) s replan)
  | 5 => some (inRange (stepOk (s.nat (Obj.stepWidth m)) v.toNat) s replan)
  | 6 | 7 | 8 | 18 => some (did replan)
  | 15 =>
    let owned : Bool := match s.transportOfMotion m with
      | some u => (s.trans u).state != .idle && !((s.trans u).state == .fault && v == 4)
      | none => false
    some (match v.toNat with
      | 1 => if s.stopBusy m then deny s 0x0A else did (stateOf s (execMotStop chan s))
      | 2 => did (stateOf s (execMotQuickStop chan s))
      | 3 => did (stateOf s (execMotHardStop chan s))
      | _ => if owned then deny s 0x0A
        else if (s.motion m).state == .fault && !clearOk m s then deny s 0x07
        else did (stateOf s (execMotClear chan s)))
  | _ => none

/-- Entries of positions, motion, pins and transports. -/
def writeMotive (index sub : Nat) (v : Int) (s : State) : Option Effect :=
  let n := v.toNat
  match unitOf index 0x6010 16, unitOf index 0x6040 16, unitOf index 0x6050 16, unitOf index 0x6080 64, unitOf index 0x6200 96 with
  | some c, _, _, _, _ =>
    if sub = 19 then some (inRange (!s.channelTriggers c) s (stateOf s (execPosPreset (Fin.ofNat 16 c) (BitVec.ofInt 64 v) s))) else none
  | _, some c, _, _, _ => if sub = 6 then some (did (if n = 0 then s else stateOf s (execIndexRearm (Fin.ofNat 16 c) s))) else none
  | _, _, some m, _, _ => writeMotion m sub v s
  | _, _, _, some k, _ =>
    if sub ≤ 2 then
      some (inRange (compareOk k sub n s) s (stateOf s (execCompareWrite (Fin.ofNat 64 k) (sub == 2) (BitVec.ofNat 32 n) s)))
    else none
  | _, _, _, _, some t =>
    if sub = 4 then
      some (if s.tioFn t != 21 then deny s 0x07
        else if !pulseAtOk t s then deny s 0x0A
        else did (stateOf s (execTioPulseAt (Fin.ofNat 96 t) (BitVec.ofNat 64 n) s)))
    else none
  | _, _, _, _, _ =>
    match unitOf index 0x6110 16 with
    | some u =>
      if sub = 15 then some (did (stateOf s (if n = 1 then execSeamRestart (Fin.ofNat 16 u) s else execSeamStop (Fin.ofNat 16 u) s))) else none
    | none => none

/-! ### Lamps, rings, delivery, front end (0x7000 to 0xA4FF) -/

/-- Entries of lamps, rings and delivery (R383, R387, R391, R442, R443). -/
def writeStore (index sub : Nat) (v : Int) (s : State) : Option Effect :=
  let n := v.toNat
  match unitOf index 0x7010 16, unitOf index 0x8100 64, unitOf index 0x8200 64 with
  | some b, _, _ => if sub = 1 then some (did (stateOf s (execBandEnable (Fin.ofNat 16 b) (v != 0) s))) else none
  | _, some st, _ => if sub = 23 then some (did (releasePage st n s)) else none
  | _, _, some st =>
    some (inRange (hostMarkOk st n s) s (stateOf s (execHostMark (Fin.ofNat 64 st) (Fin.ofNat 8 (sub - 1)) (BitVec.ofNat 64 n) s)))
  | _, _, _ =>
    if index = 0x7000 && sub = 18 then some (if n = 0 then did s else inRange (syncFireOk s) s (stateOf s (execSyncFire s)))
    else if index = 0x7000 && sub = 23 then some (if n = 0 then did s
        else if s.mode != .idleReady && s.mode != .maintenance then deny s 0x09
        else inRange (lampTestOk s) s (startLampTest s))
    else if index = 0x9020 && sub = 3 then some (did (if n = 0 then s else disableChan (s.nat Obj.channelSelect) s))
    else none

/-- Entries of a front-end channel (R529, R536). -/
def writeFeChan (k sub n : Nat) (s : State) : Option Effect :=
  if sub = 19 then some (if n = 0 then did s else if chTestOk k s then did (startTest k s) else deny s 0x09)
  else if sub = 13 || sub = 14 then some (did (writeThreshold k (sub - 13) n s))
  else none

/-- Entries of the front end (R507, R508, R513, R518, R529, R534, R536). -/
def writeFe (index sub : Nat) (v : Int) (s : State) : Option Effect :=
  let n := v.toNat
  match unitOf index 0xA200 64, unitOf index 0xA300 16, unitOf index 0xA400 8 with
  | some k, _, _ => writeFeChan k sub n s
  | _, some j, _ =>
    if sub = 24 then some (did (if n = 0 then s else requestCal j s))
    else if sub = 27 then some (did (if n = 0 then s else stateOf s (execConvStart (Fin.ofNat 16 j) s)))
    else none
  | _, _, some g =>
    let swing := fun (a o : Nat) => decide (100 + a ≤ o ∧ o + a ≤ 4900)
    match sub with
    | 1 => some (did (stateOf s (execGenEnable (Fin.ofNat 8 g) (v != 0) s)))
    | 3 => some (inRange (swing n (s.nat (Obj.genOffset g))) s (s.setReg (Obj.genAmplitude g) v))
    | 4 => some (inRange (swing (s.nat (Obj.genAmplitude g)) n) s (s.setReg (Obj.genOffset g) v))
    | _ => none
  | _, _, _ =>
    if index = 0xA000 && (sub = 11 || sub = 12) then
      some (did (if n = 0 then s else stateOf s (execFeQueueFlush (Fin.ofNat 2 (sub - 11)) s)))
    else if index = 0xA000 && (sub = 16 || sub = 17) then
      some (if s.mode != .maintenance then deny s 0x09 else did (s.setReg (objOfKey (index * 256 + sub)) v))
    else none

/-! ### The network, repairs, security (0x1000 to 0x1FFF, 0xB000 to 0xFFFF) -/

/-- Entries of the network, repairs and the security island. A write of OpenAccess that would break an approved condition is refused
(R692); it is never written once the lock is (R578). -/
def writeSecure (a : Actor) (index sub : Nat) (v : Int) (s : State) : Option Effect :=
  let n := v.toNat
  let key := index * 256 + sub
  let on := fun (e : Effect) => some (if n = 0 then did s else e)
  -- a lock has 1 as its only value (R688)
  let lock := fun (e : Effect) => some (if n = 0 then deny s 0x07 else e)
  if key = 0x101001 then some (if s.flag Obj.approvedModeLock then deny s 0x07 else did (watchConditions (s.setReg Obj.openAccess v)))
  else if key = 0xB30003 then some (inRange (repairClearOk n) s (clearRepairs n s))
  else if key = 0xE00101 then some (orElseDo (nodeLockError n s) s (nodeLock a n s))
  else if key = 0xE00201 then lock (orElseDo (approvedError s) s (approvedLock a s))
  else if key = 0xE00301 then lock (orElseDo (lwError 3 1 s) s (debugLock a s))
  else if key = 0xE00401 then some (orElseDo (ownerHashError (leBytes 48 n) s) s (ownerHash a (leBytes 48 n) s))
  else if key = 0xE00501 then some (orElseDo (rollbackError n s) s (rollback a n s))
  else if index = 0xE006 then
    let e := if sub = 1 then 0 else sub - 2
    some (orElseDo (revokeError e n s) s (revoke a e n s))
  else if key = 0xE00732 then some (orElseDo (promoteError n s) s (promote a n s))
  else if key = 0xC00004 then on (orElseDo (islandError s) s (selfTestRun s))
  else if key = 0xC00005 then on (match islandError s with
    | some e => deny s e
    | none => .ok { state := s, after := fun t => zeroise 0 0 t })
  else if key = 0xC00006 then some (orElseDo (islandError s) s (s.setReg Obj.vendorServiceEnable v))
  else if key = 0xC00008 then on (match debugError s with
    | some e => deny s e
    | none => .ok { state := s, after := fun t => debugUnlock a t })
  else if index = 0xC010 then some (orElseDo (roleKeyError (leBytes 32 n) s) s (setRoleKey a (sub - 1) (leBytes 32 n) s))
  else if key = 0xC20005 then some (orElseDo (auditAckError n s) s (auditAck a n s))
  else if key = 0xC30006 then on (did (tamperClear s.sec.tamperIn s))
  else none

/-- A write that takes effect when accepted: by the entry's own rule, or its value simply stands (R11). -/
def writeOwn (a : Actor) (role index sub : Nat) (v : Int) (s : State) : Effect :=
  (writeDevice role index sub v s <|> writePath index sub v s <|> writeMotive index sub v s <|> writeStore index sub v s <|>
    writeFe index sub v s <|> writeSecure a index sub v s).getD (did (s.setReg (objOfKey (index * 256 + sub)) v))

/-! ### Blocks that take effect at once (R173, R567, R683, R689) -/

/-- A fixed size an object has whatever the configuration (R565). -/
def fixedSize (index sub : Nat) (r : Row) : Option Nat :=
  if 0x5501 ≤ index && index < 0x5600 then some 771
  else if index = 0x7000 && sub = 24 then some 2048
  else if index = 0xC020 && sub = 1 then some 2049
  else if index = 0xC020 && sub = 2 then some 5454
  else if r.size ≠ 0 then some r.size
  else none

/-- The checks Primrose makes of a Peony image, an 8 KiB header and its body (R680, R681). -/
def imageCheck (b : Bytes) : SlotCheck :=
  let at_ := fun (lo n : Nat) => (b.drop lo).take n
  let head := b.take 128
  let vk := leNat (at_ 68 8)
  let key := (List.range 4).find? fun i => keyId (Config.romKey i) == vk
  let signs := fun (block : Bytes) (ec ml : Bytes) =>
    Config.verifyEc block (Config.sha384 head) ec && Config.verifyMl block head (ascii "Peony") ml
  { present := leNat (at_ 0 4) == 1 && decide (8192 ≤ b.length), virgeantKey := BitVec.ofNat 64 vk, known := key.isSome,
    signatures := signs (Config.romKey (key.getD 0)) (at_ 128 96) (at_ 224 3309), ownerKey := BitVec.ofNat 64 (leNat (at_ 76 8)),
    ownerSigned := false, svn := BitVec.ofNat 8 (leNat (at_ 8 1)), digest := Config.sha384 (at_ 8192 (leNat (at_ 16 4))) == at_ 20 48,
    version := BitVec.ofNat 32 (leNat (at_ 4 4)) }

/-- A FirmwareImage that has arrived: the inactive slot is written, and marked active if it verifies; one that fails stands there invalid
(R683, R704, R734). -/
def writeImage (a : Actor) (b : Bytes) (s : State) : Effect :=
  let c := imageCheck b
  let owner := s.sec.ownerBlock
  let head := b.take 128
  let c := { c with ownerSigned := Config.verifyEc owner (Config.sha384 head) ((b.drop 3533).take 96) &&
                                   Config.verifyMl owner head (ascii "Peony") ((b.drop 3629).take 3309) }
  match recordError s with
  | some e => deny s e
  | none =>
    let slot := 1 - s.sec.active
    if (slotFails c s).isSome then denyTelling { s with sec := { s.sec with slots := Table.set {} s.sec.slots slot {} } } 0x07
    else
      let x : PeonySlot := ⟨true, c.version.toNat, c.svn.toNat, c.virgeantKey.toNat, c.ownerKey.toNat⟩
      let s := { s with sec := { s.sec with active := slot, slots := Table.set {} s.sec.slots slot x } }
      let s := if s.boot.recovery then s.setReg Obj.bootAttempts (putField (s.nat Obj.bootAttempts) (8 * slot) 8 0 : Nat) else s
      did (audit 0x03 a 0xC030 1 0 (leBytes 1 slot ++ leBytes 4 x.version ++ leBytes 1 x.svn) false s)

/-- A block for an entry that takes effect at once. -/
def writeBlob (a : Actor) (index sub : Nat) (b : Bytes) (s : State) : Effect :=
  match unitOf index 0x3400 96 with
  | some g => inRange (decide (b.length = 4 * s.nat (Obj.camRegCount g))) s (s.updGroup g fun x => { x with camRegData := b })
  | none =>
    if index = 0xC020 && sub = 1 then orElseDo (islandError s) s { s with sec := { s.sec with ownerBlock := b } }
    else if index = 0xC020 && sub = 2 then orElseDo (islandError s) s { s with sec := { s.sec with transferProof := b } }
    else if index = 0xC030 then writeImage a b s
    else did s

end Sys2Proof.Machine
end

