-- ==== Sys2Proof/Machine/Packets.lean ====
section
/-! DEFINITION. The dictionary protocol (R542 to R580, R734, R766, R767, R775): how a request packet is received, authenticated, executed
and answered, with one service for each opcode. -/
namespace Sys2Proof.Machine

/-! ### A request being served -/

/-- A request with who asks: owner of its groups, transfers and kept responses, and role (0 none). -/
structure Ask where
  q : Kdp
  owner : Nat
  role : Nat
  actor : Actor
  deriving DecidableEq, Repr

/-- What a service answers: a payload, an error with the entry it names, or nothing. -/
inductive Answer where
  | ok (payload : Bytes)
  | fail (index sub : Nat) (e : Err)
  | silent
  deriving DecidableEq, Repr

/-- What a service did: its answer, the state, what follows once the answer is sent, and the session an opening names. -/
structure Served where
  answer : Answer
  state : State
  after : State → State := id
  session : Option Nat := none

/-- An answer with a payload. -/
def answers (p : Bytes) (s : State) : Served := { answer := .ok p, state := s }
/-- An error that names no entry. -/
def fails (s : State) (e : Err) : Served := { answer := .fail 0 0 e, state := s }
/-- An error that names the entry of a request. -/
def Ask.fails (a : Ask) (s : State) (e : Err) : Served := { answer := .fail a.q.index a.q.sub e, state := s }

end Sys2Proof.Machine

namespace Sys2Proof

open Machine

/-- The request port of the sandbox core (R713): SOURCE 0xFD, in no session, while the sandbox is enabled. -/
def Kdp.sandbox (q : Kdp) (s : State) : Bool := q.src == 0xFD && !q.mailbox && !q.auth && s.flag Obj.sandboxEnable

end Sys2Proof

namespace Sys2Proof.Machine

/-- The entries kept from the sandbox whatever its role (R713). -/
def sandboxBarred (index : Nat) : Bool :=
  decide (0xC000 ≤ index ∧ index < 0xD000) || decide (0xE000 ≤ index ∧ index < 0xF000) || decide (0xF000 ≤ index)

/-- The entry a request names, its role met: NO_OBJECT, NO_SUBINDEX or ROLE otherwise (R556, R578). `shown` frees the entries of
show-status to a packet without AUTH. -/
def Ask.entry (a : Ask) (shown : Bool) (s : State) : Except Err Entry :=
  let index := a.q.index
  match entryAt index a.q.sub with
  | .error e => .error e
  | .ok e =>
    if a.q.sandbox s && sandboxBarred index then .error ⟨0x08, e.role index⟩
    else if (shown && !a.q.auth && showStatus index a.q.sub) || roleMeets a.role (e.role index) then .ok e
    else .error ⟨0x08, e.role index⟩

/-- The first four payload bytes of an answer about an entry. -/
def Ask.head (a : Ask) (last : Nat) : Bytes := leBytes 2 a.q.index ++ leBytes 1 a.q.sub ++ leBytes 1 last

/-! ### DISCOVER, NOP, READ, READ_DESC -/

/-- DISCOVER: the identity block (R553). -/
def serveDiscover (_a : Ask) (s : State) : Served := answers s.identityBlock s
/-- NOP: the same bytes (R553). -/
def serveNop (a : Ask) (s : State) : Served := answers a.q.payload s

/-- READ: the value in effect, never a staged one (R564). -/
def serveRead (a : Ask) (s : State) : Served :=
  let index := a.q.index
  let sub := a.q.sub
  match a.entry true s with
  | .error e => a.fails s e
  | .ok .top => answers (a.head 2 ++ leBytes 1 (highestSub index)) s
  | .ok (.row r) =>
    if r.access == .wo then a.fails s ⟨0x05, 0⟩
    else if r.size = 0 then
      let b := s.blobView index sub
      if r.ty == .str && decide (b.length ≤ 1440) then answers (a.head r.ty.code ++ b) s else a.fails s ⟨0x0E, b.length⟩
    else
      let v := s.view index sub
      answers (a.head r.ty.code ++ wireBytes r.size v.1) (readClears index sub v.2)

/-- READ_DESC: the entry's description (R555). -/
def serveReadDesc (a : Ask) (s : State) : Served :=
  match a.entry false s with
  | .error e => a.fails s e
  | .ok e => answers (s.descPayload a.q.index a.q.sub e) s

/-! ### Groups of staged writes (R560 to R563) -/

/-- A staged group of an owner. -/
def State.stagedGroup (s : State) (owner group : Nat) : Option StagedGroup :=
  s.kdps.staged.find? fun g => g.owner == owner && g.group == group

/-- Staged bytes of every group, DOMAIN data apart (R561). -/
def State.stagedBytes (s : State) : Nat :=
  sumNat (s.kdps.staged.map fun g => sumNat (g.members.map fun m => match m.2 with
    | .value (.num _) => ((rowOf (m.1 / 256) (m.1 % 256)).map Row.size).getD 0
    | _ => 0))

/-- A member replaced in its place, or added behind (R560). -/
def putMember (key : Nat) (v : Staged) (ms : List (Nat × Staged)) : List (Nat × Staged) :=
  if ms.any fun m => m.1 == key then ms.map fun m => if m.1 == key then (key, v) else m else ms ++ [(key, v)]

/-- A member staged. -/
def stage (owner group key : Nat) (v : Staged) (s : State) : State :=
  let k := s.kdps
  let staged := if (s.stagedGroup owner group).isSome then
      k.staged.map fun (g : StagedGroup) => if g.owner == owner && g.group == group then { g with members := putMember key v g.members } else g
    else k.staged ++ [{ owner := owner, group := group, members := [(key, v)] }]
  { s with kdps := { k with staged := staged } }

/-- A group cannot take a further entry: 256 members, or 256 KiB staged (R561). -/
def State.groupFull (s : State) (owner group key size : Nat) : Bool :=
  let ms := ((s.stagedGroup owner group).map StagedGroup.members).getD []
  !(ms.any fun m => m.1 == key) && (decide (256 ≤ ms.length) || decide (262144 < s.stagedBytes + size))

/-- A group emptied (R563). -/
def emptyGroup (owner group : Nat) (s : State) : State :=
  { s with kdps := { s.kdps with staged := s.kdps.staged.filter fun g => !(g.owner == owner && g.group == group) } }

/-- What a COMMIT answers: the error with the member it names, or the boundary, the COMMIT_ID and the state. `keeps` says that the group
stays staged. -/
inductive Committed where
  | rejected (key : Nat) (e : Err) (keeps : Bool)
  | accepted (boundary id : Nat) (s : State)

/-- A group accepted: M members enter at once in Configure with the work of its entry (R24), S groups have their broadcast in the request
itself with SyncRole 0 (R384), the others follow `acceptGroup`. -/
def enterCommit (boundary : Nat) (ms : List (Nat × Val)) (s : State) : State :=
  let s := acceptGroup boundary ms (s.mode == .configure) s
  let s := if boundary = 0 && s.mode == .configure then domainsFollow .configure (unitsFollow (refreshConfig s)) else s
  let s := if boundary = 4 && s.nat Obj.syncRole = 0 then syncBroadcast s else s
  watchConditions s

/-- Why a staged member cannot be committed: its transfer is not complete, or failed (R276, R568). -/
def Staged.error (m : Nat × Staged) : Option (Nat × Nat) :=
  match m.2 with
  | .value _ => none
  | .incomplete => some (m.1, 0x0F)
  | .failed => some (m.1, 0x10)

/-- The members of a group whose values are there. -/
def stagedValues (ms : List (Nat × Staged)) : List (Nat × Val) :=
  ms.filterMap fun m => match m.2 with
    | .value v => some (m.1, v)
    | _ => none

/-- The error of one member: its transfer, its boundary among the group's (R27), or the first broken rule that rests on it. -/
def memberError (keys : List Nat) (bs : List Broken) (m : Nat × Staged) : Option (Nat × Nat) :=
  match Staged.error m with
  | some e => some e
  | none =>
    if mixedMember keys == some m.1 then some (m.1, 0x0D)
    else (bs.find? fun b => b.names (m.1 / 256) (m.1 % 256)).map fun b => (m.1, b.code)

/-- A group validated and accepted, or refused for its first failing member (R26, R27, R31, R562, R616). -/
def tryCommit (ms : List (Nat × Staged)) (s : State) : Committed :=
  let vs := stagedValues ms
  let keys := ms.map Prod.fst
  let b := groupBoundary keys
  if s.power.halted || s.mode == .safeHalt then .rejected 0 ⟨0x09, s.mode.code⟩ true
  else match ms.findSome? (memberError keys (brokenRules s vs)) with
    | some (k, code) => .rejected k ⟨0x0B, code⟩ false
    | none =>
      match s.fullStream b vs with
      | some st => .rejected 0 ⟨0x0C, st⟩ true
      | none => .accepted b (s.commitNext % 65536) (enterCommit b vs s)

/-- The COMMIT response's fields behind its GROUP: boundary code and COMMIT_ID (R553, R560). -/
def commitFields (boundary id : Nat) : Bytes := leBytes 1 (wireBoundary boundary) ++ leBytes 2 id

/-- An accepted or refused single write of GROUP 0 (R560). -/
def commitOne (a : Ask) (key : Nat) (v : Val) (s : State) : Served :=
  match tryCommit [(key, .value v)] s with
  | .rejected _ e _ => a.fails s e
  | .accepted b id s => answers (a.head 0 ++ [0] ++ commitFields b id) s

/-- WRITE: staged in a group, committed at once, or in effect when accepted (R560). -/
def serveWrite (a : Ask) (s : State) : Served :=
  let index := a.q.index
  let sub := a.q.sub
  let group := a.q.byte 3
  let value := a.q.payload.drop 4
  let key := index * 256 + sub
  match a.entry false s with
  | .error e => a.fails s e
  | .ok .top => a.fails s ⟨if 15 < group then 0x0D else 0x04, 0⟩
  | .ok (.row r) =>
    if 15 < group then a.fails s ⟨0x0D, 0⟩
    else if r.access == .ro then a.fails s ⟨0x04, 0⟩
    else if group ≠ 0 && r.access != .st then a.fails s ⟨0x0D, 0⟩
    else if r.ty == .domain || decide (1440 < value.length) then a.fails s ⟨0x0E, value.length⟩
    else match parseValue r value with
      | .error e => a.fails s e
      | .ok (.blob _) => a.fails s ⟨0x04, 0⟩
      | .ok (.num v) =>
        let own := index = 0x2000 && (sub = 2 || sub = 10)
        if s.kdps.transfers.any fun t => t.key == key && !t.out then a.fails s ⟨0x0A, 0⟩
        else if !own && !(r.accepts v && fieldsOk index sub v.toNat) then a.fails s ⟨0x07, 0⟩
        else if r.access == .st then
          if group = 0 then commitOne a key (.num v) s
          else if s.groupFull a.owner group key r.size then a.fails s ⟨0x0D, 0⟩
          else answers (a.head group) (stage a.owner group key (.value (.num v)) s)
        else match writeOwn a.actor a.role index sub v s with
          | .error e => a.fails s e
          | .ok d => match d.refused with
            | some e => a.fails d.state e
            | none => { answer := .ok (a.head 0), state := d.state, after := d.after }

/-- COMMIT (R562). -/
def serveCommit (a : Ask) (s : State) : Served :=
  let group := a.q.byte 0
  if group = 0 || 15 < group then fails s ⟨0x0D, 0⟩
  else
    let ms := ((s.stagedGroup a.owner group).map StagedGroup.members).getD []
    match tryCommit ms s with
    | .rejected k e keeps => { answer := .fail (k / 256) (k % 256) e, state := if keeps then s else emptyGroup a.owner group s }
    | .accepted b id s => answers (leBytes 1 group ++ commitFields b id) (emptyGroup a.owner group s)

/-- DISCARD (R563). -/
def serveDiscard (a : Ask) (s : State) : Served :=
  let group := a.q.byte 0
  if group = 0 || 15 < group then fails s ⟨0x0D, 0⟩ else answers (leBytes 1 group) (emptyGroup a.owner group s)

/-- A COMMIT_ID has been issued. -/
def State.issued (s : State) (id : Nat) : Bool := decide (65536 < s.commitNext) || decide (1 ≤ id ∧ id < s.commitNext)

/-- COMMIT_STATUS: 0 PENDING, 1 DONE, 2 UNKNOWN (R553). -/
def serveCommitStatus (a : Ask) (s : State) : Served :=
  let id := a.q.word 0 2
  let code := if s.groupsWaiting.any fun g => g.id == id then 0 else if s.issued id then 1 else 2
  answers (leBytes 2 id ++ leBytes 1 code) s

/-! ### Segmented transfers (R565 to R569) -/

/-- Segments of a transfer. -/
def Transfer.count (t : Transfer) : Nat := (t.total + 1439) / 1440
/-- Bytes of segment `k`. -/
def Transfer.length (t : Transfer) (k : Nat) : Nat := min 1440 (t.total - 1440 * k)
/-- Every segment has been acknowledged. -/
def Transfer.complete (t : Transfer) : Bool := (List.range t.count).all fun k => t.acked.contains k
/-- The bytes that came, in order. -/
def Transfer.bytes (t : Transfer) : Bytes := (List.range t.count).flatMap fun k => Table.get [] t.segs k

/-- A transfer of the asker. -/
def Ask.transfer (a : Ask) (s : State) : Option Transfer := s.kdps.transfers.find? fun t => t.num == a.q.word 0 2 && t.owner == a.owner

/-- A transfer changed. -/
def updTransfer (num : Nat) (f : Transfer → Transfer) (s : State) : State :=
  { s with kdps := { s.kdps with transfers := s.kdps.transfers.map fun t => if t.num == num then f t else t } }

/-- A transfer gone from the table. -/
def endTransfer (num : Nat) (s : State) : State :=
  { s with kdps := { s.kdps with transfers := s.kdps.transfers.filter fun t => t.num != num } }

/-- A transfer discarded: the member it was to become fails its group (R568). -/
def dropTransfer (t : Transfer) (s : State) : State :=
  let s := endTransfer t.num s
  if t.out || t.group = 0 then s else stage t.owner t.group t.key .failed s

/-- SEG_INIT (R565, R569). -/
def serveSegInit (a : Ask) (s : State) : Served :=
  let index := a.q.index
  let sub := a.q.sub
  let key := index * 256 + sub
  let group := a.q.byte 3
  let dir := a.q.byte 4
  let num := s.kdps.nextTransfer
  let open_ := fun (t : Transfer) (s : State) =>
    answers (leBytes 2 num ++ leBytes 1 (s.nat Obj.segWindow) ++ [0] ++ leBytes 4 t.total)
      { s with kdps := { s.kdps with transfers := s.kdps.transfers ++ [t], nextTransfer := num % 255 + 1 } }
  match a.entry (dir == 1) s with
  | .error e => a.fails s e
  | .ok .top => a.fails s ⟨if dir = 0 then 0x04 else 0x07, 0⟩
  | .ok (.row r) =>
    if 1 < dir then a.fails s ⟨0x07, 0⟩
    else if dir = 1 && r.access == .wo then a.fails s ⟨0x05, 0⟩
    else if dir = 0 && (decide (15 < group) || (group != 0 && r.access != .st)) then a.fails s ⟨0x0D, 0⟩
    else if dir = 0 && (r.access == .ro || (r.ty != .domain && r.access != .st)) then a.fails s ⟨0x04, 0⟩
    else if decide (4 ≤ s.kdps.transfers.length) || s.kdps.transfers.any fun t => t.key == key then a.fails s ⟨0x0A, 0⟩
    else if dir = 1 then
      let v := s.view index sub
      let b := if r.size = 0 then s.blobView index sub else wireBytes r.size v.1
      let s := if r.size = 0 then s else readClears index sub v.2
      open_ { num := num, key := key, owner := a.owner, group := group, out := true, total := b.length, data := b, used := s.now } s
    else
      let total := a.q.word 8 4
      match fixedSize index sub r with
      | some n => if n ≠ total then a.fails s ⟨0x11, n⟩
        else if group ≠ 0 && s.groupFull a.owner group key 0 then a.fails s ⟨0x0D, 0⟩
        else open_ { num := num, key := key, owner := a.owner, group := group, out := false, total := total, used := s.now }
          (if group = 0 then s else stage a.owner group key .incomplete s)
      | none => if group ≠ 0 && s.groupFull a.owner group key 0 then a.fails s ⟨0x0D, 0⟩
        else open_ { num := num, key := key, owner := a.owner, group := group, out := false, total := total, used := s.now }
          (if group = 0 then s else stage a.owner group key .incomplete s)

/-- SEG_DATA: a segment stored once, or sent (R566). -/
def serveSegData (a : Ask) (s : State) : Served :=
  match a.transfer s with
  | none => fails s ⟨0x0F, 0⟩
  | some t =>
    let k := a.q.word 4 4
    let data := a.q.payload.drop 8
    let head := leBytes 2 t.num ++ [0, 0] ++ leBytes 4 k
    if t.count ≤ k then fails s ⟨0x0F, 0⟩
    else if t.out then
      if data.isEmpty then
        answers (head ++ ((t.data.drop (1440 * k)).take 1440))
          (updTransfer t.num (fun t => { t with used := s.now, acked := k :: t.acked.filter (· != k) }) s)
      else fails s ⟨0x06, 8⟩
    else if data.length ≠ t.length k then fails (updTransfer t.num (fun t => { t with used := s.now }) s) ⟨0x11, t.length k⟩
    else
      answers head (updTransfer t.num (fun t =>
        if t.acked.contains k then { t with used := s.now }
        else { t with used := s.now, acked := k :: t.acked, segs := Table.set [] t.segs k data }) s)

/-- What a completed transfer to the Penori does: a number or a table staged or committed, or a block in effect at once (R567). -/
def applyTransfer (a : Ask) (t : Transfer) (crc : Nat) (s : State) : Served :=
  let index := t.key / 256
  let sub := t.key % 256
  let ok := leBytes 2 t.num ++ [0, 0] ++ leBytes 4 crc
  let s := endTransfer t.num s
  let wrong := fun (s : State) (e : Err) => ({ answer := .fail index sub e, state := s } : Served)
  let failed := fun (s : State) => if t.group = 0 then s else stage t.owner t.group t.key .failed s
  match rowOf index sub with
  | none => wrong s ⟨0x03, 0⟩
  | some r =>
    match parseValue r t.bytes with
    | .error e => wrong (failed s) e
    | .ok v =>
      let bad := match v with
        | .num n => !(r.accepts n && fieldsOk index sub n.toNat)
        | .blob _ => false
      if bad then wrong (failed s) ⟨0x07, 0⟩
      else if r.access == .st then
        if t.group = 0 then
          match tryCommit [(t.key, .value v)] s with
          | .rejected _ e _ => wrong s e
          | .accepted _ _ s => answers ok s
        else answers ok (stage t.owner t.group t.key (.value v) s)
      else match writeBlob a.actor index sub t.bytes s with
        | .error e => wrong s e
        | .ok d => match d.refused with
          | some e => wrong d.state e
          | none => { answer := .ok ok, state := d.state, after := d.after }

/-- SEG_END: the CRCs compared; the data takes its place (R567). -/
def serveSegEnd (a : Ask) (s : State) : Served :=
  match a.transfer s with
  | none => fails s ⟨0x0F, 0⟩
  | some t =>
    let want := if t.out then 4 else 8
    let s := updTransfer t.num (fun t => { t with used := s.now }) s
    if a.q.payload.length ≠ want then fails s ⟨0x06, want⟩
    else if !t.complete then fails s ⟨0x0F, 0⟩
    else
      let crc := crc32c (if t.out then t.data else t.bytes)
      if t.out then answers (leBytes 2 t.num ++ [0, 0] ++ leBytes 4 crc) (endTransfer t.num s)
      else if a.q.word 4 4 ≠ crc then { answer := .fail (t.key / 256) (t.key % 256) ⟨0x10, crc⟩, state := dropTransfer t s }
      else applyTransfer a t crc s

/-- SEG_ABORT (R568). -/
def serveSegAbort (a : Ask) (s : State) : Served :=
  match a.transfer s with
  | none => fails s ⟨0x0F, 0⟩
  | some t => answers (leBytes 2 t.num) (dropTransfer t s)

/-! ### Sessions (R574 to R578) -/

/-- Seconds a source is locked out for still (R577). -/
def State.lockoutLeft (s : State) (source : Nat) : Nat :=
  match s.kdps.lockouts.find? fun l => l.1 == source && decide (s.now < l.2) with
  | some l => (l.2 - s.now + 3999999999) / 4000000000
  | none => 0

end Sys2Proof.Machine

namespace Sys2Proof

open Machine

/-- A source as lockouts know it: its address and its route. -/
def Kdp.source (q : Kdp) : Nat := (if q.mailbox then 256 else 0) + q.src

end Sys2Proof

namespace Sys2Proof.Machine

/-- A session number that is not in use, from `n` up, cyclic in 1 to 65,535. -/
def State.freeSession (s : State) : Nat → Nat → Nat
  | 0, n => n
  | k + 1, n => if s.kdps.sessions.any fun x => x.num == n then s.freeSession k (n % 65535 + 1) else n

/-- SESSION_OPEN: a session number and a device nonce (R574, R576, R577, R676, R678, R705). -/
def serveSessionOpen (a : Ask) (s : State) : Served :=
  let role := a.q.byte 0
  let vendorOk := s.flag Obj.vendorServiceEnable && !s.flag Obj.approvedModeLock
  if role = 0 || 4 < role then fails s ⟨0x07, 0⟩
  else if s.lockoutLeft a.q.source ≠ 0 then fails s ⟨0x13, s.lockoutLeft a.q.source⟩
  else if role = 4 && !vendorOk then fails s ⟨0x07, 0⟩
  else match islandError s with
    | some e => fails s (errOf s e)
    | none =>
      if (role ≠ 3 && !s.auditRoom) || 8 ≤ s.kdps.sessions.length then fails s ⟨0x0A, 0⟩
      else
        let num := s.freeSession 8 s.kdps.nextSession
        let nonce := (Config.random s.sec.draws).take 32
        let x : Session := { num := num, mailbox := a.q.mailbox, src := a.q.src, role := role, hostNonce := (a.q.payload.drop 4).take 32,
                             devNonce := nonce, used := s.now }
        let s := { s with sec := { s.sec with draws := s.sec.draws + 1 },
                          kdps := { s.kdps with sessions := s.kdps.sessions ++ [x], nextSession := num % 65535 + 1 } }
        { answer := .ok ([0, 0, 0, 0] ++ nonce), state := s, session := some num }

/-- The proof of a side (R574). -/
def proofOf (label : String) (key : Bytes) (x : Session) (s : State) : Bytes :=
  Config.hmac key (ascii label ++ x.hostNonce ++ x.devNonce ++ leBytes 1 x.role ++ leBytes 1 (s.nat Obj.nodeAddress))

/-- A wrong proof: the session goes, the failure is recorded, and the fifth within 60 s locks the source out (R577, R704). -/
def proofFails (a : Ask) (x : Session) (s : State) : Served :=
  let src := a.q.source
  let s := (closeSession x.num s).count Obj.authFailures
  let recent := (src, s.now) :: s.kdps.failures.filter fun f => decide (s.now < f.2 + ms 60000)
  let locked := decide (5 ≤ (recent.filter fun f => f.1 == src).length)
  let s := { s with kdps := { s.kdps with failures := recent } }
  let s := audit 0x05 a.actor 0 0 0x13 (leBytes 1 x.role ++ leBytes 4 (if locked then 60 else 0)) false s
  let s := if locked then
      let s := { s with kdps := { s.kdps with failures := recent.filter fun f => f.1 != src,
                                              lockouts := (src, s.now + ms 60000) :: s.kdps.lockouts.filter fun l => l.1 != src } }
      s.raiseFault .kdpAuthLockout [src] Kind.kdpAuthLockout 0 src 2 (islandOf 10 0)
    else s
  fails s ⟨0x13, s.lockoutLeft src⟩

/-- A session opens with the key derived from both nonces (R575). -/
def openSession (x : Session) (key : Bytes) (s : State) : State :=
  let okm := (Config.hkdf key (x.hostNonce ++ x.devNonce)).take 36
  let s := updSession x.num (fun y => { y with opened := true, key := okm, used := s.now }) s
  s.setReg Obj.sessionsOpen ((s.kdps.sessions.filter Session.opened).length : Nat)

/-- SESSION_AUTH: the host proof opens the session (R574, R575). -/
def serveSessionAuth (a : Ask) (s : State) : Served :=
  match s.kdps.sessions.find? fun x => x.num == a.q.session.toNat && !x.opened && x.mailbox == a.q.mailbox && x.src == a.q.src with
  | none => fails s ⟨0x12, 0⟩
  | some x =>
    match islandError s with
    | some e => fails s (errOf s e)
    | none =>
      if x.role ≠ 3 && !s.auditRoom then fails s ⟨0x0A, 0⟩
      else match s.roleKey x.role with
        | none => proofFails a x s
        | some key =>
          if proofOf "KDP-H" key x s ≠ a.q.payload.take 48 then proofFails a x s
          else
            let s' := audit 0x04 ⟨x.role, a.q.src, x.num⟩ 0 0 0 (leBytes 1 x.role ++ x.hostNonce.take 8) (x.role == 3) s
            { answer := .ok (proofOf "KDP-D" key x s), state := s', after := openSession x key, session := some x.num }

/-- SESSION_CLOSE, once its answer is sent (R563). -/
def serveSessionClose (a : Ask) (s : State) : Served :=
  { answer := .ok [], state := s, after := fun t => if a.q.auth then closeSession a.q.session.toNat t else t }

/-! ### Events (R570 to R573) -/

/-- SUBSCRIBE: a new subscriber, with an empty queue that counts from 0 (R573). -/
def serveSubscribe (a : Ask) (s : State) : Served :=
  let routes := a.q.byte 0
  if 3 < routes then fails s ⟨0x07, 0⟩
  else
    let r : EventRoute := { subscriber := some (a.q.src, if a.q.auth then a.q.session.toNat else 0), least := a.q.byte 1, sent := s.now }
    let s := if bitAt routes 0 then { s with kdps := { s.kdps with net := r } } else s
    let s := if bitAt routes 1 then { s with kdps := { s.kdps with mail := r } } else s
    answers (leBytes 4 0) (noteSubscribers s)

/-- Events up to an EVENT_SEQ, modulo 2^32, are freed (R572). -/
def EventRoute.free (r : EventRoute) (seq : Nat) : EventRoute :=
  { r with queue := r.queue.filter fun e => decide (2 ^ 31 ≤ (seq + 2 ^ 32 - e.1) % 2 ^ 32) }

/-- EVENT_ACK of the route it came on, from that route's subscriber (R572). -/
def serveEventAck (a : Ask) (s : State) : Served :=
  let r := if a.q.mailbox then s.kdps.mail else s.kdps.net
  let mine := match r.subscriber with
    | some t => t == (a.q.src, if a.q.auth then a.q.session.toNat else 0)
    | none => !a.q.auth
  let r := r.free (a.q.word 0 4)
  { answer := .silent,
    state := if !mine then s else if a.q.mailbox then { s with kdps := { s.kdps with mail := r } } else { s with kdps := { s.kdps with net := r } } }

/-! ### Addressing (R546 to R549) -/

/-- The address is locked in fuses and in force (R547). -/
def State.addressLocked (s : State) : Bool := s.nat Obj.addressSource == 2

/-- ENUM_OUT driven. -/
def driveEnumOut (on : Bool) (s : State) : State :=
  if s.kdps.addr.enumOut == on then s
  else { s with kdps := { s.kdps with addr := { s.kdps.addr with enumOut := on } } }.emit (.pin .enumOut 0 on s.now)

/-- ASSIGN_ADDRESS (R548, R549). -/
def serveAssign (a : Ask) (s : State) : Served :=
  let addr := a.q.byte 0
  let own := s.nat Obj.nodeAddress
  let quiet := fun (s : State) => ({ answer := .silent, state := s } : Served)
  if bitAt (a.q.byte 1) 0 then
    if s.addressLocked || !(s.mode == .boot || s.mode == .configure || s.mode == .idleReady || s.mode == .maintenance) then quiet s
    else
      let s := (s.setReg Obj.nodeAddress 0).setReg Obj.addressSource 0
      quiet (driveEnumOut false { s with kdps := { s.kdps with addr := { s.kdps.addr with enumOutAt := none, assign := none } } })
  else if s.addressLocked then (if own = addr then fails s ⟨0x16, addr⟩ else quiet s)
  else if own = 0 && s.kdps.addr.enumIn && decide (1 ≤ addr ∧ addr ≤ 30) then
    quiet { s with kdps := { s.kdps with addr := { s.kdps.addr with assign := some (addr, s.now + ms 2, a.q.seq.toNat, a.q.src, a.q.mailbox) } } }
  else quiet s

/-! ### Receiving a request -/

/-- The service of an opcode. -/
def service (op : Nat) (a : Ask) (s : State) : Served :=
  match op with
  | 0x01 => serveDiscover a s
  | 0x02 => serveAssign a s
  | 0x03 => serveNop a s
  | 0x04 => serveRead a s
  | 0x05 => serveWrite a s
  | 0x06 => serveReadDesc a s
  | 0x07 => serveCommit a s
  | 0x08 => serveDiscard a s
  | 0x09 => serveCommitStatus a s
  | 0x0A => serveSegInit a s
  | 0x0B => serveSegData a s
  | 0x0C => serveSegEnd a s
  | 0x0D => serveSegAbort a s
  | 0x10 => serveSessionOpen a s
  | 0x11 => serveSessionAuth a s
  | 0x12 => serveSessionClose a s
  | 0x13 => serveSubscribe a s
  | 0x21 => serveEventAck a s
  | _ => fails s ⟨0x01, 0⟩

/-- A response sent to where its request came from (R551, R553). -/
def reply (q : Kdp) (op session error : Nat) (payload : Bytes) (s : State) : State :=
  if op = 0x21 then s
  else if q.sandbox s then s.emit (.kdp false q.src op q.seq.toNat 0 error payload)
  else sendKdp q.mailbox q.src op q.seq.toNat session (if error = 0 then 1 else 3) error payload s

/-- An error that answers a request without serving it. -/
def refuse (q : Kdp) (op session index sub : Nat) (e : Err) (s : State) : State := reply q op session e.code (errorPayload index sub e) s

end Sys2Proof.Machine

namespace Sys2Proof

open Machine

/-- Whose groups, transfers and kept responses a request uses (R559, R560): its session's, or its source's. -/
def Kdp.owner (q : Kdp) : Nat := if q.auth then q.session.toNat else 0x10000 + q.source

end Sys2Proof

namespace Sys2Proof.Machine

/-- The role a request acts with: its session's, SandboxRole, Operator under OpenAccess, or none (R578, R713). -/
def State.roleOf (s : State) (q : Kdp) : Nat :=
  if q.auth then ((s.session q.session.toNat).map Session.role).getD 0
  else if q.sandbox s then s.nat Obj.sandboxRole
  else b2n s.openAccess

/-- Who the audit log says asked. -/
def State.actorOf (s : State) (q : Kdp) : Actor :=
  ⟨if q.sandbox s then 5 else s.roleOf q, q.src, if q.auth then q.session.toNat else 0⟩

/-- What recovery serves (R734). -/
def recoveryServes (op : Nat) (q : Kdp) (role : Nat) (s : State) : Bool :=
  let image := s.kdps.transfers.any fun t => t.num == q.word 0 2 && t.owner == q.owner && t.key == 0xC03001
  match op with
  | 0x01 | 0x02 | 0x03 | 0x10 | 0x11 | 0x12 => true
  | 0x04 => decide (q.index < 0x1000) || decide (0x2050 ≤ q.index ∧ q.index < 0x2060)
  | 0x05 => q.index == 0x2050 && q.sub == 9
  | 0x0A => q.index == 0xC030 && role == 3
  | 0x0B | 0x0C | 0x0D => image && role == 3
  | _ => false

/-- The services a packet without a role may use (R578). -/
def openService (op : Nat) (q : Kdp) : Bool :=
  ([0x01, 0x02, 0x03, 0x10, 0x11] : List Nat).contains op || (op == 0x04 && showStatus q.index q.sub)

/-- The last 16 responses of an owner are kept (R559). -/
def keepResponse (k : Kept) (s : State) : State :=
  let mine := (k :: s.kdps.kept.filter fun x => x.owner == k.owner).take 16
  { s with kdps := { s.kdps with kept := mine ++ s.kdps.kept.filter fun x => x.owner != k.owner } }

/-- What a service did takes its course: its answer is sent and kept, and what follows the answer happens (R553, R559). -/
def conclude (op : Nat) (q : Kdp) (ses : Nat) (d : Served) : State :=
  let num := d.session.getD ses
  match d.answer with
  | .silent => d.after d.state
  | .ok p =>
    d.after (reply q op num 0 p (keepResponse { owner := q.owner, seq := q.seq.toNat, op := op, error := 0, session := num, payload := p } d.state))
  | .fail i b e =>
    let p := errorPayload i b e
    d.after (reply q op num e.code p
      (keepResponse { owner := q.owner, seq := q.seq.toNat, op := op, error := e.code, session := num, payload := p } d.state))

/-- The request as its service sees it. -/
def State.ask (s : State) (q : Kdp) : Ask := { q := q, owner := q.owner, role := s.roleOf q, actor := s.actorOf q }

/-- A request that is authentic, or has no session: checked, answered from the cache or executed (R556, R559, R578, R734, R767). -/
def execute (op : Nat) (q : Kdp) (s : State) : State :=
  let ses := if q.auth then q.session.toNat else 0
  let role := s.roleOf q
  let index := if namesEntry op then q.index else 0
  let sub := if namesEntry op then q.sub else 0
  if s.boot.recovery && !recoveryServes op q role s then refuse q op ses index sub ⟨0x09, s.mode.code⟩ s
  else if !opcodeKnown op then refuse q op ses 0 0 ⟨0x01, 0⟩ s
  else match lengthError op q.payload with
    | some n => if q.dst = 0xFF then s else refuse q op ses index sub ⟨0x06, n⟩ s
    | none =>
      if role = 0 && !openService op q then refuse q op ses index sub ⟨0x12, 0⟩ s
      else match (if q.retry then s.kdps.kept.find? fun k => k.owner == q.owner && k.seq == q.seq.toNat else none) with
        | some k => reply q k.op k.session k.error k.payload s
        | none => conclude op q ses (service op (s.ask q) s)

/-- A request taken up: its session, its tag and its counter are checked (R556, R575, R576). -/
def serveRequest (op : Nat) (q : Kdp) (s : State) : State :=
  if !q.auth then execute op q s
  else match (s.session q.session.toNat).filter fun x => x.opened && x.mailbox == q.mailbox && x.src == q.src with
    | none => refuse q op 0 0 0 ⟨0x12, 0⟩ s
    | some x =>
      if !q.authentic then refuse q op 0 0 0 ⟨0x13, 0⟩ s
      else if q.ctr.toNat ≤ x.rxCtr then refuse q op 0 0 0 ⟨0x14, 0⟩ s
      else execute op q (updSession x.num (fun y => { y with rxCtr := q.ctr.toNat, used := s.now }) s)

/-- MBX_TX_HEAD moves past a slot whose packet has been copied out (R580). -/
def advanceTx (s : State) : State :=
  let m := s.host.mbx
  if m.txHead = m.txTail then s
  else skipBadSlots 2048 (txVector { s with host := { s.host with mbx := { m with txHead := (m.txHead + 1) % 2048 } } })

/-- Activity on the field network is noted (R766). -/
def noteActivity (q : Kdp) (s : State) : State :=
  if q.mailbox || q.sandbox s then s else { s with kdps := { s.kdps with addr := { s.kdps.addr with beacon := true } } }

/-- A packet without RESPONSE is received (R542, R554, R558, R580, R650, R713, R766, R775): by the addressed node, or left; in a takeover
it waits in one of the 32 places of R558, of which the sandbox takes at most 8. -/
def receive (op : Nat) (q : Kdp) (s : State) : State :=
  let own := s.nat Obj.nodeAddress
  if !s.mode.talks && !s.boot.recovery then
    if s.mode == .sentinel && op = 0x01 && q.dst = 0xFF && !q.mailbox && bitAt (s.nat Obj.wakeSources) 1 then wakeUp false s else s
  else if q.mailbox && !s.host.mbx.en then s
  else
    let s := noteActivity q s
    let mine := q.dst = 0xFF || (own ≠ 0 && q.dst = own) || (q.mailbox && q.dst = 0xFE) || q.sandbox s
    if q.dst = 0xFF && (op = 0 || 3 < op) then (if q.mailbox then advanceTx s else s)
    else if !q.mailbox && !mine then s
    else if s.nat Obj.lockstepState = 2 then
      if (!q.mailbox && 32 ≤ (s.kdps.waiting.filter fun w => !w.2.mailbox).length) ||
          (q.sandbox s && 8 ≤ (s.kdps.waiting.filter fun w => w.2.sandbox s).length) then refuse q op 0 0 0 ⟨0x0A, 0⟩ s
      else { s with kdps := { s.kdps with waiting := s.kdps.waiting ++ [(op, q)] } }
    else
      let s := if q.mailbox then advanceTx s else s
      if !mine then refuse q op 0 0 0 ⟨0x17, 0⟩ s else serveRequest op q s

/-! ### The commands of chapter 13 -/

/-- DISCOVER (R553, R766). -/
def execDiscover (q : Kdp) (s : State) : Result := .next (receive 0x01 q s)
/-- ASSIGN_ADDRESS (R548, R549). -/
def execAssignAddress (q : Kdp) (s : State) : Result := .next (receive 0x02 q s)
/-- NOP (R553). -/
def execNop (q : Kdp) (s : State) : Result := .next (receive 0x03 q s)
/-- READ (R564). -/
def execRead (q : Kdp) (s : State) : Result := .next (receive 0x04 q s)
/-- WRITE (R560). -/
def execWrite (q : Kdp) (s : State) : Result := .next (receive 0x05 q s)
/-- READ_DESC (R555). -/
def execReadDesc (q : Kdp) (s : State) : Result := .next (receive 0x06 q s)
/-- COMMIT (R562). -/
def execCommit (q : Kdp) (s : State) : Result := .next (receive 0x07 q s)
/-- DISCARD (R563). -/
def execDiscard (q : Kdp) (s : State) : Result := .next (receive 0x08 q s)
/-- COMMIT_STATUS (R553). -/
def execCommitStatus (q : Kdp) (s : State) : Result := .next (receive 0x09 q s)
/-- SEG_INIT (R565). -/
def execSegInit (q : Kdp) (s : State) : Result := .next (receive 0x0A q s)
/-- SEG_DATA (R566). -/
def execSegData (q : Kdp) (s : State) : Result := .next (receive 0x0B q s)
/-- SEG_END (R567). -/
def execSegEnd (q : Kdp) (s : State) : Result := .next (receive 0x0C q s)
/-- SEG_ABORT (R568). -/
def execSegAbort (q : Kdp) (s : State) : Result := .next (receive 0x0D q s)
/-- SESSION_OPEN (R574). -/
def execSessionOpen (q : Kdp) (s : State) : Result := .next (receive 0x10 q s)
/-- SESSION_AUTH (R574). -/
def execSessionAuth (q : Kdp) (s : State) : Result := .next (receive 0x11 q s)
/-- SESSION_CLOSE (R563). -/
def execSessionClose (q : Kdp) (s : State) : Result := .next (receive 0x12 q s)
/-- SUBSCRIBE (R573). -/
def execSubscribe (q : Kdp) (s : State) : Result := .next (receive 0x13 q s)
/-- EVENT_ACK (R572). -/
def execEventAck (q : Kdp) (s : State) : Result := .next (receive 0x21 q s)

/-- UNKNOWN_OPCODE: a request whose opcode R553 does not list (R556). -/
def execUnknownOpcode (q : Kdp) (op : BitVec 8) (s : State) : Result := .next (if opcodeKnown op.toNat then s else receive op.toNat q s)

/-- SEG_TIMEOUT: a transfer idle for SegTimeout is discarded (R568). -/
def execSegTimeout (transfer : BitVec 8) (s : State) : Result :=
  .next <| match s.kdps.transfers.find? fun t => t.num == transfer.toNat with
    | some t => if t.used + ms (s.nat Obj.segTimeout) ≤ s.now then dropTransfer t s else s
    | none => s

/-- SESSION_TIMEOUT: a session idle for SessionTimeout is closed (R577). -/
def execSessionTimeout (session : BitVec 16) (s : State) : Result :=
  .next <| match s.session session.toNat with
    | some x => if x.used + ms (1000 * s.nat Obj.sessionTimeout) ≤ s.now then closeSession x.num s else s
    | none => s

/-- EVENT_RETRY: every EventRetry the oldest unacknowledged event goes out again (R572). -/
def execEventRetry (mailbox : Bool) (s : State) : Result :=
  let r := if mailbox then s.kdps.mail else s.kdps.net
  let dest := if mailbox then r.subscriber else s.netTarget
  .next <| match r.queue, dest with
    | (_, payload) :: _, some t =>
      if s.nat Obj.lockstepState = 2 || !s.mode.talks || s.now < r.sent + ms (s.nat Obj.eventRetry) then s
      else
        let r := { r with sent := s.now }
        let s := if mailbox then { s with kdps := { s.kdps with mail := r } } else { s with kdps := { s.kdps with net := r } }
        let s := sendKdp mailbox t.1 0x20 0 t.2 0 0 payload s
        if mailbox then sendVector mgmtChan 2047 s else s
    | _, _ => s

/-- KDP_MALFORMED: a packet with a wrong VERSION, LENGTH or a nonzero reserved field is discarded and counted (R552), but for one that
reaches a Penori that does not answer KDP (R766). -/
def execKdpMalformed (s : State) : Result := .next (if s.mode.talks || s.boot.recovery then s.count Obj.kdpMalformed else s)

end Sys2Proof.Machine
end

