-- ==== Sys2Proof/Machine/Network.lean ====
section
/-! DEFINITION. Addressing on the field network, PTP, and the lockstep management cores: chapter 13 (R546 to R549, R581 to R583) and
R649, R650. -/
namespace Sys2Proof.Machine

/-! ### Addressing (R546 to R549) -/

def State.updAddr (s : State) (f : Addressing → Addressing) : State := { s with kdps := { s.kdps with addr := f s.kdps.addr } }

/-- ENUM_OUT is to assert 1 ms from now. -/
def armEnumOut (s : State) : State := s.updAddr fun a => { a with enumOutAt := some (s.now + ms 1) }

/-- The address an ASSIGN_ADDRESS named is taken, told, and answered with the identity block (R549, R586). -/
def takeAddress (addr seq src : Nat) (mailbox : Bool) (s : State) : State :=
  let s := (s.setReg Obj.nodeAddress addr).setReg Obj.addressSource 1
  let s := s.updAddr fun a => { a with assign := none }
  let s := sendKdp mailbox src 0x02 seq 0 1 0 s.identityBlock s
  (armEnumOut s).raise .addressAssigned [addr]

/-- ADDRESS_TAKE: 2 ms after an ASSIGN_ADDRESS with no ADDRESS_IN_USE seen (R549). -/
def execAddressTake (s : State) : Result :=
  .next <| match s.kdps.addr.assign with
    | some (addr, due, seq, src, mailbox) => if due ≤ s.now then takeAddress addr seq src mailbox s else s
    | none => s

/-- ENUM_OUT_ASSERT: 1 ms after the response, or after ENUM_IN with a locked address (R546). -/
def execEnumOutAssert (s : State) : Result :=
  .next <| match s.kdps.addr.enumOutAt with
    | some due =>
      if due ≤ s.now && s.nat Obj.nodeAddress != 0 && s.kdps.addr.enumIn then
        driveEnumOut true (s.updAddr fun a => { a with enumOutAt := none })
      else s
    | none => s

/-- ENUM_IN_ASSERT: ENUM_IN asserts (R546). -/
def execEnumInAssert (s : State) : Result :=
  .next <| if s.mode == .off then s else
    let s := s.updAddr fun a => { a with enumIn := true }
    if s.addressLocked then armEnumOut s else s

/-- ADDRESS_IN_USE_SEEN: an unaddressed node does not take an address another holds (R549). -/
def execAddressInUseSeen (a : BitVec 8) (s : State) : Result :=
  .next <| if s.nat Obj.nodeAddress = 0 && s.kdps.addr.enumIn && (s.kdps.addr.assign.any fun p => p.1 == a.toNat) then
      s.updAddr fun x => { x with assign := none }
    else s

/-- FN_LINK_FAULT: no PLCA beacon for 100 ms while addressed (R586). -/
def execFnLinkFault (s : State) : Result :=
  .next <| if s.nat Obj.nodeAddress = 0 || !s.mode.talks then s
    else (s.updAddr fun a => { a with beacon := false }).raiseFault .fnLinkFault [] Kind.fnLinkFault 2 0 2 (islandOf 16 0)

/-! ### PTP (R51, R581 to R583) -/

def State.updPtp (s : State) (f : Ptp → Ptp) : State := { s with kdps := { s.kdps with ptp := f s.kdps.ptp } }

/-- A Sync interval, in 1/4 ns (PtpLogSync). -/
def State.syncInterval (s : State) : Nat :=
  let k := s.reg Obj.ptpLogSync
  if 0 ≤ k then 4000000000 * 2 ^ k.toNat else 4000000000 / 2 ^ (-k).toNat

/-- PTP_LOCKED cleared and told (R582, R586). -/
def ptpLose (s : State) : State :=
  (s.updPtp fun p => { p with locked := false, good := 0 }).raiseFault .ptpUnlock [] Kind.ptpUnlock 2 0 2 (islandOf 16 0)

/-- An instant moved with DT. -/
def shiftBy (d : Int) (t : Nat) : Nat := ((t : Int) + d).toNat

/-- A lane's times moved with DT. -/
def Lane.shift (d : Int) (x : Lane) : Lane :=
  { x with since := shiftBy d x.since, sleepReq := x.sleepReq.map (shiftBy d), backSleepReq := x.backSleepReq.map (shiftBy d),
           testSince := x.testSince.map (shiftBy d), chkSince := x.chkSince.map (shiftBy d),
           trainSent := shiftBy d x.trainSent, head := x.head.map fun h => (h.1, shiftBy d h.2) }

/-- A link group's times moved with DT. -/
def Group.shift (d : Int) (x : Group) : Group :=
  { x with access := x.access.map fun a => { a with sent := shiftBy d a.sent }, sync := x.sync.map fun e => (e.1, shiftBy (64 * d) e.2) }

/-- DT is stepped; what the management core and the lanes time moves with it (R51, R582). -/
def stepTime (d : Int) (s : State) : State :=
  let k := s.kdps
  let s := { s with host := { s.host with linkFree := shiftBy d s.host.linkFree },
                    class0In := s.class0In.map fun (e : Nat × Nat) => (shiftBy d e.1, e.2) }
  let s := (List.range 104).foldl (fun s l => s.updLane l fun x => x.shift d) s
  let s := (List.range 96).foldl (fun s g => s.updGroup g fun x => x.shift d) s
  let route := fun (r : EventRoute) => { r with sent := shiftBy d r.sent }
  distribute
    { s with now := shiftBy d s.now, loops := s.loops.map fun (p : Nat × Nat) => (p.1, shiftBy d p.2),
             dep := { s.dep with checkpoint := shiftBy d s.dep.checkpoint, mismatchAt := s.dep.mismatchAt.map (shiftBy d) },
             kdps := { k with
                        sessions := k.sessions.map fun (x : Session) => { x with used := shiftBy d x.used },
                        transfers := k.transfers.map fun (x : Transfer) => { x with used := shiftBy d x.used },
                        failures := k.failures.map fun (x : Nat × Nat) => (x.1, shiftBy d x.2),
                        lockouts := k.lockouts.map fun (x : Nat × Nat) => (x.1, shiftBy d x.2),
                        net := route k.net, mail := route k.mail,
                        addr := { k.addr with enumOutAt := k.addr.enumOutAt.map (shiftBy d),
                                              assign := k.addr.assign.map fun (p : Nat × Nat × Nat × Nat × Bool) => (p.1, shiftBy d p.2.1, p.2.2) },
                        ptp := { k.ptp with shift := k.ptp.shift + d, slew := 0, acc := 0, stepped := true,
                                            sentAt := k.ptp.sentAt.map (shiftBy d) } } }

/-- DT is disciplined by a measured offset: stepped at the first one in Configure, slewed beyond Configure (R51, R52, R582). -/
def discipline (offset : Int) (s : State) : State :=
  if s.nat Obj.dtSource ≠ 1 then s
  else if s.mode == .configure then (if s.kdps.ptp.stepped then s else stepTime (-4 * offset) s)
  else
    let s := s.updPtp fun p => { p with slew := -4 * offset }
    if 1000000 < offset.natAbs then s.raise .dtOffsetLarge [offset] else s

/-- What a measured offset does to PTP_LOCKED (R582). -/
def ptpJudge (offset : Int) (s : State) : State :=
  let good := if offset.natAbs ≤ 100 then s.kdps.ptp.good + 1 else 0
  let s := s.updPtp fun p => { p with good := min good 16, locked := p.locked || decide (16 ≤ good) }
  if s.kdps.ptp.locked && decide (1000 < offset.natAbs) then ptpLose s else s

/-- PTP_SYNC: a Sync with its origin stamp, ns, arrives; a Delay_Req answers it (R581, R582). -/
def execPtpSync (origin : Nat) (s : State) : Result :=
  .next <| if s.nat Obj.ptpRole = 0 || !s.mode.talks then s
    else
      let t2 := s.dt
      let d := (t2 : Int) - origin
      let offset := d - s.nat Obj.ptpPathDelay
      let s := s.setReg Obj.ptpOffset offset
      let s := ptpJudge offset (s.updPtp fun p => { p with port := 9, ms := d })
      let s := discipline offset s
      (s.updPtp fun p => { p with lastSync := s.now, t3 := some s.dt }).emit (.ptp 1 s.dt)

/-- PTP_DELAY_RESP: the mean path delay from both directions (R581). -/
def execPtpDelayResp (stamp : Nat) (s : State) : Result :=
  .next <| match s.kdps.ptp.t3 with
    | some t3 =>
      if s.kdps.ptp.port ≠ 9 then s
      else (s.updPtp fun p => { p with t3 := none }).setReg Obj.ptpPathDelay ((s.kdps.ptp.ms + ((stamp : Int) - t3)) / 2).toNat
    | none => s

/-- PTP_UNLOCK: 8 Sync intervals without a Sync (R582). -/
def execPtpUnlock (s : State) : Result :=
  .next <| if s.kdps.ptp.locked && decide (s.kdps.ptp.lastSync + 8 * s.syncInterval ≤ s.now) then ptpLose s else s

/-- PTP_MASTER_SYNC: as master a Sync goes out every PtpLogSync interval (R581). -/
def execPtpMasterSync (s : State) : Result :=
  let p := s.kdps.ptp
  let free := p.port != 9 || decide (p.lastSync + 8 * s.syncInterval ≤ s.now)
  let due := match p.sentAt with
    | some t => decide (t + s.syncInterval ≤ s.now)
    | none => true
  .next <| if s.nat Obj.ptpRole = 2 && s.mode.talks && free && due then
      (s.updPtp fun p => { p with port := 6, sentAt := some s.now }).emit (.ptp 0 s.dt)
    else s

/-- PTP_PPS_IN: an asserting edge stamped to 1 ns; its offset from the nearest whole second of DT (R583). -/
def execPtpPpsIn (stamp : Nat) (s : State) : Result :=
  .next <| if !s.mode.talks then s
    else s.setReg Obj.ppsInOffset ((((stamp + 500000000) % 1000000000 : Nat) : Int) - 500000000)

/-- PTP_PPS_OUT: at every whole second of DT the pin asserts for PpsWidth (R583). -/
def execPtpPpsOut (s : State) : Result :=
  .next <| if s.flag Obj.ppsOutEnable && s.mode.talks && s.now % 4000000000 == 0 then
      s.emits [.pin .ppsOut 0 true s.now, .pin .ppsOut 0 false (s.now + 4 * s.nat Obj.ppsWidth)]
    else s

/-- One tick of 1/4 ns with the rate slewed within DtMaxSlew: DT moves by 0, 1 or 2 (R51). -/
def slewTick (s : State) : State :=
  let p := s.kdps.ptp
  if s.nat Obj.dtSource ≠ 1 || p.slew == 0 || s.mode == .configure then { s with now := s.now + 1 }
  else
    let acc := p.acc + s.nat Obj.dtMaxSlew
    if acc < 1000000000 then { s with now := s.now + 1 }.updPtp fun p => { p with acc := acc }
    else
      let d : Int := if 0 < p.slew then 1 else -1
      { s with now := shiftBy (1 + d) s.now }.updPtp fun p => { p with acc := acc - 1000000000, slew := p.slew - d, shift := p.shift + d }

/-- What happens with no command waiting: 1/4 ns passes, and what depends on the time alone follows it (DESIGN CHOICE, log entry 10).
With the standby rails down nothing runs. -/
def tick (s : State) : State := if s.mode == .off then s else alarmEval (deltaIssue (owedVectors (readQueues (distribute (slewTick s)))))

/-! ### Lockstep cores (R633, R649, R650) -/

/-- Cores in use: the pair, then the spare. -/
def State.cores (s : State) : List Nat := [0, 1, 2].filter fun c => !s.dep.coresOut.contains c

/-- The dictionary services' state as it stands. -/
def Kdps.checkpoint (k : Kdps) : Checkpoint :=
  { staged := k.staged, transfers := k.transfers, nextTransfer := k.nextTransfer, kept := k.kept, net := k.net, mail := k.mail }

/-- The dictionary services' state of the latest checkpoint. -/
def restoreCheckpoint (s : State) : State :=
  let c := s.kdps.saved
  { s with kdps := { s.kdps with staged := c.staged, transfers := c.transfers, nextTransfer := c.nextTransfer, kept := c.kept, net := c.net,
                                 mail := c.mail } }

/-- CHECKPOINT: every 1 ms (R649). -/
def execCheckpoint (s : State) : Result :=
  .next <| if !s.mode.talks || s.nat Obj.lockstepState = 2 || s.now < s.dep.checkpoint + ms 1 then s
    else { s with dep := { s.dep with checkpoint := s.now }, kdps := { s.kdps with saved := s.kdps.checkpoint } }

/-- LOCKSTEP_MISMATCH: both cores stop and test themselves; a core alone has no comparator (R649). -/
def execLockstepMismatch (s : State) : Result :=
  .next <| if !s.mode.talks || 2 ≤ s.nat Obj.lockstepState then s
    else (restoreCheckpoint ({ s with dep := { s.dep with mismatchAt := some s.now } }.setReg Obj.lockstepState 2)).report
      Kind.lockstepMismatch 2 0 2 (islandOf 10 0)

/-- A core that failed its self-test is retired and recorded (R663, R664). -/
def failCore (core spare : Nat) (s : State) : State := retireCore core (recordRepair 5 0 core spare Kind.lockstepMismatch s)

/-- R643 for a core without a spare. -/
def coreShort (s : State) : State :=
  if s.policy Kind.lockstepMismatch 12 && s.policy Kind.lockstepMismatch 14 then
    sustain ⟨s.dt, islandOf 10 0, Kind.lockstepMismatch, 2, 2, 0⟩ s
  else s

/-- What the self-tests decide: the pair again, a core paired with the spare, or a core alone (R649). -/
def pairCores (pass0 pass1 : Bool) (s : State) : State :=
  match s.cores with
  | c0 :: c1 :: rest =>
    let spare := rest.head?
    if pass0 && pass1 then s.setReg Obj.lockstepState s.dep.coresOut.length
    else if !pass0 && !pass1 then
      let s := failCore c1 0 (failCore c0 (spare.getD 0) s)
      coreShort (if spare.isSome then s else s.setReg Obj.lockstepState 2)
    else
      let out := if pass0 then c1 else c0
      let s := failCore out (spare.getD 0) s
      if spare.isSome then inserted 7 out (spare.getD 0) 0 (countInsertion 0 s) else coreShort s
  | _ => s

/-- TAKEOVER_RESUME: once the 5 ms self-tests are over the cores resume, and the requests that waited are served in order (R649,
R650). -/
def execTakeoverResume (pass0 pass1 : Bool) (s : State) : Result :=
  .next <| match s.dep.mismatchAt with
    | some t =>
      if s.nat Obj.lockstepState ≠ 2 || decide (s.now < t + ms 5) then s
      else
        let s := pairCores pass0 pass1 { s with dep := { s.dep with mismatchAt := none } }
        let s := notePools (switchDomain s.mode s 51)
        if s.nat Obj.lockstepState = 2 then s
        else
          s.kdps.waiting.foldl (fun (s : State) (w : Nat × Kdp) => receive w.1 w.2 s) { s with kdps := { s.kdps with waiting := [] } }
    | none => s

end Sys2Proof.Machine
end

