-- ==== Sys2Proof/Machine/Reception.lean ====
section
/-! DEFINITION. Reception on the forward lanes: PIXEL and other packets from the camera (R129 to R144, R154), blocks, the words and the
packets they carry (R63 to R69, R73, R79, R85, R86, R129, R131). -/
namespace Sys2Proof.Machine

/-! ### Packets -/

/-- An EVENT of a camera by its CODE (R164, R165, R171). -/
def cameraSays (g code reason arg : Nat) (s : State) : State :=
  if code = 1 then trigRejected g arg reason s
  else if code = 3 then cancelDone g arg s
  else if 0x100 ≤ code then s.raise .cameraEvent [g, code, reason, arg]
  else s

/-- What an intact packet of type CTL_RESP, EVENT or TIME_RESP says (R133); RATE is the Penori's own estimate, which no rule computes
(log entry 9). -/
def messageTaken (g ptype : Nat) (p : Packet) (s : State) : State :=
  let sub := leNat p.subheader
  if ptype = 2 then ctlRespTaken g (field sub 32 32) (field sub 16 16) (field sub 0 8) p.payload s
  else if ptype = 3 then cameraSays g (field sub 0 16) (field sub 16 16) (field sub 32 32) s
  else
    let w := leNat p.payload
    let f := s.free (2 ^ 32)
    timeRespTaken g (field w 80 16) (sub * 256 + field w 64 8) (field w 0 64 * 256 + field w 72 8) (s.now * 64) f.1 f.2

/-- A packet arrives on a lane of its group (R129 to R138, R142 to R144, R154): checked, accepted by PSN, and taken by its type. -/
def packetArrives (g id : Nat) (p : Packet) (s : State) : State :=
  let f := pixelFields p
  let t := (p.header.getD 0 0).toNat
  if !hdrOk p then s.count (Obj.packetErrors g)
  else if !bodyOk p f then
    let s := s.count (Obj.packetErrors g)
    if (s.rx g id).ahead f.psn < 1024 && !(s.rx g id).above.contains f.psn then nakAgain g id f.psn s else s
  else
    let a := acceptPsn g id f.psn f.replay s
    if !a.2 then a.1
    else if 2 ≤ t && t ≤ 4 then replayEnd g id (messageTaken g t p a.1)
    else if t != 1 || !pixelOk g id p f a.1 then replayEnd g id (a.1.count (Obj.packetErrors g))
    else replayEnd g id (takePixels g id p f a.1)

/-- The group and LANE_ID whose packets a lane brings: an ACTIVE lane that carries an active LANE_ID, not given up by an OXBOW (R128,
R154). -/
def State.carries (s : State) (l : Nat) : Option (Nat × Nat) :=
  match s.groupOfLane l with
  | none => none
  | some g =>
    match s.idOfLane g l with
    | none => none
    | some id =>
      if id = 8 || (s.lane l).state != .active || ((s.group g).oxbow.map Prod.fst) == some id then none else some (g, id)

/-- PIXEL: a PIXEL packet arrives on a lane; it is checked, accepted by PSN and unpacked into segments (R129 to R138, R142 to
R144, R154). -/
def execPixel (l : Fin 104) (p : Packet) (s : State) : Result :=
  .next <| match s.carries l with
    | none => s
    | some (g, id) => packetArrives g id p s

/-! ### Blocks -/

/-- A packet in assembly closes with TERM_k (R129, R131, R137). -/
def Assembly.packet (a : Assembly) (k : Nat) (tail : Bytes) : Packet :=
  let b := a.body ++ tail
  let n := b.length - 12
  { header := a.header, subheader := b.take 8, payload := (b.drop 8).take n, crc := (b.drop 8).drop n,
    termK := ⟨k % 8, Nat.mod_lt _ (by decide)⟩, alignAt := a.alignAt }

/-- The packet a lane has assembled arrives, if the lane carries packets. -/
def assembled (l : Nat) (p : Packet) (s : State) : State :=
  match s.carries l with
  | none => s
  | some (g, id) => packetArrives g id p s

/-- A START, data or TERM block in a lane's packet assembly (R129, R131); a START inside a packet aborts it as corrupted. -/
def assemble (l : Nat) (isData : Bool) (t : BlockType) (w : Nat) (s : State) : State :=
  let x := s.lane l
  let part := fun (k : Nat) => (leBytes 8 w).drop k
  if x.state != .active then s
  else if isData then s.updLane l fun x => { x with asm := x.asm.map fun a => { a with body := a.body ++ part 0 } }
  else match t with
    | .start =>
      let s := s.updLane l fun x => { x with asm := some { header := part 1 } }
      match x.asm with
      | some a => assembled l { a.packet 0 [] with crc := [] } s
      | none => s
    | .term k =>
      let s := s.updLane l fun x => { x with asm := none }
      match x.asm with
      | some a => assembled l (a.packet k ((part 1).take k)) s
      | none => s
    | _ => s

/-- What a good LINK_CTL word from the camera does (R87, R140): the same as the command that brings its fields (log entry 96). -/
def linkCtlTaken (l : Fin 104) (w : Nat) (s : State) : State :=
  let seq := BitVec.ofNat 8 (field w 16 8)
  let body := BitVec.ofNat 32 (field w 24 32)
  match field w 8 8 with
  | 0x02 => stateOf s (execTrainSts l seq body s)
  | 0x04 => stateOf s (execSleepAck l (bitAt w 24) s)
  | 0x05 => if bitAt w 24 then stateOf s (execWake l true s) else s
  | 0x07 => stateOf s (execTestResult l seq body s)
  | 0x10 => match s.groupOfLane l with
    | some g => if h : g < 96 then stateOf s (execAck ⟨g, h⟩ body s) else s
    | none => s
  | 0x12 => match s.groupOfLane l with
    | some g => if h : g < 96 then stateOf s (execOxbowAck ⟨g, h⟩ body s) else s
    | none => s
  | _ => s

/-- A block with a valid header on a lane with block lock (R65, R66, R85, R86, R99, R100): descrambled, taken by its type. -/
def blockTaken (l : Fin 104) (isData : Bool) (w ctle : Nat) (s : State) : State :=
  let d := descramble 64 (s.lane l).scrambler w
  let clear := ofBits d.2
  let t := blockType clear
  let s := ctleStep l ctle (s.updLane l fun x => Lane.adapt { x with scrambler := d.1 } isData t)
  if isData then assemble l true t clear s
  else match t with
    | .reserved => s.count (Obj.codeErrors l)
    | .linkCtl => if linkCtlOk clear then linkCtlTaken l clear s else s.count (Obj.linkCtlErrors l)
    | _ => assemble l false t clear s

/-- ELASTIC_OVERFLOW, reported (R79). -/
def elasticOverflow (l : Nat) (s : State) : State :=
  match s.groupOfLane l with
  | none => s
  | some g => (s.lanesOfGroup g).foldl (fun s m => s.report Kind.laneLockLoss 2 m 1 (islandOf 2 m)) (s.raise .elasticOverflow [g])

/-- BLOCK_RECEIVED: a 66-bit block arrives on a forward lane (R63 to R67, R69, R73, R75, R79, R85, R86, R99, R129, R131). Header bit 0 is
the first on the wire: 2 a data block, 1 a control block. The first block after block lock is discarded whatever it holds; the bits of
every block, also of one with an invalid header, pass through the descrambler. -/
def execBlockReceived (l : Fin 104) (hdr : BitVec 2) (payload : BitVec 64) (elasticFull : Bool) (ctle : Nat)
    (s : State) : Result :=
  let x := s.lane l
  if !x.framed then .next s else
  let w := payload.toNat
  let valid := hdr.toNat == 1 || hdr.toNat == 2
  let s := s.updLane l fun x => { x with signalDetect := true, cdrLock := true, slots := x.slots.map (· + 1), discardNext := x.discardNext && !x.blockLock }
  let s := if elasticFull then elasticOverflow l s else s
  let skip := fun (s : State) => s.updLane l fun x => { x with scrambler := (descramble 64 x.scrambler w).1 }
  .next <|
    if !x.blockLock then
      -- hunting: the offset moves after every invalid header (R73)
      if valid then skip (s.updLane l fun x => { x with validRun := x.validRun + 1 })
      else (skip (s.updLane l fun x => { x with validRun := 0, bitOffset := (x.bitOffset + 1) % 66 })).count (Obj.codeErrors l)
    else
      let s := s.updLane l fun x => { x with window := ((!valid) :: x.window).take 64 }
      if !valid then (skip s).count (Obj.codeErrors l)
      else if x.discardNext then skip s
      else if hdr.toNat == 1 && isAlign w && x.alignHere then
        -- the slot count of an ALIGN block is the count of the blocks before it
        alignArrives l w (s.updLane l fun y => { y with slots := x.slots })
      else blockTaken l (hdr.toNat == 2) w ctle s

end Sys2Proof.Machine
end

