-- ==== Sys2Proof/Machine/Dispatch.lean ====
section
/-! DEFINITION. The meaning of each command, by name: one arm for each row of the command table. -/
namespace Sys2Proof.Machine

/-- What a command does to everything but the queue of commands. -/
def exec (i : Instr) (s : State) : Host.Outcome State Fault Refusal :=
  match i with
  -- chapter 01
  | .lineArrived src seq portion pixels => Sys2Proof.Machine.execLineArrived src seq portion pixels s
  | .recordClose st line => Sys2Proof.Machine.execRecordClose st line s
  | .oxbowRecoveryEnd g => Sys2Proof.Machine.execOxbowRecoveryEnd g s
  | .commitEnter id st => Sys2Proof.Machine.execCommitEnter id st s
  | .arbiterDecision => Sys2Proof.Machine.execArbiterDecision s
  | .queueWrite q cls words last bad line => Sys2Proof.Machine.execQueueWrite q cls words last bad line s
  | .queuePointer q => Sys2Proof.Machine.execQueuePointer q s
  | .queueFlush => Sys2Proof.Machine.execQueueFlush s
  | .flushDrainEnd q => Sys2Proof.Machine.execFlushDrainEnd q s
  -- chapter 02
  | .blockReceived l hdr payload elasticFull ctle => Sys2Proof.Machine.execBlockReceived l hdr payload elasticFull ctle s
  | .blockLock l => Sys2Proof.Machine.execBlockLock l s
  | .laneLockLoss l => Sys2Proof.Machine.execLaneLockLoss l s
  | .signalLost l => Sys2Proof.Machine.execSignalLost l s
  | .alignBlock l payload => Sys2Proof.Machine.execAlignBlock l payload s
  | .alignLoss l => Sys2Proof.Machine.execAlignLoss l s
  | .fillerBlock l fill allFiller => Sys2Proof.Machine.execFillerBlock l fill allFiller s
  | .deskewFail g => Sys2Proof.Machine.execDeskewFail g s
  | .trainReq l => Sys2Proof.Machine.execTrainReq l s
  | .trainSts l seq body => Sys2Proof.Machine.execTrainSts l seq body s
  | .trainStepTimeout l => Sys2Proof.Machine.execTrainStepTimeout l s
  | .laneTrainFail l => Sys2Proof.Machine.execLaneTrainFail l s
  | .adaptationFreeze l => Sys2Proof.Machine.execAdaptationFreeze l s
  | .adaptationResume l => Sys2Proof.Machine.execAdaptationResume l s
  | .eyeSweep l margin => Sys2Proof.Machine.execEyeSweep l margin s
  | .retrain l => Sys2Proof.Machine.execRetrain l s
  | .retrainStart l => Sys2Proof.Machine.execRetrainStart l s
  | .retrainDone l => Sys2Proof.Machine.execRetrainDone l s
  | .retrainTimeout l => Sys2Proof.Machine.execRetrainTimeout l s
  | .fwdPowerReq l v => Sys2Proof.Machine.execFwdPowerReq l v s
  | .backPowerReq l v => Sys2Proof.Machine.execBackPowerReq l v s
  | .sleepAck l back => Sys2Proof.Machine.execSleepAck l back s
  | .laneSleepTimeout l => Sys2Proof.Machine.execLaneSleepTimeout l s
  | .wake l back => Sys2Proof.Machine.execWake l back s
  | .prbsGenEnable l ctl => Sys2Proof.Machine.execPrbsGenEnable l ctl s
  | .prbsChkEnable l ctl => Sys2Proof.Machine.execPrbsChkEnable l ctl s
  | .prbsInjectOne l => Sys2Proof.Machine.execPrbsInjectOne l s
  | .chkLock l => Sys2Proof.Machine.execChkLock l s
  | .chkLockDrop l bits errors => Sys2Proof.Machine.execChkLockDrop l bits errors s
  | .testDurationEnd l => Sys2Proof.Machine.execTestDurationEnd l s
  | .testResult l seq errors => Sys2Proof.Machine.execTestResult l seq errors s
  -- chapter 03
  | .pixel l p => Sys2Proof.Machine.execPixel l p s
  | .ackInterval g laneId => Sys2Proof.Machine.execAckInterval g laneId s
  | .replayTimeout g laneId psn => Sys2Proof.Machine.execReplayTimeout g laneId psn s
  | .ack g body => Sys2Proof.Machine.execAck g body s
  | .oxbowAck g body => Sys2Proof.Machine.execOxbowAck g body s
  | .ctlResp g h address tag status data => Sys2Proof.Machine.execCtlResp g h address tag status data s
  | .ctlTimeout g => Sys2Proof.Machine.execCtlTimeout g s
  | .trigReject g h seq reason => Sys2Proof.Machine.execTrigReject g h seq reason s
  | .replayFull g h => Sys2Proof.Machine.execReplayFull g h s
  | .cancelDone g h arg => Sys2Proof.Machine.execCancelDone g h arg s
  | .cameraEvent g h code reason arg => Sys2Proof.Machine.execCameraEvent g h code reason arg s
  | .timeSync g => Sys2Proof.Machine.execTimeSync g s
  | .timeResp g h syncId t2 t3 t4 rate => Sys2Proof.Machine.execTimeResp g h syncId t2 t3 t4 rate s
  | .timeRespMissing g => Sys2Proof.Machine.execTimeRespMissing g s
  | .linkUp g regs => Sys2Proof.Machine.execLinkUp g regs s
  | .camRegRead g => Sys2Proof.Machine.execCamRegRead g s
  | .camRegWrite g => Sys2Proof.Machine.execCamRegWrite g s
  -- chapter 04
  | .exposureWindowOpen p seq => Sys2Proof.Machine.execExposureWindowOpen p seq s
  | .readoutToken p => Sys2Proof.Machine.execReadoutToken p s
  | .exposureWindowClose p => Sys2Proof.Machine.execExposureWindowClose p s
  | .stExpEdge p opening at_ => Sys2Proof.Machine.execStExpEdge p opening at_ s
  | .transferPulse p => Sys2Proof.Machine.execTransferPulse p s
  | .readoutEnd p nanovolts => Sys2Proof.Machine.execReadoutEnd p nanovolts s
  | .bankCalibration b ok => Sys2Proof.Machine.execBankCalibration b ok s
  -- chapter 05
  | .segmentArrives st => Sys2Proof.Machine.execSegmentArrives st s
  | .segmentDeal => Sys2Proof.Machine.execSegmentDeal s
  | .segmentComplete k residue uncorrectable corrected => Sys2Proof.Machine.execSegmentComplete k residue uncorrectable corrected s
  | .sliceBist k pass => Sys2Proof.Machine.execSliceBist k pass s
  | .coefRowRewrite row => Sys2Proof.Machine.execCoefRowRewrite row s
  | .streamOpen st => Sys2Proof.Machine.execStreamOpen st s
  | .streamClose st => Sys2Proof.Machine.execStreamClose st s
  -- chapter 06
  | .calDark st => Sys2Proof.Machine.execCalDark st s
  | .calWhite st => Sys2Proof.Machine.execCalWhite st s
  | .calGapDark st => Sys2Proof.Machine.execCalGapDark st s
  | .calGapWhite st => Sys2Proof.Machine.execCalGapWhite st s
  | .calDerive st => Sys2Proof.Machine.execCalDerive st s
  | .calAbort st => Sys2Proof.Machine.execCalAbort st s
  | .captureStart st => Sys2Proof.Machine.execCaptureStart st s
  | .captureComplete st => Sys2Proof.Machine.execCaptureComplete st s
  | .deriveDone st => Sys2Proof.Machine.execDeriveDone st s
  | .warmupInterval => Sys2Proof.Machine.execWarmupInterval s
  | .lampWarmupTimeout => Sys2Proof.Machine.execLampWarmupTimeout s
  | .warmupRestart => Sys2Proof.Machine.execWarmupRestart s
  -- chapter 07
  | .posTransition c input wireN level => Sys2Proof.Machine.execPosTransition c input wireN level s
  | .filterPass c input => Sys2Proof.Machine.execFilterPass c input s
  | .edgeLateAccept c => Sys2Proof.Machine.execEdgeLateAccept c s
  | .posWireFault c => Sys2Proof.Machine.execPosWireFault c s
  | .wireRecovery c => Sys2Proof.Machine.execWireRecovery c s
  | .indexRearm c => Sys2Proof.Machine.execIndexRearm c s
  | .posPreset c v => Sys2Proof.Machine.execPosPreset c v s
  | .generatorEvaluate st => Sys2Proof.Machine.execGeneratorEvaluate st s
  | .compareWrite k isCtl v => Sys2Proof.Machine.execCompareWrite k isCtl v s
  | .latchIn t => Sys2Proof.Machine.execLatchIn t s
  | .tioEdge t => Sys2Proof.Machine.execTioEdge t s
  | .quickStopInAssert t => Sys2Proof.Machine.execQuickStopInAssert t s
  | .quickStopInRelease t => Sys2Proof.Machine.execQuickStopInRelease t s
  | .tioPulseEnd t => Sys2Proof.Machine.execTioPulseEnd t s
  | .tioPulseAt t dt => Sys2Proof.Machine.execTioPulseAt t dt s
  | .scheduledPulse t => Sys2Proof.Machine.execScheduledPulse t s
  | .motionTick m => Sys2Proof.Machine.execMotionTick m s
  | .motionReplan m sub v => Sys2Proof.Machine.execMotionReplan m sub v s
  | .motStop m => Sys2Proof.Machine.execMotStop m s
  | .motQuickStop m => Sys2Proof.Machine.execMotQuickStop m s
  | .motHardStop m => Sys2Proof.Machine.execMotHardStop m s
  | .motClear m => Sys2Proof.Machine.execMotClear m s
  | .motEnable m v => Sys2Proof.Machine.execMotEnable m v s
  -- chapter 08
  | .seamStop u => Sys2Proof.Machine.execSeamStop u s
  | .seamRestart u => Sys2Proof.Machine.execSeamRestart u s
  | .backupStart u => Sys2Proof.Machine.execBackupStart u s
  | .restartStart u => Sys2Proof.Machine.execRestartStart u s
  | .pacingEval u => Sys2Proof.Machine.execPacingEval u s
  | .divertRelease u => Sys2Proof.Machine.execDivertRelease u s
  | .gateInEdge t level => Sys2Proof.Machine.execGateInEdge t level s
  | .holdEntry => Sys2Proof.Machine.execHoldEntry s
  -- chapter 09
  | .bandAssert b => Sys2Proof.Machine.execBandAssert b s
  | .pulseStart b => Sys2Proof.Machine.execPulseStart b s
  | .pulseEnd b => Sys2Proof.Machine.execPulseEnd b s
  | .dischargeEnd b => Sys2Proof.Machine.execDischargeEnd b s
  | .pulseCheck b meas => Sys2Proof.Machine.execPulseCheck b meas s
  | .lampTest => Sys2Proof.Machine.execLampTest s
  | .lampTestDone shorted => Sys2Proof.Machine.execLampTestDone shorted s
  | .diagPulse b => Sys2Proof.Machine.execDiagPulse b s
  | .lampUnverified b col => Sys2Proof.Machine.execLampUnverified b col s
  | .lampLift b col => Sys2Proof.Machine.execLampLift b col s
  | .syncFire => Sys2Proof.Machine.execSyncFire s
  | .syncEdge => Sys2Proof.Machine.execSyncEdge s
  | .syncFault => Sys2Proof.Machine.execSyncFault s
  | .bandEnable b v => Sys2Proof.Machine.execBandEnable b v s
  | .headroomEval => Sys2Proof.Machine.execHeadroomEval s
  -- chapter 10
  | .pageRelease st page => Sys2Proof.Machine.execPageRelease st page s
  | .hostMark st k v => Sys2Proof.Machine.execHostMark st k v s
  | .fetchWaitExpire ch => Sys2Proof.Machine.execFetchWaitExpire ch s
  | .bar4Read off len => Sys2Proof.Machine.execBar4Read off len s
  | .bar4Write off data => Sys2Proof.Machine.execBar4Write off data s
  -- chapter 11
  | .dltChDoorbell n => Sys2Proof.Machine.execDltChDoorbell n s
  | .channelTimerStart n => Sys2Proof.Machine.execChannelTimerStart n s
  | .dltChEnSet n => Sys2Proof.Machine.execDltChEnSet n s
  | .dltChEnClear n => Sys2Proof.Machine.execDltChEnClear n s
  | .channelOff n => Sys2Proof.Machine.execChannelOff n s
  | .channelNextWrite n v => Sys2Proof.Machine.execChannelNextWrite n v s
  | .channelDisable n => Sys2Proof.Machine.execChannelDisable n s
  | .descriptorFetch n reply => Sys2Proof.Machine.execDescriptorFetch n reply s
  | .sourceReadCompletion n reply => Sys2Proof.Machine.execSourceReadCompletion n reply s
  | .streamLineDeliver st => Sys2Proof.Machine.execStreamLineDeliver st s
  | .flushReadCompletion n ok => Sys2Proof.Machine.execFlushReadCompletion n ok s
  | .descriptorComplete n => Sys2Proof.Machine.execDescriptorComplete n s
  | .dltCqHead v => Sys2Proof.Machine.execDltCqHead v s
  | .msixUnmask v => Sys2Proof.Machine.execMsixUnmask v s
  | .hostLinkDown => Sys2Proof.Machine.execHostLinkDown s
  | .hostLinkDegraded gen width => Sys2Proof.Machine.execHostLinkDegraded gen width s
  | .bar0RegisterWrite off v => Sys2Proof.Machine.execBar0RegisterWrite off v s
  | .mbxTxTail v => Sys2Proof.Machine.execMbxTxTail v s
  | .mbxRxHead v => Sys2Proof.Machine.execMbxRxHead v s
  | .mbxDisable => Sys2Proof.Machine.execMbxDisable s
  -- chapter 12
  | .feTimerTrigger j => Sys2Proof.Machine.execFeTimerTrigger j s
  | .fePulseTrigger j => Sys2Proof.Machine.execFePulseTrigger j s
  | .convStart j => Sys2Proof.Machine.execConvStart j s
  | .injectedTrigger k => Sys2Proof.Machine.execInjectedTrigger k s
  | .runComplete j codes => Sys2Proof.Machine.execRunComplete j codes s
  | .feCalibrate j => Sys2Proof.Machine.execFeCalibrate j s
  | .feCalPeriod j => Sys2Proof.Machine.execFeCalPeriod j s
  | .feCalDone j ok => Sys2Proof.Machine.execFeCalDone j ok s
  | .genZeroCrossing g => Sys2Proof.Machine.execGenZeroCrossing g s
  | .genEnable g v => Sys2Proof.Machine.execGenEnable g v s
  | .feGenOvercurrent g => Sys2Proof.Machine.execFeGenOvercurrent g s
  | .feClamp p => Sys2Proof.Machine.execFeClamp p s
  | .feItemWrite k => Sys2Proof.Machine.execFeItemWrite k s
  | .feQueueFlush k => Sys2Proof.Machine.execFeQueueFlush k s
  | .chTest k => Sys2Proof.Machine.execChTest k s
  | .chTestDone k m1 m2 => Sys2Proof.Machine.execChTestDone k m1 m2 s
  -- chapter 13
  | .discover q => Sys2Proof.Machine.execDiscover q s
  | .assignAddress q => Sys2Proof.Machine.execAssignAddress q s
  | .addressTake => Sys2Proof.Machine.execAddressTake s
  | .enumOutAssert => Sys2Proof.Machine.execEnumOutAssert s
  | .enumInAssert => Sys2Proof.Machine.execEnumInAssert s
  | .nop q => Sys2Proof.Machine.execNop q s
  | .read q => Sys2Proof.Machine.execRead q s
  | .write q => Sys2Proof.Machine.execWrite q s
  | .readDesc q => Sys2Proof.Machine.execReadDesc q s
  | .commit q => Sys2Proof.Machine.execCommit q s
  | .discard q => Sys2Proof.Machine.execDiscard q s
  | .commitStatus q => Sys2Proof.Machine.execCommitStatus q s
  | .segInit q => Sys2Proof.Machine.execSegInit q s
  | .segData q => Sys2Proof.Machine.execSegData q s
  | .segEnd q => Sys2Proof.Machine.execSegEnd q s
  | .segAbort q => Sys2Proof.Machine.execSegAbort q s
  | .segTimeout transfer => Sys2Proof.Machine.execSegTimeout transfer s
  | .sessionOpen q => Sys2Proof.Machine.execSessionOpen q s
  | .sessionAuth q => Sys2Proof.Machine.execSessionAuth q s
  | .sessionClose q => Sys2Proof.Machine.execSessionClose q s
  | .sessionTimeout session => Sys2Proof.Machine.execSessionTimeout session s
  | .subscribe q => Sys2Proof.Machine.execSubscribe q s
  | .eventAck q => Sys2Proof.Machine.execEventAck q s
  | .eventRetry mailbox => Sys2Proof.Machine.execEventRetry mailbox s
  | .ptpSync origin => Sys2Proof.Machine.execPtpSync origin s
  | .ptpUnlock => Sys2Proof.Machine.execPtpUnlock s
  | .ptpPpsIn stamp => Sys2Proof.Machine.execPtpPpsIn stamp s
  | .ptpPpsOut => Sys2Proof.Machine.execPtpPpsOut s
  | .fnLinkFault => Sys2Proof.Machine.execFnLinkFault s
  -- chapter 15
  | .modeRequestSentinel r => Sys2Proof.Machine.execModeRequestSentinel r s
  | .modeRequestConfigure r => Sys2Proof.Machine.execModeRequestConfigure r s
  | .modeRequestCalibrate r => Sys2Proof.Machine.execModeRequestCalibrate r s
  | .modeRequestIdleReady r => Sys2Proof.Machine.execModeRequestIdleReady r s
  | .modeRequestScan r => Sys2Proof.Machine.execModeRequestScan r s
  | .modeRequestStream r => Sys2Proof.Machine.execModeRequestStream r s
  | .modeRequestHold r => Sys2Proof.Machine.execModeRequestHold r s
  | .modeRequestMaintenance r => Sys2Proof.Machine.execModeRequestMaintenance r s
  | .modeRequestSafeHalt r => Sys2Proof.Machine.execModeRequestSafeHalt r s
  | .modeTransitionDone => Sys2Proof.Machine.execModeTransitionDone s
  | .standbyInRange record => Sys2Proof.Machine.execStandbyInRange record s
  | .standbyOutOfRange => Sys2Proof.Machine.execStandbyOutOfRange s
  | .domainOn d => Sys2Proof.Machine.execDomainOn d s
  | .domainFault d => Sys2Proof.Machine.execDomainFault d s
  | .railFault r => Sys2Proof.Machine.execRailFault r s
  | .avsEval slack => Sys2Proof.Machine.execAvsEval slack s
  | .avsDroop monitor => Sys2Proof.Machine.execAvsDroop monitor s
  | .avsFallback => Sys2Proof.Machine.execAvsFallback s
  | .thermalWarn t => Sys2Proof.Machine.execThermalWarn t s
  | .thermalShutdown t => Sys2Proof.Machine.execThermalShutdown t s
  | .motorEnableRelease => Sys2Proof.Machine.execMotorEnableRelease s
  | .clusterOff k => Sys2Proof.Machine.execClusterOff k s
  -- chapter 16
  | .tmrDisagree copy => Sys2Proof.Machine.execTmrDisagree copy s
  | .tmrResyncDone => Sys2Proof.Machine.execTmrResyncDone s
  | .lockstepMismatch => Sys2Proof.Machine.execLockstepMismatch s
  | .takeoverResume pass0 pass1 => Sys2Proof.Machine.execTakeoverResume pass0 pass1 s
  | .checkpoint => Sys2Proof.Machine.execCheckpoint s
  | .reservoirChannel stack ch => Sys2Proof.Machine.execReservoirChannel stack ch s
  | .switchSegmentCheck d drops => Sys2Proof.Machine.execSwitchSegmentCheck d drops s
  | .wearEval m => Sys2Proof.Machine.execWearEval m s
  | .spareTest k pass => Sys2Proof.Machine.execSpareTest k pass s
  | .plannedInsertion => Sys2Proof.Machine.execPlannedInsertion s
  | .plannedWaitExpire => Sys2Proof.Machine.execPlannedWaitExpire s
  | .repairRecordWrite => Sys2Proof.Machine.execRepairRecordWrite s
  | .repairClear v => Sys2Proof.Machine.execRepairClear v s
  -- chapter 17
  | .selfTestRun => Sys2Proof.Machine.execSelfTestRun s
  | .zeroise => Sys2Proof.Machine.execZeroise s
  | .vendorServiceEnable v => Sys2Proof.Machine.execVendorServiceEnable v s
  | .debugUnlock => Sys2Proof.Machine.execDebugUnlock s
  | .roleKeySet r key => Sys2Proof.Machine.execRoleKeySet r key s
  | .nodeAddressLock a => Sys2Proof.Machine.execNodeAddressLock a s
  | .approvedModeLock => Sys2Proof.Machine.execApprovedModeLock s
  | .debugLock => Sys2Proof.Machine.execDebugLock s
  | .ownerKeyHash h => Sys2Proof.Machine.execOwnerKeyHash h s
  | .antiRollback v => Sys2Proof.Machine.execAntiRollback v s
  | .keyRevocation slot id => Sys2Proof.Machine.execKeyRevocation slot id s
  | .hardRepairPromote seq => Sys2Proof.Machine.execHardRepairPromote seq s
  | .sealLineRead st => Sys2Proof.Machine.execSealLineRead st s
  | .sealBlockClose => Sys2Proof.Machine.execSealBlockClose s
  | .sealIssued => Sys2Proof.Machine.execSealIssued s
  | .auditAck seq => Sys2Proof.Machine.execAuditAck seq s
  | .tamperDetected inputs sensors => Sys2Proof.Machine.execTamperDetected inputs sensors s
  | .tamperClear inputs => Sys2Proof.Machine.execTamperClear inputs s
  | .sandboxViolation => Sys2Proof.Machine.execSandboxViolation s
  -- chapter 18
  | .perstAssert => Sys2Proof.Machine.execPerstAssert s
  | .perstDeassert => Sys2Proof.Machine.execPerstDeassert s
  | .deviceReset => Sys2Proof.Machine.execDeviceReset s
  | .bootWatchdog => Sys2Proof.Machine.execBootWatchdog s
  | .mgmtWatchdog => Sys2Proof.Machine.execMgmtWatchdog s
  | .jtagSystemReset => Sys2Proof.Machine.execJtagSystemReset s
  | .bootRailTimeout r => Sys2Proof.Machine.execBootRailTimeout r s
  | .bootSlotVerify slot c => Sys2Proof.Machine.execBootSlotVerify slot c s
  | .aligningTimeout l => Sys2Proof.Machine.execAligningTimeout l s
  | .hostLinkUp gen width sizes => Sys2Proof.Machine.execHostLinkUp gen width sizes s
  | .addressInUseSeen a => Sys2Proof.Machine.execAddressInUseSeen a s
  | .kdpMalformed => Sys2Proof.Machine.execKdpMalformed s
  | .unknownOpcode q op => Sys2Proof.Machine.execUnknownOpcode q op s
  | .stExpMissing p => Sys2Proof.Machine.execStExpMissing p s
  | .lineTriggerInstant st line => Sys2Proof.Machine.execLineTriggerInstant st line s
  | .tioInputEdge t level => Sys2Proof.Machine.execTioInputEdge t level s
  | .ptpDelayResp stamp => Sys2Proof.Machine.execPtpDelayResp stamp s
  | .ptpMasterSync => Sys2Proof.Machine.execPtpMasterSync s
  | .selfTestDone passed => Sys2Proof.Machine.execSelfTestDone passed s
  | .railRegulating r => Sys2Proof.Machine.execRailRegulating r s
  | .zeroised => Sys2Proof.Machine.execZeroised s

end Sys2Proof.Machine
end

