-- ==== Sys2Proof/WellFormed.lean ====
section
/-! DEFINITION. What a command's operands must be for it to name something the spec knows, where their types do not say it: lengths,
alignments and ranges. A command that is not well formed is still a command: its meaning leaves the state alone or takes what it
can; nothing stops. -/
namespace Sys2Proof

open Machine

/-- No two entries alike. -/
def distinct (l : List Nat) : Bool := match l with
  | [] => true
  | x :: xs => !xs.contains x && distinct xs

/-- A camera packet as its blocks carried it: 7 header bytes, 4 of CRC (R129). -/
def Packet.wellFormed (p : Packet) : Bool :=
  p.header.length == 7 && p.crc.length == 4 && (match p.alignAt with
    | some n => decide (n ≤ p.payload.length)
    | none => true)

/-- A KDP request packet (R551, R552): one-byte addresses, at most 1,456 bytes, a session with AUTH. -/
def Kdp.wellFormed (q : Kdp) : Bool :=
  decide (q.src < 256 ∧ q.dst < 256 ∧ q.payload.length ≤ 1456) && (!q.auth || q.session != 0)

/-- A slot number and check fit together: with no HEADER_VERSION nothing verifies. -/
def SlotCheck.wellFormed (c : SlotCheck) : Bool := c.present || !(c.known || c.signatures || c.ownerSigned || c.digest)

/-- A PCI Express generation and width (R448). -/
def pcieLink (gen width : Nat) : Bool := decide (1 ≤ gen ∧ gen ≤ 5) && ([1, 2, 4, 8, 16] : List Nat).contains width

/-- The operands of a command name something the spec knows. -/
def wellFormed (i : Instr) : Bool :=
  match i with
  | .lineArrived _ _ _ pixels => decide (pixels < 2 ^ 20)
  | .commitEnter id _ => decide (1 ≤ id ∧ id ≤ 65535)
  | .queueWrite _ _ words _ _ _ => decide (1 ≤ words)
  | .blockReceived _ _ _ _ ctle => decide (ctle < 32)
  | .eyeSweep _ margin => decide (margin ≤ 64)
  | .chkLockDrop _ bits errors => decide (errors.recent ≤ errors.total ∧ errors.total ≤ bits ∧ errors.recent ≤ 1024)
  | .pixel _ p => p.wellFormed
  | .ctlResp _ _ _ _ _ data => data.length % 4 == 0
  | .linkUp _ regs => regs.length == 84
  | .timeResp _ _ _ t2 t3 t4 _ => decide (t2 < 2 ^ 64 ∧ t3 < 2 ^ 64 ∧ t4 < 2 ^ 64)
  | .segmentComplete _ _ uncorrectable corrected => distinct uncorrectable && distinct corrected
  | .coefRowRewrite row => decide (row < 114688)
  | .motionReplan _ sub _ => ([2, 3, 4, 5, 6, 7, 8, 18] : List Nat).contains sub
  | .pulseCheck _ meas => distinct (meas.map fun m => m.column.val)
  | .lampTestDone shorted => distinct (shorted.map Fin.val)
  | .bar4Read off len => decide (1 ≤ len ∧ off + len ≤ 2 ^ 36)
  | .bar4Write off data => decide (1 ≤ data.length ∧ off + data.length ≤ 2 ^ 36)
  | .hostLinkDegraded gen width => pcieLink gen width
  | .bar0RegisterWrite off _ => decide (off % 4 = 0 ∧ off < 2 ^ 26)
  | .discover q | .assignAddress q | .nop q | .read q | .write q | .readDesc q | .commit q | .discard q | .commitStatus q | .segInit q
  | .segData q | .segEnd q | .segAbort q | .sessionOpen q | .sessionAuth q | .sessionClose q | .subscribe q | .eventAck q => q.wellFormed
  | .unknownOpcode q op => q.wellFormed && !opcodeKnown op.toNat
  | .switchSegmentCheck _ drops => drops.length == 32
  | .wearEval m => distinct (m.aged.map fun p => p.1.val) && distinct (m.dram.map fun p => 16 * p.1.val + p.2.1.val)
  | .roleKeySet _ key => key.length == 32
  | .ownerKeyHash h => h.length == 48
  | .bootSlotVerify _ c => c.wellFormed
  | .hostLinkUp gen width sizes => pcieLink gen width && decide (128 ≤ sizes.mps ∧ 128 ≤ sizes.mrrs)
  | .recordClose .. | .oxbowRecoveryEnd .. | .arbiterDecision | .queuePointer .. | .queueFlush | .flushDrainEnd ..
  | .blockLock .. | .laneLockLoss .. | .signalLost .. | .alignBlock .. | .alignLoss .. | .fillerBlock .. | .deskewFail ..
  | .trainReq .. | .trainSts .. | .trainStepTimeout .. | .laneTrainFail .. | .adaptationFreeze .. | .adaptationResume ..
  | .retrain .. | .retrainStart .. | .retrainDone .. | .retrainTimeout .. | .fwdPowerReq .. | .backPowerReq .. | .sleepAck ..
  | .laneSleepTimeout .. | .wake .. | .prbsGenEnable .. | .prbsChkEnable .. | .prbsInjectOne .. | .chkLock .. | .testDurationEnd ..
  | .testResult .. | .ackInterval .. | .replayTimeout .. | .ack .. | .oxbowAck .. | .ctlTimeout .. | .trigReject .. | .replayFull ..
  | .cancelDone .. | .cameraEvent .. | .timeSync .. | .timeRespMissing .. | .camRegRead .. | .camRegWrite ..
  | .exposureWindowOpen .. | .readoutToken .. | .exposureWindowClose .. | .stExpEdge .. | .transferPulse .. | .readoutEnd ..
  | .bankCalibration .. | .segmentArrives .. | .segmentDeal | .sliceBist .. | .streamOpen .. | .streamClose .. | .calDark ..
  | .calWhite .. | .calGapDark .. | .calGapWhite .. | .calDerive .. | .calAbort .. | .captureStart .. | .captureComplete ..
  | .deriveDone .. | .warmupInterval | .lampWarmupTimeout | .warmupRestart | .posTransition .. | .filterPass ..
  | .edgeLateAccept .. | .posWireFault .. | .wireRecovery .. | .indexRearm .. | .posPreset .. | .generatorEvaluate ..
  | .compareWrite .. | .latchIn .. | .tioEdge .. | .quickStopInAssert .. | .quickStopInRelease .. | .tioPulseEnd ..
  | .tioPulseAt .. | .scheduledPulse .. | .motionTick .. | .motStop .. | .motQuickStop .. | .motHardStop .. | .motClear ..
  | .motEnable .. | .seamStop .. | .seamRestart .. | .backupStart .. | .restartStart .. | .pacingEval .. | .divertRelease ..
  | .gateInEdge .. | .holdEntry | .bandAssert .. | .pulseStart .. | .pulseEnd .. | .dischargeEnd .. | .lampTest | .diagPulse ..
  | .lampUnverified .. | .lampLift .. | .syncFire | .syncEdge | .syncFault | .bandEnable .. | .headroomEval | .pageRelease ..
  | .hostMark .. | .fetchWaitExpire .. | .dltChDoorbell .. | .channelTimerStart .. | .dltChEnSet .. | .dltChEnClear ..
  | .channelOff .. | .channelNextWrite .. | .channelDisable .. | .descriptorFetch .. | .sourceReadCompletion ..
  | .streamLineDeliver .. | .flushReadCompletion .. | .descriptorComplete .. | .dltCqHead .. | .msixUnmask .. | .hostLinkDown
  | .mbxTxTail .. | .mbxRxHead .. | .mbxDisable | .feTimerTrigger .. | .fePulseTrigger .. | .convStart .. | .injectedTrigger ..
  | .runComplete .. | .feCalibrate .. | .feCalPeriod .. | .feCalDone .. | .genZeroCrossing .. | .genEnable ..
  | .feGenOvercurrent .. | .feClamp .. | .feItemWrite .. | .feQueueFlush .. | .chTest .. | .chTestDone .. | .addressTake
  | .enumOutAssert | .enumInAssert | .segTimeout .. | .sessionTimeout .. | .eventRetry .. | .ptpSync .. | .ptpUnlock
  | .ptpPpsIn .. | .ptpPpsOut | .fnLinkFault | .modeRequestSentinel .. | .modeRequestConfigure .. | .modeRequestCalibrate ..
  | .modeRequestIdleReady .. | .modeRequestScan .. | .modeRequestStream .. | .modeRequestHold .. | .modeRequestMaintenance ..
  | .modeRequestSafeHalt .. | .modeTransitionDone | .standbyInRange .. | .standbyOutOfRange | .domainOn .. | .domainFault ..
  | .railFault .. | .avsEval .. | .avsDroop .. | .avsFallback | .thermalWarn .. | .thermalShutdown .. | .motorEnableRelease
  | .clusterOff .. | .tmrDisagree .. | .tmrResyncDone | .lockstepMismatch | .takeoverResume .. | .checkpoint
  | .reservoirChannel .. | .spareTest .. | .plannedInsertion | .plannedWaitExpire | .repairRecordWrite | .repairClear ..
  | .selfTestRun | .zeroise | .vendorServiceEnable .. | .debugUnlock | .nodeAddressLock .. | .approvedModeLock | .debugLock
  | .antiRollback .. | .keyRevocation .. | .hardRepairPromote .. | .sealLineRead .. | .sealBlockClose | .sealIssued
  | .auditAck .. | .tamperDetected .. | .tamperClear .. | .sandboxViolation | .perstAssert | .perstDeassert | .deviceReset
  | .bootWatchdog | .mgmtWatchdog | .jtagSystemReset | .bootRailTimeout .. | .aligningTimeout .. | .addressInUseSeen ..
  | .kdpMalformed | .stExpMissing .. | .lineTriggerInstant .. | .tioInputEdge .. | .ptpDelayResp .. | .ptpMasterSync
  | .selfTestDone .. | .railRegulating .. | .zeroised => true

end Sys2Proof
end

