-- ==== Sys2Proof/Safety.lean ====
section
/-! DEFINITION. The terms the statements use: which parts of the state stay as they were, the canonical form of the state, and what a
halted block does not do. -/
namespace Sys2Proof.Machine

/-! ### Frames -/

/-- Every register but those named reads as before. -/
def SameRegs (keys : List Nat) (s t : State) : Prop := ∀ o : Obj, o.key ∉ keys → t.reg o = s.reg o

/-- The registers telling an event counts in: EventsRaised and EventsLost. -/
def eventKeys : List Nat := [Obj.eventsRaised.key, Obj.eventsLost.key]

/-- The registers reporting a fault counts in: FaultCounts, and the count and the latest report of the kind. -/
def faultKeys (kind : Nat) : List Nat := [Obj.faultCounts.key, (Obj.faultKindCount kind).key, (Obj.faultKindLast kind).key]

/-- `s` with the parts of `t` that telling an event may change: the registers, the event log, what was sent, the sessions'
counters, the event routes, the mailbox, the MSI-X table and what waits for the host link outside the stream channels. -/
def told (s t : State) : State :=
  { s with dict := t.dict, raised := t.raised, out := t.out,
           kdps := { s.kdps with sessions := t.kdps.sessions, net := t.kdps.net, mail := t.kdps.mail },
           host := { s.host with mbx := t.host.mbx, msix := t.host.msix, mgmt := t.host.mgmt } }

/-- `s` with the parts of `t` that an event with a fault report may change: also the reports that wait, FaultLog and the worst
severity. -/
def toldFault (s t : State) : State :=
  { told s t with reports := t.reports, dep := { s.dep with log := t.dep.log, worst := t.dep.worst } }

/-- Nothing but what telling events touches has changed. -/
def Told (s t : State) : Prop := t = told s t
/-- Nothing but what events with fault reports touch has changed. -/
def ToldFault (s t : State) : Prop := t = toldFault s t

/-! ### The canonical form -/

/-- Every register and every unit is listed at most once, in rising order, so that each reads as one value; the descriptor memory and
the mailbox rings list no byte that equals what an unlisted one reads as. -/
structure Canonical (s : State) : Prop where
  dict : Table.rising s.dict
  queues : Table.rising s.queues
  lanes : Table.rising s.lanes
  groups : Table.rising s.groups
  ports : Table.rising s.ports
  banks : Table.rising s.banks
  slices : Table.rising s.slices
  coefRows : Table.rising s.coefRows
  streams : Table.rising s.streams
  curves : Table.rising s.curves
  calibs : Table.rising s.calibs
  posChans : Table.rising s.posChans
  compares : Table.rising s.compares
  gens : Table.rising s.gens
  tios : Table.rising s.tios
  motions : Table.rising s.motions
  transports : Table.rising s.transports
  seams : Table.rising s.seamsOf
  rings : Table.rising s.rings
  mem : s.host.mem.wf = true
  txRing : s.host.mbx.txRing.wf = true
  rxRing : s.host.mbx.rxRing.wf = true

/-- Every command that waits is well formed. -/
def QueueWellFormed (s : State) : Prop := ∀ c ∈ s.pending, wellFormed c = true

/-! ### Requests -/

/-- The state in which a request packet is taken up: activity on the field network noted, the mailbox slot left behind. -/
def heard (q : Kdp) (s : State) : State :=
  if q.mailbox then advanceTx (noteActivity q s) else noteActivity q s

/-- A packet reaches this block while it serves requests (R542, R551, R554, R580, R650). -/
structure Reaches (op : Nat) (q : Kdp) (s : State) : Prop where
  talks : s.mode.talks = true
  recovery : s.boot.recovery = false
  inUse : q.mailbox = true → s.host.mbx.en = true
  mine : (q.dst = 0xFF ∧ 0 < op ∧ op ≤ 3) ∨ (s.nat Obj.nodeAddress ≠ 0 ∧ q.dst ≠ 0xFF ∧ q.dst = s.nat Obj.nodeAddress) ∨
    (q.mailbox = true ∧ q.dst = 0xFE) ∨ (q.sandbox s = true ∧ q.dst ≠ 0xFF)
  running : s.nat Obj.lockstepState ≠ 2

/-- The state a request is executed in: as it was heard, and, in a session, with its counter and its time of last use moved on (R575,
R576). -/
def Admitted (q : Kdp) (s t : State) : Prop :=
  (q.auth = false ∧ t = heard q s) ∨
  (q.auth = true ∧ q.authentic = true ∧ ∃ x, (heard q s).session q.session.toNat = some x ∧ x.opened = true ∧
    x.mailbox = q.mailbox ∧ x.src = q.src ∧ x.rxCtr < q.ctr.toNat ∧
    t = updSession x.num (fun y => { y with rxCtr := q.ctr.toNat, used := s.now }) (heard q s))

/-- The request `q` of opcode `op` is served in the state `t` (R553, R556, R559, R575, R578). -/
structure Accepted (op : Nat) (q : Kdp) (s t : State) : Prop where
  reaches : Reaches op q s
  admitted : Admitted q s t
  length : lengthError op q.payload = none
  role : t.roleOf q ≠ 0 ∨ openService op q = true
  fresh : q.retry = false ∨ (t.kdps.kept.find? fun k => k.owner == q.owner && k.seq == q.seq.toNat) = none

/-- The session a response names unless its service names another. -/
def sessionOf (q : Kdp) : Nat := if q.auth then q.session.toNat else 0

/-! ### Safe Halt (R616) -/

/-- Once Safe Halt has been decided the block is in it, with no transition under way, or on the way into it, from Boot or a later mode. -/
def HaltHeld (s : State) : Prop :=
  s.power.halted = true → s.mode.booted = true ∧ ((s.mode = .safeHalt ∧ s.target = none) ∨ s.target = some .safeHalt)

end Sys2Proof.Machine
end

