-- ==== Sys2Proof/Certificates/Slice0/Obligations.lean ====
section
/-! DEFINITION. The statements for the provers: what each family of commands does, what a step is, what reset leaves, and what every
step keeps. An equation for the next state says the frame as well: what its right side does not change is as it was. -/
open Sys2Proof Sys2Proof.Machine

/-! ### The machine as a whole -/

/-- A step runs the front command: with c at the front of the queue, step is exec of c on the state with the queue's rest; with nothing
waiting, a step is a tick of the clock (the model's choice, log entry 10). -/
def Obligations.StepRunsTheFrontCommand : Prop :=
  (∀ (s : State) (c : Instr) (rest : List Instr), s.pending = c :: rest → step s = exec c { s with pending := rest }) ∧
  (∀ (s : State), s.pending = [] → step s = .next (tick s))

/-- What reset leaves (R44 and the Default columns of the dictionary tables): every entry of the dictionary at its default (0 where the
spec gives none, log entry 5), nothing waiting, nothing in memory, every lane disabled, every weir deasserted, every stream closed, no
session and no halt. -/
def Obligations.ResetHoldsTheDefaults : Prop :=
  (∀ (o : Obj), State.reset.reg o = o.dflt) ∧ State.reset.pending = [] ∧ State.reset.host.mem = [] ∧ State.reset.records = [] ∧
  State.reset.kdps.sessions = [] ∧ State.reset.power.halted = false ∧ State.reset.mode = .sentinel ∧
  (∀ (l : Fin 104), (State.reset.lane l).state = .disabled) ∧ (∀ (q : Fin 1024), (State.reset.queue q).weir = false) ∧
  (∀ (st : Fin 64), (State.reset.strm st).state = .closed) ∧ (∀ (a : Nat), State.reset.host.mem.read a = 0)

/-- The state after reset meets the invariants that every step keeps: its tables and memory in canonical form, its queue of well-formed
commands, a halt held where one was decided. -/
def Obligations.ResetMeetsTheInvariants : Prop := Canonical State.reset ∧ QueueWellFormed State.reset ∧ HaltHeld State.reset

/-- Every command answers a next state, on every state and operands, and leaves the queue of waiting commands as it is: no command of the
block stops the machine. -/
def Obligations.EveryCommandAnswersANextState : Prop :=
  ∀ (c : Instr) (s : State), ∃ t, exec c s = .next t ∧ t.pending = s.pending

/-- Every step keeps the canonical form: where each table and each memory lists its entries at strictly rising keys, and memory no byte
equal to what an unlisted address reads as, so it does after any command and after a tick. -/
def Obligations.EveryStepKeepsTheCanonicalForm : Prop :=
  ∀ (s t : State), Canonical s → step s = .next t → Canonical t

/-- Every step keeps a decided Safe Halt (R607, R616): once it is decided the machine is in Safe Halt or on its way there, whatever command
comes; only a reset takes the decision back. -/
def Obligations.EveryStepKeepsTheHalt : Prop :=
  ∀ (s t : State), HaltHeld s → step s = .next t → HaltHeld t

/-- Every step keeps the queue well-formed: no step puts a command into it that names something the block does not have. -/
def Obligations.EveryStepKeepsTheQueueWellFormed : Prop :=
  ∀ (s t : State), QueueWellFormed s → step s = .next t → QueueWellFormed t ∧ t.pending = s.pending.drop 1

/-- A host write to BAR4 is discarded, counted in Bar4WritesDropped and reported as a non-fatal Unsupported Request (R452): the rings, the
descriptor memory, the records and every other entry of the dictionary stay as they were. -/
def Obligations.HostWritesToBar4AreDropped : Prop :=
  ∀ (s : State) (off : Nat) (data : Bytes), Canonical s → ∃ t, exec (.bar4Write off data) s = .next t ∧
    t.nat Obj.bar4WritesDropped = satInc (s.nat Obj.bar4WritesDropped) 1 ∧ t.out = .unsupportedRequest :: s.out ∧
    (∀ (o : Obj), o.key ≠ Obj.bar4WritesDropped.key → t.reg o = s.reg o) ∧ t.rings = s.rings ∧ t.host = s.host ∧
    t.records = s.records ∧ t.mode = s.mode ∧ t.pending = s.pending

/-- A mode request during a transition (R607): while one is in progress a further request is refused with BUSY by the check and by the
WRITE of ModeRequest, and changes nothing as a command; a request for Safe Halt is taken at once, and the transition in progress ends. -/
def Obligations.RequestsDuringATransition : Prop :=
  (∀ (s : State) (role : Nat) (m n : Mode), s.target = some n → s.power.halted = false → s.mode ≠ .safeHalt → m ≠ .safeHalt →
    roleMeets role m.role = true → modeError role m s = some 0x0A) ∧
  (∀ (s : State) (r : Role) (n : Mode), s.target = some n → s.power.halted = false → s.mode ≠ .safeHalt → roleMeets (roleCode r) 1 = true →
    exec (.modeRequestScan r) s = .next s ∧ exec (.modeRequestStream r) s = .next s ∧ exec (.modeRequestHold r) s = .next s ∧
    exec (.modeRequestIdleReady r) s = .next s) ∧
  (∀ (s : State) (r : Role) (n : Mode), s.target = some n → s.power.halted = false → s.mode.booted = true → s.mode ≠ .safeHalt →
    roleMeets (roleCode r) 2 = true → ∃ t, exec (.modeRequestSafeHalt r) s = .next t ∧ t.power.halted = true ∧ t.target = some .safeHalt)

/-- TamperClear (R710): a write of 1 clears the bits of TamperState whose inputs are no longer asserted, and leaves the bits of inputs that
still are. -/
def Obligations.TamperClearKeepsAssertedInputs : Prop :=
  ∀ (s : State) (inputs : BitVec 4), Canonical s → ∃ t, exec (.tamperClear inputs) s = .next t ∧
    (∀ (i : Fin 4), bitAt (t.nat Obj.tamperState) i = (bitAt (s.nat Obj.tamperState) i && inputs.getLsbD i)) ∧ t.mode = s.mode ∧
    (∀ (o : Obj), o.key ≠ Obj.tamperState.key → t.reg o = s.reg o)

/-! ### Chapter 01: lines, commits, the arbiter, crossing queues -/

/-- Lines meet their records (R18 to R20): a portion of a line that matches an open record is counted in it with the stamp of its island; a
line that matches none is discarded, and counted and told once, unless its stream withheld it; a record whose close instant has come
with a portion missing is closed LOST, or its close is deferred while a LANE_ID it awaits recovers, and before that instant, or
complete, it stays; when a group's recovery ends the deferred records are looked at again. Choices of the model it rests on: log entry
73. -/
def Obligations.LinesMeetTheirRecords : Prop :=
  (∀ (s : State) (src : Source) (seq : BitVec 32) (portion : Fin 9) (pixels st k : Nat) (r : LineRec),
    s.matchLine (srcKind src) (srcNum src) seq.toNat = some (st, k, r) →
    exec (.lineArrived src seq portion pixels) s = .next { s with records := s.records.map fun (q : LineRec) =>
      if q.stream == st && q.line == r.line then
        { q with lastPixel := some (s.stamp (sourceIsland src portion s)),
                 parts := q.parts.map fun (p : Part) =>
                   if p.trib == k && p.portion == portion.val then { p with got := max p.got (min p.need pixels) } else p }
      else q }) ∧
  (∀ (s : State) (src : Source) (seq : BitVec 32) (portion : Fin 9) (pixels : Nat),
    s.matchLine (srcKind src) (srcNum src) seq.toNat = none → s.strays.contains (srcKind src, srcNum src, seq.toNat) = false →
    (∀ st k, s.streamOfSource (srcKind src) (srcNum src) = some (st, k) → (s.strm st).ignored.contains seq.toNat = false) →
    exec (.lineArrived src seq portion pixels) s =
      .next (({ s with strays := ((srcKind src, srcNum src, seq.toNat) :: s.strays).take 64 }.count Obj.unmatchedLines).raise
        .unmatchedLine [srcKind src, srcNum src, seq.toNat])) ∧
  (∀ (s : State) (src : Source) (seq : BitVec 32) (portion : Fin 9) (pixels : Nat),
    s.matchLine (srcKind src) (srcNum src) seq.toNat = none →
    s.strays.contains (srcKind src, srcNum src, seq.toNat) = true ∨
      (∃ st k, s.streamOfSource (srcKind src) (srcNum src) = some (st, k) ∧ (s.strm st).ignored.contains seq.toNat = true) →
    exec (.lineArrived src seq portion pixels) s = .next s) ∧
  (∀ (s : State) (st : Fin 64) (line : Nat) (r : LineRec),
    s.recOf st line = some r → r.closeAt ≤ s.now → r.parts.any Part.open? = true → s.deferClose r = false →
    exec (.recordClose st line) s = .next (loseRec r s)) ∧
  (∀ (s : State) (st : Fin 64) (line : Nat) (r : LineRec),
    s.recOf st line = some r → r.closeAt ≤ s.now → r.parts.any Part.open? = true → s.deferClose r = true →
    exec (.recordClose st line) s = .next (updRec st line (fun x => { x with deferred := true }) s)) ∧
  (∀ (s : State) (st : Fin 64) (line : Nat),
    (∀ r, s.recOf st line = some r → s.now < r.closeAt ∨ r.parts.any Part.open? = false) →
    exec (.recordClose st line) s = .next s) ∧
  (∀ (s : State) (g : Fin 96), exec (.oxbowRecoveryEnd g) s = .next (closeDeferred g (s.setGroup g
    { s.group g with rx := (s.group g).rx.map fun (e : Nat × RxSeq) => (e.1, { e.2 with lagUntil := none, failedOver := false }) })))

/-- Accepted groups enter and reports are decided (R23, R25, R28, R33 to R35, R382, R645): a group with boundary M enters at its instant
and not before; a group with a stream boundary enters a stream of its own that is closed or stands at that boundary, if no earlier
group of the stream waits, and otherwise goes on waiting; one without streams enters at once; the arbiter takes the report that comes
first, if there is one it may decide, and looks whether Degraded can be left. Choices of the model it rests on: log entries 23, 28, 32
and 66. -/
def Obligations.GroupsEnterAndReportsAreDecided : Prop :=
  (∀ (s : State) (id : Nat) (st : Option (Fin 64)), (s.groupsWaiting.find? fun w => w.id == id) = none →
    exec (.commitEnter id st) s = .next s) ∧
  (∀ (s : State) (id t : Nat) (st : Option (Fin 64)) (g : CommitGroup),
    (s.groupsWaiting.find? fun w => w.id == id) = some g → g.boundary = 4 → g.applyAt = some t → t ≤ s.now →
    exec (.commitEnter id st) s = .next (enterPlain g s)) ∧
  (∀ (s : State) (id : Nat) (st : Option (Fin 64)) (g : CommitGroup),
    (s.groupsWaiting.find? fun w => w.id == id) = some g → g.boundary = 4 → (∀ t, g.applyAt = some t → s.now < t) →
    exec (.commitEnter id st) s = .next s) ∧
  (∀ (s : State) (id : Nat) (st : Fin 64) (g : CommitGroup),
    (s.groupsWaiting.find? fun w => w.id == id) = some g → g.boundary ≠ 0 → g.boundary ≠ 4 → g.streams.contains st.val = true →
    ((s.groupsWaiting.find? fun w => w.streams.contains st.val && 1 ≤ w.boundary && w.boundary ≤ 3).map CommitGroup.id) = some id →
    (!s.streamOpen? st || s.boundaryAt st g.boundary) = true →
    exec (.commitEnter id (some st)) s = .next (enterStream g st s)) ∧
  (∀ (s : State) (id : Nat) (st : Fin 64) (g : CommitGroup),
    (s.groupsWaiting.find? fun w => w.id == id) = some g → g.boundary ≠ 4 → g.boundary = 0 ∨ g.streams.contains st.val = false ∨
    ((s.groupsWaiting.find? fun w => w.streams.contains st.val && 1 ≤ w.boundary && w.boundary ≤ 3).map CommitGroup.id) ≠ some id ∨
    (!s.streamOpen? st || s.boundaryAt st g.boundary) = false →
    exec (.commitEnter id (some st)) s = .next s) ∧
  (∀ (s : State) (id : Nat) (g : CommitGroup),
    (s.groupsWaiting.find? fun w => w.id == id) = some g → g.boundary ≠ 0 → g.boundary ≠ 4 →
    exec (.commitEnter id none) s = .next (if g.streams.isEmpty then enterPlain g s else s)) ∧
  (∀ (s : State) (r : FaultReport), s.nextReport = some r →
    exec .arbiterDecision s = .next (reviewSustain (decide_ r { s with reports := s.reports.erase r }))) ∧
  (∀ (s : State), s.nextReport = none → exec .arbiterDecision s = .next (reviewSustain s))

/-- Crossing queues (R38 to R43, R622): the words of a write go behind those that wait already, and the queue takes from the front of the
waiting what it can (`Queue.settle`). Where none waits: the words wait while the queue resets or has no room; the last word of a good
item makes it visible, an earlier one opens it, a bad one rewinds it; a draining queue discards up to the last word. A pointer fault
empties the queue, marks and counts it, drains a part-written item, is reported, and hits every line that was in it. QueueFlush flushes
the selected queue in Maintenance, and otherwise does nothing; a drain ends, and the domains that wait for it follow the mode. Choices
of the model it rests on: log entries 32, 52, 87 and 88. -/
def Obligations.CrossingQueuesFollowTheirRules : Prop :=
  (∀ (s : State) (q : Fin 1024) (cls : Fin 4) (words : Nat) (last bad : Bool) (line : Option (Fin 64 × Nat)) (x : Queue),
    x = { s.queue q with waiting := (s.queue q).waiting ++ [⟨cls, words, last, bad, line.map fun l => (l.1.val, l.2)⟩] } →
    exec (.queueWrite q cls words last bad line) s = .next (queueWeirEval q (s.setQueue q (x.settle q x.waiting.length)))) ∧
  (∀ (s : State) (q : Fin 1024) (cls : Fin 4) (words : Nat) (last bad : Bool) (line : Option (Fin 64 × Nat)),
    (s.queue q).waiting = [] →
    (s.queue q).resetting = true ∨ ((s.queue q).draining = false ∧ (s.queue q).room q cls < words) →
    exec (.queueWrite q cls words last bad line) s = .next (queueWeirEval q (s.setQueue q
      { s.queue q with waiting := [⟨cls, words, last, bad, line.map fun l => (l.1.val, l.2)⟩] }))) ∧
  (∀ (s : State) (q : Fin 1024) (cls : Fin 4) (words : Nat) (line : Option (Fin 64 × Nat)),
    (s.queue q).waiting = [] → (s.queue q).resetting = false → (s.queue q).draining = false → words ≤ (s.queue q).room q cls →
    exec (.queueWrite q cls words true false line) s = .next (queueWeirEval q (s.setQueue q
      { s.queue q with openWords := 0, openLine := none,
                       items := (s.queue q).items ++ [⟨cls, (s.queue q).openWords + words, line.map fun l => (l.1.val, l.2)⟩] }))) ∧
  (∀ (s : State) (q : Fin 1024) (cls : Fin 4) (words : Nat) (line : Option (Fin 64 × Nat)),
    (s.queue q).waiting = [] → (s.queue q).resetting = false → (s.queue q).draining = false → words ≤ (s.queue q).room q cls →
    exec (.queueWrite q cls words false false line) s = .next (queueWeirEval q (s.setQueue q
      { s.queue q with openWords := (s.queue q).openWords + words, openLine := line.map fun l => (l.1.val, l.2) }))) ∧
  (∀ (s : State) (q : Fin 1024) (cls : Fin 4) (words : Nat) (last : Bool) (line : Option (Fin 64 × Nat)),
    (s.queue q).waiting = [] → (s.queue q).resetting = false → (s.queue q).draining = false → words ≤ (s.queue q).room q cls →
    exec (.queueWrite q cls words last true line) s =
      .next (queueWeirEval q (s.setQueue q { s.queue q with openWords := 0, openLine := none }))) ∧
  (∀ (s : State) (q : Fin 1024) (cls : Fin 4) (words : Nat) (last bad : Bool) (line : Option (Fin 64 × Nat)),
    (s.queue q).waiting = [] → (s.queue q).resetting = false → (s.queue q).draining = true →
    exec (.queueWrite q cls words last bad line) s = .next (queueWeirEval q (s.setQueue q { s.queue q with draining := !last }))) ∧
  (∀ (s u : State) (q : Fin 1024) (x : Queue),
    x = { s.queue q with items := [], openWords := 0, openLine := none, ptrFault := true, resetting := true,
                         draining := (s.queue q).draining || (s.queue q).openWords != 0,
                         pointerFaults := satInc (s.queue q).pointerFaults 1 } →
    u = (queueWeirEval q (s.setQueue q x)).report Kind.queuePointer 2 q (islandPlane (queueInfo q).1) (queueInfo q).1 →
    exec (.queuePointer q) s = .next ((((s.queue q).items.filterMap QItem.line ++
      if (s.queue q).openWords = 0 then [] else (s.queue q).openLine.toList).eraseDups).foldl (fun s l => lineHit l.1 l.2 s) u)) ∧
  (∀ (s : State) (q : Nat) (x : Queue), s.mode = .maintenance → q = s.nat Obj.queueSelect →
    x = { s.queue q with items := [], openWords := 0, openLine := none,
                         draining := (s.queue q).draining || (s.queue q).openWords != 0 } →
    exec .queueFlush s = .next (queueWeirEval q (s.setQueue q (x.settle q x.waiting.length)))) ∧
  (∀ (s : State), s.mode ≠ .maintenance → exec .queueFlush s = .next s) ∧
  (∀ (s : State) (q : Fin 1024) (x : Queue), x = { s.queue q with draining := false } → (s.target.getD s.mode).booted = false →
    exec (.flushDrainEnd q) s = .next (queueWeirEval q (s.setQueue q (x.settle q x.waiting.length)))) ∧
  (∀ (s u : State) (q : Fin 1024) (x : Queue), x = { s.queue q with draining := false } → (s.target.getD s.mode).booted = true →
    u = queueWeirEval q (s.setQueue q (x.settle q x.waiting.length)) →
    exec (.flushDrainEnd q) s = .next (((List.range 64).filter fun d => u.nat (Obj.domainState d) == 0 && queueOfDomain d q).foldl
      (switchDomain (s.target.getD s.mode)) u))

/-! ### Chapter 02: lanes -/

/-- Block lock (R63 to R67, R69, R73 to R76, R79, R85, R86, R99, R129, R131): a lane that carries no framed blocks takes none. On a framed
lane, every block shows a signal and is counted as a slot, and tells an overflow of the elastic queue: while hunting, a valid header is
counted, an invalid one starts the count again, moves the bit offset by one and is a code error; with block lock, an invalid header is
noted in the window of 64 and is a code error, the first block after lock is discarded, an ALIGN block where one is expected is taken
as such, and any other block is descrambled and taken by its type. 64 valid headers in a row lock; 16 invalid ones in the window lose
the lock, and so does the loss of the signal outside SLEEP; without these nothing is locked or lost. Choices of the model it rests on:
log entries 72 and 96. -/
def Obligations.BlockLockFollowsTheHeaders : Prop :=
  (∀ (s : State) (l : Fin 104) (hdr : BitVec 2) (payload : BitVec 64) (full : Bool) (ctle : Nat), (s.lane l).framed = false →
    exec (.blockReceived l hdr payload full ctle) s = .next s) ∧
  (∀ (s v u : State) (l : Fin 104) (hdr : BitVec 2) (payload : BitVec 64) (full : Bool) (ctle : Nat),
    (s.lane l).framed = true → (s.lane l).blockLock = false → hdr = 1 ∨ hdr = 2 →
    v = (s.updLane l fun x => { x with signalDetect := true, cdrLock := true, slots := x.slots.map (· + 1),
                                       discardNext := x.discardNext && !x.blockLock }) →
    u = (if full then elasticOverflow l v else v) →
    exec (.blockReceived l hdr payload full ctle) s = .next ((u.updLane l fun x => { x with validRun := x.validRun + 1 }).updLane l fun x =>
      { x with scrambler := (descramble 64 x.scrambler payload.toNat).1 })) ∧
  (∀ (s v u : State) (l : Fin 104) (hdr : BitVec 2) (payload : BitVec 64) (full : Bool) (ctle : Nat),
    (s.lane l).framed = true → (s.lane l).blockLock = false → hdr = 0 ∨ hdr = 3 →
    v = (s.updLane l fun x => { x with signalDetect := true, cdrLock := true, slots := x.slots.map (· + 1),
                                       discardNext := x.discardNext && !x.blockLock }) →
    u = (if full then elasticOverflow l v else v) →
    exec (.blockReceived l hdr payload full ctle) s =
      .next (((u.updLane l fun x => { x with validRun := 0, bitOffset := (x.bitOffset + 1) % 66 }).updLane l fun x =>
        { x with scrambler := (descramble 64 x.scrambler payload.toNat).1 }).count (Obj.codeErrors l))) ∧
  (∀ (s v u : State) (l : Fin 104) (hdr : BitVec 2) (payload : BitVec 64) (full : Bool) (ctle : Nat),
    (s.lane l).framed = true → (s.lane l).blockLock = true → hdr = 0 ∨ hdr = 3 →
    v = (s.updLane l fun x => { x with signalDetect := true, cdrLock := true, slots := x.slots.map (· + 1),
                                       discardNext := x.discardNext && !x.blockLock }) →
    u = (if full then elasticOverflow l v else v).updLane l (fun x => { x with window := (true :: x.window).take 64 }) →
    exec (.blockReceived l hdr payload full ctle) s = .next ((u.updLane l fun x =>
      { x with scrambler := (descramble 64 x.scrambler payload.toNat).1 }).count (Obj.codeErrors l))) ∧
  (∀ (s v u : State) (l : Fin 104) (hdr : BitVec 2) (payload : BitVec 64) (full : Bool) (ctle : Nat),
    (s.lane l).framed = true → (s.lane l).blockLock = true → hdr = 1 ∨ hdr = 2 →
    v = (s.updLane l fun x => { x with signalDetect := true, cdrLock := true, slots := x.slots.map (· + 1),
                                       discardNext := x.discardNext && !x.blockLock }) →
    u = (if full then elasticOverflow l v else v).updLane l (fun x => { x with window := (false :: x.window).take 64 }) →
    exec (.blockReceived l hdr payload full ctle) s = .next
      (if (s.lane l).discardNext then u.updLane l fun x => { x with scrambler := (descramble 64 x.scrambler payload.toNat).1 }
       else if hdr = 1 ∧ isAlign payload.toNat ∧ (s.lane l).alignHere then
         alignArrives l payload.toNat (u.updLane l fun y => { y with slots := (s.lane l).slots })
       else blockTaken l (hdr == 2) payload.toNat ctle u)) ∧
  (∀ (s : State) (l : Fin 104), (s.lane l).framed = true → (s.lane l).blockLock = false → 64 ≤ (s.lane l).validRun →
    exec (.blockLock l) s = .next (s.updLane l fun x => { x with blockLock := true, discardNext := true, window := [], validRun := 0 })) ∧
  (∀ (s : State) (l : Fin 104), (s.lane l).framed = false ∨ (s.lane l).blockLock = true ∨ (s.lane l).validRun < 64 →
    exec (.blockLock l) s = .next s) ∧
  (∀ (s : State) (l : Fin 104), (s.lane l).blockLock = true → 16 ≤ ((s.lane l).window.filter id).length →
    exec (.laneLockLoss l) s = .next (loseBlockLock l s)) ∧
  (∀ (s : State) (l : Fin 104), (s.lane l).blockLock = false ∨ ((s.lane l).window.filter id).length < 16 →
    exec (.laneLockLoss l) s = .next s) ∧
  (∀ (s : State) (l : Fin 104), (s.lane l).blockLock = true → (s.lane l).state ≠ .sleep →
    exec (.signalLost l) s = .next (loseBlockLock l (s.updLane l fun x => { x with signalDetect := false, cdrLock := false }))) ∧
  (∀ (s : State) (l : Fin 104), (s.lane l).blockLock = false ∨ (s.lane l).state = .sleep →
    exec (.signalLost l) s = .next (s.updLane l fun x => { x with signalDetect := false, cdrLock := false }))

/-- Alignment, deskew and rate matching (R70 to R72, R75, R78, R80, R82, R83): an ALIGN block is taken on a framed lane with block lock
where one is expected, and only there; a missing one loses the alignment lock, told and reported, and sends an ACTIVE lane back to
ALIGNING. At a slot that holds FILLER on every lane of a deskewed group, FILLER is deleted on each of them above centre and inserted
below it, and the fill is held for the group; at any other the fill is held alone. An ALIGN block that has waited 2,048 UI for its
match starts the group's deskew again, told, where the group is not deskewed. Choices of the model it rests on: log entries 32, 72, 78,
80 and 99. -/
def Obligations.AlignmentAndRateMatching : Prop :=
  (∀ (s : State) (l : Fin 104) (payload : BitVec 64), (s.lane l).framed = true → (s.lane l).blockLock = true →
    isAlign payload.toNat = true → (s.lane l).alignHere = true →
    exec (.alignBlock l payload) s = .next (alignArrives l payload.toNat s)) ∧
  (∀ (s : State) (l : Fin 104) (payload : BitVec 64), (s.lane l).framed = false ∨ (s.lane l).blockLock = false ∨
    isAlign payload.toNat = false ∨ (s.lane l).alignHere = false → exec (.alignBlock l payload) s = .next s) ∧
  (∀ (s u : State) (l : Fin 104) (n : Nat), (s.lane l).alignLock = true → (s.lane l).slots = some n → alignPeriod ≤ n →
    u = (((s.updLane l fun x => { x with lockedLaneId := none, slots := none }).updLane l fun x =>
      { x with alignLock := false, deskewed := false, wakeRelock := false, head := none }).raiseFault .alignLoss [l] Kind.alignLoss 2 l 1
        (islandOf 2 l)) →
    exec (.alignLoss l) s = .next (if ((s.updLane l fun x => { x with lockedLaneId := none, slots := none }).lane l).state = .active
      then enterLane l .aligning u else u)) ∧
  (∀ (s : State) (l : Fin 104), (s.lane l).alignLock = false ∨ (∀ n, (s.lane l).slots = some n → n < alignPeriod) →
    exec (.alignLoss l) s = .next s) ∧
  (∀ (s : State) (l : Fin 104) (fill : Int) (all : Bool), (s.lane l).framed = false ∨ (s.lane l).blockLock = false →
    exec (.fillerBlock l fill all) s = .next s) ∧
  (∀ (s : State) (l : Fin 104) (fill : Int) (g : Nat), (s.lane l).framed = true → (s.lane l).blockLock = true →
    s.groupOfLane l = some g → s.laneDeskewed l = true →
    exec (.fillerBlock l fill true) s = .next
      (if 0 < fill then ((s.deskewSet g).foldl (fun s m => s.countWrap (Obj.fillerDeleted m)) s).updGroup g fun x => { x with fill := fill - 1 }
       else if fill < 0 then
         ((s.deskewSet g).foldl (fun s m => s.countWrap (Obj.fillerInserted m)) s).updGroup g fun x => { x with fill := fill + 1 }
       else s.updGroup g fun x => { x with fill := fill })) ∧
  (∀ (s : State) (l : Fin 104) (fill : Int), (s.lane l).framed = true → (s.lane l).blockLock = true → s.groupOfLane l = none →
    s.laneDeskewed l = true →
    exec (.fillerBlock l fill true) s = .next
      (if 0 < fill then s.countWrap (Obj.fillerDeleted l) else if fill < 0 then s.countWrap (Obj.fillerInserted l) else s)) ∧
  (∀ (s : State) (l : Fin 104) (fill : Int) (all : Bool), (s.lane l).framed = true → (s.lane l).blockLock = true →
    s.laneDeskewed l = false ∨ all = false →
    exec (.fillerBlock l fill all) s = .next (match s.groupOfLane l with
      | some g => s.updGroup g fun x => { x with fill := fill }
      | none => s)) ∧
  (∀ (s : State) (g : Fin 96), (∃ m ∈ s.deskewSet g, ∃ h, (s.lane m).head = some h ∧ h.2 + 239 ≤ s.now ∧
      ∃ o ∈ s.deskewSet g, ((s.lane o).head.map Prod.fst) ≠ some h.1) → (∃ m ∈ s.deskewSet g, (s.lane m).deskewed = false) →
    exec (.deskewFail g) s =
      .next (((s.deskewSet g).foldl (fun s m => s.updLane m fun x => { x with head := none }) s).raise .deskewFail [g])) ∧
  (∀ (s : State) (g : Fin 96), (∀ m ∈ s.deskewSet g, ∀ h, (s.lane m).head = some h → h.2 + 239 ≤ s.now →
      ∀ o ∈ s.deskewSet g, ((s.lane o).head.map Prod.fst) = some h.1) ∨ (∀ m ∈ s.deskewSet g, (s.lane m).deskewed = true) →
    exec (.deskewFail g) s = .next s)

/-- Training (R93, R95, R96, R104 to R106, R121, R154, R662, R771): in training or retraining a TRAIN_REQ goes out again while its SEQ is
open, and otherwise the next one (`sendTraining`); the taps and limits the camera reports are held, and an answer to the open SEQ sends
the next; an unanswered SEQ is resent three times and then fails the training; a training beyond TrainMaxTime and a retraining of 2 ms
fail; Retrain starts a retraining at once in Maintenance, in no running stream and on a FAILED lane, else at the page gap; a retraining
done ends in ALIGNING. In any other state, and before its time, each of these changes nothing. Choices of the model it rests on: log
entries 9, 76, 77, 81 and 96. -/
def Obligations.TrainingStepsAndTheirLimits : Prop :=
  (∀ (s : State) (l : Fin 104), (s.lane l).state = .training ∨ (s.lane l).state = .retraining →
    exec (.trainReq l) s = .next (if (s.lane l).trainOpen then sendCtl l 0x01 (s.lane l).trainSeq (s.lane l).trainBody s
      else sendTraining l s)) ∧
  (∀ (s u : State) (l : Fin 104) (seq : BitVec 8) (body : BitVec 32), (s.lane l).state = .training ∨ (s.lane l).state = .retraining →
    u = ((s.updLane l fun x => { x with taps := (field body.toNat 8 8, field body.toNat 16 8, field body.toNat 24 8),
                                        tapSts := (field body.toNat 0 2, field body.toNat 2 2, field body.toNat 4 2) }).setReg (Obj.txTaps l)
      (pack [(16, 8, field body.toNat 24 8), (8, 8, field body.toNat 16 8), (0, 8, field body.toNat 8 8)] : Nat)) →
    exec (.trainSts l seq body) s = .next (if (s.lane l).trainOpen ∧ seq.toNat = (s.lane l).trainSeq
      then sendTraining l (u.updLane l fun x => { x with trainOpen := false }) else u)) ∧
  (∀ (s : State) (l : Fin 104) (seq : BitVec 8) (body : BitVec 32), (s.lane l).state ≠ .training → (s.lane l).state ≠ .retraining →
    exec (.trainReq l) s = .next s ∧ exec (.trainSts l seq body) s = .next s ∧ exec (.trainStepTimeout l) s = .next s) ∧
  (∀ (s : State) (l : Fin 104), (s.lane l).state = .training ∨ (s.lane l).state = .retraining →
    exec (.trainStepTimeout l) s = .next
      (if (s.lane l).trainOpen = false ∨ s.now - (s.lane l).trainSent < us (s.nat Obj.trainStepTimeout) then s
       else if (s.lane l).trainResends < 3 then sendCtl l 0x01 (s.lane l).trainSeq (s.lane l).trainBody
         (s.updLane l fun x => { x with trainResends := x.trainResends + 1, trainSent := s.now })
       else trainingFails l s)) ∧
  (∀ (s : State) (l : Fin 104), exec (.laneTrainFail l) s = .next
    (if (s.lane l).state = .training ∧ ms (s.nat Obj.trainMaxTime) < s.now - (s.lane l).since then trainingFails l s else s)) ∧
  (∀ (s : State) (l : Fin 104), (s.lane l).state = .disabled → exec (.retrain l) s = .next s) ∧
  (∀ (s : State) (l : Fin 104), (s.lane l).state ≠ .disabled →
    s.mode = .maintenance ∨ s.laneRunning l = false ∨ (s.lane l).state = .failed →
    exec (.retrain l) s = .next (startRetraining l s)) ∧
  (∀ (s : State) (l : Fin 104), (s.lane l).state ≠ .disabled → (s.lane l).state ≠ .failed → s.mode ≠ .maintenance →
    s.laneRunning l = true → exec (.retrain l) s = .next (s.updLane l fun x => { x with retrainPending := true })) ∧
  (∀ (s : State) (l : Fin 104), exec (.retrainStart l) s = .next
    (if (s.lane l).retrainPending ∧ s.laneGap l then startRetraining l s else s)) ∧
  (∀ (s : State) (l : Fin 104), exec (.retrainDone l) s = .next (if (s.lane l).state = .retraining then trainingEnds l s else s)) ∧
  (∀ (s : State) (l : Fin 104), exec (.retrainTimeout l) s = .next
    (if (s.lane l).state = .retraining ∧ ms 2 ≤ s.now - (s.lane l).since then trainingFails l s else s))

/-- Adaptation and the eye (R100 to R103, R121): in ACTIVE adaptation freezes after 4,096 FILLER blocks and resumes after 1,024 data
blocks, and not before; a sweep of an ACTIVE lane, at most 64, is held as the margin and lowers the running minimum, is told and
reported below the warning level and again below the failure level, and judges a returned spare; of any other lane it does nothing.
Choices of the model it rests on: log entries 32 and 82. -/
def Obligations.AdaptationAndEyeMargin : Prop :=
  (∀ (s : State) (l : Fin 104), exec (.adaptationFreeze l) s = .next
    (if (s.lane l).state = .active ∧ (s.lane l).frozen = false ∧ 4096 ≤ (s.lane l).fillerRun then
       s.updLane l fun x => { x with frozen := true, dataSinceFreeze := 0 } else s)) ∧
  (∀ (s : State) (l : Fin 104), exec (.adaptationResume l) s = .next
    (if (s.lane l).state = .active ∧ (s.lane l).frozen = true ∧ 1024 ≤ (s.lane l).dataSinceFreeze then
       s.updLane l fun x => { x with frozen := false, fillerRun := 0 } else s)) ∧
  (∀ (s : State) (l : Fin 104) (m : Nat), (s.lane l).state ≠ .active → exec (.eyeSweep l m) s = .next s) ∧
  (∀ (s u v w : State) (l : Fin 104) (m : Nat), (s.lane l).state = .active → m ≤ 64 →
    u = (((s.setReg (Obj.eyeMargin l) m).setReg (Obj.eyeMarginMin l) (min (s.nat (Obj.eyeMarginMin l)) m : Nat)).updLane l fun x =>
      { x with hourMin := some (min (x.hourMin.getD 64) m) }) →
    v = (if m < s.nat Obj.eyeMarginWarn then
      (u.updLane l fun x => { x with marginWarn := true }).raiseFault .laneMargin [l, m] Kind.wearLane 1 l 1 (islandOf 2 l) else u) →
    w = (if m < s.nat Obj.eyeMarginFail then
      (v.updLane l fun x => { x with marginFail := true }).raiseFault .laneEyeFail [l, m] Kind.laneEyeFail 2 l 1 (islandOf 2 l) else v) →
    exec (.eyeSweep l m) s = .next (sweepOfSpare l m w))

/-- Lane power (R68, R106, R108 to R115, R127): a write of FwdPowerReq that a warm standby spare refuses changes nothing; an accepted one
is held, and SLEEP asks the camera where the lane is ACTIVE, its back channel not OFF and its stream not running, OFF takes every lock
and disables the lane where both directions are OFF, ACTIVE wakes a sleeping direction, is remembered while one changes, and starts the
training of one that is OFF; BackPowerReq the same for the back channel, which stays awake while its group's stream runs. A SLEEP_ACK
carries out the request it answers, with the wake that came meanwhile; 100 µs without one give the request up, told; WAKE wakes the
back channel of an ACTIVE lane, the Penori's own a sleeping forward direction. Choices of the model it rests on: log entries 72, 75,
76, 77, 78, 84 and 99. -/
def Obligations.LanePowerRequests : Prop :=
  (∀ (s : State) (l : Fin 104) (v : Fin 3), fwdPowerOk l v s = false → exec (.fwdPowerReq l v) s = .next s) ∧
  (∀ (s u : State) (l : Fin 104), fwdPowerOk l 1 s = true → u = s.setReg (Obj.fwdPowerReq l) 1 →
    exec (.fwdPowerReq l 1) s = .next
      (if (u.lane l).state = .active ∧ (u.lane l).fwdPower = .active ∧ (u.lane l).backPower ≠ .off ∧ u.laneRunning l = false then
         (sendMsg l 0x03 0 1 u).updLane l fun x => { x with sleepReq := some s.now, fwdPower := .changing }
       else u)) ∧
  (∀ (s u : State) (l : Fin 104), fwdPowerOk l 2 s = true →
    u = ((s.setReg (Obj.fwdPowerReq l) 2).updLane l fun x =>
      { x with fwdPower := .off, blockLock := false, alignLock := false, deskewed := false, cdrLock := false, sleepReq := none,
               slots := none, lockedLaneId := none, head := none, wakeRelock := false, asm := none }) →
    exec (.fwdPowerReq l 2) s = .next
      (if (s.lane l).backPower = .off then laneOffCheck l u else if (s.lane l).state = .active then enterLane l .aligning u else u)) ∧
  (∀ (s u : State) (l : Fin 104), u = s.setReg (Obj.fwdPowerReq l) 0 →
    exec (.fwdPowerReq l 0) s = .next
      (if (s.lane l).state = .sleep then wakeForward l u
       else if (s.lane l).fwdPower = .changing then u.updLane l fun x => { x with wakeAfterSleep := true }
       else if (s.lane l).fwdPower = .off ∧ (s.lane l).state ≠ .disabled then startTraining l u else u)) ∧
  (∀ (s u : State) (l : Fin 104), u = s.setReg (Obj.backPowerReq l) 1 →
    exec (.backPowerReq l 1) s = .next
      (if u.backAwake l = true ∨ (u.lane l).backPower ≠ .active then u
       else (sendMsg l 0x03 1 1 u).updLane l fun x => { x with backPower := .changing, backSleepReq := some s.now })) ∧
  (∀ (s u : State) (l : Fin 104), u = s.setReg (Obj.backPowerReq l) 2 →
    exec (.backPowerReq l 2) s = .next
      (if u.backAwake l then u else laneOffCheck l (u.updLane l fun x => { x with backPower := .off, backSleepReq := none }))) ∧
  (∀ (s u : State) (l : Fin 104), u = s.setReg (Obj.backPowerReq l) 0 →
    exec (.backPowerReq l 0) s = .next
      (if (s.lane l).backPower = .sleep then sendMsg l 0x05 1 1 u
       else if (s.lane l).backPower = .changing then u.updLane l fun x => { x with backWakeAfterSleep := true }
       else if (s.lane l).backPower = .off ∧ (s.lane l).state ≠ .disabled then startTraining l u else u)) ∧
  (∀ (s u : State) (l : Fin 104), (s.lane l).backSleepReq.isSome = true →
    u = (s.updLane l fun x => { x with backSleepReq := none, backWakeAfterSleep := false, backPower := .sleep }) →
    exec (.sleepAck l true) s = .next (if (s.lane l).backWakeAfterSleep then sendMsg l 0x05 1 1 u else u)) ∧
  (∀ (s u : State) (l : Fin 104), (s.lane l).sleepReq.isSome = true → (s.lane l).state = .active →
    u = enterLane l .sleep (s.updLane l fun x =>
      { x with sleepReq := none, fwdPower := .sleep, blockLock := false, alignLock := false, deskewed := false, signalDetect := false,
               cdrLock := false, wakeAfterSleep := false, slots := none, head := none }) →
    exec (.sleepAck l false) s = .next (if (s.lane l).wakeAfterSleep then wakeForward l u else u)) ∧
  (∀ (s : State) (l : Fin 104) (back : Bool),
    (if back then (s.lane l).backSleepReq = none else (s.lane l).sleepReq = none ∨ (s.lane l).state ≠ .active) →
    exec (.sleepAck l back) s = .next s) ∧
  (∀ (s : State) (l : Fin 104) (t : Nat), (s.lane l).sleepReq = some t → us 100 ≤ s.now - t →
    exec (.laneSleepTimeout l) s = .next ((s.updLane l fun x =>
      { x with sleepReq := none, fwdPower := .active, wakeAfterSleep := false }).raise .laneSleepTimeout [l])) ∧
  (∀ (s : State) (l : Fin 104) (t : Nat), (∀ t, (s.lane l).sleepReq = some t → s.now - t < us 100) → (s.lane l).backSleepReq = some t →
    us 100 ≤ s.now - t →
    exec (.laneSleepTimeout l) s = .next ((s.updLane l fun x =>
      { x with backSleepReq := none, backPower := .active, backWakeAfterSleep := false }).raise .laneSleepTimeout [l])) ∧
  (∀ (s : State) (l : Fin 104), (∀ t, (s.lane l).sleepReq = some t ∨ (s.lane l).backSleepReq = some t → s.now - t < us 100) →
    exec (.laneSleepTimeout l) s = .next s) ∧
  (∀ (s : State) (l : Fin 104), exec (.wake l false) s = .next
    (if (s.lane l).state = .sleep then wakeForward l s
     else if (s.lane l).fwdPower = .changing then s.updLane l fun x => { x with wakeAfterSleep := true } else s)) ∧
  (∀ (s : State) (l : Fin 104), exec (.wake l true) s = .next
    (if (s.lane l).state ≠ .active ∨ s.nat (Obj.backPowerReq l) = 2 then s
     else if (s.lane l).backSleepReq.isSome then s.updLane l fun x => { x with backWakeAfterSleep := true }
     else if (s.lane l).backPower = .sleep then sendBlocks l [] s else s))

/-- Lane tests (R87, R106, R117 to R120): PrbsCtl is written as one register whichever bit is meant: a word it does not accept, or one that
enables a test outside Maintenance, changes nothing; a DISABLED lane only holds it; else enabling sends TEST_REQ with the next SEQ,
starts the generator and puts the lane in TEST, and clearing both bits ends a test. INJECT_ONE inverts a bit of a running generator. A
checker that locks starts its counts at 0; 64 errors in 1,024 bits drop its lock and leave its counts; the end of the test's time ends
it; the camera's result is held where its SEQ is the last request's. Each does nothing where its condition does not hold. Choices of
the model it rests on: log entries 72, 76, 78, 85, 86 and 99. -/
def Obligations.LaneTests : Prop :=
  (∀ (s : State) (l : Fin 104) (ctl : BitVec 32), prbsCtlOk ctl.toNat = false ∨
    ((bitAt ctl.toNat 31 || bitAt ctl.toNat 30) = true ∧ s.mode ≠ .maintenance) →
    exec (.prbsGenEnable l ctl) s = .next s ∧ exec (.prbsChkEnable l ctl) s = .next s) ∧
  (∀ (s t u v w : State) (l : Fin 104) (ctl : BitVec 32), prbsCtlOk ctl.toNat = true → s.mode = .maintenance →
    (bitAt ctl.toNat 31 || bitAt ctl.toNat 30) = true → (s.lane l).state ≠ .disabled →
    t = s.setReg (Obj.prbsCtl l) (prbsCtlHeld ctl.toNat : Nat) →
    u = stopChecker l (sendCtl l 0x06 (((s.lane l).testSeq + 1) % 256)
      (pack [(0, 2, field ctl.toNat 28 2), (2, 1, b2n (bitAt ctl.toNat 30)), (3, 1, b2n (bitAt ctl.toNat 31)),
        (4, 16, field ctl.toNat 0 16)]) t) →
    v = (if bitAt ctl.toNat 31 = true ∧ (s.lane l).backPower ≠ .off then
      u.emit (.prbs l (field ctl.toNat 28 2) (field ctl.toNat 16 8) (bitAt ctl.toNat 27)) else u) →
    w = (v.updLane l fun x => { x with testSeq := ((s.lane l).testSeq + 1) % 256, testSince := some v.now, chkLock := false,
                                       blockLock := false, alignLock := false, deskewed := false, slots := none, lockedLaneId := none,
                                       head := none }) →
    exec (.prbsGenEnable l ctl) s = .next (if (s.lane l).state = .test then w else enterLane l .test w) ∧
      exec (.prbsChkEnable l ctl) s = .next (if (s.lane l).state = .test then w else enterLane l .test w)) ∧
  (∀ (s : State) (l : Fin 104) (ctl : BitVec 32), prbsCtlOk ctl.toNat = true → s.mode = .maintenance →
    (bitAt ctl.toNat 31 || bitAt ctl.toNat 30) = true → (s.lane l).state = .disabled →
    exec (.prbsGenEnable l ctl) s = .next (s.setReg (Obj.prbsCtl l) (prbsCtlHeld ctl.toNat : Nat)) ∧
      exec (.prbsChkEnable l ctl) s = .next (s.setReg (Obj.prbsCtl l) (prbsCtlHeld ctl.toNat : Nat))) ∧
  (∀ (s t : State) (l : Fin 104) (ctl : BitVec 32), prbsCtlOk ctl.toNat = true → (bitAt ctl.toNat 31 || bitAt ctl.toNat 30) = false →
    t = s.setReg (Obj.prbsCtl l) (prbsCtlHeld ctl.toNat : Nat) →
    exec (.prbsGenEnable l ctl) s = .next (if (s.lane l).state = .test then endTest l t else t) ∧
      exec (.prbsChkEnable l ctl) s = .next (if (s.lane l).state = .test then endTest l t else t)) ∧
  (∀ (s : State) (l : Fin 104), exec (.prbsInjectOne l) s = .next
    (if (s.lane l).state = .test ∧ bitAt (s.nat (Obj.prbsCtl l)) 31 = true ∧ (s.lane l).backPower ≠ .off then s.emit (.prbsInject l)
     else s)) ∧
  (∀ (s : State) (l : Fin 104), exec (.chkLock l) s = .next
    (if (s.lane l).state = .test ∧ bitAt (s.nat (Obj.prbsCtl l)) 30 = true ∧ (s.lane l).chkLock = false then
       ((s.updLane l fun x => { x with chkLock := true, chkSince := some s.now }).setReg (Obj.prbsErrors l) 0).setReg (Obj.prbsBits l) 0
     else s)) ∧
  (∀ (s : State) (l : Fin 104) (bits errors recent : Nat), (s.lane l).state = .test → (s.lane l).chkLock = true → 64 ≤ recent →
    recent ≤ 1024 → recent ≤ errors → errors ≤ bits →
    exec (.chkLockDrop l bits ⟨errors, recent⟩) s = .next (((s.setReg (Obj.prbsErrors l) (min errors (maxU 32) : Nat)).setReg (Obj.prbsBits l)
      (bits % 2 ^ 64 : Nat)).updLane l fun x => { x with chkLock := false, chkSince := none })) ∧
  (∀ (s : State) (l : Fin 104) (bits errors recent : Nat), (s.lane l).state ≠ .test ∨ (s.lane l).chkLock = false ∨ recent < 64 ∨
    1024 < recent ∨ errors < recent ∨ bits < errors → exec (.chkLockDrop l bits ⟨errors, recent⟩) s = .next s) ∧
  (∀ (s : State) (l : Fin 104) (t : Nat), (s.lane l).testSince = some t → (s.lane l).state = .test →
    ms (field (s.nat (Obj.prbsCtl l)) 0 16) ≤ s.now - t → exec (.testDurationEnd l) s = .next (endTest l s)) ∧
  (∀ (s : State) (l : Fin 104), (s.lane l).state ≠ .test ∨
    (∀ t, (s.lane l).testSince = some t → s.now - t < ms (field (s.nat (Obj.prbsCtl l)) 0 16)) →
    exec (.testDurationEnd l) s = .next s) ∧
  (∀ (s : State) (l : Fin 104) (seq : BitVec 8) (errors : BitVec 32), exec (.testResult l seq errors) s = .next
    (if seq.toNat = (s.lane l).testSeq then s.setReg (Obj.cameraPrbsErrors l) errors.toNat else s))

/-! ### Chapter 03: camera links -/

/-- PIXEL packets and replays (R129 to R138, R142 to R144, R147, R154): a lane that carries no LANE_ID's packets takes none; a damaged
header is counted; a damaged body is counted, and its PSN asked for again where it is in the window and not yet received; an intact
packet is taken by its PSN, a duplicate or one outside the window being dropped there; in turn, one of the camera's messages is taken
by its type, one of an unknown type or with fields that do not fit is counted, and a PIXEL packet hands its pixels over. The
acknowledgment goes out once AckInterval has passed; a NAK without its packet within ReplayTimeout is repeated twice and then given up,
counted, told and reported; before that, and with nothing outstanding, these two do nothing. Choices of the model it rests on: log
entries 16, 18, 31, 32, 96 and 100. -/
def Obligations.PixelPacketsAndReplays : Prop :=
  (∀ (s : State) (l : Fin 104) (p : Packet), s.carries l = none → exec (.pixel l p) s = .next s) ∧
  (∀ (s : State) (l : Fin 104) (p : Packet) (g id : Nat), s.carries l = some (g, id) → hdrOk p = false →
    exec (.pixel l p) s = .next (s.count (Obj.packetErrors g))) ∧
  (∀ (s u : State) (l : Fin 104) (p : Packet) (g id : Nat), s.carries l = some (g, id) → hdrOk p = true →
    bodyOk p (pixelFields p) = false → u = s.count (Obj.packetErrors g) →
    exec (.pixel l p) s = .next (if (u.rx g id).ahead (pixelFields p).psn < 1024 ∧ (u.rx g id).above.contains (pixelFields p).psn = false
      then nakAgain g id (pixelFields p).psn u else u)) ∧
  (∀ (s u : State) (l : Fin 104) (p : Packet) (g id : Nat), s.carries l = some (g, id) → hdrOk p = true →
    bodyOk p (pixelFields p) = true → acceptPsn g id (pixelFields p).psn (pixelFields p).replay s = (u, false) →
    exec (.pixel l p) s = .next u) ∧
  (∀ (s u : State) (l : Fin 104) (p : Packet) (g id t : Nat), s.carries l = some (g, id) → hdrOk p = true →
    bodyOk p (pixelFields p) = true → acceptPsn g id (pixelFields p).psn (pixelFields p).replay s = (u, true) →
    t = (p.header.getD 0 0).toNat → 2 ≤ t → t ≤ 4 →
    exec (.pixel l p) s = .next (replayEnd g id (messageTaken g t p u))) ∧
  (∀ (s u : State) (l : Fin 104) (p : Packet) (g id t : Nat), s.carries l = some (g, id) → hdrOk p = true →
    bodyOk p (pixelFields p) = true → acceptPsn g id (pixelFields p).psn (pixelFields p).replay s = (u, true) →
    t = (p.header.getD 0 0).toNat → t < 1 ∨ 4 < t ∨ (t = 1 ∧ pixelOk g id p (pixelFields p) u = false) →
    exec (.pixel l p) s = .next (replayEnd g id (u.count (Obj.packetErrors g)))) ∧
  (∀ (s u : State) (l : Fin 104) (p : Packet) (g id : Nat), s.carries l = some (g, id) → hdrOk p = true →
    bodyOk p (pixelFields p) = true → acceptPsn g id (pixelFields p).psn (pixelFields p).replay s = (u, true) →
    (p.header.getD 0 0).toNat = 1 → pixelOk g id p (pixelFields p) u = true →
    exec (.pixel l p) s = .next (replayEnd g id (takePixels g id p (pixelFields p) u))) ∧
  (∀ (s : State) (g : Fin 96) (id : Fin 9) (due : Nat), (s.rx g id).ackDue = some due → due + ns (s.nat Obj.ackInterval) ≤ s.now →
    exec (.ackInterval g id) s = .next (sendAck g id ((s.rx g id).next + 65535) false
      (updRx g id (fun q => { q with ackDue := if q.above.isEmpty then none else some s.now }) s))) ∧
  (∀ (s : State) (g : Fin 96) (id : Fin 9), (∀ due, (s.rx g id).ackDue = some due → s.now < due + ns (s.nat Obj.ackInterval)) →
    exec (.ackInterval g id) s = .next s) ∧
  (∀ (s : State) (g : Fin 96) (id : Fin 9) (psn : BitVec 16) (n : Nak), ((s.rx g id).naks.find? fun m => m.psn == psn.toNat) = some n →
    n.since + us (s.nat Obj.replayTimeout) ≤ s.now → n.repeats < 2 →
    exec (.replayTimeout g id psn) s = .next (sendAck g id psn.toNat true (updRx g id (fun q =>
      { q with naks := q.naks.map fun m => if m.psn == psn.toNat then { m with since := s.now, repeats := m.repeats + 1 } else m }) s))) ∧
  (∀ (s t : State) (g : Fin 96) (id : Fin 9) (psn : BitVec 16) (n : Nak), ((s.rx g id).naks.find? fun m => m.psn == psn.toNat) = some n →
    n.since + us (s.nat Obj.replayTimeout) ≤ s.now → 2 ≤ n.repeats →
    t = (updRx g id (fun q => q.take psn.toNat s.now) s).count (Obj.replayFailures g) →
    exec (.replayTimeout g id psn) s = .next (replayEnd g id (t.raiseFault .replayFail [g, id, psn.toNat] Kind.laneReplayFail 2
      (t.laneOfId g id) 1 (islandOf 2 (t.laneOfId g id))))) ∧
  (∀ (s : State) (g : Fin 96) (id : Fin 9) (psn : BitVec 16),
    (∀ n, ((s.rx g id).naks.find? fun m => m.psn == psn.toNat) = some n → s.now < n.since + us (s.nat Obj.replayTimeout)) →
    exec (.replayTimeout g id psn) s = .next s)

/-- What comes back from a camera (R19, R133, R143, R148, R149, R164 to R167, R171): an acknowledgment frees the held packets up to its PSN
and starts those that wait, a negative one has the packet held under its PSN sent again. A camera's message is taken only where its PSN
is in turn, and closes the deferred records where no replay is left: an answer to the open register access, by tag and address, ends
it, for a proxy access with its data and status held; a rejected trigger is counted and told, and loses its line; a full replay buffer
changes nothing more; a cancellation answers the oldest one open; an event is told from CODE 0x0100 up. An access unanswered for 1 ms
is sent again up to three attempts, and then ends, told and reported. Choices of the model it rests on: log entries 16, 18, 24, 27, 32,
73, 97 and 100. -/
def Obligations.CameraAnswers : Prop :=
  (∀ (s : State) (g : Fin 96) (body : BitVec 32), bitAt body.toNat 20 = true →
    exec (.ack g body) s = .next (match (s.group g).held.find? fun q => q.psn == field body.toNat 0 16 with
      | some p => sendPacket g p true s
      | none => s)) ∧
  (∀ (s : State) (g : Fin 96) (body : BitVec 32), bitAt body.toNat 20 = false →
    exec (.ack g body) s = .next (sendUnsent (s.group g).unsent.length g (s.setGroup g { s.group g with
      held := ((s.group g).held.filter fun p =>
        decide (0 < (p.psn + 65536 - field body.toNat 0 16) % 65536 ∧ (p.psn + 65536 - field body.toNat 0 16) % 65536 < 32768)) }))) ∧
  (∀ (s u : State) (g : Fin 96) (h : CamHdr) (address : BitVec 32) (tag : BitVec 16) (status : BitVec 8) (data : Bytes),
    acceptHdr g h s = (u, true) → (∀ c, (u.group g).access = some c → c.tag ≠ tag.toNat ∨ c.address ≠ address.toNat) →
    exec (.ctlResp g h address tag status data) s = .next u) ∧
  (∀ (s u : State) (g : Fin 96) (h : CamHdr) (address : BitVec 32) (tag : BitVec 16) (status : BitVec 8) (data : Bytes) (c : CtlAccess),
    acceptHdr g h s = (u, true) → (u.group g).access = some c → c.tag = tag.toNat → c.address = address.toNat → c.proxy = false →
    exec (.ctlResp g h address tag status data) s = .next (endAccess g u)) ∧
  (∀ (s u v : State) (g : Fin 96) (h : CamHdr) (address : BitVec 32) (tag : BitVec 16) (status : BitVec 8) (data : Bytes) (c : CtlAccess),
    acceptHdr g h s = (u, true) → (u.group g).access = some c → c.tag = tag.toNat → c.address = address.toNat → c.proxy = true →
    v = (if c.write = false ∧ status.toNat = 0 then u.updGroup g fun x => { x with camRegData := data } else u) →
    exec (.ctlResp g h address tag status data) s =
      .next (endAccess g (v.setReg (Obj.camRegStatus g) (if status.toNat = 0 then 2 else 4 + status.toNat : Nat)))) ∧
  (∀ (s u : State) (g : Fin 96) (h : CamHdr) (address seq arg : BitVec 32) (tag reason code : BitVec 16) (status : BitVec 8) (data : Bytes),
    acceptHdr g h s = (u, false) →
    exec (.ctlResp g h address tag status data) s = .next u ∧ exec (.trigReject g h seq reason) s = .next u ∧
      exec (.cancelDone g h arg) s = .next u ∧ exec (.cameraEvent g h code reason arg) s = .next u) ∧
  (∀ (s : State) (g : Fin 96) (c : CtlAccess), (s.group g).access = some c → c.sent + ms 1 ≤ s.now → c.attempts < 3 →
    exec (.ctlTimeout g) s = .next (sendCtlReq g c s)) ∧
  (∀ (s u : State) (g : Fin 96) (c : CtlAccess), (s.group g).access = some c → c.sent + ms 1 ≤ s.now → 3 ≤ c.attempts →
    u = (if c.proxy then s.setReg (Obj.camRegStatus g) 3 else s) →
    exec (.ctlTimeout g) s = .next (endAccess g (u.raiseFault .ctlTimeout [g] Kind.ctlTimeout 2 g 1 (islandOf 2 (u.ctlLane g))))) ∧
  (∀ (s : State) (g : Fin 96), (∀ c, (s.group g).access = some c → s.now < c.sent + ms 1) → exec (.ctlTimeout g) s = .next s) ∧
  (∀ (s u v : State) (g : Fin 96) (h : CamHdr) (seq : BitVec 32) (reason : BitVec 16), acceptHdr g h s = (u, true) →
    v = (u.count (Obj.trigRejects g)).raise .trigRejected [g, seq.toNat, reason.toNat] →
    exec (.trigReject g h seq reason) s = .next (match v.matchLine 0 g seq.toNat with
      | some (st, _, r) => loseLine st r.line v
      | none => v)) ∧
  (∀ (s : State) (g : Fin 96) (h : CamHdr), exec (.replayFull g h) s = .next (acceptHdr g h s).1) ∧
  (∀ (s u : State) (g : Fin 96) (h : CamHdr) (code reason : BitVec 16) (arg : BitVec 32), acceptHdr g h s = (u, true) →
    exec (.cameraEvent g h code reason arg) s =
      .next (if 0x100 ≤ code.toNat then u.raise .cameraEvent [g, code.toNat, reason.toNat, arg.toNat] else u)) ∧
  (∀ (s u : State) (g : Fin 96) (h : CamHdr) (arg : BitVec 32), acceptHdr g h s = (u, true) → (u.group g).cancels = [] →
    exec (.cancelDone g h arg) s = .next u) ∧
  (∀ (s u v : State) (g : Fin 96) (h : CamHdr) (arg : BitVec 32) (first last : Nat) (rest : List (Nat × Nat)) (mine : LineRec → Bool)
    (answer : LineRec → LineRec), acceptHdr g h s = (u, true) → (u.group g).cancels = (first, last) :: rest →
    v = (u.updGroup g fun x => { x with cancels := rest }) →
    mine = (fun r => r.cancelling.contains g.val &&
      decide ((r.seq + 2 ^ 32 - first) % 2 ^ 32 ≤ (last + 2 ^ 32 - first) % 2 ^ 32)) →
    answer = (fun r => { r with cancelling := r.cancelling.filter (· != g.val),
                                keptByCamera := r.keptByCamera ||
                                  !(arg.toNat != maxU 32 && decide ((r.seq + 2 ^ 32 - arg.toNat) % 2 ^ 32 < 2 ^ 31)) }) →
    exec (.cancelDone g h arg) s = .next (((v.records.filter mine).map answer).foldl (fun s r => cancelAnswered r s)
      { v with records := v.records.map fun r => if mine r then answer r else r }))

/-- Link time and the camera's registers (R148, R157 to R159, R161, R169, R170, R173): a synchronisation goes out on a checked link once
each SyncInterval; the answer to the open one sets TimeOffset and PathDelay and sends the correction, and one too far off unlocks the
time, else it counts towards the lock, and a locked checked link that was LINKING is UP and its camera runs; an answer that does not
come within 100 µs unlocks the time. A LINKING group all of whose lanes are ACTIVE reads its camera's registers: where they fit,
CFG_WIDTH is written and synchronisation starts, else the group fails, told. CamRegOp starts a read or a write unless one is busy; a
write of other than COUNT words does nothing, and one of CFG_WIDTH or CFG_CONTROL is refused while the group is UP. Choices of the
model it rests on: log entries 16, 19, 93 and 97. -/
def Obligations.LinkTimeAndCameraRegisters : Prop :=
  (∀ (s : State) (g : Fin 96), exec (.timeSync g) s = .next
    (if (s.group g).linkChecked = true ∧ s.loopDue 0 g (us (s.nat (Obj.syncInterval g))) = true then sendTimeSync g (s.loopRan 0 g)
     else s)) ∧
  (∀ (s u : State) (g : Fin 96) (h : CamHdr) (syncId : BitVec 16) (t2 t3 t4 : Nat) (rate : BitVec 32), acceptHdr g h s = (u, false) ∨
    (acceptHdr g h s = (u, true) ∧ ∀ id t1, (u.group g).sync = some (id, t1) → id ≠ syncId.toNat) →
    exec (.timeResp g h syncId t2 t3 t4 rate) s = .next u) ∧
  (∀ (s u v w : State) (g : Fin 96) (h : CamHdr) (syncId : BitVec 16) (t2 t3 t4 t1 : Nat) (rate : BitVec 32) (num offset : Int),
    acceptHdr g h s = (u, true) → (u.group g).sync = some (syncId.toNat, t1) →
    num = (((t2 : Int) - t1) - ((t4 : Int) - t3)) * 1000 - u.reg (Obj.linkAsymmetry g) * 256 → offset = roundDiv num 32000 →
    v = sendBack g 0x15 (pack [(32, 32, rate.toNat), (0, 32, toBits 32 offset)])
      (le8 (b2n (decide (16000 < offset.natAbs) || !((u.group g).state == .up || (u.group g).state == .spareInUse)) * 65536 + syncId.toNat))
      (((u.updGroup g fun x => { x with sync := none }).setReg (Obj.timeOffset g) offset).setReg (Obj.pathDelay g)
        (roundDiv (((t2 : Int) - t1) + ((t4 : Int) - t3)) 32)) →
    w = (v.updGroup g fun x => { x with goodSyncs := min ((v.group g).goodSyncs + 1) 3,
                                        timeLocked := x.timeLocked || decide (3 ≤ (v.group g).goodSyncs + 1) }) →
    exec (.timeResp g h syncId t2 t3 t4 rate) s = .next (if 512000 < num.natAbs then unlockTime g v
      else if (w.group g).timeLocked = true ∧ (w.group g).state = .linking ∧ (w.group g).linkChecked = true then
        (startAccess g 0x84 1 true [1, 0, 0, 0] false w).updGroup g fun x => { x with state := .up }
      else w)) ∧
  (∀ (s : State) (g : Fin 96) (id t1 : Nat), (s.group g).sync = some (id, t1) → t1 + 64 * us 100 ≤ s.now * 64 →
    exec (.timeRespMissing g) s = .next (unlockTime g (s.updGroup g fun x => { x with sync := none }))) ∧
  (∀ (s : State) (g : Fin 96), (∀ id t1, (s.group g).sync = some (id, t1) → s.now * 64 < t1 + 64 * us 100) →
    exec (.timeRespMissing g) s = .next s) ∧
  (∀ (s : State) (g : Fin 96) (regs : Bytes), (s.group g).state ≠ .linking ∨ (s.group g).linkChecked = true ∨ s.groupActive g = false →
    exec (.linkUp g regs) s = .next s) ∧
  (∀ (s u v : State) (g : Fin 96) (regs : Bytes), (s.group g).state = .linking → (s.group g).linkChecked = false → s.groupActive g = true →
    u = (readIdentity g s).updGroup g (fun x => { x with identity := regs }) →
    v = u.updGroup g (fun x => { x with linkChecked := true, goodSyncs := 0 }) →
    exec (.linkUp g regs) s = .next (if linkUpOk g regs u then
        sendTimeSync g (startAccess g 0x80 1 true (leBytes 4 (v.nat (Obj.pixelWidth g))) false v)
      else (u.updGroup g fun x => { x with state := .failed }).raise .cameraMismatch [g])) ∧
  (∀ (s u : State) (g : Fin 96), u = s.setReg (Obj.camRegStatus g) 1 →
    exec (.camRegRead g) s = .next (if (s.group g).proxyBusy then s
      else startAccess g (u.nat (Obj.camRegAddress g)) (u.nat (Obj.camRegCount g)) false [] true u)) ∧
  (∀ (s : State) (g : Fin 96), (s.group g).proxyBusy = true ∨ (s.group g).camRegData.length ≠ 4 * s.nat (Obj.camRegCount g) →
    exec (.camRegWrite g) s = .next s) ∧
  (∀ (s : State) (g : Fin 96) (a n : Nat), a = s.nat (Obj.camRegAddress g) → n = s.nat (Obj.camRegCount g) →
    (s.group g).proxyBusy = false → (s.group g).camRegData.length = 4 * n →
    exec (.camRegWrite g) s = .next
      (if (a ≤ 0x84 ∧ 0x80 < a + 4 * n) ∧ ((s.group g).state = .up ∨ (s.group g).state = .spareInUse) then s.setReg (Obj.camRegStatus g) 8
       else startAccess g a n true (s.group g).camRegData true (s.setReg (Obj.camRegStatus g) 1)))

/-- An Oxbow switch acknowledged (R152, R154, R663, R670, R771): the failed lane's LANE_ID moves to the spare lane, a group that was UP
runs with its spare in use, the failed lane is to be retrained, and the insertion is told and recorded as planned or not; an
acknowledgment of no open switch changes nothing. Choices of the model it rests on: log entries 66, 68, 82 and 89. -/
def Obligations.OxbowSwitchCompletes : Prop :=
  (∀ (s u v w : State) (g : Fin 96) (body : BitVec 32) (id resume old spare : Nat) (plan : Bool), id = field body.toNat 0 4 →
    (s.group g).oxbow = some (id, resume) → spare = s.spareOf g → old = s.laneOfId g id → plan = (s.lane old).planned →
    u = s.updGroup g (fun x => { x with oxbow := none, moved := (id, spare) :: x.moved.filter (fun m => m.1 != id), spareLane := some 255,
                                        state := if x.state == .up then .spareInUse else x.state }) →
    v = (updRx g id (fun q => { q with failedOver := true, lagUntil := some resume }) u).updLane old
      (fun x => { x with retrainPending := true }) →
    w = recordRepairAt (v.group g).oxbowAt 7 (b2n plan) old spare (if plan then Kind.wearLane else v.laneFault old) (v.raise .oxbowDone [g, id, spare]) →
    exec (.oxbowAck g body) s = .next (inserted 0 old spare (b2n plan) w)) ∧
  (∀ (s : State) (g : Fin 96) (body : BitVec 32), (∀ id resume, (s.group g).oxbow = some (id, resume) → id ≠ field body.toNat 0 4) →
    exec (.oxbowAck g body) s = .next s)

/-! ### Chapters 04 and 05: analog sensors and the pixel pipeline -/

/-- A line of an analog port, from its exposure window to its readout (R176 to R178, R180 to R186, R189 to R199, R231): the window of a
running port's next line opens at its instant, with a readout token to the bank, and one that would open too late is an overrun, told,
and lost; a token in time is noted, a late one is told and reported and loses its line; the window closes at its instant; an edge of
ST_EXP is measured against its instant, the record of the first tributary's line taking START_ERR and EXP_MEAS from it, and a missing
edge is counted, told and reported; the pulses of the transfer go out; at the end of the readout the line leaves the port, its samples
are placed and handed over, or discarded where no record matches; a calibration ends with the bank ready, or failed with its enabled
ports, told and reported. Before its instant, or with nothing it could be about, each does nothing. Choices of the model it rests on:
log entries 16, 19, 20, 32, 73 and 98. -/
def Obligations.AnalogLineSteps : Prop :=
  (∀ (s : State) (p : Fin 32) (seq : BitVec 32), (∀ st k r, s.matchLine 1 p seq.toNat = some (st, k, r) → (s.port p).state ≠ .running ∨
      ((s.port p).queue.any fun l => l.seq == r.seq) = true ∨ s.earlierWaits p r = true ∨ r.cancelling ≠ [] ∨ s.now < r.sched ∨
      (windowStart s p r - r.sched ≤ ns (r.nat (Obj.startLateLimit p)) ∧ s.now < windowStart s p r)) →
    exec (.exposureWindowOpen p seq) s = .next s) ∧
  (∀ (s u : State) (p : Fin 32) (seq : BitVec 32) (st k : Nat) (r : LineRec) (l : PortLine),
    s.matchLine 1 p seq.toNat = some (st, k, r) → (s.port p).state = .running →
    ((s.port p).queue.any fun l => l.seq == r.seq) = false → s.earlierWaits p r = false → r.cancelling = [] → r.sched ≤ s.now →
    windowStart s p r - r.sched ≤ ns (r.nat (Obj.startLateLimit p)) → windowStart s p r ≤ s.now → l = portLine s p r (windowStart s p r) →
    u = s.setPort p { s.port p with queue := (s.port p).queue ++ [l], prevP := l.transferEnd, prevR := l.readoutEnd, stExp := true,
                                    gateClose := some l.closes } →
    exec (.exposureWindowOpen p seq) s =
      .next ((drivePort p .stExp 2 true (windowStart s p r) u).emit (.token p l.seq l.transfer l.startPulse))) ∧
  (∀ (s : State) (p : Fin 32) (seq : BitVec 32) (st k : Nat) (r : LineRec), s.matchLine 1 p seq.toNat = some (st, k, r) →
    (s.port p).state = .running → ((s.port p).queue.any fun l => l.seq == r.seq) = false → s.earlierWaits p r = false →
    r.cancelling = [] → r.sched ≤ s.now → ns (r.nat (Obj.startLateLimit p)) < windowStart s p r - r.sched →
    exec (.exposureWindowOpen p seq) s = .next (loseLine st r.line (dropPulses st r.line
      (((s.updPort p fun x => { x with overrun := true }).count (Obj.overrunCount p)).raise .stOverrun [p, r.line])))) ∧
  (∀ (s : State) (p : Fin 32), ((s.port p).queue.find? fun x => !x.token) = none → exec (.readoutToken p) s = .next s) ∧
  (∀ (s : State) (p : Fin 32) (l : PortLine), ((s.port p).queue.find? fun x => !x.token) = some l → s.now ≤ l.transfer →
    exec (.readoutToken p) s = .next (updPortLine p l.seq (fun x => { x with token := true }) s)) ∧
  (∀ (s : State) (p : Fin 32) (l : PortLine), ((s.port p).queue.find? fun x => !x.token) = some l → l.transfer < s.now →
    exec (.readoutToken p) s = .next (losePortLine p l.seq (((s.updPort p fun x => { x with tokenLate := true }).count
      (Obj.portFaultCount p)).raiseFault .stTokenLate [p, l.seq] Kind.stTokenLate 2 p 1 (islandOf 8 (p / 8))))) ∧
  (∀ (s : State) (p : Fin 32) (t : Nat), (s.port p).gateClose = some t → t ≤ s.now →
    exec (.exposureWindowClose p) s =
      .next (drivePort p .stExp 2 false t (s.updPort p fun x => { x with stExp := false, gateClose := none }))) ∧
  (∀ (s : State) (p : Fin 32), (∀ t, (s.port p).gateClose = some t → s.now < t) → exec (.exposureWindowClose p) s = .next s) ∧
  (∀ (s : State) (p : Fin 32) (opening : Bool) (at_ : Nat),
    ((s.port p).queue.find? fun x => if opening then x.openedAt.isNone else x.openedAt.isSome && x.closedAt.isNone) = none →
    exec (.stExpEdge p opening at_) s = .next s) ∧
  (∀ (s u : State) (p : Fin 32) (at_ : Nat) (l : PortLine), ((s.port p).queue.find? fun x => x.openedAt.isNone) = some l →
    u = updPortLine p l.seq (fun x => { x with openedAt := some at_ }) (edgeOff p at_ l.opens s) →
    exec (.stExpEdge p true at_) s = .next (match u.matchLine 1 p l.seq with
      | some (st, 0, r) => updRec st r.line (fun r => { r with startErr := (at_ : Int) - r.sched }) u
      | _ => u)) ∧
  (∀ (s u : State) (p : Fin 32) (at_ o : Nat) (l : PortLine),
    ((s.port p).queue.find? fun x => x.openedAt.isSome && x.closedAt.isNone) = some l → l.openedAt = some o →
    u = (updPortLine p l.seq (fun x => { x with closedAt := some at_ }) (edgeOff p at_ l.closes s)).setReg (Obj.exposureMeasuredLast p)
      ((at_ - o : Nat) : Int) →
    exec (.stExpEdge p false at_) s = .next (match u.matchLine 1 p l.seq with
      | some (st, 0, r) => updRec st r.line (fun r => { r with expMeas := some (at_ - o) }) u
      | _ => u)) ∧
  (∀ (s : State) (p : Fin 32) (l : PortLine), ((s.port p).queue.find? fun l =>
      (l.openedAt.isNone && decide (l.opens + 8 < s.now)) || (l.closedAt.isNone && decide (l.closes + 8 < s.now))) = some l →
    exec (.stExpMissing p) s = .next (losePortLine p l.seq (((s.updPort p fun x => { x with expFault := true }).count
      (Obj.portFaultCount p)).raiseFault .stExpFault [p, l.seq] Kind.stExpFault 2 p 0 (islandOf 0 0)))) ∧
  (∀ (s : State) (p : Fin 32), ((s.port p).queue.find? fun l =>
      (l.openedAt.isNone && decide (l.opens + 8 < s.now)) || (l.closedAt.isNone && decide (l.closes + 8 < s.now))) = none →
    exec (.stExpMissing p) s = .next s) ∧
  (∀ (s u v : State) (p : Fin 32) (l : PortLine) (start : Nat), (s.port p).queue.head? = some l → l.token = true → l.transfer ≤ s.now →
    u = (if s.portContinuous p then s else startClock p l.transfer (some (l.readoutEnd + s.periods p 4)) s) →
    start = (match (u.port p).clockFrom with | some t => u.risingEdge p t l.startPulse | none => l.startPulse) →
    v = (if s.nat (Obj.tgMode p) = 1 then
      drivePort p .stTg 1 false (l.transfer + ns (u.nat (Obj.tgWidth p))) (drivePort p .stTg 1 true l.transfer u) else u) →
    exec (.transferPulse p) s = .next (updPortLine p l.seq (fun l => { l with startPulse := start })
      ((drivePort p .stSp 0 false (start + v.periods p (v.nat (Obj.spWidth p))) (drivePort p .stSp 0 true start v)).updPort p fun x =>
        { x with stTg := s.nat (Obj.tgMode p) == 1, stSp := true }))) ∧
  (∀ (s : State) (p : Fin 32), (∀ l, (s.port p).queue.head? = some l → l.token = false ∨ s.now < l.transfer) →
    exec (.transferPulse p) s = .next s) ∧
  (∀ (s u v : State) (p : Fin 32) (nanovolts : List (List Int)) (l : PortLine), (s.port p).queue.head? = some l → l.token = true →
    s.matchLine 1 p l.seq = none → max l.readoutEnd (s.sampledAll s.reg p l.startPulse) ≤ s.now →
    u = s.updPort p (fun x => { x with queue := x.queue.drop 1, lines := (x.lines + 1) % 2 ^ 24, stTg := false, stSp := false }) →
    v = (match (u.port p).clockUntil with | some t => if u.power.halted then u else u.emit (.pin .stClk p false t) | none => u) →
    exec (.readoutEnd p nanovolts) s = .next (unmatched 1 p l.seq (placeInputs s.reg p (v.inputsOf p) nanovolts [] v).2)) ∧
  (∀ (s u v w : State) (p : Fin 32) (nanovolts : List (List Int)) (l : PortLine) (st k : Nat) (r : LineRec) (t : Table Nat) (tr : Trib),
    (s.port p).queue.head? = some l → l.token = true → s.matchLine 1 p l.seq = some (st, k, r) →
    max l.readoutEnd (s.sampledAll r.reg p l.startPulse) ≤ s.now → (tribsOf r.nat st)[k]? = some tr →
    u = s.updPort p (fun x => { x with queue := x.queue.drop 1, lines := (x.lines + 1) % 2 ^ 24, stTg := false, stSp := false }) →
    v = (match (u.port p).clockUntil with | some t => if u.power.halted then u else u.emit (.pin .stClk p false t) | none => u) →
    (t, w) = placeInputs r.reg p (v.inputsOf p) nanovolts [] v →
    exec (.readoutEnd p nanovolts) s = .next (handOver r k tr ((List.range (v.nat (Obj.portWidth p))).map fun j =>
        if r.nat (Obj.testPattern p) = 1 then j * 16 % 65536 else if r.nat (Obj.testPattern p) = 2 then 0x8000 else Table.get 0 t j)
      (tr.pixels / 8192 + 1) tr.first (updRec st r.line (fun r => { r with lastPixel := some (v.stamp (islandOf 8 (p / 8))) }) w))) ∧
  (∀ (s : State) (p : Fin 32) (nanovolts : List (List Int)), (∀ l, (s.port p).queue.head? = some l → l.token = false ∨
      (∀ st k r, s.matchLine 1 p l.seq = some (st, k, r) → s.now < max l.readoutEnd (s.sampledAll r.reg p l.startPulse)) ∧
      (s.matchLine 1 p l.seq = none → s.now < max l.readoutEnd (s.sampledAll s.reg p l.startPulse))) →
    exec (.readoutEnd p nanovolts) s = .next s) ∧
  (∀ (s : State) (b : Fin 4) (ok : Bool), s.bank b ≠ .calibrating → exec (.bankCalibration b ok) s = .next s) ∧
  (∀ (s : State) (b : Fin 4), s.bank b = .calibrating → exec (.bankCalibration b true) s = .next (s.setBank b .ready)) ∧
  (∀ (s : State) (b : Fin 4), s.bank b = .calibrating → exec (.bankCalibration b false) s = .next (((List.range 8).foldl (fun s i =>
      if s.flag (Obj.portEnable (8 * b + i)) then s.updPort (8 * b + i) fun x => { x with state := .failed } else s)
      (s.setBank b .failed)).raiseFault .vadcCalFail [b] Kind.vadcCalFail 3 b 1 (islandOf 8 b)))

/-- The pixel pipeline (R30, R54, R212, R213, R217, R225, R251, R413, R414, R610, R613, R774): the first segment of a stream before the
crossbar enters it, or is dropped and its line lost, told and reported, where the buffer is full; the first segment that may go, class
0 before the others, is dealt to a slice that can take it, its line entering where it has not; a slice's segment completes: a residue
mismatch is handled, a segment whose record is closed only frees the slice, and another is corrected into its record with its faulty
reads told, the line then looked at; a self-test returns the slice or retires it; a remapped row that is rewritten serves again. A
write of StreamEnable is refused, takes effect (an opening that is not possible being refused, tried and told), or is held for a later
mode, by the mode. With nothing to do each changes nothing. Choices of the model it rests on: log entries 21, 32, 59, 73, 74 and 89. -/
def Obligations.PixelPipelineSteps : Prop :=
  (∀ (s u : State) (st : Fin 64) (g : Segment), (s.ingest.find? fun x => x.stream == st.val) = some g →
    u = { s with ingest := s.ingest.erase g } →
    exec (.segmentArrives st) s = .next
      (if crossbarPixels < sumNat (s.crossbar.map fun (x : Segment) => x.pixels.length) + g.pixels.length then
         loseLine st g.line (u.raiseFault .pipelineOverrun [st] Kind.pipelineOverrun 2 st 1 (islandOf 4 0))
       else { u with crossbar := u.crossbar ++ [g] })) ∧
  (∀ (s : State) (st : Fin 64), (s.ingest.find? fun x => x.stream == st.val) = none → exec (.segmentArrives st) s = .next s) ∧
  (∀ (s u : State) (g : Segment) (rest : List Segment) (k : Nat) (r : LineRec),
    (s.crossbar.filter fun x => x.cls == 0 && s.dealable x) ++ (s.crossbar.filter fun x => x.cls != 0 && s.dealable x) = g :: rest →
    s.pickSlice g.cls = some k → s.recOf g.stream g.line = some r →
    u = (if r.entered then { s with crossbar := s.crossbar.erase g } else enterLine r { s with crossbar := s.crossbar.erase g }) →
    exec .segmentDeal s = .next (u.updSlice k fun x =>
      (if g.cls = 0 then { x with c0 := some g } else { x with queue := x.queue ++ [g] }).begin)) ∧
  (∀ (s : State), (∀ g rest,
    (s.crossbar.filter fun x => x.cls == 0 && s.dealable x) ++ (s.crossbar.filter fun x => x.cls != 0 && s.dealable x) = g :: rest →
    s.pickSlice g.cls = none ∨ s.recOf g.stream g.line = none) → exec .segmentDeal s = .next s) ∧
  (∀ (s : State) (k : Fin 68) (bad : Bool) (u c : List Nat), (s.slice k).current = none ∨ (s.slice k).faulted = true →
    exec (.segmentComplete k bad u c) s = .next s) ∧
  (∀ (s : State) (k : Fin 68) (u c : List Nat) (g : Segment), (s.slice k).current = some g → (s.slice k).faulted = false →
    exec (.segmentComplete k true u c) s = .next (residueFault k g s)) ∧
  (∀ (s : State) (k : Fin 68) (u c : List Nat) (g : Segment), (s.slice k).current = some g → (s.slice k).faulted = false →
    s.recOf g.stream g.line = none → exec (.segmentComplete k false u c) s = .next (sliceDone k s)) ∧
  (∀ (s t : State) (k : Fin 68) (u c here bad : List Nat) (g : Segment) (r : LineRec) (knots : Option (List Nat)),
    (s.slice k).current = some g → (s.slice k).faulted = false → s.recOf g.stream g.line = some r →
    here = (List.range g.pixels.length).map (g.first + ·) →
    bad = here.filter (fun x => u.contains x || (s.coefRow (s.rowOfPixel r x)).bad) →
    knots = (match (tribsOf r.nat g.stream)[g.trib]? with
      | some t => if t.curve = 0 then none else some (if (r.knots t.curve).isEmpty then identityKnots else r.knots t.curve)
      | none => none) →
    t = takeOut r g (widthBits g.width) (correctSegment r g (widthBits g.width) knots bad) s →
    exec (.segmentComplete k false u c) s = .next (lineCheck g.stream g.line (sliceDone k (uncorrectableReads (bad.map (s.rowOfPixel r))
      (correctedReads ((here.filter fun x => c.contains x && !bad.contains x).map (s.rowOfPixel r)) t))))) ∧
  (∀ (s : State) (k : Fin 68) (pass : Bool), (s.slice k).state ≠ .testing ∨ s.replayRuns k = true →
    exec (.sliceBist k pass) s = .next s) ∧
  (∀ (s : State) (k : Fin 68) (pass : Bool), (s.slice k).state = .testing → s.replayRuns k = false →
    exec (.sliceBist k pass) s = .next (if pass then sliceReturns k ((List.range 68).find? fun j => (s.slice j).boundTo == some k.val) s
      else sliceRetires k ((List.range 68).find? fun j => (s.slice j).boundTo == some k.val) s)) ∧
  (∀ (s : State) (row : Nat), exec (.coefRowRewrite row) s = .next (if (s.coefRow row).remapped = true ∧ (s.coefRow row).bad = true then
    s.updCoefRow row fun x => { x with bad := false, reported := false } else s)) ∧
  (∀ (s : State) (st : Fin 64), s.streamWrite = .refused →
    exec (.streamOpen st) s = .next s ∧ exec (.streamClose st) s = .next s) ∧
  (∀ (s : State) (st : Fin 64), s.streamWrite = .now →
    exec (.streamOpen st) s = .next (if s.streamOpen? st = false ∧ s.openable st = false then tryOpen st s
      else domainsFollow s.mode (tryOpen st (s.setReg (Obj.streamEnable st) 1))) ∧
    exec (.streamClose st) s = .next (closeStream st (s.setReg (Obj.streamEnable st) 0))) ∧
  (∀ (s : State) (st : Fin 64), s.streamWrite = .hold →
    exec (.streamOpen st) s = .next ((s.setReg (Obj.streamEnable st) 1).updStrm st fun x => { x with heldOpen := some true }) ∧
    exec (.streamClose st) s = .next ((s.setReg (Obj.streamEnable st) 0).updStrm st fun x => { x with heldOpen := some false })) ∧
  (∀ (s : State) (st : Fin 64), s.streamWrite = .later →
    exec (.streamOpen st) s = .next (s.setReg (Obj.streamEnable st) 1) ∧
    exec (.streamClose st) s = .next (s.setReg (Obj.streamEnable st) 0))

/-! ### Chapter 06: calibration and warm-up -/

/-- Calibration commands (R31, R256, R257, R259, R261, R263, R264, R272 to R274, R280): while a capture or a derivation is in progress
every command but ABORT is rejected with CAL_BUSY, and outside its modes a command does nothing; else DERIVE starts a derivation, and a
capture is armed unless its stream has no room for a group; ABORT ends what is in progress with ABORTED. A capture enters where its
group is the stream's first and the boundary has come, or where it waited for WARM; it completes, kept as the set of its kind and told,
once every phase of it has its lines; a derivation without fault ends CAPTURED, or STAGED with its tables committed where CalAutoStage
is set and the stream has room, told; one with a fault fails with its result, keeping its tables where the result is 9. Before its
condition each does nothing. Choices of the model it rests on: log entries 24, 25, 28 and 32. -/
def Obligations.CalibrationCommands : Prop :=
  (∀ (s : State) (st : Fin 64), (s.calib st).busy = true →
    exec (.calDark st) s = .next (s.raise .calBusy [st, 1]) ∧ exec (.calWhite st) s = .next (s.raise .calBusy [st, 2]) ∧
      exec (.calGapDark st) s = .next (s.raise .calBusy [st, 3]) ∧ exec (.calGapWhite st) s = .next (s.raise .calBusy [st, 4]) ∧
      exec (.calDerive st) s = .next (s.raise .calBusy [st, 5])) ∧
  (∀ (s : State) (st : Fin 64), (s.calib st).busy = false → s.mode ≠ .calibrate →
    exec (.calDark st) s = .next s ∧ exec (.calWhite st) s = .next s) ∧
  (∀ (s : State) (st : Fin 64), (s.calib st).busy = false → s.mode ≠ .scan → s.mode ≠ .stream →
    exec (.calGapDark st) s = .next s ∧ exec (.calGapWhite st) s = .next s) ∧
  (∀ (s : State) (st : Fin 64), (s.calib st).busy = false → s.mode ≠ .idleReady → s.mode ≠ .calibrate → s.mode ≠ .scan →
    s.mode ≠ .stream → exec (.calDerive st) s = .next s) ∧
  (∀ (s : State) (st : Fin 64), s.mode = .calibrate → (s.calib st).busy = false →
    exec (.calDark st) s = .next (if s.groupsFull st then s else armCapture st 1 s) ∧
      exec (.calWhite st) s = .next (if s.groupsFull st then s else armCapture st 2 s)) ∧
  (∀ (s : State) (st : Fin 64), s.mode = .scan ∨ s.mode = .stream → (s.calib st).busy = false →
    exec (.calGapDark st) s = .next (if s.groupsFull st then s else armCapture st 3 s) ∧
      exec (.calGapWhite st) s = .next (if s.groupsFull st then s else armCapture st 4 s)) ∧
  (∀ (s : State) (st : Fin 64), s.mode = .idleReady ∨ s.mode = .calibrate ∨ s.mode = .scan ∨ s.mode = .stream → (s.calib st).busy = false →
    exec (.calDerive st) s = .next (s.updCalib st fun c => { c with kind := 5, result := 0, state := .deriving_ })) ∧
  (∀ (s : State) (st : Fin 64), exec (.calAbort st) s =
    .next ((if (s.calib st).busy then failCapture st 10 s else s).updCalib st fun c => { c with kind := 6 })) ∧
  (∀ (s : State) (st : Fin 64) (g : CommitGroup), (s.groupsWaiting.find? fun g => g.captures st) = some g →
    exec (.captureStart st) s = .next
      (if ((s.groupsWaiting.find? fun w => w.streams.contains st.val && 1 ≤ w.boundary && w.boundary ≤ 3).map CommitGroup.id) = some g.id ∧
          (s.streamOpen? st = false ∨ s.boundaryAt st 2 = true) then enterStream g st s else s)) ∧
  (∀ (s : State) (st : Fin 64), (s.groupsWaiting.find? fun g => g.captures st) = none →
    exec (.captureStart st) s = .next
      (if (s.calib st).state = .waitingWarm ∧ s.warmup.state = .warm ∧ s.triggering st = true then captureEnters st (s.nextCycleLine st) s
       else s)) ∧
  (∀ (s : State) (st : Fin 64) (c : Calib) (k : CalSet), (s.calib st).state = .capturing →
    ((s.phasesIn st (s.calib st).mask).all fun ph => decide ((s.calib st).lines ≤ (Table.get {} (s.calib st).work ph).lines)) = true →
    k = { doneAt := s.dt, gap := decide (3 ≤ (s.calib st).kind), phases := (s.calib st).work } →
    c = { s.calib st with state := .captured, result := 0, work := [], excluded := [],
                          restoreAt := if (s.calib st).kind = 1 then some (s.nextCycleLine st) else (s.calib st).restoreAt } →
    exec (.captureComplete st) s = .next ((s.setCalib st (if (s.calib st).kind = 2 ∨ (s.calib st).kind = 4 then { c with white := some k }
      else { c with dark := some k })).raise .calDone [st, 0])) ∧
  (∀ (s : State) (st : Fin 64), (s.calib st).state ≠ .capturing ∨
    (∃ ph ∈ s.phasesIn st (s.calib st).mask, (Table.get {} (s.calib st).work ph).lines < (s.calib st).lines) →
    exec (.captureComplete st) s = .next s) ∧
  (∀ (s : State) (st : Fin 64), (s.calib st).state ≠ .deriving_ → exec (.deriveDone st) s = .next s) ∧
  (∀ (s u : State) (st : Fin 64), (s.calib st).state = .deriving_ → (s.derive st).result ≠ 0 →
    u = s.setReg (Obj.calReport st) (s.derive st).report →
    exec (.deriveDone st) s = .next (failCapture st (s.derive st).result (if (s.derive st).result = 9 then
      u.updCalib st fun c => { c with derived := some (s.derive st).tables } else u))) ∧
  (∀ (s u v : State) (st : Fin 64) (stage : Bool), (s.calib st).state = .deriving_ → (s.derive st).result = 0 →
    u = (s.setReg (Obj.calReport st) (s.derive st).report).updCalib st (fun c => { c with derived := some (s.derive st).tables }) →
    stage = (u.flag (Obj.calAutoStage st) && !u.groupsFull st) →
    v = (({ u with dep := { u.dep with lampRef := u.dep.lampMean } } : State).updCalib st fun c =>
      { c with result := 0, state := if stage then .staged else .captured }).raise .calDone [st, 0] →
    exec (.deriveDone st) s = .next (if stage = false then v else acceptGroup 1
      ([((0x5400 + st.val) * 256 + 1, Val.blob (coefBytes (v.nat (Obj.phases st) * widthOf (v.tribs st)) (s.derive st).tables.coef)),
        ((0x5400 + st.val) * 256 + 2, Val.blob (defectBytes (s.derive st).tables.defects))] ++
        (s.derive st).tables.driftRefs.map fun r => ((Obj.driftRef st r.1).key, Val.num r.2)) false v))

/-- Lamp warm-up (R277 to R280): a restart begins the warm-up anew. At each WarmupInterval and not between, every source's rate is worked
out; while WARMING, intervals in which every rate is below the threshold are counted, and after WarmupHold of them the lamps are WARM,
told. The timeout, once it has passed while WARMING, is told and reported and fails the captures that wait for it. Choices of the model
it rests on: log entries 26 and 32. -/
def Obligations.LampWarmUp : Prop :=
  (∀ (s : State), exec .warmupRestart s =
    .next { s with warmup := { s.warmup with state := .warming, since := s.now, settled := 0 } }) ∧
  (∀ (s : State), s.loopDue 1 0 (ms (s.nat Obj.warmupInterval)) = false → exec .warmupInterval s = .next s) ∧
  (∀ (s u : State) (quiet : Bool) (n : Nat), s.loopDue 1 0 (ms (s.nat Obj.warmupInterval)) = true →
    (quiet, u) = (s.loopRan 1 0).warmSources.foldl (fun t i => (t.1 && (warmSource i t.2).1, (warmSource i t.2).2)) (true, s.loopRan 1 0) →
    n = (if quiet then u.warmup.settled + 1 else 0) →
    exec .warmupInterval s = .next
      (if u.warmup.state = .warming ∧ u.nat Obj.warmupHold ≤ n then
         ({ u with warmup := { u.warmup with prev := u.warmup.acc, acc := [], settled := n, state := .warm } } : State).raise .lampWarm []
       else { u with warmup := { u.warmup with prev := u.warmup.acc, acc := [],
                                               settled := if u.warmup.state = .warming then n else 0 } })) ∧
  (∀ (s u v : State), s.warmup.state = .warming → s.warmup.since + ms (1000 * s.nat Obj.warmupTimeout) ≤ s.now →
    u = { s with warmup := { s.warmup with state := .timeout } } →
    v = u.raiseFault .lampWarmupTimeout [u.slowestSource] Kind.lampWarmupTimeout 1 u.slowestSource 2 (islandOf 10 0) →
    exec .lampWarmupTimeout s = .next ((List.range 64).foldl (fun s st =>
      if (s.calib st).state == .waitingWarm then failCapture st 8 s else s) v)) ∧
  (∀ (s : State), s.warmup.state ≠ .warming ∨ s.now < s.warmup.since + ms (1000 * s.nat Obj.warmupTimeout) →
    exec .lampWarmupTimeout s = .next s)

/-! ### Chapter 07: position, triggers, timing I/O, motion -/

/-- Position inputs (R285 to R288, R297, R355, R776): a transition is held with the time its wires agree or differ, and with the level now
shown, which waits in the filter where it differs from the one last passed; what has lasted its filter time leaves the filter, there
and by itself; an edge held back too close to the last is accepted once MinEdgeTime has passed; an input of an enabled channel whose
wires agree longer than WireCheck faults, counted, told and reported, and the seams of its transports are aborted; one whose wires
differ that long again recovers, and the channel runs with the last; a channel in INDEX_HOLD re-armed runs again; a preset of a channel
that triggers nothing sets position, count and revolution and moves the latched positions with it. Else each does nothing. Choices of
the model it rests on: log entries 32, 36 and 92. -/
def Obligations.PositionInputs : Prop :=
  (∀ (s u : State) (c : Fin 16) (input : Fin 3) (wireN level present : Bool) (v w : PosInput), u = passFilter c input s →
    v = (if wireN then { (u.posChan c).input input with n := level } else { (u.posChan c).input input with p := level }) →
    u.nat (Obj.wireCheck c) = 0 → present = v.p → w = { v with agreeSince := none, goodSince := none } →
    exec (.posTransition c input wireN level) s = .next (passFilter c input (u.updPosChan c fun x => x.setInput input
      (if present = v.shown then w else { w with shown := present, pending := if present == v.passed then none else some u.now })))) ∧
  (∀ (s u : State) (c : Fin 16) (input : Fin 3) (wireN level present : Bool) (v w : PosInput), u = passFilter c input s →
    v = (if wireN then { (u.posChan c).input input with n := level } else { (u.posChan c).input input with p := level }) →
    u.nat (Obj.wireCheck c) ≠ 0 → present = (if v.p = v.n ∨ v.faulted = true then v.shown else v.p) →
    w = (if v.p = v.n then { v with agreeSince := some (v.agreeSince.getD u.now), goodSince := none }
      else { v with agreeSince := none, goodSince := if v.faulted then some (v.goodSince.getD u.now) else none }) →
    exec (.posTransition c input wireN level) s = .next (passFilter c input (u.updPosChan c fun x => x.setInput input
      (if present = v.shown then w else { w with shown := present, pending := if present == v.passed then none else some u.now })))) ∧
  (∀ (s : State) (c : Fin 16) (input : Fin 3) (stamp : Nat), ((s.posChan c).input input).pending = some stamp →
    stamp + 10 * s.nat (Obj.filterCycles c) ≤ s.now →
    exec (.filterPass c input) s = .next (leaveFilter c input stamp (stamp + 10 * s.nat (Obj.filterCycles c)) s)) ∧
  (∀ (s : State) (c : Fin 16) (input : Fin 3), (∀ stamp, ((s.posChan c).input input).pending = some stamp →
    s.now < stamp + 10 * s.nat (Obj.filterCycles c)) → exec (.filterPass c input) s = .next s) ∧
  (∀ (s : State) (c : Fin 16) (due : Nat → Bool) (i : Nat),
    due = (fun i => ((s.posChan c).input i).late && (match (s.posChan c).lastEdge i with
      | some t => decide (ns (s.nat (Obj.minEdgeTime c)) ≤ s.now - t)
      | none => true)) → [0, 1, 2].find? due = some i →
    exec (.edgeLateAccept c) s = .next (acceptEdge c i ((s.posChan c).input i).passed s.now s.now s)) ∧
  (∀ (s : State) (c : Fin 16), (∀ i < 3, ((s.posChan c).input i).late = true →
    ∃ t, (s.posChan c).lastEdge i = some t ∧ s.now - t < ns (s.nat (Obj.minEdgeTime c))) → exec (.edgeLateAccept c) s = .next s) ∧
  (∀ (s u : State) (c : Fin 16) (due : Nat → Bool) (i : Nat),
    due = (fun i => (s.posChan c).state != .off && !((s.posChan c).input i).faulted && s.nat (Obj.wireCheck c) != 0 &&
      (match ((s.posChan c).input i).agreeSince with
        | some t => decide (ns (s.nat (Obj.wireCheck c)) < s.now - t)
        | none => false)) → [0, 1, 2].find? due = some i →
    u = ((s.updPosChan c (fun x => { x.setInput i { (s.posChan c).input i with faulted := true, pending := none, late := false } with
        state := .wireFault, wireFault := true })).count (Obj.wireFaults c)).raiseFault
      .posWireFault [c, i] Kind.posWireFault 2 (c + 256 * i) 0 (islandOf 0 0) →
    exec (.posWireFault c) s = .next ((List.range 16).foldl (fun s n =>
      if s.nat (Obj.transportChannel n) == c then seamAbort n s else s) u)) ∧
  (∀ (s : State) (c : Fin 16), (∀ i < 3, (s.posChan c).state = .off ∨ ((s.posChan c).input i).faulted = true ∨
    s.nat (Obj.wireCheck c) = 0 ∨ (∀ t, ((s.posChan c).input i).agreeSince = some t → s.now - t ≤ ns (s.nat (Obj.wireCheck c)))) →
    exec (.posWireFault c) s = .next s) ∧
  (∀ (s u : State) (c : Fin 16) (due : Nat → Bool) (i : Nat),
    due = (fun i => ((s.posChan c).input i).faulted && (match ((s.posChan c).input i).goodSince with
      | some t => decide (ns (s.nat (Obj.wireCheck c)) ≤ s.now - t)
      | none => false)) → [0, 1, 2].find? due = some i →
    u = s.updPosChan c (fun x => x.setInput i { (s.posChan c).input i with
      faulted := false, goodSince := none, agreeSince := none, shown := ((s.posChan c).input i).p, passed := ((s.posChan c).input i).p,
      level := ((s.posChan c).input i).p, pending := none, late := false }) →
    exec (.wireRecovery c) s = .next (if [0, 1, 2].any fun i => ((u.posChan c).input i).faulted then u
      else u.updPosChan c fun x => { x with state := if x.state == .wireFault then .running else x.state })) ∧
  (∀ (s : State) (c : Fin 16), (∀ i < 3, ((s.posChan c).input i).faulted = true → ∀ t, ((s.posChan c).input i).goodSince = some t →
    s.now - t < ns (s.nat (Obj.wireCheck c))) → exec (.wireRecovery c) s = .next s) ∧
  (∀ (s : State) (c : Fin 16), exec (.indexRearm c) s = .next
    (if (s.posChan c).state = .indexHold then s.updPosChan c fun x => { x with state := .running } else s)) ∧
  (∀ (s : State) (c : Fin 16) (v : BitVec 64), s.channelTriggers c = true → exec (.posPreset c v) s = .next s) ∧
  (∀ (s : State) (c : Fin 16) (v : BitVec 64) (p d m : Int), s.channelTriggers c = false → p = signed 64 v.toNat → d = p - s.extPos c →
    m = (if s.nat (Obj.countsPerRev c) = 0 then 2 ^ 32 else s.nat (Obj.countsPerRev c) : Nat) →
    exec (.posPreset c v) s = .next ((((s.setReg (Obj.extendedPosition c) p).setReg (Obj.count c)
      (wrapCount (s.nat (Obj.countsPerRev c)) p)).setReg (Obj.revolution c) ((p / m) % (2 ^ 32 : Nat))).updPosChan c fun x =>
      { x with latches := x.latches.map fun e => (e.1 + d, e.2) }))

/-- Trigger generators, compare units and timing I/O (R303, R309, R311, R315, R317, R318, R320, R321, R513, R613, R773): a triggering
stream's generator is evaluated by its source, and while slice clusters ramp for its opening only its T0 moves on (the model's choice,
log entry 106), another's not; a compare unit's value or legal control word is written, its armed state restarted, and a value already
passed is told; the edges of a pin act by the pin's function and do nothing on a pin of another function: they latch a position, are
told and trigger converters, or stop motion at once; pulses start and end at their instants, not before; one that comes too late starts
at once and is told, one with no room is dropped. Choices of the model it rests on: log entry 104. -/
def Obligations.GeneratorsComparesAndTimingPins : Prop :=
  (∀ (s : State) (st : Fin 64), exec (.generatorEvaluate st) s = .next
    (if s.triggering st = false then s
     else if s.clusterRamps st = true then s.updGen st (fun g => { g with t0 := (s.now : Int) + 4 * s.reg (Obj.freezeLead st) })
     else if s.nat (Obj.triggerSource st) = 1 then positionRun st s else timerRun st placeFuel s)) ∧
  (∀ (s u : State) (k : Fin 64) (v : BitVec 32),
    u = (s.setReg (Obj.compareValue k) v.toNat).updCmp k (fun x => { x with rearm := false }) →
    exec (.compareWrite k false v) s =
      .next (compareBehind k (u.setReg (Obj.compareCtl k) (putField (u.nat (Obj.compareCtl k)) 25 1 0 : Nat)))) ∧
  (∀ (s : State) (k : Fin 64) (v : BitVec 32), cmpDir v.toNat = 3 ∨ field v.toNat 16 8 = 0 → exec (.compareWrite k true v) s = .next s) ∧
  (∀ (s u : State) (k : Fin 64) (v : BitVec 32) (w : Nat), cmpDir v.toNat ≠ 3 → field v.toNat 16 8 ≠ 0 →
    w = putField (putField (putField v.toNat 24 1 0) 25 1 0) 0 16 (field (s.nat (Obj.compareCtl k)) 0 16) →
    u = (s.setReg (Obj.compareCtl k) w).updCmp k (fun x => { x with rearm := false }) →
    exec (.compareWrite k true v) s =
      .next (compareBehind k (u.setReg (Obj.compareCtl k) (putField (u.nat (Obj.compareCtl k)) 25 1 0 : Nat)))) ∧
  (∀ (s : State) (t : Fin 96), exec (.latchIn t) s = .next
    (if s.tioFn t = 1 ∧ s.tioSource t < 16 then writeCapture (s.tioSource t) (s.tioStamp t) (stampTio t true s) else s)) ∧
  (∀ (s : State) (t : Fin 96), s.tioFn t ≠ 4 → exec (.tioEdge t) s = .next s) ∧
  (∀ (s u v : State) (t : Fin 96), s.tioFn t = 4 → u = (stampTio t true s).raise .tioEdge [t, s.tioStamp t] →
    v = (u.convsOn 2 t).foldl (fun w j => feTrigger j (ns (s.tioStamp t)) false w) u →
    exec (.tioEdge t) s =
      .next ((v.convsOn 3 t).foldl (fun w j => w.updConv j fun x => { x with pulse := some (s.tioStamp t) }) v)) ∧
  (∀ (s : State) (t : Fin 96), exec (.quickStopInAssert t) s = .next
    (if s.tioFn t = 3 then quickStopActs t (stampTio t true s) else s)) ∧
  (∀ (s : State) (t : Fin 96), exec (.quickStopInRelease t) s = .next (if s.tioFn t = 3 then stampTio t false s else s)) ∧
  (∀ (s : State) (t : Fin 96) (e : Nat), (s.tio t).pulseEnd = some e → exec (.tioPulseEnd t) s = .next
    (if e ≤ s.now then driveTio t false e (s.updTio t fun x => { x with pulseEnd := none }) else s)) ∧
  (∀ (s : State) (t : Fin 96), (s.tio t).pulseEnd = none → exec (.tioPulseEnd t) s = .next s) ∧
  (∀ (s : State) (t : Fin 96) (dt : BitVec 64), s.tioFn t = 21 → (s.tio t).instants.length < 16 → exec (.tioPulseAt t dt) s = .next
    (if ns dt.toNat < s.now then (pulseTio t s.now s).raise .tioLate [t]
     else s.updTio t fun x => { x with instants := insertSorted dt.toNat x.instants })) ∧
  (∀ (s : State) (t : Fin 96) (dt : BitVec 64), s.tioFn t ≠ 21 ∨ 16 ≤ (s.tio t).instants.length →
    exec (.tioPulseAt t dt) s = .next s) ∧
  (∀ (s : State) (t : Fin 96), exec (.scheduledPulse t) s = .next (match (s.tio t).instants with
    | [] => s
    | i :: rest => if ns i ≤ s.now then pulseTio t (ns i) (s.updTio t fun x => { x with instants := rest }) else s))

/-- Motion channels (R322, R325, R327 to R329, R337, R355, R773): a tick does nothing on a channel that is OFF or before its 100 ns are
over; else a pin that holds a quick stop blocks starts, and from rest DIR turns to the wanted direction DirSetup after the last step,
the first step waits DirSetup after it, and else the profile is integrated. Writes of mode, target, velocity and limits are taken where
their ranges and the channel allow, and no other; stops of the three kinds, clearing a fault, and enabling or disabling in each state
act as their rules say. Choices of the model it rests on: log entries 34 and 35. -/
def Obligations.MotionCommands : Prop :=
  (∀ (s : State) (m : Fin 16), (s.motion m).state = .off ∨ s.loopDue 2 m (ns 100) = false → exec (.motionTick m) s = .next s) ∧
  (∀ (s t : State) (m : Fin 16), s.loopDue 2 m (ns 100) = true → (s.motion m).state ≠ .off → t = tickTaken m s →
    (t.motion m).vel ≠ 0 ∨ (t.motion m).acc ≠ 0 ∨ wantedOf m t = 0 → exec (.motionTick m) s = .next (integrate m t)) ∧
  (∀ (s t : State) (m : Fin 16), s.loopDue 2 m (ns 100) = true → (s.motion m).state ≠ .off → t = tickTaken m s →
    (t.motion m).vel = 0 → (t.motion m).acc = 0 → wantedOf m t ≠ 0 → decide (0 < wantedOf m t) = (t.motion m).dirUp →
    exec (.motionTick m) s =
      .next (if t.now - (t.motion m).dirSince < ns (t.nat (Obj.dirSetup m)) then followCheck m t else integrate m t)) ∧
  (∀ (s t : State) (m : Fin 16) (up : Bool), s.loopDue 2 m (ns 100) = true → (s.motion m).state ≠ .off → t = tickTaken m s →
    (t.motion m).vel = 0 → (t.motion m).acc = 0 → wantedOf m t ≠ 0 → up = decide (0 < wantedOf m t) → up ≠ (t.motion m).dirUp →
    exec (.motionTick m) s = .next (followCheck m (if ns (t.nat (Obj.dirSetup m)) ≤ t.now - (t.motion m).lastStep then
        (t.updMotion m fun x => { x with dirUp := up, dirSince := t.now }).emit
          (.pin .dir m (xor up (bitAt (t.nat (Obj.motPolarity m)) 1)) t.now)
      else t))) ∧
  (∀ (s : State) (m : Fin 16) (v : Int), s.motionBusy m = false →
    exec (.motionReplan m 2 v) s = .next (if 1 ≤ v ∧ v ≤ 3 then
        (s.setReg (Obj.motMode m) v).updMotion m fun x => { x with idleHold := false } else s) ∧
      exec (.motionReplan m 3 v) s = .next ((s.setReg (Obj.motTarget m) v).updMotion m fun x => { x with idleHold := false }) ∧
      exec (.motionReplan m 4 v) s = .next (if v.natAbs ≤ s.nat (Obj.motVMax m) then
        (s.setReg (Obj.motVelocity m) v).updMotion m fun x => { x with idleHold := false } else s)) ∧
  (∀ (s : State) (m : Fin 16) (v : Int), s.motionBusy m = true →
    exec (.motionReplan m 2 v) s = .next s ∧ exec (.motionReplan m 3 v) s = .next s ∧ exec (.motionReplan m 4 v) s = .next s) ∧
  (∀ (s : State) (m : Fin 16) (v : Int),
    exec (.motionReplan m 5 v) s = .next (if 1 ≤ v ∧ v ≤ 5000000 ∧ 2 * s.reg (Obj.stepWidth m) * v ≤ 1000000000 then
        s.setReg (Obj.motVMax m) v else s) ∧
      exec (.motionReplan m 6 v) s = .next (if 1 ≤ v ∧ v < 2 ^ 32 then s.setReg (Obj.motAMax m) v else s) ∧
      exec (.motionReplan m 7 v) s = .next (if 1 ≤ v ∧ v < 2 ^ 32 then s.setReg (Obj.motJMax m) v else s) ∧
      exec (.motionReplan m 8 v) s = .next (if 1 ≤ v ∧ v < 2 ^ 32 then s.setReg (Obj.motQuickDecel m) v else s) ∧
      exec (.motionReplan m 18 v) s = .next (if 1 ≤ v ∧ v ≤ 1000000 then s.setReg (Obj.followLimit m) v else s)) ∧
  (∀ (s : State) (m : Fin 16) (sub : Fin 32) (v : Int), sub.val ∉ [2, 3, 4, 5, 6, 7, 8, 18] →
    exec (.motionReplan m sub v) s = .next s) ∧
  (∀ (s : State) (m : Fin 16), exec (.motStop m) s = .next (if s.stopBusy m = true then s else motStop m s)) ∧
  (∀ (s : State) (m : Fin 16), exec (.motQuickStop m) s = .next (motQuickStop m s)) ∧
  (∀ (s : State) (m : Fin 16), exec (.motHardStop m) s = .next (transAtRest m (motHardStop m s))) ∧
  (∀ (s : State) (m : Fin 16), (s.motion m).state ≠ .fault ∨ (s.motion m).vel ≠ 0 ∨
    (∃ u, s.transportOfMotion m = some u ∧ (s.trans u).state ≠ .idle ∧ (s.trans u).state ≠ .fault) → exec (.motClear m) s = .next s) ∧
  (∀ (s : State) (m : Fin 16), (s.motion m).state = .fault → (s.motion m).vel = 0 →
    (∀ u, s.transportOfMotion m = some u → (s.trans u).state = .idle ∨ (s.trans u).state = .fault) →
    exec (.motClear m) s = .next (motEnter m .standstill (s.updMotion m fun x => { x with braking := false, idleHold := true }))) ∧
  (∀ (s u : State) (m : Fin 16), u = (s.setReg (Obj.motEnable m) 1).updMotion m (fun x => { x with driven := true }) →
    exec (.motEnable m true) s = .next (if (s.motion m).state = .off then
        motEnter m .standstill (u.updMotion m fun x => { x with offAtStop := false, idleHold := true,
                                                                followBase := (u.extPos (u.nat (Obj.followChannel m)),
                                                                              u.reg (Obj.commandedPosition m)) })
      else u.updMotion m fun x => { x with offAtStop := false })) ∧
  (∀ (s u : State) (m : Fin 16), u = (s.setReg (Obj.motEnable m) 0).updMotion m (fun x => { x with driven := x.driven }) →
    exec (.motEnable m false) s = .next (match (s.motion m).state with
      | .moving => motEnter m .stopping (u.updMotion m fun x => { x with offAtStop := true, idleHold := true })
      | .stopping | .quickStopping => u.updMotion m fun x => { x with offAtStop := true }
      | .standstill => motEnter m .off u
      | .fault => if (u.motion m).vel = 0 then motEnter m .off u else u.updMotion m fun x => { x with offAtStop := true }
      | .off => u))

/-! ### Chapter 08: seams and transports -/

/-- Transports (R344, R345, R348, R350, R351, R355, R611): SEAM_STOP asks a running or restarting transport on its own line to stop and
does nothing else; a transport in FAULT whose motion channel stands still and is not held restarts by backing up, every running stream
resuming at its next line; a stopped one with a stream that is not closing backs up once its dwell is over; a ready one restarts in
pacing mode with its preset held within the bounds. Before their conditions these do nothing. Choices of the model it rests on: log
entries 35 and 105. -/
def Obligations.TransportSteps : Prop :=
  (∀ (s : State) (u : Fin 16), s.nat (Obj.transportKind u) ≠ 1 ∨ ((s.trans u).state ≠ .running ∧ (s.trans u).state ≠ .restarting) →
    exec (.seamStop u) s = .next s) ∧
  (∀ (s t : State) (u : Fin 16), s.nat (Obj.transportKind u) = 1 → (s.trans u).state = .running ∨ (s.trans u).state = .restarting →
    t = (((s.runningOf u).foldl (fun s st => holdGates st s) s).updTrans u fun x => { x with state := .stopping, since := none }) →
    exec (.seamStop u) s = .next (let m := ((s.runningOf u).foldl (fun s st => holdGates st s) s).nat (Obj.transportMotion u)
      if m < 16 then motStop m t else t)) ∧
  (∀ (s : State) (u : Fin 16), exec (.seamRestart u) s = .next
    (if (s.trans u).state = .fault ∧ s.nat (Obj.transportMotion u) < 16 ∧
        (s.motion (s.nat (Obj.transportMotion u))).state = .standstill ∧ s.quickHeld (s.nat (Obj.transportMotion u)) = false
     then startBackup u ((s.runningOf u).foldl (fun s st =>
       s.updSeam st fun x => { x with resumeLine := some ((s.gen st).triggered) }) s) else s)) ∧
  (∀ (s : State) (u : Fin 16) (t : Nat), (s.trans u).since = some t → exec (.backupStart u) s = .next
    (if (s.trans u).state = .stopping ∧ s.nat (Obj.transportMotion u) < 16 ∧
        ((s.runningOf u).any fun st => (s.strm st).state != .closing) = true ∧ us (s.nat (Obj.stopDwell u)) ≤ s.now - t
     then startBackup u s else s)) ∧
  (∀ (s : State) (u : Fin 16), (s.trans u).since = none → exec (.backupStart u) s = .next s) ∧
  (∀ (s : State) (u : Fin 16), s.restartReady u = false → exec (.restartStart u) s = .next s) ∧
  (∀ (s t : State) (u : Fin 16) (k : Nat), s.restartReady u = true →
    k = max (s.nat (Obj.pacingMin u)) (min (s.nat (Obj.pacingMax u)) (s.trans u).preset) →
    t = (s.updTrans u fun x => { x with state := .restarting, preset := k, since := none }).setReg
        (Obj.motMode (s.nat (Obj.transportMotion u))) 3 →
    exec (.restartStart u) s = .next (t.updMotion (s.nat (Obj.transportMotion u)) fun x =>
        { x with idleHold := false, moveTo := none, paceSpeed := field (t.nat (Obj.pacingPreset u k)) 32 32 }))

/-- Pacing, diversion, gates and Hold of transports (R340, R341, R354, R360, R362, R424): at its instant pacing of a running transport
steps down where the ring is full beyond the preset's fall mark, else up where the ring is below the next preset's mark and the dwell
is over, holds at its bounds, and else only ends the hold; in another state, without pacing or before its instant it does nothing. A
diversion whose interval has run ends and no other; a gate edge is stamped with the transition that began it (log entry 104) and judged
on a gate pin of a stream that is not holding; a ready Hold is entered with every triggering generator held, and not before it is
ready. Choices of the model it rests on: log entries 44, 57 and 103. -/
def Obligations.PacingGatesAndHold : Prop :=
  (∀ (s : State) (u : Fin 16), (s.trans u).state ≠ .running ∨ s.nat (Obj.pacingMode u) ≠ 1 ∨ s.loopDue 3 u (ms 1) = false →
    exec (.pacingEval u) s = .next s) ∧
  (∀ (s t : State) (u : Fin 16) (k : Nat), s.loopDue 3 u (ms 1) = true → t = s.loopRan 3 u → (s.trans u).state = .running →
    s.nat (Obj.pacingMode u) = 1 → (s.trans u).preset = k → 1 ≤ k →
    (t.preset u k).2.2 ≤ maxNat ((t.runningOf u).map t.ringFill) →
    exec (.pacingEval u) s = .next (if k - 1 < s.nat (Obj.pacingMin u) then pacingHold u false t else takePreset u (k - 1) t)) ∧
  (∀ (s t : State) (u : Fin 16) (k : Nat), s.loopDue 3 u (ms 1) = true → t = s.loopRan 3 u → (s.trans u).state = .running →
    s.nat (Obj.pacingMode u) = 1 → (s.trans u).preset = k →
    k = 0 ∨ maxNat ((t.runningOf u).map t.ringFill) < (t.preset u k).2.2 →
    exec (.pacingEval u) s = .next (
      if k + 1 < s.nat (Obj.pacingPresets u) ∧ maxNat ((t.runningOf u).map t.ringFill) ≤ (t.preset u (k + 1)).2.1 ∧
        ms (s.nat (Obj.pacingDwell u)) ≤ s.now - (s.trans u).lastChange then
        (if s.nat (Obj.pacingMax u) < k + 1 then pacingHold u true t else takePreset u (k + 1) t)
      else t.updTrans u fun x => { x with clamped := false })) ∧
  (∀ (s : State) (u : Fin 16), exec (.divertRelease u) s = .next ((s.streamsOf u).foldl (fun s st =>
    if (∃ t, (s.seam st).divertUntil = some t ∧ t ≤ s.now) then
      drivePins 19 st false (s.updSeam st fun x => { x with divert := false, divertUntil := none }) else s) s)) ∧
  (∀ (s : State) (t : Fin 96) (level : Bool), s.tioFn t ≠ 2 ∨ 64 ≤ s.tioSource t → exec (.gateInEdge t level) s = .next s) ∧
  (∀ (s u : State) (t : Fin 96) (level : Bool), s.tioFn t = 2 → s.tioSource t < 64 → u = stampTio t level s →
    exec (.gateInEdge t level) s = .next (if (u.seam (s.tioSource t)).holding then u
      else gateEdge (s.tioSource t) t level (u.tioStamp t) (u.positionAt (s.tioSource t) (u.tioStamp t)) u)) ∧
  (∀ (s u : State), s.target = some .hold → s.mode ≠ .degraded → s.holdReady = true →
    u = (List.range 64).foldl (fun s st => if s.triggering st then s.updGen st fun g => { g with held := true } else s) s →
    exec .holdEntry s = .next (reachMode .hold { u with power := { u.power with heldFrom := u.mode } })) ∧
  (∀ (s : State), s.target ≠ some .hold ∨ s.mode = .degraded ∨ s.holdReady = false → exec .holdEntry s = .next s)

/-! ### Chapter 09: illumination -/

/-- Lamp pulses of a line (R375, R377, R380, R388 to R394): the band of the pulse that waits is driven BandLead before its instant, not
earlier and not while a band of common columns blanks it; a pulse whose line is gone is dropped, a driven band released; at its instant
its columns are lit with their codes, a failed crosspoint with 0, and a line lit by a crosspoint in doubt is marked; the pulse ends
after its width, and one shorter than 2 microseconds counts its crosspoints as unchecked; a discharge ends at its time; 2 microseconds
after its start a pulse is judged once: the headroom, the lit sinks, the unlit ones. Without a pulse, or too early, nothing is done.
Choices of the model it rests on: log entry 23. -/
def Obligations.LampPulses : Prop :=
  (∀ (s : State) (b : Fin 16), s.lamps.pulses.find? (waiting b) = none → exec (.bandAssert b) s = .next s) ∧
  (∀ (s : State) (b : Fin 16) (p : LampPulse), s.lamps.pulses.find? (waiting b) = some p → s.pulseAt p = none →
    exec (.bandAssert b) s = .next (s.mapPulses (updPulse (waiting b) fun _ => none))) ∧
  (∀ (s : State) (b : Fin 16) (p : LampPulse) (t : Nat), s.lamps.pulses.find? (waiting b) = some p → s.pulseAt p = some t →
    exec (.bandAssert b) s = .next (
      if s.now + ns (s.nat Obj.bandLead) < t ∨ s.blanked b (t - ns (s.nat Obj.bandLead)) = true then s
      else driveBand b true (t - ns (s.nat Obj.bandLead))
        (s.mapPulses (updPulse (waiting b) fun q => some { q with banded := true })))) ∧
  (∀ (s : State) (b : Fin 16), s.lamps.pulses.find? (readyPulse b) = none → exec (.pulseStart b) s = .next s) ∧
  (∀ (s : State) (b : Fin 16) (p : LampPulse), s.lamps.pulses.find? (readyPulse b) = some p → s.pulseAt p = none →
    exec (.pulseStart b) s = .next (driveBand b false s.now (s.mapPulses (updPulse (readyPulse b) fun _ => none)))) ∧
  (∀ (s : State) (b : Fin 16) (p : LampPulse) (t : Nat), s.lamps.pulses.find? (readyPulse b) = some p → s.pulseAt p = some t →
    s.now < t → exec (.pulseStart b) s = .next s) ∧
  (∀ (s u v : State) (b : Fin 16) (p : LampPulse) (t : Nat) (codes : List (Nat × Nat)), s.lamps.pulses.find? (readyPulse b) = some p →
    s.pulseAt p = some t → t ≤ s.now → codes = (p.codes.map fun c => (c.1, if (s.xpoint (xpIndex b c.1)).failed then 0 else c.2)) →
    u = s.mapPulses (updPulse (readyPulse b) fun q => some { q with onSince := some t, codes := codes }) →
    v = codes.foldl (fun s c =>
      let s := s.updXpoint (xpIndex b c.1) fun x => { x with dLast := c.2 };
      if c.2 = 0 then s else s.emit (.pin .lampCol c.1 true t)) u →
    exec (.pulseStart b) s = .next (match p.line with
      | some (st, line) => if (codes.any fun c => (u.xpoint (xpIndex b c.1)).state == .unverified) = true then
          updRec st line (fun r => { r with lampUnverified := true }) v else v
      | none => v)) ∧
  (∀ (s : State) (b : Fin 16), s.lamps.pulses.find? (litPulse b) = none → exec (.pulseEnd b) s = .next s) ∧
  (∀ (s : State) (b : Fin 16) (p : LampPulse), s.lamps.pulses.find? (litPulse b) = some p →
    exec (.pulseEnd b) s = .next (if s.now < p.onSince.getD 0 + p.width then s
      else endPulse b (p.onSince.getD 0 + p.width) p
        (lampFeed p (if p.width < us 2 then p.codes.foldl (fun s c => countUnchecked b c.1 s) s else s)))) ∧
  (∀ (s : State) (b : Fin 16), exec (.dischargeEnd b) s = .next { s with lamps :=
    { s.lamps with discharging := s.lamps.discharging.filter fun d => !(d.1 == b.val && decide (d.2 ≤ s.now)) } }) ∧
  (∀ (s : State) (b : Fin 16) (meas : List SinkMeas), s.lamps.pulses.find? (litPulse b) = none →
    exec (.pulseCheck b meas) s = .next s) ∧
  (∀ (s : State) (b : Fin 16) (p : LampPulse) (meas : List SinkMeas), s.lamps.pulses.find? (litPulse b) = some p →
    p.width < us 2 ∨ p.measured = true ∨ s.now < p.onSince.getD 0 + us 2 → exec (.pulseCheck b meas) s = .next s) ∧
  (∀ (s u v : State) (b : Fin 16) (p : LampPulse) (meas lit : List SinkMeas), s.lamps.pulses.find? (litPulse b) = some p → us 2 ≤ p.width →
    p.measured = false → p.onSince.getD 0 + us 2 ≤ s.now → lit = meas.filter (litNow p) →
    u = headroomTake b p lit (s.mapPulses (updPulse (litPulse b) fun q => some { q with measured := true })) →
    v = lit.foldl (fun s m => checkLit b p lit m s) u →
    exec (.pulseCheck b meas) s = .next ((meas.filter fun m => !m.lit).foldl (fun s m => checkUnlit b lit m s) v))

/-- Lamp tests and crosspoints in doubt (R391, R395, R396, R398, R399): LampTest starts in IdleReady or Maintenance with every band off,
and its end names the columns that were shorted; a crosspoint in doubt for 50 ms is told and reported once; a failed one that is due is
lifted by its neighbours from the next phase cycle of every stream that names its band, told with outcome 0, 1 where a code is capped,
and a spare's insertion counted; with no neighbour left it is told with outcome 2 and reported. A band with a crosspoint in doubt that
is enabled and has a free interval gets a diagnostic pulse. Each does nothing otherwise. Choices of the model it rests on: log entries
23, 32, 33, 66 and 89. -/
def Obligations.LampTestsAndLifts : Prop :=
  (∀ (s : State), exec .lampTest s = .next (
    if (s.mode = .idleReady ∨ s.mode = .maintenance) ∧ ((List.range 16).all fun b => !s.flag (Obj.bandEnable b)) = true
    then startLampTest s else s)) ∧
  (∀ (s : State) (cols : List (Fin 64)), s.lamps.testUntil = none → exec (.lampTestDone cols) s = .next s) ∧
  (∀ (s : State) (cols : List (Fin 64)) (t : Nat), s.lamps.testUntil = some t →
    exec (.lampTestDone cols) s = .next (if s.now < t then s
      else shortColumns (cols.map Fin.val) { s with lamps := { s.lamps with testUntil := none } })) ∧
  (∀ (s : State) (b : Fin 16) (c : Fin 64), (s.xpoint (xpIndex b c)).state = .unverified → (s.xpoint (xpIndex b c)).told = false →
    (s.xpoint (xpIndex b c)).since + ms 50 ≤ s.now →
    exec (.lampUnverified b c) s = .next ((s.updXpoint (xpIndex b c) fun x => { x with told := true }).raiseFault
      .lampUnverified [xpIndex b c] Kind.lampUnverified 1 (xpIndex b c) 0 (islandOf 1 (c / 32)))) ∧
  (∀ (s : State) (b : Fin 16) (c : Fin 64), (s.xpoint (xpIndex b c)).state ≠ .unverified ∨ (s.xpoint (xpIndex b c)).told = true ∨
    s.now < (s.xpoint (xpIndex b c)).since + ms 50 → exec (.lampUnverified b c) s = .next s) ∧
  (∀ (s : State) (b : Fin 16) (c : Fin 64), s.lamps.liftsDue.contains (xpIndex b c) = false → exec (.lampLift b c) s = .next s) ∧
  (∀ (s u : State) (b : Fin 16) (c : Fin 64) (firsts : List (Nat × Nat)), s.lamps.liftsDue.contains (xpIndex b c) = true →
    u = { s with lamps := { s.lamps with liftsDue := s.lamps.liftsDue.filter (· != xpIndex b c) } } → u.liftable b c = [] →
    firsts = (u.streamsNaming b).map (fun st => (st, u.nextCycleLine st)) →
    exec (.lampLift b c) s = .next ((u.raise .lampLift
      ((xpIndex b c : Int) :: 2 :: firsts.flatMap fun f => [(f.1 : Int), (f.2 : Int)]) 3).report
        Kind.lampLift 3 (xpIndex b c) 0 (islandOf 0 0))) ∧
  (∀ (s u v : State) (b : Fin 16) (c : Fin 64) (n : Nat) (more : List Nat) (firsts : List (Nat × Nat)) (capped : Bool),
    s.lamps.liftsDue.contains (xpIndex b c) = true →
    u = { s with lamps := { s.lamps with liftsDue := s.lamps.liftsDue.filter (· != xpIndex b c) } } → u.liftable b c = n :: more →
    firsts = (u.streamsNaming b).map (fun st => (st, u.nextCycleLine st)) →
    v = (n :: more).foldl (fun s n => s.updXpoint (xpIndex b n) fun x =>
      { x with lifts := x.lifts + (if (n :: more).length = 1 then 2 else 1), liftFrom := firsts }) u →
    capped = ((n :: more).any fun n =>
      (liftedCode (fullCode (v.nat (Obj.bandFullScale b)) (Table.get 32768 v.lamps.trim (xpIndex b n)))
        (v.xpoint (xpIndex b n)).lifts (v.nat Obj.liftPct)).2) →
    exec (.lampLift b c) s = .next (inserted 5 (xpIndex b c) (xpIndex b n) 0 (v.raise .lampLift
      ((xpIndex b c : Int) :: (if capped then 1 else 0 : Nat) :: firsts.flatMap fun f => [(f.1 : Int), (f.2 : Int)]) 0))) ∧
  (∀ (s : State) (b : Fin 16), ((s.columnsOf b).any fun c => (s.xpoint (xpIndex b c)).state == .unverified) = true →
    s.flag (Obj.bandEnable b) = true → diagInterval b s = true →
    exec (.diagPulse b) s = .next (s.mapPulses fun ps =>
      { line := none, band := b, offset := s.now + us 1, width := us 3,
        codes := ((s.columnsOf b).filter fun c => !(s.xpoint (xpIndex b c)).failed).map fun c =>
          (c, max (s.xpoint (xpIndex b c)).dLast (fullCode (s.nat (Obj.bandFullScale b)) (Table.get 32768 s.lamps.trim (xpIndex b c)) / 16)) } :: ps)) ∧
  (∀ (s : State) (b : Fin 16), ((s.columnsOf b).any fun c => (s.xpoint (xpIndex b c)).state == .unverified) = false ∨
    s.flag (Obj.bandEnable b) = false ∨ diagInterval b s = false → exec (.diagPulse b) s = .next s)

/-- SYNC and the lamp rail (R382, R383, R386, R387, R400, R401, R625): SyncFire of the master is a pulse of 1 microsecond; an edge is
counted, starts the groups that wait for it and ends the fault, but does nothing in role 0 or on inputs that are unfit; a fault
withdraws the instants not yet reached, told and reported; a band is driven low first when it is enabled, once, and is released when it
is disabled. The headroom rule at its instant, while its rail regulates, writes the fixed set point in mode 0, and else moves it up 200
mV where a sink starved, down 25 mV where the least of them is high, within the bounds, and tells once that it is held at one. Choices
of the model it rests on: log entries 23, 28 and 32. -/
def Obligations.SyncAndLampRail : Prop :=
  (∀ (s : State), exec .syncFire s = .next (if s.nat Obj.syncRole = 2 then
    s.emits [.pin .sync 0 false s.now, .pin .sync 0 true (s.now + us 1)] else s)) ∧
  (∀ (s : State), exec .syncEdge s = .next (if s.nat Obj.syncRole = 0 ∨ s.syncUnfit = true then s
    else syncBroadcast (({ s with lamps := { s.lamps with syncFault := none } } : State).countWrap Obj.syncCount))) ∧
  (∀ (s : State), exec .syncFault s = .next (if s.nat Obj.syncRole = 0 then s
    else ({ s with lamps := { s.lamps with syncFault := some s.now },
                   groupsWaiting := s.groupsWaiting.map (withdrawInstant s.now) } : State).raiseFault .syncFault [] Kind.syncFault 2 0 0 (islandOf 0 0))) ∧
  (∀ (s u : State) (b : Fin 16), u = s.setReg (Obj.bandEnable b) 1 → exec (.bandEnable b true) s =
    .next (if s.lamps.driven.contains b.val then u
      else driveBand b false u.now { u with lamps := { u.lamps with driven := b.val :: u.lamps.driven } })) ∧
  (∀ (s : State) (b : Fin 16), exec (.bandEnable b false) s = .next (disableBand b s)) ∧
  (∀ (s : State), s.lampRailHeld = true ∨ (s.nat Obj.headroomMode ≠ 0 ∧ s.loopDue 4 0 (us (s.nat Obj.headroomPeriod)) = false) →
    exec .headroomEval s = .next s) ∧
  (∀ (s t : State), s.lampRailHeld = false → s.nat Obj.headroomMode = 0 → t = s.loopRan 4 0 →
    exec .headroomEval s = .next (({ t with lamps := { s.lamps with sawChecked := false, starved := false, leastMv := none } } : State).setReg
      Obj.lampRailSetpoint (s.reg Obj.lampRailFixed))) ∧
  (∀ (s t : State), s.lampRailHeld = false → s.nat Obj.headroomMode ≠ 0 →
    s.loopDue 4 0 (us (s.nat Obj.headroomPeriod)) = true → t = s.loopRan 4 0 → s.lamps.sawChecked = false →
    exec .headroomEval s = .next (({ t with lamps := { s.lamps with sawChecked := false, starved := false, leastMv := none } } : State).setReg
        Obj.lampRailSetpoint (clampInt (s.reg Obj.lampRailMin) (s.reg Obj.lampRailMax) (s.reg Obj.lampRailSetpoint)))) ∧
  (∀ (s t u : State) (sp want held : Int) (bound : Option Bool), s.lampRailHeld = false → s.nat Obj.headroomMode ≠ 0 →
    s.loopDue 4 0 (us (s.nat Obj.headroomPeriod)) = true → t = s.loopRan 4 0 → s.lamps.sawChecked = true → sp = s.reg Obj.lampRailSetpoint →
    want = (if s.lamps.starved then sp + 200
      else if (∃ v, s.lamps.leastMv = some v ∧ 800 + s.nat Obj.headroomTarget + 50 ≤ v) then sp - 25 else sp) →
    held = clampInt (s.reg Obj.lampRailMin) (s.reg Obj.lampRailMax) want →
    bound = (if held = want then none else some (decide (held < want))) →
    u = ({ t with lamps := { s.lamps with sawChecked := false, starved := false, leastMv := none, atBound := bound } } : State).setReg
      Obj.lampRailSetpoint held →
    exec .headroomEval s = .next (if bound.isSome = true ∧ bound ≠ s.lamps.atBound then
      (u.count Obj.headroomClamps).raise .policyClamp [b2n (bound == some true)] else u))

/-! ### Chapters 10 and 11: the reservoir's pages, host delivery, the mailbox -/

/-- Pages, marks and the read windows (R415, R438, R442, R443, R452): a released page, or all of them, is given back; a host mark that may
stand is stored and placed, all ones removes it, and one outside the ring's lines is not taken; a read of BAR4 is answered with the
reservoir's bytes after what Delta already sends; a write of BAR4 is dropped, counted and reported as unsupported. Choices of the model
it rests on: log entry 37. -/
def Obligations.PagesMarksAndWindows : Prop :=
  (∀ (s : State) (st : Fin 64) (page : BitVec 32), exec (.pageRelease st page) s = .next (releasePage st page.toNat s)) ∧
  (∀ (s : State) (st : Fin 64) (k : Fin 8) (v : BitVec 64), hostMarkOk st v.toNat s = true →
    exec (.hostMark st k v) s = .next (moveMark st (fun r => if v.toNat = maxU 64 then r.dropMark .host k else r.placeMark .host k v.toNat)
      (s.setReg (Obj.hostMark st k) v.toNat))) ∧
  (∀ (s : State) (st : Fin 64) (k : Fin 8) (v : BitVec 64), v.toNat ≠ maxU 64 → (s.ring st).allocated = false ∨
    v.toNat < (s.ring st).writeLine - s.nat (Obj.ringLines st) ∨ (s.ring st).writeLine < v.toNat → exec (.hostMark st k v) s = .next s) ∧
  (∀ (s : State) (off len : Nat), exec (.bar4Read off len) s =
    .next (enq bar4Chan (.hostCompletion true (readReservoir off len s).1) (readReservoir off len s).2)) ∧
  (∀ (s : State) (off : Nat) (data : Bytes), exec (.bar4Write off data) s = .next ((s.count Obj.bar4WritesDropped).emit .unsupportedRequest))

/-- Channels start and stop (R460, R461, R464, R465, R501): a doorbell of a channel started by doorbell, or the due tick of the timer of a
channel that is enabled, is a start event, and no other; the enable bits and NEXT act on their channel; a channel whose disabling ended
is off, and on again where its bit was set meanwhile. Choices of the model it rests on: log entry 38. -/
def Obligations.ChannelsStartAndStop : Prop :=
  (∀ (s : State) (n : Fin 256), exec (.dltChDoorbell n) s = .next (if (s.chan n).startSrc = 0 then startEvent n s else s)) ∧
  (∀ (s : State) (n : Fin 256), (s.chan n).startSrc = 1 → (s.chan n).state ≠ .off → (s.chan n).state ≠ .disabling → 1000 ≤ (s.chan n).period →
    (s.chan n).firstDt + (s.chan n).tick * (s.chan n).period ≤ s.dt →
    exec (.channelTimerStart n) s = .next (startEvent n (s.updChan n fun c => { c with tick := c.tick + 1 }))) ∧
  (∀ (s : State) (n : Fin 256), (s.chan n).startSrc ≠ 1 ∨ (s.chan n).state = .off ∨ (s.chan n).state = .disabling ∨
    (s.chan n).period < 1000 ∨ s.dt < (s.chan n).firstDt + (s.chan n).tick * (s.chan n).period →
    exec (.channelTimerStart n) s = .next s) ∧
  (∀ (s : State) (n : Fin 256), exec (.dltChEnSet n) s = .next (enableChan n s) ∧ exec (.dltChEnClear n) s = .next (disableChan n s) ∧
    exec (.channelDisable n) s = .next (disableChan n s)) ∧
  (∀ (s : State) (n : Fin 256), (s.chan n).state ≠ .disabling → exec (.channelOff n) s = .next s) ∧
  (∀ (s u : State) (n : Fin 256), (s.chan n).state = .disabling → u = s.updChan n (fun c => { c with state := .off, enAgain := false }) →
    exec (.channelOff n) s = .next (if (s.chan n).enAgain then enableChan n u else u)) ∧
  (∀ (s : State) (n : Fin 256) (v : BitVec 64), exec (.channelNextWrite n v) s = .next (writeNext n v.toNat s))

/-- Descriptors (R440, R441, R464, R467, R474 to R477, R486, R493, R494, R497): the reply to a fetch that was asked loads the descriptor,
and one that cannot be read is error 2 of its channel; NEXT is read again at the end: its E bit stops the channel, a paced channel
waits for its start, another fetches; the next local descriptor is read ahead while one is served. A source piece that was asked is
taken, one that fails ends the descriptor with its code; a fetch job is stepped by the reply and where its wait expires; a flush that
was asked completes, in error with code 10. A reply to a channel that is not running, that asked nothing, or in another phase does
nothing. Choices of the model it rests on: log entries 38 and 66. -/
def Obligations.DescriptorsAreFetchedAndServed : Prop :=
  (∀ (s : State) (n : Fin 256) (reply : ReadReply), (s.chan n).state ≠ .running ∨ (s.chan n).phase = .none ∨
    ((s.chan n).unasked = true ∧ ((s.chan n).phase = .reread ∨ (s.chan n).phase = .fetch)) →
    exec (.descriptorFetch n reply) s = .next s) ∧
  (∀ (s : State) (n : Fin 256) (reply : ReadReply), (s.chan n).state = .running → (s.chan n).phase = .fetch → (s.chan n).unasked = false →
    exec (.descriptorFetch n reply) s = .next (match s.descRead (s.chan n).want 0 64 reply with
      | some d => loadDesc n (s.chan n).want d s
      | none => chanError n (s.chan n).want 2 s)) ∧
  (∀ (s : State) (n : Fin 256) (reply : ReadReply), (s.chan n).state = .running → (s.chan n).phase = .reread → (s.chan n).unasked = false →
    s.descRead (s.chan n).cur 16 8 reply = none → exec (.descriptorFetch n reply) s = .next (chanError n (s.chan n).cur 2 s)) ∧
  (∀ (s u : State) (n : Fin 256) (reply : ReadReply) (v raw : Nat), (s.chan n).state = .running → (s.chan n).phase = .reread →
    (s.chan n).unasked = false → s.descRead (s.chan n).cur 16 8 reply = some v → raw = v / 64 * 64 + 2 * field v 1 1 →
    u = s.updChan n (fun c => { c with want := raw }) →
    exec (.descriptorFetch n reply) s = .next (if v % 2 = 1 then chanWait n .stoppedAtEnd s
      else if (s.chan n).paced = true ∧ (s.chan n).follow = false then chanWait n .waitingStart u else fetchDue n raw u)) ∧
  (∀ (s : State) (n : Fin 256) (reply : ReadReply) (v raw d : Nat), (s.chan n).state = .running →
    (s.chan n).phase = .data ∨ (s.chan n).phase = .flush ∨ (s.chan n).phase = .complete → (s.chan n).prefetched = none →
    descLocal (s.chan n).cur = true → s.localRead (descAddr (s.chan n).cur + 16) 8 = some v → v % 2 = 0 →
    raw = v / 64 * 64 + 2 * field v 1 1 → descLocal raw = true → s.localRead (descAddr raw) 64 = some d →
    exec (.descriptorFetch n reply) s = .next (s.updChan n fun c => { c with prefetched := some (raw, d) })) ∧
  (∀ (s : State) (n : Fin 256) (reply : ReadReply), (s.chan n).phase = .data ∨ (s.chan n).phase = .flush ∨ (s.chan n).phase = .complete →
    (s.chan n).prefetched.isSome = true ∨ descLocal (s.chan n).cur = false → exec (.descriptorFetch n reply) s = .next s) ∧
  (∀ (s : State) (n : Fin 256) (reply : ReadReply), (s.chan n).state ≠ .running ∨ (s.chan n).phase ≠ .data ∨ (s.chan n).desc = none →
    exec (.sourceReadCompletion n reply) s = .next s) ∧
  (∀ (s : State) (n : Fin 256) (d : Nat) (j : FetchJob) (reply : ReadReply), (s.chan n).state = .running → (s.chan n).phase = .data →
    (s.chan n).desc = some d → (s.chan n).fetch = some j → exec (.sourceReadCompletion n reply) s = .next (fetchStep n d j s)) ∧
  (∀ (s : State) (n : Fin 256) (d : Nat) (reply : ReadReply), (s.chan n).state = .running → (s.chan n).phase = .data →
    (s.chan n).desc = some d → (s.chan n).fetch = none → Desc.srcKind d ≠ 0 ∨ (s.chan n).unasked = true →
    exec (.sourceReadCompletion n reply) s = .next s) ∧
  (∀ (s : State) (n : Fin 256) (d left : Nat) (reply : ReadReply), (s.chan n).state = .running → (s.chan n).phase = .data →
    (s.chan n).desc = some d → (s.chan n).fetch = none → Desc.srcKind d = 0 → (s.chan n).unasked = false → Desc.srcSpace d = 0 →
    left = descTotal d none - (s.chan n).pos - (if Desc.format d = 0 then ((s.chan n).piece d).2 else 1) →
    exec (.sourceReadCompletion n reply) s = .next (match reply with
      | .failed e => dataError n (4 + e) left s
      | .data b => takePiece n d ((b ++ List.replicate ((s.chan n).piece d).2 0).take ((s.chan n).piece d).2) s
      | .uncorrectable => s)) ∧
  (∀ (s : State) (n : Fin 256) (d left : Nat) (reply : ReadReply), (s.chan n).state = .running → (s.chan n).phase = .data →
    (s.chan n).desc = some d → (s.chan n).fetch = none → Desc.srcKind d = 0 → (s.chan n).unasked = false → Desc.srcSpace d = 1 →
    left = descTotal d none - (s.chan n).pos - (if Desc.format d = 0 then ((s.chan n).piece d).2 else 1) →
    exec (.sourceReadCompletion n reply) s = .next (if reply = .uncorrectable then dataError n 8 left s
      else takePiece n d (s.host.mem.readN ((s.chan n).piece d).1 ((s.chan n).piece d).2) s)) ∧
  (∀ (s : State) (n : Fin 256) (d left : Nat) (p : Nat × Nat) (reply : ReadReply), (s.chan n).state = .running → (s.chan n).phase = .data →
    (s.chan n).desc = some d → (s.chan n).fetch = none → Desc.srcKind d = 0 → (s.chan n).unasked = false → 2 ≤ Desc.srcSpace d →
    p = (s.chan n).piece d → left = descTotal d none - (s.chan n).pos - (if Desc.format d = 0 then p.2 else 1) →
    exec (.sourceReadCompletion n reply) s = .next (if (s.badUnits p.1 p.2).2 ≠ 0 then dataError n 8 left s
      else takePiece n d (readReservoir p.1 p.2 s).1 (readReservoir p.1 p.2 s).2)) ∧
  (∀ (s : State) (n : Fin 256) (d : Nat) (j : FetchJob) (t : Nat), (s.chan n).state = .running → (s.chan n).phase = .data →
    (s.chan n).desc = some d → (s.chan n).fetch = some j → j.waitSince = some t →
    exec (.fetchWaitExpire n) s = .next (if s.now < t + us (s.nat (Obj.fetchWait j.stream)) then s else fetchStep n d j s)) ∧
  (∀ (s : State) (n : Fin 256), (s.chan n).state ≠ .running ∨ (s.chan n).phase ≠ .data ∨ (s.chan n).desc = none ∨ (s.chan n).fetch = none ∨
    (∃ j, (s.chan n).fetch = some j ∧ j.waitSince = none) → exec (.fetchWaitExpire n) s = .next s) ∧
  (∀ (s : State) (n : Fin 256) (ok : Bool), exec (.flushReadCompletion n ok) s = .next (
    if (s.chan n).phase = .flush ∧ (s.chan n).unasked = false then s.updChan n fun c =>
      { c with phase := .complete, code := if ok then 0 else 10, count := if ok then c.count else 0 }
    else s))

/-- Streams delivered, descriptors completed, the output's turns, records and vectors (R457, R463, R466, R467, R470, R478 to R480, R487,
R490, R493): a stream without a channel or without delivery delivers nothing; a channel that has nothing loaded while its stream waits
starves, told once; a running stream descriptor takes the next line and ends where its lines are done. A descriptor that is complete,
with all its packets sent, writes its status back, is counted, tells by record or vector where it is to, or in error, and the channel
goes on, or waits for the completion queue; channels that start by its end start. Delta's output serves one packet of the ready channel
whose turn it is, and none while the link is down or busy. The head of the completion queue and the mask of a vector act as their rules
say. Choices of the model it rests on: log entries 38, 39 and 91. -/
def Obligations.DeliveryCompletes : Prop :=
  (∀ (s : State) (st : Fin 64), 256 ≤ s.nat (Obj.streamChannel st) ∨ s.nat (Obj.deliverScope st) = 2 ∨
    (s.ring st).marks.find? (fun m => m.kind == .delivery) = none → exec (.streamLineDeliver st) s = .next s) ∧
  (∀ (s : State) (st : Fin 64) (m : Mark) (n from_ : Nat) (f : Option Nat × Nat), s.nat (Obj.streamChannel st) = n → n < 256 →
    s.nat (Obj.deliverScope st) ≠ 2 → (s.ring st).marks.find? (fun m => m.kind == .delivery) = some m → from_ = (s.chan n).after st m.index →
    f = s.nextDelivery st (s.nat (Obj.ringLines st) + 1) from_ → (s.chan n).state = .idle ∨ (s.chan n).state = .stoppedAtEnd →
    exec (.streamLineDeliver st) s = .next (
      if f.1 = none then (if f.2 = m.index ∨ from_ ≠ m.index then s else moveMark st (fun r => r.placeMark .delivery 0 f.2) s)
      else if (s.chan n).starveTold then s
      else (s.updChan n fun c => { c with starved := true, starveTold := true }).raise .dltStarved [n, st])) ∧
  (∀ (s u : State) (st : Fin 64) (m : Mark) (n from_ d line : Nat) (f : Option Nat × Nat) (x : RingSlot), s.nat (Obj.streamChannel st) = n → n < 256 →
    s.nat (Obj.deliverScope st) ≠ 2 → (s.ring st).marks.find? (fun m => m.kind == .delivery) = some m → from_ = (s.chan n).after st m.index →
    f = s.nextDelivery st (s.nat (Obj.ringLines st) + 1) from_ → (s.chan n).state = .running → (s.chan n).phase = .data →
    (s.chan n).desc = some d → Desc.srcKind d = 2 → streamDone d st (s.chan n) s = false →
    u = (if f.2 = m.index ∨ from_ ≠ m.index then s else moveMark st (fun r => r.placeMark .delivery 0 f.2) s) →
    f.1 = some line → u.slotOf st line = some x →
    exec (.streamLineDeliver st) s = .next (let t := deliverLine n d st line x u
      if streamDone d st (t.chan n) t then finishData n (Desc.lineCount d - (t.chan n).pos) t else t)) ∧
  (∀ (s : State) (st : Fin 64) (m : Mark) (n d : Nat), s.nat (Obj.streamChannel st) = n → n < 256 →
    s.nat (Obj.deliverScope st) ≠ 2 → (s.ring st).marks.find? (fun m => m.kind == .delivery) = some m → (s.chan n).state = .running →
    (s.chan n).phase = .data → (s.chan n).desc = some d → Desc.srcKind d = 2 → streamDone d st (s.chan n) s = true →
    exec (.streamLineDeliver st) s = .next (finishData n (Desc.lineCount d - (s.chan n).pos) s)) ∧
  (∀ (s : State) (n : Fin 256), (s.chan n).desc = none ∨ (s.chan n).state ≠ .running ∨ (s.chan n).phase ≠ .complete ∨ (s.chan n).tx ≠ [] →
    exec (.descriptorComplete n) s = .next s) ∧
  (∀ (s e u v w : State) (n : Fin 256) (d missing first : Nat) (isStream tell : Bool) (aux : Nat) (r : Bool × State), (s.chan n).desc = some d →
    (s.chan n).state = .running → (s.chan n).phase = .complete → (s.chan n).tx = [] → missing = ((s.chan n).fetch.map FetchJob.missing).getD 0 →
    isStream = (Desc.srcKind d = 2 && Desc.format d = 1) → first = (s.chan n).firstLine.getD (maxU 64) →
    e = (match (s.chan n).fetch with | some j => endFetch n (s.chan n).code j s | none => s) →
    u = writeBack n (s.chan n).cur 8 (leBytes 8 (pack [(62, 2, if (s.chan n).code = 0 then 1 else 2), (56, 6, (s.chan n).code),
      (40, 16, min missing 65535), (0, 40, (s.chan n).count)])) (if isStream then writeBack n (s.chan n).cur 48 (leBytes 8 first) e else e) →
    v = (if (s.chan n).code = 0 then u.updChan n fun c => { c with done := (c.done + 1) % 2 ^ 32, phase := .none }
      else (u.count Obj.descriptorsBad).updChan n fun c =>
        { c with bad := min (c.bad + 1) (maxU 32), err := true, error := c.code, phase := .none }) →
    w = { v with host := { v.host with serving := if v.host.serving == some n.val then none else v.host.serving } } →
    tell = (Desc.irq d || decide ((s.chan n).code ≠ 0)) → aux = (if isStream then first else if (s.chan n).fetch.isSome then missing else 0) →
    r = (if !tell then (false, w) else if w.mode.signalsMsix then (false, sendVector n (w.chanVector n) w)
      else if w.mode.signalsRecord then signalRecord n (w.recordOf n (s.chan n).code aux (s.chan n).count) w else (false, w)) →
    exec (.descriptorComplete n) s = .next ((List.range 256).foldl (fun s m =>
      if (s.chan m).startSrc = 2 && (s.chan m).chainCh = n.val then startEvent m s else s)
      (if r.1 then r.2.updChan n fun c => { c with state := .waitingCq } else nextDesc n r.2))) ∧
  (∀ (s : State), s.nat Obj.hostLinkRating = 0 ∨ s.now < s.host.linkFree ∨ s.pickClass = none → deltaIssue s = s) ∧
  (∀ (s : State) (k n : Nat) (t : Tx) (rest : List Tx), s.nat Obj.hostLinkRating ≠ 0 → s.host.linkFree ≤ s.now → s.pickClass = some k →
    nextTurn (Table.get 0 s.host.turns k) (s.ready k) = some n → s.txOf n = t :: rest → deltaIssue s = serveChan k n t rest s) ∧
  (∀ (s : State) (v : BitVec 32), exec (.dltCqHead v) s = .next (writeCqHead v.toNat s)) ∧
  (∀ (s : State) (v : Fin 2048), exec (.msixUnmask v) s = .next (unmask v s))

/-- The host link and the register windows (R453 to R455, R579, R580): the loss of the link acts as its rule says; a link that trains below
the rating it had takes the lower one, told and reported where a class 0 stream runs, and a training the slot does not allow or not
below changes nothing; the words of BAR0 reach the completion queue, the channels and their doorbells, the vectors, and the mailbox
with its ring; MBX_CTL 0 empties the mailbox, and a word at another place, or off a word boundary, does nothing. Choices of the model
it rests on: log entries 32, 38, 39 and 48. -/
def Obligations.HostLinkAndRegisterWindows : Prop :=
  (∀ (s : State), exec .hostLinkDown s = .next (linkDown s)) ∧
  (∀ (s : State) (gen width : Nat), linkOk gen width = false ∨ s.nat Obj.hostLinkRating ≤ linkRating gen width →
    exec (.hostLinkDegraded gen width) s = .next s) ∧
  (∀ (s u : State) (gen width : Nat), linkOk gen width = true → linkRating gen width < s.nat Obj.hostLinkRating →
    u = (s.setReg Obj.hostLinkState (linkWord gen width s.host.mps)).setReg Obj.hostLinkRating (linkRating gen width) →
    exec (.hostLinkDegraded gen width) s = .next (
      if ((List.range 64).any fun st => u.streamOpen? st && u.nat (Obj.streamClass st) == 0) = true then
        (u.count Obj.linkRetrains).raiseFault .hostLinkDegraded [gen, width] Kind.hostLinkDegraded 2 0 1 (islandOf 6 0)
      else u)) ∧
  (∀ (s : State) (v : BitVec 32), exec (.bar0RegisterWrite 0x10 v) s = .next (writeCqCtl v.toNat s) ∧
    exec (.bar0RegisterWrite 0x14 v) s = .next (writeCqHead v.toNat s) ∧
    exec (.bar0RegisterWrite 0x08 v) s = .next (s.updCq fun q => { q with base := half q.base false v.toNat / 4096 * 4096 }) ∧
    exec (.bar0RegisterWrite 0x0C v) s = .next (s.updCq fun q => { q with base := half q.base true v.toNat / 4096 * 4096 }) ∧
    exec (.bar0RegisterWrite 0x200014 v) s = .next (writeTxTail v.toNat s) ∧
    exec (.bar0RegisterWrite 0x200018 v) s = .next (writeRxHead v.toNat s) ∧
    exec (.bar0RegisterWrite 0x200000 v) s = .next (if v.toNat % 2 = 1 then s.updMbx fun m => { m with en := true }
      else (emptyMailbox s).updMbx fun m => { m with en := false })) ∧
  (∀ (s : State) (n : Fin 256) (o : Fin 64) (v : BitVec 32),
    exec (.bar0RegisterWrite (0x10000 + 256 * n + 4 * o) v) s = .next (writeChanReg n (4 * o) v.toNat s)) ∧
  (∀ (s : State) (n : Fin 2048) (k : Fin 4) (v : BitVec 32),
    exec (.bar0RegisterWrite (0x20000 + 16 * n + 4 * k) v) s = .next (writeMsix n k v.toNat s)) ∧
  (∀ (s : State) (n : Fin 256) (v : BitVec 32),
    exec (.bar0RegisterWrite (0x100000 + 4096 * n) v) s = .next (if (s.chan n).startSrc = 0 then startEvent n s else s)) ∧
  (∀ (s : State) (o : Nat) (v : BitVec 32), o < 0x400000 → o % 4 = 0 → exec (.bar0RegisterWrite (0x210000 + o) v) s =
    .next (s.updMbx fun m => { m with txRing := m.txRing.writeN o (leBytes 4 v.toNat) })) ∧
  (∀ (s : State) (off : Nat) (v : BitVec 32), off % 4 ≠ 0 ∨ 0x610000 ≤ off → exec (.bar0RegisterWrite off v) s = .next s) ∧
  (∀ (s : State) (v : BitVec 32), exec (.mbxTxTail v) s = .next (writeTxTail v.toNat s) ∧
    exec (.mbxRxHead v) s = .next (writeRxHead v.toNat s)) ∧
  (∀ (s : State), exec .mbxDisable s = .next ((emptyMailbox s).updMbx fun m => { m with en := false }))

/-! ### Chapter 12: the analog front end -/

/-- Converter triggers (R513, R516, R517): a timer's tick not yet taken, a pulse of the set width whose pin still stands, CONV_START and an
injected trigger each trigger the converter where its trigger source is of their kind; a pulse that ended before its width, and a
trigger of another kind, start nothing. An injected trigger of an enabled injected channel starts at once on a converter that is idle
or converting without another, waits for one that is busy, and is counted missed where it waits already. Choices of the model it rests
on: log entry 51. -/
def Obligations.ConverterTriggers : Prop :=
  (∀ (s : State) (j : Fin 16) (t : Nat), t = s.now / max (s.nat (Obj.trigPeriod j)) 1 * max (s.nat (Obj.trigPeriod j)) 1 →
    exec (.feTimerTrigger j) s = .next (if trigKind (s.nat (Obj.trigSource j)) = 1 ∧ (s.conv j).lastTick < t then
      feTrigger j t true (s.updConv j fun x => { x with lastTick := t }) else s)) ∧
  (∀ (s : State) (j : Fin 16), (s.conv j).pulse = none → exec (.fePulseTrigger j) s = .next s) ∧
  (∀ (s u : State) (j : Fin 16) (stamp t : Nat), (s.conv j).pulse = some stamp → t = ns (stamp + s.nat (Obj.trigWidth j)) →
    u = s.updConv j (fun x => { x with pulse := none }) →
    exec (.fePulseTrigger j) s = .next (if trigKind (s.nat (Obj.trigSource j)) ≠ 3 ∨ s.now < t then s
      else if (u.tio (trigSrc (s.nat (Obj.trigSource j)))).level then feTrigger j t false u else u)) ∧
  (∀ (s : State) (j : Fin 16), exec (.convStart j) s =
    .next (if trigKind (s.nat (Obj.trigSource j)) = 5 then feTrigger j s.now false s else s)) ∧
  (∀ (s : State) (k : Fin 64) (j : Nat), j = s.nat (Obj.chConverter k) → s.flag (Obj.chInjected k) = false ∨ s.flag (Obj.chEnable k) = false ∨
    trigKind (s.nat (Obj.injTrigSource j)) = 0 ∨ (s.conv j).state = .off ∨ (s.conv j).state = .failed →
    exec (.injectedTrigger k) s = .next s) ∧
  (∀ (s : State) (k : Fin 64) (j : Nat), j = s.nat (Obj.chConverter k) → s.flag (Obj.chInjected k) = true → s.flag (Obj.chEnable k) = true →
    trigKind (s.nat (Obj.injTrigSource j)) ≠ 0 → (s.conv j).state ≠ .off → (s.conv j).state ≠ .failed →
    exec (.injectedTrigger k) s = .next (
      if (s.conv j).inj = none ∧ ((s.conv j).state = .idle ∨ (s.conv j).state = .converting) then startInj j k s.now false s
      else if k.val ∈ (s.conv j).injWait then missedTrigger j s
      else s.updConv j fun x => { x with injWait := insertSorted k x.injWait }))

/-- Runs and calibrations of converters (R517 to R519): when the last conversion of a run, or an injected conversion, is done its channels
take their codes and the converter is free; not before, nor while the run is paused. A calibration starts on command and at the end of
each period, where one is set; 24 microseconds after its start it ends good with the converter idle, or failed, told and reported.
Choices of the model it rests on: log entry 32. -/
def Obligations.RunsAndCalibrationsEnd : Prop :=
  (∀ (s : State) (j : Fin 16) (codes : List (List Int)), (s.conv j).state ≠ .converting ∨ ((s.conv j).inj = none ∧ (s.conv j).run = none) →
    exec (.runComplete j codes) s = .next s) ∧
  (∀ (s : State) (j : Fin 16) (codes : List (List Int)) (i : FeInj), (s.conv j).state = .converting → (s.conv j).inj = some i →
    exec (.runComplete j codes) s = .next (if s.now < i.at_ + convTime then s else convFree j (i.at_ + convTime)
      (feChannelRun i.chan [(codes.headD []).headD 0] i.at_ i.late (s.updConv j fun x => { x with inj := none })))) ∧
  (∀ (s : State) (j : Fin 16) (codes : List (List Int)) (r : FeRun) (last : Nat), (s.conv j).state = .converting → (s.conv j).inj = none →
    (s.conv j).run = some r → last = r.instant (s.convPeriod j) (s.runLength j - 1) →
    exec (.runComplete j codes) s = .next (if r.paused.isSome = true ∨ s.now < last + convTime then s else convFree j (last + convTime)
      (feRunChannels j r (s.sequence j) codes 0 (s.updConv j fun x => { x with run := none })))) ∧
  (∀ (s : State) (j : Fin 16), exec (.feCalibrate j) s = .next (requestCal j s)) ∧
  (∀ (s : State) (j : Fin 16), exec (.feCalPeriod j) s = .next (
    if s.nat Obj.feCalPeriod = 0 ∨ s.now < (s.conv j).lastCal + ms (1000 * s.nat Obj.feCalPeriod) then s else requestCal j s)) ∧
  (∀ (s : State) (j : Fin 16) (ok : Bool), (s.conv j).state ≠ .calibrating ∨ s.now < (s.conv j).calAt + us 24 →
    exec (.feCalDone j ok) s = .next s) ∧
  (∀ (s u : State) (j : Fin 16), (s.conv j).state = .calibrating → (s.conv j).calAt + us 24 ≤ s.now →
    u = s.updConv j (fun x => { x with lastCal := s.now }) →
    exec (.feCalDone j true) s = .next (convFree j ((s.conv j).calAt + us 24)
      (feReady (j / 8) (u.updConv j fun x => { x with ready := true, state := .idle }))) ∧
    exec (.feCalDone j false) s = .next (feReady (j / 8)
      ((u.updConv j fun x => { x with state := .failed, run := none, held := false, injWait := [] }).raiseFault
        .feCalFail [j] Kind.feCalFail 3 j 1 (islandOf 9 (j / 8)))))

/-- Signal generators and clamps (R505, R508, R509, R525): a generator enabled in a powered island where it does not run starts with its
settings, a disabled one stops; a running one takes new settings at its zero crossing, counted, and its channels settle again, and at
other crossings nothing changes; overcurrent stops a running one, told and reported; a clamped input of a powered island sets its flag
and marks the next sample of the channels on it, counted and told at most once a millisecond. Choices of the model it rests on: log
entries 32 and 87. -/
def Obligations.FrontEndGeneratorsAndClamps : Prop :=
  (∀ (s : State) (g : Fin 8), exec (.genEnable g false) s =
    .next ((s.setReg (Obj.genEnable g) 0).setReg (Obj.genState g) 0)) ∧
  (∀ (s u : State) (g : Fin 8), u = s.setReg (Obj.genEnable g) 1 → (u.feIsland (g / 4)).powered = false ∨ u.nat (Obj.genState g) = 1 →
    exec (.genEnable g true) s = .next u) ∧
  (∀ (s u : State) (g : Fin 8) (want : FeGen), u = s.setReg (Obj.genEnable g) 1 → (u.feIsland (g / 4)).powered = true →
    u.nat (Obj.genState g) ≠ 1 → want = ⟨u.nat (Obj.genFrequency g), u.nat (Obj.genAmplitude g), u.nat (Obj.genOffset g)⟩ →
    exec (.genEnable g true) s = .next (({ u with fe := { u.fe with gens := Table.set {} u.fe.gens g want } } : State).setReg
      (Obj.genState g) 1)) ∧
  (∀ (s : State) (g : Fin 8) (want : FeGen), want = ⟨s.nat (Obj.genFrequency g), s.nat (Obj.genAmplitude g), s.nat (Obj.genOffset g)⟩ →
    exec (.genZeroCrossing g) s = .next (if s.nat (Obj.genState g) ≠ 1 ∨ Table.get {} s.fe.gens g = want then s else
      (List.range 64).foldl (fun s k =>
        if s.nat (Obj.detGenerator k) = g.val then s.updFeChan k fun x => { x with settle := (presetOf (s.nat (Obj.preset k))).1 } else s)
        (({ s with fe := { s.fe with gens := Table.set {} s.fe.gens g want } } : State).countWrap (Obj.genChanges g)))) ∧
  (∀ (s : State) (g : Fin 8), exec (.feGenOvercurrent g) s = .next (if s.nat (Obj.genState g) = 1 then
    (s.setReg (Obj.genState g) 2).raiseFault .feGenOvercurrent [g] Kind.feGenOvercurrent 2 g 1 (islandOf 9 (g / 4)) else s)) ∧
  (∀ (s : State) (p : Fin 64), (s.feIsland (p / 32)).powered = false → exec (.feClamp p) s = .next s) ∧
  (∀ (s u v : State) (p : Fin 64) (t : Nat), (s.feIsland (p / 32)).powered = true →
    u = s.setReg Obj.clampFlags (if bitAt (s.nat Obj.clampFlags) p then s.nat Obj.clampFlags else s.nat Obj.clampFlags + 2 ^ p.val : Nat) →
    v = (List.range 64).foldl (fun s k => if s.nat (Obj.chPos k) = p.val || s.nat (Obj.chNeg k) = p.val
      then s.updFeChan k fun x => { x with clampAt := some (x.count + 1) } else s) u →
    Table.get 0 v.fe.clampTold p = t →
    exec (.feClamp p) s = .next (if t = 0 ∨ t - 1 + ms 1 ≤ v.now then
      (({ v with fe := { v.fe with clampTold := Table.set 0 v.fe.clampTold p (v.now + 1) } } : State).count Obj.clampEvents).raise .feClamp [p]
      else v))

/-- The rings of the front end and its path tests (R533 to R537): the oldest item of an island goes to its ring as a whole when its entries
are free, its first entry marked where items were lost, and waits where no ring is set up or it is full; a flush in a powered island
empties queue and ring; ChTest asks for the path test, which ends 84 microseconds after its start with its results taken and the
converter free, for its own channel only. Choices of the model it rests on: log entries 49 and 50. -/
def Obligations.FrontEndRingsAndPathTests : Prop :=
  (∀ (s : State) (i : Fin 2), (s.feIsland i).queue = [] ∨ s.nat (Obj.feRingBase i) = maxU 32 ∨ s.feSlots i = 0 →
    exec (.feItemWrite i) s = .next s) ∧
  (∀ (s : State) (i : Fin 2) (item : List Nat) (rest : List (List Nat)), (s.feIsland i).queue = item :: rest →
    (s.feHead i % s.feSlots i + s.feSlots i - (s.feIsland i).tail % s.feSlots i - 1) % s.feSlots i < item.length →
    exec (.feItemWrite i) s = .next s) ∧
  (∀ (s : State) (i : Fin 2) (n tail r r' : Nat) (item : List Nat) (rest : List (List Nat)), (s.feIsland i).queue = (r :: item) :: rest →
    s.nat (Obj.feRingBase i) ≠ maxU 32 → n = s.feSlots i → n ≠ 0 → r' = (if (s.feIsland i).gap then r + 2 ^ 17 else r) →
    item.length < (s.feHead i % n + n - (s.feIsland i).tail % n - 1) % n → tail = ((s.feIsland i).tail + (item.length + 1)) % n →
    exec (.feItemWrite i) s = .next ((((r' :: item).zipIdx.foldl (fun u p => u.writeMem
      (s.nat (Obj.feRingBase i) + 64 + 16 * (((s.feIsland i).tail + p.2) % n)) (leBytes 16 p.1)) s).writeMem
        (s.nat (Obj.feRingBase i)) (leBytes 4 tail)).updFeIsland i fun x => { x with queue := rest, tail := tail, gap := false })) ∧
  (∀ (s : State) (i : Fin 2), (s.feIsland i).powered = false → exec (.feQueueFlush i) s = .next s) ∧
  (∀ (s : State) (i : Fin 2), (s.feIsland i).powered = true → s.nat (Obj.feRingBase i) = maxU 32 →
    exec (.feQueueFlush i) s = .next (s.updFeIsland i fun x => { x with queue := [], gap := true })) ∧
  (∀ (s : State) (i : Fin 2) (head : Nat), (s.feIsland i).powered = true → s.nat (Obj.feRingBase i) ≠ maxU 32 →
    head = s.feHead i % max (s.feSlots i) 1 →
    exec (.feQueueFlush i) s = .next ((s.writeMem (s.nat (Obj.feRingBase i)) (leBytes 4 head)).updFeIsland i fun x =>
      { x with queue := [], gap := true, tail := head })) ∧
  (∀ (s : State) (k : Fin 64), exec (.chTest k) s = .next (startTest k s)) ∧
  (∀ (s : State) (k : Fin 64) (m1 m2 : Int), (s.conv (s.nat (Obj.chConverter k))).test = none → exec (.chTestDone k m1 m2) s = .next s) ∧
  (∀ (s : State) (k : Fin 64) (m1 m2 : Int) (c t : Nat), (s.conv (s.nat (Obj.chConverter k))).test = some (c, t) →
    exec (.chTestDone k m1 m2) s = .next (if c ≠ k.val ∨ s.now < t + us 84 then s else convFree (s.nat (Obj.chConverter k)) (t + us 84)
      ((takeTest k m1 m2 s).updConv (s.nat (Obj.chConverter k)) fun x => { x with test := none, state := .idle })))

/-! ### Chapter 13: the dictionary protocol -/

/-- Requests that any packet may make, reads and descriptions (R553, R555, R564, R766): DISCOVER answers the identity block, NOP its own
payload, READ the value in effect of an entry the asker may read, its text where it is one of at most 1,440 bytes, and for a longer one
LENGTH with the size; an entry without value its highest subindex; one that is write only, not there or not permitted its error.
READ_DESC answers the entry's description, or its error. Choices of the model it rests on: log entry 71. -/
def Obligations.ReadingRequests : Prop :=
  (∀ (s t : State) (q : Kdp), Accepted 0x01 q s t →
    exec (.discover q) s = .next (conclude 0x01 q (sessionOf q) (answers t.identityBlock t))) ∧
  (∀ (s t : State) (q : Kdp), Accepted 0x03 q s t →
    exec (.nop q) s = .next (conclude 0x03 q (sessionOf q) (answers q.payload t))) ∧
  (∀ (s t : State) (q : Kdp) (r : Row), Accepted 0x04 q s t → (t.ask q).entry true t = .ok (.row r) → r.access ≠ .wo → r.size ≠ 0 →
    exec (.read q) s = .next (conclude 0x04 q (sessionOf q) (answers
      ((t.ask q).head r.ty.code ++ wireBytes r.size (t.view q.index q.sub).1) (readClears q.index q.sub (t.view q.index q.sub).2)))) ∧
  (∀ (s t : State) (q : Kdp) (r : Row) (b : Bytes), Accepted 0x04 q s t → (t.ask q).entry true t = .ok (.row r) → r.access ≠ .wo →
    r.size = 0 → b = t.blobView q.index q.sub →
    exec (.read q) s = .next (conclude 0x04 q (sessionOf q) (if r.ty = .str ∧ b.length ≤ 1440 then answers ((t.ask q).head r.ty.code ++ b) t
      else (t.ask q).fails t ⟨0x0E, b.length⟩))) ∧
  (∀ (s t : State) (q : Kdp), Accepted 0x04 q s t → (t.ask q).entry true t = .ok .top →
    exec (.read q) s = .next (conclude 0x04 q (sessionOf q) (answers ((t.ask q).head 2 ++ leBytes 1 (highestSub q.index)) t))) ∧
  (∀ (s t : State) (q : Kdp) (r : Row), Accepted 0x04 q s t → (t.ask q).entry true t = .ok (.row r) → r.access = .wo →
    exec (.read q) s = .next (conclude 0x04 q (sessionOf q) ((t.ask q).fails t ⟨0x05, 0⟩))) ∧
  (∀ (s t : State) (q : Kdp) (e : Err), Accepted 0x04 q s t → (t.ask q).entry true t = .error e →
    exec (.read q) s = .next (conclude 0x04 q (sessionOf q) ((t.ask q).fails t e))) ∧
  (∀ (s t : State) (q : Kdp) (e : Entry), Accepted 0x06 q s t → (t.ask q).entry false t = .ok e →
    exec (.readDesc q) s = .next (conclude 0x06 q (sessionOf q) (answers (t.descPayload q.index q.sub e) t))) ∧
  (∀ (s t : State) (q : Kdp) (e : Err), Accepted 0x06 q s t → (t.ask q).entry false t = .error e →
    exec (.readDesc q) s = .next (conclude 0x06 q (sessionOf q) ((t.ask q).fails t e)))

/-- Writing requests (R26, R27, R553, R560, R562, R563): a WRITE of an ST entry with a group is staged in it unless the group is full,
without one it is committed alone, and a WRITE of another entry takes effect or answers what refuses it; one that is not there, read
only, in a group where it may not be, too long, not of its type, in transfer, or out of range answers its error. A COMMIT of an
accepted group enters it and a rejected one empties the group, or keeps it where it is only busy; DISCARD empties it; a group number
other than 1 to 15 is wrong. COMMIT_STATUS tells whether a COMMIT_ID waits, has entered, or was never given. Choices of the model it
rests on: log entries 29, 53 and 69. -/
def Obligations.WritingRequests : Prop :=
  (∀ (s t : State) (q : Kdp) (e : Err), Accepted 0x05 q s t → (t.ask q).entry false t = .error e →
    exec (.write q) s = .next (conclude 0x05 q (sessionOf q) ((t.ask q).fails t e))) ∧
  (∀ (s t : State) (q : Kdp), Accepted 0x05 q s t → (t.ask q).entry false t = .ok .top →
    exec (.write q) s = .next (conclude 0x05 q (sessionOf q) ((t.ask q).fails t ⟨if 15 < q.byte 3 then 0x0D else 0x04, 0⟩))) ∧
  (∀ (s t : State) (q : Kdp) (r : Row), Accepted 0x05 q s t → (t.ask q).entry false t = .ok (.row r) →
    15 < q.byte 3 ∨ r.access = .ro ∨ (q.byte 3 ≠ 0 ∧ r.access ≠ .st) →
    exec (.write q) s = .next (conclude 0x05 q (sessionOf q)
      ((t.ask q).fails t ⟨if 15 < q.byte 3 then 0x0D else if r.access = .ro then 0x04 else 0x0D, 0⟩))) ∧
  (∀ (s t : State) (q : Kdp) (r : Row), Accepted 0x05 q s t → (t.ask q).entry false t = .ok (.row r) →
    q.byte 3 ≤ 15 → r.access ≠ .ro → q.byte 3 = 0 ∨ r.access = .st → r.ty = .domain ∨ 1440 < (q.payload.drop 4).length →
    exec (.write q) s = .next (conclude 0x05 q (sessionOf q) ((t.ask q).fails t ⟨0x0E, (q.payload.drop 4).length⟩))) ∧
  (∀ (s t : State) (q : Kdp) (r : Row) (e : Err), Accepted 0x05 q s t → (t.ask q).entry false t = .ok (.row r) →
    q.byte 3 ≤ 15 → r.access ≠ .ro → q.byte 3 = 0 ∨ r.access = .st → r.ty ≠ .domain → (q.payload.drop 4).length ≤ 1440 →
    parseValue r (q.payload.drop 4) = .error e →
    exec (.write q) s = .next (conclude 0x05 q (sessionOf q) ((t.ask q).fails t e))) ∧
  (∀ (s t : State) (q : Kdp) (r : Row) (v : Int), Accepted 0x05 q s t → (t.ask q).entry false t = .ok (.row r) →
    q.byte 3 ≤ 15 → r.access ≠ .ro → q.byte 3 = 0 ∨ r.access = .st → r.ty ≠ .domain → (q.payload.drop 4).length ≤ 1440 →
    parseValue r (q.payload.drop 4) = .ok (.num v) →
    (t.kdps.transfers.any fun x => x.key == q.index * 256 + q.sub && !x.out) = true →
    exec (.write q) s = .next (conclude 0x05 q (sessionOf q) ((t.ask q).fails t ⟨0x0A, 0⟩))) ∧
  (∀ (s t : State) (q : Kdp) (r : Row) (v : Int), Accepted 0x05 q s t → (t.ask q).entry false t = .ok (.row r) →
    q.byte 3 ≤ 15 → r.access ≠ .ro → q.byte 3 = 0 ∨ r.access = .st → r.ty ≠ .domain → (q.payload.drop 4).length ≤ 1440 →
    parseValue r (q.payload.drop 4) = .ok (.num v) →
    (t.kdps.transfers.any fun x => x.key == q.index * 256 + q.sub && !x.out) = false → q.index ≠ 0x2000 →
    r.accepts v = false ∨ fieldsOk q.index q.sub v.toNat = false →
    exec (.write q) s = .next (conclude 0x05 q (sessionOf q) ((t.ask q).fails t ⟨0x07, 0⟩))) ∧
  (∀ (s t : State) (q : Kdp) (r : Row) (v : Int), Accepted 0x05 q s t → (t.ask q).entry false t = .ok (.row r) → r.access = .st →
    q.byte 3 ≤ 15 → r.ty ≠ .domain → (q.payload.drop 4).length ≤ 1440 → parseValue r (q.payload.drop 4) = .ok (.num v) →
    (t.kdps.transfers.any fun x => x.key == q.index * 256 + q.sub && !x.out) = false →
    r.accepts v = true → fieldsOk q.index q.sub v.toNat = true →
    exec (.write q) s = .next (conclude 0x05 q (sessionOf q)
      (if q.byte 3 = 0 then commitOne (t.ask q) (q.index * 256 + q.sub) (.num v) t
       else if t.groupFull q.owner (q.byte 3) (q.index * 256 + q.sub) r.size then (t.ask q).fails t ⟨0x0D, 0⟩
       else answers ((t.ask q).head (q.byte 3)) (stage q.owner (q.byte 3) (q.index * 256 + q.sub) (.value (.num v)) t)))) ∧
  (∀ (s t : State) (q : Kdp) (r : Row) (v : Int), Accepted 0x05 q s t → (t.ask q).entry false t = .ok (.row r) →
    r.access ≠ .st → r.access ≠ .ro → q.byte 3 = 0 → r.ty ≠ .domain → (q.payload.drop 4).length ≤ 1440 →
    parseValue r (q.payload.drop 4) = .ok (.num v) →
    (t.kdps.transfers.any fun x => x.key == q.index * 256 + q.sub && !x.out) = false →
    r.accepts v = true → fieldsOk q.index q.sub v.toNat = true →
    exec (.write q) s = .next (conclude 0x05 q (sessionOf q)
      (match writeOwn (t.actorOf q) (t.roleOf q) q.index q.sub v t with
        | .error e => (t.ask q).fails t e
        | .ok d => match d.refused with
          | some e => (t.ask q).fails d.state e
          | none => { answer := .ok ((t.ask q).head 0), state := d.state, after := d.after }))) ∧
  (∀ (s t : State) (q : Kdp), Accepted 0x07 q s t → q.byte 0 = 0 ∨ 15 < q.byte 0 →
    exec (.commit q) s = .next (conclude 0x07 q (sessionOf q) (fails t ⟨0x0D, 0⟩))) ∧
  (∀ (s t : State) (q : Kdp), Accepted 0x07 q s t → 1 ≤ q.byte 0 → q.byte 0 ≤ 15 →
    exec (.commit q) s = .next (conclude 0x07 q (sessionOf q)
      (match tryCommit (((t.stagedGroup q.owner (q.byte 0)).map StagedGroup.members).getD []) t with
        | .accepted b id u => answers (leBytes 1 (q.byte 0) ++ commitFields b id) (emptyGroup q.owner (q.byte 0) u)
        | .rejected k e keeps =>
          { answer := .fail (k / 256) (k % 256) e, state := if keeps then t else emptyGroup q.owner (q.byte 0) t }))) ∧
  (∀ (s t : State) (q : Kdp), Accepted 0x08 q s t →
    exec (.discard q) s = .next (conclude 0x08 q (sessionOf q) (if q.byte 0 = 0 ∨ 15 < q.byte 0 then fails t ⟨0x0D, 0⟩
      else answers (leBytes 1 (q.byte 0)) (emptyGroup q.owner (q.byte 0) t)))) ∧
  (∀ (s t : State) (q : Kdp), Accepted 0x09 q s t →
    exec (.commitStatus q) s = .next (conclude 0x09 q (sessionOf q) (answers (leBytes 2 (q.word 0 2) ++
      leBytes 1 (if t.groupsWaiting.any fun g => g.id == q.word 0 2 then 0 else if t.issued (q.word 0 2) then 1 else 2)) t)))

/-- Segmented transfers (R565 to R568): SEG_INIT of an entry that may be read or written opens one, with a snapshot of what is read, or
answers its error; a segment of the right length is stored once and acknowledged, and a segment of a read is sent; SEG_END of a
complete transfer compares the CRC, ends a transfer from the Penori, applies one to it, and discards one whose bytes differ; SEG_ABORT,
and the time a transfer stays unused, discard it. What names no transfer, or none that fits, answers its error. Choices of the model it
rests on: log entry 7. -/
def Obligations.SegmentedTransfers : Prop :=
  (∀ (s t : State) (q : Kdp) (e : Err), Accepted 0x0A q s t → (t.ask q).entry (q.byte 4 == 1) t = .error e →
    exec (.segInit q) s = .next (conclude 0x0A q (sessionOf q) ((t.ask q).fails t e))) ∧
  (∀ (s t : State) (q : Kdp), Accepted 0x0A q s t → (t.ask q).entry (q.byte 4 == 1) t = .ok .top →
    exec (.segInit q) s = .next (conclude 0x0A q (sessionOf q) ((t.ask q).fails t ⟨if q.byte 4 = 0 then 0x04 else 0x07, 0⟩))) ∧
  (∀ (s t : State) (q : Kdp) (r : Row), Accepted 0x0A q s t → (t.ask q).entry (q.byte 4 == 1) t = .ok (.row r) → 1 < q.byte 4 →
    exec (.segInit q) s = .next (conclude 0x0A q (sessionOf q) ((t.ask q).fails t ⟨0x07, 0⟩))) ∧
  (∀ (s t : State) (q : Kdp) (r : Row), Accepted 0x0A q s t → (t.ask q).entry true t = .ok (.row r) → q.byte 4 = 1 →
    r.access = .wo ∨ 4 ≤ t.kdps.transfers.length ∨ (t.kdps.transfers.any fun x => x.key == q.index * 256 + q.sub) = true →
    exec (.segInit q) s = .next (conclude 0x0A q (sessionOf q) ((t.ask q).fails t ⟨if r.access = .wo then 0x05 else 0x0A, 0⟩))) ∧
  (∀ (s t u : State) (q : Kdp) (r : Row) (b : Bytes), Accepted 0x0A q s t → (t.ask q).entry true t = .ok (.row r) → q.byte 4 = 1 → r.access ≠ .wo →
    t.kdps.transfers.length < 4 → (t.kdps.transfers.any fun x => x.key == q.index * 256 + q.sub) = false →
    b = (if r.size = 0 then t.blobView q.index q.sub else wireBytes r.size (t.view q.index q.sub).1) →
    u = (if r.size = 0 then t else readClears q.index q.sub (t.view q.index q.sub).2) →
    exec (.segInit q) s = .next (conclude 0x0A q (sessionOf q) (answers (leBytes 2 t.kdps.nextTransfer ++
      leBytes 1 (u.nat Obj.segWindow) ++ [0] ++ leBytes 4 b.length)
      { u with kdps := { u.kdps with
        transfers := u.kdps.transfers ++ [{ num := t.kdps.nextTransfer, key := q.index * 256 + q.sub, owner := q.owner, group := q.byte 3,
                                            out := true, total := b.length, data := b, used := u.now }],
        nextTransfer := t.kdps.nextTransfer % 255 + 1 } }))) ∧
  (∀ (s t : State) (q : Kdp) (r : Row), Accepted 0x0A q s t → (t.ask q).entry false t = .ok (.row r) → q.byte 4 = 0 →
    15 < q.byte 3 ∨ (q.byte 3 ≠ 0 ∧ r.access ≠ .st) →
    exec (.segInit q) s = .next (conclude 0x0A q (sessionOf q) ((t.ask q).fails t ⟨0x0D, 0⟩))) ∧
  (∀ (s t : State) (q : Kdp) (r : Row), Accepted 0x0A q s t → (t.ask q).entry false t = .ok (.row r) → q.byte 4 = 0 →
    q.byte 3 ≤ 15 → q.byte 3 = 0 ∨ r.access = .st → r.access = .ro ∨ (r.ty ≠ .domain ∧ r.access ≠ .st) →
    exec (.segInit q) s = .next (conclude 0x0A q (sessionOf q) ((t.ask q).fails t ⟨0x04, 0⟩))) ∧
  (∀ (s t u : State) (q : Kdp) (r : Row), Accepted 0x0A q s t → (t.ask q).entry false t = .ok (.row r) → q.byte 4 = 0 →
    q.byte 3 ≤ 15 → q.byte 3 = 0 ∨ r.access = .st → r.access ≠ .ro → r.ty = .domain ∨ r.access = .st →
    u = (if q.byte 3 = 0 then t else stage q.owner (q.byte 3) (q.index * 256 + q.sub) .incomplete t) →
    exec (.segInit q) s = .next (conclude 0x0A q (sessionOf q)
      (if 4 ≤ t.kdps.transfers.length ∨ (t.kdps.transfers.any fun x => x.key == q.index * 256 + q.sub) = true then (t.ask q).fails t ⟨0x0A, 0⟩
       else if (∃ n, fixedSize q.index q.sub r = some n ∧ n ≠ q.word 8 4) then
         (t.ask q).fails t ⟨0x11, (fixedSize q.index q.sub r).getD 0⟩
       else if q.byte 3 ≠ 0 ∧ t.groupFull q.owner (q.byte 3) (q.index * 256 + q.sub) 0 = true then (t.ask q).fails t ⟨0x0D, 0⟩
       else answers (leBytes 2 t.kdps.nextTransfer ++ leBytes 1 (u.nat Obj.segWindow) ++ [0] ++ leBytes 4 (q.word 8 4))
         { u with kdps := { u.kdps with
           transfers := u.kdps.transfers ++ [{ num := t.kdps.nextTransfer, key := q.index * 256 + q.sub, owner := q.owner, group := q.byte 3,
                                               out := false, total := q.word 8 4, used := u.now }],
           nextTransfer := t.kdps.nextTransfer % 255 + 1 } }))) ∧
  (∀ (s t : State) (q : Kdp), Accepted 0x0B q s t → (t.ask q).transfer t = none →
    exec (.segData q) s = .next (conclude 0x0B q (sessionOf q) (fails t ⟨0x0F, 0⟩))) ∧
  (∀ (s t : State) (q : Kdp) (x : Transfer), Accepted 0x0B q s t → (t.ask q).transfer t = some x → x.count ≤ q.word 4 4 →
    exec (.segData q) s = .next (conclude 0x0B q (sessionOf q) (fails t ⟨0x0F, 0⟩))) ∧
  (∀ (s t : State) (q : Kdp) (x : Transfer) (k : Nat), Accepted 0x0B q s t → (t.ask q).transfer t = some x → x.out = true →
    q.word 4 4 = k → k < x.count →
    exec (.segData q) s = .next (conclude 0x0B q (sessionOf q) (if q.payload.drop 8 = [] then
      answers (leBytes 2 x.num ++ [0, 0] ++ leBytes 4 k ++ ((x.data.drop (1440 * k)).take 1440))
        (updTransfer x.num (fun y => { y with used := t.now, acked := k :: y.acked.filter (· != k) }) t)
      else fails t ⟨0x06, 8⟩))) ∧
  (∀ (s t : State) (q : Kdp) (x : Transfer) (k : Nat), Accepted 0x0B q s t → (t.ask q).transfer t = some x → x.out = false →
    q.word 4 4 = k → k < x.count →
    exec (.segData q) s = .next (conclude 0x0B q (sessionOf q) (if (q.payload.drop 8).length = x.length k then
      answers (leBytes 2 x.num ++ [0, 0] ++ leBytes 4 k)
        (updTransfer x.num (fun y => if y.acked.contains k then { y with used := t.now }
          else { y with used := t.now, acked := k :: y.acked, segs := Table.set [] y.segs k (q.payload.drop 8) }) t)
      else fails (updTransfer x.num (fun y => { y with used := t.now }) t) ⟨0x11, x.length k⟩))) ∧
  (∀ (s t : State) (q : Kdp), Accepted 0x0C q s t → (t.ask q).transfer t = none →
    exec (.segEnd q) s = .next (conclude 0x0C q (sessionOf q) (fails t ⟨0x0F, 0⟩))) ∧
  (∀ (s t u : State) (q : Kdp) (x : Transfer), Accepted 0x0C q s t → (t.ask q).transfer t = some x →
    u = updTransfer x.num (fun y => { y with used := t.now }) t → q.payload.length ≠ (if x.out then 4 else 8) ∨ x.complete = false →
    exec (.segEnd q) s = .next (conclude 0x0C q (sessionOf q)
      (fails u (if q.payload.length ≠ (if x.out then 4 else 8) then ⟨0x06, if x.out then 4 else 8⟩ else ⟨0x0F, 0⟩)))) ∧
  (∀ (s t : State) (q : Kdp) (x : Transfer), Accepted 0x0C q s t → (t.ask q).transfer t = some x → x.out = true →
    q.payload.length = 4 → x.complete = true →
    exec (.segEnd q) s = .next (conclude 0x0C q (sessionOf q) (answers (leBytes 2 x.num ++ [0, 0] ++ leBytes 4 (crc32c x.data))
      (endTransfer x.num (updTransfer x.num (fun y => { y with used := t.now }) t))))) ∧
  (∀ (s t u : State) (q : Kdp) (x : Transfer), Accepted 0x0C q s t → (t.ask q).transfer t = some x → x.out = false →
    q.payload.length = 8 → x.complete = true → u = updTransfer x.num (fun y => { y with used := t.now }) t →
    exec (.segEnd q) s = .next (conclude 0x0C q (sessionOf q)
      (if q.word 4 4 = crc32c x.bytes then applyTransfer (t.ask q) x (crc32c x.bytes) u
       else { answer := .fail (x.key / 256) (x.key % 256) ⟨0x10, crc32c x.bytes⟩, state := dropTransfer x u }))) ∧
  (∀ (s t : State) (q : Kdp), Accepted 0x0D q s t → exec (.segAbort q) s = .next (conclude 0x0D q (sessionOf q)
    (match (t.ask q).transfer t with
      | some x => answers (leBytes 2 x.num) (dropTransfer x t)
      | none => fails t ⟨0x0F, 0⟩))) ∧
  (∀ (s : State) (n : BitVec 8), (s.kdps.transfers.find? fun t => t.num == n.toNat) = none → exec (.segTimeout n) s = .next s) ∧
  (∀ (s : State) (n : BitVec 8) (x : Transfer), (s.kdps.transfers.find? fun t => t.num == n.toNat) = some x →
    exec (.segTimeout n) s = .next (if x.used + ms (s.nat Obj.segTimeout) ≤ s.now then dropTransfer x s else s))

/-- Sessions and events (R563, R572 to R574, R577): SESSION_OPEN of a role that may be opened answers a session number and a nonce, and
else why not; SESSION_AUTH opens the session whose host proof is right, and a wrong proof, or a role without a key, fails it;
SESSION_CLOSE and the time a session stays unused close it; SUBSCRIBE empties the event queues of its routes for the new subscriber;
EVENT_ACK of the subscriber frees the events up to its number; an event not acknowledged is sent again, by mailbox with its vector,
while the block talks. Choices of the model it rests on: log entries 39, 41, 45, 53, 54, 61, 100 and 101. -/
def Obligations.SessionsAndEvents : Prop :=
  (∀ (s t : State) (q : Kdp), Accepted 0x10 q s t → q.byte 0 = 0 ∨ 4 < q.byte 0 →
    exec (.sessionOpen q) s = .next (conclude 0x10 q (sessionOf q) (fails t ⟨0x07, 0⟩))) ∧
  (∀ (s t : State) (q : Kdp), Accepted 0x10 q s t → 1 ≤ q.byte 0 → q.byte 0 ≤ 4 → t.lockoutLeft q.source ≠ 0 →
    exec (.sessionOpen q) s = .next (conclude 0x10 q (sessionOf q) (fails t ⟨0x13, t.lockoutLeft q.source⟩))) ∧
  (∀ (s t : State) (q : Kdp), Accepted 0x10 q s t → q.byte 0 = 4 → t.lockoutLeft q.source = 0 →
    t.flag Obj.vendorServiceEnable = false ∨ t.flag Obj.approvedModeLock = true →
    exec (.sessionOpen q) s = .next (conclude 0x10 q (sessionOf q) (fails t ⟨0x07, 0⟩))) ∧
  (∀ (s t : State) (q : Kdp), Accepted 0x10 q s t → 1 ≤ q.byte 0 → q.byte 0 ≤ 4 → t.lockoutLeft q.source = 0 →
    q.byte 0 ≠ 4 ∨ (t.flag Obj.vendorServiceEnable = true ∧ t.flag Obj.approvedModeLock = false) →
    islandError t ≠ none ∨ (q.byte 0 ≠ 3 ∧ t.auditRoom = false) ∨ 8 ≤ t.kdps.sessions.length →
    exec (.sessionOpen q) s = .next (conclude 0x10 q (sessionOf q)
      (fails t (match islandError t with | some e => errOf t e | none => ⟨0x0A, 0⟩)))) ∧
  (∀ (s t u : State) (q : Kdp) (x : Session) (num : Nat) (nonce : Bytes), Accepted 0x10 q s t → 1 ≤ q.byte 0 → q.byte 0 ≤ 4 →
    t.lockoutLeft q.source = 0 → q.byte 0 ≠ 4 ∨ (t.flag Obj.vendorServiceEnable = true ∧ t.flag Obj.approvedModeLock = false) →
    islandError t = none → q.byte 0 = 3 ∨ t.auditRoom = true → t.kdps.sessions.length < 8 →
    num = t.freeSession 8 t.kdps.nextSession → nonce = (Config.random t.sec.draws).take 32 →
    x = { num := num, mailbox := q.mailbox, src := q.src, role := q.byte 0, hostNonce := (q.payload.drop 4).take 32,
          devNonce := nonce, used := t.now } →
    u = { t with sec := { t.sec with draws := t.sec.draws + 1 },
                 kdps := { t.kdps with sessions := t.kdps.sessions ++ [x], nextSession := num % 65535 + 1 } } →
    exec (.sessionOpen q) s = .next (conclude 0x10 q (sessionOf q)
      { answer := .ok ([0, 0, 0, 0] ++ nonce), state := u, session := some num })) ∧
  (∀ (s t : State) (q : Kdp), Accepted 0x11 q s t →
    (t.kdps.sessions.find? fun x => x.num == q.session.toNat && !x.opened && x.mailbox == q.mailbox && x.src == q.src) = none →
    exec (.sessionAuth q) s = .next (conclude 0x11 q (sessionOf q) (fails t ⟨0x12, 0⟩))) ∧
  (∀ (s t : State) (q : Kdp) (x : Session), Accepted 0x11 q s t →
    (t.kdps.sessions.find? fun x => x.num == q.session.toNat && !x.opened && x.mailbox == q.mailbox && x.src == q.src) = some x →
    islandError t ≠ none ∨ (x.role ≠ 3 ∧ t.auditRoom = false) →
    exec (.sessionAuth q) s = .next (conclude 0x11 q (sessionOf q)
      (fails t (match islandError t with | some e => errOf t e | none => ⟨0x0A, 0⟩)))) ∧
  (∀ (s t : State) (q : Kdp) (x : Session), Accepted 0x11 q s t →
    (t.kdps.sessions.find? fun x => x.num == q.session.toNat && !x.opened && x.mailbox == q.mailbox && x.src == q.src) = some x →
    islandError t = none → x.role = 3 ∨ t.auditRoom = true →
    exec (.sessionAuth q) s = .next (conclude 0x11 q (sessionOf q) (match t.roleKey x.role with
      | none => proofFails (t.ask q) x t
      | some key => if proofOf "KDP-H" key x t = q.payload.take 48 then
          { answer := .ok (proofOf "KDP-D" key x t),
            state := audit 0x04 ⟨x.role, q.src, x.num⟩ 0 0 0 (leBytes 1 x.role ++ x.hostNonce.take 8) (x.role == 3) t,
            after := openSession x key, session := some x.num }
        else proofFails (t.ask q) x t))) ∧
  (∀ (s t : State) (q : Kdp), Accepted 0x12 q s t → exec (.sessionClose q) s = .next (conclude 0x12 q (sessionOf q)
    { answer := .ok [], state := t, after := fun v => if q.auth then closeSession q.session.toNat v else v })) ∧
  (∀ (s : State) (n : BitVec 16), s.session n.toNat = none → exec (.sessionTimeout n) s = .next s) ∧
  (∀ (s : State) (n : BitVec 16) (x : Session), s.session n.toNat = some x →
    exec (.sessionTimeout n) s = .next (if x.used + ms (1000 * s.nat Obj.sessionTimeout) ≤ s.now then closeSession x.num s else s)) ∧
  (∀ (s t : State) (q : Kdp), Accepted 0x13 q s t → 3 < q.byte 0 →
    exec (.subscribe q) s = .next (conclude 0x13 q (sessionOf q) (fails t ⟨0x07, 0⟩))) ∧
  (∀ (s t u : State) (q : Kdp) (r : EventRoute), Accepted 0x13 q s t → q.byte 0 ≤ 3 →
    r = { subscriber := some (q.src, sessionOf q), least := q.byte 1, sent := t.now } →
    u = { t with kdps := { t.kdps with net := if q.byte 0 = 1 ∨ q.byte 0 = 3 then r else t.kdps.net,
                                       mail := if q.byte 0 = 2 ∨ q.byte 0 = 3 then r else t.kdps.mail } } →
    exec (.subscribe q) s = .next (conclude 0x13 q (sessionOf q) (answers (leBytes 4 0) (noteSubscribers u)))) ∧
  (∀ (s t : State) (q : Kdp), Accepted 0x21 q s t → q.mailbox = false →
    t.kdps.net.subscriber = some (q.src, sessionOf q) ∨ (t.kdps.net.subscriber = none ∧ q.auth = false) →
    exec (.eventAck q) s = .next { t with kdps := { t.kdps with net := t.kdps.net.free (q.word 0 4) } }) ∧
  (∀ (s t : State) (q : Kdp), Accepted 0x21 q s t → q.mailbox = true →
    t.kdps.mail.subscriber = some (q.src, sessionOf q) ∨ (t.kdps.mail.subscriber = none ∧ q.auth = false) →
    exec (.eventAck q) s = .next { t with kdps := { t.kdps with mail := t.kdps.mail.free (q.word 0 4) } }) ∧
  (∀ (s t : State) (q : Kdp) (r : EventRoute), Accepted 0x21 q s t → r = (if q.mailbox then t.kdps.mail else t.kdps.net) →
    (∃ x, r.subscriber = some x ∧ x ≠ (q.src, sessionOf q)) ∨ (r.subscriber = none ∧ q.auth = true) →
    exec (.eventAck q) s = .next t) ∧
  (∀ (s : State), s.kdps.net.queue = [] ∨ s.netTarget = none ∨ s.nat Obj.lockstepState = 2 ∨ s.mode.talks = false ∨
    s.now < s.kdps.net.sent + ms (s.nat Obj.eventRetry) → exec (.eventRetry false) s = .next s) ∧
  (∀ (s : State), s.kdps.mail.queue = [] ∨ s.kdps.mail.subscriber = none ∨ s.nat Obj.lockstepState = 2 ∨ s.mode.talks = false ∨
    s.now < s.kdps.mail.sent + ms (s.nat Obj.eventRetry) → exec (.eventRetry true) s = .next s) ∧
  (∀ (s : State) (seq dst ses : Nat) (p : Bytes) (rest : List (Nat × Bytes)), s.kdps.net.queue = (seq, p) :: rest →
    s.netTarget = some (dst, ses) → s.nat Obj.lockstepState ≠ 2 → s.mode.talks = true →
    s.kdps.net.sent + ms (s.nat Obj.eventRetry) ≤ s.now →
    exec (.eventRetry false) s = .next (sendKdp false dst 0x20 0 ses 0 0 p
      { s with kdps := { s.kdps with net := { s.kdps.net with sent := s.now } } })) ∧
  (∀ (s : State) (seq dst ses : Nat) (p : Bytes) (rest : List (Nat × Bytes)), s.kdps.mail.queue = (seq, p) :: rest →
    s.kdps.mail.subscriber = some (dst, ses) → s.nat Obj.lockstepState ≠ 2 → s.mode.talks = true →
    s.kdps.mail.sent + ms (s.nat Obj.eventRetry) ≤ s.now →
    exec (.eventRetry true) s = .next (sendVector mgmtChan 2047 (sendKdp true dst 0x20 0 ses 0 0 p
      { s with kdps := { s.kdps with mail := { s.kdps.mail with sent := s.now } } })))

/-- Addressing, packets that are not served, and the field network's link (R546, R548, R549, R552, R553, R555, R556, R560, R562, R564,
R565, R573, R574, R586, R766): an assignment to an enumerated node without address that names 1 to 30 is noted for 2 ms later and then
taken, unless another node is seen to have the address; bit 0 gives an address up in the modes that may; an assignment of its own
address to a locked node answers so, and others pass it by. ENUM_IN arms ENUM_OUT of a node whose address is locked, and ENUM_OUT
follows when it is due. A known opcode with a payload of the wrong length, or without a session it needs, answers its error, a repeated
request its kept answer, and an unknown opcode is answered so; a malformed packet is counted where packets are taken; a link fault
stops the beacon, told and reported. Choices of the model it rests on: log entries 32, 53, 54 and 56. -/
def Obligations.AddressingAndMalformedPackets : Prop :=
  (∀ (s t : State) (q : Kdp), Accepted 0x02 q s t → bitAt (q.byte 1) 0 = false → t.addressLocked = false → t.nat Obj.nodeAddress = 0 →
    t.kdps.addr.enumIn = true → 1 ≤ q.byte 0 → q.byte 0 ≤ 30 →
    exec (.assignAddress q) s = .next { t with kdps := { t.kdps with addr :=
      { t.kdps.addr with assign := some (q.byte 0, t.now + ms 2, q.seq.toNat, q.src, q.mailbox) } } }) ∧
  (∀ (s t : State) (q : Kdp), Accepted 0x02 q s t → bitAt (q.byte 1) 0 = false → t.addressLocked = false →
    t.nat Obj.nodeAddress ≠ 0 ∨ t.kdps.addr.enumIn = false ∨ q.byte 0 = 0 ∨ 30 < q.byte 0 → exec (.assignAddress q) s = .next t) ∧
  (∀ (s t : State) (q : Kdp), Accepted 0x02 q s t → bitAt (q.byte 1) 0 = false → t.addressLocked = true →
    exec (.assignAddress q) s = .next (if t.nat Obj.nodeAddress = q.byte 0 then
      conclude 0x02 q (sessionOf q) (fails t ⟨0x16, q.byte 0⟩) else t)) ∧
  (∀ (s t : State) (q : Kdp), Accepted 0x02 q s t → bitAt (q.byte 1) 0 = true →
    exec (.assignAddress q) s = .next (
      if t.addressLocked = true ∨ (t.mode ≠ .boot ∧ t.mode ≠ .configure ∧ t.mode ≠ .idleReady ∧ t.mode ≠ .maintenance) then t
      else let u := (t.setReg Obj.nodeAddress 0).setReg Obj.addressSource 0
        driveEnumOut false { u with kdps := { u.kdps with addr := { u.kdps.addr with enumOutAt := none, assign := none } } })) ∧
  (∀ (s : State), s.kdps.addr.assign = none → exec .addressTake s = .next s) ∧
  (∀ (s : State) (addr due seq src : Nat) (mailbox : Bool), s.kdps.addr.assign = some (addr, due, seq, src, mailbox) →
    exec .addressTake s = .next (if due ≤ s.now then takeAddress addr seq src mailbox s else s)) ∧
  (∀ (s : State) (a : BitVec 8) (p : Nat × Nat × Nat × Nat × Bool), s.nat Obj.nodeAddress = 0 → s.kdps.addr.enumIn = true →
    s.kdps.addr.assign = some p → exec (.addressInUseSeen a) s =
      .next (if p.1 = a.toNat then s.updAddr fun x => { x with assign := none } else s)) ∧
  (∀ (s : State) (a : BitVec 8), s.nat Obj.nodeAddress ≠ 0 ∨ s.kdps.addr.enumIn = false ∨ s.kdps.addr.assign = none →
    exec (.addressInUseSeen a) s = .next s) ∧
  (∀ (s : State), s.kdps.addr.enumOutAt = none → exec .enumOutAssert s = .next s) ∧
  (∀ (s : State) (due : Nat), s.kdps.addr.enumOutAt = some due →
    exec .enumOutAssert s = .next (if due ≤ s.now ∧ s.nat Obj.nodeAddress ≠ 0 ∧ s.kdps.addr.enumIn = true then
      driveEnumOut true (s.updAddr fun a => { a with enumOutAt := none }) else s)) ∧
  (∀ (s u : State), u = s.updAddr (fun a => { a with enumIn := true }) → exec .enumInAssert s =
    .next (if s.mode = .off then s else if u.addressLocked then armEnumOut u else u)) ∧
  (∀ (s t : State) (q : Kdp) (op n : Nat), Reaches op q s → Admitted q s t → opcodeKnown op = true → lengthError op q.payload = some n →
    receive op q s = if q.dst = 0xFF then t else refuse q op (sessionOf q) (if namesEntry op then q.index else 0)
      (if namesEntry op then q.sub else 0) ⟨0x06, n⟩ t) ∧
  (∀ (s t : State) (q : Kdp) (op : Nat), Reaches op q s → Admitted q s t → opcodeKnown op = true → lengthError op q.payload = none →
    t.roleOf q = 0 → openService op q = false → receive op q s = refuse q op (sessionOf q) (if namesEntry op then q.index else 0)
      (if namesEntry op then q.sub else 0) ⟨0x12, 0⟩ t) ∧
  (∀ (s t : State) (q : Kdp) (op : Nat) (k : Kept), Reaches op q s → Admitted q s t → opcodeKnown op = true → lengthError op q.payload = none →
    t.roleOf q ≠ 0 ∨ openService op q = true → q.retry = true →
    (t.kdps.kept.find? fun k => k.owner == q.owner && k.seq == q.seq.toNat) = some k →
    receive op q s = reply q k.op k.session k.error k.payload t) ∧
  (∀ (s : State) (q : Kdp), exec (.read q) s = .next (receive 0x04 q s) ∧ exec (.write q) s = .next (receive 0x05 q s) ∧
    exec (.readDesc q) s = .next (receive 0x06 q s) ∧ exec (.commit q) s = .next (receive 0x07 q s) ∧
    exec (.segInit q) s = .next (receive 0x0A q s) ∧ exec (.sessionOpen q) s = .next (receive 0x10 q s) ∧
    exec (.subscribe q) s = .next (receive 0x13 q s)) ∧
  (∀ (s t : State) (q : Kdp) (op : BitVec 8), opcodeKnown op.toNat = false → Reaches op.toNat q s → Admitted q s t →
    exec (.unknownOpcode q op) s = .next (refuse q op.toNat (sessionOf q) 0 0 ⟨0x01, 0⟩ t)) ∧
  (∀ (s : State) (q : Kdp) (op : BitVec 8), opcodeKnown op.toNat = true → exec (.unknownOpcode q op) s = .next s) ∧
  (∀ (s : State), exec .kdpMalformed s = .next (if s.mode.talks = true ∨ s.boot.recovery = true then s.count Obj.kdpMalformed else s)) ∧
  (∀ (s : State), exec .fnLinkFault s = .next (if s.nat Obj.nodeAddress = 0 ∨ s.mode.talks = false then s
    else (s.updAddr fun a => { a with beacon := false }).raiseFault .fnLinkFault [] Kind.fnLinkFault 2 0 2 (islandOf 16 0)))

/-- Time on the network (R581 to R583): a Sync of the master gives the offset, which disciplines the device time, and asks for the delay;
the answer to that gives the path delay, and an answer to none does nothing; a locked follower with no Sync for eight intervals is
unlocked; the edge of the PPS input is compared; the PPS output pulses with the second where it is enabled; a master that hears no
other sends its Sync when its interval is over. None of it happens in role 0 or in a mode that does not talk. Choices of the model it
rests on: log entry 55. -/
def Obligations.NetworkTime : Prop :=
  (∀ (s : State) (origin : Nat), s.nat Obj.ptpRole = 0 ∨ s.mode.talks = false → exec (.ptpSync origin) s = .next s) ∧
  (∀ (s u : State) (origin : Nat) (offset : Int), s.nat Obj.ptpRole ≠ 0 → s.mode.talks = true →
    offset = (s.dt : Int) - origin - s.nat Obj.ptpPathDelay →
    u = discipline offset (ptpJudge offset ((s.setReg Obj.ptpOffset offset).updPtp fun p =>
      { p with port := 9, ms := (s.dt : Int) - origin })) →
    exec (.ptpSync origin) s = .next ((u.updPtp fun p => { p with lastSync := u.now, t3 := some u.dt }).emit (.ptp 1 u.dt))) ∧
  (∀ (s : State) (stamp t3 : Nat), s.kdps.ptp.t3 = some t3 →
    exec (.ptpDelayResp stamp) s = .next (if s.kdps.ptp.port = 9 then (s.updPtp fun p => { p with t3 := none }).setReg Obj.ptpPathDelay
      ((s.kdps.ptp.ms + ((stamp : Int) - t3)) / 2).toNat else s)) ∧
  (∀ (s : State) (stamp : Nat), s.kdps.ptp.t3 = none → exec (.ptpDelayResp stamp) s = .next s) ∧
  (∀ (s : State), exec .ptpUnlock s = .next (
    if s.kdps.ptp.locked = true ∧ s.kdps.ptp.lastSync + 8 * s.syncInterval ≤ s.now then ptpLose s else s)) ∧
  (∀ (s : State) (stamp : Nat), exec (.ptpPpsIn stamp) s = .next (if s.mode.talks then
    s.setReg Obj.ppsInOffset ((((stamp + 500000000) % 1000000000 : Nat) : Int) - 500000000) else s)) ∧
  (∀ (s : State), exec .ptpPpsOut s = .next (
    if s.flag Obj.ppsOutEnable = true ∧ s.mode.talks = true ∧ s.now % 4000000000 = 0 then
      s.emits [.pin .ppsOut 0 true s.now, .pin .ppsOut 0 false (s.now + 4 * s.nat Obj.ppsWidth)] else s)) ∧
  (∀ (s : State), s.nat Obj.ptpRole = 2 → s.mode.talks = true →
    s.kdps.ptp.port ≠ 9 ∨ s.kdps.ptp.lastSync + 8 * s.syncInterval ≤ s.now →
    (∀ t, s.kdps.ptp.sentAt = some t → t + s.syncInterval ≤ s.now) →
    exec .ptpMasterSync s = .next ((s.updPtp fun p => { p with port := 6, sentAt := some s.now }).emit (.ptp 0 s.dt))) ∧
  (∀ (s : State), s.nat Obj.ptpRole ≠ 2 ∨ s.mode.talks = false ∨
    (s.kdps.ptp.port = 9 ∧ s.now < s.kdps.ptp.lastSync + 8 * s.syncInterval) ∨
    (∃ t, s.kdps.ptp.sentAt = some t ∧ s.now < t + s.syncInterval) → exec .ptpMasterSync s = .next s)

/-! ### Chapter 15: modes and power -/

/-- Mode requests (R362, R604, R606 to R613, R616, R618): a request of a role that may make it, in a mode that has the transition, starts
it, and one that is refused changes nothing; a transition whose conditions are met reaches its mode, and waits until they are. Choices
of the model it rests on: log entries 42, 44, 57 and 58. -/
def Obligations.ModeRequests : Prop :=
  (∀ (s : State) (r : Role) (f : Mode → State), (∀ m, f m = if modeError (roleCode r) m s = none then startMode m s else s) →
    exec (.modeRequestSentinel r) s = .next (f .sentinel) ∧ exec (.modeRequestConfigure r) s = .next (f .configure) ∧
    exec (.modeRequestCalibrate r) s = .next (f .calibrate) ∧ exec (.modeRequestIdleReady r) s = .next (f .idleReady) ∧
    exec (.modeRequestScan r) s = .next (f .scan) ∧ exec (.modeRequestStream r) s = .next (f .stream) ∧
    exec (.modeRequestHold r) s = .next (f .hold) ∧ exec (.modeRequestMaintenance r) s = .next (f .maintenance) ∧
    exec (.modeRequestSafeHalt r) s = .next (f .safeHalt)) ∧
  (∀ (s : State), s.target = none → exec .modeTransitionDone s = .next s) ∧
  (∀ (s : State) (m : Mode), s.target = some m →
    exec .modeTransitionDone s = .next (if s.transitionReady m then reachMode m s else s))

/-- Supplies, domains and rails (R604, R613, R618, R622, R625, R717, R723, R730): the standby supply in range powers up a Penori that is
off or has not begun, out of range it is Off; a domain that ramps is on, or fails, told and reported; a rail that ramps reads its
voltage, the next is raised during the start, and the domains follow the lamp rail; one that loses regulation is a fault, told and
reported, which for the lamp rail cuts the bands and for any other is a Safe Halt; an idle cluster that is not needed goes off after 10
ms. Each acts in its own state of the domain or rail and in no other. Choices of the model it rests on: log entries 2, 32, 58, 59, 64
and 75. -/
def Obligations.SuppliesDomainsAndRails : Prop :=
  (∀ (s : State) (record : Bool), exec (.standbyInRange record) s = .next (
    if s.mode = .off ∨ (s.mode = .sentinel ∧ s.boot.starting = true ∧ s.nat (Obj.railState 0) = 0) then
      powerUp (setStage 1 (standbyUp record s)) else s)) ∧
  (∀ (s u : State), u = persistent s → exec .standbyOutOfRange s =
    .next { u with mode := .off, target := none, boot := { u.boot with standby := false, starting := false, wake := false } }) ∧
  (∀ (s : State) (d : Fin 64), s.nat (Obj.domainState d) = 1 →
    exec (.domainOn d) s = .next (domainUp d (s.setReg (Obj.domainState d) 2)) ∧
    exec (.domainFault d) s = .next ((s.setReg (Obj.domainState d) 3).raiseFault .domainFault [d.val] Kind.domainFault 3 d 2 (islandOf 15 0))) ∧
  (∀ (s : State) (d : Fin 64), s.nat (Obj.domainState d) ≠ 1 → exec (.domainOn d) s = .next s ∧ exec (.domainFault d) s = .next s) ∧
  (∀ (s : State) (r : Fin 8), s.nat (Obj.railState r) ≠ 2 → exec (.railFault r) s = .next s) ∧
  (∀ (s : State) (r : Fin 8), s.nat (Obj.railState r) = 2 → r ≠ 7 →
    exec (.railFault r) s = .next (safeHalt 5 false (((s.setReg (Obj.railState r) 3).count (Obj.railFaults r)).raiseFault
      .railFault [r.val] Kind.railFault 4 r 2 (islandOf 15 0)))) ∧
  (∀ (s : State), s.nat (Obj.railState 7) = 2 →
    exec (.railFault 7) s = .next ((List.range 16).foldl (fun s b => if s.flag (Obj.bandEnable b) then disableBand b s else s)
      (((s.setReg (Obj.railState 7) 3).count (Obj.railFaults 7)).raiseFault .railFault [7] Kind.railFault 2 7 2 (islandOf 15 0)))) ∧
  (∀ (s : State) (r : Fin 8), s.nat (Obj.railState r) ≠ 1 → exec (.railRegulating r) s = .next s) ∧
  (∀ (s : State), s.nat (Obj.railState 7) = 1 → exec (.railRegulating 7) s = .next (domainsFollow s.mode
      ((s.setReg (Obj.railState 7) 2).setReg (Obj.railVoltage 7) (s.nat (Obj.railSetpoint 7) / 2 : Nat)))) ∧
  (∀ (s u : State) (r : Fin 8), s.nat (Obj.railState r) = 1 → r ≠ 7 →
    u = (s.setReg (Obj.railState r) 2).setReg (Obj.railVoltage r) (s.nat (Obj.railSetpoint r) / 2 : Nat) →
    exec (.railRegulating r) s = .next (
      if s.mode = .sentinel ∧ s.boot.starting = true ∧ s.boot.rail = r.val then raiseRails u else u)) ∧
  (∀ (s : State) (k : Fin 16), s.modeUnder = .scan ∨ s.modeUnder = .calibrate → s.nat (Obj.domainState (26 + k)) = 2 →
    s.clusterNeeded k = false →
    ((List.range 4).all fun i => (s.slice (4 * k + i)).current.isNone && (s.slice (4 * k + i)).waits.isEmpty) = true →
    Table.get 0 s.power.clusterUsed k + ms 10 ≤ s.now →
    exec (.clusterOff k) s = .next (domainDown (26 + k) ((flushDomain (26 + k) s).setReg (Obj.domainState (26 + k)) 0))) ∧
  (∀ (s : State) (k : Fin 16), (s.modeUnder ≠ .scan ∧ s.modeUnder ≠ .calibrate) ∨ s.nat (Obj.domainState (26 + k)) ≠ 2 ∨
    s.clusterNeeded k = true ∨ s.now < Table.get 0 s.power.clusterUsed k + ms 10 ∨
    ((List.range 4).all fun i => (s.slice (4 * k + i)).current.isNone && (s.slice (4 * k + i)).waits.isEmpty) = false →
    exec (.clusterOff k) s = .next s)

/-- Voltage scaling, heat and the end of a halt (R616, R619, R627, R629 to R631, R723): with AvsMode 0 the core rail is at its fixed set
point; else, each 10 microseconds and not while a droop holds the loop, it rises 10 mV where the slack is below its target, falls 5 mV
where the slack was above it a hundred times in a row, and is held within its bounds; a droop is logged and raises the rail, told and
reported, and tells the loss of margin where it is at its top; 1 ms and one period later it steps down, until it is within the ceiling.
A temperature at its limits is told once and alarms, and halts; MOTOR_ENABLE drops when every motion rests, at the latest 500 ms after
the halt. Choices of the model it rests on: log entries 32, 58, 59, 60 and 70. -/
def Obligations.VoltageHeatAndHalt : Prop :=
  (∀ (s : State) (slack : Int), s.mode.talks = false ∨ (s.nat Obj.avsMode ≠ 0 ∧ s.loopDue 5 0 (us 10) = false) →
    exec (.avsEval slack) s = .next s) ∧
  (∀ (s u : State) (slack : Int), s.mode.talks = true → s.nat Obj.avsMode = 0 →
    u = (s.loopRan 5 0).setReg Obj.avsSlack (clampInt (-128) 127 slack) →
    exec (.avsEval slack) s = .next (setAvsStatus false false false
      (setRail 0 (2 * u.nat Obj.avsFixed) { u with power := { u.power with avsHigh := 0, droopAt := none } }))) ∧
  (∀ (s u : State) (slack v : Int) (high : Nat), s.mode.talks = true → s.nat Obj.avsMode ≠ 0 → s.loopDue 5 0 (us 10) = true →
    u = (s.loopRan 5 0).setReg Obj.avsSlack (clampInt (-128) 127 slack) → v = u.reg Obj.avsSetpoint → high = u.power.avsHigh →
    exec (.avsEval slack) s = .next (
      if u.power.droopAt.isSome = true then { u with power := { u.power with avsHigh := 0 } }
      else if slack < u.reg Obj.avsTarget - 2 then avsMove (v + 10) { u with power := { u.power with avsHigh := 0 } }
      else if u.reg Obj.avsTarget + 2 < slack then
        (if 100 ≤ high + 1 then avsMove (v - 5) { u with power := { u.power with avsHigh := 0 } }
         else { u with power := { u.power with avsHigh := high + 1 } })
      else avsMove v { u with power := { u.power with avsHigh := 0 } })) ∧
  (∀ (s : State) (monitor : Nat), s.mode.talks = false ∨ s.nat Obj.avsMode = 0 → exec (.avsDroop monitor) s = .next s) ∧
  (∀ (s u w x : State) (monitor v top raised : Nat), s.mode.talks = true → s.nat Obj.avsMode ≠ 0 → v = s.nat Obj.avsSetpoint →
    top = min (2 * s.nat Obj.avsCeiling + 50) 1800 → raised = min (v + 50) top →
    u = { s with power := { s.power with avsHigh := 0, droops := latest 16 (s.power.droops ++ [⟨s.dt, v, raised, s.nat Obj.avsCeiling⟩]),
                                         droopAt := if 2 * s.nat Obj.avsCeiling < raised then some s.now else none } } →
    w = setAvsStatus false false (decide (2 * s.nat Obj.avsCeiling < raised)) (setRail 0 raised (u.count Obj.avsDroops)) →
    x = (if v < raised then w.raiseFault .avsDroop [monitor, v, raised] Kind.avsDroop 0 monitor 2 (islandOf 15 0) else w) →
    exec (.avsDroop monitor) s = .next (
      if top ≤ v then x.raiseFault .avsMargin [monitor] Kind.avsMargin 2 monitor 2 (islandOf 15 0) else x)) ∧
  (∀ (s : State), s.power.droopAt = none ∨ s.nat Obj.avsMode = 0 ∨ (∃ t, s.power.droopAt = some t ∧ s.now < t + ms 1 + us 10) →
    exec .avsFallback s = .next s) ∧
  (∀ (s u : State) (t v : Nat), s.power.droopAt = some t → s.nat Obj.avsMode ≠ 0 → t + ms 1 + us 10 ≤ s.now →
    v = s.nat Obj.avsSetpoint - 5 → u = setAvsStatus false false (decide (2 * s.nat Obj.avsCeiling < v)) (setRail 0 v s) →
    exec .avsFallback s = .next { u with power := { u.power with
      droopAt := if 2 * s.nat Obj.avsCeiling < v then some (u.now - ms 1) else none } }) ∧
  (∀ (s u w : State) (t : Int), u = noteTj t s →
    w = { u with power := { u.power with warned := decide (u.reg Obj.tjWarnLimit ≤ t) } } →
    exec (.thermalWarn t) s = .next (alarmEval (if u.reg Obj.tjWarnLimit ≤ t ∧ u.power.warned = false then
      w.raiseFault .thermalWarn [t] Kind.thermalWarn 1 0 2 (islandOf 15 0) else w))) ∧
  (∀ (s u : State) (t : Int), u = noteTj t s → exec (.thermalShutdown t) s = .next (if t < u.reg Obj.tjShutdown then u
    else safeHalt 2 false (u.raiseFault .thermalShutdown [t] Kind.thermalShutdown 4 0 2 (islandOf 15 0)))) ∧
  (∀ (s : State), s.power.haltAt = none → exec .motorEnableRelease s = .next s) ∧
  (∀ (s u : State) (t : Nat) (late : Bool), s.power.haltAt = some t → late = decide (t + ms 500 ≤ s.now) →
    u = (List.range 96).foldl (fun s p => if s.tioFn p == 20 && (late || (s.motion (s.tioSource p)).vel == 0) then
      driveTio p false s.now s else s) s →
    exec .motorEnableRelease s = .next (if late = true ∨ ((List.range 16).all fun m => (s.motion m).vel == 0) = true then
      { u with power := { u.power with haltAt := none } } else u))

/-! ### Chapter 16: dependability -/

/-- The controllers' redundancy (R646 to R650): a copy that disagrees is resynchronised, and retired at its third disagreement in an hour;
one that already is changes nothing, and a second one is a Safe Halt, reported; the end of a resynchronisation restores agreement. A
mismatch of the cores restores the checkpoint and opens the takeover, which ends after 5 ms with the cores that pass and the packets
that waited; a checkpoint is taken each millisecond outside a takeover. Choices of the model it rests on: log entries 32, 53, 58, 67,
68 and 71. -/
def Obligations.ControllersAgree : Prop :=
  (∀ (s : State) (copy : Fin 3), s.dep.resync = some copy.val ∨ s.dep.retiredCopy = some copy.val →
    exec (.tmrDisagree copy) s = .next s) ∧
  (∀ (s : State) (copy : Fin 3), s.dep.resync ≠ some copy.val → s.dep.retiredCopy ≠ some copy.val →
    s.dep.resync ≠ none ∨ s.dep.retiredCopy ≠ none →
    exec (.tmrDisagree copy) s = .next (safeHalt 1 true (s.report Kind.tmrDisagree 4 copy 0 (islandOf 0 0)))) ∧
  (∀ (s : State) (copy : Fin 3) (recent : List (Nat × Nat)), s.dep.resync = none → s.dep.retiredCopy = none →
    recent = s.dep.resyncs.filter (fun p => decide (s.now < p.2 + ms 3600000)) → (recent.filter fun p => p.1 == copy.val).length < 2 →
    exec (.tmrDisagree copy) s = .next ((({ s with dep :=
      { s.dep with resync := some copy.val, resyncs := recent ++ [(copy.val, s.now)] } } : State).setReg Obj.tmrState 1).report
        Kind.tmrDisagree 2 copy 0 (islandOf 0 0))) ∧
  (∀ (s : State) (copy : Fin 3) (recent : List (Nat × Nat)), s.dep.resync = none → s.dep.retiredCopy = none →
    recent = s.dep.resyncs.filter (fun p => decide (s.now < p.2 + ms 3600000)) → 2 ≤ (recent.filter fun p => p.1 == copy.val).length →
    exec (.tmrDisagree copy) s = .next (notePools ((recordRepair 6 0 copy 0 Kind.tmrDisagree (({ s with dep :=
      { s.dep with retiredCopy := some copy.val, resyncs := recent } } : State).setReg Obj.tmrState 2)).report
        Kind.tmrDisagree 2 copy 0 (islandOf 0 0)))) ∧
  (∀ (s : State), exec .tmrResyncDone s = .next (if s.dep.resync = none then s
    else ({ s with dep := { s.dep with resync := none } } : State).setReg Obj.tmrState 0)) ∧
  (∀ (s : State), exec .lockstepMismatch s = .next (if s.mode.talks = false ∨ 2 ≤ s.nat Obj.lockstepState then s
    else (restoreCheckpoint (({ s with dep := { s.dep with mismatchAt := some s.now } } : State).setReg
      Obj.lockstepState 2)).report Kind.lockstepMismatch 2 0 2 (islandOf 10 0))) ∧
  (∀ (s : State) (pass0 pass1 : Bool), s.dep.mismatchAt = none ∨ s.nat Obj.lockstepState ≠ 2 ∨
    (∃ t, s.dep.mismatchAt = some t ∧ s.now < t + ms 5) → exec (.takeoverResume pass0 pass1) s = .next s) ∧
  (∀ (s u w : State) (pass0 pass1 : Bool) (t : Nat), s.dep.mismatchAt = some t → s.nat Obj.lockstepState = 2 → t + ms 5 ≤ s.now →
    u = pairCores pass0 pass1 { s with dep := { s.dep with mismatchAt := none } } → w = notePools (switchDomain u.mode u 51) →
    exec (.takeoverResume pass0 pass1) s = .next (if w.nat Obj.lockstepState = 2 then w
      else w.kdps.waiting.foldl (fun (s : State) (x : Nat × Kdp) => receive x.1 x.2 s) { w with kdps := { w.kdps with waiting := [] } })) ∧
  (∀ (s : State), exec .checkpoint s = .next (
    if s.mode.talks = false ∨ s.nat Obj.lockstepState = 2 ∨ s.now < s.dep.checkpoint + ms 1 then s
    else { s with dep := { s.dep with checkpoint := s.now }, kdps := { s.kdps with saved := s.kdps.checkpoint } }))

/-- Faults of channels and segments, wear, spares and repair records (R406, R652 to R654, R656, R660, R665, R668): a failed channel of a
stack that is there is reported once; each millisecond a domain that is on counts how long its segments lie off the median, and one off
in 16 checks in a row is reported; the wear measures are compared and the hour's means of the lamps taken; a warm spare is tested each
period, and one that fails is retired, recorded and reported; a planned insertion is carried out in a gap, or when its wait has
expired, where its pool is free, and waits else; the repair records that wait are written, and records are cleared. Choices of the
model it rests on: log entries 32, 37, 40, 66, 68 and 71. -/
def Obligations.WearAndRepair : Prop :=
  (∀ (s : State) (stack : Fin 2) (ch : Fin 16), exec (.reservoirChannel stack ch) s = .next (
    if (Config.oneStack = true ∧ stack = 1) ∨ bitAt (s.nat Obj.channelFailed) (16 * stack + ch) = true then s
    else s.report Kind.reservoirChannel 2 (16 * stack + ch) 1 (islandOf 5 stack))) ∧
  (∀ (s : State) (d : Fin 64) (drops : List Nat), s.nat (Obj.domainState d) ≠ 2 ∨ s.loopDue 6 d (ms 1) = false →
    exec (.switchSegmentCheck d drops) s = .next s) ∧
  (∀ (s t u : State) (d : Fin 64) (drops : List Nat) (runs : List (Nat × Nat)) (x : DomainSwitch), s.nat (Obj.domainState d) = 2 →
    s.loopDue 6 d (ms 1) = true → t = s.loopRan 6 d → runs = s.segmentRuns d drops →
    x = { s.switch d with runs := runs.foldl (fun t p => Table.set 0 t p.1 p.2) (s.switch d).runs } →
    u = { t with dep := { t.dep with switches := Table.set {} t.dep.switches d x } } →
    exec (.switchSegmentCheck d drops) s = .next ((runs.filter fun p => p.2 == 16).foldl (fun s p =>
      s.report Kind.switchSegment 2 (d.val + 256 * p.1) 2 (islandOf 15 0)) u)) ∧
  (∀ (s : State) (m : WearSample), exec (.wearEval m) s = .next (takeBands (takeDram m (takeAged m (takeLanes s))))) ∧
  (∀ (s : State) (k : Fin 68) (pass : Bool), (s.slice k).state ≠ .spareWarm ∨ s.loopDue 7 k (ms (s.nat Obj.spareTestPeriod)) = false →
    exec (.spareTest k pass) s = .next s) ∧
  (∀ (s t : State) (k : Fin 68), (s.slice k).state = .spareWarm → s.loopDue 7 k (ms (s.nat Obj.spareTestPeriod)) = true →
    t = s.loopRan 7 k →
    exec (.spareTest k true) s = .next t ∧ exec (.spareTest k false) s = .next (notePools ((recordRepair 1 0 k 0 Kind.spareTestFail
      (t.updSlice k fun x => { x with state := .failed })).report Kind.spareTestFail 2 k 1 (islandOf 3 k)))) ∧
  (∀ (s : State), exec .plannedInsertion s = .next (match s.dep.planned.find? fun p => s.plannedGap p && s.plannedFree p with
    | some p => runPlanned p s
    | none => s)) ∧
  (∀ (s : State), exec .plannedWaitExpire s = .next (
    match s.dep.planned.find? fun p => decide (p.since + ms (s.nat Obj.plannedWaitMax) ≤ s.now) && s.plannedFree p with
    | some p => runPlanned p s
    | none => s)) ∧
  (∀ (s : State), exec .repairRecordWrite s = .next (s.dep.repairs.foldl (fun s _ => storeRecord s) s)) ∧
  (∀ (s : State) (v : BitVec 16), exec (.repairClear v) s = .next (clearRepairs v.toNat s))

/-! ### Chapter 17: security -/

/-- Commands of the security island (R547, R673, R676, R677, R684, R685, R689, R690, R692, R705, R709, R712): with the island operational
and the value in order, each has its effect: self-test, zeroisation, vendor access, debug, the role keys, the write-once fuses,
promotion and the acknowledgement of the audit log; one that is refused changes nothing. Choices of the model it rests on: log entries
42, 45, 61 and 62. -/
def Obligations.SecurityCommands : Prop :=
  (∀ (s : State) (f : State → State), (∀ t, f t = if islandError s = none then t else s) →
    exec .selfTestRun s = .next (f (selfTestRun s)) ∧ exec .zeroise s = .next (f (zeroise 0 0 s)) ∧
    ∀ v, exec (.vendorServiceEnable v) s = .next (f (s.setReg Obj.vendorServiceEnable (b2n v)))) ∧
  (∀ (s : State), exec .debugUnlock s = .next (if debugError s = none then debugUnlock .device s else s)) ∧
  (∀ (s : State) (r : Fin 3) (key : Bytes), exec (.roleKeySet r key) s =
    .next (if roleKeyError key s = none then setRoleKey .device r key s else s)) ∧
  (∀ (s : State) (v : BitVec 8), exec (.nodeAddressLock v) s =
    .next (if nodeLockError v.toNat s = none then nodeLock .device v.toNat s else s)) ∧
  (∀ (s : State), exec .approvedModeLock s = .next (if approvedError s = none then approvedLock .device s else s)) ∧
  (∀ (s : State), exec .debugLock s = .next (if lwError 3 1 s = none then debugLock .device s else s)) ∧
  (∀ (s : State) (h : Bytes), exec (.ownerKeyHash h) s = .next (if ownerHashError h s = none then ownerHash .device h s else s)) ∧
  (∀ (s : State) (v : BitVec 32), exec (.antiRollback v) s =
    .next (if rollbackError v.toNat s = none then rollback .device v.toNat s else s)) ∧
  (∀ (s : State) (slot : Fin 8) (id : BitVec 64), exec (.keyRevocation slot id) s =
    .next (if revokeError slot id.toNat s = none then revoke .device slot id.toNat s else s)) ∧
  (∀ (s : State) (seq : BitVec 8), exec (.hardRepairPromote seq) s =
    .next (if promoteError seq.toNat s = none then promote .device seq.toNat s else s)) ∧
  (∀ (s : State) (seq : BitVec 64), exec (.auditAck seq) s =
    .next (if auditAckError seq.toNat s = none then auditAck .device seq.toNat s else s))

/-- Seals, tamper and the sandbox (R694, R695, R698 to R700, R704, R708 to R710, R714): a page's line is hashed, padded, or by its tag
alone where it holds no bytes, a dropped one is passed over, one gone from the ring fails the seal, and its end queues its seal; a
block that stood open for its time is closed, and a closed one is signed, chained and told, the first after the record of its key;
tampering is latched and answered, wakes a Sentinel, and waits for the boot's self-test; it is cleared where its input has returned;
the sandbox stops at a violation; an area zeroised is recorded and told. Choices of the model it rests on: log entries 32, 42, 46, 60,
61 and 63. -/
def Obligations.SealsTamperAndSandbox : Prop :=
  (∀ (s : State) (st : Fin 64), (match Table.get none s.sec.hashing st.val with
      | some w => (s.toHash st).find? fun (p : PageRec) => p.number == w.number
      | none => earliestPage (s.toHash st)) = none →
    exec (.sealLineRead st) s = .next { s with sec := { s.sec with hashing := Table.set none s.sec.hashing st.val none } }) ∧
  (∀ (s : State) (st : Fin 64) (work : Option SealPage) (w : SealPage) (p : PageRec) (here : SealPage → State)
    (line : RingSlot → Bytes),
    work = Table.get none s.sec.hashing st.val → (match work with
      | some w => (s.toHash st).find? fun (p : PageRec) => p.number == w.number
      | none => earliestPage (s.toHash st)) = some p → w = work.getD ⟨p.number, p.firstLine, []⟩ →
    (∀ x, here x = { s with sec := { s.sec with hashing := Table.set none s.sec.hashing st.val (some x) } }) →
    (∀ x, line x = if x.undef.isSome then (List.range 32).map x.byte else (List.range 32).map x.byte ++ padTo 32 x.bytes) →
    exec (.sealLineRead st) s = .next (
      if p.opened = false ∧ p.firstLine + p.lines + p.dropped ≤ w.next then queueSeal st p w.hashes s
      else if (s.ring st).pageNext ≤ w.next then s
      else if s.lineDropped st p w.next then here { w with next := w.next + 1 }
      else match s.slotOf st w.next with
        | none => sealFailed st p.number { s with sec := { s.sec with hashing := Table.set none s.sec.hashing st.val none } }
        | some x => here { w with next := w.next + 1, hashes := w.hashes ++ (Config.sha384 (line x)).take 48 })) ∧
  (∀ (s : State), exec .sealBlockClose s = .next (if s.sec.openSince + ms (s.nat Obj.sealMaxDelay) ≤ s.now then closeBlock s else s)) ∧
  (∀ (s : State), s.sec.closedBlocks = [] ∨ s.sec.attest = none ∨ s.sec.withheld = true ∨ s.nat Obj.securityState ≠ 1 ∨
    (s.sec.sealIndex = 0 ∧ s.auditRoom = false) → exec .sealIssued s = .next s) ∧
  (∀ (s t u : State) (b : List SealEntry) (rest : List (List SealEntry)) (g idx : Nat) (bytes prev : Bytes), s.sec.closedBlocks = b :: rest →
    s.sec.attest = some g → s.sec.withheld = false → s.nat Obj.securityState = 1 → idx = s.sec.sealIndex → idx ≠ 0 ∨ s.auditRoom = true →
    t = (if idx = 0 then audit 0x0F .device 0 0 0 (attestKeyBytes g) false s else s) →
    prev = (if idx = 0 then t.sec.lastChain else t.sec.prevHash) → bytes = sealBlock t g b prev →
    u = { t with sec := { t.sec with closedBlocks := rest, blocks := ((idx, bytes) :: t.sec.blocks).take 1024,
                                     sealIndex := idx + 1, prevHash := Config.sha384 bytes } } →
    exec .sealIssued s = .next (((b.foldl (fun s e => updRecord e.stream e.page
      (fun p => { p with digest := e.digest, sealIndex := idx, sealed := true }) s) u).setReg
        Obj.sealLastIndex idx).raise .sealIssued [idx, b.length])) ∧
  (∀ (s u : State) (inputs : BitVec 4) (sensors : BitVec 8) (bits : Nat),
    bits = sumNat (((List.range 4).filter fun i => inputs.getLsbD i && bitAt (s.nat (Obj.tamperConfig i)) 15).map fun i => 2 ^ i) +
      512 * (sensors.toNat % 8) →
    u = ({ s with sec := { s.sec with tamperIn := inputs.toNat } } : State).setReg Obj.tamperState (s.nat Obj.tamperState ||| bits : Nat) →
    exec (.tamperDetected inputs sensors) s = .next (if s.mode = .off ∨ bits = 0 then s
      else if s.mode = .sentinel then wakeUp false u
      else if s.mode = .boot ∧ s.boot.tested = false then u
      else tamperRespond bits u)) ∧
  (∀ (s : State) (inputs : BitVec 4), exec (.tamperClear inputs) s = .next (alarmEval
    (({ s with sec := { s.sec with tamperIn := inputs.toNat } } : State).setReg Obj.tamperState
      ((s.nat Obj.tamperState) &&& inputs.toNat % 16 : Nat)))) ∧
  (∀ (s : State), exec .sandboxViolation s = .next (if s.nat Obj.sandboxStatus = 1 then
    (s.setReg Obj.sandboxStatus 2).raise .sandboxViolation [] else s)) ∧
  (∀ (s : State), s.sec.zeroising = [] → exec .zeroised s = .next s) ∧
  (∀ (s u : State) (t : Nat) (rest : List Nat), s.sec.zeroising = t :: rest → u = { s with sec := { s.sec with zeroising := rest } } →
    exec .zeroised s = .next ((audit 0x0C .device 0 0 0 (leBytes 1 t ++ leBytes 2 (u.sec.nextGeneration - 1)) true u).raise .zeroised [t]))

/-! ### Chapter 18: reset and start-up -/

/-- Resets (R618, R717, R718, R720, R726, R732, R734): PERST resets the host side, or the whole device where it reaches so far or the halt
is decided; its end releases a wake that was asked for, and wakes the device where it is a wake source; DeviceReset, the watchdogs and
the test port reset the device with their causes, where the device is in a state that has them. Choices of the model it rests on: log
entries 48 and 64. -/
def Obligations.ResetsAndTheirCauses : Prop :=
  (∀ (s : State), s.host.perst = true → exec .perstAssert s = .next s) ∧
  (∀ (s u : State), s.host.perst = false → u = { s with host := { s.host with perst := true } } →
    exec .perstAssert s = .next (if s.mode = .off then u
      else if s.power.halted = true ∨ s.nat Obj.perstReach = 1 then deviceReset 3 u else hostReset (noteCause 2 u))) ∧
  (∀ (s : State), s.host.perst = false → exec .perstDeassert s = .next s) ∧
  (∀ (s u v : State), s.host.perst = true → u = { s with host := { s.host with perst := false } } →
    v = (if s.boot.wake then ({ u with boot := { u.boot with wake := false } } : State).emit (.pin .peWakeN 0 false u.now) else u) →
    exec .perstDeassert s = .next (if bitAt (v.nat Obj.wakeSources) 0 then wakeUp true v else v)) ∧
  (∀ (s : State), exec .deviceReset s = .next (if s.mode.talks = true ∨ s.boot.recovery = true then deviceReset 4 s else s)) ∧
  (∀ (s : State), exec .mgmtWatchdog s = .next (if s.mode.talks then deviceReset 7 (countAttempt s) else s)) ∧
  (∀ (s : State), exec .bootWatchdog s = .next (
    if s.mode = .boot ∧ s.boot.recovery = false ∧ s.bootStuck = false ∧ ms (s.nat Obj.bootWatchdog) ≤ s.now then
      deviceReset 6 (countAttempt s) else s)) ∧
  (∀ (s : State), exec .jtagSystemReset s = .next (if s.sec.debugOpen then deviceReset 8 s else s))

/-- The boot (R608, R673, R674, R681, R682, R724, R732, R734): the rail being raised that does not come up in time fails its stage, with
the rails raised so far taken down; the self-test that passes opens the trial of the slots in the boot and lets the conditions be
watched after it, and one that fails fails the island; the slot on trial that fails a check, or was tried three times, is rejected, and
one that passes runs its Peony; each does nothing in another state. Choices of the model it rests on: log entries 2, 32, 43, 46, 58,
60, 61, 62, 64 and 65. -/
def Obligations.BootSequence : Prop :=
  (∀ (s : State) (r : Fin 8), exec (.bootRailTimeout r) s = .next (
    if s.mode = .sentinel ∧ s.boot.starting = true ∧ s.boot.rail = r.val ∧ s.nat (Obj.railState r) = 1 then
      startEnds (failStage 2 r (rampDown s)) else s)) ∧
  (∀ (s : State) (passed : Bool), s.mode.booted = false ∨ s.nat Obj.securityState = 2 → exec (.selfTestDone passed) s = .next s) ∧
  (∀ (s : State), s.mode.booted = true → s.nat Obj.securityState ≠ 2 → exec (.selfTestDone false) s = .next (failWaiting (selfTestFails s))) ∧
  (∀ (s : State), s.nat Obj.securityState ≠ 0 → exec (.selfTestDone true) s = .next s) ∧
  (∀ (s u v : State), s.mode = .boot → s.nat Obj.securityState = 0 → s.boot.tested = false → s.mode.booted = true →
    u = makeAttestation (tellTorn (applyHard (setStage 4 (s.setReg Obj.securityState 1)))) →
    v = { u with boot := { u.boot with tested := true, toTry := u.slotOrder } } →
    exec (.selfTestDone true) s = .next (if v.nat Obj.tamperState = 0 then v else tamperRespond (v.nat Obj.tamperState) v)) ∧
  (∀ (s : State), s.mode ≠ .boot ∨ s.boot.tested = true → s.mode.booted = true → s.nat Obj.securityState = 0 →
    exec (.selfTestDone true) s = .next (alarmEval (watchConditions (s.setReg Obj.securityState 1)))) ∧
  (∀ (s : State) (slot : Fin 2) (c : SlotCheck), s.mode ≠ .boot ∨ s.power.halted = true ∨ s.boot.tested = false ∨ s.boot.peony = true ∨
    s.boot.toTry.head? ≠ some slot.val → exec (.bootSlotVerify slot c) s = .next s) ∧
  (∀ (s : State) (slot : Fin 2) (c : SlotCheck), s.mode = .boot → s.power.halted = false → s.boot.tested = true → s.boot.peony = false →
    s.boot.toTry.head? = some slot.val → exec (.bootSlotVerify slot c) s = .next (match slotFails c s with
      | some k => rejectSlot slot k s
      | none => if 3 ≤ s.attempts slot then rejectSlot slot 5 s else runSlot slot c s))

/-- Events on pins, links and ports (R106, R318, R448, R450, R513): a lane in ALIGNING that does not lock in 1 ms, or has not found its
alignment 4 alignment periods after it entered, fails, and no other; the host link that comes up outside reset has its rating noted
with its payload sizes, and one the slot does not allow is told and reported; the instant of a line drives its trigger outputs and
converters once; an edge on an input pin is stamped. Choices of the model it rests on: log entries 32, 48, 78, 83, 99 and 104. -/
def Obligations.PinsLinksAndPorts : Prop :=
  (∀ (s : State) (l : Fin 104), exec (.aligningTimeout l) s = .next (
    if (s.lane l).state = .aligning ∧ (((s.lane l).blockLock = false ∧ ms 1 ≤ s.now - (s.lane l).since) ∨
      ((s.lane l).blockLock = true ∧ (s.lane l).alignLock = false ∧ 503316 ≤ s.now - (s.lane l).since)) then enterLane l .failed s else s)) ∧
  (∀ (s : State) (gen width mps mrrs : Nat), s.host.perst = true ∨ s.mode = .off ∨ s.mode = .sentinel →
    exec (.hostLinkUp gen width ⟨mps, mrrs⟩) s = .next s) ∧
  (∀ (s u : State) (gen width mps mrrs m : Nat), s.host.perst = false → s.mode ≠ .off → s.mode ≠ .sentinel → linkOk gen width = true →
    m = (if mps = 512 then 512 else if mps = 256 then 256 else 128) →
    u = { s with host := { s.host with mps := m, mrrs := min 4096 (max 128 mrrs) } } →
    exec (.hostLinkUp gen width ⟨mps, mrrs⟩) s = .next ((u.setReg Obj.hostLinkState (linkWord gen width m)).setReg
      Obj.hostLinkRating (linkRating gen width))) ∧
  (∀ (s : State) (gen width mps mrrs : Nat), s.host.perst = false → s.mode ≠ .off → s.mode ≠ .sentinel → linkOk gen width = false →
    exec (.hostLinkUp gen width ⟨mps, mrrs⟩) s = .next (s.raiseFault .hostLinkDown [] Kind.hostLinkDown 2 0 1 (islandOf 6 0))) ∧
  (∀ (s : State) (st : Fin 64) (line : Nat), s.recOf st line = none ∨ (∃ r, s.recOf st line = some r ∧ (r.fired = true ∨ s.now < r.sched)) →
    exec (.lineTriggerInstant st line) s = .next s) ∧
  (∀ (s u : State) (st : Fin 64) (line : Nat) (r : LineRec), s.recOf st line = some r → r.fired = false → r.sched ≤ s.now →
    u = triggerOut st r.sched (gapRecheck r (updRec st line (fun r => { r with fired := true }) s)) →
    exec (.lineTriggerInstant st line) s = .next ((u.convsOn 4 st).foldl (fun s j => feTrigger j r.sched true s) u)) ∧
  (∀ (s : State) (t : Fin 96) (level : Bool), exec (.tioInputEdge t level) s =
    .next (if s.plainEdge t level = true then stampTio t level s else s))
end

