-- ==== Sys2Proof/Laws/Crossing.lean ====
section
/-! SUPPORT. What a crossing queue takes of the writes that wait at it. -/
namespace Sys2Proof.Machine

/-- With nothing waiting nothing is taken. -/
theorem Queue.settle_idle (q n : Nat) (x : Queue) (h : x.waiting = []) : Queue.settle q n x = x := by
  cases n with
  | zero => rfl
  | succ n => simp only [Queue.settle, h]
/-- While the queue does not take the first, nothing is taken. -/
theorem Queue.settle_stuck (q n : Nat) (x : Queue) (h : ∀ w t, x.waiting = w :: t → x.takes q w = false) : Queue.settle q n x = x := by
  cases n with
  | zero => rfl
  | succ n =>
    simp only [Queue.settle]
    split
    · rfl
    · rename_i w t e
      rw [h w t e]
      rfl
/-- While it resets, nothing is taken. -/
theorem Queue.settle_resetting (q n : Nat) (x : Queue) (h : x.resetting = true) : Queue.settle q n x = x :=
  Queue.settle_stuck q n x fun _ _ _ => by simp [Queue.takes, h]
/-- The only one that waits is taken where the queue takes it. -/
theorem Queue.settle_single (q : Nat) (x : Queue) (w : QWrite) (h : x.waiting = [w]) (k : x.takes q w = true) :
    Queue.settle q 1 x = { x with waiting := [] }.take w := by
  simp only [Queue.settle, h, k, if_true]
/-- The room does not depend on what waits. -/
theorem Queue.takes_waiting (q : Nat) (x : Queue) (l : List QWrite) (w : QWrite) : { x with waiting := l }.takes q w = x.takes q w := rfl

end Sys2Proof.Machine
end

