-- ==== Sys2Proof/Laws/Table.lean ====
section
/-! SUPPORT. What reading and writing a sparse table do, and that every write keeps the canonical form. -/
namespace Sys2Proof.Machine

variable {β : Type}

/-- Writing one key leaves what every other key reads as, whatever the default it is read with. -/
theorem Table.get_set_ne [DecidableEq β] (d d' : β) (t : Table β) (k k' : Nat) (v : β) (h : k' ≠ k) :
    Table.get d (Table.set d' t k v) k' = Table.get d t k' := by
  induction t with
  | nil => simp only [Table.set]; split <;> simp [Table.get, h]
  | cons p t ih =>
    obtain ⟨a, b⟩ := p
    simp only [Table.set]
    split
    · split <;> simp [Table.get, h]
    · split
      · subst_vars; split <;> simp [Table.get, h]
      · simp [Table.get, ih]

/-- An empty table is canonical. -/
theorem Table.rising_nil : Table.rising ([] : Table β) := List.Pairwise.nil

theorem Table.rising_cons (k : Nat) (v : β) (t : Table β) :
    Table.rising ((k, v) :: t) ↔ (∀ p ∈ t, k < p.1) ∧ Table.rising t := by
  simp [Table.rising, List.pairwise_cons]

/-- A key below every listed key reads as the default. -/
theorem Table.get_below (d : β) (t : Table β) (k : Nat) (h : ∀ p ∈ t, k < p.1) : Table.get d t k = d := by
  induction t with
  | nil => rfl
  | cons p t ih =>
    have h1 := h p (by simp)
    simp [Table.get, Nat.ne_of_lt h1, ih fun q hq => h q (by simp [hq])]

/-- What was written at a key is read there. -/
theorem Table.get_set_eq [DecidableEq β] (d : β) (t : Table β) (k : Nat) (v : β) (h : Table.rising t) :
    Table.get d (Table.set d t k v) k = v := by
  induction t with
  | nil =>
    simp only [Table.set]
    split
    · simp [Table.get, *]
    · simp [Table.get]
  | cons p t ih =>
    obtain ⟨a, b⟩ := p
    rw [Table.rising_cons] at h
    simp only [Table.set]
    split
    · split
      · subst_vars
        exact Table.get_below _ _ _ fun q hq => by
          rcases List.mem_cons.1 hq with rfl | hq
          · assumption
          · have := h.1 q hq; omega
      · simp [Table.get]
    · split
      · subst_vars
        split
        · subst_vars; exact Table.get_below _ _ _ h.1
        · simp [Table.get]
      · rename_i hne
        simp [Table.get, hne, ih h.2]

/-- A written table lists no key but those it listed and the one written. -/
theorem Table.mem_set [DecidableEq β] (d : β) (t : Table β) (k : Nat) (v : β) (p : Nat × β) (h : p ∈ Table.set d t k v) :
    p ∈ t ∨ p = (k, v) := by
  induction t with
  | nil => simp only [Table.set] at h; split at h <;> simp_all
  | cons q t ih =>
    obtain ⟨a, b⟩ := q
    simp only [Table.set] at h
    split at h
    · split at h <;> simp_all; tauto
    · split at h
      · split at h <;> simp_all; tauto
      · rcases List.mem_cons.1 h with h | h
        · simp [h]
        · rcases ih h with h | h <;> simp [h]

/-- A write keeps the keys rising. -/
theorem Table.rising_set [DecidableEq β] (d : β) (t : Table β) (k : Nat) (v : β) (h : Table.rising t) :
    Table.rising (Table.set d t k v) := by
  induction t with
  | nil =>
    simp only [Table.set]
    split
    · exact Table.rising_nil
    · rw [Table.rising_cons]; simp [Table.rising_nil]
  | cons q t ih =>
    obtain ⟨a, b⟩ := q
    have h' := (Table.rising_cons a b t).1 h
    simp only [Table.set]
    split
    · split
      · exact h
      · rw [Table.rising_cons]
        refine ⟨fun p hp => ?_, h⟩
        rcases List.mem_cons.1 hp with rfl | hp
        · assumption
        · have := h'.1 p hp; omega
    · split
      · subst_vars
        split
        · exact h'.2
        · rw [Table.rising_cons]; exact h'
      · rw [Table.rising_cons]
        refine ⟨fun p hp => ?_, ih h'.2⟩
        rcases Table.mem_set _ _ _ _ _ hp with hp | rfl
        · exact h'.1 p hp
        · simp only; omega

/-- Filtering keeps the keys rising. -/
theorem Table.rising_filter (t : Table β) (f : Nat × β → Bool) (h : Table.rising t) : Table.rising (t.filter f) := by
  unfold Table.rising at *
  exact h.sublist (List.filter_sublist.map Prod.fst)

/-- Changing the values keeps the keys rising. -/
theorem Table.rising_map {γ : Type} (t : Table β) (f : Nat → β → γ) (h : Table.rising t) :
    Table.rising (t.map fun p => (p.1, f p.1 p.2)) := by
  unfold Table.rising at *
  simpa [List.map_map, Function.comp_def] using h

/-- The same, for a map of the entries that leaves each key. -/
theorem Table.rising_keys {γ : Type} (t : Table β) (f : Nat × β → Nat × γ) (e : ∀ p, (f p).1 = p.1) (h : Table.rising t) :
    Table.rising (t.map f) := by
  unfold Table.rising at *
  simpa [List.map_map, Function.comp_def, e] using h

/-- No entry reads as the default. -/
theorem Table.wfFrom_iff [DecidableEq β] (d : β) (lo : Option Nat) (t : Table β) :
    Table.wfFrom d lo t = true ↔
      (∀ l, lo = some l → ∀ p ∈ t, l < p.1) ∧ Table.rising t ∧ ∀ p ∈ t, p.2 ≠ d := by
  induction t generalizing lo with
  | nil => simp [Table.wfFrom, Table.rising_nil]
  | cons q t ih =>
    obtain ⟨a, b⟩ := q
    simp only [Table.wfFrom, Bool.and_eq_true, ih, Table.rising_cons, decide_eq_true_eq, List.mem_cons, forall_eq_or_imp,
      Option.some.injEq, forall_eq']
    cases lo with
    | none => simp; tauto
    | some l =>
      simp only [decide_eq_true_eq, Option.some.injEq, forall_eq']
      constructor
      · rintro ⟨⟨h1, h2⟩, h3, h4, h5⟩
        exact ⟨⟨h1, fun p hp => lt_trans h1 (h3 p hp)⟩, ⟨h3, h4⟩, h2, h5⟩
      · rintro ⟨⟨h1, -⟩, ⟨h3, h4⟩, h2, h5⟩
        exact ⟨⟨h1, h2⟩, h3, h4, h5⟩

/-- A table in its canonical form has rising keys. -/
theorem Table.rising_of_wf [DecidableEq β] (d : β) (t : Table β) (h : Table.wf d t = true) : Table.rising t :=
  ((Table.wfFrom_iff d none t).1 h).2.1

/-- Nothing that equals the default is written. -/
theorem Table.set_ne_default [DecidableEq β] (d : β) (t : Table β) (k : Nat) (v : β) (h : ∀ p ∈ t, p.2 ≠ d) :
    ∀ p ∈ Table.set d t k v, p.2 ≠ d := by
  induction t with
  | nil =>
    simp only [Table.set]
    split <;> simp_all
  | cons q t ih =>
    obtain ⟨a, b⟩ := q
    have h1 : b ≠ d := h (a, b) (by simp)
    have h2 : ∀ p ∈ t, p.2 ≠ d := fun p hp => h p (by simp [hp])
    intro p hp
    simp only [Table.set] at hp
    split at hp
    · split at hp
      · exact h p hp
      · rcases List.mem_cons.1 hp with rfl | hp
        · assumption
        · exact h p hp
    · split at hp
      · split at hp
        · exact h2 p hp
        · rcases List.mem_cons.1 hp with rfl | hp
          · assumption
          · exact h2 p hp
      · rcases List.mem_cons.1 hp with rfl | hp
        · exact h1
        · exact ih h2 p hp

/-- A write keeps the canonical form. -/
theorem Table.wf_set [DecidableEq β] (d : β) (t : Table β) (k : Nat) (v : β) (h : Table.wf d t = true) :
    Table.wf d (Table.set d t k v) = true := by
  have h' := (Table.wfFrom_iff d none t).1 h
  exact (Table.wfFrom_iff d none _).2 ⟨by simp, Table.rising_set d t k v h'.2.1, Table.set_ne_default d t k v h'.2.2⟩

/-! ### Memory -/

/-- A written byte is read at its address. -/
theorem Memory.read_write (m : Memory) (a : Nat) (b : Byte) (h : m.wf = true) : (m.write a b).read a = b :=
  Table.get_set_eq _ _ _ _ (Table.rising_of_wf _ _ h)

/-- A write leaves every other byte. -/
theorem Memory.read_write_ne (m : Memory) (a a' : Nat) (b : Byte) (h : a' ≠ a) : (m.write a b).read a' = m.read a' :=
  Table.get_set_ne _ _ _ _ _ _ h

/-- A write keeps a memory's canonical form. -/
theorem Memory.wf_write (m : Memory) (a : Nat) (b : Byte) (h : m.wf = true) : (m.write a b).wf = true := Table.wf_set _ _ _ _ h

/-- So does writing a string of bytes. -/
theorem Memory.wf_writeN (m : Memory) (a : Nat) (bs : Bytes) (h : m.wf = true) : (m.writeN a bs).wf = true := by
  induction bs generalizing m a with
  | nil => exact h
  | cons b bs ih => exact ih _ _ (Memory.wf_write m a b h)

/-- A string of bytes changes only the bytes it covers. -/
theorem Memory.read_writeN_ne (m : Memory) (a x : Nat) (bs : Bytes) (h : x < a ∨ a + bs.length ≤ x) :
    (m.writeN a bs).read x = m.read x := by
  induction bs generalizing m a with
  | nil => rfl
  | cons b bs ih =>
    simp only [List.length_cons] at h
    rw [Memory.writeN, ih _ _ (by omega), Memory.read_write_ne _ _ _ _ (by omega)]

end Sys2Proof.Machine
end

