-- ==== Sys2Proof/Laws/State.lean ====
section
/-! SUPPORT. What each named update of the state does to each field, and what is read back after it: one lemma per field per
update. -/
namespace Sys2Proof.Machine

@[simp] theorem State.setReg_pending (s : State) (o : Obj) (v : Int) : (s.setReg o v).pending = s.pending := rfl
@[simp] theorem State.setReg_freeCount (s : State) (o : Obj) (v : Int) : (s.setReg o v).freeCount = s.freeCount := rfl
@[simp] theorem State.setReg_out (s : State) (o : Obj) (v : Int) : (s.setReg o v).out = s.out := rfl
@[simp] theorem State.setReg_raised (s : State) (o : Obj) (v : Int) : (s.setReg o v).raised = s.raised := rfl
@[simp] theorem State.setReg_now (s : State) (o : Obj) (v : Int) : (s.setReg o v).now = s.now := rfl
@[simp] theorem State.setReg_grayDt (s : State) (o : Obj) (v : Int) : (s.setReg o v).grayDt = s.grayDt := rfl
@[simp] theorem State.setReg_records (s : State) (o : Obj) (v : Int) : (s.setReg o v).records = s.records := rfl
@[simp] theorem State.setReg_strays (s : State) (o : Obj) (v : Int) : (s.setReg o v).strays = s.strays := rfl
@[simp] theorem State.setReg_class0In (s : State) (o : Obj) (v : Int) : (s.setReg o v).class0In = s.class0In := rfl
@[simp] theorem State.setReg_groupsWaiting (s : State) (o : Obj) (v : Int) : (s.setReg o v).groupsWaiting = s.groupsWaiting := rfl
@[simp] theorem State.setReg_commitNext (s : State) (o : Obj) (v : Int) : (s.setReg o v).commitNext = s.commitNext := rfl
@[simp] theorem State.setReg_reports (s : State) (o : Obj) (v : Int) : (s.setReg o v).reports = s.reports := rfl
@[simp] theorem State.setReg_queues (s : State) (o : Obj) (v : Int) : (s.setReg o v).queues = s.queues := rfl
@[simp] theorem State.setReg_lanes (s : State) (o : Obj) (v : Int) : (s.setReg o v).lanes = s.lanes := rfl
@[simp] theorem State.setReg_groups (s : State) (o : Obj) (v : Int) : (s.setReg o v).groups = s.groups := rfl
@[simp] theorem State.setReg_ingest (s : State) (o : Obj) (v : Int) : (s.setReg o v).ingest = s.ingest := rfl
@[simp] theorem State.setReg_ports (s : State) (o : Obj) (v : Int) : (s.setReg o v).ports = s.ports := rfl
@[simp] theorem State.setReg_banks (s : State) (o : Obj) (v : Int) : (s.setReg o v).banks = s.banks := rfl
@[simp] theorem State.setReg_slices (s : State) (o : Obj) (v : Int) : (s.setReg o v).slices = s.slices := rfl
@[simp] theorem State.setReg_crossbar (s : State) (o : Obj) (v : Int) : (s.setReg o v).crossbar = s.crossbar := rfl
@[simp] theorem State.setReg_coefRows (s : State) (o : Obj) (v : Int) : (s.setReg o v).coefRows = s.coefRows := rfl
@[simp] theorem State.setReg_streams (s : State) (o : Obj) (v : Int) : (s.setReg o v).streams = s.streams := rfl
@[simp] theorem State.setReg_curves (s : State) (o : Obj) (v : Int) : (s.setReg o v).curves = s.curves := rfl
@[simp] theorem State.setReg_calibs (s : State) (o : Obj) (v : Int) : (s.setReg o v).calibs = s.calibs := rfl
@[simp] theorem State.setReg_warmup (s : State) (o : Obj) (v : Int) : (s.setReg o v).warmup = s.warmup := rfl
@[simp] theorem State.setReg_posChans (s : State) (o : Obj) (v : Int) : (s.setReg o v).posChans = s.posChans := rfl
@[simp] theorem State.setReg_compares (s : State) (o : Obj) (v : Int) : (s.setReg o v).compares = s.compares := rfl
@[simp] theorem State.setReg_gens (s : State) (o : Obj) (v : Int) : (s.setReg o v).gens = s.gens := rfl
@[simp] theorem State.setReg_tios (s : State) (o : Obj) (v : Int) : (s.setReg o v).tios = s.tios := rfl
@[simp] theorem State.setReg_motions (s : State) (o : Obj) (v : Int) : (s.setReg o v).motions = s.motions := rfl
@[simp] theorem State.setReg_transports (s : State) (o : Obj) (v : Int) : (s.setReg o v).transports = s.transports := rfl
@[simp] theorem State.setReg_seamsOf (s : State) (o : Obj) (v : Int) : (s.setReg o v).seamsOf = s.seamsOf := rfl
@[simp] theorem State.setReg_lamps (s : State) (o : Obj) (v : Int) : (s.setReg o v).lamps = s.lamps := rfl
@[simp] theorem State.setReg_rings (s : State) (o : Obj) (v : Int) : (s.setReg o v).rings = s.rings := rfl
@[simp] theorem State.setReg_host (s : State) (o : Obj) (v : Int) : (s.setReg o v).host = s.host := rfl
@[simp] theorem State.setReg_fe (s : State) (o : Obj) (v : Int) : (s.setReg o v).fe = s.fe := rfl
@[simp] theorem State.setReg_kdps (s : State) (o : Obj) (v : Int) : (s.setReg o v).kdps = s.kdps := rfl
@[simp] theorem State.setReg_mode (s : State) (o : Obj) (v : Int) : (s.setReg o v).mode = s.mode := rfl
@[simp] theorem State.setReg_target (s : State) (o : Obj) (v : Int) : (s.setReg o v).target = s.target := rfl
@[simp] theorem State.setReg_power (s : State) (o : Obj) (v : Int) : (s.setReg o v).power = s.power := rfl
@[simp] theorem State.setReg_dep (s : State) (o : Obj) (v : Int) : (s.setReg o v).dep = s.dep := rfl
@[simp] theorem State.setReg_sec (s : State) (o : Obj) (v : Int) : (s.setReg o v).sec = s.sec := rfl
@[simp] theorem State.setReg_boot (s : State) (o : Obj) (v : Int) : (s.setReg o v).boot = s.boot := rfl
@[simp] theorem State.setReg_loops (s : State) (o : Obj) (v : Int) : (s.setReg o v).loops = s.loops := rfl

@[simp] theorem State.count_pending (s : State) (o : Obj) (n : Nat) : (s.count o n).pending = s.pending := rfl
@[simp] theorem State.count_freeCount (s : State) (o : Obj) (n : Nat) : (s.count o n).freeCount = s.freeCount := rfl
@[simp] theorem State.count_out (s : State) (o : Obj) (n : Nat) : (s.count o n).out = s.out := rfl
@[simp] theorem State.count_raised (s : State) (o : Obj) (n : Nat) : (s.count o n).raised = s.raised := rfl
@[simp] theorem State.count_now (s : State) (o : Obj) (n : Nat) : (s.count o n).now = s.now := rfl
@[simp] theorem State.count_grayDt (s : State) (o : Obj) (n : Nat) : (s.count o n).grayDt = s.grayDt := rfl
@[simp] theorem State.count_records (s : State) (o : Obj) (n : Nat) : (s.count o n).records = s.records := rfl
@[simp] theorem State.count_strays (s : State) (o : Obj) (n : Nat) : (s.count o n).strays = s.strays := rfl
@[simp] theorem State.count_class0In (s : State) (o : Obj) (n : Nat) : (s.count o n).class0In = s.class0In := rfl
@[simp] theorem State.count_groupsWaiting (s : State) (o : Obj) (n : Nat) : (s.count o n).groupsWaiting = s.groupsWaiting := rfl
@[simp] theorem State.count_commitNext (s : State) (o : Obj) (n : Nat) : (s.count o n).commitNext = s.commitNext := rfl
@[simp] theorem State.count_reports (s : State) (o : Obj) (n : Nat) : (s.count o n).reports = s.reports := rfl
@[simp] theorem State.count_queues (s : State) (o : Obj) (n : Nat) : (s.count o n).queues = s.queues := rfl
@[simp] theorem State.count_lanes (s : State) (o : Obj) (n : Nat) : (s.count o n).lanes = s.lanes := rfl
@[simp] theorem State.count_groups (s : State) (o : Obj) (n : Nat) : (s.count o n).groups = s.groups := rfl
@[simp] theorem State.count_ingest (s : State) (o : Obj) (n : Nat) : (s.count o n).ingest = s.ingest := rfl
@[simp] theorem State.count_ports (s : State) (o : Obj) (n : Nat) : (s.count o n).ports = s.ports := rfl
@[simp] theorem State.count_banks (s : State) (o : Obj) (n : Nat) : (s.count o n).banks = s.banks := rfl
@[simp] theorem State.count_slices (s : State) (o : Obj) (n : Nat) : (s.count o n).slices = s.slices := rfl
@[simp] theorem State.count_crossbar (s : State) (o : Obj) (n : Nat) : (s.count o n).crossbar = s.crossbar := rfl
@[simp] theorem State.count_coefRows (s : State) (o : Obj) (n : Nat) : (s.count o n).coefRows = s.coefRows := rfl
@[simp] theorem State.count_streams (s : State) (o : Obj) (n : Nat) : (s.count o n).streams = s.streams := rfl
@[simp] theorem State.count_curves (s : State) (o : Obj) (n : Nat) : (s.count o n).curves = s.curves := rfl
@[simp] theorem State.count_calibs (s : State) (o : Obj) (n : Nat) : (s.count o n).calibs = s.calibs := rfl
@[simp] theorem State.count_warmup (s : State) (o : Obj) (n : Nat) : (s.count o n).warmup = s.warmup := rfl
@[simp] theorem State.count_posChans (s : State) (o : Obj) (n : Nat) : (s.count o n).posChans = s.posChans := rfl
@[simp] theorem State.count_compares (s : State) (o : Obj) (n : Nat) : (s.count o n).compares = s.compares := rfl
@[simp] theorem State.count_gens (s : State) (o : Obj) (n : Nat) : (s.count o n).gens = s.gens := rfl
@[simp] theorem State.count_tios (s : State) (o : Obj) (n : Nat) : (s.count o n).tios = s.tios := rfl
@[simp] theorem State.count_motions (s : State) (o : Obj) (n : Nat) : (s.count o n).motions = s.motions := rfl
@[simp] theorem State.count_transports (s : State) (o : Obj) (n : Nat) : (s.count o n).transports = s.transports := rfl
@[simp] theorem State.count_seamsOf (s : State) (o : Obj) (n : Nat) : (s.count o n).seamsOf = s.seamsOf := rfl
@[simp] theorem State.count_lamps (s : State) (o : Obj) (n : Nat) : (s.count o n).lamps = s.lamps := rfl
@[simp] theorem State.count_rings (s : State) (o : Obj) (n : Nat) : (s.count o n).rings = s.rings := rfl
@[simp] theorem State.count_host (s : State) (o : Obj) (n : Nat) : (s.count o n).host = s.host := rfl
@[simp] theorem State.count_fe (s : State) (o : Obj) (n : Nat) : (s.count o n).fe = s.fe := rfl
@[simp] theorem State.count_kdps (s : State) (o : Obj) (n : Nat) : (s.count o n).kdps = s.kdps := rfl
@[simp] theorem State.count_mode (s : State) (o : Obj) (n : Nat) : (s.count o n).mode = s.mode := rfl
@[simp] theorem State.count_target (s : State) (o : Obj) (n : Nat) : (s.count o n).target = s.target := rfl
@[simp] theorem State.count_power (s : State) (o : Obj) (n : Nat) : (s.count o n).power = s.power := rfl
@[simp] theorem State.count_dep (s : State) (o : Obj) (n : Nat) : (s.count o n).dep = s.dep := rfl
@[simp] theorem State.count_sec (s : State) (o : Obj) (n : Nat) : (s.count o n).sec = s.sec := rfl
@[simp] theorem State.count_boot (s : State) (o : Obj) (n : Nat) : (s.count o n).boot = s.boot := rfl
@[simp] theorem State.count_loops (s : State) (o : Obj) (n : Nat) : (s.count o n).loops = s.loops := rfl

@[simp] theorem State.countWrap_pending (s : State) (o : Obj) (n : Nat) : (s.countWrap o n).pending = s.pending := rfl
@[simp] theorem State.countWrap_freeCount (s : State) (o : Obj) (n : Nat) : (s.countWrap o n).freeCount = s.freeCount := rfl
@[simp] theorem State.countWrap_out (s : State) (o : Obj) (n : Nat) : (s.countWrap o n).out = s.out := rfl
@[simp] theorem State.countWrap_raised (s : State) (o : Obj) (n : Nat) : (s.countWrap o n).raised = s.raised := rfl
@[simp] theorem State.countWrap_now (s : State) (o : Obj) (n : Nat) : (s.countWrap o n).now = s.now := rfl
@[simp] theorem State.countWrap_grayDt (s : State) (o : Obj) (n : Nat) : (s.countWrap o n).grayDt = s.grayDt := rfl
@[simp] theorem State.countWrap_records (s : State) (o : Obj) (n : Nat) : (s.countWrap o n).records = s.records := rfl
@[simp] theorem State.countWrap_strays (s : State) (o : Obj) (n : Nat) : (s.countWrap o n).strays = s.strays := rfl
@[simp] theorem State.countWrap_class0In (s : State) (o : Obj) (n : Nat) : (s.countWrap o n).class0In = s.class0In := rfl
@[simp] theorem State.countWrap_groupsWaiting (s : State) (o : Obj) (n : Nat) : (s.countWrap o n).groupsWaiting = s.groupsWaiting := rfl
@[simp] theorem State.countWrap_commitNext (s : State) (o : Obj) (n : Nat) : (s.countWrap o n).commitNext = s.commitNext := rfl
@[simp] theorem State.countWrap_reports (s : State) (o : Obj) (n : Nat) : (s.countWrap o n).reports = s.reports := rfl
@[simp] theorem State.countWrap_queues (s : State) (o : Obj) (n : Nat) : (s.countWrap o n).queues = s.queues := rfl
@[simp] theorem State.countWrap_lanes (s : State) (o : Obj) (n : Nat) : (s.countWrap o n).lanes = s.lanes := rfl
@[simp] theorem State.countWrap_groups (s : State) (o : Obj) (n : Nat) : (s.countWrap o n).groups = s.groups := rfl
@[simp] theorem State.countWrap_ingest (s : State) (o : Obj) (n : Nat) : (s.countWrap o n).ingest = s.ingest := rfl
@[simp] theorem State.countWrap_ports (s : State) (o : Obj) (n : Nat) : (s.countWrap o n).ports = s.ports := rfl
@[simp] theorem State.countWrap_banks (s : State) (o : Obj) (n : Nat) : (s.countWrap o n).banks = s.banks := rfl
@[simp] theorem State.countWrap_slices (s : State) (o : Obj) (n : Nat) : (s.countWrap o n).slices = s.slices := rfl
@[simp] theorem State.countWrap_crossbar (s : State) (o : Obj) (n : Nat) : (s.countWrap o n).crossbar = s.crossbar := rfl
@[simp] theorem State.countWrap_coefRows (s : State) (o : Obj) (n : Nat) : (s.countWrap o n).coefRows = s.coefRows := rfl
@[simp] theorem State.countWrap_streams (s : State) (o : Obj) (n : Nat) : (s.countWrap o n).streams = s.streams := rfl
@[simp] theorem State.countWrap_curves (s : State) (o : Obj) (n : Nat) : (s.countWrap o n).curves = s.curves := rfl
@[simp] theorem State.countWrap_calibs (s : State) (o : Obj) (n : Nat) : (s.countWrap o n).calibs = s.calibs := rfl
@[simp] theorem State.countWrap_warmup (s : State) (o : Obj) (n : Nat) : (s.countWrap o n).warmup = s.warmup := rfl
@[simp] theorem State.countWrap_posChans (s : State) (o : Obj) (n : Nat) : (s.countWrap o n).posChans = s.posChans := rfl
@[simp] theorem State.countWrap_compares (s : State) (o : Obj) (n : Nat) : (s.countWrap o n).compares = s.compares := rfl
@[simp] theorem State.countWrap_gens (s : State) (o : Obj) (n : Nat) : (s.countWrap o n).gens = s.gens := rfl
@[simp] theorem State.countWrap_tios (s : State) (o : Obj) (n : Nat) : (s.countWrap o n).tios = s.tios := rfl
@[simp] theorem State.countWrap_motions (s : State) (o : Obj) (n : Nat) : (s.countWrap o n).motions = s.motions := rfl
@[simp] theorem State.countWrap_transports (s : State) (o : Obj) (n : Nat) : (s.countWrap o n).transports = s.transports := rfl
@[simp] theorem State.countWrap_seamsOf (s : State) (o : Obj) (n : Nat) : (s.countWrap o n).seamsOf = s.seamsOf := rfl
@[simp] theorem State.countWrap_lamps (s : State) (o : Obj) (n : Nat) : (s.countWrap o n).lamps = s.lamps := rfl
@[simp] theorem State.countWrap_rings (s : State) (o : Obj) (n : Nat) : (s.countWrap o n).rings = s.rings := rfl
@[simp] theorem State.countWrap_host (s : State) (o : Obj) (n : Nat) : (s.countWrap o n).host = s.host := rfl
@[simp] theorem State.countWrap_fe (s : State) (o : Obj) (n : Nat) : (s.countWrap o n).fe = s.fe := rfl
@[simp] theorem State.countWrap_kdps (s : State) (o : Obj) (n : Nat) : (s.countWrap o n).kdps = s.kdps := rfl
@[simp] theorem State.countWrap_mode (s : State) (o : Obj) (n : Nat) : (s.countWrap o n).mode = s.mode := rfl
@[simp] theorem State.countWrap_target (s : State) (o : Obj) (n : Nat) : (s.countWrap o n).target = s.target := rfl
@[simp] theorem State.countWrap_power (s : State) (o : Obj) (n : Nat) : (s.countWrap o n).power = s.power := rfl
@[simp] theorem State.countWrap_dep (s : State) (o : Obj) (n : Nat) : (s.countWrap o n).dep = s.dep := rfl
@[simp] theorem State.countWrap_sec (s : State) (o : Obj) (n : Nat) : (s.countWrap o n).sec = s.sec := rfl
@[simp] theorem State.countWrap_boot (s : State) (o : Obj) (n : Nat) : (s.countWrap o n).boot = s.boot := rfl
@[simp] theorem State.countWrap_loops (s : State) (o : Obj) (n : Nat) : (s.countWrap o n).loops = s.loops := rfl

@[simp] theorem State.emit_pending (s : State) (o : Output) : (s.emit o).pending = s.pending := rfl
@[simp] theorem State.emit_freeCount (s : State) (o : Output) : (s.emit o).freeCount = s.freeCount := rfl
@[simp] theorem State.emit_raised (s : State) (o : Output) : (s.emit o).raised = s.raised := rfl
@[simp] theorem State.emit_now (s : State) (o : Output) : (s.emit o).now = s.now := rfl
@[simp] theorem State.emit_grayDt (s : State) (o : Output) : (s.emit o).grayDt = s.grayDt := rfl
@[simp] theorem State.emit_dict (s : State) (o : Output) : (s.emit o).dict = s.dict := rfl
@[simp] theorem State.emit_records (s : State) (o : Output) : (s.emit o).records = s.records := rfl
@[simp] theorem State.emit_strays (s : State) (o : Output) : (s.emit o).strays = s.strays := rfl
@[simp] theorem State.emit_class0In (s : State) (o : Output) : (s.emit o).class0In = s.class0In := rfl
@[simp] theorem State.emit_groupsWaiting (s : State) (o : Output) : (s.emit o).groupsWaiting = s.groupsWaiting := rfl
@[simp] theorem State.emit_commitNext (s : State) (o : Output) : (s.emit o).commitNext = s.commitNext := rfl
@[simp] theorem State.emit_reports (s : State) (o : Output) : (s.emit o).reports = s.reports := rfl
@[simp] theorem State.emit_queues (s : State) (o : Output) : (s.emit o).queues = s.queues := rfl
@[simp] theorem State.emit_lanes (s : State) (o : Output) : (s.emit o).lanes = s.lanes := rfl
@[simp] theorem State.emit_groups (s : State) (o : Output) : (s.emit o).groups = s.groups := rfl
@[simp] theorem State.emit_ingest (s : State) (o : Output) : (s.emit o).ingest = s.ingest := rfl
@[simp] theorem State.emit_ports (s : State) (o : Output) : (s.emit o).ports = s.ports := rfl
@[simp] theorem State.emit_banks (s : State) (o : Output) : (s.emit o).banks = s.banks := rfl
@[simp] theorem State.emit_slices (s : State) (o : Output) : (s.emit o).slices = s.slices := rfl
@[simp] theorem State.emit_crossbar (s : State) (o : Output) : (s.emit o).crossbar = s.crossbar := rfl
@[simp] theorem State.emit_coefRows (s : State) (o : Output) : (s.emit o).coefRows = s.coefRows := rfl
@[simp] theorem State.emit_streams (s : State) (o : Output) : (s.emit o).streams = s.streams := rfl
@[simp] theorem State.emit_curves (s : State) (o : Output) : (s.emit o).curves = s.curves := rfl
@[simp] theorem State.emit_calibs (s : State) (o : Output) : (s.emit o).calibs = s.calibs := rfl
@[simp] theorem State.emit_warmup (s : State) (o : Output) : (s.emit o).warmup = s.warmup := rfl
@[simp] theorem State.emit_posChans (s : State) (o : Output) : (s.emit o).posChans = s.posChans := rfl
@[simp] theorem State.emit_compares (s : State) (o : Output) : (s.emit o).compares = s.compares := rfl
@[simp] theorem State.emit_gens (s : State) (o : Output) : (s.emit o).gens = s.gens := rfl
@[simp] theorem State.emit_tios (s : State) (o : Output) : (s.emit o).tios = s.tios := rfl
@[simp] theorem State.emit_motions (s : State) (o : Output) : (s.emit o).motions = s.motions := rfl
@[simp] theorem State.emit_transports (s : State) (o : Output) : (s.emit o).transports = s.transports := rfl
@[simp] theorem State.emit_seamsOf (s : State) (o : Output) : (s.emit o).seamsOf = s.seamsOf := rfl
@[simp] theorem State.emit_lamps (s : State) (o : Output) : (s.emit o).lamps = s.lamps := rfl
@[simp] theorem State.emit_rings (s : State) (o : Output) : (s.emit o).rings = s.rings := rfl
@[simp] theorem State.emit_host (s : State) (o : Output) : (s.emit o).host = s.host := rfl
@[simp] theorem State.emit_fe (s : State) (o : Output) : (s.emit o).fe = s.fe := rfl
@[simp] theorem State.emit_kdps (s : State) (o : Output) : (s.emit o).kdps = s.kdps := rfl
@[simp] theorem State.emit_mode (s : State) (o : Output) : (s.emit o).mode = s.mode := rfl
@[simp] theorem State.emit_target (s : State) (o : Output) : (s.emit o).target = s.target := rfl
@[simp] theorem State.emit_power (s : State) (o : Output) : (s.emit o).power = s.power := rfl
@[simp] theorem State.emit_dep (s : State) (o : Output) : (s.emit o).dep = s.dep := rfl
@[simp] theorem State.emit_sec (s : State) (o : Output) : (s.emit o).sec = s.sec := rfl
@[simp] theorem State.emit_boot (s : State) (o : Output) : (s.emit o).boot = s.boot := rfl
@[simp] theorem State.emit_loops (s : State) (o : Output) : (s.emit o).loops = s.loops := rfl

@[simp] theorem State.setLane_pending (s : State) (n : Nat) (x : Lane) : (s.setLane n x).pending = s.pending := rfl
@[simp] theorem State.setLane_freeCount (s : State) (n : Nat) (x : Lane) : (s.setLane n x).freeCount = s.freeCount := rfl
@[simp] theorem State.setLane_out (s : State) (n : Nat) (x : Lane) : (s.setLane n x).out = s.out := rfl
@[simp] theorem State.setLane_raised (s : State) (n : Nat) (x : Lane) : (s.setLane n x).raised = s.raised := rfl
@[simp] theorem State.setLane_now (s : State) (n : Nat) (x : Lane) : (s.setLane n x).now = s.now := rfl
@[simp] theorem State.setLane_grayDt (s : State) (n : Nat) (x : Lane) : (s.setLane n x).grayDt = s.grayDt := rfl
@[simp] theorem State.setLane_dict (s : State) (n : Nat) (x : Lane) : (s.setLane n x).dict = s.dict := rfl
@[simp] theorem State.setLane_records (s : State) (n : Nat) (x : Lane) : (s.setLane n x).records = s.records := rfl
@[simp] theorem State.setLane_strays (s : State) (n : Nat) (x : Lane) : (s.setLane n x).strays = s.strays := rfl
@[simp] theorem State.setLane_class0In (s : State) (n : Nat) (x : Lane) : (s.setLane n x).class0In = s.class0In := rfl
@[simp] theorem State.setLane_groupsWaiting (s : State) (n : Nat) (x : Lane) : (s.setLane n x).groupsWaiting = s.groupsWaiting := rfl
@[simp] theorem State.setLane_commitNext (s : State) (n : Nat) (x : Lane) : (s.setLane n x).commitNext = s.commitNext := rfl
@[simp] theorem State.setLane_reports (s : State) (n : Nat) (x : Lane) : (s.setLane n x).reports = s.reports := rfl
@[simp] theorem State.setLane_queues (s : State) (n : Nat) (x : Lane) : (s.setLane n x).queues = s.queues := rfl
@[simp] theorem State.setLane_groups (s : State) (n : Nat) (x : Lane) : (s.setLane n x).groups = s.groups := rfl
@[simp] theorem State.setLane_ingest (s : State) (n : Nat) (x : Lane) : (s.setLane n x).ingest = s.ingest := rfl
@[simp] theorem State.setLane_ports (s : State) (n : Nat) (x : Lane) : (s.setLane n x).ports = s.ports := rfl
@[simp] theorem State.setLane_banks (s : State) (n : Nat) (x : Lane) : (s.setLane n x).banks = s.banks := rfl
@[simp] theorem State.setLane_slices (s : State) (n : Nat) (x : Lane) : (s.setLane n x).slices = s.slices := rfl
@[simp] theorem State.setLane_crossbar (s : State) (n : Nat) (x : Lane) : (s.setLane n x).crossbar = s.crossbar := rfl
@[simp] theorem State.setLane_coefRows (s : State) (n : Nat) (x : Lane) : (s.setLane n x).coefRows = s.coefRows := rfl
@[simp] theorem State.setLane_streams (s : State) (n : Nat) (x : Lane) : (s.setLane n x).streams = s.streams := rfl
@[simp] theorem State.setLane_curves (s : State) (n : Nat) (x : Lane) : (s.setLane n x).curves = s.curves := rfl
@[simp] theorem State.setLane_calibs (s : State) (n : Nat) (x : Lane) : (s.setLane n x).calibs = s.calibs := rfl
@[simp] theorem State.setLane_warmup (s : State) (n : Nat) (x : Lane) : (s.setLane n x).warmup = s.warmup := rfl
@[simp] theorem State.setLane_posChans (s : State) (n : Nat) (x : Lane) : (s.setLane n x).posChans = s.posChans := rfl
@[simp] theorem State.setLane_compares (s : State) (n : Nat) (x : Lane) : (s.setLane n x).compares = s.compares := rfl
@[simp] theorem State.setLane_gens (s : State) (n : Nat) (x : Lane) : (s.setLane n x).gens = s.gens := rfl
@[simp] theorem State.setLane_tios (s : State) (n : Nat) (x : Lane) : (s.setLane n x).tios = s.tios := rfl
@[simp] theorem State.setLane_motions (s : State) (n : Nat) (x : Lane) : (s.setLane n x).motions = s.motions := rfl
@[simp] theorem State.setLane_transports (s : State) (n : Nat) (x : Lane) : (s.setLane n x).transports = s.transports := rfl
@[simp] theorem State.setLane_seamsOf (s : State) (n : Nat) (x : Lane) : (s.setLane n x).seamsOf = s.seamsOf := rfl
@[simp] theorem State.setLane_lamps (s : State) (n : Nat) (x : Lane) : (s.setLane n x).lamps = s.lamps := rfl
@[simp] theorem State.setLane_rings (s : State) (n : Nat) (x : Lane) : (s.setLane n x).rings = s.rings := rfl
@[simp] theorem State.setLane_host (s : State) (n : Nat) (x : Lane) : (s.setLane n x).host = s.host := rfl
@[simp] theorem State.setLane_fe (s : State) (n : Nat) (x : Lane) : (s.setLane n x).fe = s.fe := rfl
@[simp] theorem State.setLane_kdps (s : State) (n : Nat) (x : Lane) : (s.setLane n x).kdps = s.kdps := rfl
@[simp] theorem State.setLane_mode (s : State) (n : Nat) (x : Lane) : (s.setLane n x).mode = s.mode := rfl
@[simp] theorem State.setLane_target (s : State) (n : Nat) (x : Lane) : (s.setLane n x).target = s.target := rfl
@[simp] theorem State.setLane_power (s : State) (n : Nat) (x : Lane) : (s.setLane n x).power = s.power := rfl
@[simp] theorem State.setLane_dep (s : State) (n : Nat) (x : Lane) : (s.setLane n x).dep = s.dep := rfl
@[simp] theorem State.setLane_sec (s : State) (n : Nat) (x : Lane) : (s.setLane n x).sec = s.sec := rfl
@[simp] theorem State.setLane_boot (s : State) (n : Nat) (x : Lane) : (s.setLane n x).boot = s.boot := rfl
@[simp] theorem State.setLane_loops (s : State) (n : Nat) (x : Lane) : (s.setLane n x).loops = s.loops := rfl

@[simp] theorem State.setGroup_pending (s : State) (n : Nat) (x : Group) : (s.setGroup n x).pending = s.pending := rfl
@[simp] theorem State.setGroup_freeCount (s : State) (n : Nat) (x : Group) : (s.setGroup n x).freeCount = s.freeCount := rfl
@[simp] theorem State.setGroup_out (s : State) (n : Nat) (x : Group) : (s.setGroup n x).out = s.out := rfl
@[simp] theorem State.setGroup_raised (s : State) (n : Nat) (x : Group) : (s.setGroup n x).raised = s.raised := rfl
@[simp] theorem State.setGroup_now (s : State) (n : Nat) (x : Group) : (s.setGroup n x).now = s.now := rfl
@[simp] theorem State.setGroup_grayDt (s : State) (n : Nat) (x : Group) : (s.setGroup n x).grayDt = s.grayDt := rfl
@[simp] theorem State.setGroup_dict (s : State) (n : Nat) (x : Group) : (s.setGroup n x).dict = s.dict := rfl
@[simp] theorem State.setGroup_records (s : State) (n : Nat) (x : Group) : (s.setGroup n x).records = s.records := rfl
@[simp] theorem State.setGroup_strays (s : State) (n : Nat) (x : Group) : (s.setGroup n x).strays = s.strays := rfl
@[simp] theorem State.setGroup_class0In (s : State) (n : Nat) (x : Group) : (s.setGroup n x).class0In = s.class0In := rfl
@[simp] theorem State.setGroup_groupsWaiting (s : State) (n : Nat) (x : Group) : (s.setGroup n x).groupsWaiting = s.groupsWaiting := rfl
@[simp] theorem State.setGroup_commitNext (s : State) (n : Nat) (x : Group) : (s.setGroup n x).commitNext = s.commitNext := rfl
@[simp] theorem State.setGroup_reports (s : State) (n : Nat) (x : Group) : (s.setGroup n x).reports = s.reports := rfl
@[simp] theorem State.setGroup_queues (s : State) (n : Nat) (x : Group) : (s.setGroup n x).queues = s.queues := rfl
@[simp] theorem State.setGroup_lanes (s : State) (n : Nat) (x : Group) : (s.setGroup n x).lanes = s.lanes := rfl
@[simp] theorem State.setGroup_ingest (s : State) (n : Nat) (x : Group) : (s.setGroup n x).ingest = s.ingest := rfl
@[simp] theorem State.setGroup_ports (s : State) (n : Nat) (x : Group) : (s.setGroup n x).ports = s.ports := rfl
@[simp] theorem State.setGroup_banks (s : State) (n : Nat) (x : Group) : (s.setGroup n x).banks = s.banks := rfl
@[simp] theorem State.setGroup_slices (s : State) (n : Nat) (x : Group) : (s.setGroup n x).slices = s.slices := rfl
@[simp] theorem State.setGroup_crossbar (s : State) (n : Nat) (x : Group) : (s.setGroup n x).crossbar = s.crossbar := rfl
@[simp] theorem State.setGroup_coefRows (s : State) (n : Nat) (x : Group) : (s.setGroup n x).coefRows = s.coefRows := rfl
@[simp] theorem State.setGroup_streams (s : State) (n : Nat) (x : Group) : (s.setGroup n x).streams = s.streams := rfl
@[simp] theorem State.setGroup_curves (s : State) (n : Nat) (x : Group) : (s.setGroup n x).curves = s.curves := rfl
@[simp] theorem State.setGroup_calibs (s : State) (n : Nat) (x : Group) : (s.setGroup n x).calibs = s.calibs := rfl
@[simp] theorem State.setGroup_warmup (s : State) (n : Nat) (x : Group) : (s.setGroup n x).warmup = s.warmup := rfl
@[simp] theorem State.setGroup_posChans (s : State) (n : Nat) (x : Group) : (s.setGroup n x).posChans = s.posChans := rfl
@[simp] theorem State.setGroup_compares (s : State) (n : Nat) (x : Group) : (s.setGroup n x).compares = s.compares := rfl
@[simp] theorem State.setGroup_gens (s : State) (n : Nat) (x : Group) : (s.setGroup n x).gens = s.gens := rfl
@[simp] theorem State.setGroup_tios (s : State) (n : Nat) (x : Group) : (s.setGroup n x).tios = s.tios := rfl
@[simp] theorem State.setGroup_motions (s : State) (n : Nat) (x : Group) : (s.setGroup n x).motions = s.motions := rfl
@[simp] theorem State.setGroup_transports (s : State) (n : Nat) (x : Group) : (s.setGroup n x).transports = s.transports := rfl
@[simp] theorem State.setGroup_seamsOf (s : State) (n : Nat) (x : Group) : (s.setGroup n x).seamsOf = s.seamsOf := rfl
@[simp] theorem State.setGroup_lamps (s : State) (n : Nat) (x : Group) : (s.setGroup n x).lamps = s.lamps := rfl
@[simp] theorem State.setGroup_rings (s : State) (n : Nat) (x : Group) : (s.setGroup n x).rings = s.rings := rfl
@[simp] theorem State.setGroup_host (s : State) (n : Nat) (x : Group) : (s.setGroup n x).host = s.host := rfl
@[simp] theorem State.setGroup_fe (s : State) (n : Nat) (x : Group) : (s.setGroup n x).fe = s.fe := rfl
@[simp] theorem State.setGroup_kdps (s : State) (n : Nat) (x : Group) : (s.setGroup n x).kdps = s.kdps := rfl
@[simp] theorem State.setGroup_mode (s : State) (n : Nat) (x : Group) : (s.setGroup n x).mode = s.mode := rfl
@[simp] theorem State.setGroup_target (s : State) (n : Nat) (x : Group) : (s.setGroup n x).target = s.target := rfl
@[simp] theorem State.setGroup_power (s : State) (n : Nat) (x : Group) : (s.setGroup n x).power = s.power := rfl
@[simp] theorem State.setGroup_dep (s : State) (n : Nat) (x : Group) : (s.setGroup n x).dep = s.dep := rfl
@[simp] theorem State.setGroup_sec (s : State) (n : Nat) (x : Group) : (s.setGroup n x).sec = s.sec := rfl
@[simp] theorem State.setGroup_boot (s : State) (n : Nat) (x : Group) : (s.setGroup n x).boot = s.boot := rfl
@[simp] theorem State.setGroup_loops (s : State) (n : Nat) (x : Group) : (s.setGroup n x).loops = s.loops := rfl

@[simp] theorem State.setPort_pending (s : State) (n : Nat) (x : Port) : (s.setPort n x).pending = s.pending := rfl
@[simp] theorem State.setPort_freeCount (s : State) (n : Nat) (x : Port) : (s.setPort n x).freeCount = s.freeCount := rfl
@[simp] theorem State.setPort_out (s : State) (n : Nat) (x : Port) : (s.setPort n x).out = s.out := rfl
@[simp] theorem State.setPort_raised (s : State) (n : Nat) (x : Port) : (s.setPort n x).raised = s.raised := rfl
@[simp] theorem State.setPort_now (s : State) (n : Nat) (x : Port) : (s.setPort n x).now = s.now := rfl
@[simp] theorem State.setPort_grayDt (s : State) (n : Nat) (x : Port) : (s.setPort n x).grayDt = s.grayDt := rfl
@[simp] theorem State.setPort_dict (s : State) (n : Nat) (x : Port) : (s.setPort n x).dict = s.dict := rfl
@[simp] theorem State.setPort_records (s : State) (n : Nat) (x : Port) : (s.setPort n x).records = s.records := rfl
@[simp] theorem State.setPort_strays (s : State) (n : Nat) (x : Port) : (s.setPort n x).strays = s.strays := rfl
@[simp] theorem State.setPort_class0In (s : State) (n : Nat) (x : Port) : (s.setPort n x).class0In = s.class0In := rfl
@[simp] theorem State.setPort_groupsWaiting (s : State) (n : Nat) (x : Port) : (s.setPort n x).groupsWaiting = s.groupsWaiting := rfl
@[simp] theorem State.setPort_commitNext (s : State) (n : Nat) (x : Port) : (s.setPort n x).commitNext = s.commitNext := rfl
@[simp] theorem State.setPort_reports (s : State) (n : Nat) (x : Port) : (s.setPort n x).reports = s.reports := rfl
@[simp] theorem State.setPort_queues (s : State) (n : Nat) (x : Port) : (s.setPort n x).queues = s.queues := rfl
@[simp] theorem State.setPort_lanes (s : State) (n : Nat) (x : Port) : (s.setPort n x).lanes = s.lanes := rfl
@[simp] theorem State.setPort_groups (s : State) (n : Nat) (x : Port) : (s.setPort n x).groups = s.groups := rfl
@[simp] theorem State.setPort_ingest (s : State) (n : Nat) (x : Port) : (s.setPort n x).ingest = s.ingest := rfl
@[simp] theorem State.setPort_banks (s : State) (n : Nat) (x : Port) : (s.setPort n x).banks = s.banks := rfl
@[simp] theorem State.setPort_slices (s : State) (n : Nat) (x : Port) : (s.setPort n x).slices = s.slices := rfl
@[simp] theorem State.setPort_crossbar (s : State) (n : Nat) (x : Port) : (s.setPort n x).crossbar = s.crossbar := rfl
@[simp] theorem State.setPort_coefRows (s : State) (n : Nat) (x : Port) : (s.setPort n x).coefRows = s.coefRows := rfl
@[simp] theorem State.setPort_streams (s : State) (n : Nat) (x : Port) : (s.setPort n x).streams = s.streams := rfl
@[simp] theorem State.setPort_curves (s : State) (n : Nat) (x : Port) : (s.setPort n x).curves = s.curves := rfl
@[simp] theorem State.setPort_calibs (s : State) (n : Nat) (x : Port) : (s.setPort n x).calibs = s.calibs := rfl
@[simp] theorem State.setPort_warmup (s : State) (n : Nat) (x : Port) : (s.setPort n x).warmup = s.warmup := rfl
@[simp] theorem State.setPort_posChans (s : State) (n : Nat) (x : Port) : (s.setPort n x).posChans = s.posChans := rfl
@[simp] theorem State.setPort_compares (s : State) (n : Nat) (x : Port) : (s.setPort n x).compares = s.compares := rfl
@[simp] theorem State.setPort_gens (s : State) (n : Nat) (x : Port) : (s.setPort n x).gens = s.gens := rfl
@[simp] theorem State.setPort_tios (s : State) (n : Nat) (x : Port) : (s.setPort n x).tios = s.tios := rfl
@[simp] theorem State.setPort_motions (s : State) (n : Nat) (x : Port) : (s.setPort n x).motions = s.motions := rfl
@[simp] theorem State.setPort_transports (s : State) (n : Nat) (x : Port) : (s.setPort n x).transports = s.transports := rfl
@[simp] theorem State.setPort_seamsOf (s : State) (n : Nat) (x : Port) : (s.setPort n x).seamsOf = s.seamsOf := rfl
@[simp] theorem State.setPort_lamps (s : State) (n : Nat) (x : Port) : (s.setPort n x).lamps = s.lamps := rfl
@[simp] theorem State.setPort_rings (s : State) (n : Nat) (x : Port) : (s.setPort n x).rings = s.rings := rfl
@[simp] theorem State.setPort_host (s : State) (n : Nat) (x : Port) : (s.setPort n x).host = s.host := rfl
@[simp] theorem State.setPort_fe (s : State) (n : Nat) (x : Port) : (s.setPort n x).fe = s.fe := rfl
@[simp] theorem State.setPort_kdps (s : State) (n : Nat) (x : Port) : (s.setPort n x).kdps = s.kdps := rfl
@[simp] theorem State.setPort_mode (s : State) (n : Nat) (x : Port) : (s.setPort n x).mode = s.mode := rfl
@[simp] theorem State.setPort_target (s : State) (n : Nat) (x : Port) : (s.setPort n x).target = s.target := rfl
@[simp] theorem State.setPort_power (s : State) (n : Nat) (x : Port) : (s.setPort n x).power = s.power := rfl
@[simp] theorem State.setPort_dep (s : State) (n : Nat) (x : Port) : (s.setPort n x).dep = s.dep := rfl
@[simp] theorem State.setPort_sec (s : State) (n : Nat) (x : Port) : (s.setPort n x).sec = s.sec := rfl
@[simp] theorem State.setPort_boot (s : State) (n : Nat) (x : Port) : (s.setPort n x).boot = s.boot := rfl
@[simp] theorem State.setPort_loops (s : State) (n : Nat) (x : Port) : (s.setPort n x).loops = s.loops := rfl

@[simp] theorem State.setSlice_pending (s : State) (n : Nat) (x : Slice) : (s.setSlice n x).pending = s.pending := rfl
@[simp] theorem State.setSlice_freeCount (s : State) (n : Nat) (x : Slice) : (s.setSlice n x).freeCount = s.freeCount := rfl
@[simp] theorem State.setSlice_out (s : State) (n : Nat) (x : Slice) : (s.setSlice n x).out = s.out := rfl
@[simp] theorem State.setSlice_raised (s : State) (n : Nat) (x : Slice) : (s.setSlice n x).raised = s.raised := rfl
@[simp] theorem State.setSlice_now (s : State) (n : Nat) (x : Slice) : (s.setSlice n x).now = s.now := rfl
@[simp] theorem State.setSlice_grayDt (s : State) (n : Nat) (x : Slice) : (s.setSlice n x).grayDt = s.grayDt := rfl
@[simp] theorem State.setSlice_dict (s : State) (n : Nat) (x : Slice) : (s.setSlice n x).dict = s.dict := rfl
@[simp] theorem State.setSlice_records (s : State) (n : Nat) (x : Slice) : (s.setSlice n x).records = s.records := rfl
@[simp] theorem State.setSlice_strays (s : State) (n : Nat) (x : Slice) : (s.setSlice n x).strays = s.strays := rfl
@[simp] theorem State.setSlice_class0In (s : State) (n : Nat) (x : Slice) : (s.setSlice n x).class0In = s.class0In := rfl
@[simp] theorem State.setSlice_groupsWaiting (s : State) (n : Nat) (x : Slice) : (s.setSlice n x).groupsWaiting = s.groupsWaiting := rfl
@[simp] theorem State.setSlice_commitNext (s : State) (n : Nat) (x : Slice) : (s.setSlice n x).commitNext = s.commitNext := rfl
@[simp] theorem State.setSlice_reports (s : State) (n : Nat) (x : Slice) : (s.setSlice n x).reports = s.reports := rfl
@[simp] theorem State.setSlice_queues (s : State) (n : Nat) (x : Slice) : (s.setSlice n x).queues = s.queues := rfl
@[simp] theorem State.setSlice_lanes (s : State) (n : Nat) (x : Slice) : (s.setSlice n x).lanes = s.lanes := rfl
@[simp] theorem State.setSlice_groups (s : State) (n : Nat) (x : Slice) : (s.setSlice n x).groups = s.groups := rfl
@[simp] theorem State.setSlice_ingest (s : State) (n : Nat) (x : Slice) : (s.setSlice n x).ingest = s.ingest := rfl
@[simp] theorem State.setSlice_ports (s : State) (n : Nat) (x : Slice) : (s.setSlice n x).ports = s.ports := rfl
@[simp] theorem State.setSlice_banks (s : State) (n : Nat) (x : Slice) : (s.setSlice n x).banks = s.banks := rfl
@[simp] theorem State.setSlice_crossbar (s : State) (n : Nat) (x : Slice) : (s.setSlice n x).crossbar = s.crossbar := rfl
@[simp] theorem State.setSlice_coefRows (s : State) (n : Nat) (x : Slice) : (s.setSlice n x).coefRows = s.coefRows := rfl
@[simp] theorem State.setSlice_streams (s : State) (n : Nat) (x : Slice) : (s.setSlice n x).streams = s.streams := rfl
@[simp] theorem State.setSlice_curves (s : State) (n : Nat) (x : Slice) : (s.setSlice n x).curves = s.curves := rfl
@[simp] theorem State.setSlice_calibs (s : State) (n : Nat) (x : Slice) : (s.setSlice n x).calibs = s.calibs := rfl
@[simp] theorem State.setSlice_warmup (s : State) (n : Nat) (x : Slice) : (s.setSlice n x).warmup = s.warmup := rfl
@[simp] theorem State.setSlice_posChans (s : State) (n : Nat) (x : Slice) : (s.setSlice n x).posChans = s.posChans := rfl
@[simp] theorem State.setSlice_compares (s : State) (n : Nat) (x : Slice) : (s.setSlice n x).compares = s.compares := rfl
@[simp] theorem State.setSlice_gens (s : State) (n : Nat) (x : Slice) : (s.setSlice n x).gens = s.gens := rfl
@[simp] theorem State.setSlice_tios (s : State) (n : Nat) (x : Slice) : (s.setSlice n x).tios = s.tios := rfl
@[simp] theorem State.setSlice_motions (s : State) (n : Nat) (x : Slice) : (s.setSlice n x).motions = s.motions := rfl
@[simp] theorem State.setSlice_transports (s : State) (n : Nat) (x : Slice) : (s.setSlice n x).transports = s.transports := rfl
@[simp] theorem State.setSlice_seamsOf (s : State) (n : Nat) (x : Slice) : (s.setSlice n x).seamsOf = s.seamsOf := rfl
@[simp] theorem State.setSlice_lamps (s : State) (n : Nat) (x : Slice) : (s.setSlice n x).lamps = s.lamps := rfl
@[simp] theorem State.setSlice_rings (s : State) (n : Nat) (x : Slice) : (s.setSlice n x).rings = s.rings := rfl
@[simp] theorem State.setSlice_host (s : State) (n : Nat) (x : Slice) : (s.setSlice n x).host = s.host := rfl
@[simp] theorem State.setSlice_fe (s : State) (n : Nat) (x : Slice) : (s.setSlice n x).fe = s.fe := rfl
@[simp] theorem State.setSlice_kdps (s : State) (n : Nat) (x : Slice) : (s.setSlice n x).kdps = s.kdps := rfl
@[simp] theorem State.setSlice_mode (s : State) (n : Nat) (x : Slice) : (s.setSlice n x).mode = s.mode := rfl
@[simp] theorem State.setSlice_target (s : State) (n : Nat) (x : Slice) : (s.setSlice n x).target = s.target := rfl
@[simp] theorem State.setSlice_power (s : State) (n : Nat) (x : Slice) : (s.setSlice n x).power = s.power := rfl
@[simp] theorem State.setSlice_dep (s : State) (n : Nat) (x : Slice) : (s.setSlice n x).dep = s.dep := rfl
@[simp] theorem State.setSlice_sec (s : State) (n : Nat) (x : Slice) : (s.setSlice n x).sec = s.sec := rfl
@[simp] theorem State.setSlice_boot (s : State) (n : Nat) (x : Slice) : (s.setSlice n x).boot = s.boot := rfl
@[simp] theorem State.setSlice_loops (s : State) (n : Nat) (x : Slice) : (s.setSlice n x).loops = s.loops := rfl

@[simp] theorem State.setStrm_pending (s : State) (n : Nat) (x : Stream) : (s.setStrm n x).pending = s.pending := rfl
@[simp] theorem State.setStrm_freeCount (s : State) (n : Nat) (x : Stream) : (s.setStrm n x).freeCount = s.freeCount := rfl
@[simp] theorem State.setStrm_out (s : State) (n : Nat) (x : Stream) : (s.setStrm n x).out = s.out := rfl
@[simp] theorem State.setStrm_raised (s : State) (n : Nat) (x : Stream) : (s.setStrm n x).raised = s.raised := rfl
@[simp] theorem State.setStrm_now (s : State) (n : Nat) (x : Stream) : (s.setStrm n x).now = s.now := rfl
@[simp] theorem State.setStrm_grayDt (s : State) (n : Nat) (x : Stream) : (s.setStrm n x).grayDt = s.grayDt := rfl
@[simp] theorem State.setStrm_dict (s : State) (n : Nat) (x : Stream) : (s.setStrm n x).dict = s.dict := rfl
@[simp] theorem State.setStrm_records (s : State) (n : Nat) (x : Stream) : (s.setStrm n x).records = s.records := rfl
@[simp] theorem State.setStrm_strays (s : State) (n : Nat) (x : Stream) : (s.setStrm n x).strays = s.strays := rfl
@[simp] theorem State.setStrm_class0In (s : State) (n : Nat) (x : Stream) : (s.setStrm n x).class0In = s.class0In := rfl
@[simp] theorem State.setStrm_groupsWaiting (s : State) (n : Nat) (x : Stream) : (s.setStrm n x).groupsWaiting = s.groupsWaiting := rfl
@[simp] theorem State.setStrm_commitNext (s : State) (n : Nat) (x : Stream) : (s.setStrm n x).commitNext = s.commitNext := rfl
@[simp] theorem State.setStrm_reports (s : State) (n : Nat) (x : Stream) : (s.setStrm n x).reports = s.reports := rfl
@[simp] theorem State.setStrm_queues (s : State) (n : Nat) (x : Stream) : (s.setStrm n x).queues = s.queues := rfl
@[simp] theorem State.setStrm_lanes (s : State) (n : Nat) (x : Stream) : (s.setStrm n x).lanes = s.lanes := rfl
@[simp] theorem State.setStrm_groups (s : State) (n : Nat) (x : Stream) : (s.setStrm n x).groups = s.groups := rfl
@[simp] theorem State.setStrm_ingest (s : State) (n : Nat) (x : Stream) : (s.setStrm n x).ingest = s.ingest := rfl
@[simp] theorem State.setStrm_ports (s : State) (n : Nat) (x : Stream) : (s.setStrm n x).ports = s.ports := rfl
@[simp] theorem State.setStrm_banks (s : State) (n : Nat) (x : Stream) : (s.setStrm n x).banks = s.banks := rfl
@[simp] theorem State.setStrm_slices (s : State) (n : Nat) (x : Stream) : (s.setStrm n x).slices = s.slices := rfl
@[simp] theorem State.setStrm_crossbar (s : State) (n : Nat) (x : Stream) : (s.setStrm n x).crossbar = s.crossbar := rfl
@[simp] theorem State.setStrm_coefRows (s : State) (n : Nat) (x : Stream) : (s.setStrm n x).coefRows = s.coefRows := rfl
@[simp] theorem State.setStrm_curves (s : State) (n : Nat) (x : Stream) : (s.setStrm n x).curves = s.curves := rfl
@[simp] theorem State.setStrm_calibs (s : State) (n : Nat) (x : Stream) : (s.setStrm n x).calibs = s.calibs := rfl
@[simp] theorem State.setStrm_warmup (s : State) (n : Nat) (x : Stream) : (s.setStrm n x).warmup = s.warmup := rfl
@[simp] theorem State.setStrm_posChans (s : State) (n : Nat) (x : Stream) : (s.setStrm n x).posChans = s.posChans := rfl
@[simp] theorem State.setStrm_compares (s : State) (n : Nat) (x : Stream) : (s.setStrm n x).compares = s.compares := rfl
@[simp] theorem State.setStrm_gens (s : State) (n : Nat) (x : Stream) : (s.setStrm n x).gens = s.gens := rfl
@[simp] theorem State.setStrm_tios (s : State) (n : Nat) (x : Stream) : (s.setStrm n x).tios = s.tios := rfl
@[simp] theorem State.setStrm_motions (s : State) (n : Nat) (x : Stream) : (s.setStrm n x).motions = s.motions := rfl
@[simp] theorem State.setStrm_transports (s : State) (n : Nat) (x : Stream) : (s.setStrm n x).transports = s.transports := rfl
@[simp] theorem State.setStrm_seamsOf (s : State) (n : Nat) (x : Stream) : (s.setStrm n x).seamsOf = s.seamsOf := rfl
@[simp] theorem State.setStrm_lamps (s : State) (n : Nat) (x : Stream) : (s.setStrm n x).lamps = s.lamps := rfl
@[simp] theorem State.setStrm_rings (s : State) (n : Nat) (x : Stream) : (s.setStrm n x).rings = s.rings := rfl
@[simp] theorem State.setStrm_host (s : State) (n : Nat) (x : Stream) : (s.setStrm n x).host = s.host := rfl
@[simp] theorem State.setStrm_fe (s : State) (n : Nat) (x : Stream) : (s.setStrm n x).fe = s.fe := rfl
@[simp] theorem State.setStrm_kdps (s : State) (n : Nat) (x : Stream) : (s.setStrm n x).kdps = s.kdps := rfl
@[simp] theorem State.setStrm_mode (s : State) (n : Nat) (x : Stream) : (s.setStrm n x).mode = s.mode := rfl
@[simp] theorem State.setStrm_target (s : State) (n : Nat) (x : Stream) : (s.setStrm n x).target = s.target := rfl
@[simp] theorem State.setStrm_power (s : State) (n : Nat) (x : Stream) : (s.setStrm n x).power = s.power := rfl
@[simp] theorem State.setStrm_dep (s : State) (n : Nat) (x : Stream) : (s.setStrm n x).dep = s.dep := rfl
@[simp] theorem State.setStrm_sec (s : State) (n : Nat) (x : Stream) : (s.setStrm n x).sec = s.sec := rfl
@[simp] theorem State.setStrm_boot (s : State) (n : Nat) (x : Stream) : (s.setStrm n x).boot = s.boot := rfl
@[simp] theorem State.setStrm_loops (s : State) (n : Nat) (x : Stream) : (s.setStrm n x).loops = s.loops := rfl

@[simp] theorem State.setRing_pending (s : State) (n : Nat) (x : Ring) : (s.setRing n x).pending = s.pending := rfl
@[simp] theorem State.setRing_freeCount (s : State) (n : Nat) (x : Ring) : (s.setRing n x).freeCount = s.freeCount := rfl
@[simp] theorem State.setRing_out (s : State) (n : Nat) (x : Ring) : (s.setRing n x).out = s.out := rfl
@[simp] theorem State.setRing_raised (s : State) (n : Nat) (x : Ring) : (s.setRing n x).raised = s.raised := rfl
@[simp] theorem State.setRing_now (s : State) (n : Nat) (x : Ring) : (s.setRing n x).now = s.now := rfl
@[simp] theorem State.setRing_grayDt (s : State) (n : Nat) (x : Ring) : (s.setRing n x).grayDt = s.grayDt := rfl
@[simp] theorem State.setRing_dict (s : State) (n : Nat) (x : Ring) : (s.setRing n x).dict = s.dict := rfl
@[simp] theorem State.setRing_records (s : State) (n : Nat) (x : Ring) : (s.setRing n x).records = s.records := rfl
@[simp] theorem State.setRing_strays (s : State) (n : Nat) (x : Ring) : (s.setRing n x).strays = s.strays := rfl
@[simp] theorem State.setRing_class0In (s : State) (n : Nat) (x : Ring) : (s.setRing n x).class0In = s.class0In := rfl
@[simp] theorem State.setRing_groupsWaiting (s : State) (n : Nat) (x : Ring) : (s.setRing n x).groupsWaiting = s.groupsWaiting := rfl
@[simp] theorem State.setRing_commitNext (s : State) (n : Nat) (x : Ring) : (s.setRing n x).commitNext = s.commitNext := rfl
@[simp] theorem State.setRing_reports (s : State) (n : Nat) (x : Ring) : (s.setRing n x).reports = s.reports := rfl
@[simp] theorem State.setRing_queues (s : State) (n : Nat) (x : Ring) : (s.setRing n x).queues = s.queues := rfl
@[simp] theorem State.setRing_lanes (s : State) (n : Nat) (x : Ring) : (s.setRing n x).lanes = s.lanes := rfl
@[simp] theorem State.setRing_groups (s : State) (n : Nat) (x : Ring) : (s.setRing n x).groups = s.groups := rfl
@[simp] theorem State.setRing_ingest (s : State) (n : Nat) (x : Ring) : (s.setRing n x).ingest = s.ingest := rfl
@[simp] theorem State.setRing_ports (s : State) (n : Nat) (x : Ring) : (s.setRing n x).ports = s.ports := rfl
@[simp] theorem State.setRing_banks (s : State) (n : Nat) (x : Ring) : (s.setRing n x).banks = s.banks := rfl
@[simp] theorem State.setRing_slices (s : State) (n : Nat) (x : Ring) : (s.setRing n x).slices = s.slices := rfl
@[simp] theorem State.setRing_crossbar (s : State) (n : Nat) (x : Ring) : (s.setRing n x).crossbar = s.crossbar := rfl
@[simp] theorem State.setRing_coefRows (s : State) (n : Nat) (x : Ring) : (s.setRing n x).coefRows = s.coefRows := rfl
@[simp] theorem State.setRing_streams (s : State) (n : Nat) (x : Ring) : (s.setRing n x).streams = s.streams := rfl
@[simp] theorem State.setRing_curves (s : State) (n : Nat) (x : Ring) : (s.setRing n x).curves = s.curves := rfl
@[simp] theorem State.setRing_calibs (s : State) (n : Nat) (x : Ring) : (s.setRing n x).calibs = s.calibs := rfl
@[simp] theorem State.setRing_warmup (s : State) (n : Nat) (x : Ring) : (s.setRing n x).warmup = s.warmup := rfl
@[simp] theorem State.setRing_posChans (s : State) (n : Nat) (x : Ring) : (s.setRing n x).posChans = s.posChans := rfl
@[simp] theorem State.setRing_compares (s : State) (n : Nat) (x : Ring) : (s.setRing n x).compares = s.compares := rfl
@[simp] theorem State.setRing_gens (s : State) (n : Nat) (x : Ring) : (s.setRing n x).gens = s.gens := rfl
@[simp] theorem State.setRing_tios (s : State) (n : Nat) (x : Ring) : (s.setRing n x).tios = s.tios := rfl
@[simp] theorem State.setRing_motions (s : State) (n : Nat) (x : Ring) : (s.setRing n x).motions = s.motions := rfl
@[simp] theorem State.setRing_transports (s : State) (n : Nat) (x : Ring) : (s.setRing n x).transports = s.transports := rfl
@[simp] theorem State.setRing_seamsOf (s : State) (n : Nat) (x : Ring) : (s.setRing n x).seamsOf = s.seamsOf := rfl
@[simp] theorem State.setRing_lamps (s : State) (n : Nat) (x : Ring) : (s.setRing n x).lamps = s.lamps := rfl
@[simp] theorem State.setRing_host (s : State) (n : Nat) (x : Ring) : (s.setRing n x).host = s.host := rfl
@[simp] theorem State.setRing_fe (s : State) (n : Nat) (x : Ring) : (s.setRing n x).fe = s.fe := rfl
@[simp] theorem State.setRing_kdps (s : State) (n : Nat) (x : Ring) : (s.setRing n x).kdps = s.kdps := rfl
@[simp] theorem State.setRing_mode (s : State) (n : Nat) (x : Ring) : (s.setRing n x).mode = s.mode := rfl
@[simp] theorem State.setRing_target (s : State) (n : Nat) (x : Ring) : (s.setRing n x).target = s.target := rfl
@[simp] theorem State.setRing_power (s : State) (n : Nat) (x : Ring) : (s.setRing n x).power = s.power := rfl
@[simp] theorem State.setRing_dep (s : State) (n : Nat) (x : Ring) : (s.setRing n x).dep = s.dep := rfl
@[simp] theorem State.setRing_sec (s : State) (n : Nat) (x : Ring) : (s.setRing n x).sec = s.sec := rfl
@[simp] theorem State.setRing_boot (s : State) (n : Nat) (x : Ring) : (s.setRing n x).boot = s.boot := rfl
@[simp] theorem State.setRing_loops (s : State) (n : Nat) (x : Ring) : (s.setRing n x).loops = s.loops := rfl

@[simp] theorem State.setPosChan_pending (s : State) (n : Nat) (x : PosChan) : (s.setPosChan n x).pending = s.pending := rfl
@[simp] theorem State.setPosChan_freeCount (s : State) (n : Nat) (x : PosChan) : (s.setPosChan n x).freeCount = s.freeCount := rfl
@[simp] theorem State.setPosChan_out (s : State) (n : Nat) (x : PosChan) : (s.setPosChan n x).out = s.out := rfl
@[simp] theorem State.setPosChan_raised (s : State) (n : Nat) (x : PosChan) : (s.setPosChan n x).raised = s.raised := rfl
@[simp] theorem State.setPosChan_now (s : State) (n : Nat) (x : PosChan) : (s.setPosChan n x).now = s.now := rfl
@[simp] theorem State.setPosChan_grayDt (s : State) (n : Nat) (x : PosChan) : (s.setPosChan n x).grayDt = s.grayDt := rfl
@[simp] theorem State.setPosChan_dict (s : State) (n : Nat) (x : PosChan) : (s.setPosChan n x).dict = s.dict := rfl
@[simp] theorem State.setPosChan_records (s : State) (n : Nat) (x : PosChan) : (s.setPosChan n x).records = s.records := rfl
@[simp] theorem State.setPosChan_strays (s : State) (n : Nat) (x : PosChan) : (s.setPosChan n x).strays = s.strays := rfl
@[simp] theorem State.setPosChan_class0In (s : State) (n : Nat) (x : PosChan) : (s.setPosChan n x).class0In = s.class0In := rfl
@[simp] theorem State.setPosChan_groupsWaiting (s : State) (n : Nat) (x : PosChan) : (s.setPosChan n x).groupsWaiting = s.groupsWaiting := rfl
@[simp] theorem State.setPosChan_commitNext (s : State) (n : Nat) (x : PosChan) : (s.setPosChan n x).commitNext = s.commitNext := rfl
@[simp] theorem State.setPosChan_reports (s : State) (n : Nat) (x : PosChan) : (s.setPosChan n x).reports = s.reports := rfl
@[simp] theorem State.setPosChan_queues (s : State) (n : Nat) (x : PosChan) : (s.setPosChan n x).queues = s.queues := rfl
@[simp] theorem State.setPosChan_lanes (s : State) (n : Nat) (x : PosChan) : (s.setPosChan n x).lanes = s.lanes := rfl
@[simp] theorem State.setPosChan_groups (s : State) (n : Nat) (x : PosChan) : (s.setPosChan n x).groups = s.groups := rfl
@[simp] theorem State.setPosChan_ingest (s : State) (n : Nat) (x : PosChan) : (s.setPosChan n x).ingest = s.ingest := rfl
@[simp] theorem State.setPosChan_ports (s : State) (n : Nat) (x : PosChan) : (s.setPosChan n x).ports = s.ports := rfl
@[simp] theorem State.setPosChan_banks (s : State) (n : Nat) (x : PosChan) : (s.setPosChan n x).banks = s.banks := rfl
@[simp] theorem State.setPosChan_slices (s : State) (n : Nat) (x : PosChan) : (s.setPosChan n x).slices = s.slices := rfl
@[simp] theorem State.setPosChan_crossbar (s : State) (n : Nat) (x : PosChan) : (s.setPosChan n x).crossbar = s.crossbar := rfl
@[simp] theorem State.setPosChan_coefRows (s : State) (n : Nat) (x : PosChan) : (s.setPosChan n x).coefRows = s.coefRows := rfl
@[simp] theorem State.setPosChan_streams (s : State) (n : Nat) (x : PosChan) : (s.setPosChan n x).streams = s.streams := rfl
@[simp] theorem State.setPosChan_curves (s : State) (n : Nat) (x : PosChan) : (s.setPosChan n x).curves = s.curves := rfl
@[simp] theorem State.setPosChan_calibs (s : State) (n : Nat) (x : PosChan) : (s.setPosChan n x).calibs = s.calibs := rfl
@[simp] theorem State.setPosChan_warmup (s : State) (n : Nat) (x : PosChan) : (s.setPosChan n x).warmup = s.warmup := rfl
@[simp] theorem State.setPosChan_compares (s : State) (n : Nat) (x : PosChan) : (s.setPosChan n x).compares = s.compares := rfl
@[simp] theorem State.setPosChan_gens (s : State) (n : Nat) (x : PosChan) : (s.setPosChan n x).gens = s.gens := rfl
@[simp] theorem State.setPosChan_tios (s : State) (n : Nat) (x : PosChan) : (s.setPosChan n x).tios = s.tios := rfl
@[simp] theorem State.setPosChan_motions (s : State) (n : Nat) (x : PosChan) : (s.setPosChan n x).motions = s.motions := rfl
@[simp] theorem State.setPosChan_transports (s : State) (n : Nat) (x : PosChan) : (s.setPosChan n x).transports = s.transports := rfl
@[simp] theorem State.setPosChan_seamsOf (s : State) (n : Nat) (x : PosChan) : (s.setPosChan n x).seamsOf = s.seamsOf := rfl
@[simp] theorem State.setPosChan_lamps (s : State) (n : Nat) (x : PosChan) : (s.setPosChan n x).lamps = s.lamps := rfl
@[simp] theorem State.setPosChan_rings (s : State) (n : Nat) (x : PosChan) : (s.setPosChan n x).rings = s.rings := rfl
@[simp] theorem State.setPosChan_host (s : State) (n : Nat) (x : PosChan) : (s.setPosChan n x).host = s.host := rfl
@[simp] theorem State.setPosChan_fe (s : State) (n : Nat) (x : PosChan) : (s.setPosChan n x).fe = s.fe := rfl
@[simp] theorem State.setPosChan_kdps (s : State) (n : Nat) (x : PosChan) : (s.setPosChan n x).kdps = s.kdps := rfl
@[simp] theorem State.setPosChan_mode (s : State) (n : Nat) (x : PosChan) : (s.setPosChan n x).mode = s.mode := rfl
@[simp] theorem State.setPosChan_target (s : State) (n : Nat) (x : PosChan) : (s.setPosChan n x).target = s.target := rfl
@[simp] theorem State.setPosChan_power (s : State) (n : Nat) (x : PosChan) : (s.setPosChan n x).power = s.power := rfl
@[simp] theorem State.setPosChan_dep (s : State) (n : Nat) (x : PosChan) : (s.setPosChan n x).dep = s.dep := rfl
@[simp] theorem State.setPosChan_sec (s : State) (n : Nat) (x : PosChan) : (s.setPosChan n x).sec = s.sec := rfl
@[simp] theorem State.setPosChan_boot (s : State) (n : Nat) (x : PosChan) : (s.setPosChan n x).boot = s.boot := rfl
@[simp] theorem State.setPosChan_loops (s : State) (n : Nat) (x : PosChan) : (s.setPosChan n x).loops = s.loops := rfl

@[simp] theorem State.setCmp_pending (s : State) (n : Nat) (x : Compare) : (s.setCmp n x).pending = s.pending := rfl
@[simp] theorem State.setCmp_freeCount (s : State) (n : Nat) (x : Compare) : (s.setCmp n x).freeCount = s.freeCount := rfl
@[simp] theorem State.setCmp_out (s : State) (n : Nat) (x : Compare) : (s.setCmp n x).out = s.out := rfl
@[simp] theorem State.setCmp_raised (s : State) (n : Nat) (x : Compare) : (s.setCmp n x).raised = s.raised := rfl
@[simp] theorem State.setCmp_now (s : State) (n : Nat) (x : Compare) : (s.setCmp n x).now = s.now := rfl
@[simp] theorem State.setCmp_grayDt (s : State) (n : Nat) (x : Compare) : (s.setCmp n x).grayDt = s.grayDt := rfl
@[simp] theorem State.setCmp_dict (s : State) (n : Nat) (x : Compare) : (s.setCmp n x).dict = s.dict := rfl
@[simp] theorem State.setCmp_records (s : State) (n : Nat) (x : Compare) : (s.setCmp n x).records = s.records := rfl
@[simp] theorem State.setCmp_strays (s : State) (n : Nat) (x : Compare) : (s.setCmp n x).strays = s.strays := rfl
@[simp] theorem State.setCmp_class0In (s : State) (n : Nat) (x : Compare) : (s.setCmp n x).class0In = s.class0In := rfl
@[simp] theorem State.setCmp_groupsWaiting (s : State) (n : Nat) (x : Compare) : (s.setCmp n x).groupsWaiting = s.groupsWaiting := rfl
@[simp] theorem State.setCmp_commitNext (s : State) (n : Nat) (x : Compare) : (s.setCmp n x).commitNext = s.commitNext := rfl
@[simp] theorem State.setCmp_reports (s : State) (n : Nat) (x : Compare) : (s.setCmp n x).reports = s.reports := rfl
@[simp] theorem State.setCmp_queues (s : State) (n : Nat) (x : Compare) : (s.setCmp n x).queues = s.queues := rfl
@[simp] theorem State.setCmp_lanes (s : State) (n : Nat) (x : Compare) : (s.setCmp n x).lanes = s.lanes := rfl
@[simp] theorem State.setCmp_groups (s : State) (n : Nat) (x : Compare) : (s.setCmp n x).groups = s.groups := rfl
@[simp] theorem State.setCmp_ingest (s : State) (n : Nat) (x : Compare) : (s.setCmp n x).ingest = s.ingest := rfl
@[simp] theorem State.setCmp_ports (s : State) (n : Nat) (x : Compare) : (s.setCmp n x).ports = s.ports := rfl
@[simp] theorem State.setCmp_banks (s : State) (n : Nat) (x : Compare) : (s.setCmp n x).banks = s.banks := rfl
@[simp] theorem State.setCmp_slices (s : State) (n : Nat) (x : Compare) : (s.setCmp n x).slices = s.slices := rfl
@[simp] theorem State.setCmp_crossbar (s : State) (n : Nat) (x : Compare) : (s.setCmp n x).crossbar = s.crossbar := rfl
@[simp] theorem State.setCmp_coefRows (s : State) (n : Nat) (x : Compare) : (s.setCmp n x).coefRows = s.coefRows := rfl
@[simp] theorem State.setCmp_streams (s : State) (n : Nat) (x : Compare) : (s.setCmp n x).streams = s.streams := rfl
@[simp] theorem State.setCmp_curves (s : State) (n : Nat) (x : Compare) : (s.setCmp n x).curves = s.curves := rfl
@[simp] theorem State.setCmp_calibs (s : State) (n : Nat) (x : Compare) : (s.setCmp n x).calibs = s.calibs := rfl
@[simp] theorem State.setCmp_warmup (s : State) (n : Nat) (x : Compare) : (s.setCmp n x).warmup = s.warmup := rfl
@[simp] theorem State.setCmp_posChans (s : State) (n : Nat) (x : Compare) : (s.setCmp n x).posChans = s.posChans := rfl
@[simp] theorem State.setCmp_gens (s : State) (n : Nat) (x : Compare) : (s.setCmp n x).gens = s.gens := rfl
@[simp] theorem State.setCmp_tios (s : State) (n : Nat) (x : Compare) : (s.setCmp n x).tios = s.tios := rfl
@[simp] theorem State.setCmp_motions (s : State) (n : Nat) (x : Compare) : (s.setCmp n x).motions = s.motions := rfl
@[simp] theorem State.setCmp_transports (s : State) (n : Nat) (x : Compare) : (s.setCmp n x).transports = s.transports := rfl
@[simp] theorem State.setCmp_seamsOf (s : State) (n : Nat) (x : Compare) : (s.setCmp n x).seamsOf = s.seamsOf := rfl
@[simp] theorem State.setCmp_lamps (s : State) (n : Nat) (x : Compare) : (s.setCmp n x).lamps = s.lamps := rfl
@[simp] theorem State.setCmp_rings (s : State) (n : Nat) (x : Compare) : (s.setCmp n x).rings = s.rings := rfl
@[simp] theorem State.setCmp_host (s : State) (n : Nat) (x : Compare) : (s.setCmp n x).host = s.host := rfl
@[simp] theorem State.setCmp_fe (s : State) (n : Nat) (x : Compare) : (s.setCmp n x).fe = s.fe := rfl
@[simp] theorem State.setCmp_kdps (s : State) (n : Nat) (x : Compare) : (s.setCmp n x).kdps = s.kdps := rfl
@[simp] theorem State.setCmp_mode (s : State) (n : Nat) (x : Compare) : (s.setCmp n x).mode = s.mode := rfl
@[simp] theorem State.setCmp_target (s : State) (n : Nat) (x : Compare) : (s.setCmp n x).target = s.target := rfl
@[simp] theorem State.setCmp_power (s : State) (n : Nat) (x : Compare) : (s.setCmp n x).power = s.power := rfl
@[simp] theorem State.setCmp_dep (s : State) (n : Nat) (x : Compare) : (s.setCmp n x).dep = s.dep := rfl
@[simp] theorem State.setCmp_sec (s : State) (n : Nat) (x : Compare) : (s.setCmp n x).sec = s.sec := rfl
@[simp] theorem State.setCmp_boot (s : State) (n : Nat) (x : Compare) : (s.setCmp n x).boot = s.boot := rfl
@[simp] theorem State.setCmp_loops (s : State) (n : Nat) (x : Compare) : (s.setCmp n x).loops = s.loops := rfl

@[simp] theorem State.setGen_pending (s : State) (n : Nat) (x : Gen) : (s.setGen n x).pending = s.pending := rfl
@[simp] theorem State.setGen_freeCount (s : State) (n : Nat) (x : Gen) : (s.setGen n x).freeCount = s.freeCount := rfl
@[simp] theorem State.setGen_out (s : State) (n : Nat) (x : Gen) : (s.setGen n x).out = s.out := rfl
@[simp] theorem State.setGen_raised (s : State) (n : Nat) (x : Gen) : (s.setGen n x).raised = s.raised := rfl
@[simp] theorem State.setGen_now (s : State) (n : Nat) (x : Gen) : (s.setGen n x).now = s.now := rfl
@[simp] theorem State.setGen_grayDt (s : State) (n : Nat) (x : Gen) : (s.setGen n x).grayDt = s.grayDt := rfl
@[simp] theorem State.setGen_dict (s : State) (n : Nat) (x : Gen) : (s.setGen n x).dict = s.dict := rfl
@[simp] theorem State.setGen_records (s : State) (n : Nat) (x : Gen) : (s.setGen n x).records = s.records := rfl
@[simp] theorem State.setGen_strays (s : State) (n : Nat) (x : Gen) : (s.setGen n x).strays = s.strays := rfl
@[simp] theorem State.setGen_class0In (s : State) (n : Nat) (x : Gen) : (s.setGen n x).class0In = s.class0In := rfl
@[simp] theorem State.setGen_groupsWaiting (s : State) (n : Nat) (x : Gen) : (s.setGen n x).groupsWaiting = s.groupsWaiting := rfl
@[simp] theorem State.setGen_commitNext (s : State) (n : Nat) (x : Gen) : (s.setGen n x).commitNext = s.commitNext := rfl
@[simp] theorem State.setGen_reports (s : State) (n : Nat) (x : Gen) : (s.setGen n x).reports = s.reports := rfl
@[simp] theorem State.setGen_queues (s : State) (n : Nat) (x : Gen) : (s.setGen n x).queues = s.queues := rfl
@[simp] theorem State.setGen_lanes (s : State) (n : Nat) (x : Gen) : (s.setGen n x).lanes = s.lanes := rfl
@[simp] theorem State.setGen_groups (s : State) (n : Nat) (x : Gen) : (s.setGen n x).groups = s.groups := rfl
@[simp] theorem State.setGen_ingest (s : State) (n : Nat) (x : Gen) : (s.setGen n x).ingest = s.ingest := rfl
@[simp] theorem State.setGen_ports (s : State) (n : Nat) (x : Gen) : (s.setGen n x).ports = s.ports := rfl
@[simp] theorem State.setGen_banks (s : State) (n : Nat) (x : Gen) : (s.setGen n x).banks = s.banks := rfl
@[simp] theorem State.setGen_slices (s : State) (n : Nat) (x : Gen) : (s.setGen n x).slices = s.slices := rfl
@[simp] theorem State.setGen_crossbar (s : State) (n : Nat) (x : Gen) : (s.setGen n x).crossbar = s.crossbar := rfl
@[simp] theorem State.setGen_coefRows (s : State) (n : Nat) (x : Gen) : (s.setGen n x).coefRows = s.coefRows := rfl
@[simp] theorem State.setGen_streams (s : State) (n : Nat) (x : Gen) : (s.setGen n x).streams = s.streams := rfl
@[simp] theorem State.setGen_curves (s : State) (n : Nat) (x : Gen) : (s.setGen n x).curves = s.curves := rfl
@[simp] theorem State.setGen_calibs (s : State) (n : Nat) (x : Gen) : (s.setGen n x).calibs = s.calibs := rfl
@[simp] theorem State.setGen_warmup (s : State) (n : Nat) (x : Gen) : (s.setGen n x).warmup = s.warmup := rfl
@[simp] theorem State.setGen_posChans (s : State) (n : Nat) (x : Gen) : (s.setGen n x).posChans = s.posChans := rfl
@[simp] theorem State.setGen_compares (s : State) (n : Nat) (x : Gen) : (s.setGen n x).compares = s.compares := rfl
@[simp] theorem State.setGen_tios (s : State) (n : Nat) (x : Gen) : (s.setGen n x).tios = s.tios := rfl
@[simp] theorem State.setGen_motions (s : State) (n : Nat) (x : Gen) : (s.setGen n x).motions = s.motions := rfl
@[simp] theorem State.setGen_transports (s : State) (n : Nat) (x : Gen) : (s.setGen n x).transports = s.transports := rfl
@[simp] theorem State.setGen_seamsOf (s : State) (n : Nat) (x : Gen) : (s.setGen n x).seamsOf = s.seamsOf := rfl
@[simp] theorem State.setGen_lamps (s : State) (n : Nat) (x : Gen) : (s.setGen n x).lamps = s.lamps := rfl
@[simp] theorem State.setGen_rings (s : State) (n : Nat) (x : Gen) : (s.setGen n x).rings = s.rings := rfl
@[simp] theorem State.setGen_host (s : State) (n : Nat) (x : Gen) : (s.setGen n x).host = s.host := rfl
@[simp] theorem State.setGen_fe (s : State) (n : Nat) (x : Gen) : (s.setGen n x).fe = s.fe := rfl
@[simp] theorem State.setGen_kdps (s : State) (n : Nat) (x : Gen) : (s.setGen n x).kdps = s.kdps := rfl
@[simp] theorem State.setGen_mode (s : State) (n : Nat) (x : Gen) : (s.setGen n x).mode = s.mode := rfl
@[simp] theorem State.setGen_target (s : State) (n : Nat) (x : Gen) : (s.setGen n x).target = s.target := rfl
@[simp] theorem State.setGen_power (s : State) (n : Nat) (x : Gen) : (s.setGen n x).power = s.power := rfl
@[simp] theorem State.setGen_dep (s : State) (n : Nat) (x : Gen) : (s.setGen n x).dep = s.dep := rfl
@[simp] theorem State.setGen_sec (s : State) (n : Nat) (x : Gen) : (s.setGen n x).sec = s.sec := rfl
@[simp] theorem State.setGen_boot (s : State) (n : Nat) (x : Gen) : (s.setGen n x).boot = s.boot := rfl
@[simp] theorem State.setGen_loops (s : State) (n : Nat) (x : Gen) : (s.setGen n x).loops = s.loops := rfl

@[simp] theorem State.setTio_pending (s : State) (n : Nat) (x : Tio) : (s.setTio n x).pending = s.pending := rfl
@[simp] theorem State.setTio_freeCount (s : State) (n : Nat) (x : Tio) : (s.setTio n x).freeCount = s.freeCount := rfl
@[simp] theorem State.setTio_out (s : State) (n : Nat) (x : Tio) : (s.setTio n x).out = s.out := rfl
@[simp] theorem State.setTio_raised (s : State) (n : Nat) (x : Tio) : (s.setTio n x).raised = s.raised := rfl
@[simp] theorem State.setTio_now (s : State) (n : Nat) (x : Tio) : (s.setTio n x).now = s.now := rfl
@[simp] theorem State.setTio_grayDt (s : State) (n : Nat) (x : Tio) : (s.setTio n x).grayDt = s.grayDt := rfl
@[simp] theorem State.setTio_dict (s : State) (n : Nat) (x : Tio) : (s.setTio n x).dict = s.dict := rfl
@[simp] theorem State.setTio_records (s : State) (n : Nat) (x : Tio) : (s.setTio n x).records = s.records := rfl
@[simp] theorem State.setTio_strays (s : State) (n : Nat) (x : Tio) : (s.setTio n x).strays = s.strays := rfl
@[simp] theorem State.setTio_class0In (s : State) (n : Nat) (x : Tio) : (s.setTio n x).class0In = s.class0In := rfl
@[simp] theorem State.setTio_groupsWaiting (s : State) (n : Nat) (x : Tio) : (s.setTio n x).groupsWaiting = s.groupsWaiting := rfl
@[simp] theorem State.setTio_commitNext (s : State) (n : Nat) (x : Tio) : (s.setTio n x).commitNext = s.commitNext := rfl
@[simp] theorem State.setTio_reports (s : State) (n : Nat) (x : Tio) : (s.setTio n x).reports = s.reports := rfl
@[simp] theorem State.setTio_queues (s : State) (n : Nat) (x : Tio) : (s.setTio n x).queues = s.queues := rfl
@[simp] theorem State.setTio_lanes (s : State) (n : Nat) (x : Tio) : (s.setTio n x).lanes = s.lanes := rfl
@[simp] theorem State.setTio_groups (s : State) (n : Nat) (x : Tio) : (s.setTio n x).groups = s.groups := rfl
@[simp] theorem State.setTio_ingest (s : State) (n : Nat) (x : Tio) : (s.setTio n x).ingest = s.ingest := rfl
@[simp] theorem State.setTio_ports (s : State) (n : Nat) (x : Tio) : (s.setTio n x).ports = s.ports := rfl
@[simp] theorem State.setTio_banks (s : State) (n : Nat) (x : Tio) : (s.setTio n x).banks = s.banks := rfl
@[simp] theorem State.setTio_slices (s : State) (n : Nat) (x : Tio) : (s.setTio n x).slices = s.slices := rfl
@[simp] theorem State.setTio_crossbar (s : State) (n : Nat) (x : Tio) : (s.setTio n x).crossbar = s.crossbar := rfl
@[simp] theorem State.setTio_coefRows (s : State) (n : Nat) (x : Tio) : (s.setTio n x).coefRows = s.coefRows := rfl
@[simp] theorem State.setTio_streams (s : State) (n : Nat) (x : Tio) : (s.setTio n x).streams = s.streams := rfl
@[simp] theorem State.setTio_curves (s : State) (n : Nat) (x : Tio) : (s.setTio n x).curves = s.curves := rfl
@[simp] theorem State.setTio_calibs (s : State) (n : Nat) (x : Tio) : (s.setTio n x).calibs = s.calibs := rfl
@[simp] theorem State.setTio_warmup (s : State) (n : Nat) (x : Tio) : (s.setTio n x).warmup = s.warmup := rfl
@[simp] theorem State.setTio_posChans (s : State) (n : Nat) (x : Tio) : (s.setTio n x).posChans = s.posChans := rfl
@[simp] theorem State.setTio_compares (s : State) (n : Nat) (x : Tio) : (s.setTio n x).compares = s.compares := rfl
@[simp] theorem State.setTio_gens (s : State) (n : Nat) (x : Tio) : (s.setTio n x).gens = s.gens := rfl
@[simp] theorem State.setTio_motions (s : State) (n : Nat) (x : Tio) : (s.setTio n x).motions = s.motions := rfl
@[simp] theorem State.setTio_transports (s : State) (n : Nat) (x : Tio) : (s.setTio n x).transports = s.transports := rfl
@[simp] theorem State.setTio_seamsOf (s : State) (n : Nat) (x : Tio) : (s.setTio n x).seamsOf = s.seamsOf := rfl
@[simp] theorem State.setTio_lamps (s : State) (n : Nat) (x : Tio) : (s.setTio n x).lamps = s.lamps := rfl
@[simp] theorem State.setTio_rings (s : State) (n : Nat) (x : Tio) : (s.setTio n x).rings = s.rings := rfl
@[simp] theorem State.setTio_host (s : State) (n : Nat) (x : Tio) : (s.setTio n x).host = s.host := rfl
@[simp] theorem State.setTio_fe (s : State) (n : Nat) (x : Tio) : (s.setTio n x).fe = s.fe := rfl
@[simp] theorem State.setTio_kdps (s : State) (n : Nat) (x : Tio) : (s.setTio n x).kdps = s.kdps := rfl
@[simp] theorem State.setTio_mode (s : State) (n : Nat) (x : Tio) : (s.setTio n x).mode = s.mode := rfl
@[simp] theorem State.setTio_target (s : State) (n : Nat) (x : Tio) : (s.setTio n x).target = s.target := rfl
@[simp] theorem State.setTio_power (s : State) (n : Nat) (x : Tio) : (s.setTio n x).power = s.power := rfl
@[simp] theorem State.setTio_dep (s : State) (n : Nat) (x : Tio) : (s.setTio n x).dep = s.dep := rfl
@[simp] theorem State.setTio_sec (s : State) (n : Nat) (x : Tio) : (s.setTio n x).sec = s.sec := rfl
@[simp] theorem State.setTio_boot (s : State) (n : Nat) (x : Tio) : (s.setTio n x).boot = s.boot := rfl
@[simp] theorem State.setTio_loops (s : State) (n : Nat) (x : Tio) : (s.setTio n x).loops = s.loops := rfl

@[simp] theorem State.setMotion_pending (s : State) (n : Nat) (x : Motion) : (s.setMotion n x).pending = s.pending := rfl
@[simp] theorem State.setMotion_freeCount (s : State) (n : Nat) (x : Motion) : (s.setMotion n x).freeCount = s.freeCount := rfl
@[simp] theorem State.setMotion_out (s : State) (n : Nat) (x : Motion) : (s.setMotion n x).out = s.out := rfl
@[simp] theorem State.setMotion_raised (s : State) (n : Nat) (x : Motion) : (s.setMotion n x).raised = s.raised := rfl
@[simp] theorem State.setMotion_now (s : State) (n : Nat) (x : Motion) : (s.setMotion n x).now = s.now := rfl
@[simp] theorem State.setMotion_grayDt (s : State) (n : Nat) (x : Motion) : (s.setMotion n x).grayDt = s.grayDt := rfl
@[simp] theorem State.setMotion_dict (s : State) (n : Nat) (x : Motion) : (s.setMotion n x).dict = s.dict := rfl
@[simp] theorem State.setMotion_records (s : State) (n : Nat) (x : Motion) : (s.setMotion n x).records = s.records := rfl
@[simp] theorem State.setMotion_strays (s : State) (n : Nat) (x : Motion) : (s.setMotion n x).strays = s.strays := rfl
@[simp] theorem State.setMotion_class0In (s : State) (n : Nat) (x : Motion) : (s.setMotion n x).class0In = s.class0In := rfl
@[simp] theorem State.setMotion_groupsWaiting (s : State) (n : Nat) (x : Motion) : (s.setMotion n x).groupsWaiting = s.groupsWaiting := rfl
@[simp] theorem State.setMotion_commitNext (s : State) (n : Nat) (x : Motion) : (s.setMotion n x).commitNext = s.commitNext := rfl
@[simp] theorem State.setMotion_reports (s : State) (n : Nat) (x : Motion) : (s.setMotion n x).reports = s.reports := rfl
@[simp] theorem State.setMotion_queues (s : State) (n : Nat) (x : Motion) : (s.setMotion n x).queues = s.queues := rfl
@[simp] theorem State.setMotion_lanes (s : State) (n : Nat) (x : Motion) : (s.setMotion n x).lanes = s.lanes := rfl
@[simp] theorem State.setMotion_groups (s : State) (n : Nat) (x : Motion) : (s.setMotion n x).groups = s.groups := rfl
@[simp] theorem State.setMotion_ingest (s : State) (n : Nat) (x : Motion) : (s.setMotion n x).ingest = s.ingest := rfl
@[simp] theorem State.setMotion_ports (s : State) (n : Nat) (x : Motion) : (s.setMotion n x).ports = s.ports := rfl
@[simp] theorem State.setMotion_banks (s : State) (n : Nat) (x : Motion) : (s.setMotion n x).banks = s.banks := rfl
@[simp] theorem State.setMotion_slices (s : State) (n : Nat) (x : Motion) : (s.setMotion n x).slices = s.slices := rfl
@[simp] theorem State.setMotion_crossbar (s : State) (n : Nat) (x : Motion) : (s.setMotion n x).crossbar = s.crossbar := rfl
@[simp] theorem State.setMotion_coefRows (s : State) (n : Nat) (x : Motion) : (s.setMotion n x).coefRows = s.coefRows := rfl
@[simp] theorem State.setMotion_streams (s : State) (n : Nat) (x : Motion) : (s.setMotion n x).streams = s.streams := rfl
@[simp] theorem State.setMotion_curves (s : State) (n : Nat) (x : Motion) : (s.setMotion n x).curves = s.curves := rfl
@[simp] theorem State.setMotion_calibs (s : State) (n : Nat) (x : Motion) : (s.setMotion n x).calibs = s.calibs := rfl
@[simp] theorem State.setMotion_warmup (s : State) (n : Nat) (x : Motion) : (s.setMotion n x).warmup = s.warmup := rfl
@[simp] theorem State.setMotion_posChans (s : State) (n : Nat) (x : Motion) : (s.setMotion n x).posChans = s.posChans := rfl
@[simp] theorem State.setMotion_compares (s : State) (n : Nat) (x : Motion) : (s.setMotion n x).compares = s.compares := rfl
@[simp] theorem State.setMotion_gens (s : State) (n : Nat) (x : Motion) : (s.setMotion n x).gens = s.gens := rfl
@[simp] theorem State.setMotion_tios (s : State) (n : Nat) (x : Motion) : (s.setMotion n x).tios = s.tios := rfl
@[simp] theorem State.setMotion_transports (s : State) (n : Nat) (x : Motion) : (s.setMotion n x).transports = s.transports := rfl
@[simp] theorem State.setMotion_seamsOf (s : State) (n : Nat) (x : Motion) : (s.setMotion n x).seamsOf = s.seamsOf := rfl
@[simp] theorem State.setMotion_lamps (s : State) (n : Nat) (x : Motion) : (s.setMotion n x).lamps = s.lamps := rfl
@[simp] theorem State.setMotion_rings (s : State) (n : Nat) (x : Motion) : (s.setMotion n x).rings = s.rings := rfl
@[simp] theorem State.setMotion_host (s : State) (n : Nat) (x : Motion) : (s.setMotion n x).host = s.host := rfl
@[simp] theorem State.setMotion_fe (s : State) (n : Nat) (x : Motion) : (s.setMotion n x).fe = s.fe := rfl
@[simp] theorem State.setMotion_kdps (s : State) (n : Nat) (x : Motion) : (s.setMotion n x).kdps = s.kdps := rfl
@[simp] theorem State.setMotion_mode (s : State) (n : Nat) (x : Motion) : (s.setMotion n x).mode = s.mode := rfl
@[simp] theorem State.setMotion_target (s : State) (n : Nat) (x : Motion) : (s.setMotion n x).target = s.target := rfl
@[simp] theorem State.setMotion_power (s : State) (n : Nat) (x : Motion) : (s.setMotion n x).power = s.power := rfl
@[simp] theorem State.setMotion_dep (s : State) (n : Nat) (x : Motion) : (s.setMotion n x).dep = s.dep := rfl
@[simp] theorem State.setMotion_sec (s : State) (n : Nat) (x : Motion) : (s.setMotion n x).sec = s.sec := rfl
@[simp] theorem State.setMotion_boot (s : State) (n : Nat) (x : Motion) : (s.setMotion n x).boot = s.boot := rfl
@[simp] theorem State.setMotion_loops (s : State) (n : Nat) (x : Motion) : (s.setMotion n x).loops = s.loops := rfl

@[simp] theorem State.setTrans_pending (s : State) (n : Nat) (x : Transport) : (s.setTrans n x).pending = s.pending := rfl
@[simp] theorem State.setTrans_freeCount (s : State) (n : Nat) (x : Transport) : (s.setTrans n x).freeCount = s.freeCount := rfl
@[simp] theorem State.setTrans_out (s : State) (n : Nat) (x : Transport) : (s.setTrans n x).out = s.out := rfl
@[simp] theorem State.setTrans_raised (s : State) (n : Nat) (x : Transport) : (s.setTrans n x).raised = s.raised := rfl
@[simp] theorem State.setTrans_now (s : State) (n : Nat) (x : Transport) : (s.setTrans n x).now = s.now := rfl
@[simp] theorem State.setTrans_grayDt (s : State) (n : Nat) (x : Transport) : (s.setTrans n x).grayDt = s.grayDt := rfl
@[simp] theorem State.setTrans_dict (s : State) (n : Nat) (x : Transport) : (s.setTrans n x).dict = s.dict := rfl
@[simp] theorem State.setTrans_records (s : State) (n : Nat) (x : Transport) : (s.setTrans n x).records = s.records := rfl
@[simp] theorem State.setTrans_strays (s : State) (n : Nat) (x : Transport) : (s.setTrans n x).strays = s.strays := rfl
@[simp] theorem State.setTrans_class0In (s : State) (n : Nat) (x : Transport) : (s.setTrans n x).class0In = s.class0In := rfl
@[simp] theorem State.setTrans_groupsWaiting (s : State) (n : Nat) (x : Transport) : (s.setTrans n x).groupsWaiting = s.groupsWaiting := rfl
@[simp] theorem State.setTrans_commitNext (s : State) (n : Nat) (x : Transport) : (s.setTrans n x).commitNext = s.commitNext := rfl
@[simp] theorem State.setTrans_reports (s : State) (n : Nat) (x : Transport) : (s.setTrans n x).reports = s.reports := rfl
@[simp] theorem State.setTrans_queues (s : State) (n : Nat) (x : Transport) : (s.setTrans n x).queues = s.queues := rfl
@[simp] theorem State.setTrans_lanes (s : State) (n : Nat) (x : Transport) : (s.setTrans n x).lanes = s.lanes := rfl
@[simp] theorem State.setTrans_groups (s : State) (n : Nat) (x : Transport) : (s.setTrans n x).groups = s.groups := rfl
@[simp] theorem State.setTrans_ingest (s : State) (n : Nat) (x : Transport) : (s.setTrans n x).ingest = s.ingest := rfl
@[simp] theorem State.setTrans_ports (s : State) (n : Nat) (x : Transport) : (s.setTrans n x).ports = s.ports := rfl
@[simp] theorem State.setTrans_banks (s : State) (n : Nat) (x : Transport) : (s.setTrans n x).banks = s.banks := rfl
@[simp] theorem State.setTrans_slices (s : State) (n : Nat) (x : Transport) : (s.setTrans n x).slices = s.slices := rfl
@[simp] theorem State.setTrans_crossbar (s : State) (n : Nat) (x : Transport) : (s.setTrans n x).crossbar = s.crossbar := rfl
@[simp] theorem State.setTrans_coefRows (s : State) (n : Nat) (x : Transport) : (s.setTrans n x).coefRows = s.coefRows := rfl
@[simp] theorem State.setTrans_streams (s : State) (n : Nat) (x : Transport) : (s.setTrans n x).streams = s.streams := rfl
@[simp] theorem State.setTrans_curves (s : State) (n : Nat) (x : Transport) : (s.setTrans n x).curves = s.curves := rfl
@[simp] theorem State.setTrans_calibs (s : State) (n : Nat) (x : Transport) : (s.setTrans n x).calibs = s.calibs := rfl
@[simp] theorem State.setTrans_warmup (s : State) (n : Nat) (x : Transport) : (s.setTrans n x).warmup = s.warmup := rfl
@[simp] theorem State.setTrans_posChans (s : State) (n : Nat) (x : Transport) : (s.setTrans n x).posChans = s.posChans := rfl
@[simp] theorem State.setTrans_compares (s : State) (n : Nat) (x : Transport) : (s.setTrans n x).compares = s.compares := rfl
@[simp] theorem State.setTrans_gens (s : State) (n : Nat) (x : Transport) : (s.setTrans n x).gens = s.gens := rfl
@[simp] theorem State.setTrans_tios (s : State) (n : Nat) (x : Transport) : (s.setTrans n x).tios = s.tios := rfl
@[simp] theorem State.setTrans_motions (s : State) (n : Nat) (x : Transport) : (s.setTrans n x).motions = s.motions := rfl
@[simp] theorem State.setTrans_seamsOf (s : State) (n : Nat) (x : Transport) : (s.setTrans n x).seamsOf = s.seamsOf := rfl
@[simp] theorem State.setTrans_lamps (s : State) (n : Nat) (x : Transport) : (s.setTrans n x).lamps = s.lamps := rfl
@[simp] theorem State.setTrans_rings (s : State) (n : Nat) (x : Transport) : (s.setTrans n x).rings = s.rings := rfl
@[simp] theorem State.setTrans_host (s : State) (n : Nat) (x : Transport) : (s.setTrans n x).host = s.host := rfl
@[simp] theorem State.setTrans_fe (s : State) (n : Nat) (x : Transport) : (s.setTrans n x).fe = s.fe := rfl
@[simp] theorem State.setTrans_kdps (s : State) (n : Nat) (x : Transport) : (s.setTrans n x).kdps = s.kdps := rfl
@[simp] theorem State.setTrans_mode (s : State) (n : Nat) (x : Transport) : (s.setTrans n x).mode = s.mode := rfl
@[simp] theorem State.setTrans_target (s : State) (n : Nat) (x : Transport) : (s.setTrans n x).target = s.target := rfl
@[simp] theorem State.setTrans_power (s : State) (n : Nat) (x : Transport) : (s.setTrans n x).power = s.power := rfl
@[simp] theorem State.setTrans_dep (s : State) (n : Nat) (x : Transport) : (s.setTrans n x).dep = s.dep := rfl
@[simp] theorem State.setTrans_sec (s : State) (n : Nat) (x : Transport) : (s.setTrans n x).sec = s.sec := rfl
@[simp] theorem State.setTrans_boot (s : State) (n : Nat) (x : Transport) : (s.setTrans n x).boot = s.boot := rfl
@[simp] theorem State.setTrans_loops (s : State) (n : Nat) (x : Transport) : (s.setTrans n x).loops = s.loops := rfl

@[simp] theorem State.setSeam_pending (s : State) (n : Nat) (x : Seam) : (s.setSeam n x).pending = s.pending := rfl
@[simp] theorem State.setSeam_freeCount (s : State) (n : Nat) (x : Seam) : (s.setSeam n x).freeCount = s.freeCount := rfl
@[simp] theorem State.setSeam_out (s : State) (n : Nat) (x : Seam) : (s.setSeam n x).out = s.out := rfl
@[simp] theorem State.setSeam_raised (s : State) (n : Nat) (x : Seam) : (s.setSeam n x).raised = s.raised := rfl
@[simp] theorem State.setSeam_now (s : State) (n : Nat) (x : Seam) : (s.setSeam n x).now = s.now := rfl
@[simp] theorem State.setSeam_grayDt (s : State) (n : Nat) (x : Seam) : (s.setSeam n x).grayDt = s.grayDt := rfl
@[simp] theorem State.setSeam_dict (s : State) (n : Nat) (x : Seam) : (s.setSeam n x).dict = s.dict := rfl
@[simp] theorem State.setSeam_records (s : State) (n : Nat) (x : Seam) : (s.setSeam n x).records = s.records := rfl
@[simp] theorem State.setSeam_strays (s : State) (n : Nat) (x : Seam) : (s.setSeam n x).strays = s.strays := rfl
@[simp] theorem State.setSeam_class0In (s : State) (n : Nat) (x : Seam) : (s.setSeam n x).class0In = s.class0In := rfl
@[simp] theorem State.setSeam_groupsWaiting (s : State) (n : Nat) (x : Seam) : (s.setSeam n x).groupsWaiting = s.groupsWaiting := rfl
@[simp] theorem State.setSeam_commitNext (s : State) (n : Nat) (x : Seam) : (s.setSeam n x).commitNext = s.commitNext := rfl
@[simp] theorem State.setSeam_reports (s : State) (n : Nat) (x : Seam) : (s.setSeam n x).reports = s.reports := rfl
@[simp] theorem State.setSeam_queues (s : State) (n : Nat) (x : Seam) : (s.setSeam n x).queues = s.queues := rfl
@[simp] theorem State.setSeam_lanes (s : State) (n : Nat) (x : Seam) : (s.setSeam n x).lanes = s.lanes := rfl
@[simp] theorem State.setSeam_groups (s : State) (n : Nat) (x : Seam) : (s.setSeam n x).groups = s.groups := rfl
@[simp] theorem State.setSeam_ingest (s : State) (n : Nat) (x : Seam) : (s.setSeam n x).ingest = s.ingest := rfl
@[simp] theorem State.setSeam_ports (s : State) (n : Nat) (x : Seam) : (s.setSeam n x).ports = s.ports := rfl
@[simp] theorem State.setSeam_banks (s : State) (n : Nat) (x : Seam) : (s.setSeam n x).banks = s.banks := rfl
@[simp] theorem State.setSeam_slices (s : State) (n : Nat) (x : Seam) : (s.setSeam n x).slices = s.slices := rfl
@[simp] theorem State.setSeam_crossbar (s : State) (n : Nat) (x : Seam) : (s.setSeam n x).crossbar = s.crossbar := rfl
@[simp] theorem State.setSeam_coefRows (s : State) (n : Nat) (x : Seam) : (s.setSeam n x).coefRows = s.coefRows := rfl
@[simp] theorem State.setSeam_streams (s : State) (n : Nat) (x : Seam) : (s.setSeam n x).streams = s.streams := rfl
@[simp] theorem State.setSeam_curves (s : State) (n : Nat) (x : Seam) : (s.setSeam n x).curves = s.curves := rfl
@[simp] theorem State.setSeam_calibs (s : State) (n : Nat) (x : Seam) : (s.setSeam n x).calibs = s.calibs := rfl
@[simp] theorem State.setSeam_warmup (s : State) (n : Nat) (x : Seam) : (s.setSeam n x).warmup = s.warmup := rfl
@[simp] theorem State.setSeam_posChans (s : State) (n : Nat) (x : Seam) : (s.setSeam n x).posChans = s.posChans := rfl
@[simp] theorem State.setSeam_compares (s : State) (n : Nat) (x : Seam) : (s.setSeam n x).compares = s.compares := rfl
@[simp] theorem State.setSeam_gens (s : State) (n : Nat) (x : Seam) : (s.setSeam n x).gens = s.gens := rfl
@[simp] theorem State.setSeam_tios (s : State) (n : Nat) (x : Seam) : (s.setSeam n x).tios = s.tios := rfl
@[simp] theorem State.setSeam_motions (s : State) (n : Nat) (x : Seam) : (s.setSeam n x).motions = s.motions := rfl
@[simp] theorem State.setSeam_transports (s : State) (n : Nat) (x : Seam) : (s.setSeam n x).transports = s.transports := rfl
@[simp] theorem State.setSeam_lamps (s : State) (n : Nat) (x : Seam) : (s.setSeam n x).lamps = s.lamps := rfl
@[simp] theorem State.setSeam_rings (s : State) (n : Nat) (x : Seam) : (s.setSeam n x).rings = s.rings := rfl
@[simp] theorem State.setSeam_host (s : State) (n : Nat) (x : Seam) : (s.setSeam n x).host = s.host := rfl
@[simp] theorem State.setSeam_fe (s : State) (n : Nat) (x : Seam) : (s.setSeam n x).fe = s.fe := rfl
@[simp] theorem State.setSeam_kdps (s : State) (n : Nat) (x : Seam) : (s.setSeam n x).kdps = s.kdps := rfl
@[simp] theorem State.setSeam_mode (s : State) (n : Nat) (x : Seam) : (s.setSeam n x).mode = s.mode := rfl
@[simp] theorem State.setSeam_target (s : State) (n : Nat) (x : Seam) : (s.setSeam n x).target = s.target := rfl
@[simp] theorem State.setSeam_power (s : State) (n : Nat) (x : Seam) : (s.setSeam n x).power = s.power := rfl
@[simp] theorem State.setSeam_dep (s : State) (n : Nat) (x : Seam) : (s.setSeam n x).dep = s.dep := rfl
@[simp] theorem State.setSeam_sec (s : State) (n : Nat) (x : Seam) : (s.setSeam n x).sec = s.sec := rfl
@[simp] theorem State.setSeam_boot (s : State) (n : Nat) (x : Seam) : (s.setSeam n x).boot = s.boot := rfl
@[simp] theorem State.setSeam_loops (s : State) (n : Nat) (x : Seam) : (s.setSeam n x).loops = s.loops := rfl

@[simp] theorem State.setCalib_pending (s : State) (n : Nat) (x : Calib) : (s.setCalib n x).pending = s.pending := rfl
@[simp] theorem State.setCalib_freeCount (s : State) (n : Nat) (x : Calib) : (s.setCalib n x).freeCount = s.freeCount := rfl
@[simp] theorem State.setCalib_out (s : State) (n : Nat) (x : Calib) : (s.setCalib n x).out = s.out := rfl
@[simp] theorem State.setCalib_raised (s : State) (n : Nat) (x : Calib) : (s.setCalib n x).raised = s.raised := rfl
@[simp] theorem State.setCalib_now (s : State) (n : Nat) (x : Calib) : (s.setCalib n x).now = s.now := rfl
@[simp] theorem State.setCalib_grayDt (s : State) (n : Nat) (x : Calib) : (s.setCalib n x).grayDt = s.grayDt := rfl
@[simp] theorem State.setCalib_dict (s : State) (n : Nat) (x : Calib) : (s.setCalib n x).dict = s.dict := rfl
@[simp] theorem State.setCalib_records (s : State) (n : Nat) (x : Calib) : (s.setCalib n x).records = s.records := rfl
@[simp] theorem State.setCalib_strays (s : State) (n : Nat) (x : Calib) : (s.setCalib n x).strays = s.strays := rfl
@[simp] theorem State.setCalib_class0In (s : State) (n : Nat) (x : Calib) : (s.setCalib n x).class0In = s.class0In := rfl
@[simp] theorem State.setCalib_groupsWaiting (s : State) (n : Nat) (x : Calib) : (s.setCalib n x).groupsWaiting = s.groupsWaiting := rfl
@[simp] theorem State.setCalib_commitNext (s : State) (n : Nat) (x : Calib) : (s.setCalib n x).commitNext = s.commitNext := rfl
@[simp] theorem State.setCalib_reports (s : State) (n : Nat) (x : Calib) : (s.setCalib n x).reports = s.reports := rfl
@[simp] theorem State.setCalib_queues (s : State) (n : Nat) (x : Calib) : (s.setCalib n x).queues = s.queues := rfl
@[simp] theorem State.setCalib_lanes (s : State) (n : Nat) (x : Calib) : (s.setCalib n x).lanes = s.lanes := rfl
@[simp] theorem State.setCalib_groups (s : State) (n : Nat) (x : Calib) : (s.setCalib n x).groups = s.groups := rfl
@[simp] theorem State.setCalib_ingest (s : State) (n : Nat) (x : Calib) : (s.setCalib n x).ingest = s.ingest := rfl
@[simp] theorem State.setCalib_ports (s : State) (n : Nat) (x : Calib) : (s.setCalib n x).ports = s.ports := rfl
@[simp] theorem State.setCalib_banks (s : State) (n : Nat) (x : Calib) : (s.setCalib n x).banks = s.banks := rfl
@[simp] theorem State.setCalib_slices (s : State) (n : Nat) (x : Calib) : (s.setCalib n x).slices = s.slices := rfl
@[simp] theorem State.setCalib_crossbar (s : State) (n : Nat) (x : Calib) : (s.setCalib n x).crossbar = s.crossbar := rfl
@[simp] theorem State.setCalib_coefRows (s : State) (n : Nat) (x : Calib) : (s.setCalib n x).coefRows = s.coefRows := rfl
@[simp] theorem State.setCalib_streams (s : State) (n : Nat) (x : Calib) : (s.setCalib n x).streams = s.streams := rfl
@[simp] theorem State.setCalib_curves (s : State) (n : Nat) (x : Calib) : (s.setCalib n x).curves = s.curves := rfl
@[simp] theorem State.setCalib_warmup (s : State) (n : Nat) (x : Calib) : (s.setCalib n x).warmup = s.warmup := rfl
@[simp] theorem State.setCalib_posChans (s : State) (n : Nat) (x : Calib) : (s.setCalib n x).posChans = s.posChans := rfl
@[simp] theorem State.setCalib_compares (s : State) (n : Nat) (x : Calib) : (s.setCalib n x).compares = s.compares := rfl
@[simp] theorem State.setCalib_gens (s : State) (n : Nat) (x : Calib) : (s.setCalib n x).gens = s.gens := rfl
@[simp] theorem State.setCalib_tios (s : State) (n : Nat) (x : Calib) : (s.setCalib n x).tios = s.tios := rfl
@[simp] theorem State.setCalib_motions (s : State) (n : Nat) (x : Calib) : (s.setCalib n x).motions = s.motions := rfl
@[simp] theorem State.setCalib_transports (s : State) (n : Nat) (x : Calib) : (s.setCalib n x).transports = s.transports := rfl
@[simp] theorem State.setCalib_seamsOf (s : State) (n : Nat) (x : Calib) : (s.setCalib n x).seamsOf = s.seamsOf := rfl
@[simp] theorem State.setCalib_lamps (s : State) (n : Nat) (x : Calib) : (s.setCalib n x).lamps = s.lamps := rfl
@[simp] theorem State.setCalib_rings (s : State) (n : Nat) (x : Calib) : (s.setCalib n x).rings = s.rings := rfl
@[simp] theorem State.setCalib_host (s : State) (n : Nat) (x : Calib) : (s.setCalib n x).host = s.host := rfl
@[simp] theorem State.setCalib_fe (s : State) (n : Nat) (x : Calib) : (s.setCalib n x).fe = s.fe := rfl
@[simp] theorem State.setCalib_kdps (s : State) (n : Nat) (x : Calib) : (s.setCalib n x).kdps = s.kdps := rfl
@[simp] theorem State.setCalib_mode (s : State) (n : Nat) (x : Calib) : (s.setCalib n x).mode = s.mode := rfl
@[simp] theorem State.setCalib_target (s : State) (n : Nat) (x : Calib) : (s.setCalib n x).target = s.target := rfl
@[simp] theorem State.setCalib_power (s : State) (n : Nat) (x : Calib) : (s.setCalib n x).power = s.power := rfl
@[simp] theorem State.setCalib_dep (s : State) (n : Nat) (x : Calib) : (s.setCalib n x).dep = s.dep := rfl
@[simp] theorem State.setCalib_sec (s : State) (n : Nat) (x : Calib) : (s.setCalib n x).sec = s.sec := rfl
@[simp] theorem State.setCalib_boot (s : State) (n : Nat) (x : Calib) : (s.setCalib n x).boot = s.boot := rfl
@[simp] theorem State.setCalib_loops (s : State) (n : Nat) (x : Calib) : (s.setCalib n x).loops = s.loops := rfl

@[simp] theorem State.setBank_pending (s : State) (n : Nat) (x : BankState) : (s.setBank n x).pending = s.pending := rfl
@[simp] theorem State.setBank_freeCount (s : State) (n : Nat) (x : BankState) : (s.setBank n x).freeCount = s.freeCount := rfl
@[simp] theorem State.setBank_out (s : State) (n : Nat) (x : BankState) : (s.setBank n x).out = s.out := rfl
@[simp] theorem State.setBank_raised (s : State) (n : Nat) (x : BankState) : (s.setBank n x).raised = s.raised := rfl
@[simp] theorem State.setBank_now (s : State) (n : Nat) (x : BankState) : (s.setBank n x).now = s.now := rfl
@[simp] theorem State.setBank_grayDt (s : State) (n : Nat) (x : BankState) : (s.setBank n x).grayDt = s.grayDt := rfl
@[simp] theorem State.setBank_dict (s : State) (n : Nat) (x : BankState) : (s.setBank n x).dict = s.dict := rfl
@[simp] theorem State.setBank_records (s : State) (n : Nat) (x : BankState) : (s.setBank n x).records = s.records := rfl
@[simp] theorem State.setBank_strays (s : State) (n : Nat) (x : BankState) : (s.setBank n x).strays = s.strays := rfl
@[simp] theorem State.setBank_class0In (s : State) (n : Nat) (x : BankState) : (s.setBank n x).class0In = s.class0In := rfl
@[simp] theorem State.setBank_groupsWaiting (s : State) (n : Nat) (x : BankState) : (s.setBank n x).groupsWaiting = s.groupsWaiting := rfl
@[simp] theorem State.setBank_commitNext (s : State) (n : Nat) (x : BankState) : (s.setBank n x).commitNext = s.commitNext := rfl
@[simp] theorem State.setBank_reports (s : State) (n : Nat) (x : BankState) : (s.setBank n x).reports = s.reports := rfl
@[simp] theorem State.setBank_queues (s : State) (n : Nat) (x : BankState) : (s.setBank n x).queues = s.queues := rfl
@[simp] theorem State.setBank_lanes (s : State) (n : Nat) (x : BankState) : (s.setBank n x).lanes = s.lanes := rfl
@[simp] theorem State.setBank_groups (s : State) (n : Nat) (x : BankState) : (s.setBank n x).groups = s.groups := rfl
@[simp] theorem State.setBank_ingest (s : State) (n : Nat) (x : BankState) : (s.setBank n x).ingest = s.ingest := rfl
@[simp] theorem State.setBank_ports (s : State) (n : Nat) (x : BankState) : (s.setBank n x).ports = s.ports := rfl
@[simp] theorem State.setBank_slices (s : State) (n : Nat) (x : BankState) : (s.setBank n x).slices = s.slices := rfl
@[simp] theorem State.setBank_crossbar (s : State) (n : Nat) (x : BankState) : (s.setBank n x).crossbar = s.crossbar := rfl
@[simp] theorem State.setBank_coefRows (s : State) (n : Nat) (x : BankState) : (s.setBank n x).coefRows = s.coefRows := rfl
@[simp] theorem State.setBank_streams (s : State) (n : Nat) (x : BankState) : (s.setBank n x).streams = s.streams := rfl
@[simp] theorem State.setBank_curves (s : State) (n : Nat) (x : BankState) : (s.setBank n x).curves = s.curves := rfl
@[simp] theorem State.setBank_calibs (s : State) (n : Nat) (x : BankState) : (s.setBank n x).calibs = s.calibs := rfl
@[simp] theorem State.setBank_warmup (s : State) (n : Nat) (x : BankState) : (s.setBank n x).warmup = s.warmup := rfl
@[simp] theorem State.setBank_posChans (s : State) (n : Nat) (x : BankState) : (s.setBank n x).posChans = s.posChans := rfl
@[simp] theorem State.setBank_compares (s : State) (n : Nat) (x : BankState) : (s.setBank n x).compares = s.compares := rfl
@[simp] theorem State.setBank_gens (s : State) (n : Nat) (x : BankState) : (s.setBank n x).gens = s.gens := rfl
@[simp] theorem State.setBank_tios (s : State) (n : Nat) (x : BankState) : (s.setBank n x).tios = s.tios := rfl
@[simp] theorem State.setBank_motions (s : State) (n : Nat) (x : BankState) : (s.setBank n x).motions = s.motions := rfl
@[simp] theorem State.setBank_transports (s : State) (n : Nat) (x : BankState) : (s.setBank n x).transports = s.transports := rfl
@[simp] theorem State.setBank_seamsOf (s : State) (n : Nat) (x : BankState) : (s.setBank n x).seamsOf = s.seamsOf := rfl
@[simp] theorem State.setBank_lamps (s : State) (n : Nat) (x : BankState) : (s.setBank n x).lamps = s.lamps := rfl
@[simp] theorem State.setBank_rings (s : State) (n : Nat) (x : BankState) : (s.setBank n x).rings = s.rings := rfl
@[simp] theorem State.setBank_host (s : State) (n : Nat) (x : BankState) : (s.setBank n x).host = s.host := rfl
@[simp] theorem State.setBank_fe (s : State) (n : Nat) (x : BankState) : (s.setBank n x).fe = s.fe := rfl
@[simp] theorem State.setBank_kdps (s : State) (n : Nat) (x : BankState) : (s.setBank n x).kdps = s.kdps := rfl
@[simp] theorem State.setBank_mode (s : State) (n : Nat) (x : BankState) : (s.setBank n x).mode = s.mode := rfl
@[simp] theorem State.setBank_target (s : State) (n : Nat) (x : BankState) : (s.setBank n x).target = s.target := rfl
@[simp] theorem State.setBank_power (s : State) (n : Nat) (x : BankState) : (s.setBank n x).power = s.power := rfl
@[simp] theorem State.setBank_dep (s : State) (n : Nat) (x : BankState) : (s.setBank n x).dep = s.dep := rfl
@[simp] theorem State.setBank_sec (s : State) (n : Nat) (x : BankState) : (s.setBank n x).sec = s.sec := rfl
@[simp] theorem State.setBank_boot (s : State) (n : Nat) (x : BankState) : (s.setBank n x).boot = s.boot := rfl
@[simp] theorem State.setBank_loops (s : State) (n : Nat) (x : BankState) : (s.setBank n x).loops = s.loops := rfl

@[simp] theorem State.setQueue_pending (s : State) (n : Nat) (x : Queue) : (s.setQueue n x).pending = s.pending := rfl
@[simp] theorem State.setQueue_freeCount (s : State) (n : Nat) (x : Queue) : (s.setQueue n x).freeCount = s.freeCount := rfl
@[simp] theorem State.setQueue_out (s : State) (n : Nat) (x : Queue) : (s.setQueue n x).out = s.out := rfl
@[simp] theorem State.setQueue_raised (s : State) (n : Nat) (x : Queue) : (s.setQueue n x).raised = s.raised := rfl
@[simp] theorem State.setQueue_now (s : State) (n : Nat) (x : Queue) : (s.setQueue n x).now = s.now := rfl
@[simp] theorem State.setQueue_grayDt (s : State) (n : Nat) (x : Queue) : (s.setQueue n x).grayDt = s.grayDt := rfl
@[simp] theorem State.setQueue_dict (s : State) (n : Nat) (x : Queue) : (s.setQueue n x).dict = s.dict := rfl
@[simp] theorem State.setQueue_records (s : State) (n : Nat) (x : Queue) : (s.setQueue n x).records = s.records := rfl
@[simp] theorem State.setQueue_strays (s : State) (n : Nat) (x : Queue) : (s.setQueue n x).strays = s.strays := rfl
@[simp] theorem State.setQueue_class0In (s : State) (n : Nat) (x : Queue) : (s.setQueue n x).class0In = s.class0In := rfl
@[simp] theorem State.setQueue_groupsWaiting (s : State) (n : Nat) (x : Queue) : (s.setQueue n x).groupsWaiting = s.groupsWaiting := rfl
@[simp] theorem State.setQueue_commitNext (s : State) (n : Nat) (x : Queue) : (s.setQueue n x).commitNext = s.commitNext := rfl
@[simp] theorem State.setQueue_reports (s : State) (n : Nat) (x : Queue) : (s.setQueue n x).reports = s.reports := rfl
@[simp] theorem State.setQueue_lanes (s : State) (n : Nat) (x : Queue) : (s.setQueue n x).lanes = s.lanes := rfl
@[simp] theorem State.setQueue_groups (s : State) (n : Nat) (x : Queue) : (s.setQueue n x).groups = s.groups := rfl
@[simp] theorem State.setQueue_ingest (s : State) (n : Nat) (x : Queue) : (s.setQueue n x).ingest = s.ingest := rfl
@[simp] theorem State.setQueue_ports (s : State) (n : Nat) (x : Queue) : (s.setQueue n x).ports = s.ports := rfl
@[simp] theorem State.setQueue_banks (s : State) (n : Nat) (x : Queue) : (s.setQueue n x).banks = s.banks := rfl
@[simp] theorem State.setQueue_slices (s : State) (n : Nat) (x : Queue) : (s.setQueue n x).slices = s.slices := rfl
@[simp] theorem State.setQueue_crossbar (s : State) (n : Nat) (x : Queue) : (s.setQueue n x).crossbar = s.crossbar := rfl
@[simp] theorem State.setQueue_coefRows (s : State) (n : Nat) (x : Queue) : (s.setQueue n x).coefRows = s.coefRows := rfl
@[simp] theorem State.setQueue_streams (s : State) (n : Nat) (x : Queue) : (s.setQueue n x).streams = s.streams := rfl
@[simp] theorem State.setQueue_curves (s : State) (n : Nat) (x : Queue) : (s.setQueue n x).curves = s.curves := rfl
@[simp] theorem State.setQueue_calibs (s : State) (n : Nat) (x : Queue) : (s.setQueue n x).calibs = s.calibs := rfl
@[simp] theorem State.setQueue_warmup (s : State) (n : Nat) (x : Queue) : (s.setQueue n x).warmup = s.warmup := rfl
@[simp] theorem State.setQueue_posChans (s : State) (n : Nat) (x : Queue) : (s.setQueue n x).posChans = s.posChans := rfl
@[simp] theorem State.setQueue_compares (s : State) (n : Nat) (x : Queue) : (s.setQueue n x).compares = s.compares := rfl
@[simp] theorem State.setQueue_gens (s : State) (n : Nat) (x : Queue) : (s.setQueue n x).gens = s.gens := rfl
@[simp] theorem State.setQueue_tios (s : State) (n : Nat) (x : Queue) : (s.setQueue n x).tios = s.tios := rfl
@[simp] theorem State.setQueue_motions (s : State) (n : Nat) (x : Queue) : (s.setQueue n x).motions = s.motions := rfl
@[simp] theorem State.setQueue_transports (s : State) (n : Nat) (x : Queue) : (s.setQueue n x).transports = s.transports := rfl
@[simp] theorem State.setQueue_seamsOf (s : State) (n : Nat) (x : Queue) : (s.setQueue n x).seamsOf = s.seamsOf := rfl
@[simp] theorem State.setQueue_lamps (s : State) (n : Nat) (x : Queue) : (s.setQueue n x).lamps = s.lamps := rfl
@[simp] theorem State.setQueue_rings (s : State) (n : Nat) (x : Queue) : (s.setQueue n x).rings = s.rings := rfl
@[simp] theorem State.setQueue_host (s : State) (n : Nat) (x : Queue) : (s.setQueue n x).host = s.host := rfl
@[simp] theorem State.setQueue_fe (s : State) (n : Nat) (x : Queue) : (s.setQueue n x).fe = s.fe := rfl
@[simp] theorem State.setQueue_kdps (s : State) (n : Nat) (x : Queue) : (s.setQueue n x).kdps = s.kdps := rfl
@[simp] theorem State.setQueue_mode (s : State) (n : Nat) (x : Queue) : (s.setQueue n x).mode = s.mode := rfl
@[simp] theorem State.setQueue_target (s : State) (n : Nat) (x : Queue) : (s.setQueue n x).target = s.target := rfl
@[simp] theorem State.setQueue_power (s : State) (n : Nat) (x : Queue) : (s.setQueue n x).power = s.power := rfl
@[simp] theorem State.setQueue_dep (s : State) (n : Nat) (x : Queue) : (s.setQueue n x).dep = s.dep := rfl
@[simp] theorem State.setQueue_sec (s : State) (n : Nat) (x : Queue) : (s.setQueue n x).sec = s.sec := rfl
@[simp] theorem State.setQueue_boot (s : State) (n : Nat) (x : Queue) : (s.setQueue n x).boot = s.boot := rfl
@[simp] theorem State.setQueue_loops (s : State) (n : Nat) (x : Queue) : (s.setQueue n x).loops = s.loops := rfl

@[simp] theorem State.loopRan_pending (s : State) (l u : Nat) : (s.loopRan l u).pending = s.pending := rfl
@[simp] theorem State.loopRan_freeCount (s : State) (l u : Nat) : (s.loopRan l u).freeCount = s.freeCount := rfl
@[simp] theorem State.loopRan_out (s : State) (l u : Nat) : (s.loopRan l u).out = s.out := rfl
@[simp] theorem State.loopRan_raised (s : State) (l u : Nat) : (s.loopRan l u).raised = s.raised := rfl
@[simp] theorem State.loopRan_now (s : State) (l u : Nat) : (s.loopRan l u).now = s.now := rfl
@[simp] theorem State.loopRan_grayDt (s : State) (l u : Nat) : (s.loopRan l u).grayDt = s.grayDt := rfl
@[simp] theorem State.loopRan_dict (s : State) (l u : Nat) : (s.loopRan l u).dict = s.dict := rfl
@[simp] theorem State.loopRan_records (s : State) (l u : Nat) : (s.loopRan l u).records = s.records := rfl
@[simp] theorem State.loopRan_strays (s : State) (l u : Nat) : (s.loopRan l u).strays = s.strays := rfl
@[simp] theorem State.loopRan_class0In (s : State) (l u : Nat) : (s.loopRan l u).class0In = s.class0In := rfl
@[simp] theorem State.loopRan_groupsWaiting (s : State) (l u : Nat) : (s.loopRan l u).groupsWaiting = s.groupsWaiting := rfl
@[simp] theorem State.loopRan_commitNext (s : State) (l u : Nat) : (s.loopRan l u).commitNext = s.commitNext := rfl
@[simp] theorem State.loopRan_reports (s : State) (l u : Nat) : (s.loopRan l u).reports = s.reports := rfl
@[simp] theorem State.loopRan_queues (s : State) (l u : Nat) : (s.loopRan l u).queues = s.queues := rfl
@[simp] theorem State.loopRan_lanes (s : State) (l u : Nat) : (s.loopRan l u).lanes = s.lanes := rfl
@[simp] theorem State.loopRan_groups (s : State) (l u : Nat) : (s.loopRan l u).groups = s.groups := rfl
@[simp] theorem State.loopRan_ingest (s : State) (l u : Nat) : (s.loopRan l u).ingest = s.ingest := rfl
@[simp] theorem State.loopRan_ports (s : State) (l u : Nat) : (s.loopRan l u).ports = s.ports := rfl
@[simp] theorem State.loopRan_banks (s : State) (l u : Nat) : (s.loopRan l u).banks = s.banks := rfl
@[simp] theorem State.loopRan_slices (s : State) (l u : Nat) : (s.loopRan l u).slices = s.slices := rfl
@[simp] theorem State.loopRan_crossbar (s : State) (l u : Nat) : (s.loopRan l u).crossbar = s.crossbar := rfl
@[simp] theorem State.loopRan_coefRows (s : State) (l u : Nat) : (s.loopRan l u).coefRows = s.coefRows := rfl
@[simp] theorem State.loopRan_streams (s : State) (l u : Nat) : (s.loopRan l u).streams = s.streams := rfl
@[simp] theorem State.loopRan_curves (s : State) (l u : Nat) : (s.loopRan l u).curves = s.curves := rfl
@[simp] theorem State.loopRan_calibs (s : State) (l u : Nat) : (s.loopRan l u).calibs = s.calibs := rfl
@[simp] theorem State.loopRan_warmup (s : State) (l u : Nat) : (s.loopRan l u).warmup = s.warmup := rfl
@[simp] theorem State.loopRan_posChans (s : State) (l u : Nat) : (s.loopRan l u).posChans = s.posChans := rfl
@[simp] theorem State.loopRan_compares (s : State) (l u : Nat) : (s.loopRan l u).compares = s.compares := rfl
@[simp] theorem State.loopRan_gens (s : State) (l u : Nat) : (s.loopRan l u).gens = s.gens := rfl
@[simp] theorem State.loopRan_tios (s : State) (l u : Nat) : (s.loopRan l u).tios = s.tios := rfl
@[simp] theorem State.loopRan_motions (s : State) (l u : Nat) : (s.loopRan l u).motions = s.motions := rfl
@[simp] theorem State.loopRan_transports (s : State) (l u : Nat) : (s.loopRan l u).transports = s.transports := rfl
@[simp] theorem State.loopRan_seamsOf (s : State) (l u : Nat) : (s.loopRan l u).seamsOf = s.seamsOf := rfl
@[simp] theorem State.loopRan_lamps (s : State) (l u : Nat) : (s.loopRan l u).lamps = s.lamps := rfl
@[simp] theorem State.loopRan_rings (s : State) (l u : Nat) : (s.loopRan l u).rings = s.rings := rfl
@[simp] theorem State.loopRan_host (s : State) (l u : Nat) : (s.loopRan l u).host = s.host := rfl
@[simp] theorem State.loopRan_fe (s : State) (l u : Nat) : (s.loopRan l u).fe = s.fe := rfl
@[simp] theorem State.loopRan_kdps (s : State) (l u : Nat) : (s.loopRan l u).kdps = s.kdps := rfl
@[simp] theorem State.loopRan_mode (s : State) (l u : Nat) : (s.loopRan l u).mode = s.mode := rfl
@[simp] theorem State.loopRan_target (s : State) (l u : Nat) : (s.loopRan l u).target = s.target := rfl
@[simp] theorem State.loopRan_power (s : State) (l u : Nat) : (s.loopRan l u).power = s.power := rfl
@[simp] theorem State.loopRan_dep (s : State) (l u : Nat) : (s.loopRan l u).dep = s.dep := rfl
@[simp] theorem State.loopRan_sec (s : State) (l u : Nat) : (s.loopRan l u).sec = s.sec := rfl
@[simp] theorem State.loopRan_boot (s : State) (l u : Nat) : (s.loopRan l u).boot = s.boot := rfl

@[simp] theorem State.updLane_eq (s : State) (n : Nat) (f : Lane → Lane) : s.updLane n f = s.setLane n (f (s.lane n)) := rfl
@[simp] theorem State.updGroup_eq (s : State) (n : Nat) (f : Group → Group) : s.updGroup n f = s.setGroup n (f (s.group n)) := rfl
@[simp] theorem State.updPort_eq (s : State) (n : Nat) (f : Port → Port) : s.updPort n f = s.setPort n (f (s.port n)) := rfl
@[simp] theorem State.updSlice_eq (s : State) (n : Nat) (f : Slice → Slice) : s.updSlice n f = s.setSlice n (f (s.slice n)) := rfl
@[simp] theorem State.updStrm_eq (s : State) (n : Nat) (f : Stream → Stream) : s.updStrm n f = s.setStrm n (f (s.strm n)) := rfl
@[simp] theorem State.updRing_eq (s : State) (n : Nat) (f : Ring → Ring) : s.updRing n f = s.setRing n (f (s.ring n)) := rfl
@[simp] theorem State.updPosChan_eq (s : State) (n : Nat) (f : PosChan → PosChan) : s.updPosChan n f = s.setPosChan n (f (s.posChan n)) := rfl
@[simp] theorem State.updCmp_eq (s : State) (n : Nat) (f : Compare → Compare) : s.updCmp n f = s.setCmp n (f (s.cmp n)) := rfl
@[simp] theorem State.updGen_eq (s : State) (n : Nat) (f : Gen → Gen) : s.updGen n f = s.setGen n (f (s.gen n)) := rfl
@[simp] theorem State.updTio_eq (s : State) (n : Nat) (f : Tio → Tio) : s.updTio n f = s.setTio n (f (s.tio n)) := rfl
@[simp] theorem State.updMotion_eq (s : State) (n : Nat) (f : Motion → Motion) : s.updMotion n f = s.setMotion n (f (s.motion n)) := rfl
@[simp] theorem State.updTrans_eq (s : State) (n : Nat) (f : Transport → Transport) : s.updTrans n f = s.setTrans n (f (s.trans n)) := rfl
@[simp] theorem State.updSeam_eq (s : State) (n : Nat) (f : Seam → Seam) : s.updSeam n f = s.setSeam n (f (s.seam n)) := rfl
@[simp] theorem State.updCalib_eq (s : State) (n : Nat) (f : Calib → Calib) : s.updCalib n f = s.setCalib n (f (s.calib n)) := rfl

/-! ### What waits for the host link -/

@[simp] theorem State.setTx_pending (s : State) (n : Nat) (l : List Tx) : (s.setTx n l).pending = s.pending := by
  unfold State.setTx; split
  · rfl
  · split <;> rfl
@[simp] theorem enq_pending (n : Nat) (x : Output) (s : State) : (enq n x s).pending = s.pending := State.setTx_pending _ _ _
@[simp] theorem State.setTx_freeCount (s : State) (n : Nat) (l : List Tx) : (s.setTx n l).freeCount = s.freeCount := by
  unfold State.setTx; split
  · rfl
  · split <;> rfl
@[simp] theorem enq_freeCount (n : Nat) (x : Output) (s : State) : (enq n x s).freeCount = s.freeCount := State.setTx_freeCount _ _ _
@[simp] theorem State.setTx_out (s : State) (n : Nat) (l : List Tx) : (s.setTx n l).out = s.out := by
  unfold State.setTx; split
  · rfl
  · split <;> rfl
@[simp] theorem enq_out (n : Nat) (x : Output) (s : State) : (enq n x s).out = s.out := State.setTx_out _ _ _
@[simp] theorem State.setTx_raised (s : State) (n : Nat) (l : List Tx) : (s.setTx n l).raised = s.raised := by
  unfold State.setTx; split
  · rfl
  · split <;> rfl
@[simp] theorem enq_raised (n : Nat) (x : Output) (s : State) : (enq n x s).raised = s.raised := State.setTx_raised _ _ _
@[simp] theorem State.setTx_now (s : State) (n : Nat) (l : List Tx) : (s.setTx n l).now = s.now := by
  unfold State.setTx; split
  · rfl
  · split <;> rfl
@[simp] theorem enq_now (n : Nat) (x : Output) (s : State) : (enq n x s).now = s.now := State.setTx_now _ _ _
@[simp] theorem State.setTx_grayDt (s : State) (n : Nat) (l : List Tx) : (s.setTx n l).grayDt = s.grayDt := by
  unfold State.setTx; split
  · rfl
  · split <;> rfl
@[simp] theorem enq_grayDt (n : Nat) (x : Output) (s : State) : (enq n x s).grayDt = s.grayDt := State.setTx_grayDt _ _ _
@[simp] theorem State.setTx_dict (s : State) (n : Nat) (l : List Tx) : (s.setTx n l).dict = s.dict := by
  unfold State.setTx; split
  · rfl
  · split <;> rfl
@[simp] theorem enq_dict (n : Nat) (x : Output) (s : State) : (enq n x s).dict = s.dict := State.setTx_dict _ _ _
@[simp] theorem State.setTx_records (s : State) (n : Nat) (l : List Tx) : (s.setTx n l).records = s.records := by
  unfold State.setTx; split
  · rfl
  · split <;> rfl
@[simp] theorem enq_records (n : Nat) (x : Output) (s : State) : (enq n x s).records = s.records := State.setTx_records _ _ _
@[simp] theorem State.setTx_strays (s : State) (n : Nat) (l : List Tx) : (s.setTx n l).strays = s.strays := by
  unfold State.setTx; split
  · rfl
  · split <;> rfl
@[simp] theorem enq_strays (n : Nat) (x : Output) (s : State) : (enq n x s).strays = s.strays := State.setTx_strays _ _ _
@[simp] theorem State.setTx_class0In (s : State) (n : Nat) (l : List Tx) : (s.setTx n l).class0In = s.class0In := by
  unfold State.setTx; split
  · rfl
  · split <;> rfl
@[simp] theorem enq_class0In (n : Nat) (x : Output) (s : State) : (enq n x s).class0In = s.class0In := State.setTx_class0In _ _ _
@[simp] theorem State.setTx_groupsWaiting (s : State) (n : Nat) (l : List Tx) : (s.setTx n l).groupsWaiting = s.groupsWaiting := by
  unfold State.setTx; split
  · rfl
  · split <;> rfl
@[simp] theorem enq_groupsWaiting (n : Nat) (x : Output) (s : State) : (enq n x s).groupsWaiting = s.groupsWaiting := State.setTx_groupsWaiting _ _ _
@[simp] theorem State.setTx_commitNext (s : State) (n : Nat) (l : List Tx) : (s.setTx n l).commitNext = s.commitNext := by
  unfold State.setTx; split
  · rfl
  · split <;> rfl
@[simp] theorem enq_commitNext (n : Nat) (x : Output) (s : State) : (enq n x s).commitNext = s.commitNext := State.setTx_commitNext _ _ _
@[simp] theorem State.setTx_reports (s : State) (n : Nat) (l : List Tx) : (s.setTx n l).reports = s.reports := by
  unfold State.setTx; split
  · rfl
  · split <;> rfl
@[simp] theorem enq_reports (n : Nat) (x : Output) (s : State) : (enq n x s).reports = s.reports := State.setTx_reports _ _ _
@[simp] theorem State.setTx_queues (s : State) (n : Nat) (l : List Tx) : (s.setTx n l).queues = s.queues := by
  unfold State.setTx; split
  · rfl
  · split <;> rfl
@[simp] theorem enq_queues (n : Nat) (x : Output) (s : State) : (enq n x s).queues = s.queues := State.setTx_queues _ _ _
@[simp] theorem State.setTx_lanes (s : State) (n : Nat) (l : List Tx) : (s.setTx n l).lanes = s.lanes := by
  unfold State.setTx; split
  · rfl
  · split <;> rfl
@[simp] theorem enq_lanes (n : Nat) (x : Output) (s : State) : (enq n x s).lanes = s.lanes := State.setTx_lanes _ _ _
@[simp] theorem State.setTx_groups (s : State) (n : Nat) (l : List Tx) : (s.setTx n l).groups = s.groups := by
  unfold State.setTx; split
  · rfl
  · split <;> rfl
@[simp] theorem enq_groups (n : Nat) (x : Output) (s : State) : (enq n x s).groups = s.groups := State.setTx_groups _ _ _
@[simp] theorem State.setTx_ingest (s : State) (n : Nat) (l : List Tx) : (s.setTx n l).ingest = s.ingest := by
  unfold State.setTx; split
  · rfl
  · split <;> rfl
@[simp] theorem enq_ingest (n : Nat) (x : Output) (s : State) : (enq n x s).ingest = s.ingest := State.setTx_ingest _ _ _
@[simp] theorem State.setTx_ports (s : State) (n : Nat) (l : List Tx) : (s.setTx n l).ports = s.ports := by
  unfold State.setTx; split
  · rfl
  · split <;> rfl
@[simp] theorem enq_ports (n : Nat) (x : Output) (s : State) : (enq n x s).ports = s.ports := State.setTx_ports _ _ _
@[simp] theorem State.setTx_banks (s : State) (n : Nat) (l : List Tx) : (s.setTx n l).banks = s.banks := by
  unfold State.setTx; split
  · rfl
  · split <;> rfl
@[simp] theorem enq_banks (n : Nat) (x : Output) (s : State) : (enq n x s).banks = s.banks := State.setTx_banks _ _ _
@[simp] theorem State.setTx_slices (s : State) (n : Nat) (l : List Tx) : (s.setTx n l).slices = s.slices := by
  unfold State.setTx; split
  · rfl
  · split <;> rfl
@[simp] theorem enq_slices (n : Nat) (x : Output) (s : State) : (enq n x s).slices = s.slices := State.setTx_slices _ _ _
@[simp] theorem State.setTx_crossbar (s : State) (n : Nat) (l : List Tx) : (s.setTx n l).crossbar = s.crossbar := by
  unfold State.setTx; split
  · rfl
  · split <;> rfl
@[simp] theorem enq_crossbar (n : Nat) (x : Output) (s : State) : (enq n x s).crossbar = s.crossbar := State.setTx_crossbar _ _ _
@[simp] theorem State.setTx_coefRows (s : State) (n : Nat) (l : List Tx) : (s.setTx n l).coefRows = s.coefRows := by
  unfold State.setTx; split
  · rfl
  · split <;> rfl
@[simp] theorem enq_coefRows (n : Nat) (x : Output) (s : State) : (enq n x s).coefRows = s.coefRows := State.setTx_coefRows _ _ _
@[simp] theorem State.setTx_streams (s : State) (n : Nat) (l : List Tx) : (s.setTx n l).streams = s.streams := by
  unfold State.setTx; split
  · rfl
  · split <;> rfl
@[simp] theorem enq_streams (n : Nat) (x : Output) (s : State) : (enq n x s).streams = s.streams := State.setTx_streams _ _ _
@[simp] theorem State.setTx_curves (s : State) (n : Nat) (l : List Tx) : (s.setTx n l).curves = s.curves := by
  unfold State.setTx; split
  · rfl
  · split <;> rfl
@[simp] theorem enq_curves (n : Nat) (x : Output) (s : State) : (enq n x s).curves = s.curves := State.setTx_curves _ _ _
@[simp] theorem State.setTx_calibs (s : State) (n : Nat) (l : List Tx) : (s.setTx n l).calibs = s.calibs := by
  unfold State.setTx; split
  · rfl
  · split <;> rfl
@[simp] theorem enq_calibs (n : Nat) (x : Output) (s : State) : (enq n x s).calibs = s.calibs := State.setTx_calibs _ _ _
@[simp] theorem State.setTx_warmup (s : State) (n : Nat) (l : List Tx) : (s.setTx n l).warmup = s.warmup := by
  unfold State.setTx; split
  · rfl
  · split <;> rfl
@[simp] theorem enq_warmup (n : Nat) (x : Output) (s : State) : (enq n x s).warmup = s.warmup := State.setTx_warmup _ _ _
@[simp] theorem State.setTx_posChans (s : State) (n : Nat) (l : List Tx) : (s.setTx n l).posChans = s.posChans := by
  unfold State.setTx; split
  · rfl
  · split <;> rfl
@[simp] theorem enq_posChans (n : Nat) (x : Output) (s : State) : (enq n x s).posChans = s.posChans := State.setTx_posChans _ _ _
@[simp] theorem State.setTx_compares (s : State) (n : Nat) (l : List Tx) : (s.setTx n l).compares = s.compares := by
  unfold State.setTx; split
  · rfl
  · split <;> rfl
@[simp] theorem enq_compares (n : Nat) (x : Output) (s : State) : (enq n x s).compares = s.compares := State.setTx_compares _ _ _
@[simp] theorem State.setTx_gens (s : State) (n : Nat) (l : List Tx) : (s.setTx n l).gens = s.gens := by
  unfold State.setTx; split
  · rfl
  · split <;> rfl
@[simp] theorem enq_gens (n : Nat) (x : Output) (s : State) : (enq n x s).gens = s.gens := State.setTx_gens _ _ _
@[simp] theorem State.setTx_tios (s : State) (n : Nat) (l : List Tx) : (s.setTx n l).tios = s.tios := by
  unfold State.setTx; split
  · rfl
  · split <;> rfl
@[simp] theorem enq_tios (n : Nat) (x : Output) (s : State) : (enq n x s).tios = s.tios := State.setTx_tios _ _ _
@[simp] theorem State.setTx_motions (s : State) (n : Nat) (l : List Tx) : (s.setTx n l).motions = s.motions := by
  unfold State.setTx; split
  · rfl
  · split <;> rfl
@[simp] theorem enq_motions (n : Nat) (x : Output) (s : State) : (enq n x s).motions = s.motions := State.setTx_motions _ _ _
@[simp] theorem State.setTx_transports (s : State) (n : Nat) (l : List Tx) : (s.setTx n l).transports = s.transports := by
  unfold State.setTx; split
  · rfl
  · split <;> rfl
@[simp] theorem enq_transports (n : Nat) (x : Output) (s : State) : (enq n x s).transports = s.transports := State.setTx_transports _ _ _
@[simp] theorem State.setTx_seamsOf (s : State) (n : Nat) (l : List Tx) : (s.setTx n l).seamsOf = s.seamsOf := by
  unfold State.setTx; split
  · rfl
  · split <;> rfl
@[simp] theorem enq_seamsOf (n : Nat) (x : Output) (s : State) : (enq n x s).seamsOf = s.seamsOf := State.setTx_seamsOf _ _ _
@[simp] theorem State.setTx_lamps (s : State) (n : Nat) (l : List Tx) : (s.setTx n l).lamps = s.lamps := by
  unfold State.setTx; split
  · rfl
  · split <;> rfl
@[simp] theorem enq_lamps (n : Nat) (x : Output) (s : State) : (enq n x s).lamps = s.lamps := State.setTx_lamps _ _ _
@[simp] theorem State.setTx_rings (s : State) (n : Nat) (l : List Tx) : (s.setTx n l).rings = s.rings := by
  unfold State.setTx; split
  · rfl
  · split <;> rfl
@[simp] theorem enq_rings (n : Nat) (x : Output) (s : State) : (enq n x s).rings = s.rings := State.setTx_rings _ _ _
@[simp] theorem State.setTx_fe (s : State) (n : Nat) (l : List Tx) : (s.setTx n l).fe = s.fe := by
  unfold State.setTx; split
  · rfl
  · split <;> rfl
@[simp] theorem enq_fe (n : Nat) (x : Output) (s : State) : (enq n x s).fe = s.fe := State.setTx_fe _ _ _
@[simp] theorem State.setTx_kdps (s : State) (n : Nat) (l : List Tx) : (s.setTx n l).kdps = s.kdps := by
  unfold State.setTx; split
  · rfl
  · split <;> rfl
@[simp] theorem enq_kdps (n : Nat) (x : Output) (s : State) : (enq n x s).kdps = s.kdps := State.setTx_kdps _ _ _
@[simp] theorem State.setTx_mode (s : State) (n : Nat) (l : List Tx) : (s.setTx n l).mode = s.mode := by
  unfold State.setTx; split
  · rfl
  · split <;> rfl
@[simp] theorem enq_mode (n : Nat) (x : Output) (s : State) : (enq n x s).mode = s.mode := State.setTx_mode _ _ _
@[simp] theorem State.setTx_target (s : State) (n : Nat) (l : List Tx) : (s.setTx n l).target = s.target := by
  unfold State.setTx; split
  · rfl
  · split <;> rfl
@[simp] theorem enq_target (n : Nat) (x : Output) (s : State) : (enq n x s).target = s.target := State.setTx_target _ _ _
@[simp] theorem State.setTx_power (s : State) (n : Nat) (l : List Tx) : (s.setTx n l).power = s.power := by
  unfold State.setTx; split
  · rfl
  · split <;> rfl
@[simp] theorem enq_power (n : Nat) (x : Output) (s : State) : (enq n x s).power = s.power := State.setTx_power _ _ _
@[simp] theorem State.setTx_dep (s : State) (n : Nat) (l : List Tx) : (s.setTx n l).dep = s.dep := by
  unfold State.setTx; split
  · rfl
  · split <;> rfl
@[simp] theorem enq_dep (n : Nat) (x : Output) (s : State) : (enq n x s).dep = s.dep := State.setTx_dep _ _ _
@[simp] theorem State.setTx_sec (s : State) (n : Nat) (l : List Tx) : (s.setTx n l).sec = s.sec := by
  unfold State.setTx; split
  · rfl
  · split <;> rfl
@[simp] theorem enq_sec (n : Nat) (x : Output) (s : State) : (enq n x s).sec = s.sec := State.setTx_sec _ _ _
@[simp] theorem State.setTx_boot (s : State) (n : Nat) (l : List Tx) : (s.setTx n l).boot = s.boot := by
  unfold State.setTx; split
  · rfl
  · split <;> rfl
@[simp] theorem enq_boot (n : Nat) (x : Output) (s : State) : (enq n x s).boot = s.boot := State.setTx_boot _ _ _
@[simp] theorem State.setTx_loops (s : State) (n : Nat) (l : List Tx) : (s.setTx n l).loops = s.loops := by
  unfold State.setTx; split
  · rfl
  · split <;> rfl
@[simp] theorem enq_loops (n : Nat) (x : Output) (s : State) : (enq n x s).loops = s.loops := State.setTx_loops _ _ _

/-! ### Registers -/

@[simp] theorem State.emit_reg (s : State) (o : Output) (r : Obj) : (s.emit o).reg r = s.reg r := rfl
@[simp] theorem State.emit_nat (s : State) (o : Output) (r : Obj) : (s.emit o).nat r = s.nat r := rfl
@[simp] theorem State.emit_flag (s : State) (o : Output) (r : Obj) : (s.emit o).flag r = s.flag r := rfl
@[simp] theorem State.setLane_reg (s : State) (n : Nat) (x : Lane) (r : Obj) : (s.setLane n x).reg r = s.reg r := rfl
@[simp] theorem State.setLane_nat (s : State) (n : Nat) (x : Lane) (r : Obj) : (s.setLane n x).nat r = s.nat r := rfl
@[simp] theorem State.setLane_flag (s : State) (n : Nat) (x : Lane) (r : Obj) : (s.setLane n x).flag r = s.flag r := rfl
@[simp] theorem State.setGroup_reg (s : State) (n : Nat) (x : Group) (r : Obj) : (s.setGroup n x).reg r = s.reg r := rfl
@[simp] theorem State.setGroup_nat (s : State) (n : Nat) (x : Group) (r : Obj) : (s.setGroup n x).nat r = s.nat r := rfl
@[simp] theorem State.setGroup_flag (s : State) (n : Nat) (x : Group) (r : Obj) : (s.setGroup n x).flag r = s.flag r := rfl
@[simp] theorem State.setPort_reg (s : State) (n : Nat) (x : Port) (r : Obj) : (s.setPort n x).reg r = s.reg r := rfl
@[simp] theorem State.setPort_nat (s : State) (n : Nat) (x : Port) (r : Obj) : (s.setPort n x).nat r = s.nat r := rfl
@[simp] theorem State.setPort_flag (s : State) (n : Nat) (x : Port) (r : Obj) : (s.setPort n x).flag r = s.flag r := rfl
@[simp] theorem State.setSlice_reg (s : State) (n : Nat) (x : Slice) (r : Obj) : (s.setSlice n x).reg r = s.reg r := rfl
@[simp] theorem State.setSlice_nat (s : State) (n : Nat) (x : Slice) (r : Obj) : (s.setSlice n x).nat r = s.nat r := rfl
@[simp] theorem State.setSlice_flag (s : State) (n : Nat) (x : Slice) (r : Obj) : (s.setSlice n x).flag r = s.flag r := rfl
@[simp] theorem State.setStrm_reg (s : State) (n : Nat) (x : Stream) (r : Obj) : (s.setStrm n x).reg r = s.reg r := rfl
@[simp] theorem State.setStrm_nat (s : State) (n : Nat) (x : Stream) (r : Obj) : (s.setStrm n x).nat r = s.nat r := rfl
@[simp] theorem State.setStrm_flag (s : State) (n : Nat) (x : Stream) (r : Obj) : (s.setStrm n x).flag r = s.flag r := rfl
@[simp] theorem State.setRing_reg (s : State) (n : Nat) (x : Ring) (r : Obj) : (s.setRing n x).reg r = s.reg r := rfl
@[simp] theorem State.setRing_nat (s : State) (n : Nat) (x : Ring) (r : Obj) : (s.setRing n x).nat r = s.nat r := rfl
@[simp] theorem State.setRing_flag (s : State) (n : Nat) (x : Ring) (r : Obj) : (s.setRing n x).flag r = s.flag r := rfl
@[simp] theorem State.setPosChan_reg (s : State) (n : Nat) (x : PosChan) (r : Obj) : (s.setPosChan n x).reg r = s.reg r := rfl
@[simp] theorem State.setPosChan_nat (s : State) (n : Nat) (x : PosChan) (r : Obj) : (s.setPosChan n x).nat r = s.nat r := rfl
@[simp] theorem State.setPosChan_flag (s : State) (n : Nat) (x : PosChan) (r : Obj) : (s.setPosChan n x).flag r = s.flag r := rfl
@[simp] theorem State.setCmp_reg (s : State) (n : Nat) (x : Compare) (r : Obj) : (s.setCmp n x).reg r = s.reg r := rfl
@[simp] theorem State.setCmp_nat (s : State) (n : Nat) (x : Compare) (r : Obj) : (s.setCmp n x).nat r = s.nat r := rfl
@[simp] theorem State.setCmp_flag (s : State) (n : Nat) (x : Compare) (r : Obj) : (s.setCmp n x).flag r = s.flag r := rfl
@[simp] theorem State.setGen_reg (s : State) (n : Nat) (x : Gen) (r : Obj) : (s.setGen n x).reg r = s.reg r := rfl
@[simp] theorem State.setGen_nat (s : State) (n : Nat) (x : Gen) (r : Obj) : (s.setGen n x).nat r = s.nat r := rfl
@[simp] theorem State.setGen_flag (s : State) (n : Nat) (x : Gen) (r : Obj) : (s.setGen n x).flag r = s.flag r := rfl
@[simp] theorem State.setTio_reg (s : State) (n : Nat) (x : Tio) (r : Obj) : (s.setTio n x).reg r = s.reg r := rfl
@[simp] theorem State.setTio_nat (s : State) (n : Nat) (x : Tio) (r : Obj) : (s.setTio n x).nat r = s.nat r := rfl
@[simp] theorem State.setTio_flag (s : State) (n : Nat) (x : Tio) (r : Obj) : (s.setTio n x).flag r = s.flag r := rfl
@[simp] theorem State.setMotion_reg (s : State) (n : Nat) (x : Motion) (r : Obj) : (s.setMotion n x).reg r = s.reg r := rfl
@[simp] theorem State.setMotion_nat (s : State) (n : Nat) (x : Motion) (r : Obj) : (s.setMotion n x).nat r = s.nat r := rfl
@[simp] theorem State.setMotion_flag (s : State) (n : Nat) (x : Motion) (r : Obj) : (s.setMotion n x).flag r = s.flag r := rfl
@[simp] theorem State.setTrans_reg (s : State) (n : Nat) (x : Transport) (r : Obj) : (s.setTrans n x).reg r = s.reg r := rfl
@[simp] theorem State.setTrans_nat (s : State) (n : Nat) (x : Transport) (r : Obj) : (s.setTrans n x).nat r = s.nat r := rfl
@[simp] theorem State.setTrans_flag (s : State) (n : Nat) (x : Transport) (r : Obj) : (s.setTrans n x).flag r = s.flag r := rfl
@[simp] theorem State.setSeam_reg (s : State) (n : Nat) (x : Seam) (r : Obj) : (s.setSeam n x).reg r = s.reg r := rfl
@[simp] theorem State.setSeam_nat (s : State) (n : Nat) (x : Seam) (r : Obj) : (s.setSeam n x).nat r = s.nat r := rfl
@[simp] theorem State.setSeam_flag (s : State) (n : Nat) (x : Seam) (r : Obj) : (s.setSeam n x).flag r = s.flag r := rfl
@[simp] theorem State.setCalib_reg (s : State) (n : Nat) (x : Calib) (r : Obj) : (s.setCalib n x).reg r = s.reg r := rfl
@[simp] theorem State.setCalib_nat (s : State) (n : Nat) (x : Calib) (r : Obj) : (s.setCalib n x).nat r = s.nat r := rfl
@[simp] theorem State.setCalib_flag (s : State) (n : Nat) (x : Calib) (r : Obj) : (s.setCalib n x).flag r = s.flag r := rfl
@[simp] theorem State.setBank_reg (s : State) (n : Nat) (x : BankState) (r : Obj) : (s.setBank n x).reg r = s.reg r := rfl
@[simp] theorem State.setBank_nat (s : State) (n : Nat) (x : BankState) (r : Obj) : (s.setBank n x).nat r = s.nat r := rfl
@[simp] theorem State.setBank_flag (s : State) (n : Nat) (x : BankState) (r : Obj) : (s.setBank n x).flag r = s.flag r := rfl
@[simp] theorem State.setQueue_reg (s : State) (n : Nat) (x : Queue) (r : Obj) : (s.setQueue n x).reg r = s.reg r := rfl
@[simp] theorem State.setQueue_nat (s : State) (n : Nat) (x : Queue) (r : Obj) : (s.setQueue n x).nat r = s.nat r := rfl
@[simp] theorem State.setQueue_flag (s : State) (n : Nat) (x : Queue) (r : Obj) : (s.setQueue n x).flag r = s.flag r := rfl
@[simp] theorem State.loopRan_reg (s : State) (l u : Nat) (r : Obj) : (s.loopRan l u).reg r = s.reg r := rfl
@[simp] theorem State.loopRan_nat (s : State) (l u : Nat) (r : Obj) : (s.loopRan l u).nat r = s.nat r := rfl
@[simp] theorem State.loopRan_flag (s : State) (l u : Nat) (r : Obj) : (s.loopRan l u).flag r = s.flag r := rfl

/-- A register written reads as written, where the register file lists no key twice. -/
theorem State.setReg_reg_self (s : State) (o : Obj) (v : Int) (h : Table.rising s.dict) : (s.setReg o v).reg o = v :=
  Table.get_set_eq _ _ _ _ h
/-- Every other register reads as before. -/
theorem State.setReg_reg_of_ne (s : State) (o r : Obj) (v : Int) (h : r.key ≠ o.key) : (s.setReg o v).reg r = s.reg r :=
  Table.get_set_ne _ _ _ _ _ _ h
theorem State.setReg_nat_of_ne (s : State) (o r : Obj) (v : Int) (h : r.key ≠ o.key) : (s.setReg o v).nat r = s.nat r := by
  simp [State.nat, State.setReg_reg_of_ne _ _ _ _ h]
theorem State.setReg_flag_of_ne (s : State) (o r : Obj) (v : Int) (h : r.key ≠ o.key) : (s.setReg o v).flag r = s.flag r := by
  simp [State.flag, State.setReg_reg_of_ne _ _ _ _ h]
theorem State.count_reg_of_ne (s : State) (o r : Obj) (n : Nat) (h : r.key ≠ o.key) : (s.count o n).reg r = s.reg r :=
  State.setReg_reg_of_ne _ _ _ _ h
theorem State.countWrap_reg_of_ne (s : State) (o r : Obj) (n : Nat) (h : r.key ≠ o.key) : (s.countWrap o n).reg r = s.reg r :=
  State.setReg_reg_of_ne _ _ _ _ h
theorem State.count_reg_self (s : State) (o : Obj) (n : Nat) (h : Table.rising s.dict) : (s.count o n).reg o = satInc (s.nat o) n :=
  State.setReg_reg_self _ _ _ h
theorem State.countWrap_reg_self (s : State) (o : Obj) (n : Nat) (h : Table.rising s.dict) :
    (s.countWrap o n).reg o = ((s.nat o + n) % 2 ^ 32 : Nat) := State.setReg_reg_self _ _ _ h
/-- Writing a register keeps the register file canonical. -/
theorem State.setReg_rising (s : State) (o : Obj) (v : Int) (h : Table.rising s.dict) : Table.rising (s.setReg o v).dict :=
  Table.rising_set _ _ _ _ h

/-! ### Units -/

theorem State.setLane_self (s : State) (n : Nat) (x : Lane) (h : Table.rising s.lanes) : (s.setLane n x).lane n = x := Table.get_set_eq _ _ _ _ h
theorem State.setLane_of_ne (s : State) (n m : Nat) (x : Lane) (h : m ≠ n) : (s.setLane n x).lane m = s.lane m := Table.get_set_ne _ _ _ _ _ _ h
theorem State.setGroup_self (s : State) (n : Nat) (x : Group) (h : Table.rising s.groups) : (s.setGroup n x).group n = x := Table.get_set_eq _ _ _ _ h
theorem State.setGroup_of_ne (s : State) (n m : Nat) (x : Group) (h : m ≠ n) : (s.setGroup n x).group m = s.group m := Table.get_set_ne _ _ _ _ _ _ h
theorem State.setPort_self (s : State) (n : Nat) (x : Port) (h : Table.rising s.ports) : (s.setPort n x).port n = x := Table.get_set_eq _ _ _ _ h
theorem State.setPort_of_ne (s : State) (n m : Nat) (x : Port) (h : m ≠ n) : (s.setPort n x).port m = s.port m := Table.get_set_ne _ _ _ _ _ _ h
theorem State.setSlice_self (s : State) (n : Nat) (x : Slice) (h : Table.rising s.slices) : (s.setSlice n x).slice n = x := Table.get_set_eq _ _ _ _ h
theorem State.setSlice_of_ne (s : State) (n m : Nat) (x : Slice) (h : m ≠ n) : (s.setSlice n x).slice m = s.slice m := Table.get_set_ne _ _ _ _ _ _ h
theorem State.setStrm_self (s : State) (n : Nat) (x : Stream) (h : Table.rising s.streams) : (s.setStrm n x).strm n = x := Table.get_set_eq _ _ _ _ h
theorem State.setStrm_of_ne (s : State) (n m : Nat) (x : Stream) (h : m ≠ n) : (s.setStrm n x).strm m = s.strm m := Table.get_set_ne _ _ _ _ _ _ h
theorem State.setRing_self (s : State) (n : Nat) (x : Ring) (h : Table.rising s.rings) : (s.setRing n x).ring n = x := Table.get_set_eq _ _ _ _ h
theorem State.setRing_of_ne (s : State) (n m : Nat) (x : Ring) (h : m ≠ n) : (s.setRing n x).ring m = s.ring m := Table.get_set_ne _ _ _ _ _ _ h
theorem State.setPosChan_self (s : State) (n : Nat) (x : PosChan) (h : Table.rising s.posChans) : (s.setPosChan n x).posChan n = x := Table.get_set_eq _ _ _ _ h
theorem State.setPosChan_of_ne (s : State) (n m : Nat) (x : PosChan) (h : m ≠ n) : (s.setPosChan n x).posChan m = s.posChan m := Table.get_set_ne _ _ _ _ _ _ h
theorem State.setCmp_self (s : State) (n : Nat) (x : Compare) (h : Table.rising s.compares) : (s.setCmp n x).cmp n = x := Table.get_set_eq _ _ _ _ h
theorem State.setCmp_of_ne (s : State) (n m : Nat) (x : Compare) (h : m ≠ n) : (s.setCmp n x).cmp m = s.cmp m := Table.get_set_ne _ _ _ _ _ _ h
theorem State.setGen_self (s : State) (n : Nat) (x : Gen) (h : Table.rising s.gens) : (s.setGen n x).gen n = x := Table.get_set_eq _ _ _ _ h
theorem State.setGen_of_ne (s : State) (n m : Nat) (x : Gen) (h : m ≠ n) : (s.setGen n x).gen m = s.gen m := Table.get_set_ne _ _ _ _ _ _ h
theorem State.setTio_self (s : State) (n : Nat) (x : Tio) (h : Table.rising s.tios) : (s.setTio n x).tio n = x := Table.get_set_eq _ _ _ _ h
theorem State.setTio_of_ne (s : State) (n m : Nat) (x : Tio) (h : m ≠ n) : (s.setTio n x).tio m = s.tio m := Table.get_set_ne _ _ _ _ _ _ h
theorem State.setMotion_self (s : State) (n : Nat) (x : Motion) (h : Table.rising s.motions) : (s.setMotion n x).motion n = x := Table.get_set_eq _ _ _ _ h
theorem State.setMotion_of_ne (s : State) (n m : Nat) (x : Motion) (h : m ≠ n) : (s.setMotion n x).motion m = s.motion m := Table.get_set_ne _ _ _ _ _ _ h
theorem State.setTrans_self (s : State) (n : Nat) (x : Transport) (h : Table.rising s.transports) : (s.setTrans n x).trans n = x := Table.get_set_eq _ _ _ _ h
theorem State.setTrans_of_ne (s : State) (n m : Nat) (x : Transport) (h : m ≠ n) : (s.setTrans n x).trans m = s.trans m := Table.get_set_ne _ _ _ _ _ _ h
theorem State.setSeam_self (s : State) (n : Nat) (x : Seam) (h : Table.rising s.seamsOf) : (s.setSeam n x).seam n = x := Table.get_set_eq _ _ _ _ h
theorem State.setSeam_of_ne (s : State) (n m : Nat) (x : Seam) (h : m ≠ n) : (s.setSeam n x).seam m = s.seam m := Table.get_set_ne _ _ _ _ _ _ h
theorem State.setCalib_self (s : State) (n : Nat) (x : Calib) (h : Table.rising s.calibs) : (s.setCalib n x).calib n = x := Table.get_set_eq _ _ _ _ h
theorem State.setCalib_of_ne (s : State) (n m : Nat) (x : Calib) (h : m ≠ n) : (s.setCalib n x).calib m = s.calib m := Table.get_set_ne _ _ _ _ _ _ h
theorem State.setQueue_self (s : State) (n : Nat) (x : Queue) (h : Table.rising s.queues) : (s.setQueue n x).queue n = x := Table.get_set_eq _ _ _ _ h
theorem State.setQueue_of_ne (s : State) (n m : Nat) (x : Queue) (h : m ≠ n) : (s.setQueue n x).queue m = s.queue m := Table.get_set_ne _ _ _ _ _ _ h

/-! ### Units through updates of something else -/

@[simp] theorem State.setReg_get_lane (s : State) (o : Obj) (v : Int) (m : Nat) : (s.setReg o v).lane m = s.lane m := rfl
@[simp] theorem State.setReg_get_group (s : State) (o : Obj) (v : Int) (m : Nat) : (s.setReg o v).group m = s.group m := rfl
@[simp] theorem State.setReg_get_port (s : State) (o : Obj) (v : Int) (m : Nat) : (s.setReg o v).port m = s.port m := rfl
@[simp] theorem State.setReg_get_slice (s : State) (o : Obj) (v : Int) (m : Nat) : (s.setReg o v).slice m = s.slice m := rfl
@[simp] theorem State.setReg_get_strm (s : State) (o : Obj) (v : Int) (m : Nat) : (s.setReg o v).strm m = s.strm m := rfl
@[simp] theorem State.setReg_get_ring (s : State) (o : Obj) (v : Int) (m : Nat) : (s.setReg o v).ring m = s.ring m := rfl
@[simp] theorem State.setReg_get_posChan (s : State) (o : Obj) (v : Int) (m : Nat) : (s.setReg o v).posChan m = s.posChan m := rfl
@[simp] theorem State.setReg_get_cmp (s : State) (o : Obj) (v : Int) (m : Nat) : (s.setReg o v).cmp m = s.cmp m := rfl
@[simp] theorem State.setReg_get_gen (s : State) (o : Obj) (v : Int) (m : Nat) : (s.setReg o v).gen m = s.gen m := rfl
@[simp] theorem State.setReg_get_tio (s : State) (o : Obj) (v : Int) (m : Nat) : (s.setReg o v).tio m = s.tio m := rfl
@[simp] theorem State.setReg_get_motion (s : State) (o : Obj) (v : Int) (m : Nat) : (s.setReg o v).motion m = s.motion m := rfl
@[simp] theorem State.setReg_get_trans (s : State) (o : Obj) (v : Int) (m : Nat) : (s.setReg o v).trans m = s.trans m := rfl
@[simp] theorem State.setReg_get_seam (s : State) (o : Obj) (v : Int) (m : Nat) : (s.setReg o v).seam m = s.seam m := rfl
@[simp] theorem State.setReg_get_calib (s : State) (o : Obj) (v : Int) (m : Nat) : (s.setReg o v).calib m = s.calib m := rfl
@[simp] theorem State.setReg_get_queue (s : State) (o : Obj) (v : Int) (m : Nat) : (s.setReg o v).queue m = s.queue m := rfl
@[simp] theorem State.count_get_lane (s : State) (o : Obj) (n : Nat) (m : Nat) : (s.count o n).lane m = s.lane m := rfl
@[simp] theorem State.count_get_group (s : State) (o : Obj) (n : Nat) (m : Nat) : (s.count o n).group m = s.group m := rfl
@[simp] theorem State.count_get_port (s : State) (o : Obj) (n : Nat) (m : Nat) : (s.count o n).port m = s.port m := rfl
@[simp] theorem State.count_get_slice (s : State) (o : Obj) (n : Nat) (m : Nat) : (s.count o n).slice m = s.slice m := rfl
@[simp] theorem State.count_get_strm (s : State) (o : Obj) (n : Nat) (m : Nat) : (s.count o n).strm m = s.strm m := rfl
@[simp] theorem State.count_get_ring (s : State) (o : Obj) (n : Nat) (m : Nat) : (s.count o n).ring m = s.ring m := rfl
@[simp] theorem State.count_get_posChan (s : State) (o : Obj) (n : Nat) (m : Nat) : (s.count o n).posChan m = s.posChan m := rfl
@[simp] theorem State.count_get_cmp (s : State) (o : Obj) (n : Nat) (m : Nat) : (s.count o n).cmp m = s.cmp m := rfl
@[simp] theorem State.count_get_gen (s : State) (o : Obj) (n : Nat) (m : Nat) : (s.count o n).gen m = s.gen m := rfl
@[simp] theorem State.count_get_tio (s : State) (o : Obj) (n : Nat) (m : Nat) : (s.count o n).tio m = s.tio m := rfl
@[simp] theorem State.count_get_motion (s : State) (o : Obj) (n : Nat) (m : Nat) : (s.count o n).motion m = s.motion m := rfl
@[simp] theorem State.count_get_trans (s : State) (o : Obj) (n : Nat) (m : Nat) : (s.count o n).trans m = s.trans m := rfl
@[simp] theorem State.count_get_seam (s : State) (o : Obj) (n : Nat) (m : Nat) : (s.count o n).seam m = s.seam m := rfl
@[simp] theorem State.count_get_calib (s : State) (o : Obj) (n : Nat) (m : Nat) : (s.count o n).calib m = s.calib m := rfl
@[simp] theorem State.count_get_queue (s : State) (o : Obj) (n : Nat) (m : Nat) : (s.count o n).queue m = s.queue m := rfl
@[simp] theorem State.countWrap_get_lane (s : State) (o : Obj) (n : Nat) (m : Nat) : (s.countWrap o n).lane m = s.lane m := rfl
@[simp] theorem State.countWrap_get_group (s : State) (o : Obj) (n : Nat) (m : Nat) : (s.countWrap o n).group m = s.group m := rfl
@[simp] theorem State.countWrap_get_port (s : State) (o : Obj) (n : Nat) (m : Nat) : (s.countWrap o n).port m = s.port m := rfl
@[simp] theorem State.countWrap_get_slice (s : State) (o : Obj) (n : Nat) (m : Nat) : (s.countWrap o n).slice m = s.slice m := rfl
@[simp] theorem State.countWrap_get_strm (s : State) (o : Obj) (n : Nat) (m : Nat) : (s.countWrap o n).strm m = s.strm m := rfl
@[simp] theorem State.countWrap_get_ring (s : State) (o : Obj) (n : Nat) (m : Nat) : (s.countWrap o n).ring m = s.ring m := rfl
@[simp] theorem State.countWrap_get_posChan (s : State) (o : Obj) (n : Nat) (m : Nat) : (s.countWrap o n).posChan m = s.posChan m := rfl
@[simp] theorem State.countWrap_get_cmp (s : State) (o : Obj) (n : Nat) (m : Nat) : (s.countWrap o n).cmp m = s.cmp m := rfl
@[simp] theorem State.countWrap_get_gen (s : State) (o : Obj) (n : Nat) (m : Nat) : (s.countWrap o n).gen m = s.gen m := rfl
@[simp] theorem State.countWrap_get_tio (s : State) (o : Obj) (n : Nat) (m : Nat) : (s.countWrap o n).tio m = s.tio m := rfl
@[simp] theorem State.countWrap_get_motion (s : State) (o : Obj) (n : Nat) (m : Nat) : (s.countWrap o n).motion m = s.motion m := rfl
@[simp] theorem State.countWrap_get_trans (s : State) (o : Obj) (n : Nat) (m : Nat) : (s.countWrap o n).trans m = s.trans m := rfl
@[simp] theorem State.countWrap_get_seam (s : State) (o : Obj) (n : Nat) (m : Nat) : (s.countWrap o n).seam m = s.seam m := rfl
@[simp] theorem State.countWrap_get_calib (s : State) (o : Obj) (n : Nat) (m : Nat) : (s.countWrap o n).calib m = s.calib m := rfl
@[simp] theorem State.countWrap_get_queue (s : State) (o : Obj) (n : Nat) (m : Nat) : (s.countWrap o n).queue m = s.queue m := rfl
@[simp] theorem State.emit_get_lane (s : State) (o : Output) (m : Nat) : (s.emit o).lane m = s.lane m := rfl
@[simp] theorem State.emit_get_group (s : State) (o : Output) (m : Nat) : (s.emit o).group m = s.group m := rfl
@[simp] theorem State.emit_get_port (s : State) (o : Output) (m : Nat) : (s.emit o).port m = s.port m := rfl
@[simp] theorem State.emit_get_slice (s : State) (o : Output) (m : Nat) : (s.emit o).slice m = s.slice m := rfl
@[simp] theorem State.emit_get_strm (s : State) (o : Output) (m : Nat) : (s.emit o).strm m = s.strm m := rfl
@[simp] theorem State.emit_get_ring (s : State) (o : Output) (m : Nat) : (s.emit o).ring m = s.ring m := rfl
@[simp] theorem State.emit_get_posChan (s : State) (o : Output) (m : Nat) : (s.emit o).posChan m = s.posChan m := rfl
@[simp] theorem State.emit_get_cmp (s : State) (o : Output) (m : Nat) : (s.emit o).cmp m = s.cmp m := rfl
@[simp] theorem State.emit_get_gen (s : State) (o : Output) (m : Nat) : (s.emit o).gen m = s.gen m := rfl
@[simp] theorem State.emit_get_tio (s : State) (o : Output) (m : Nat) : (s.emit o).tio m = s.tio m := rfl
@[simp] theorem State.emit_get_motion (s : State) (o : Output) (m : Nat) : (s.emit o).motion m = s.motion m := rfl
@[simp] theorem State.emit_get_trans (s : State) (o : Output) (m : Nat) : (s.emit o).trans m = s.trans m := rfl
@[simp] theorem State.emit_get_seam (s : State) (o : Output) (m : Nat) : (s.emit o).seam m = s.seam m := rfl
@[simp] theorem State.emit_get_calib (s : State) (o : Output) (m : Nat) : (s.emit o).calib m = s.calib m := rfl
@[simp] theorem State.emit_get_queue (s : State) (o : Output) (m : Nat) : (s.emit o).queue m = s.queue m := rfl
@[simp] theorem State.setLane_get_group (s : State) (n : Nat) (x : Lane) (m : Nat) : (s.setLane n x).group m = s.group m := rfl
@[simp] theorem State.setLane_get_port (s : State) (n : Nat) (x : Lane) (m : Nat) : (s.setLane n x).port m = s.port m := rfl
@[simp] theorem State.setLane_get_slice (s : State) (n : Nat) (x : Lane) (m : Nat) : (s.setLane n x).slice m = s.slice m := rfl
@[simp] theorem State.setLane_get_strm (s : State) (n : Nat) (x : Lane) (m : Nat) : (s.setLane n x).strm m = s.strm m := rfl
@[simp] theorem State.setLane_get_ring (s : State) (n : Nat) (x : Lane) (m : Nat) : (s.setLane n x).ring m = s.ring m := rfl
@[simp] theorem State.setLane_get_posChan (s : State) (n : Nat) (x : Lane) (m : Nat) : (s.setLane n x).posChan m = s.posChan m := rfl
@[simp] theorem State.setLane_get_cmp (s : State) (n : Nat) (x : Lane) (m : Nat) : (s.setLane n x).cmp m = s.cmp m := rfl
@[simp] theorem State.setLane_get_gen (s : State) (n : Nat) (x : Lane) (m : Nat) : (s.setLane n x).gen m = s.gen m := rfl
@[simp] theorem State.setLane_get_tio (s : State) (n : Nat) (x : Lane) (m : Nat) : (s.setLane n x).tio m = s.tio m := rfl
@[simp] theorem State.setLane_get_motion (s : State) (n : Nat) (x : Lane) (m : Nat) : (s.setLane n x).motion m = s.motion m := rfl
@[simp] theorem State.setLane_get_trans (s : State) (n : Nat) (x : Lane) (m : Nat) : (s.setLane n x).trans m = s.trans m := rfl
@[simp] theorem State.setLane_get_seam (s : State) (n : Nat) (x : Lane) (m : Nat) : (s.setLane n x).seam m = s.seam m := rfl
@[simp] theorem State.setLane_get_calib (s : State) (n : Nat) (x : Lane) (m : Nat) : (s.setLane n x).calib m = s.calib m := rfl
@[simp] theorem State.setLane_get_queue (s : State) (n : Nat) (x : Lane) (m : Nat) : (s.setLane n x).queue m = s.queue m := rfl
@[simp] theorem State.setGroup_get_lane (s : State) (n : Nat) (x : Group) (m : Nat) : (s.setGroup n x).lane m = s.lane m := rfl
@[simp] theorem State.setGroup_get_port (s : State) (n : Nat) (x : Group) (m : Nat) : (s.setGroup n x).port m = s.port m := rfl
@[simp] theorem State.setGroup_get_slice (s : State) (n : Nat) (x : Group) (m : Nat) : (s.setGroup n x).slice m = s.slice m := rfl
@[simp] theorem State.setGroup_get_strm (s : State) (n : Nat) (x : Group) (m : Nat) : (s.setGroup n x).strm m = s.strm m := rfl
@[simp] theorem State.setGroup_get_ring (s : State) (n : Nat) (x : Group) (m : Nat) : (s.setGroup n x).ring m = s.ring m := rfl
@[simp] theorem State.setGroup_get_posChan (s : State) (n : Nat) (x : Group) (m : Nat) : (s.setGroup n x).posChan m = s.posChan m := rfl
@[simp] theorem State.setGroup_get_cmp (s : State) (n : Nat) (x : Group) (m : Nat) : (s.setGroup n x).cmp m = s.cmp m := rfl
@[simp] theorem State.setGroup_get_gen (s : State) (n : Nat) (x : Group) (m : Nat) : (s.setGroup n x).gen m = s.gen m := rfl
@[simp] theorem State.setGroup_get_tio (s : State) (n : Nat) (x : Group) (m : Nat) : (s.setGroup n x).tio m = s.tio m := rfl
@[simp] theorem State.setGroup_get_motion (s : State) (n : Nat) (x : Group) (m : Nat) : (s.setGroup n x).motion m = s.motion m := rfl
@[simp] theorem State.setGroup_get_trans (s : State) (n : Nat) (x : Group) (m : Nat) : (s.setGroup n x).trans m = s.trans m := rfl
@[simp] theorem State.setGroup_get_seam (s : State) (n : Nat) (x : Group) (m : Nat) : (s.setGroup n x).seam m = s.seam m := rfl
@[simp] theorem State.setGroup_get_calib (s : State) (n : Nat) (x : Group) (m : Nat) : (s.setGroup n x).calib m = s.calib m := rfl
@[simp] theorem State.setGroup_get_queue (s : State) (n : Nat) (x : Group) (m : Nat) : (s.setGroup n x).queue m = s.queue m := rfl
@[simp] theorem State.setPort_get_lane (s : State) (n : Nat) (x : Port) (m : Nat) : (s.setPort n x).lane m = s.lane m := rfl
@[simp] theorem State.setPort_get_group (s : State) (n : Nat) (x : Port) (m : Nat) : (s.setPort n x).group m = s.group m := rfl
@[simp] theorem State.setPort_get_slice (s : State) (n : Nat) (x : Port) (m : Nat) : (s.setPort n x).slice m = s.slice m := rfl
@[simp] theorem State.setPort_get_strm (s : State) (n : Nat) (x : Port) (m : Nat) : (s.setPort n x).strm m = s.strm m := rfl
@[simp] theorem State.setPort_get_ring (s : State) (n : Nat) (x : Port) (m : Nat) : (s.setPort n x).ring m = s.ring m := rfl
@[simp] theorem State.setPort_get_posChan (s : State) (n : Nat) (x : Port) (m : Nat) : (s.setPort n x).posChan m = s.posChan m := rfl
@[simp] theorem State.setPort_get_cmp (s : State) (n : Nat) (x : Port) (m : Nat) : (s.setPort n x).cmp m = s.cmp m := rfl
@[simp] theorem State.setPort_get_gen (s : State) (n : Nat) (x : Port) (m : Nat) : (s.setPort n x).gen m = s.gen m := rfl
@[simp] theorem State.setPort_get_tio (s : State) (n : Nat) (x : Port) (m : Nat) : (s.setPort n x).tio m = s.tio m := rfl
@[simp] theorem State.setPort_get_motion (s : State) (n : Nat) (x : Port) (m : Nat) : (s.setPort n x).motion m = s.motion m := rfl
@[simp] theorem State.setPort_get_trans (s : State) (n : Nat) (x : Port) (m : Nat) : (s.setPort n x).trans m = s.trans m := rfl
@[simp] theorem State.setPort_get_seam (s : State) (n : Nat) (x : Port) (m : Nat) : (s.setPort n x).seam m = s.seam m := rfl
@[simp] theorem State.setPort_get_calib (s : State) (n : Nat) (x : Port) (m : Nat) : (s.setPort n x).calib m = s.calib m := rfl
@[simp] theorem State.setPort_get_queue (s : State) (n : Nat) (x : Port) (m : Nat) : (s.setPort n x).queue m = s.queue m := rfl
@[simp] theorem State.setSlice_get_lane (s : State) (n : Nat) (x : Slice) (m : Nat) : (s.setSlice n x).lane m = s.lane m := rfl
@[simp] theorem State.setSlice_get_group (s : State) (n : Nat) (x : Slice) (m : Nat) : (s.setSlice n x).group m = s.group m := rfl
@[simp] theorem State.setSlice_get_port (s : State) (n : Nat) (x : Slice) (m : Nat) : (s.setSlice n x).port m = s.port m := rfl
@[simp] theorem State.setSlice_get_strm (s : State) (n : Nat) (x : Slice) (m : Nat) : (s.setSlice n x).strm m = s.strm m := rfl
@[simp] theorem State.setSlice_get_ring (s : State) (n : Nat) (x : Slice) (m : Nat) : (s.setSlice n x).ring m = s.ring m := rfl
@[simp] theorem State.setSlice_get_posChan (s : State) (n : Nat) (x : Slice) (m : Nat) : (s.setSlice n x).posChan m = s.posChan m := rfl
@[simp] theorem State.setSlice_get_cmp (s : State) (n : Nat) (x : Slice) (m : Nat) : (s.setSlice n x).cmp m = s.cmp m := rfl
@[simp] theorem State.setSlice_get_gen (s : State) (n : Nat) (x : Slice) (m : Nat) : (s.setSlice n x).gen m = s.gen m := rfl
@[simp] theorem State.setSlice_get_tio (s : State) (n : Nat) (x : Slice) (m : Nat) : (s.setSlice n x).tio m = s.tio m := rfl
@[simp] theorem State.setSlice_get_motion (s : State) (n : Nat) (x : Slice) (m : Nat) : (s.setSlice n x).motion m = s.motion m := rfl
@[simp] theorem State.setSlice_get_trans (s : State) (n : Nat) (x : Slice) (m : Nat) : (s.setSlice n x).trans m = s.trans m := rfl
@[simp] theorem State.setSlice_get_seam (s : State) (n : Nat) (x : Slice) (m : Nat) : (s.setSlice n x).seam m = s.seam m := rfl
@[simp] theorem State.setSlice_get_calib (s : State) (n : Nat) (x : Slice) (m : Nat) : (s.setSlice n x).calib m = s.calib m := rfl
@[simp] theorem State.setSlice_get_queue (s : State) (n : Nat) (x : Slice) (m : Nat) : (s.setSlice n x).queue m = s.queue m := rfl
@[simp] theorem State.setStrm_get_lane (s : State) (n : Nat) (x : Stream) (m : Nat) : (s.setStrm n x).lane m = s.lane m := rfl
@[simp] theorem State.setStrm_get_group (s : State) (n : Nat) (x : Stream) (m : Nat) : (s.setStrm n x).group m = s.group m := rfl
@[simp] theorem State.setStrm_get_port (s : State) (n : Nat) (x : Stream) (m : Nat) : (s.setStrm n x).port m = s.port m := rfl
@[simp] theorem State.setStrm_get_slice (s : State) (n : Nat) (x : Stream) (m : Nat) : (s.setStrm n x).slice m = s.slice m := rfl
@[simp] theorem State.setStrm_get_ring (s : State) (n : Nat) (x : Stream) (m : Nat) : (s.setStrm n x).ring m = s.ring m := rfl
@[simp] theorem State.setStrm_get_posChan (s : State) (n : Nat) (x : Stream) (m : Nat) : (s.setStrm n x).posChan m = s.posChan m := rfl
@[simp] theorem State.setStrm_get_cmp (s : State) (n : Nat) (x : Stream) (m : Nat) : (s.setStrm n x).cmp m = s.cmp m := rfl
@[simp] theorem State.setStrm_get_gen (s : State) (n : Nat) (x : Stream) (m : Nat) : (s.setStrm n x).gen m = s.gen m := rfl
@[simp] theorem State.setStrm_get_tio (s : State) (n : Nat) (x : Stream) (m : Nat) : (s.setStrm n x).tio m = s.tio m := rfl
@[simp] theorem State.setStrm_get_motion (s : State) (n : Nat) (x : Stream) (m : Nat) : (s.setStrm n x).motion m = s.motion m := rfl
@[simp] theorem State.setStrm_get_trans (s : State) (n : Nat) (x : Stream) (m : Nat) : (s.setStrm n x).trans m = s.trans m := rfl
@[simp] theorem State.setStrm_get_seam (s : State) (n : Nat) (x : Stream) (m : Nat) : (s.setStrm n x).seam m = s.seam m := rfl
@[simp] theorem State.setStrm_get_calib (s : State) (n : Nat) (x : Stream) (m : Nat) : (s.setStrm n x).calib m = s.calib m := rfl
@[simp] theorem State.setStrm_get_queue (s : State) (n : Nat) (x : Stream) (m : Nat) : (s.setStrm n x).queue m = s.queue m := rfl
@[simp] theorem State.setRing_get_lane (s : State) (n : Nat) (x : Ring) (m : Nat) : (s.setRing n x).lane m = s.lane m := rfl
@[simp] theorem State.setRing_get_group (s : State) (n : Nat) (x : Ring) (m : Nat) : (s.setRing n x).group m = s.group m := rfl
@[simp] theorem State.setRing_get_port (s : State) (n : Nat) (x : Ring) (m : Nat) : (s.setRing n x).port m = s.port m := rfl
@[simp] theorem State.setRing_get_slice (s : State) (n : Nat) (x : Ring) (m : Nat) : (s.setRing n x).slice m = s.slice m := rfl
@[simp] theorem State.setRing_get_strm (s : State) (n : Nat) (x : Ring) (m : Nat) : (s.setRing n x).strm m = s.strm m := rfl
@[simp] theorem State.setRing_get_posChan (s : State) (n : Nat) (x : Ring) (m : Nat) : (s.setRing n x).posChan m = s.posChan m := rfl
@[simp] theorem State.setRing_get_cmp (s : State) (n : Nat) (x : Ring) (m : Nat) : (s.setRing n x).cmp m = s.cmp m := rfl
@[simp] theorem State.setRing_get_gen (s : State) (n : Nat) (x : Ring) (m : Nat) : (s.setRing n x).gen m = s.gen m := rfl
@[simp] theorem State.setRing_get_tio (s : State) (n : Nat) (x : Ring) (m : Nat) : (s.setRing n x).tio m = s.tio m := rfl
@[simp] theorem State.setRing_get_motion (s : State) (n : Nat) (x : Ring) (m : Nat) : (s.setRing n x).motion m = s.motion m := rfl
@[simp] theorem State.setRing_get_trans (s : State) (n : Nat) (x : Ring) (m : Nat) : (s.setRing n x).trans m = s.trans m := rfl
@[simp] theorem State.setRing_get_seam (s : State) (n : Nat) (x : Ring) (m : Nat) : (s.setRing n x).seam m = s.seam m := rfl
@[simp] theorem State.setRing_get_calib (s : State) (n : Nat) (x : Ring) (m : Nat) : (s.setRing n x).calib m = s.calib m := rfl
@[simp] theorem State.setRing_get_queue (s : State) (n : Nat) (x : Ring) (m : Nat) : (s.setRing n x).queue m = s.queue m := rfl
@[simp] theorem State.setPosChan_get_lane (s : State) (n : Nat) (x : PosChan) (m : Nat) : (s.setPosChan n x).lane m = s.lane m := rfl
@[simp] theorem State.setPosChan_get_group (s : State) (n : Nat) (x : PosChan) (m : Nat) : (s.setPosChan n x).group m = s.group m := rfl
@[simp] theorem State.setPosChan_get_port (s : State) (n : Nat) (x : PosChan) (m : Nat) : (s.setPosChan n x).port m = s.port m := rfl
@[simp] theorem State.setPosChan_get_slice (s : State) (n : Nat) (x : PosChan) (m : Nat) : (s.setPosChan n x).slice m = s.slice m := rfl
@[simp] theorem State.setPosChan_get_strm (s : State) (n : Nat) (x : PosChan) (m : Nat) : (s.setPosChan n x).strm m = s.strm m := rfl
@[simp] theorem State.setPosChan_get_ring (s : State) (n : Nat) (x : PosChan) (m : Nat) : (s.setPosChan n x).ring m = s.ring m := rfl
@[simp] theorem State.setPosChan_get_cmp (s : State) (n : Nat) (x : PosChan) (m : Nat) : (s.setPosChan n x).cmp m = s.cmp m := rfl
@[simp] theorem State.setPosChan_get_gen (s : State) (n : Nat) (x : PosChan) (m : Nat) : (s.setPosChan n x).gen m = s.gen m := rfl
@[simp] theorem State.setPosChan_get_tio (s : State) (n : Nat) (x : PosChan) (m : Nat) : (s.setPosChan n x).tio m = s.tio m := rfl
@[simp] theorem State.setPosChan_get_motion (s : State) (n : Nat) (x : PosChan) (m : Nat) : (s.setPosChan n x).motion m = s.motion m := rfl
@[simp] theorem State.setPosChan_get_trans (s : State) (n : Nat) (x : PosChan) (m : Nat) : (s.setPosChan n x).trans m = s.trans m := rfl
@[simp] theorem State.setPosChan_get_seam (s : State) (n : Nat) (x : PosChan) (m : Nat) : (s.setPosChan n x).seam m = s.seam m := rfl
@[simp] theorem State.setPosChan_get_calib (s : State) (n : Nat) (x : PosChan) (m : Nat) : (s.setPosChan n x).calib m = s.calib m := rfl
@[simp] theorem State.setPosChan_get_queue (s : State) (n : Nat) (x : PosChan) (m : Nat) : (s.setPosChan n x).queue m = s.queue m := rfl
@[simp] theorem State.setCmp_get_lane (s : State) (n : Nat) (x : Compare) (m : Nat) : (s.setCmp n x).lane m = s.lane m := rfl
@[simp] theorem State.setCmp_get_group (s : State) (n : Nat) (x : Compare) (m : Nat) : (s.setCmp n x).group m = s.group m := rfl
@[simp] theorem State.setCmp_get_port (s : State) (n : Nat) (x : Compare) (m : Nat) : (s.setCmp n x).port m = s.port m := rfl
@[simp] theorem State.setCmp_get_slice (s : State) (n : Nat) (x : Compare) (m : Nat) : (s.setCmp n x).slice m = s.slice m := rfl
@[simp] theorem State.setCmp_get_strm (s : State) (n : Nat) (x : Compare) (m : Nat) : (s.setCmp n x).strm m = s.strm m := rfl
@[simp] theorem State.setCmp_get_ring (s : State) (n : Nat) (x : Compare) (m : Nat) : (s.setCmp n x).ring m = s.ring m := rfl
@[simp] theorem State.setCmp_get_posChan (s : State) (n : Nat) (x : Compare) (m : Nat) : (s.setCmp n x).posChan m = s.posChan m := rfl
@[simp] theorem State.setCmp_get_gen (s : State) (n : Nat) (x : Compare) (m : Nat) : (s.setCmp n x).gen m = s.gen m := rfl
@[simp] theorem State.setCmp_get_tio (s : State) (n : Nat) (x : Compare) (m : Nat) : (s.setCmp n x).tio m = s.tio m := rfl
@[simp] theorem State.setCmp_get_motion (s : State) (n : Nat) (x : Compare) (m : Nat) : (s.setCmp n x).motion m = s.motion m := rfl
@[simp] theorem State.setCmp_get_trans (s : State) (n : Nat) (x : Compare) (m : Nat) : (s.setCmp n x).trans m = s.trans m := rfl
@[simp] theorem State.setCmp_get_seam (s : State) (n : Nat) (x : Compare) (m : Nat) : (s.setCmp n x).seam m = s.seam m := rfl
@[simp] theorem State.setCmp_get_calib (s : State) (n : Nat) (x : Compare) (m : Nat) : (s.setCmp n x).calib m = s.calib m := rfl
@[simp] theorem State.setCmp_get_queue (s : State) (n : Nat) (x : Compare) (m : Nat) : (s.setCmp n x).queue m = s.queue m := rfl
@[simp] theorem State.setGen_get_lane (s : State) (n : Nat) (x : Gen) (m : Nat) : (s.setGen n x).lane m = s.lane m := rfl
@[simp] theorem State.setGen_get_group (s : State) (n : Nat) (x : Gen) (m : Nat) : (s.setGen n x).group m = s.group m := rfl
@[simp] theorem State.setGen_get_port (s : State) (n : Nat) (x : Gen) (m : Nat) : (s.setGen n x).port m = s.port m := rfl
@[simp] theorem State.setGen_get_slice (s : State) (n : Nat) (x : Gen) (m : Nat) : (s.setGen n x).slice m = s.slice m := rfl
@[simp] theorem State.setGen_get_strm (s : State) (n : Nat) (x : Gen) (m : Nat) : (s.setGen n x).strm m = s.strm m := rfl
@[simp] theorem State.setGen_get_ring (s : State) (n : Nat) (x : Gen) (m : Nat) : (s.setGen n x).ring m = s.ring m := rfl
@[simp] theorem State.setGen_get_posChan (s : State) (n : Nat) (x : Gen) (m : Nat) : (s.setGen n x).posChan m = s.posChan m := rfl
@[simp] theorem State.setGen_get_cmp (s : State) (n : Nat) (x : Gen) (m : Nat) : (s.setGen n x).cmp m = s.cmp m := rfl
@[simp] theorem State.setGen_get_tio (s : State) (n : Nat) (x : Gen) (m : Nat) : (s.setGen n x).tio m = s.tio m := rfl
@[simp] theorem State.setGen_get_motion (s : State) (n : Nat) (x : Gen) (m : Nat) : (s.setGen n x).motion m = s.motion m := rfl
@[simp] theorem State.setGen_get_trans (s : State) (n : Nat) (x : Gen) (m : Nat) : (s.setGen n x).trans m = s.trans m := rfl
@[simp] theorem State.setGen_get_seam (s : State) (n : Nat) (x : Gen) (m : Nat) : (s.setGen n x).seam m = s.seam m := rfl
@[simp] theorem State.setGen_get_calib (s : State) (n : Nat) (x : Gen) (m : Nat) : (s.setGen n x).calib m = s.calib m := rfl
@[simp] theorem State.setGen_get_queue (s : State) (n : Nat) (x : Gen) (m : Nat) : (s.setGen n x).queue m = s.queue m := rfl
@[simp] theorem State.setTio_get_lane (s : State) (n : Nat) (x : Tio) (m : Nat) : (s.setTio n x).lane m = s.lane m := rfl
@[simp] theorem State.setTio_get_group (s : State) (n : Nat) (x : Tio) (m : Nat) : (s.setTio n x).group m = s.group m := rfl
@[simp] theorem State.setTio_get_port (s : State) (n : Nat) (x : Tio) (m : Nat) : (s.setTio n x).port m = s.port m := rfl
@[simp] theorem State.setTio_get_slice (s : State) (n : Nat) (x : Tio) (m : Nat) : (s.setTio n x).slice m = s.slice m := rfl
@[simp] theorem State.setTio_get_strm (s : State) (n : Nat) (x : Tio) (m : Nat) : (s.setTio n x).strm m = s.strm m := rfl
@[simp] theorem State.setTio_get_ring (s : State) (n : Nat) (x : Tio) (m : Nat) : (s.setTio n x).ring m = s.ring m := rfl
@[simp] theorem State.setTio_get_posChan (s : State) (n : Nat) (x : Tio) (m : Nat) : (s.setTio n x).posChan m = s.posChan m := rfl
@[simp] theorem State.setTio_get_cmp (s : State) (n : Nat) (x : Tio) (m : Nat) : (s.setTio n x).cmp m = s.cmp m := rfl
@[simp] theorem State.setTio_get_gen (s : State) (n : Nat) (x : Tio) (m : Nat) : (s.setTio n x).gen m = s.gen m := rfl
@[simp] theorem State.setTio_get_motion (s : State) (n : Nat) (x : Tio) (m : Nat) : (s.setTio n x).motion m = s.motion m := rfl
@[simp] theorem State.setTio_get_trans (s : State) (n : Nat) (x : Tio) (m : Nat) : (s.setTio n x).trans m = s.trans m := rfl
@[simp] theorem State.setTio_get_seam (s : State) (n : Nat) (x : Tio) (m : Nat) : (s.setTio n x).seam m = s.seam m := rfl
@[simp] theorem State.setTio_get_calib (s : State) (n : Nat) (x : Tio) (m : Nat) : (s.setTio n x).calib m = s.calib m := rfl
@[simp] theorem State.setTio_get_queue (s : State) (n : Nat) (x : Tio) (m : Nat) : (s.setTio n x).queue m = s.queue m := rfl
@[simp] theorem State.setMotion_get_lane (s : State) (n : Nat) (x : Motion) (m : Nat) : (s.setMotion n x).lane m = s.lane m := rfl
@[simp] theorem State.setMotion_get_group (s : State) (n : Nat) (x : Motion) (m : Nat) : (s.setMotion n x).group m = s.group m := rfl
@[simp] theorem State.setMotion_get_port (s : State) (n : Nat) (x : Motion) (m : Nat) : (s.setMotion n x).port m = s.port m := rfl
@[simp] theorem State.setMotion_get_slice (s : State) (n : Nat) (x : Motion) (m : Nat) : (s.setMotion n x).slice m = s.slice m := rfl
@[simp] theorem State.setMotion_get_strm (s : State) (n : Nat) (x : Motion) (m : Nat) : (s.setMotion n x).strm m = s.strm m := rfl
@[simp] theorem State.setMotion_get_ring (s : State) (n : Nat) (x : Motion) (m : Nat) : (s.setMotion n x).ring m = s.ring m := rfl
@[simp] theorem State.setMotion_get_posChan (s : State) (n : Nat) (x : Motion) (m : Nat) : (s.setMotion n x).posChan m = s.posChan m := rfl
@[simp] theorem State.setMotion_get_cmp (s : State) (n : Nat) (x : Motion) (m : Nat) : (s.setMotion n x).cmp m = s.cmp m := rfl
@[simp] theorem State.setMotion_get_gen (s : State) (n : Nat) (x : Motion) (m : Nat) : (s.setMotion n x).gen m = s.gen m := rfl
@[simp] theorem State.setMotion_get_tio (s : State) (n : Nat) (x : Motion) (m : Nat) : (s.setMotion n x).tio m = s.tio m := rfl
@[simp] theorem State.setMotion_get_trans (s : State) (n : Nat) (x : Motion) (m : Nat) : (s.setMotion n x).trans m = s.trans m := rfl
@[simp] theorem State.setMotion_get_seam (s : State) (n : Nat) (x : Motion) (m : Nat) : (s.setMotion n x).seam m = s.seam m := rfl
@[simp] theorem State.setMotion_get_calib (s : State) (n : Nat) (x : Motion) (m : Nat) : (s.setMotion n x).calib m = s.calib m := rfl
@[simp] theorem State.setMotion_get_queue (s : State) (n : Nat) (x : Motion) (m : Nat) : (s.setMotion n x).queue m = s.queue m := rfl
@[simp] theorem State.setTrans_get_lane (s : State) (n : Nat) (x : Transport) (m : Nat) : (s.setTrans n x).lane m = s.lane m := rfl
@[simp] theorem State.setTrans_get_group (s : State) (n : Nat) (x : Transport) (m : Nat) : (s.setTrans n x).group m = s.group m := rfl
@[simp] theorem State.setTrans_get_port (s : State) (n : Nat) (x : Transport) (m : Nat) : (s.setTrans n x).port m = s.port m := rfl
@[simp] theorem State.setTrans_get_slice (s : State) (n : Nat) (x : Transport) (m : Nat) : (s.setTrans n x).slice m = s.slice m := rfl
@[simp] theorem State.setTrans_get_strm (s : State) (n : Nat) (x : Transport) (m : Nat) : (s.setTrans n x).strm m = s.strm m := rfl
@[simp] theorem State.setTrans_get_ring (s : State) (n : Nat) (x : Transport) (m : Nat) : (s.setTrans n x).ring m = s.ring m := rfl
@[simp] theorem State.setTrans_get_posChan (s : State) (n : Nat) (x : Transport) (m : Nat) : (s.setTrans n x).posChan m = s.posChan m := rfl
@[simp] theorem State.setTrans_get_cmp (s : State) (n : Nat) (x : Transport) (m : Nat) : (s.setTrans n x).cmp m = s.cmp m := rfl
@[simp] theorem State.setTrans_get_gen (s : State) (n : Nat) (x : Transport) (m : Nat) : (s.setTrans n x).gen m = s.gen m := rfl
@[simp] theorem State.setTrans_get_tio (s : State) (n : Nat) (x : Transport) (m : Nat) : (s.setTrans n x).tio m = s.tio m := rfl
@[simp] theorem State.setTrans_get_motion (s : State) (n : Nat) (x : Transport) (m : Nat) : (s.setTrans n x).motion m = s.motion m := rfl
@[simp] theorem State.setTrans_get_seam (s : State) (n : Nat) (x : Transport) (m : Nat) : (s.setTrans n x).seam m = s.seam m := rfl
@[simp] theorem State.setTrans_get_calib (s : State) (n : Nat) (x : Transport) (m : Nat) : (s.setTrans n x).calib m = s.calib m := rfl
@[simp] theorem State.setTrans_get_queue (s : State) (n : Nat) (x : Transport) (m : Nat) : (s.setTrans n x).queue m = s.queue m := rfl
@[simp] theorem State.setSeam_get_lane (s : State) (n : Nat) (x : Seam) (m : Nat) : (s.setSeam n x).lane m = s.lane m := rfl
@[simp] theorem State.setSeam_get_group (s : State) (n : Nat) (x : Seam) (m : Nat) : (s.setSeam n x).group m = s.group m := rfl
@[simp] theorem State.setSeam_get_port (s : State) (n : Nat) (x : Seam) (m : Nat) : (s.setSeam n x).port m = s.port m := rfl
@[simp] theorem State.setSeam_get_slice (s : State) (n : Nat) (x : Seam) (m : Nat) : (s.setSeam n x).slice m = s.slice m := rfl
@[simp] theorem State.setSeam_get_strm (s : State) (n : Nat) (x : Seam) (m : Nat) : (s.setSeam n x).strm m = s.strm m := rfl
@[simp] theorem State.setSeam_get_ring (s : State) (n : Nat) (x : Seam) (m : Nat) : (s.setSeam n x).ring m = s.ring m := rfl
@[simp] theorem State.setSeam_get_posChan (s : State) (n : Nat) (x : Seam) (m : Nat) : (s.setSeam n x).posChan m = s.posChan m := rfl
@[simp] theorem State.setSeam_get_cmp (s : State) (n : Nat) (x : Seam) (m : Nat) : (s.setSeam n x).cmp m = s.cmp m := rfl
@[simp] theorem State.setSeam_get_gen (s : State) (n : Nat) (x : Seam) (m : Nat) : (s.setSeam n x).gen m = s.gen m := rfl
@[simp] theorem State.setSeam_get_tio (s : State) (n : Nat) (x : Seam) (m : Nat) : (s.setSeam n x).tio m = s.tio m := rfl
@[simp] theorem State.setSeam_get_motion (s : State) (n : Nat) (x : Seam) (m : Nat) : (s.setSeam n x).motion m = s.motion m := rfl
@[simp] theorem State.setSeam_get_trans (s : State) (n : Nat) (x : Seam) (m : Nat) : (s.setSeam n x).trans m = s.trans m := rfl
@[simp] theorem State.setSeam_get_calib (s : State) (n : Nat) (x : Seam) (m : Nat) : (s.setSeam n x).calib m = s.calib m := rfl
@[simp] theorem State.setSeam_get_queue (s : State) (n : Nat) (x : Seam) (m : Nat) : (s.setSeam n x).queue m = s.queue m := rfl
@[simp] theorem State.setCalib_get_lane (s : State) (n : Nat) (x : Calib) (m : Nat) : (s.setCalib n x).lane m = s.lane m := rfl
@[simp] theorem State.setCalib_get_group (s : State) (n : Nat) (x : Calib) (m : Nat) : (s.setCalib n x).group m = s.group m := rfl
@[simp] theorem State.setCalib_get_port (s : State) (n : Nat) (x : Calib) (m : Nat) : (s.setCalib n x).port m = s.port m := rfl
@[simp] theorem State.setCalib_get_slice (s : State) (n : Nat) (x : Calib) (m : Nat) : (s.setCalib n x).slice m = s.slice m := rfl
@[simp] theorem State.setCalib_get_strm (s : State) (n : Nat) (x : Calib) (m : Nat) : (s.setCalib n x).strm m = s.strm m := rfl
@[simp] theorem State.setCalib_get_ring (s : State) (n : Nat) (x : Calib) (m : Nat) : (s.setCalib n x).ring m = s.ring m := rfl
@[simp] theorem State.setCalib_get_posChan (s : State) (n : Nat) (x : Calib) (m : Nat) : (s.setCalib n x).posChan m = s.posChan m := rfl
@[simp] theorem State.setCalib_get_cmp (s : State) (n : Nat) (x : Calib) (m : Nat) : (s.setCalib n x).cmp m = s.cmp m := rfl
@[simp] theorem State.setCalib_get_gen (s : State) (n : Nat) (x : Calib) (m : Nat) : (s.setCalib n x).gen m = s.gen m := rfl
@[simp] theorem State.setCalib_get_tio (s : State) (n : Nat) (x : Calib) (m : Nat) : (s.setCalib n x).tio m = s.tio m := rfl
@[simp] theorem State.setCalib_get_motion (s : State) (n : Nat) (x : Calib) (m : Nat) : (s.setCalib n x).motion m = s.motion m := rfl
@[simp] theorem State.setCalib_get_trans (s : State) (n : Nat) (x : Calib) (m : Nat) : (s.setCalib n x).trans m = s.trans m := rfl
@[simp] theorem State.setCalib_get_seam (s : State) (n : Nat) (x : Calib) (m : Nat) : (s.setCalib n x).seam m = s.seam m := rfl
@[simp] theorem State.setCalib_get_queue (s : State) (n : Nat) (x : Calib) (m : Nat) : (s.setCalib n x).queue m = s.queue m := rfl
@[simp] theorem State.setBank_get_lane (s : State) (n : Nat) (x : BankState) (m : Nat) : (s.setBank n x).lane m = s.lane m := rfl
@[simp] theorem State.setBank_get_group (s : State) (n : Nat) (x : BankState) (m : Nat) : (s.setBank n x).group m = s.group m := rfl
@[simp] theorem State.setBank_get_port (s : State) (n : Nat) (x : BankState) (m : Nat) : (s.setBank n x).port m = s.port m := rfl
@[simp] theorem State.setBank_get_slice (s : State) (n : Nat) (x : BankState) (m : Nat) : (s.setBank n x).slice m = s.slice m := rfl
@[simp] theorem State.setBank_get_strm (s : State) (n : Nat) (x : BankState) (m : Nat) : (s.setBank n x).strm m = s.strm m := rfl
@[simp] theorem State.setBank_get_ring (s : State) (n : Nat) (x : BankState) (m : Nat) : (s.setBank n x).ring m = s.ring m := rfl
@[simp] theorem State.setBank_get_posChan (s : State) (n : Nat) (x : BankState) (m : Nat) : (s.setBank n x).posChan m = s.posChan m := rfl
@[simp] theorem State.setBank_get_cmp (s : State) (n : Nat) (x : BankState) (m : Nat) : (s.setBank n x).cmp m = s.cmp m := rfl
@[simp] theorem State.setBank_get_gen (s : State) (n : Nat) (x : BankState) (m : Nat) : (s.setBank n x).gen m = s.gen m := rfl
@[simp] theorem State.setBank_get_tio (s : State) (n : Nat) (x : BankState) (m : Nat) : (s.setBank n x).tio m = s.tio m := rfl
@[simp] theorem State.setBank_get_motion (s : State) (n : Nat) (x : BankState) (m : Nat) : (s.setBank n x).motion m = s.motion m := rfl
@[simp] theorem State.setBank_get_trans (s : State) (n : Nat) (x : BankState) (m : Nat) : (s.setBank n x).trans m = s.trans m := rfl
@[simp] theorem State.setBank_get_seam (s : State) (n : Nat) (x : BankState) (m : Nat) : (s.setBank n x).seam m = s.seam m := rfl
@[simp] theorem State.setBank_get_calib (s : State) (n : Nat) (x : BankState) (m : Nat) : (s.setBank n x).calib m = s.calib m := rfl
@[simp] theorem State.setBank_get_queue (s : State) (n : Nat) (x : BankState) (m : Nat) : (s.setBank n x).queue m = s.queue m := rfl
@[simp] theorem State.setQueue_get_lane (s : State) (n : Nat) (x : Queue) (m : Nat) : (s.setQueue n x).lane m = s.lane m := rfl
@[simp] theorem State.setQueue_get_group (s : State) (n : Nat) (x : Queue) (m : Nat) : (s.setQueue n x).group m = s.group m := rfl
@[simp] theorem State.setQueue_get_port (s : State) (n : Nat) (x : Queue) (m : Nat) : (s.setQueue n x).port m = s.port m := rfl
@[simp] theorem State.setQueue_get_slice (s : State) (n : Nat) (x : Queue) (m : Nat) : (s.setQueue n x).slice m = s.slice m := rfl
@[simp] theorem State.setQueue_get_strm (s : State) (n : Nat) (x : Queue) (m : Nat) : (s.setQueue n x).strm m = s.strm m := rfl
@[simp] theorem State.setQueue_get_ring (s : State) (n : Nat) (x : Queue) (m : Nat) : (s.setQueue n x).ring m = s.ring m := rfl
@[simp] theorem State.setQueue_get_posChan (s : State) (n : Nat) (x : Queue) (m : Nat) : (s.setQueue n x).posChan m = s.posChan m := rfl
@[simp] theorem State.setQueue_get_cmp (s : State) (n : Nat) (x : Queue) (m : Nat) : (s.setQueue n x).cmp m = s.cmp m := rfl
@[simp] theorem State.setQueue_get_gen (s : State) (n : Nat) (x : Queue) (m : Nat) : (s.setQueue n x).gen m = s.gen m := rfl
@[simp] theorem State.setQueue_get_tio (s : State) (n : Nat) (x : Queue) (m : Nat) : (s.setQueue n x).tio m = s.tio m := rfl
@[simp] theorem State.setQueue_get_motion (s : State) (n : Nat) (x : Queue) (m : Nat) : (s.setQueue n x).motion m = s.motion m := rfl
@[simp] theorem State.setQueue_get_trans (s : State) (n : Nat) (x : Queue) (m : Nat) : (s.setQueue n x).trans m = s.trans m := rfl
@[simp] theorem State.setQueue_get_seam (s : State) (n : Nat) (x : Queue) (m : Nat) : (s.setQueue n x).seam m = s.seam m := rfl
@[simp] theorem State.setQueue_get_calib (s : State) (n : Nat) (x : Queue) (m : Nat) : (s.setQueue n x).calib m = s.calib m := rfl
@[simp] theorem State.loopRan_get_lane (s : State) (l u : Nat) (m : Nat) : (s.loopRan l u).lane m = s.lane m := rfl
@[simp] theorem State.loopRan_get_group (s : State) (l u : Nat) (m : Nat) : (s.loopRan l u).group m = s.group m := rfl
@[simp] theorem State.loopRan_get_port (s : State) (l u : Nat) (m : Nat) : (s.loopRan l u).port m = s.port m := rfl
@[simp] theorem State.loopRan_get_slice (s : State) (l u : Nat) (m : Nat) : (s.loopRan l u).slice m = s.slice m := rfl
@[simp] theorem State.loopRan_get_strm (s : State) (l u : Nat) (m : Nat) : (s.loopRan l u).strm m = s.strm m := rfl
@[simp] theorem State.loopRan_get_ring (s : State) (l u : Nat) (m : Nat) : (s.loopRan l u).ring m = s.ring m := rfl
@[simp] theorem State.loopRan_get_posChan (s : State) (l u : Nat) (m : Nat) : (s.loopRan l u).posChan m = s.posChan m := rfl
@[simp] theorem State.loopRan_get_cmp (s : State) (l u : Nat) (m : Nat) : (s.loopRan l u).cmp m = s.cmp m := rfl
@[simp] theorem State.loopRan_get_gen (s : State) (l u : Nat) (m : Nat) : (s.loopRan l u).gen m = s.gen m := rfl
@[simp] theorem State.loopRan_get_tio (s : State) (l u : Nat) (m : Nat) : (s.loopRan l u).tio m = s.tio m := rfl
@[simp] theorem State.loopRan_get_motion (s : State) (l u : Nat) (m : Nat) : (s.loopRan l u).motion m = s.motion m := rfl
@[simp] theorem State.loopRan_get_trans (s : State) (l u : Nat) (m : Nat) : (s.loopRan l u).trans m = s.trans m := rfl
@[simp] theorem State.loopRan_get_seam (s : State) (l u : Nat) (m : Nat) : (s.loopRan l u).seam m = s.seam m := rfl
@[simp] theorem State.loopRan_get_calib (s : State) (l u : Nat) (m : Nat) : (s.loopRan l u).calib m = s.calib m := rfl
@[simp] theorem State.loopRan_get_queue (s : State) (l u : Nat) (m : Nat) : (s.loopRan l u).queue m = s.queue m := rfl

end Sys2Proof.Machine
end

