-- ==== Sys2Proof/Laws/Events.lean ====
section
/-! SUPPORT. What telling an event, sending a packet and reporting a fault can do: which parts of the state they leave alone, and
which registers. -/
namespace Sys2Proof.Machine

/-! ### Putting frames together -/

theorem Told.refl (s : State) : Told s s := rfl
theorem Told.intro {s t : State} (h : t = told s t) : Told s t := h
theorem Told.trans {s t u : State} (h : Told s t) (k : Told t u) : Told s u := by
  have e : told t u = told s u := by unfold Told at h; rw [h]; rfl
  exact Eq.trans k e
/-- A part of the state that telling does not touch. -/
theorem Told.keeps {γ : Type} {s t : State} (h : Told s t) (f : State → γ) (k : f (told s t) = f s) : f t = f s :=
  (congrArg f h).trans k
theorem SameRegs.refl (l : List Nat) (s : State) : SameRegs l s s := fun _ _ => rfl
theorem SameRegs.trans {l : List Nat} {s t u : State} (h : SameRegs l s t) (k : SameRegs l t u) : SameRegs l s u :=
  fun o ho => (k o ho).trans (h o ho)
theorem SameRegs.weaken {l m : List Nat} {s t : State} (h : SameRegs l s t) (k : ∀ x ∈ l, x ∈ m) : SameRegs m s t :=
  fun o ho => h o fun hl => ho (k _ hl)
theorem SameRegs.of_dict {l : List Nat} {s t : State} (h : t.dict = s.dict) : SameRegs l s t :=
  fun o _ => by simp [State.reg, h]
theorem SameRegs.setReg (l : List Nat) (s : State) (o : Obj) (v : Int) (h : o.key ∈ l) : SameRegs l s (s.setReg o v) := by
  intro r hr
  apply State.setReg_reg_of_ne
  intro e; rw [e] at hr; exact hr h

/-! ### What goes out through the host port -/

theorem sendVector_told (v : Nat) (s : State) : Told s (sendVector mgmtChan v s) := by
  unfold sendVector; dsimp only; split <;> rfl
theorem sendVector_dict (n v : Nat) (s : State) : (sendVector n v s).dict = s.dict := by
  unfold sendVector; dsimp only; split
  · rfl
  · exact State.setTx_dict _ _ _
theorem rxVector_told (s : State) : Told s (rxVector s) := by
  unfold rxVector; dsimp only; split
  · exact Told.trans (Told.intro rfl) (sendVector_told _ _)
  · rfl
theorem rxVector_dict (s : State) : (rxVector s).dict = s.dict := by
  unfold rxVector; dsimp only; split
  · exact sendVector_dict _ _ _
  · rfl
theorem txVector_told (s : State) : Told s (txVector s) := by
  unfold txVector; dsimp only; split
  · exact Told.trans (Told.intro rfl) (sendVector_told _ _)
  · rfl
theorem txVector_dict (s : State) : (txVector s).dict = s.dict := by
  unfold txVector; dsimp only; split
  · exact sendVector_dict _ _ _
  · rfl
theorem mbxFill_told (p : Bytes) (s : State) : Told s (mbxFill p s) := Told.trans (Told.intro rfl) (rxVector_told _)
theorem mbxFill_dict (p : Bytes) (s : State) : (mbxFill p s).dict = s.dict := rxVector_dict _
theorem mbxPost_told (p : Bytes) (s : State) : Told s (mbxPost p s) := by
  unfold mbxPost; dsimp only; split
  · rfl
  · split
    · exact mbxFill_told _ _
    · rfl
theorem mbxPost_dict (p : Bytes) (s : State) : (mbxPost p s).dict = s.dict := by
  unfold mbxPost; dsimp only; split
  · rfl
  · split
    · exact mbxFill_dict _ _
    · rfl

/-! ### Packets and events -/

theorem sendKdp_told (m : Bool) (dst op seq ses fl er : Nat) (p : Bytes) (s : State) : Told s (sendKdp m dst op seq ses fl er p s) := by
  unfold sendKdp; dsimp only; split
  · rfl
  · split
    · refine Told.trans ?_ (mbxPost_told _ _); split <;> rfl
    · split <;> rfl
theorem sendKdp_dict (m : Bool) (dst op seq ses fl er : Nat) (p : Bytes) (s : State) :
    (sendKdp m dst op seq ses fl er p s).dict = s.dict := by
  unfold sendKdp; dsimp only; split
  · rfl
  · split
    · rw [mbxPost_dict]; split <;> rfl
    · split <;> rfl
/-- A packet for the segment goes out in its frame, where the node has an address and its session has a counter left. -/
theorem sendKdp_out (dst op seq ses fl er : Nat) (p : Bytes) (s : State) (h : s.nat Obj.nodeAddress ≠ 0)
    (k : ((s.session ses).filter Session.opened).all fun x => decide (x.txCtr < 2 ^ 32 - 1)) :
    ∃ f, (sendKdp false dst op seq ses fl er p s).out = .frame f :: .kdp false dst op seq ses er p :: s.out := by
  unfold sendKdp
  have e : (((s.session ses).filter Session.opened).any fun x => decide (2 ^ 32 - 1 ≤ x.txCtr)) = false := by
    cases g : (s.session ses).filter Session.opened with
    | none => rfl
    | some x =>
      rw [g] at k
      have k' : x.txCtr < 2 ^ 32 - 1 := by simpa using k
      simp only [Option.any_some, decide_eq_false_iff_not]
      omega
  dsimp only
  rw [e]
  simp only [Bool.not_false, Bool.true_and, decide_eq_true_eq, h, Bool.or_false, if_false, Bool.false_eq_true]
  split <;> exact ⟨_, rfl⟩

theorem routeEvent_told (m : Bool) (r : EventRoute) (dst : Nat × Nat) (e : EventRec) (s : State) : Told s (routeEvent m r dst e s).2 := by
  unfold routeEvent; dsimp only; split
  · rfl
  · split
    · rfl
    · dsimp only; split
      · exact Told.trans (sendKdp_told _ _ _ _ _ _ _ _ _) (sendVector_told _ _)
      · exact sendKdp_told _ _ _ _ _ _ _ _ _
theorem routeEvent_regs (m : Bool) (r : EventRoute) (dst : Nat × Nat) (e : EventRec) (s : State) :
    SameRegs eventKeys s (routeEvent m r dst e s).2 := by
  unfold routeEvent; dsimp only; split
  · exact SameRegs.setReg _ _ _ _ (by simp [eventKeys])
  · split
    · exact SameRegs.refl _ _
    · dsimp only; split
      · exact SameRegs.of_dict ((sendVector_dict _ _ _).trans (sendKdp_dict _ _ _ _ _ _ _ _ _))
      · exact SameRegs.of_dict (sendKdp_dict _ _ _ _ _ _ _ _ _)

theorem sendVector_raised (n v : Nat) (s : State) : (sendVector n v s).raised = s.raised := by
  unfold sendVector; dsimp only; split
  · rfl
  · exact State.setTx_raised _ _ _
theorem rxVector_raised (s : State) : (rxVector s).raised = s.raised := by
  unfold rxVector; dsimp only; split
  · exact sendVector_raised _ _ _
  · rfl
theorem mbxPost_raised (p : Bytes) (s : State) : (mbxPost p s).raised = s.raised := by
  unfold mbxPost; dsimp only; split
  · rfl
  · split
    · exact rxVector_raised _
    · rfl
theorem sendKdp_raised (m : Bool) (dst op seq ses fl er : Nat) (p : Bytes) (s : State) :
    (sendKdp m dst op seq ses fl er p s).raised = s.raised := by
  unfold sendKdp; dsimp only; split
  · rfl
  · split
    · rw [mbxPost_raised]; split <;> rfl
    · split <;> rfl
theorem routeEvent_raised (m : Bool) (r : EventRoute) (dst : Nat × Nat) (e : EventRec) (s : State) :
    (routeEvent m r dst e s).2.raised = s.raised := by
  unfold routeEvent; dsimp only; split
  · rfl
  · split
    · rfl
    · dsimp only; split
      · rw [sendVector_raised, sendKdp_raised]
      · exact sendKdp_raised _ _ _ _ _ _ _ _ _

theorem tellNet_told (e : EventRec) (s : State) : Told s (tellNet e s) := by
  unfold tellNet; split
  · split
    · rfl
    · exact Told.trans (routeEvent_told _ _ _ _ _) (Told.intro rfl)
  · rfl
theorem tellNet_regs (e : EventRec) (s : State) : SameRegs eventKeys s (tellNet e s) := by
  unfold tellNet; split
  · split
    · exact SameRegs.refl _ _
    · exact routeEvent_regs _ _ _ _ _
  · exact SameRegs.refl _ _
theorem tellNet_raised (e : EventRec) (s : State) : (tellNet e s).raised = s.raised := by
  unfold tellNet; split
  · split
    · rfl
    · exact routeEvent_raised _ _ _ _ _
  · rfl
theorem tellMail_told (e : EventRec) (s : State) : Told s (tellMail e s) := by
  unfold tellMail; split
  · split
    · rfl
    · exact Told.trans (routeEvent_told _ _ _ _ _) (Told.intro rfl)
  · rfl
theorem tellMail_regs (e : EventRec) (s : State) : SameRegs eventKeys s (tellMail e s) := by
  unfold tellMail; split
  · split
    · exact SameRegs.refl _ _
    · exact routeEvent_regs _ _ _ _ _
  · exact SameRegs.refl _ _
theorem tellMail_raised (e : EventRec) (s : State) : (tellMail e s).raised = s.raised := by
  unfold tellMail; split
  · split
    · rfl
    · exact routeEvent_raised _ _ _ _ _
  · rfl

/-- An event is told and nothing else happens. -/
theorem raise_told (s : State) (n : EventName) (a : List Int) (v : Nat) : Told s (s.raise n a v) := by
  unfold State.raise; dsimp only; split
  · rfl
  · exact Told.trans (Told.intro rfl) (Told.trans (tellNet_told _ _) (tellMail_told _ _))

/-- An event changes no register but EventsRaised and EventsLost. -/
theorem raise_regs (s : State) (n : EventName) (a : List Int) (v : Nat) : SameRegs eventKeys s (s.raise n a v) := by
  have h : SameRegs eventKeys s ({ s with raised := ⟨n, s.dt, v, a⟩ :: s.raised }.countWrap Obj.eventsRaised) :=
    fun r hr => State.countWrap_reg_of_ne _ _ _ _ fun e => hr (by simp [eventKeys, e])
  unfold State.raise; dsimp only; split
  · exact h
  · exact h.trans ((tellNet_regs _ _).trans (tellMail_regs _ _))

/-- The event raised is the newest in the log. -/
theorem raise_raised (s : State) (n : EventName) (a : List Int) (v : Nat) : (s.raise n a v).raised = ⟨n, s.dt, v, a⟩ :: s.raised := by
  unfold State.raise; dsimp only; split
  · rfl
  · rw [tellMail_raised, tellNet_raised]; rfl

/-! ### Fault reports -/

theorem ToldFault.refl (s : State) : ToldFault s s := rfl
theorem ToldFault.trans {s t u : State} (h : ToldFault s t) (k : ToldFault t u) : ToldFault s u := by
  have e : toldFault t u = toldFault s u := by unfold ToldFault at h; rw [h]; rfl
  exact Eq.trans k e
theorem ToldFault.keeps {γ : Type} {s t : State} (h : ToldFault s t) (f : State → γ) (k : f (toldFault s t) = f s) : f t = f s :=
  (congrArg f h).trans k
theorem ToldFault.of_told {s t : State} (h : Told s t) : ToldFault s t := by
  have e : toldFault s (told s t) = told s t := rfl
  unfold ToldFault
  rw [← show t = told s t from h] at e
  exact e.symm
theorem toldFault_of (s : State) (d : Table Int) (r l : List FaultReport) (w : Option Nat) :
    ToldFault s { s with dict := d, reports := r, dep := { s.dep with log := l, worst := w } } := rfl
theorem setReg_told (s : State) (o : Obj) (v : Int) : Told s (s.setReg o v) := rfl
theorem countReport_told (r : FaultReport) (s : State) : Told s (countReport r s) := by
  unfold countReport
  exact ((setReg_told _ _ _).trans (setReg_told _ _ _)).trans (setReg_told _ _ _)
theorem countReport_regs (r : FaultReport) (s : State) : SameRegs (faultKeys r.kind) s (countReport r s) := by
  intro o ho
  simp only [faultKeys, List.mem_cons, List.not_mem_nil, or_false, not_or] at ho
  unfold countReport
  generalize r.word = w
  rw [State.setReg_reg_of_ne _ _ _ _ ho.2.2, State.count_reg_of_ne _ _ _ _ ho.2.1, State.setReg_reg_of_ne _ _ _ _ ho.1]
/-- A report is queued, counted and logged, and nothing else happens. -/
theorem report_told (s : State) (k v d p i : Nat) : ToldFault s (s.report k v d p i) := by
  unfold State.report
  exact ToldFault.trans (ToldFault.of_told (countReport_told _ _)) (toldFault_of _ _ _ _ _)
theorem report_regs (s : State) (k v d p i : Nat) : SameRegs (faultKeys k) s (s.report k v d p i) := by
  unfold State.report
  exact (countReport_regs ⟨s.dt, i, k, v, p, d % 2 ^ 32⟩ s).trans (SameRegs.of_dict rfl)
theorem report_reports (s : State) (k v d p i : Nat) :
    (s.report k v d p i).reports = s.reports ++ [⟨s.dt, i, k, v, p, d % 2 ^ 32⟩] := rfl
theorem report_raised (s : State) (k v d p i : Nat) : (s.report k v d p i).raised = s.raised := by
  unfold State.report countReport; rfl
theorem raiseFault_told (s : State) (n : EventName) (a : List Int) (k v d p i : Nat) : ToldFault s (s.raiseFault n a k v d p i) :=
  ToldFault.trans (ToldFault.of_told (raise_told _ _ _ _)) (report_told _ _ _ _ _ _)
theorem raiseFault_regs (s : State) (n : EventName) (a : List Int) (k v d p i : Nat) :
    SameRegs (eventKeys ++ faultKeys k) s (s.raiseFault n a k v d p i) :=
  SameRegs.trans ((raise_regs _ _ _ _).weaken (by simp +contextual)) ((report_regs _ _ _ _ _ _).weaken (by simp +contextual))
theorem raiseFault_raised (s : State) (n : EventName) (a : List Int) (k v d p i : Nat) :
    (s.raiseFault n a k v d p i).raised = ⟨n, s.dt, v, a⟩ :: s.raised := by
  unfold State.raiseFault; rw [report_raised]; exact raise_raised _ _ _ _
theorem raiseFault_reports (s : State) (n : EventName) (a : List Int) (k v d p i : Nat) :
    (s.raiseFault n a k v d p i).reports = s.reports ++ [⟨s.dt, i, k, v, p, d % 2 ^ 32⟩] := by
  unfold State.raiseFault
  rw [report_reports, (raise_told s n a v).keeps State.reports rfl, (raise_told s n a v).keeps State.dt rfl]

/-! ### Field by field -/

@[simp] theorem told_pending (s t : State) : (told s t).pending = s.pending := rfl
@[simp] theorem told_freeCount (s t : State) : (told s t).freeCount = s.freeCount := rfl
@[simp] theorem told_now (s t : State) : (told s t).now = s.now := rfl
@[simp] theorem told_records (s t : State) : (told s t).records = s.records := rfl
@[simp] theorem told_grayDt (s t : State) : (told s t).grayDt = s.grayDt := rfl
@[simp] theorem told_strays (s t : State) : (told s t).strays = s.strays := rfl
@[simp] theorem told_class0In (s t : State) : (told s t).class0In = s.class0In := rfl
@[simp] theorem told_loops (s t : State) : (told s t).loops = s.loops := rfl
@[simp] theorem told_groupsWaiting (s t : State) : (told s t).groupsWaiting = s.groupsWaiting := rfl
@[simp] theorem told_commitNext (s t : State) : (told s t).commitNext = s.commitNext := rfl
@[simp] theorem told_reports (s t : State) : (told s t).reports = s.reports := rfl
@[simp] theorem told_queues (s t : State) : (told s t).queues = s.queues := rfl
@[simp] theorem told_lanes (s t : State) : (told s t).lanes = s.lanes := rfl
@[simp] theorem told_groups (s t : State) : (told s t).groups = s.groups := rfl
@[simp] theorem told_ingest (s t : State) : (told s t).ingest = s.ingest := rfl
@[simp] theorem told_ports (s t : State) : (told s t).ports = s.ports := rfl
@[simp] theorem told_banks (s t : State) : (told s t).banks = s.banks := rfl
@[simp] theorem told_slices (s t : State) : (told s t).slices = s.slices := rfl
@[simp] theorem told_crossbar (s t : State) : (told s t).crossbar = s.crossbar := rfl
@[simp] theorem told_coefRows (s t : State) : (told s t).coefRows = s.coefRows := rfl
@[simp] theorem told_streams (s t : State) : (told s t).streams = s.streams := rfl
@[simp] theorem told_curves (s t : State) : (told s t).curves = s.curves := rfl
@[simp] theorem told_calibs (s t : State) : (told s t).calibs = s.calibs := rfl
@[simp] theorem told_warmup (s t : State) : (told s t).warmup = s.warmup := rfl
@[simp] theorem told_posChans (s t : State) : (told s t).posChans = s.posChans := rfl
@[simp] theorem told_compares (s t : State) : (told s t).compares = s.compares := rfl
@[simp] theorem told_gens (s t : State) : (told s t).gens = s.gens := rfl
@[simp] theorem told_tios (s t : State) : (told s t).tios = s.tios := rfl
@[simp] theorem told_motions (s t : State) : (told s t).motions = s.motions := rfl
@[simp] theorem told_transports (s t : State) : (told s t).transports = s.transports := rfl
@[simp] theorem told_seamsOf (s t : State) : (told s t).seamsOf = s.seamsOf := rfl
@[simp] theorem told_lamps (s t : State) : (told s t).lamps = s.lamps := rfl
@[simp] theorem told_rings (s t : State) : (told s t).rings = s.rings := rfl
@[simp] theorem told_fe (s t : State) : (told s t).fe = s.fe := rfl
@[simp] theorem told_mode (s t : State) : (told s t).mode = s.mode := rfl
@[simp] theorem told_target (s t : State) : (told s t).target = s.target := rfl
@[simp] theorem told_power (s t : State) : (told s t).power = s.power := rfl
@[simp] theorem told_dep (s t : State) : (told s t).dep = s.dep := rfl
@[simp] theorem told_sec (s t : State) : (told s t).sec = s.sec := rfl
@[simp] theorem told_boot (s t : State) : (told s t).boot = s.boot := rfl
@[simp] theorem toldFault_pending (s t : State) : (toldFault s t).pending = s.pending := rfl
@[simp] theorem toldFault_freeCount (s t : State) : (toldFault s t).freeCount = s.freeCount := rfl
@[simp] theorem toldFault_now (s t : State) : (toldFault s t).now = s.now := rfl
@[simp] theorem toldFault_records (s t : State) : (toldFault s t).records = s.records := rfl
@[simp] theorem toldFault_grayDt (s t : State) : (toldFault s t).grayDt = s.grayDt := rfl
@[simp] theorem toldFault_strays (s t : State) : (toldFault s t).strays = s.strays := rfl
@[simp] theorem toldFault_class0In (s t : State) : (toldFault s t).class0In = s.class0In := rfl
@[simp] theorem toldFault_loops (s t : State) : (toldFault s t).loops = s.loops := rfl
@[simp] theorem toldFault_groupsWaiting (s t : State) : (toldFault s t).groupsWaiting = s.groupsWaiting := rfl
@[simp] theorem toldFault_commitNext (s t : State) : (toldFault s t).commitNext = s.commitNext := rfl
@[simp] theorem toldFault_queues (s t : State) : (toldFault s t).queues = s.queues := rfl
@[simp] theorem toldFault_lanes (s t : State) : (toldFault s t).lanes = s.lanes := rfl
@[simp] theorem toldFault_groups (s t : State) : (toldFault s t).groups = s.groups := rfl
@[simp] theorem toldFault_ingest (s t : State) : (toldFault s t).ingest = s.ingest := rfl
@[simp] theorem toldFault_ports (s t : State) : (toldFault s t).ports = s.ports := rfl
@[simp] theorem toldFault_banks (s t : State) : (toldFault s t).banks = s.banks := rfl
@[simp] theorem toldFault_slices (s t : State) : (toldFault s t).slices = s.slices := rfl
@[simp] theorem toldFault_crossbar (s t : State) : (toldFault s t).crossbar = s.crossbar := rfl
@[simp] theorem toldFault_coefRows (s t : State) : (toldFault s t).coefRows = s.coefRows := rfl
@[simp] theorem toldFault_streams (s t : State) : (toldFault s t).streams = s.streams := rfl
@[simp] theorem toldFault_curves (s t : State) : (toldFault s t).curves = s.curves := rfl
@[simp] theorem toldFault_calibs (s t : State) : (toldFault s t).calibs = s.calibs := rfl
@[simp] theorem toldFault_warmup (s t : State) : (toldFault s t).warmup = s.warmup := rfl
@[simp] theorem toldFault_posChans (s t : State) : (toldFault s t).posChans = s.posChans := rfl
@[simp] theorem toldFault_compares (s t : State) : (toldFault s t).compares = s.compares := rfl
@[simp] theorem toldFault_gens (s t : State) : (toldFault s t).gens = s.gens := rfl
@[simp] theorem toldFault_tios (s t : State) : (toldFault s t).tios = s.tios := rfl
@[simp] theorem toldFault_motions (s t : State) : (toldFault s t).motions = s.motions := rfl
@[simp] theorem toldFault_transports (s t : State) : (toldFault s t).transports = s.transports := rfl
@[simp] theorem toldFault_seamsOf (s t : State) : (toldFault s t).seamsOf = s.seamsOf := rfl
@[simp] theorem toldFault_lamps (s t : State) : (toldFault s t).lamps = s.lamps := rfl
@[simp] theorem toldFault_rings (s t : State) : (toldFault s t).rings = s.rings := rfl
@[simp] theorem toldFault_fe (s t : State) : (toldFault s t).fe = s.fe := rfl
@[simp] theorem toldFault_mode (s t : State) : (toldFault s t).mode = s.mode := rfl
@[simp] theorem toldFault_target (s t : State) : (toldFault s t).target = s.target := rfl
@[simp] theorem toldFault_power (s t : State) : (toldFault s t).power = s.power := rfl
@[simp] theorem toldFault_sec (s t : State) : (toldFault s t).sec = s.sec := rfl
@[simp] theorem toldFault_boot (s t : State) : (toldFault s t).boot = s.boot := rfl

@[simp] theorem State.raise_pending (s : State) (n : EventName) (a : List Int) (v : Nat) : (s.raise n a v).pending = s.pending :=
  (raise_told s n a v).keeps State.pending (told_pending _ _)
@[simp] theorem State.sendKdp_pending (m : Bool) (dst op seq ses fl er : Nat) (p : Bytes) (s : State) :
    (sendKdp m dst op seq ses fl er p s).pending = s.pending :=
  (sendKdp_told m dst op seq ses fl er p s).keeps State.pending (told_pending _ _)
@[simp] theorem State.raise_freeCount (s : State) (n : EventName) (a : List Int) (v : Nat) : (s.raise n a v).freeCount = s.freeCount :=
  (raise_told s n a v).keeps State.freeCount (told_freeCount _ _)
@[simp] theorem State.sendKdp_freeCount (m : Bool) (dst op seq ses fl er : Nat) (p : Bytes) (s : State) :
    (sendKdp m dst op seq ses fl er p s).freeCount = s.freeCount :=
  (sendKdp_told m dst op seq ses fl er p s).keeps State.freeCount (told_freeCount _ _)
@[simp] theorem State.raise_now (s : State) (n : EventName) (a : List Int) (v : Nat) : (s.raise n a v).now = s.now :=
  (raise_told s n a v).keeps State.now (told_now _ _)
@[simp] theorem State.sendKdp_now (m : Bool) (dst op seq ses fl er : Nat) (p : Bytes) (s : State) :
    (sendKdp m dst op seq ses fl er p s).now = s.now :=
  (sendKdp_told m dst op seq ses fl er p s).keeps State.now (told_now _ _)
@[simp] theorem State.raise_records (s : State) (n : EventName) (a : List Int) (v : Nat) : (s.raise n a v).records = s.records :=
  (raise_told s n a v).keeps State.records (told_records _ _)
@[simp] theorem State.raise_grayDt (s : State) (n : EventName) (a : List Int) (v : Nat) : (s.raise n a v).grayDt = s.grayDt :=
  (raise_told s n a v).keeps State.grayDt (told_grayDt _ _)
@[simp] theorem State.raise_strays (s : State) (n : EventName) (a : List Int) (v : Nat) : (s.raise n a v).strays = s.strays :=
  (raise_told s n a v).keeps State.strays (told_strays _ _)
@[simp] theorem State.raise_class0In (s : State) (n : EventName) (a : List Int) (v : Nat) : (s.raise n a v).class0In = s.class0In :=
  (raise_told s n a v).keeps State.class0In (told_class0In _ _)
@[simp] theorem State.raise_loops (s : State) (n : EventName) (a : List Int) (v : Nat) : (s.raise n a v).loops = s.loops :=
  (raise_told s n a v).keeps State.loops (told_loops _ _)
@[simp] theorem State.sendKdp_records (m : Bool) (dst op seq ses fl er : Nat) (p : Bytes) (s : State) :
    (sendKdp m dst op seq ses fl er p s).records = s.records :=
  (sendKdp_told m dst op seq ses fl er p s).keeps State.records (told_records _ _)
@[simp] theorem State.sendKdp_grayDt (m : Bool) (dst op seq ses fl er : Nat) (p : Bytes) (s : State) :
    (sendKdp m dst op seq ses fl er p s).grayDt = s.grayDt :=
  (sendKdp_told m dst op seq ses fl er p s).keeps State.grayDt (told_grayDt _ _)
@[simp] theorem State.sendKdp_strays (m : Bool) (dst op seq ses fl er : Nat) (p : Bytes) (s : State) :
    (sendKdp m dst op seq ses fl er p s).strays = s.strays :=
  (sendKdp_told m dst op seq ses fl er p s).keeps State.strays (told_strays _ _)
@[simp] theorem State.sendKdp_class0In (m : Bool) (dst op seq ses fl er : Nat) (p : Bytes) (s : State) :
    (sendKdp m dst op seq ses fl er p s).class0In = s.class0In :=
  (sendKdp_told m dst op seq ses fl er p s).keeps State.class0In (told_class0In _ _)
@[simp] theorem State.sendKdp_loops (m : Bool) (dst op seq ses fl er : Nat) (p : Bytes) (s : State) :
    (sendKdp m dst op seq ses fl er p s).loops = s.loops :=
  (sendKdp_told m dst op seq ses fl er p s).keeps State.loops (told_loops _ _)
@[simp] theorem State.raise_groupsWaiting (s : State) (n : EventName) (a : List Int) (v : Nat) : (s.raise n a v).groupsWaiting = s.groupsWaiting :=
  (raise_told s n a v).keeps State.groupsWaiting (told_groupsWaiting _ _)
@[simp] theorem State.sendKdp_groupsWaiting (m : Bool) (dst op seq ses fl er : Nat) (p : Bytes) (s : State) :
    (sendKdp m dst op seq ses fl er p s).groupsWaiting = s.groupsWaiting :=
  (sendKdp_told m dst op seq ses fl er p s).keeps State.groupsWaiting (told_groupsWaiting _ _)
@[simp] theorem State.raise_commitNext (s : State) (n : EventName) (a : List Int) (v : Nat) : (s.raise n a v).commitNext = s.commitNext :=
  (raise_told s n a v).keeps State.commitNext (told_commitNext _ _)
@[simp] theorem State.sendKdp_commitNext (m : Bool) (dst op seq ses fl er : Nat) (p : Bytes) (s : State) :
    (sendKdp m dst op seq ses fl er p s).commitNext = s.commitNext :=
  (sendKdp_told m dst op seq ses fl er p s).keeps State.commitNext (told_commitNext _ _)
@[simp] theorem State.raise_reports (s : State) (n : EventName) (a : List Int) (v : Nat) : (s.raise n a v).reports = s.reports :=
  (raise_told s n a v).keeps State.reports (told_reports _ _)
@[simp] theorem State.sendKdp_reports (m : Bool) (dst op seq ses fl er : Nat) (p : Bytes) (s : State) :
    (sendKdp m dst op seq ses fl er p s).reports = s.reports :=
  (sendKdp_told m dst op seq ses fl er p s).keeps State.reports (told_reports _ _)
@[simp] theorem State.raise_queues (s : State) (n : EventName) (a : List Int) (v : Nat) : (s.raise n a v).queues = s.queues :=
  (raise_told s n a v).keeps State.queues (told_queues _ _)
@[simp] theorem State.sendKdp_queues (m : Bool) (dst op seq ses fl er : Nat) (p : Bytes) (s : State) :
    (sendKdp m dst op seq ses fl er p s).queues = s.queues :=
  (sendKdp_told m dst op seq ses fl er p s).keeps State.queues (told_queues _ _)
@[simp] theorem State.raise_lanes (s : State) (n : EventName) (a : List Int) (v : Nat) : (s.raise n a v).lanes = s.lanes :=
  (raise_told s n a v).keeps State.lanes (told_lanes _ _)
@[simp] theorem State.sendKdp_lanes (m : Bool) (dst op seq ses fl er : Nat) (p : Bytes) (s : State) :
    (sendKdp m dst op seq ses fl er p s).lanes = s.lanes :=
  (sendKdp_told m dst op seq ses fl er p s).keeps State.lanes (told_lanes _ _)
@[simp] theorem State.raise_groups (s : State) (n : EventName) (a : List Int) (v : Nat) : (s.raise n a v).groups = s.groups :=
  (raise_told s n a v).keeps State.groups (told_groups _ _)
@[simp] theorem State.sendKdp_groups (m : Bool) (dst op seq ses fl er : Nat) (p : Bytes) (s : State) :
    (sendKdp m dst op seq ses fl er p s).groups = s.groups :=
  (sendKdp_told m dst op seq ses fl er p s).keeps State.groups (told_groups _ _)
@[simp] theorem State.raise_ingest (s : State) (n : EventName) (a : List Int) (v : Nat) : (s.raise n a v).ingest = s.ingest :=
  (raise_told s n a v).keeps State.ingest (told_ingest _ _)
@[simp] theorem State.sendKdp_ingest (m : Bool) (dst op seq ses fl er : Nat) (p : Bytes) (s : State) :
    (sendKdp m dst op seq ses fl er p s).ingest = s.ingest :=
  (sendKdp_told m dst op seq ses fl er p s).keeps State.ingest (told_ingest _ _)
@[simp] theorem State.raise_ports (s : State) (n : EventName) (a : List Int) (v : Nat) : (s.raise n a v).ports = s.ports :=
  (raise_told s n a v).keeps State.ports (told_ports _ _)
@[simp] theorem State.sendKdp_ports (m : Bool) (dst op seq ses fl er : Nat) (p : Bytes) (s : State) :
    (sendKdp m dst op seq ses fl er p s).ports = s.ports :=
  (sendKdp_told m dst op seq ses fl er p s).keeps State.ports (told_ports _ _)
@[simp] theorem State.raise_banks (s : State) (n : EventName) (a : List Int) (v : Nat) : (s.raise n a v).banks = s.banks :=
  (raise_told s n a v).keeps State.banks (told_banks _ _)
@[simp] theorem State.sendKdp_banks (m : Bool) (dst op seq ses fl er : Nat) (p : Bytes) (s : State) :
    (sendKdp m dst op seq ses fl er p s).banks = s.banks :=
  (sendKdp_told m dst op seq ses fl er p s).keeps State.banks (told_banks _ _)
@[simp] theorem State.raise_slices (s : State) (n : EventName) (a : List Int) (v : Nat) : (s.raise n a v).slices = s.slices :=
  (raise_told s n a v).keeps State.slices (told_slices _ _)
@[simp] theorem State.sendKdp_slices (m : Bool) (dst op seq ses fl er : Nat) (p : Bytes) (s : State) :
    (sendKdp m dst op seq ses fl er p s).slices = s.slices :=
  (sendKdp_told m dst op seq ses fl er p s).keeps State.slices (told_slices _ _)
@[simp] theorem State.raise_crossbar (s : State) (n : EventName) (a : List Int) (v : Nat) : (s.raise n a v).crossbar = s.crossbar :=
  (raise_told s n a v).keeps State.crossbar (told_crossbar _ _)
@[simp] theorem State.sendKdp_crossbar (m : Bool) (dst op seq ses fl er : Nat) (p : Bytes) (s : State) :
    (sendKdp m dst op seq ses fl er p s).crossbar = s.crossbar :=
  (sendKdp_told m dst op seq ses fl er p s).keeps State.crossbar (told_crossbar _ _)
@[simp] theorem State.raise_coefRows (s : State) (n : EventName) (a : List Int) (v : Nat) : (s.raise n a v).coefRows = s.coefRows :=
  (raise_told s n a v).keeps State.coefRows (told_coefRows _ _)
@[simp] theorem State.sendKdp_coefRows (m : Bool) (dst op seq ses fl er : Nat) (p : Bytes) (s : State) :
    (sendKdp m dst op seq ses fl er p s).coefRows = s.coefRows :=
  (sendKdp_told m dst op seq ses fl er p s).keeps State.coefRows (told_coefRows _ _)
@[simp] theorem State.raise_streams (s : State) (n : EventName) (a : List Int) (v : Nat) : (s.raise n a v).streams = s.streams :=
  (raise_told s n a v).keeps State.streams (told_streams _ _)
@[simp] theorem State.sendKdp_streams (m : Bool) (dst op seq ses fl er : Nat) (p : Bytes) (s : State) :
    (sendKdp m dst op seq ses fl er p s).streams = s.streams :=
  (sendKdp_told m dst op seq ses fl er p s).keeps State.streams (told_streams _ _)
@[simp] theorem State.raise_curves (s : State) (n : EventName) (a : List Int) (v : Nat) : (s.raise n a v).curves = s.curves :=
  (raise_told s n a v).keeps State.curves (told_curves _ _)
@[simp] theorem State.sendKdp_curves (m : Bool) (dst op seq ses fl er : Nat) (p : Bytes) (s : State) :
    (sendKdp m dst op seq ses fl er p s).curves = s.curves :=
  (sendKdp_told m dst op seq ses fl er p s).keeps State.curves (told_curves _ _)
@[simp] theorem State.raise_calibs (s : State) (n : EventName) (a : List Int) (v : Nat) : (s.raise n a v).calibs = s.calibs :=
  (raise_told s n a v).keeps State.calibs (told_calibs _ _)
@[simp] theorem State.sendKdp_calibs (m : Bool) (dst op seq ses fl er : Nat) (p : Bytes) (s : State) :
    (sendKdp m dst op seq ses fl er p s).calibs = s.calibs :=
  (sendKdp_told m dst op seq ses fl er p s).keeps State.calibs (told_calibs _ _)
@[simp] theorem State.raise_warmup (s : State) (n : EventName) (a : List Int) (v : Nat) : (s.raise n a v).warmup = s.warmup :=
  (raise_told s n a v).keeps State.warmup (told_warmup _ _)
@[simp] theorem State.sendKdp_warmup (m : Bool) (dst op seq ses fl er : Nat) (p : Bytes) (s : State) :
    (sendKdp m dst op seq ses fl er p s).warmup = s.warmup :=
  (sendKdp_told m dst op seq ses fl er p s).keeps State.warmup (told_warmup _ _)
@[simp] theorem State.raise_posChans (s : State) (n : EventName) (a : List Int) (v : Nat) : (s.raise n a v).posChans = s.posChans :=
  (raise_told s n a v).keeps State.posChans (told_posChans _ _)
@[simp] theorem State.sendKdp_posChans (m : Bool) (dst op seq ses fl er : Nat) (p : Bytes) (s : State) :
    (sendKdp m dst op seq ses fl er p s).posChans = s.posChans :=
  (sendKdp_told m dst op seq ses fl er p s).keeps State.posChans (told_posChans _ _)
@[simp] theorem State.raise_compares (s : State) (n : EventName) (a : List Int) (v : Nat) : (s.raise n a v).compares = s.compares :=
  (raise_told s n a v).keeps State.compares (told_compares _ _)
@[simp] theorem State.sendKdp_compares (m : Bool) (dst op seq ses fl er : Nat) (p : Bytes) (s : State) :
    (sendKdp m dst op seq ses fl er p s).compares = s.compares :=
  (sendKdp_told m dst op seq ses fl er p s).keeps State.compares (told_compares _ _)
@[simp] theorem State.raise_gens (s : State) (n : EventName) (a : List Int) (v : Nat) : (s.raise n a v).gens = s.gens :=
  (raise_told s n a v).keeps State.gens (told_gens _ _)
@[simp] theorem State.sendKdp_gens (m : Bool) (dst op seq ses fl er : Nat) (p : Bytes) (s : State) :
    (sendKdp m dst op seq ses fl er p s).gens = s.gens :=
  (sendKdp_told m dst op seq ses fl er p s).keeps State.gens (told_gens _ _)
@[simp] theorem State.raise_tios (s : State) (n : EventName) (a : List Int) (v : Nat) : (s.raise n a v).tios = s.tios :=
  (raise_told s n a v).keeps State.tios (told_tios _ _)
@[simp] theorem State.sendKdp_tios (m : Bool) (dst op seq ses fl er : Nat) (p : Bytes) (s : State) :
    (sendKdp m dst op seq ses fl er p s).tios = s.tios :=
  (sendKdp_told m dst op seq ses fl er p s).keeps State.tios (told_tios _ _)
@[simp] theorem State.raise_motions (s : State) (n : EventName) (a : List Int) (v : Nat) : (s.raise n a v).motions = s.motions :=
  (raise_told s n a v).keeps State.motions (told_motions _ _)
@[simp] theorem State.sendKdp_motions (m : Bool) (dst op seq ses fl er : Nat) (p : Bytes) (s : State) :
    (sendKdp m dst op seq ses fl er p s).motions = s.motions :=
  (sendKdp_told m dst op seq ses fl er p s).keeps State.motions (told_motions _ _)
@[simp] theorem State.raise_transports (s : State) (n : EventName) (a : List Int) (v : Nat) : (s.raise n a v).transports = s.transports :=
  (raise_told s n a v).keeps State.transports (told_transports _ _)
@[simp] theorem State.sendKdp_transports (m : Bool) (dst op seq ses fl er : Nat) (p : Bytes) (s : State) :
    (sendKdp m dst op seq ses fl er p s).transports = s.transports :=
  (sendKdp_told m dst op seq ses fl er p s).keeps State.transports (told_transports _ _)
@[simp] theorem State.raise_seamsOf (s : State) (n : EventName) (a : List Int) (v : Nat) : (s.raise n a v).seamsOf = s.seamsOf :=
  (raise_told s n a v).keeps State.seamsOf (told_seamsOf _ _)
@[simp] theorem State.sendKdp_seamsOf (m : Bool) (dst op seq ses fl er : Nat) (p : Bytes) (s : State) :
    (sendKdp m dst op seq ses fl er p s).seamsOf = s.seamsOf :=
  (sendKdp_told m dst op seq ses fl er p s).keeps State.seamsOf (told_seamsOf _ _)
@[simp] theorem State.raise_lamps (s : State) (n : EventName) (a : List Int) (v : Nat) : (s.raise n a v).lamps = s.lamps :=
  (raise_told s n a v).keeps State.lamps (told_lamps _ _)
@[simp] theorem State.sendKdp_lamps (m : Bool) (dst op seq ses fl er : Nat) (p : Bytes) (s : State) :
    (sendKdp m dst op seq ses fl er p s).lamps = s.lamps :=
  (sendKdp_told m dst op seq ses fl er p s).keeps State.lamps (told_lamps _ _)
@[simp] theorem State.raise_rings (s : State) (n : EventName) (a : List Int) (v : Nat) : (s.raise n a v).rings = s.rings :=
  (raise_told s n a v).keeps State.rings (told_rings _ _)
@[simp] theorem State.sendKdp_rings (m : Bool) (dst op seq ses fl er : Nat) (p : Bytes) (s : State) :
    (sendKdp m dst op seq ses fl er p s).rings = s.rings :=
  (sendKdp_told m dst op seq ses fl er p s).keeps State.rings (told_rings _ _)
@[simp] theorem State.raise_fe (s : State) (n : EventName) (a : List Int) (v : Nat) : (s.raise n a v).fe = s.fe :=
  (raise_told s n a v).keeps State.fe (told_fe _ _)
@[simp] theorem State.sendKdp_fe (m : Bool) (dst op seq ses fl er : Nat) (p : Bytes) (s : State) :
    (sendKdp m dst op seq ses fl er p s).fe = s.fe :=
  (sendKdp_told m dst op seq ses fl er p s).keeps State.fe (told_fe _ _)
@[simp] theorem State.raise_mode (s : State) (n : EventName) (a : List Int) (v : Nat) : (s.raise n a v).mode = s.mode :=
  (raise_told s n a v).keeps State.mode (told_mode _ _)
@[simp] theorem State.sendKdp_mode (m : Bool) (dst op seq ses fl er : Nat) (p : Bytes) (s : State) :
    (sendKdp m dst op seq ses fl er p s).mode = s.mode :=
  (sendKdp_told m dst op seq ses fl er p s).keeps State.mode (told_mode _ _)
@[simp] theorem State.raise_target (s : State) (n : EventName) (a : List Int) (v : Nat) : (s.raise n a v).target = s.target :=
  (raise_told s n a v).keeps State.target (told_target _ _)
@[simp] theorem State.sendKdp_target (m : Bool) (dst op seq ses fl er : Nat) (p : Bytes) (s : State) :
    (sendKdp m dst op seq ses fl er p s).target = s.target :=
  (sendKdp_told m dst op seq ses fl er p s).keeps State.target (told_target _ _)
@[simp] theorem State.raise_power (s : State) (n : EventName) (a : List Int) (v : Nat) : (s.raise n a v).power = s.power :=
  (raise_told s n a v).keeps State.power (told_power _ _)
@[simp] theorem State.sendKdp_power (m : Bool) (dst op seq ses fl er : Nat) (p : Bytes) (s : State) :
    (sendKdp m dst op seq ses fl er p s).power = s.power :=
  (sendKdp_told m dst op seq ses fl er p s).keeps State.power (told_power _ _)
@[simp] theorem State.raise_dep (s : State) (n : EventName) (a : List Int) (v : Nat) : (s.raise n a v).dep = s.dep :=
  (raise_told s n a v).keeps State.dep (told_dep _ _)
@[simp] theorem State.sendKdp_dep (m : Bool) (dst op seq ses fl er : Nat) (p : Bytes) (s : State) :
    (sendKdp m dst op seq ses fl er p s).dep = s.dep :=
  (sendKdp_told m dst op seq ses fl er p s).keeps State.dep (told_dep _ _)
@[simp] theorem State.raise_sec (s : State) (n : EventName) (a : List Int) (v : Nat) : (s.raise n a v).sec = s.sec :=
  (raise_told s n a v).keeps State.sec (told_sec _ _)
@[simp] theorem State.sendKdp_sec (m : Bool) (dst op seq ses fl er : Nat) (p : Bytes) (s : State) :
    (sendKdp m dst op seq ses fl er p s).sec = s.sec :=
  (sendKdp_told m dst op seq ses fl er p s).keeps State.sec (told_sec _ _)
@[simp] theorem State.raise_boot (s : State) (n : EventName) (a : List Int) (v : Nat) : (s.raise n a v).boot = s.boot :=
  (raise_told s n a v).keeps State.boot (told_boot _ _)
@[simp] theorem State.sendKdp_boot (m : Bool) (dst op seq ses fl er : Nat) (p : Bytes) (s : State) :
    (sendKdp m dst op seq ses fl er p s).boot = s.boot :=
  (sendKdp_told m dst op seq ses fl er p s).keeps State.boot (told_boot _ _)
@[simp] theorem State.raiseFault_pending (s : State) (n : EventName) (a : List Int) (k v d p i : Nat) :
    (s.raiseFault n a k v d p i).pending = s.pending :=
  (raiseFault_told s n a k v d p i).keeps State.pending (toldFault_pending _ _)
@[simp] theorem State.report_pending (s : State) (k v d p i : Nat) : (s.report k v d p i).pending = s.pending := (report_told s k v d p i).keeps State.pending (toldFault_pending _ _)
@[simp] theorem State.raiseFault_freeCount (s : State) (n : EventName) (a : List Int) (k v d p i : Nat) :
    (s.raiseFault n a k v d p i).freeCount = s.freeCount :=
  (raiseFault_told s n a k v d p i).keeps State.freeCount (toldFault_freeCount _ _)
@[simp] theorem State.report_freeCount (s : State) (k v d p i : Nat) : (s.report k v d p i).freeCount = s.freeCount := (report_told s k v d p i).keeps State.freeCount (toldFault_freeCount _ _)
@[simp] theorem State.raiseFault_now (s : State) (n : EventName) (a : List Int) (k v d p i : Nat) :
    (s.raiseFault n a k v d p i).now = s.now :=
  (raiseFault_told s n a k v d p i).keeps State.now (toldFault_now _ _)
@[simp] theorem State.report_now (s : State) (k v d p i : Nat) : (s.report k v d p i).now = s.now := (report_told s k v d p i).keeps State.now (toldFault_now _ _)
@[simp] theorem State.raiseFault_records (s : State) (n : EventName) (a : List Int) (k v d p i : Nat) :
    (s.raiseFault n a k v d p i).records = s.records :=
  (raiseFault_told s n a k v d p i).keeps State.records (toldFault_records _ _)
@[simp] theorem State.raiseFault_grayDt (s : State) (n : EventName) (a : List Int) (k v d p i : Nat) :
    (s.raiseFault n a k v d p i).grayDt = s.grayDt :=
  (raiseFault_told s n a k v d p i).keeps State.grayDt (toldFault_grayDt _ _)
@[simp] theorem State.raiseFault_strays (s : State) (n : EventName) (a : List Int) (k v d p i : Nat) :
    (s.raiseFault n a k v d p i).strays = s.strays :=
  (raiseFault_told s n a k v d p i).keeps State.strays (toldFault_strays _ _)
@[simp] theorem State.raiseFault_class0In (s : State) (n : EventName) (a : List Int) (k v d p i : Nat) :
    (s.raiseFault n a k v d p i).class0In = s.class0In :=
  (raiseFault_told s n a k v d p i).keeps State.class0In (toldFault_class0In _ _)
@[simp] theorem State.raiseFault_loops (s : State) (n : EventName) (a : List Int) (k v d p i : Nat) :
    (s.raiseFault n a k v d p i).loops = s.loops :=
  (raiseFault_told s n a k v d p i).keeps State.loops (toldFault_loops _ _)
@[simp] theorem State.report_records (s : State) (k v d p i : Nat) : (s.report k v d p i).records = s.records := (report_told s k v d p i).keeps State.records (toldFault_records _ _)
@[simp] theorem State.report_grayDt (s : State) (k v d p i : Nat) : (s.report k v d p i).grayDt = s.grayDt := (report_told s k v d p i).keeps State.grayDt (toldFault_grayDt _ _)
@[simp] theorem State.report_strays (s : State) (k v d p i : Nat) : (s.report k v d p i).strays = s.strays := (report_told s k v d p i).keeps State.strays (toldFault_strays _ _)
@[simp] theorem State.report_class0In (s : State) (k v d p i : Nat) : (s.report k v d p i).class0In = s.class0In := (report_told s k v d p i).keeps State.class0In (toldFault_class0In _ _)
@[simp] theorem State.report_loops (s : State) (k v d p i : Nat) : (s.report k v d p i).loops = s.loops := (report_told s k v d p i).keeps State.loops (toldFault_loops _ _)
@[simp] theorem State.raiseFault_groupsWaiting (s : State) (n : EventName) (a : List Int) (k v d p i : Nat) :
    (s.raiseFault n a k v d p i).groupsWaiting = s.groupsWaiting :=
  (raiseFault_told s n a k v d p i).keeps State.groupsWaiting (toldFault_groupsWaiting _ _)
@[simp] theorem State.report_groupsWaiting (s : State) (k v d p i : Nat) : (s.report k v d p i).groupsWaiting = s.groupsWaiting := (report_told s k v d p i).keeps State.groupsWaiting (toldFault_groupsWaiting _ _)
@[simp] theorem State.raiseFault_commitNext (s : State) (n : EventName) (a : List Int) (k v d p i : Nat) :
    (s.raiseFault n a k v d p i).commitNext = s.commitNext :=
  (raiseFault_told s n a k v d p i).keeps State.commitNext (toldFault_commitNext _ _)
@[simp] theorem State.report_commitNext (s : State) (k v d p i : Nat) : (s.report k v d p i).commitNext = s.commitNext := (report_told s k v d p i).keeps State.commitNext (toldFault_commitNext _ _)
@[simp] theorem State.raiseFault_queues (s : State) (n : EventName) (a : List Int) (k v d p i : Nat) :
    (s.raiseFault n a k v d p i).queues = s.queues :=
  (raiseFault_told s n a k v d p i).keeps State.queues (toldFault_queues _ _)
@[simp] theorem State.report_queues (s : State) (k v d p i : Nat) : (s.report k v d p i).queues = s.queues := (report_told s k v d p i).keeps State.queues (toldFault_queues _ _)
@[simp] theorem State.raiseFault_lanes (s : State) (n : EventName) (a : List Int) (k v d p i : Nat) :
    (s.raiseFault n a k v d p i).lanes = s.lanes :=
  (raiseFault_told s n a k v d p i).keeps State.lanes (toldFault_lanes _ _)
@[simp] theorem State.report_lanes (s : State) (k v d p i : Nat) : (s.report k v d p i).lanes = s.lanes := (report_told s k v d p i).keeps State.lanes (toldFault_lanes _ _)
@[simp] theorem State.raiseFault_groups (s : State) (n : EventName) (a : List Int) (k v d p i : Nat) :
    (s.raiseFault n a k v d p i).groups = s.groups :=
  (raiseFault_told s n a k v d p i).keeps State.groups (toldFault_groups _ _)
@[simp] theorem State.report_groups (s : State) (k v d p i : Nat) : (s.report k v d p i).groups = s.groups := (report_told s k v d p i).keeps State.groups (toldFault_groups _ _)
@[simp] theorem State.raiseFault_ingest (s : State) (n : EventName) (a : List Int) (k v d p i : Nat) :
    (s.raiseFault n a k v d p i).ingest = s.ingest :=
  (raiseFault_told s n a k v d p i).keeps State.ingest (toldFault_ingest _ _)
@[simp] theorem State.report_ingest (s : State) (k v d p i : Nat) : (s.report k v d p i).ingest = s.ingest := (report_told s k v d p i).keeps State.ingest (toldFault_ingest _ _)
@[simp] theorem State.raiseFault_ports (s : State) (n : EventName) (a : List Int) (k v d p i : Nat) :
    (s.raiseFault n a k v d p i).ports = s.ports :=
  (raiseFault_told s n a k v d p i).keeps State.ports (toldFault_ports _ _)
@[simp] theorem State.report_ports (s : State) (k v d p i : Nat) : (s.report k v d p i).ports = s.ports := (report_told s k v d p i).keeps State.ports (toldFault_ports _ _)
@[simp] theorem State.raiseFault_banks (s : State) (n : EventName) (a : List Int) (k v d p i : Nat) :
    (s.raiseFault n a k v d p i).banks = s.banks :=
  (raiseFault_told s n a k v d p i).keeps State.banks (toldFault_banks _ _)
@[simp] theorem State.report_banks (s : State) (k v d p i : Nat) : (s.report k v d p i).banks = s.banks := (report_told s k v d p i).keeps State.banks (toldFault_banks _ _)
@[simp] theorem State.raiseFault_slices (s : State) (n : EventName) (a : List Int) (k v d p i : Nat) :
    (s.raiseFault n a k v d p i).slices = s.slices :=
  (raiseFault_told s n a k v d p i).keeps State.slices (toldFault_slices _ _)
@[simp] theorem State.report_slices (s : State) (k v d p i : Nat) : (s.report k v d p i).slices = s.slices := (report_told s k v d p i).keeps State.slices (toldFault_slices _ _)
@[simp] theorem State.raiseFault_crossbar (s : State) (n : EventName) (a : List Int) (k v d p i : Nat) :
    (s.raiseFault n a k v d p i).crossbar = s.crossbar :=
  (raiseFault_told s n a k v d p i).keeps State.crossbar (toldFault_crossbar _ _)
@[simp] theorem State.report_crossbar (s : State) (k v d p i : Nat) : (s.report k v d p i).crossbar = s.crossbar := (report_told s k v d p i).keeps State.crossbar (toldFault_crossbar _ _)
@[simp] theorem State.raiseFault_coefRows (s : State) (n : EventName) (a : List Int) (k v d p i : Nat) :
    (s.raiseFault n a k v d p i).coefRows = s.coefRows :=
  (raiseFault_told s n a k v d p i).keeps State.coefRows (toldFault_coefRows _ _)
@[simp] theorem State.report_coefRows (s : State) (k v d p i : Nat) : (s.report k v d p i).coefRows = s.coefRows := (report_told s k v d p i).keeps State.coefRows (toldFault_coefRows _ _)
@[simp] theorem State.raiseFault_streams (s : State) (n : EventName) (a : List Int) (k v d p i : Nat) :
    (s.raiseFault n a k v d p i).streams = s.streams :=
  (raiseFault_told s n a k v d p i).keeps State.streams (toldFault_streams _ _)
@[simp] theorem State.report_streams (s : State) (k v d p i : Nat) : (s.report k v d p i).streams = s.streams := (report_told s k v d p i).keeps State.streams (toldFault_streams _ _)
@[simp] theorem State.raiseFault_curves (s : State) (n : EventName) (a : List Int) (k v d p i : Nat) :
    (s.raiseFault n a k v d p i).curves = s.curves :=
  (raiseFault_told s n a k v d p i).keeps State.curves (toldFault_curves _ _)
@[simp] theorem State.report_curves (s : State) (k v d p i : Nat) : (s.report k v d p i).curves = s.curves := (report_told s k v d p i).keeps State.curves (toldFault_curves _ _)
@[simp] theorem State.raiseFault_calibs (s : State) (n : EventName) (a : List Int) (k v d p i : Nat) :
    (s.raiseFault n a k v d p i).calibs = s.calibs :=
  (raiseFault_told s n a k v d p i).keeps State.calibs (toldFault_calibs _ _)
@[simp] theorem State.report_calibs (s : State) (k v d p i : Nat) : (s.report k v d p i).calibs = s.calibs := (report_told s k v d p i).keeps State.calibs (toldFault_calibs _ _)
@[simp] theorem State.raiseFault_warmup (s : State) (n : EventName) (a : List Int) (k v d p i : Nat) :
    (s.raiseFault n a k v d p i).warmup = s.warmup :=
  (raiseFault_told s n a k v d p i).keeps State.warmup (toldFault_warmup _ _)
@[simp] theorem State.report_warmup (s : State) (k v d p i : Nat) : (s.report k v d p i).warmup = s.warmup := (report_told s k v d p i).keeps State.warmup (toldFault_warmup _ _)
@[simp] theorem State.raiseFault_posChans (s : State) (n : EventName) (a : List Int) (k v d p i : Nat) :
    (s.raiseFault n a k v d p i).posChans = s.posChans :=
  (raiseFault_told s n a k v d p i).keeps State.posChans (toldFault_posChans _ _)
@[simp] theorem State.report_posChans (s : State) (k v d p i : Nat) : (s.report k v d p i).posChans = s.posChans := (report_told s k v d p i).keeps State.posChans (toldFault_posChans _ _)
@[simp] theorem State.raiseFault_compares (s : State) (n : EventName) (a : List Int) (k v d p i : Nat) :
    (s.raiseFault n a k v d p i).compares = s.compares :=
  (raiseFault_told s n a k v d p i).keeps State.compares (toldFault_compares _ _)
@[simp] theorem State.report_compares (s : State) (k v d p i : Nat) : (s.report k v d p i).compares = s.compares := (report_told s k v d p i).keeps State.compares (toldFault_compares _ _)
@[simp] theorem State.raiseFault_gens (s : State) (n : EventName) (a : List Int) (k v d p i : Nat) :
    (s.raiseFault n a k v d p i).gens = s.gens :=
  (raiseFault_told s n a k v d p i).keeps State.gens (toldFault_gens _ _)
@[simp] theorem State.report_gens (s : State) (k v d p i : Nat) : (s.report k v d p i).gens = s.gens := (report_told s k v d p i).keeps State.gens (toldFault_gens _ _)
@[simp] theorem State.raiseFault_tios (s : State) (n : EventName) (a : List Int) (k v d p i : Nat) :
    (s.raiseFault n a k v d p i).tios = s.tios :=
  (raiseFault_told s n a k v d p i).keeps State.tios (toldFault_tios _ _)
@[simp] theorem State.report_tios (s : State) (k v d p i : Nat) : (s.report k v d p i).tios = s.tios := (report_told s k v d p i).keeps State.tios (toldFault_tios _ _)
@[simp] theorem State.raiseFault_motions (s : State) (n : EventName) (a : List Int) (k v d p i : Nat) :
    (s.raiseFault n a k v d p i).motions = s.motions :=
  (raiseFault_told s n a k v d p i).keeps State.motions (toldFault_motions _ _)
@[simp] theorem State.report_motions (s : State) (k v d p i : Nat) : (s.report k v d p i).motions = s.motions := (report_told s k v d p i).keeps State.motions (toldFault_motions _ _)
@[simp] theorem State.raiseFault_transports (s : State) (n : EventName) (a : List Int) (k v d p i : Nat) :
    (s.raiseFault n a k v d p i).transports = s.transports :=
  (raiseFault_told s n a k v d p i).keeps State.transports (toldFault_transports _ _)
@[simp] theorem State.report_transports (s : State) (k v d p i : Nat) : (s.report k v d p i).transports = s.transports := (report_told s k v d p i).keeps State.transports (toldFault_transports _ _)
@[simp] theorem State.raiseFault_seamsOf (s : State) (n : EventName) (a : List Int) (k v d p i : Nat) :
    (s.raiseFault n a k v d p i).seamsOf = s.seamsOf :=
  (raiseFault_told s n a k v d p i).keeps State.seamsOf (toldFault_seamsOf _ _)
@[simp] theorem State.report_seamsOf (s : State) (k v d p i : Nat) : (s.report k v d p i).seamsOf = s.seamsOf := (report_told s k v d p i).keeps State.seamsOf (toldFault_seamsOf _ _)
@[simp] theorem State.raiseFault_lamps (s : State) (n : EventName) (a : List Int) (k v d p i : Nat) :
    (s.raiseFault n a k v d p i).lamps = s.lamps :=
  (raiseFault_told s n a k v d p i).keeps State.lamps (toldFault_lamps _ _)
@[simp] theorem State.report_lamps (s : State) (k v d p i : Nat) : (s.report k v d p i).lamps = s.lamps := (report_told s k v d p i).keeps State.lamps (toldFault_lamps _ _)
@[simp] theorem State.raiseFault_rings (s : State) (n : EventName) (a : List Int) (k v d p i : Nat) :
    (s.raiseFault n a k v d p i).rings = s.rings :=
  (raiseFault_told s n a k v d p i).keeps State.rings (toldFault_rings _ _)
@[simp] theorem State.report_rings (s : State) (k v d p i : Nat) : (s.report k v d p i).rings = s.rings := (report_told s k v d p i).keeps State.rings (toldFault_rings _ _)
@[simp] theorem State.raiseFault_fe (s : State) (n : EventName) (a : List Int) (k v d p i : Nat) :
    (s.raiseFault n a k v d p i).fe = s.fe :=
  (raiseFault_told s n a k v d p i).keeps State.fe (toldFault_fe _ _)
@[simp] theorem State.report_fe (s : State) (k v d p i : Nat) : (s.report k v d p i).fe = s.fe := (report_told s k v d p i).keeps State.fe (toldFault_fe _ _)
@[simp] theorem State.raiseFault_mode (s : State) (n : EventName) (a : List Int) (k v d p i : Nat) :
    (s.raiseFault n a k v d p i).mode = s.mode :=
  (raiseFault_told s n a k v d p i).keeps State.mode (toldFault_mode _ _)
@[simp] theorem State.report_mode (s : State) (k v d p i : Nat) : (s.report k v d p i).mode = s.mode := (report_told s k v d p i).keeps State.mode (toldFault_mode _ _)
@[simp] theorem State.raiseFault_target (s : State) (n : EventName) (a : List Int) (k v d p i : Nat) :
    (s.raiseFault n a k v d p i).target = s.target :=
  (raiseFault_told s n a k v d p i).keeps State.target (toldFault_target _ _)
@[simp] theorem State.report_target (s : State) (k v d p i : Nat) : (s.report k v d p i).target = s.target := (report_told s k v d p i).keeps State.target (toldFault_target _ _)
@[simp] theorem State.raiseFault_power (s : State) (n : EventName) (a : List Int) (k v d p i : Nat) :
    (s.raiseFault n a k v d p i).power = s.power :=
  (raiseFault_told s n a k v d p i).keeps State.power (toldFault_power _ _)
@[simp] theorem State.report_power (s : State) (k v d p i : Nat) : (s.report k v d p i).power = s.power := (report_told s k v d p i).keeps State.power (toldFault_power _ _)
@[simp] theorem State.raiseFault_sec (s : State) (n : EventName) (a : List Int) (k v d p i : Nat) :
    (s.raiseFault n a k v d p i).sec = s.sec :=
  (raiseFault_told s n a k v d p i).keeps State.sec (toldFault_sec _ _)
@[simp] theorem State.report_sec (s : State) (k v d p i : Nat) : (s.report k v d p i).sec = s.sec := (report_told s k v d p i).keeps State.sec (toldFault_sec _ _)
@[simp] theorem State.raiseFault_boot (s : State) (n : EventName) (a : List Int) (k v d p i : Nat) :
    (s.raiseFault n a k v d p i).boot = s.boot :=
  (raiseFault_told s n a k v d p i).keeps State.boot (toldFault_boot _ _)
@[simp] theorem State.report_boot (s : State) (k v d p i : Nat) : (s.report k v d p i).boot = s.boot := (report_told s k v d p i).keeps State.boot (toldFault_boot _ _)
@[simp] theorem State.raise_kdps_nextSession (s : State) (n : EventName) (a : List Int) (v : Nat) : (s.raise n a v).kdps.nextSession = s.kdps.nextSession :=
  (raise_told s n a v).keeps (fun x => x.kdps.nextSession) rfl
@[simp] theorem State.raiseFault_kdps_nextSession (s : State) (n : EventName) (a : List Int) (k v d p i : Nat) :
    (s.raiseFault n a k v d p i).kdps.nextSession = s.kdps.nextSession := (raiseFault_told s n a k v d p i).keeps (fun x => x.kdps.nextSession) rfl
@[simp] theorem State.sendKdp_kdps_nextSession (m : Bool) (dst op seq ses fl er : Nat) (p : Bytes) (s : State) :
    (sendKdp m dst op seq ses fl er p s).kdps.nextSession = s.kdps.nextSession := (sendKdp_told m dst op seq ses fl er p s).keeps (fun x => x.kdps.nextSession) rfl
@[simp] theorem State.raise_kdps_staged (s : State) (n : EventName) (a : List Int) (v : Nat) : (s.raise n a v).kdps.staged = s.kdps.staged :=
  (raise_told s n a v).keeps (fun x => x.kdps.staged) rfl
@[simp] theorem State.raiseFault_kdps_staged (s : State) (n : EventName) (a : List Int) (k v d p i : Nat) :
    (s.raiseFault n a k v d p i).kdps.staged = s.kdps.staged := (raiseFault_told s n a k v d p i).keeps (fun x => x.kdps.staged) rfl
@[simp] theorem State.sendKdp_kdps_staged (m : Bool) (dst op seq ses fl er : Nat) (p : Bytes) (s : State) :
    (sendKdp m dst op seq ses fl er p s).kdps.staged = s.kdps.staged := (sendKdp_told m dst op seq ses fl er p s).keeps (fun x => x.kdps.staged) rfl
@[simp] theorem State.raise_kdps_transfers (s : State) (n : EventName) (a : List Int) (v : Nat) : (s.raise n a v).kdps.transfers = s.kdps.transfers :=
  (raise_told s n a v).keeps (fun x => x.kdps.transfers) rfl
@[simp] theorem State.raiseFault_kdps_transfers (s : State) (n : EventName) (a : List Int) (k v d p i : Nat) :
    (s.raiseFault n a k v d p i).kdps.transfers = s.kdps.transfers := (raiseFault_told s n a k v d p i).keeps (fun x => x.kdps.transfers) rfl
@[simp] theorem State.sendKdp_kdps_transfers (m : Bool) (dst op seq ses fl er : Nat) (p : Bytes) (s : State) :
    (sendKdp m dst op seq ses fl er p s).kdps.transfers = s.kdps.transfers := (sendKdp_told m dst op seq ses fl er p s).keeps (fun x => x.kdps.transfers) rfl
@[simp] theorem State.raise_kdps_nextTransfer (s : State) (n : EventName) (a : List Int) (v : Nat) : (s.raise n a v).kdps.nextTransfer = s.kdps.nextTransfer :=
  (raise_told s n a v).keeps (fun x => x.kdps.nextTransfer) rfl
@[simp] theorem State.raiseFault_kdps_nextTransfer (s : State) (n : EventName) (a : List Int) (k v d p i : Nat) :
    (s.raiseFault n a k v d p i).kdps.nextTransfer = s.kdps.nextTransfer := (raiseFault_told s n a k v d p i).keeps (fun x => x.kdps.nextTransfer) rfl
@[simp] theorem State.sendKdp_kdps_nextTransfer (m : Bool) (dst op seq ses fl er : Nat) (p : Bytes) (s : State) :
    (sendKdp m dst op seq ses fl er p s).kdps.nextTransfer = s.kdps.nextTransfer := (sendKdp_told m dst op seq ses fl er p s).keeps (fun x => x.kdps.nextTransfer) rfl
@[simp] theorem State.raise_kdps_kept (s : State) (n : EventName) (a : List Int) (v : Nat) : (s.raise n a v).kdps.kept = s.kdps.kept :=
  (raise_told s n a v).keeps (fun x => x.kdps.kept) rfl
@[simp] theorem State.raiseFault_kdps_kept (s : State) (n : EventName) (a : List Int) (k v d p i : Nat) :
    (s.raiseFault n a k v d p i).kdps.kept = s.kdps.kept := (raiseFault_told s n a k v d p i).keeps (fun x => x.kdps.kept) rfl
@[simp] theorem State.sendKdp_kdps_kept (m : Bool) (dst op seq ses fl er : Nat) (p : Bytes) (s : State) :
    (sendKdp m dst op seq ses fl er p s).kdps.kept = s.kdps.kept := (sendKdp_told m dst op seq ses fl er p s).keeps (fun x => x.kdps.kept) rfl
@[simp] theorem State.raise_kdps_failures (s : State) (n : EventName) (a : List Int) (v : Nat) : (s.raise n a v).kdps.failures = s.kdps.failures :=
  (raise_told s n a v).keeps (fun x => x.kdps.failures) rfl
@[simp] theorem State.raiseFault_kdps_failures (s : State) (n : EventName) (a : List Int) (k v d p i : Nat) :
    (s.raiseFault n a k v d p i).kdps.failures = s.kdps.failures := (raiseFault_told s n a k v d p i).keeps (fun x => x.kdps.failures) rfl
@[simp] theorem State.sendKdp_kdps_failures (m : Bool) (dst op seq ses fl er : Nat) (p : Bytes) (s : State) :
    (sendKdp m dst op seq ses fl er p s).kdps.failures = s.kdps.failures := (sendKdp_told m dst op seq ses fl er p s).keeps (fun x => x.kdps.failures) rfl
@[simp] theorem State.raise_kdps_lockouts (s : State) (n : EventName) (a : List Int) (v : Nat) : (s.raise n a v).kdps.lockouts = s.kdps.lockouts :=
  (raise_told s n a v).keeps (fun x => x.kdps.lockouts) rfl
@[simp] theorem State.raiseFault_kdps_lockouts (s : State) (n : EventName) (a : List Int) (k v d p i : Nat) :
    (s.raiseFault n a k v d p i).kdps.lockouts = s.kdps.lockouts := (raiseFault_told s n a k v d p i).keeps (fun x => x.kdps.lockouts) rfl
@[simp] theorem State.sendKdp_kdps_lockouts (m : Bool) (dst op seq ses fl er : Nat) (p : Bytes) (s : State) :
    (sendKdp m dst op seq ses fl er p s).kdps.lockouts = s.kdps.lockouts := (sendKdp_told m dst op seq ses fl er p s).keeps (fun x => x.kdps.lockouts) rfl
@[simp] theorem State.raise_kdps_ptp (s : State) (n : EventName) (a : List Int) (v : Nat) : (s.raise n a v).kdps.ptp = s.kdps.ptp :=
  (raise_told s n a v).keeps (fun x => x.kdps.ptp) rfl
@[simp] theorem State.raiseFault_kdps_ptp (s : State) (n : EventName) (a : List Int) (k v d p i : Nat) :
    (s.raiseFault n a k v d p i).kdps.ptp = s.kdps.ptp := (raiseFault_told s n a k v d p i).keeps (fun x => x.kdps.ptp) rfl
@[simp] theorem State.sendKdp_kdps_ptp (m : Bool) (dst op seq ses fl er : Nat) (p : Bytes) (s : State) :
    (sendKdp m dst op seq ses fl er p s).kdps.ptp = s.kdps.ptp := (sendKdp_told m dst op seq ses fl er p s).keeps (fun x => x.kdps.ptp) rfl
@[simp] theorem State.raise_kdps_addr (s : State) (n : EventName) (a : List Int) (v : Nat) : (s.raise n a v).kdps.addr = s.kdps.addr :=
  (raise_told s n a v).keeps (fun x => x.kdps.addr) rfl
@[simp] theorem State.raiseFault_kdps_addr (s : State) (n : EventName) (a : List Int) (k v d p i : Nat) :
    (s.raiseFault n a k v d p i).kdps.addr = s.kdps.addr := (raiseFault_told s n a k v d p i).keeps (fun x => x.kdps.addr) rfl
@[simp] theorem State.sendKdp_kdps_addr (m : Bool) (dst op seq ses fl er : Nat) (p : Bytes) (s : State) :
    (sendKdp m dst op seq ses fl er p s).kdps.addr = s.kdps.addr := (sendKdp_told m dst op seq ses fl er p s).keeps (fun x => x.kdps.addr) rfl
@[simp] theorem State.raise_kdps_saved (s : State) (n : EventName) (a : List Int) (v : Nat) : (s.raise n a v).kdps.saved = s.kdps.saved :=
  (raise_told s n a v).keeps (fun x => x.kdps.saved) rfl
@[simp] theorem State.raiseFault_kdps_saved (s : State) (n : EventName) (a : List Int) (k v d p i : Nat) :
    (s.raiseFault n a k v d p i).kdps.saved = s.kdps.saved := (raiseFault_told s n a k v d p i).keeps (fun x => x.kdps.saved) rfl
@[simp] theorem State.sendKdp_kdps_saved (m : Bool) (dst op seq ses fl er : Nat) (p : Bytes) (s : State) :
    (sendKdp m dst op seq ses fl er p s).kdps.saved = s.kdps.saved := (sendKdp_told m dst op seq ses fl er p s).keeps (fun x => x.kdps.saved) rfl
@[simp] theorem State.raise_kdps_waiting (s : State) (n : EventName) (a : List Int) (v : Nat) : (s.raise n a v).kdps.waiting = s.kdps.waiting :=
  (raise_told s n a v).keeps (fun x => x.kdps.waiting) rfl
@[simp] theorem State.raiseFault_kdps_waiting (s : State) (n : EventName) (a : List Int) (k v d p i : Nat) :
    (s.raiseFault n a k v d p i).kdps.waiting = s.kdps.waiting := (raiseFault_told s n a k v d p i).keeps (fun x => x.kdps.waiting) rfl
@[simp] theorem State.sendKdp_kdps_waiting (m : Bool) (dst op seq ses fl er : Nat) (p : Bytes) (s : State) :
    (sendKdp m dst op seq ses fl er p s).kdps.waiting = s.kdps.waiting := (sendKdp_told m dst op seq ses fl er p s).keeps (fun x => x.kdps.waiting) rfl
@[simp] theorem State.raise_host_chans (s : State) (n : EventName) (a : List Int) (v : Nat) : (s.raise n a v).host.chans = s.host.chans :=
  (raise_told s n a v).keeps (fun x => x.host.chans) rfl
@[simp] theorem State.raiseFault_host_chans (s : State) (n : EventName) (a : List Int) (k v d p i : Nat) :
    (s.raiseFault n a k v d p i).host.chans = s.host.chans := (raiseFault_told s n a k v d p i).keeps (fun x => x.host.chans) rfl
@[simp] theorem State.sendKdp_host_chans (m : Bool) (dst op seq ses fl er : Nat) (p : Bytes) (s : State) :
    (sendKdp m dst op seq ses fl er p s).host.chans = s.host.chans := (sendKdp_told m dst op seq ses fl er p s).keeps (fun x => x.host.chans) rfl
@[simp] theorem State.raise_host_mem (s : State) (n : EventName) (a : List Int) (v : Nat) : (s.raise n a v).host.mem = s.host.mem :=
  (raise_told s n a v).keeps (fun x => x.host.mem) rfl
@[simp] theorem State.raiseFault_host_mem (s : State) (n : EventName) (a : List Int) (k v d p i : Nat) :
    (s.raiseFault n a k v d p i).host.mem = s.host.mem := (raiseFault_told s n a k v d p i).keeps (fun x => x.host.mem) rfl
@[simp] theorem State.sendKdp_host_mem (m : Bool) (dst op seq ses fl er : Nat) (p : Bytes) (s : State) :
    (sendKdp m dst op seq ses fl er p s).host.mem = s.host.mem := (sendKdp_told m dst op seq ses fl er p s).keeps (fun x => x.host.mem) rfl
@[simp] theorem State.raise_host_cq (s : State) (n : EventName) (a : List Int) (v : Nat) : (s.raise n a v).host.cq = s.host.cq :=
  (raise_told s n a v).keeps (fun x => x.host.cq) rfl
@[simp] theorem State.raiseFault_host_cq (s : State) (n : EventName) (a : List Int) (k v d p i : Nat) :
    (s.raiseFault n a k v d p i).host.cq = s.host.cq := (raiseFault_told s n a k v d p i).keeps (fun x => x.host.cq) rfl
@[simp] theorem State.sendKdp_host_cq (m : Bool) (dst op seq ses fl er : Nat) (p : Bytes) (s : State) :
    (sendKdp m dst op seq ses fl er p s).host.cq = s.host.cq := (sendKdp_told m dst op seq ses fl er p s).keeps (fun x => x.host.cq) rfl
@[simp] theorem State.raise_host_serving (s : State) (n : EventName) (a : List Int) (v : Nat) : (s.raise n a v).host.serving = s.host.serving :=
  (raise_told s n a v).keeps (fun x => x.host.serving) rfl
@[simp] theorem State.raiseFault_host_serving (s : State) (n : EventName) (a : List Int) (k v d p i : Nat) :
    (s.raiseFault n a k v d p i).host.serving = s.host.serving := (raiseFault_told s n a k v d p i).keeps (fun x => x.host.serving) rfl
@[simp] theorem State.sendKdp_host_serving (m : Bool) (dst op seq ses fl er : Nat) (p : Bytes) (s : State) :
    (sendKdp m dst op seq ses fl er p s).host.serving = s.host.serving := (sendKdp_told m dst op seq ses fl er p s).keeps (fun x => x.host.serving) rfl
@[simp] theorem State.raise_host_perst (s : State) (n : EventName) (a : List Int) (v : Nat) : (s.raise n a v).host.perst = s.host.perst :=
  (raise_told s n a v).keeps (fun x => x.host.perst) rfl
@[simp] theorem State.raiseFault_host_perst (s : State) (n : EventName) (a : List Int) (k v d p i : Nat) :
    (s.raiseFault n a k v d p i).host.perst = s.host.perst := (raiseFault_told s n a k v d p i).keeps (fun x => x.host.perst) rfl
@[simp] theorem State.sendKdp_host_perst (m : Bool) (dst op seq ses fl er : Nat) (p : Bytes) (s : State) :
    (sendKdp m dst op seq ses fl er p s).host.perst = s.host.perst := (sendKdp_told m dst op seq ses fl er p s).keeps (fun x => x.host.perst) rfl
@[simp] theorem State.raise_host_mps (s : State) (n : EventName) (a : List Int) (v : Nat) : (s.raise n a v).host.mps = s.host.mps :=
  (raise_told s n a v).keeps (fun x => x.host.mps) rfl
@[simp] theorem State.raise_host_mrrs (s : State) (n : EventName) (a : List Int) (v : Nat) : (s.raise n a v).host.mrrs = s.host.mrrs :=
  (raise_told s n a v).keeps (fun x => x.host.mrrs) rfl
@[simp] theorem State.raise_host_linkFree (s : State) (n : EventName) (a : List Int) (v : Nat) : (s.raise n a v).host.linkFree = s.host.linkFree :=
  (raise_told s n a v).keeps (fun x => x.host.linkFree) rfl
@[simp] theorem State.raise_host_linkTime (s : State) (n : EventName) (a : List Int) (v : Nat) : (s.raise n a v).host.linkTime = s.host.linkTime :=
  (raise_told s n a v).keeps (fun x => x.host.linkTime) rfl
@[simp] theorem State.raise_host_bar4 (s : State) (n : EventName) (a : List Int) (v : Nat) : (s.raise n a v).host.bar4 = s.host.bar4 :=
  (raise_told s n a v).keeps (fun x => x.host.bar4) rfl
@[simp] theorem State.raise_host_shares (s : State) (n : EventName) (a : List Int) (v : Nat) : (s.raise n a v).host.shares = s.host.shares :=
  (raise_told s n a v).keeps (fun x => x.host.shares) rfl
@[simp] theorem State.raise_host_turns (s : State) (n : EventName) (a : List Int) (v : Nat) : (s.raise n a v).host.turns = s.host.turns :=
  (raise_told s n a v).keeps (fun x => x.host.turns) rfl
@[simp] theorem State.raiseFault_host_mps (s : State) (n : EventName) (a : List Int) (k v d p i : Nat) :
    (s.raiseFault n a k v d p i).host.mps = s.host.mps := (raiseFault_told s n a k v d p i).keeps (fun x => x.host.mps) rfl
@[simp] theorem State.raiseFault_host_mrrs (s : State) (n : EventName) (a : List Int) (k v d p i : Nat) :
    (s.raiseFault n a k v d p i).host.mrrs = s.host.mrrs := (raiseFault_told s n a k v d p i).keeps (fun x => x.host.mrrs) rfl
@[simp] theorem State.raiseFault_host_linkFree (s : State) (n : EventName) (a : List Int) (k v d p i : Nat) :
    (s.raiseFault n a k v d p i).host.linkFree = s.host.linkFree := (raiseFault_told s n a k v d p i).keeps (fun x => x.host.linkFree) rfl
@[simp] theorem State.raiseFault_host_linkTime (s : State) (n : EventName) (a : List Int) (k v d p i : Nat) :
    (s.raiseFault n a k v d p i).host.linkTime = s.host.linkTime := (raiseFault_told s n a k v d p i).keeps (fun x => x.host.linkTime) rfl
@[simp] theorem State.raiseFault_host_bar4 (s : State) (n : EventName) (a : List Int) (k v d p i : Nat) :
    (s.raiseFault n a k v d p i).host.bar4 = s.host.bar4 := (raiseFault_told s n a k v d p i).keeps (fun x => x.host.bar4) rfl
@[simp] theorem State.raiseFault_host_shares (s : State) (n : EventName) (a : List Int) (k v d p i : Nat) :
    (s.raiseFault n a k v d p i).host.shares = s.host.shares := (raiseFault_told s n a k v d p i).keeps (fun x => x.host.shares) rfl
@[simp] theorem State.raiseFault_host_turns (s : State) (n : EventName) (a : List Int) (k v d p i : Nat) :
    (s.raiseFault n a k v d p i).host.turns = s.host.turns := (raiseFault_told s n a k v d p i).keeps (fun x => x.host.turns) rfl
@[simp] theorem State.sendKdp_host_mps (m : Bool) (dst op seq ses fl er : Nat) (p : Bytes) (s : State) :
    (sendKdp m dst op seq ses fl er p s).host.mps = s.host.mps := (sendKdp_told m dst op seq ses fl er p s).keeps (fun x => x.host.mps) rfl
@[simp] theorem State.sendKdp_host_mrrs (m : Bool) (dst op seq ses fl er : Nat) (p : Bytes) (s : State) :
    (sendKdp m dst op seq ses fl er p s).host.mrrs = s.host.mrrs := (sendKdp_told m dst op seq ses fl er p s).keeps (fun x => x.host.mrrs) rfl
@[simp] theorem State.sendKdp_host_linkFree (m : Bool) (dst op seq ses fl er : Nat) (p : Bytes) (s : State) :
    (sendKdp m dst op seq ses fl er p s).host.linkFree = s.host.linkFree := (sendKdp_told m dst op seq ses fl er p s).keeps (fun x => x.host.linkFree) rfl
@[simp] theorem State.sendKdp_host_linkTime (m : Bool) (dst op seq ses fl er : Nat) (p : Bytes) (s : State) :
    (sendKdp m dst op seq ses fl er p s).host.linkTime = s.host.linkTime := (sendKdp_told m dst op seq ses fl er p s).keeps (fun x => x.host.linkTime) rfl
@[simp] theorem State.sendKdp_host_bar4 (m : Bool) (dst op seq ses fl er : Nat) (p : Bytes) (s : State) :
    (sendKdp m dst op seq ses fl er p s).host.bar4 = s.host.bar4 := (sendKdp_told m dst op seq ses fl er p s).keeps (fun x => x.host.bar4) rfl
@[simp] theorem State.sendKdp_host_shares (m : Bool) (dst op seq ses fl er : Nat) (p : Bytes) (s : State) :
    (sendKdp m dst op seq ses fl er p s).host.shares = s.host.shares := (sendKdp_told m dst op seq ses fl er p s).keeps (fun x => x.host.shares) rfl
@[simp] theorem State.sendKdp_host_turns (m : Bool) (dst op seq ses fl er : Nat) (p : Bytes) (s : State) :
    (sendKdp m dst op seq ses fl er p s).host.turns = s.host.turns := (sendKdp_told m dst op seq ses fl er p s).keeps (fun x => x.host.turns) rfl

/-! ### The audit log -/

/-- `s` with the parts of `t` that an audit record may change: the log itself, and what telling that it fills up touches. -/
def audited (s t : State) : State := { told s t with sec := t.sec }

theorem audit_told (code : Nat) (a : Actor) (index sub result : Nat) (data : Bytes) (must : Bool) (s : State) :
    audit code a index sub result data must s = audited s (audit code a index sub result data must s) := by
  unfold audit
  dsimp only
  generalize addRecord _ _ s.sec = x
  split
  · rfl
  · split
    · have h := raise_told { s with sec := x } .auditNearFull [] 0
      have hs := h.keeps State.sec rfl
      refine Eq.trans h ?_
      unfold audited
      rw [hs]
      rfl
    · rfl
theorem audit_boot (code : Nat) (a : Actor) (index sub result : Nat) (data : Bytes) (must : Bool) (s : State) :
    (audit code a index sub result data must s).boot = s.boot :=
  (congrArg State.boot (audit_told code a index sub result data must s)).trans rfl

end Sys2Proof.Machine
end

