-- ==== Sys2Proof/Laws/Requests.lean ====
section
/-! SUPPORT. How a request packet comes to its service: what hearing it leaves alone, and that an accepted one is served. -/
namespace Sys2Proof.Machine

theorem skipBadSlots_told (k : Nat) (s : State) : Told s (skipBadSlots k s) := by
  induction k generalizing s with
  | zero => exact Told.refl s
  | succ k ih =>
    unfold skipBadSlots
    dsimp only
    split
    · exact Told.refl s
    · exact Told.trans (Told.trans (Told.intro rfl) (txVector_told _)) (ih _)

theorem skipBadSlots_dict (k : Nat) (s : State) : (skipBadSlots k s).dict = s.dict := by
  induction k generalizing s with
  | zero => rfl
  | succ k ih =>
    unfold skipBadSlots
    dsimp only
    split
    · rfl
    · exact (ih _).trans (txVector_dict _)

theorem advanceTx_told (s : State) : Told s (advanceTx s) := by
  unfold advanceTx
  dsimp only
  split
  · exact Told.refl s
  · exact Told.trans (Told.trans (Told.intro rfl) (txVector_told _)) (skipBadSlots_told _ _)

theorem advanceTx_dict (s : State) : (advanceTx s).dict = s.dict := by
  unfold advanceTx
  dsimp only
  split
  · rfl
  · exact (skipBadSlots_dict _ _).trans (txVector_dict _)

theorem noteActivity_dict (q : Kdp) (s : State) : (noteActivity q s).dict = s.dict := by
  unfold noteActivity; split <;> rfl
theorem noteActivity_boot (q : Kdp) (s : State) : (noteActivity q s).boot = s.boot := by
  unfold noteActivity; split <;> rfl
theorem noteActivity_now (q : Kdp) (s : State) : (noteActivity q s).now = s.now := by
  unfold noteActivity; split <;> rfl

/-- Hearing a packet leaves the registers, the boot state and the clock as they were. -/
theorem heard_dict (q : Kdp) (s : State) : (heard q s).dict = s.dict := by
  unfold heard; split
  · exact (advanceTx_dict _).trans (noteActivity_dict q s)
  · exact noteActivity_dict q s
theorem heard_boot (q : Kdp) (s : State) : (heard q s).boot = s.boot := by
  unfold heard; split
  · exact ((advanceTx_told _).keeps State.boot rfl).trans (noteActivity_boot q s)
  · exact noteActivity_boot q s
theorem heard_now (q : Kdp) (s : State) : (heard q s).now = s.now := by
  unfold heard; split
  · exact ((advanceTx_told _).keeps State.now rfl).trans (noteActivity_now q s)
  · exact noteActivity_now q s

/-- A packet that reaches the block is taken up as it was heard. -/
theorem receive_reaches {op : Nat} {q : Kdp} {s : State} (h : Reaches op q s) : receive op q s = serveRequest op q (heard q s) := by
  have own : q.dst = 0xFF → 0 < op ∧ op ≤ 3 := by
    intro e
    rcases h.mine with k | k | k | k
    · exact k.2
    · exact absurd e k.2.1
    · rw [e] at k; exact absurd k.2 (by decide)
    · exact absurd e k.2
  have h1 := h.talks
  have h2 := h.recovery
  have h3 := h.inUse
  have h4 := h.running
  have e1 : (decide (q.dst = 0xFF) && (decide (op = 0) || decide (3 < op))) = false := by
    by_cases k : q.dst = 0xFF
    · simp [k, Nat.pos_iff_ne_zero.mp (own k).1, (own k).2]
    · simp [k]
  have mine : ((decide (q.dst = 0xFF) || (decide (s.nat Obj.nodeAddress ≠ 0) && decide (q.dst = s.nat Obj.nodeAddress))) ||
      (q.mailbox && decide (q.dst = 0xFE)) || q.sandbox s) = true := by
    rcases h.mine with k | k | k | k <;> simp [k]
  have e2 : q.sandbox (noteActivity q s) = q.sandbox s := by
    simp only [Kdp.sandbox, State.flag, State.reg, noteActivity_dict]
  have e3 : (noteActivity q s).nat Obj.lockstepState = s.nat Obj.lockstepState := by
    simp only [State.nat, State.reg, noteActivity_dict]
  unfold receive
  dsimp only
  rw [if_neg (by rw [h1, h2]; decide), if_neg (by cases hm : q.mailbox <;> simp [hm] at h3 ⊢; exact h3), e2, e3]
  rw [if_neg (by rw [e1]; decide), if_neg (by rw [mine]; simp), if_neg h4, if_neg (by rw [mine]; decide)]
  rfl

/-- An admitted packet is executed. -/
theorem serve_admitted {op : Nat} {q : Kdp} {s t : State} (h : Admitted q s t) : serveRequest op q (heard q s) = execute op q t := by
  unfold serveRequest
  rcases h with ⟨h, rfl⟩ | ⟨h, ha, x, hx, h1, h2, h3, h4, rfl⟩
  · rw [h]; rfl
  · rw [h, ha, hx]
    simp only [Bool.not_true, Bool.false_eq_true, if_false, Option.filter, h1, h2, h3, beq_self_eq_true, Bool.and_self, if_true]
    rw [if_neg (by omega), heard_now]

theorem admitted_boot {q : Kdp} {s t : State} (h : Admitted q s t) : t.boot = s.boot := by
  rcases h with ⟨_, rfl⟩ | ⟨_, _, x, _, _, _, _, _, rfl⟩
  · exact heard_boot q s
  · exact heard_boot q s

/-- An accepted request of a known opcode is served, and what its service did takes its course. -/
theorem receive_accepted {op : Nat} {q : Kdp} {s t : State} (h : Accepted op q s t) (k : opcodeKnown op = true) :
    receive op q s = conclude op q (sessionOf q) (service op (t.ask q) t) := by
  rw [receive_reaches h.reaches, serve_admitted h.admitted]
  unfold execute
  dsimp only
  rw [admitted_boot h.admitted, h.reaches.recovery, h.length, k]
  simp only [Bool.false_and, Bool.false_eq_true, if_false, Bool.not_true]
  have e1 : ¬ (decide (t.roleOf q = 0) && !openService op q) = true := by
    rcases h.role with r | r <;> simp [r]
  rw [if_neg e1]
  rcases h.fresh with r | r
  · rw [r]; rfl
  · rw [r]; cases q.retry <;> rfl

/-- A request whose opcode is not known is answered so. -/
theorem receive_unknown {op : Nat} {q : Kdp} {s t : State} (h : Reaches op q s) (a : Admitted q s t) (k : opcodeKnown op = false) :
    receive op q s = refuse q op (sessionOf q) 0 0 ⟨0x01, 0⟩ t := by
  rw [receive_reaches h, serve_admitted a]
  unfold execute
  dsimp only
  rw [admitted_boot a, h.recovery, k]
  rfl

end Sys2Proof.Machine
end

