-- ==== Sys2Proof/Laws/Steady.lean ====
section
/-! SUPPORT. `Steady r t`: from `r` to `t` the queue of commands, the mode, its target and the halt are untouched, and the canonical form
is kept. `Held r t`: the mode may move as a halted block allows. How such facts are put together. -/
namespace Sys2Proof.Machine

set_option linter.unusedTactic false
set_option linter.unreachableTactic false

/-- What an operation keeps that moves no mode. -/
structure Steady (r t : State) : Prop where
  pending : t.pending = r.pending
  still : (t.mode, t.target, t.power.halted) = (r.mode, r.target, r.power.halted)
  canonical : Canonical r → Canonical t

theorem Steady.refl (s : State) : Steady s s := ⟨rfl, rfl, id⟩
theorem Steady.trans {r s t : State} (h : Steady r s) (k : Steady s t) : Steady r t :=
  ⟨k.pending.trans h.pending, k.still.trans h.still, fun c => k.canonical (h.canonical c)⟩
theorem Steady.mode {r t : State} (h : Steady r t) : t.mode = r.mode := congrArg Prod.fst h.still
theorem Steady.target {r t : State} (h : Steady r t) : t.target = r.target := congrArg (fun x => x.2.1) h.still
theorem Steady.halted {r t : State} (h : Steady r t) : t.power.halted = r.power.halted := congrArg (fun x => x.2.2) h.still

/-- What `Steady` looks at. -/
@[reducible] def watched (s : State) :=
  (s.pending, s.dict, s.queues, s.lanes, s.groups, s.ports, s.banks, s.slices, s.coefRows, s.streams, s.curves, s.calibs, s.posChans,
    s.compares, s.gens, s.tios, s.motions, s.transports, s.seamsOf, s.rings, s.host.mem, s.host.mbx.txRing, s.host.mbx.rxRing, s.mode,
    s.target, s.power.halted)

/-- A change of nothing that `Steady` looks at. -/
theorem Steady.of_watched {r s t : State} (e : watched t = watched s) (h : Steady r s) : Steady r t := by
  simp only [watched, Prod.mk.injEq] at e
  obtain ⟨e1, e2, e3, e4, e5, e6, e7, e8, e9, e10, e11, e12, e13, e14, e15, e16, e17, e18, e19, e20, e21, e22, e23, e24, e25, e26⟩ := e
  refine ⟨e1.trans h.pending, by rw [e24, e25, e26]; exact h.still, fun c => ?_⟩
  obtain ⟨c1, c2, c3, c4, c5, c6, c7, c8, c9, c10, c11, c12, c13, c14, c15, c16, c17, c18, c19, c20, c21, c22⟩ := h.canonical c
  constructor <;> simp only [*]

/-- The same, for a state written out. -/
theorem Steady.lit {r s : State} {a1 a2 a3 a4 a5 a6 a7 a8 a9 a10 a11 a12 a13 a14 a15 a16 a17 a18 a19 a20 a21 a22 a23 a24 a25 a26
      a27 a28 a29 a30 a31 a32 a33 a34 a35 a36 a37 a38 a39 a40 a41 a42 a43 a44 a45} (e : (a1, a7, a14, a15, a16, a18, a19, a20,
      a22, a23, a24, a25, a27, a28, a29, a30, a31, a32, a33, a35, a36.mem, a36.mbx.txRing, a36.mbx.rxRing, a39, a40, a41.halted)
      = (s.pending, s.dict, s.queues, s.lanes, s.groups, s.ports, s.banks, s.slices, s.coefRows, s.streams, s.curves, s.calibs,
      s.posChans, s.compares, s.gens, s.tios, s.motions, s.transports, s.seamsOf, s.rings, s.host.mem, s.host.mbx.txRing,
      s.host.mbx.rxRing, s.mode, s.target, s.power.halted)) (h : Steady r s) : Steady r (State.mk a1 a2 a3 a4 a5 a6 a7 a8 a9 a10
      a11 a12 a13 a14 a15 a16 a17 a18 a19 a20 a21 a22 a23 a24 a25 a26 a27 a28 a29 a30 a31 a32 a33 a34 a35 a36 a37 a38 a39 a40
      a41 a42 a43 a44 a45) := Steady.of_watched e h

theorem Steady.ite {r a b : State} {c : Prop} [Decidable c] (h : Steady r a) (k : Steady r b) : Steady r (if c then a else b) := by
  split
  · exact h
  · exact k

theorem Steady.ite1 {α : Type} {r : State} {a b : State × α} {c : Prop} [Decidable c] (h : Steady r a.1) (k : Steady r b.1) :
    Steady r (if c then a else b).1 := by
  split
  · exact h
  · exact k
theorem Steady.ite2 {α : Type} {r : State} {a b : α × State} {c : Prop} [Decidable c] (h : Steady r a.2) (k : Steady r b.2) :
    Steady r (if c then a else b).2 := by
  split
  · exact h
  · exact k
theorem Steady.ite3 {α β : Type} {r : State} {a b : α × β × State} {c : Prop} [Decidable c] (h : Steady r a.2.2) (k : Steady r b.2.2) :
    Steady r (if c then a else b).2.2 := by
  split
  · exact h
  · exact k

/-- A named state on the way. -/
theorem Steady.cut {r : State} {P : Prop} (x : State) (h : Steady r x) (k : Steady r x → P) : P := k h
theorem Steady.cut1 {α : Type} {r : State} {P : Prop} (x : State × α) (h : Steady r x.1) (k : Steady r x.1 → P) : P := k h
theorem Steady.cut2 {α : Type} {r : State} {P : Prop} (x : α × State) (h : Steady r x.2) (k : Steady r x.2 → P) : P := k h

/-- The command ends in a next state that `Steady` relates to `r`. -/
def Ends (r : State) (x : Result) : Prop := ∃ t, x = .next t ∧ Steady r t
theorem Ends.next {r s : State} (h : Steady r s) : Ends r (.next s) := ⟨s, rfl, h⟩
theorem Steady.stateOf {r s : State} {x : Result} (h : Ends r x) : Steady r (stateOf s x) := by
  obtain ⟨t, rfl, k⟩ := h
  exact k
theorem Ends.ite {r : State} {a b : Result} {c : Prop} [Decidable c] (h : Ends r a) (k : Ends r b) : Ends r (if c then a else b) := by
  split
  · exact h
  · exact k

theorem Steady.foldl {α : Type} {r s : State} (l : List α) (f : State → α → State) (h : Steady r s)
    (k : ∀ s x, Steady r s → Steady r (f s x)) : Steady r (l.foldl f s) := by
  induction l generalizing s with
  | nil => exact h
  | cons x l ih => exact ih (k s x h)

theorem Steady.foldl1 {α β : Type} {r : State} {s : State × β} (l : List α) (f : State × β → α → State × β) (h : Steady r s.1)
    (k : ∀ s x, Steady r s.1 → Steady r (f s x).1) : Steady r (l.foldl f s).1 := by
  induction l generalizing s with
  | nil => exact h
  | cons x l ih => exact ih (k s x h)
theorem Steady.foldl2 {α β : Type} {r : State} {s : β × State} (l : List α) (f : β × State → α → β × State) (h : Steady r s.2)
    (k : ∀ s x, Steady r s.2 → Steady r (f s x).2) : Steady r (l.foldl f s).2 := by
  induction l generalizing s with
  | nil => exact h
  | cons x l ih => exact ih (k s x h)

/-- Writing one entry of a table of units. -/
theorem Steady.table {r s t : State} (h : Steady r s) (p : t.pending = s.pending) (m : t.mode = s.mode) (g : t.target = s.target)
    (q : t.power = s.power) (c : Canonical s → Canonical t) : Steady r t :=
  ⟨p.trans h.pending, by rw [m, g, q]; exact h.still, fun k => c (h.canonical k)⟩

theorem State.loopRan_steady (l u : Nat) {r s : State} (h0 : Steady r s) : Steady r (s.loopRan l u) :=
  Steady.of_watched (s := s) rfl h0

/-! ### The units -/

theorem State.setLane_steady (n : Nat) (x : Lane) {r s : State} (h0 : Steady r s) : Steady r (s.setLane n x) :=
  Steady.table h0 rfl rfl rfl rfl fun c => ⟨c.dict, c.queues, Table.rising_set _ _ _ _ c.lanes, c.groups, c.ports, c.banks, c.slices, c.coefRows, c.streams, c.curves, c.calibs, c.posChans, c.compares, c.gens, c.tios, c.motions, c.transports, c.seams, c.rings, c.mem, c.txRing, c.rxRing⟩
theorem State.updLane_steady (n : Nat) (f : Lane → Lane) {r s : State} (h0 : Steady r s) : Steady r (s.updLane n f) :=
  State.setLane_steady n _ h0
theorem State.setGroup_steady (n : Nat) (x : Group) {r s : State} (h0 : Steady r s) : Steady r (s.setGroup n x) :=
  Steady.table h0 rfl rfl rfl rfl fun c => ⟨c.dict, c.queues, c.lanes, Table.rising_set _ _ _ _ c.groups, c.ports, c.banks, c.slices, c.coefRows, c.streams, c.curves, c.calibs, c.posChans, c.compares, c.gens, c.tios, c.motions, c.transports, c.seams, c.rings, c.mem, c.txRing, c.rxRing⟩
theorem State.updGroup_steady (n : Nat) (f : Group → Group) {r s : State} (h0 : Steady r s) : Steady r (s.updGroup n f) :=
  State.setGroup_steady n _ h0
theorem State.setPort_steady (n : Nat) (x : Port) {r s : State} (h0 : Steady r s) : Steady r (s.setPort n x) :=
  Steady.table h0 rfl rfl rfl rfl fun c => ⟨c.dict, c.queues, c.lanes, c.groups, Table.rising_set _ _ _ _ c.ports, c.banks, c.slices, c.coefRows, c.streams, c.curves, c.calibs, c.posChans, c.compares, c.gens, c.tios, c.motions, c.transports, c.seams, c.rings, c.mem, c.txRing, c.rxRing⟩
theorem State.updPort_steady (n : Nat) (f : Port → Port) {r s : State} (h0 : Steady r s) : Steady r (s.updPort n f) :=
  State.setPort_steady n _ h0
theorem State.setBank_steady (n : Nat) (x : BankState) {r s : State} (h0 : Steady r s) : Steady r (s.setBank n x) :=
  Steady.table h0 rfl rfl rfl rfl fun c => ⟨c.dict, c.queues, c.lanes, c.groups, c.ports, Table.rising_set _ _ _ _ c.banks, c.slices, c.coefRows, c.streams, c.curves, c.calibs, c.posChans, c.compares, c.gens, c.tios, c.motions, c.transports, c.seams, c.rings, c.mem, c.txRing, c.rxRing⟩
theorem State.setSlice_steady (n : Nat) (x : Slice) {r s : State} (h0 : Steady r s) : Steady r (s.setSlice n x) :=
  Steady.table h0 rfl rfl rfl rfl fun c => ⟨c.dict, c.queues, c.lanes, c.groups, c.ports, c.banks, Table.rising_set _ _ _ _ c.slices, c.coefRows, c.streams, c.curves, c.calibs, c.posChans, c.compares, c.gens, c.tios, c.motions, c.transports, c.seams, c.rings, c.mem, c.txRing, c.rxRing⟩
theorem State.updSlice_steady (n : Nat) (f : Slice → Slice) {r s : State} (h0 : Steady r s) : Steady r (s.updSlice n f) :=
  State.setSlice_steady n _ h0
theorem State.setStrm_steady (n : Nat) (x : Stream) {r s : State} (h0 : Steady r s) : Steady r (s.setStrm n x) :=
  Steady.table h0 rfl rfl rfl rfl fun c => ⟨c.dict, c.queues, c.lanes, c.groups, c.ports, c.banks, c.slices, c.coefRows, Table.rising_set _ _ _ _ c.streams, c.curves, c.calibs, c.posChans, c.compares, c.gens, c.tios, c.motions, c.transports, c.seams, c.rings, c.mem, c.txRing, c.rxRing⟩
theorem State.updStrm_steady (n : Nat) (f : Stream → Stream) {r s : State} (h0 : Steady r s) : Steady r (s.updStrm n f) :=
  State.setStrm_steady n _ h0
theorem State.setQueue_steady (n : Nat) (x : Queue) {r s : State} (h0 : Steady r s) : Steady r (s.setQueue n x) :=
  Steady.table h0 rfl rfl rfl rfl fun c => ⟨c.dict, Table.rising_set _ _ _ _ c.queues, c.lanes, c.groups, c.ports, c.banks, c.slices, c.coefRows, c.streams, c.curves, c.calibs, c.posChans, c.compares, c.gens, c.tios, c.motions, c.transports, c.seams, c.rings, c.mem, c.txRing, c.rxRing⟩
theorem State.setRing_steady (n : Nat) (x : Ring) {r s : State} (h0 : Steady r s) : Steady r (s.setRing n x) :=
  Steady.table h0 rfl rfl rfl rfl fun c => ⟨c.dict, c.queues, c.lanes, c.groups, c.ports, c.banks, c.slices, c.coefRows, c.streams, c.curves, c.calibs, c.posChans, c.compares, c.gens, c.tios, c.motions, c.transports, c.seams, Table.rising_set _ _ _ _ c.rings, c.mem, c.txRing, c.rxRing⟩
theorem State.updRing_steady (n : Nat) (f : Ring → Ring) {r s : State} (h0 : Steady r s) : Steady r (s.updRing n f) :=
  State.setRing_steady n _ h0
theorem State.setPosChan_steady (n : Nat) (x : PosChan) {r s : State} (h0 : Steady r s) : Steady r (s.setPosChan n x) :=
  Steady.table h0 rfl rfl rfl rfl fun c => ⟨c.dict, c.queues, c.lanes, c.groups, c.ports, c.banks, c.slices, c.coefRows, c.streams, c.curves, c.calibs, Table.rising_set _ _ _ _ c.posChans, c.compares, c.gens, c.tios, c.motions, c.transports, c.seams, c.rings, c.mem, c.txRing, c.rxRing⟩
theorem State.updPosChan_steady (n : Nat) (f : PosChan → PosChan) {r s : State} (h0 : Steady r s) : Steady r (s.updPosChan n f) :=
  State.setPosChan_steady n _ h0
theorem State.setCmp_steady (n : Nat) (x : Compare) {r s : State} (h0 : Steady r s) : Steady r (s.setCmp n x) :=
  Steady.table h0 rfl rfl rfl rfl fun c => ⟨c.dict, c.queues, c.lanes, c.groups, c.ports, c.banks, c.slices, c.coefRows, c.streams, c.curves, c.calibs, c.posChans, Table.rising_set _ _ _ _ c.compares, c.gens, c.tios, c.motions, c.transports, c.seams, c.rings, c.mem, c.txRing, c.rxRing⟩
theorem State.updCmp_steady (n : Nat) (f : Compare → Compare) {r s : State} (h0 : Steady r s) : Steady r (s.updCmp n f) :=
  State.setCmp_steady n _ h0
theorem State.setGen_steady (n : Nat) (x : Gen) {r s : State} (h0 : Steady r s) : Steady r (s.setGen n x) :=
  Steady.table h0 rfl rfl rfl rfl fun c => ⟨c.dict, c.queues, c.lanes, c.groups, c.ports, c.banks, c.slices, c.coefRows, c.streams, c.curves, c.calibs, c.posChans, c.compares, Table.rising_set _ _ _ _ c.gens, c.tios, c.motions, c.transports, c.seams, c.rings, c.mem, c.txRing, c.rxRing⟩
theorem State.updGen_steady (n : Nat) (f : Gen → Gen) {r s : State} (h0 : Steady r s) : Steady r (s.updGen n f) :=
  State.setGen_steady n _ h0
theorem State.setTio_steady (n : Nat) (x : Tio) {r s : State} (h0 : Steady r s) : Steady r (s.setTio n x) :=
  Steady.table h0 rfl rfl rfl rfl fun c => ⟨c.dict, c.queues, c.lanes, c.groups, c.ports, c.banks, c.slices, c.coefRows, c.streams, c.curves, c.calibs, c.posChans, c.compares, c.gens, Table.rising_set _ _ _ _ c.tios, c.motions, c.transports, c.seams, c.rings, c.mem, c.txRing, c.rxRing⟩
theorem State.updTio_steady (n : Nat) (f : Tio → Tio) {r s : State} (h0 : Steady r s) : Steady r (s.updTio n f) :=
  State.setTio_steady n _ h0
theorem State.setMotion_steady (n : Nat) (x : Motion) {r s : State} (h0 : Steady r s) : Steady r (s.setMotion n x) :=
  Steady.table h0 rfl rfl rfl rfl fun c => ⟨c.dict, c.queues, c.lanes, c.groups, c.ports, c.banks, c.slices, c.coefRows, c.streams, c.curves, c.calibs, c.posChans, c.compares, c.gens, c.tios, Table.rising_set _ _ _ _ c.motions, c.transports, c.seams, c.rings, c.mem, c.txRing, c.rxRing⟩
theorem State.updMotion_steady (n : Nat) (f : Motion → Motion) {r s : State} (h0 : Steady r s) : Steady r (s.updMotion n f) :=
  State.setMotion_steady n _ h0
theorem State.setTrans_steady (n : Nat) (x : Transport) {r s : State} (h0 : Steady r s) : Steady r (s.setTrans n x) :=
  Steady.table h0 rfl rfl rfl rfl fun c => ⟨c.dict, c.queues, c.lanes, c.groups, c.ports, c.banks, c.slices, c.coefRows, c.streams, c.curves, c.calibs, c.posChans, c.compares, c.gens, c.tios, c.motions, Table.rising_set _ _ _ _ c.transports, c.seams, c.rings, c.mem, c.txRing, c.rxRing⟩
theorem State.updTrans_steady (n : Nat) (f : Transport → Transport) {r s : State} (h0 : Steady r s) : Steady r (s.updTrans n f) :=
  State.setTrans_steady n _ h0
theorem State.setSeam_steady (n : Nat) (x : Seam) {r s : State} (h0 : Steady r s) : Steady r (s.setSeam n x) :=
  Steady.table h0 rfl rfl rfl rfl fun c => ⟨c.dict, c.queues, c.lanes, c.groups, c.ports, c.banks, c.slices, c.coefRows, c.streams, c.curves, c.calibs, c.posChans, c.compares, c.gens, c.tios, c.motions, c.transports, Table.rising_set _ _ _ _ c.seams, c.rings, c.mem, c.txRing, c.rxRing⟩
theorem State.updSeam_steady (n : Nat) (f : Seam → Seam) {r s : State} (h0 : Steady r s) : Steady r (s.updSeam n f) :=
  State.setSeam_steady n _ h0
theorem State.setCalib_steady (n : Nat) (x : Calib) {r s : State} (h0 : Steady r s) : Steady r (s.setCalib n x) :=
  Steady.table h0 rfl rfl rfl rfl fun c => ⟨c.dict, c.queues, c.lanes, c.groups, c.ports, c.banks, c.slices, c.coefRows, c.streams, c.curves, Table.rising_set _ _ _ _ c.calibs, c.posChans, c.compares, c.gens, c.tios, c.motions, c.transports, c.seams, c.rings, c.mem, c.txRing, c.rxRing⟩
theorem State.updCalib_steady (n : Nat) (f : Calib → Calib) {r s : State} (h0 : Steady r s) : Steady r (s.updCalib n f) :=
  State.setCalib_steady n _ h0
theorem State.setReg_steady (o : Obj) (v : Int) {r s : State} (h0 : Steady r s) : Steady r (s.setReg o v) :=
  Steady.table h0 rfl rfl rfl rfl fun c => ⟨Table.rising_set _ _ _ _ c.dict, c.queues, c.lanes, c.groups, c.ports, c.banks, c.slices, c.coefRows, c.streams, c.curves, c.calibs, c.posChans, c.compares, c.gens, c.tios, c.motions, c.transports, c.seams, c.rings, c.mem, c.txRing, c.rxRing⟩
theorem State.emit_steady (o : Output) {r s : State} (h0 : Steady r s) : Steady r (s.emit o) :=
  Steady.of_watched (s := s) rfl h0

/-! ### Where the mode moves -/

/-- Below Boot no halt is in force. -/
theorem HaltHeld.idle {s : State} (h : HaltHeld s) (m : s.mode.booted = false) : s.power.halted = false := by
  by_contra e
  have := (h (by simpa using e)).1
  rw [m] at this
  exact absurd this (by decide)
/-- A halted block aims at nothing but Safe Halt. -/
theorem HaltHeld.aim {s : State} (h : HaltHeld s) (g : s.power.halted = true) (t : s.target ≠ some .safeHalt) :
    s.mode = .safeHalt ∧ s.target = none := ((h g).2.resolve_right t)

/-- What every operation keeps. -/
structure Held (r t : State) : Prop where
  pending : t.pending = r.pending
  canonical : Canonical r → Canonical t
  halt : HaltHeld r → HaltHeld t

theorem Held.refl (s : State) : Held s s := ⟨rfl, id, id⟩
/-- A steady operation on the way. -/
theorem Held.on {r s t : State} (h : Held r s) (k : Steady s t) : Held r t := by
  refine ⟨k.pending.trans h.pending, fun c => k.canonical (h.canonical c), fun c => ?_⟩
  have := h.halt c
  unfold HaltHeld at this ⊢
  rw [k.mode, k.target, k.halted]
  exact this
/-- A change of nothing that is watched, for a state written out. -/
theorem Held.lit {r s : State} {a1 a2 a3 a4 a5 a6 a7 a8 a9 a10 a11 a12 a13 a14 a15 a16 a17 a18 a19 a20 a21 a22 a23 a24 a25 a26
      a27 a28 a29 a30 a31 a32 a33 a34 a35 a36 a37 a38 a39 a40 a41 a42 a43 a44 a45} (e : (a1, a7, a14, a15, a16, a18, a19, a20,
      a22, a23, a24, a25, a27, a28, a29, a30, a31, a32, a33, a35, a36.mem, a36.mbx.txRing, a36.mbx.rxRing, a39, a40, a41.halted)
      = (s.pending, s.dict, s.queues, s.lanes, s.groups, s.ports, s.banks, s.slices, s.coefRows, s.streams, s.curves, s.calibs,
      s.posChans, s.compares, s.gens, s.tios, s.motions, s.transports, s.seamsOf, s.rings, s.host.mem, s.host.mbx.txRing,
      s.host.mbx.rxRing, s.mode, s.target, s.power.halted)) (h : Held r s) : Held r (State.mk a1 a2 a3 a4 a5 a6 a7 a8 a9 a10 a11
      a12 a13 a14 a15 a16 a17 a18 a19 a20 a21 a22 a23 a24 a25 a26 a27 a28 a29 a30 a31 a32 a33 a34 a35 a36 a37 a38 a39 a40 a41
      a42 a43 a44 a45) := Held.on h (Steady.lit e (Steady.refl s))

theorem Held.ite {r a b : State} {c : Prop} [Decidable c] (h : Held r a) (k : Held r b) : Held r (if c then a else b) := by
  split
  · exact h
  · exact k

theorem Held.ite1 {α : Type} {r : State} {a b : State × α} {c : Prop} [Decidable c] (h : Held r a.1) (k : Held r b.1) :
    Held r (if c then a else b).1 := by
  split
  · exact h
  · exact k
theorem Held.ite2 {α : Type} {r : State} {a b : α × State} {c : Prop} [Decidable c] (h : Held r a.2) (k : Held r b.2) :
    Held r (if c then a else b).2 := by
  split
  · exact h
  · exact k
theorem Held.ite3 {α β : Type} {r : State} {a b : α × β × State} {c : Prop} [Decidable c] (h : Held r a.2.2) (k : Held r b.2.2) :
    Held r (if c then a else b).2.2 := by
  split
  · exact h
  · exact k

theorem Held.cut {r : State} {P : Prop} (x : State) (h : Held r x) (k : Held r x → P) : P := k h
theorem Held.cut1 {α : Type} {r : State} {P : Prop} (x : State × α) (h : Held r x.1) (k : Held r x.1 → P) : P := k h
theorem Held.cut2 {α : Type} {r : State} {P : Prop} (x : α × State) (h : Held r x.2) (k : Held r x.2 → P) : P := k h

theorem Held.foldl {α : Type} {r s : State} (l : List α) (f : State → α → State) (h : Held r s)
    (k : ∀ s x, Held r s → Held r (f s x)) : Held r (l.foldl f s) := by
  induction l generalizing s with
  | nil => exact h
  | cons x l ih => exact ih (k s x h)

theorem Held.foldl1 {α β : Type} {r : State} {s : State × β} (l : List α) (f : State × β → α → State × β) (h : Held r s.1)
    (k : ∀ s x, Held r s.1 → Held r (f s x).1) : Held r (l.foldl f s).1 := by
  induction l generalizing s with
  | nil => exact h
  | cons x l ih => exact ih (k s x h)
theorem Held.foldl2 {α β : Type} {r : State} {s : β × State} (l : List α) (f : β × State → α → β × State) (h : Held r s.2)
    (k : ∀ s x, Held r s.2 → Held r (f s x).2) : Held r (l.foldl f s).2 := by
  induction l generalizing s with
  | nil => exact h
  | cons x l ih => exact ih (k s x h)

/-- The parts of `watched` that say nothing of the halt. -/
@[reducible] def kept (s : State) :=
  (s.pending, s.dict, s.queues, s.lanes, s.groups, s.ports, s.banks, s.slices, s.coefRows, s.streams, s.curves, s.calibs, s.posChans,
    s.compares, s.gens, s.tios, s.motions, s.transports, s.seamsOf, s.rings, s.host.mem, s.host.mbx.txRing, s.host.mbx.rxRing)

/-- A change of the mode, of its target or of the halt, with what it does to `HaltHeld`. -/
theorem Held.moved {r s t : State} (h : Held r s) (e : kept t = kept s) (k : HaltHeld s → HaltHeld t) : Held r t := by
  simp only [kept, Prod.mk.injEq] at e
  obtain ⟨e1, e2, e3, e4, e5, e6, e7, e8, e9, e10, e11, e12, e13, e14, e15, e16, e17, e18, e19, e20, e21, e22, e23⟩ := e
  refine ⟨e1.trans h.pending, fun c => ?_, fun c => k (h.halt c)⟩
  obtain ⟨c1, c2, c3, c4, c5, c6, c7, c8, c9, c10, c11, c12, c13, c14, c15, c16, c17, c18, c19, c20, c21, c22⟩ := h.canonical c
  constructor <;> simp only [*]

/-- The command ends in a next state that `Held` relates to `r`. -/
def Leads (r : State) (x : Result) : Prop := ∃ t, x = .next t ∧ Held r t
theorem Leads.next {r s : State} (h : Held r s) : Leads r (.next s) := ⟨s, rfl, h⟩
theorem Held.stateOf {r s : State} {x : Result} (k : Leads r x) : Held r (stateOf s x) := by
  obtain ⟨t, rfl, k⟩ := k
  exact k
theorem Leads.ite {r : State} {a b : Result} {c : Prop} [Decidable c] (h : Leads r a) (k : Leads r b) : Leads r (if c then a else b) := by
  split
  · exact h
  · exact k
theorem Leads.on {r s : State} {x : Result} (h : Held r s) (k : Ends s x) : Leads r x := by
  obtain ⟨t, e, k⟩ := k
  exact ⟨t, e, Held.on h k⟩
theorem Leads.of_ends {r : State} {x : Result} (h : Ends r x) : Leads r x := by
  obtain ⟨t, e, k⟩ := h
  exact ⟨t, e, Held.on (Held.refl r) k⟩

end Sys2Proof.Machine
end

