-- ==== Sys2Proof/Laws/SteadyOps.lean ====
section
/-! SUPPORT. What the operations of Machine/Ops.lean keep. -/
namespace Sys2Proof.Machine

set_option linter.unusedTactic false
set_option linter.unreachableTactic false

theorem State.count_steady (o : Obj) (n : Nat) {r0 s : State} (h0 : Steady r0 s) : Steady r0 (State.count s o n) := by
  unfold State.count
  repeat' first
    | with_reducible assumption
    | with_reducible apply State.setReg_steady

theorem State.countWrap_steady (o : Obj) (n : Nat) {r0 s : State} (h0 : Steady r0 s) : Steady r0 (State.countWrap s o n) := by
  unfold State.countWrap
  repeat' first
    | with_reducible assumption
    | with_reducible apply State.setReg_steady

theorem State.free_steady (n : Nat) {r0 s : State} (h0 : Steady r0 s) : Steady r0 (State.free s n).2 := by
  unfold State.free
  repeat' first
    | with_reducible assumption
    | with_reducible apply Steady.ite2
    | fail_if_no_progress (with_reducible refine Steady.lit (s := _) rfl ?_)

theorem State.emits_steady (os : List Output) {r0 s : State} (h0 : Steady r0 s) : Steady r0 (State.emits s os) := by
  unfold State.emits
  repeat' first
    | with_reducible assumption
    | with_reducible refine Steady.foldl _ _ ?_ (fun _ _ _ => ?_)
    | with_reducible apply State.emit_steady

theorem State.setChan_steady (n : Nat) (x : DltChan) {r0 s : State} (h0 : Steady r0 s) : Steady r0 (State.setChan s n x) := by
  unfold State.setChan
  repeat' first
    | with_reducible assumption
    | fail_if_no_progress (with_reducible refine Steady.lit (s := _) rfl ?_)

theorem State.updChan_steady (n : Nat) (f : DltChan → DltChan) {r0 s : State} (h0 : Steady r0 s) : Steady r0 (State.updChan s n f) := by
  unfold State.updChan
  repeat' first
    | with_reducible assumption
    | with_reducible apply State.setChan_steady

theorem State.setTx_steady (n : Nat) (l : List Tx) {r0 s : State} (h0 : Steady r0 s) : Steady r0 (State.setTx s n l) := by
  unfold State.setTx
  repeat' first
    | with_reducible assumption
    | with_reducible apply Steady.ite
    | with_reducible apply State.updChan_steady
    | fail_if_no_progress (with_reducible refine Steady.lit (s := _) rfl ?_)
    | split

theorem enq_steady (n : Nat) (o : Output) {r0 s : State} (h0 : Steady r0 s) : Steady r0 (enq n o s) := by
  unfold enq
  repeat' first
    | with_reducible assumption
    | with_reducible apply State.setTx_steady

theorem dropLineEnds_steady (p : Nat → Bool) {r0 s : State} (h0 : Steady r0 s) : Steady r0 (dropLineEnds p s) := by
  unfold dropLineEnds
  repeat' first
    | with_reducible assumption
    | with_reducible refine Steady.foldl _ _ ?_ (fun _ _ _ => ?_)
    | with_reducible apply State.updChan_steady
    | fail_if_no_progress (with_reducible refine Steady.lit (s := _) rfl ?_)
    | split

theorem enqs_steady (n : Nat) (os : List Output) {r0 s : State} (h0 : Steady r0 s) : Steady r0 (enqs n os s) := by
  unfold enqs
  repeat' first
    | with_reducible assumption
    | with_reducible refine Steady.foldl _ _ ?_ (fun _ _ _ => ?_)
    | with_reducible apply enq_steady

theorem sendVector_steady (n v : Nat) {r0 s : State} (h0 : Steady r0 s) : Steady r0 (sendVector n v s) := by
  unfold sendVector
  repeat' first
    | (extract_lets +onlyGivenNames x; refine Steady.cut (r := r0) x ?_ (fun hx => ?_); unfold x; clear x; rotate_left; clear_value x)
    | (extract_lets +onlyGivenNames x; unfold x; clear x)
    | with_reducible assumption
    | with_reducible apply Steady.ite
    | with_reducible apply enq_steady
    | fail_if_no_progress (with_reducible refine Steady.lit (s := _) rfl ?_)
    | split

theorem rxVector_steady  {r0 s : State} (h0 : Steady r0 s) : Steady r0 (rxVector s) := by
  unfold rxVector
  repeat' first
    | (extract_lets +onlyGivenNames x; refine Steady.cut (r := r0) x ?_ (fun hx => ?_); unfold x; clear x; rotate_left; clear_value x)
    | (extract_lets +onlyGivenNames x; unfold x; clear x)
    | with_reducible assumption
    | with_reducible apply Steady.ite
    | with_reducible apply sendVector_steady
    | fail_if_no_progress (with_reducible refine Steady.lit (s := _) rfl ?_)
    | split

theorem txVector_steady  {r0 s : State} (h0 : Steady r0 s) : Steady r0 (txVector s) := by
  unfold txVector
  repeat' first
    | (extract_lets +onlyGivenNames x; refine Steady.cut (r := r0) x ?_ (fun hx => ?_); unfold x; clear x; rotate_left; clear_value x)
    | (extract_lets +onlyGivenNames x; unfold x; clear x)
    | with_reducible assumption
    | with_reducible apply Steady.ite
    | with_reducible apply sendVector_steady
    | fail_if_no_progress (with_reducible refine Steady.lit (s := _) rfl ?_)
    | split

theorem mbxFill_steady (p : Bytes) {r0 s : State} (h0 : Steady r0 s) : Steady r0 (mbxFill p s) := by
  unfold mbxFill
  apply rxVector_steady
  exact Steady.table h0 rfl rfl rfl rfl fun c => { c with rxRing := Memory.wf_writeN _ _ _ c.rxRing }

theorem mbxPost_steady (p : Bytes) {r0 s : State} (h0 : Steady r0 s) : Steady r0 (mbxPost p s) := by
  unfold mbxPost
  repeat' first
    | (extract_lets +onlyGivenNames x; refine Steady.cut (r := r0) x ?_ (fun hx => ?_); unfold x; clear x; rotate_left; clear_value x)
    | (extract_lets +onlyGivenNames x; unfold x; clear x)
    | with_reducible assumption
    | with_reducible apply Steady.ite
    | with_reducible apply mbxFill_steady
    | fail_if_no_progress (with_reducible refine Steady.lit (s := _) rfl ?_)
    | split

theorem updSession_steady (num : Nat) (f : Session → Session) {r0 s : State} (h0 : Steady r0 s) : Steady r0 (updSession num f s) := by
  unfold updSession
  repeat' first
    | with_reducible assumption
    | with_reducible apply Steady.ite
    | fail_if_no_progress (with_reducible refine Steady.lit (s := _) rfl ?_)
    | split

theorem sendKdp_steady (mailbox : Bool) (dst op seq session flags error : Nat) (payload : Bytes) {r0 s : State} (h0 : Steady r0 s) : Steady r0 (sendKdp mailbox dst op seq session flags error payload s) := by
  unfold sendKdp
  repeat' first
    | (extract_lets +onlyGivenNames x; refine Steady.cut (r := r0) x ?_ (fun hx => ?_); unfold x; clear x; rotate_left; clear_value x)
    | (extract_lets +onlyGivenNames x; unfold x; clear x)
    | with_reducible assumption
    | with_reducible apply Steady.ite
    | with_reducible apply updSession_steady
    | with_reducible apply State.emit_steady
    | with_reducible apply mbxPost_steady
    | fail_if_no_progress (with_reducible refine Steady.lit (s := _) rfl ?_)
    | split

theorem routeEvent_steady (mailbox : Bool) (r : EventRoute) (dest : Nat × Nat) (e : EventRec) {r0 s : State} (h0 : Steady r0 s) : Steady r0 (routeEvent mailbox r dest e s).2 := by
  unfold routeEvent
  repeat' first
    | (extract_lets +onlyGivenNames x; refine Steady.cut (r := r0) x ?_ (fun hx => ?_); unfold x; clear x; rotate_left; clear_value x)
    | (extract_lets +onlyGivenNames x; refine Steady.cut2 (r := r0) x ?_ (fun hx => ?_); unfold x; clear x; rotate_left; clear_value x)
    | (extract_lets +onlyGivenNames x; refine Steady.cut1 (r := r0) x ?_ (fun hx => ?_); unfold x; clear x; rotate_left; clear_value x)
    | (extract_lets +onlyGivenNames x; unfold x; clear x)
    | with_reducible assumption
    | with_reducible apply Steady.ite
    | with_reducible apply Steady.ite2
    | with_reducible apply State.count_steady
    | with_reducible apply sendKdp_steady
    | with_reducible apply sendVector_steady
    | fail_if_no_progress (with_reducible refine Steady.lit (s := _) rfl ?_)
    | split

theorem tellNet_steady (e : EventRec) {r0 s : State} (h0 : Steady r0 s) : Steady r0 (tellNet e s) := by
  unfold tellNet
  repeat' first
    | (extract_lets +onlyGivenNames x; refine Steady.cut (r := r0) x ?_ (fun hx => ?_); unfold x; clear x; rotate_left; clear_value x)
    | (extract_lets +onlyGivenNames x; refine Steady.cut2 (r := r0) x ?_ (fun hx => ?_); unfold x; clear x; rotate_left; clear_value x)
    | (extract_lets +onlyGivenNames x; refine Steady.cut1 (r := r0) x ?_ (fun hx => ?_); unfold x; clear x; rotate_left; clear_value x)
    | (extract_lets +onlyGivenNames x; unfold x; clear x)
    | with_reducible assumption
    | with_reducible apply Steady.ite
    | with_reducible apply routeEvent_steady
    | fail_if_no_progress (with_reducible refine Steady.lit (s := _) rfl ?_)
    | split

theorem tellMail_steady (e : EventRec) {r0 s : State} (h0 : Steady r0 s) : Steady r0 (tellMail e s) := by
  unfold tellMail
  repeat' first
    | (extract_lets +onlyGivenNames x; refine Steady.cut (r := r0) x ?_ (fun hx => ?_); unfold x; clear x; rotate_left; clear_value x)
    | (extract_lets +onlyGivenNames x; refine Steady.cut2 (r := r0) x ?_ (fun hx => ?_); unfold x; clear x; rotate_left; clear_value x)
    | (extract_lets +onlyGivenNames x; refine Steady.cut1 (r := r0) x ?_ (fun hx => ?_); unfold x; clear x; rotate_left; clear_value x)
    | (extract_lets +onlyGivenNames x; unfold x; clear x)
    | with_reducible assumption
    | with_reducible apply Steady.ite
    | with_reducible apply routeEvent_steady
    | fail_if_no_progress (with_reducible refine Steady.lit (s := _) rfl ?_)
    | split

theorem State.raise_steady (n : EventName) (args : List Int) (severity : Nat) {r0 s : State} (h0 : Steady r0 s) : Steady r0 (State.raise s n args severity) := by
  unfold State.raise
  repeat' first
    | (extract_lets +onlyGivenNames x; refine Steady.cut (r := r0) x ?_ (fun hx => ?_); unfold x; clear x; rotate_left; clear_value x)
    | (extract_lets +onlyGivenNames x; unfold x; clear x)
    | with_reducible assumption
    | with_reducible apply Steady.ite
    | with_reducible apply State.countWrap_steady
    | with_reducible apply tellMail_steady
    | with_reducible apply tellNet_steady
    | fail_if_no_progress (with_reducible refine Steady.lit (s := _) rfl ?_)
    | split

theorem countReport_steady (r : FaultReport) {r0 s : State} (h0 : Steady r0 s) : Steady r0 (countReport r s) := by
  unfold countReport
  repeat' first
    | (extract_lets +onlyGivenNames x; refine Steady.cut (r := r0) x ?_ (fun hx => ?_); unfold x; clear x; rotate_left; clear_value x)
    | (extract_lets +onlyGivenNames x; unfold x; clear x)
    | with_reducible assumption
    | with_reducible apply State.setReg_steady
    | with_reducible apply State.count_steady

theorem State.report_steady (kind severity detail : Nat) (plane : Nat) (island : Nat) {r0 s : State} (h0 : Steady r0 s) : Steady r0 (State.report s kind severity detail plane island) := by
  unfold State.report
  repeat' first
    | (extract_lets +onlyGivenNames x; refine Steady.cut (r := r0) x ?_ (fun hx => ?_); unfold x; clear x; rotate_left; clear_value x)
    | (extract_lets +onlyGivenNames x; unfold x; clear x)
    | with_reducible assumption
    | with_reducible apply countReport_steady
    | fail_if_no_progress (with_reducible refine Steady.lit (s := _) rfl ?_)

theorem State.raiseFault_steady (n : EventName) (args : List Int) (kind severity detail : Nat) (plane : Nat) (island : Nat) {r0 s : State} (h0 : Steady r0 s) : Steady r0 (State.raiseFault s n args kind severity detail plane island) := by
  unfold State.raiseFault
  repeat' first
    | with_reducible assumption
    | with_reducible apply State.raise_steady
    | with_reducible apply State.report_steady

theorem State.updXpoint_steady (n : Nat) (f : Crosspoint → Crosspoint) {r0 s : State} (h0 : Steady r0 s) : Steady r0 (State.updXpoint s n f) := by
  unfold State.updXpoint
  repeat' first
    | with_reducible assumption
    | fail_if_no_progress (with_reducible refine Steady.lit (s := _) rfl ?_)

end Sys2Proof.Machine
end

