-- ==== Sys2Proof/Laws/SteadyBlocks.lean ====
section
/-! SUPPORT. What the operations of Machine/Blocks.lean keep. -/
namespace Sys2Proof.Machine

set_option linter.unusedTactic false
set_option linter.unreachableTactic false

theorem sendBlocks_steady (l : Nat) (blocks : List (Nat × Nat)) {r0 s : State} (h0 : Steady r0 s) : Steady r0 (sendBlocks l blocks s) := by
  unfold sendBlocks
  repeat' first
    | (extract_lets +onlyGivenNames x; refine Steady.cut (r := r0) x ?_ (fun hx => ?_); unfold x; clear x; rotate_left; clear_value x)
    | (extract_lets +onlyGivenNames x; refine Steady.cut2 (r := r0) x ?_ (fun hx => ?_); unfold x; clear x; rotate_left; clear_value x)
    | (extract_lets +onlyGivenNames x; refine Steady.cut1 (r := r0) x ?_ (fun hx => ?_); unfold x; clear x; rotate_left; clear_value x)
    | (extract_lets +onlyGivenNames x; unfold x; clear x)
    | with_reducible assumption
    | with_reducible apply Steady.ite
    | with_reducible apply State.updLane_steady
    | with_reducible apply State.emit_steady
    | fail_if_no_progress (with_reducible refine Steady.lit (s := _) rfl ?_)
    | split

theorem sendCtl_steady (l subtype seq body : Nat) {r0 s : State} (h0 : Steady r0 s) : Steady r0 (sendCtl l subtype seq body s) := by
  unfold sendCtl
  repeat' first
    | with_reducible assumption
    | with_reducible apply sendBlocks_steady

theorem sendMsg_steady (l subtype body n : Nat) {r0 s : State} (h0 : Steady r0 s) : Steady r0 (sendMsg l subtype body n s) := by
  unfold sendMsg
  repeat' first
    | (extract_lets +onlyGivenNames x; refine Steady.cut (r := r0) x ?_ (fun hx => ?_); unfold x; clear x; rotate_left; clear_value x)
    | (extract_lets +onlyGivenNames x; unfold x; clear x)
    | with_reducible assumption
    | with_reducible apply sendBlocks_steady
    | with_reducible apply State.updLane_steady
    | fail_if_no_progress (with_reducible refine Steady.lit (s := _) rfl ?_)

theorem wakeBack_steady (l : Nat) {r0 s : State} (h0 : Steady r0 s) : Steady r0 (wakeBack l s) := by
  unfold wakeBack
  repeat' first
    | with_reducible assumption
    | with_reducible apply sendBlocks_steady

theorem distribute_steady  {r0 s : State} (h0 : Steady r0 s) : Steady r0 (distribute s) := by
  unfold distribute
  repeat' first
    | with_reducible assumption
    | fail_if_no_progress (with_reducible refine Steady.lit (s := _) rfl ?_)

theorem noteIngest_steady (cls bits : Nat) {r0 s : State} (h0 : Steady r0 s) : Steady r0 (noteIngest cls bits s) := by
  unfold noteIngest
  repeat' first
    | with_reducible assumption
    | with_reducible apply Steady.ite
    | fail_if_no_progress (with_reducible refine Steady.lit (s := _) rfl ?_)
    | split

end Sys2Proof.Machine
end

