-- ==== Sys2Proof/Laws/SteadyLanes.lean ====
section
/-! SUPPORT. What the operations of Machine/Lanes.lean keep. -/
namespace Sys2Proof.Machine

set_option linter.unusedTactic false
set_option linter.unreachableTactic false

theorem enterLane_steady (l : Nat) (st : LaneState) {r0 s : State} (h0 : Steady r0 s) : Steady r0 (enterLane l st s) := by
  unfold enterLane
  repeat' first
    | (extract_lets +onlyGivenNames x; refine Steady.cut (r := r0) x ?_ (fun hx => ?_); unfold x; clear x; rotate_left; clear_value x)
    | (extract_lets +onlyGivenNames x; unfold x; clear x)
    | with_reducible assumption
    | with_reducible apply Steady.ite
    | with_reducible apply State.updLane_steady
    | with_reducible apply State.raise_steady
    | with_reducible apply State.updGroup_steady
    | fail_if_no_progress (with_reducible refine Steady.lit (s := _) rfl ?_)
    | split

theorem ctleStep_steady (l wanted : Nat) {r0 s : State} (h0 : Steady r0 s) : Steady r0 (ctleStep l wanted s) := by
  unfold ctleStep
  repeat' first
    | (extract_lets +onlyGivenNames x; refine Steady.cut (r := r0) x ?_ (fun hx => ?_); unfold x; clear x; rotate_left; clear_value x)
    | (extract_lets +onlyGivenNames x; unfold x; clear x)
    | with_reducible assumption
    | with_reducible apply Steady.ite
    | with_reducible apply State.updLane_steady
    | with_reducible apply State.raise_steady
    | fail_if_no_progress (with_reducible refine Steady.lit (s := _) rfl ?_)
    | split

theorem loseAlign_steady (l : Nat) {r0 s : State} (h0 : Steady r0 s) : Steady r0 (loseAlign l s) := by
  unfold loseAlign
  repeat' first
    | (extract_lets +onlyGivenNames x; refine Steady.cut (r := r0) x ?_ (fun hx => ?_); unfold x; clear x; rotate_left; clear_value x)
    | (extract_lets +onlyGivenNames x; unfold x; clear x)
    | with_reducible assumption
    | with_reducible apply Steady.ite
    | with_reducible apply State.updLane_steady
    | with_reducible apply State.raiseFault_steady
    | with_reducible apply enterLane_steady
    | fail_if_no_progress (with_reducible refine Steady.lit (s := _) rfl ?_)
    | split

theorem checkAligns_steady (g : Nat) (inStep : List Nat) {r0 s : State} (h0 : Steady r0 s) : Steady r0 (checkAligns g inStep s) := by
  unfold checkAligns
  repeat' first
    | (extract_lets +onlyGivenNames x; refine Steady.cut (r := r0) x ?_ (fun hx => ?_); unfold x; clear x; rotate_left; clear_value x)
    | (extract_lets +onlyGivenNames x; refine Steady.cut2 (r := r0) x ?_ (fun hx => ?_); unfold x; clear x; rotate_left; clear_value x)
    | (extract_lets +onlyGivenNames x; refine Steady.cut1 (r := r0) x ?_ (fun hx => ?_); unfold x; clear x; rotate_left; clear_value x)
    | (extract_lets +onlyGivenNames x; unfold x; clear x)
    | with_reducible assumption
    | with_reducible apply Steady.ite
    | with_reducible refine Steady.foldl2 _ _ ?_ (fun _ _ _ => ?_)
    | with_reducible refine Steady.foldl _ _ ?_ (fun _ _ _ => ?_)
    | with_reducible apply loseAlign_steady
    | with_reducible apply State.raise_steady
    | fail_if_no_progress (with_reducible refine Steady.lit (s := _) rfl ?_)
    | split

theorem deskewGroup_steady (set : List Nat) {r0 s : State} (h0 : Steady r0 s) : Steady r0 (deskewGroup set s) := by
  unfold deskewGroup
  repeat' first
    | (extract_lets +onlyGivenNames x; refine Steady.cut (r := r0) x ?_ (fun hx => ?_); unfold x; clear x; rotate_left; clear_value x)
    | (extract_lets +onlyGivenNames x; unfold x; clear x)
    | with_reducible assumption
    | with_reducible apply Steady.ite
    | with_reducible refine Steady.foldl _ _ ?_ (fun _ _ _ => ?_)
    | with_reducible apply State.setReg_steady
    | with_reducible apply State.updLane_steady
    | with_reducible apply enterLane_steady
    | fail_if_no_progress (with_reducible refine Steady.lit (s := _) rfl ?_)
    | split

theorem meetAligns_steady (g l seq : Nat) {r0 s : State} (h0 : Steady r0 s) : Steady r0 (meetAligns g l seq s) := by
  unfold meetAligns
  repeat' first
    | (extract_lets +onlyGivenNames x; refine Steady.cut (r := r0) x ?_ (fun hx => ?_); unfold x; clear x; rotate_left; clear_value x)
    | (extract_lets +onlyGivenNames x; unfold x; clear x)
    | with_reducible assumption
    | with_reducible apply Steady.ite
    | with_reducible apply checkAligns_steady
    | with_reducible apply deskewGroup_steady
    | split

theorem alignArrives_steady (l w : Nat) {r0 s : State} (h0 : Steady r0 s) : Steady r0 (alignArrives l w s) := by
  unfold alignArrives
  repeat' first
    | (extract_lets +onlyGivenNames x; refine Steady.cut (r := r0) x ?_ (fun hx => ?_); unfold x; clear x; rotate_left; clear_value x)
    | (extract_lets +onlyGivenNames x; unfold x; clear x)
    | with_reducible assumption
    | with_reducible apply Steady.ite
    | with_reducible apply State.updLane_steady
    | with_reducible apply loseAlign_steady
    | with_reducible apply enterLane_steady
    | with_reducible apply meetAligns_steady
    | fail_if_no_progress (with_reducible refine Steady.lit (s := _) rfl ?_)
    | split

theorem execBlockLock_steady (l : Fin 104) {r0 s : State} (h0 : Steady r0 s) : Ends r0 (execBlockLock l s) := by
  unfold execBlockLock
  repeat' first
    | (extract_lets +onlyGivenNames x; refine Steady.cut (r := r0) x ?_ (fun hx => ?_); unfold x; clear x; rotate_left; clear_value x)
    | (extract_lets +onlyGivenNames x; unfold x; clear x)
    | with_reducible assumption
    | with_reducible apply Ends.next
    | with_reducible apply Ends.ite
    | with_reducible apply Steady.ite
    | with_reducible apply State.updLane_steady
    | fail_if_no_progress (with_reducible refine Steady.lit (s := _) rfl ?_)
    | split

theorem loseBlockLock_steady (l : Nat) {r0 s : State} (h0 : Steady r0 s) : Steady r0 (loseBlockLock l s) := by
  unfold loseBlockLock
  repeat' first
    | (extract_lets +onlyGivenNames x; refine Steady.cut (r := r0) x ?_ (fun hx => ?_); unfold x; clear x; rotate_left; clear_value x)
    | (extract_lets +onlyGivenNames x; unfold x; clear x)
    | with_reducible assumption
    | with_reducible apply Steady.ite
    | with_reducible apply State.updLane_steady
    | with_reducible apply State.count_steady
    | with_reducible apply State.raiseFault_steady
    | with_reducible apply State.updGroup_steady
    | with_reducible apply enterLane_steady
    | fail_if_no_progress (with_reducible refine Steady.lit (s := _) rfl ?_)
    | split

theorem execLaneLockLoss_steady (l : Fin 104) {r0 s : State} (h0 : Steady r0 s) : Ends r0 (execLaneLockLoss l s) := by
  unfold execLaneLockLoss
  repeat' first
    | (extract_lets +onlyGivenNames x; refine Steady.cut (r := r0) x ?_ (fun hx => ?_); unfold x; clear x; rotate_left; clear_value x)
    | (extract_lets +onlyGivenNames x; unfold x; clear x)
    | with_reducible assumption
    | with_reducible apply Ends.next
    | with_reducible apply Ends.ite
    | with_reducible apply Steady.ite
    | with_reducible apply loseBlockLock_steady
    | split

theorem execSignalLost_steady (l : Fin 104) {r0 s : State} (h0 : Steady r0 s) : Ends r0 (execSignalLost l s) := by
  unfold execSignalLost
  repeat' first
    | (extract_lets +onlyGivenNames x; refine Steady.cut (r := r0) x ?_ (fun hx => ?_); unfold x; clear x; rotate_left; clear_value x)
    | (extract_lets +onlyGivenNames x; unfold x; clear x)
    | with_reducible assumption
    | with_reducible apply Ends.next
    | with_reducible apply Ends.ite
    | with_reducible apply Steady.ite
    | with_reducible apply State.updLane_steady
    | with_reducible apply loseBlockLock_steady
    | fail_if_no_progress (with_reducible refine Steady.lit (s := _) rfl ?_)
    | split

theorem execAlignBlock_steady (l : Fin 104) (payload : BitVec 64) {r0 s : State} (h0 : Steady r0 s) : Ends r0 (execAlignBlock l payload s) := by
  unfold execAlignBlock
  repeat' first
    | (extract_lets +onlyGivenNames x; refine Steady.cut (r := r0) x ?_ (fun hx => ?_); unfold x; clear x; rotate_left; clear_value x)
    | (extract_lets +onlyGivenNames x; unfold x; clear x)
    | with_reducible assumption
    | with_reducible apply Ends.next
    | with_reducible apply Ends.ite
    | with_reducible apply Steady.ite
    | with_reducible apply alignArrives_steady
    | split

theorem execAlignLoss_steady (l : Fin 104) {r0 s : State} (h0 : Steady r0 s) : Ends r0 (execAlignLoss l s) := by
  unfold execAlignLoss
  repeat' first
    | (extract_lets +onlyGivenNames x; refine Steady.cut (r := r0) x ?_ (fun hx => ?_); unfold x; clear x; rotate_left; clear_value x)
    | (extract_lets +onlyGivenNames x; unfold x; clear x)
    | with_reducible assumption
    | with_reducible apply Ends.next
    | with_reducible apply Ends.ite
    | with_reducible apply Steady.ite
    | with_reducible apply loseAlign_steady
    | with_reducible apply State.updLane_steady
    | fail_if_no_progress (with_reducible refine Steady.lit (s := _) rfl ?_)
    | split

theorem execFillerBlock_steady (l : Fin 104) (fill : Int) (allFiller : Bool) {r0 s : State} (h0 : Steady r0 s) : Ends r0 (execFillerBlock l fill allFiller s) := by
  unfold execFillerBlock
  repeat' first
    | (extract_lets +onlyGivenNames x; refine Steady.cut (r := r0) x ?_ (fun hx => ?_); unfold x; clear x; rotate_left; clear_value x)
    | (extract_lets +onlyGivenNames x; unfold x; clear x)
    | with_reducible assumption
    | with_reducible apply Ends.next
    | with_reducible apply Ends.ite
    | with_reducible apply Steady.ite
    | with_reducible refine Steady.foldl _ _ ?_ (fun _ _ _ => ?_)
    | with_reducible apply State.updGroup_steady
    | with_reducible apply State.countWrap_steady
    | fail_if_no_progress (with_reducible refine Steady.lit (s := _) rfl ?_)
    | split

theorem execDeskewFail_steady (g : Fin 96) {r0 s : State} (h0 : Steady r0 s) : Ends r0 (execDeskewFail g s) := by
  unfold execDeskewFail
  repeat' first
    | (extract_lets +onlyGivenNames x; refine Steady.cut (r := r0) x ?_ (fun hx => ?_); unfold x; clear x; rotate_left; clear_value x)
    | (extract_lets +onlyGivenNames x; refine Steady.cut2 (r := r0) x ?_ (fun hx => ?_); unfold x; clear x; rotate_left; clear_value x)
    | (extract_lets +onlyGivenNames x; refine Steady.cut1 (r := r0) x ?_ (fun hx => ?_); unfold x; clear x; rotate_left; clear_value x)
    | (extract_lets +onlyGivenNames x; unfold x; clear x)
    | with_reducible assumption
    | with_reducible apply Ends.next
    | with_reducible apply Ends.ite
    | with_reducible apply Steady.ite
    | with_reducible refine Steady.foldl1 _ _ ?_ (fun _ _ _ => ?_)
    | with_reducible refine Steady.foldl2 _ _ ?_ (fun _ _ _ => ?_)
    | with_reducible refine Steady.foldl _ _ ?_ (fun _ _ _ => ?_)
    | with_reducible apply State.updLane_steady
    | with_reducible apply State.raise_steady
    | fail_if_no_progress (with_reducible refine Steady.lit (s := _) rfl ?_)
    | split

theorem spareReturns_steady (g l : Nat) {r0 s : State} (h0 : Steady r0 s) : Steady r0 (spareReturns g l s) := by
  unfold spareReturns
  repeat' first
    | (extract_lets +onlyGivenNames x; refine Steady.cut (r := r0) x ?_ (fun hx => ?_); unfold x; clear x; rotate_left; clear_value x)
    | (extract_lets +onlyGivenNames x; unfold x; clear x)
    | with_reducible assumption
    | with_reducible apply Steady.ite
    | with_reducible apply State.updGroup_steady
    | with_reducible apply wakeBack_steady
    | fail_if_no_progress (with_reducible refine Steady.lit (s := _) rfl ?_)
    | split

theorem trainingEnds_steady (l : Nat) {r0 s : State} (h0 : Steady r0 s) : Steady r0 (trainingEnds l s) := by
  unfold trainingEnds
  repeat' first
    | (extract_lets +onlyGivenNames x; refine Steady.cut (r := r0) x ?_ (fun hx => ?_); unfold x; clear x; rotate_left; clear_value x)
    | (extract_lets +onlyGivenNames x; unfold x; clear x)
    | with_reducible assumption
    | with_reducible apply Steady.ite
    | with_reducible apply enterLane_steady
    | with_reducible apply State.updGroup_steady
    | with_reducible apply spareReturns_steady
    | fail_if_no_progress (with_reducible refine Steady.lit (s := _) rfl ?_)
    | split

theorem sendTraining_steady (l : Nat) {r0 s : State} (h0 : Steady r0 s) : Steady r0 (sendTraining l s) := by
  unfold sendTraining
  repeat' first
    | (extract_lets +onlyGivenNames x; refine Steady.cut (r := r0) x ?_ (fun hx => ?_); unfold x; clear x; rotate_left; clear_value x)
    | (extract_lets +onlyGivenNames x; refine Steady.cut2 (r := r0) x ?_ (fun hx => ?_); unfold x; clear x; rotate_left; clear_value x)
    | (extract_lets +onlyGivenNames x; refine Steady.cut1 (r := r0) x ?_ (fun hx => ?_); unfold x; clear x; rotate_left; clear_value x)
    | (extract_lets +onlyGivenNames x; unfold x; clear x)
    | with_reducible assumption
    | with_reducible apply Steady.ite
    | with_reducible apply State.updLane_steady
    | with_reducible apply State.raise_steady
    | with_reducible apply sendCtl_steady
    | with_reducible apply trainingEnds_steady
    | fail_if_no_progress (with_reducible refine Steady.lit (s := _) rfl ?_)
    | split

theorem execTrainReq_steady (l : Fin 104) {r0 s : State} (h0 : Steady r0 s) : Ends r0 (execTrainReq l s) := by
  unfold execTrainReq
  repeat' first
    | (extract_lets +onlyGivenNames x; refine Steady.cut (r := r0) x ?_ (fun hx => ?_); unfold x; clear x; rotate_left; clear_value x)
    | (extract_lets +onlyGivenNames x; unfold x; clear x)
    | with_reducible assumption
    | with_reducible apply Ends.next
    | with_reducible apply Ends.ite
    | with_reducible apply Steady.ite
    | with_reducible apply sendCtl_steady
    | with_reducible apply sendTraining_steady
    | split

theorem execTrainSts_steady (l : Fin 104) (seq : BitVec 8) (body : BitVec 32) {r0 s : State} (h0 : Steady r0 s) : Ends r0 (execTrainSts l seq body s) := by
  unfold execTrainSts
  repeat' first
    | (extract_lets +onlyGivenNames x; refine Steady.cut (r := r0) x ?_ (fun hx => ?_); unfold x; clear x; rotate_left; clear_value x)
    | (extract_lets +onlyGivenNames x; refine Steady.cut2 (r := r0) x ?_ (fun hx => ?_); unfold x; clear x; rotate_left; clear_value x)
    | (extract_lets +onlyGivenNames x; refine Steady.cut1 (r := r0) x ?_ (fun hx => ?_); unfold x; clear x; rotate_left; clear_value x)
    | (extract_lets +onlyGivenNames x; unfold x; clear x)
    | with_reducible assumption
    | with_reducible apply Ends.next
    | with_reducible apply Ends.ite
    | with_reducible apply Steady.ite
    | with_reducible apply State.updLane_steady
    | with_reducible apply State.setReg_steady
    | with_reducible apply sendTraining_steady
    | fail_if_no_progress (with_reducible refine Steady.lit (s := _) rfl ?_)
    | split

theorem trainingFails_steady (l : Nat) {r0 s : State} (h0 : Steady r0 s) : Steady r0 (trainingFails l s) := by
  unfold trainingFails
  repeat' first
    | (extract_lets +onlyGivenNames x; refine Steady.cut (r := r0) x ?_ (fun hx => ?_); unfold x; clear x; rotate_left; clear_value x)
    | (extract_lets +onlyGivenNames x; unfold x; clear x)
    | with_reducible assumption
    | with_reducible apply State.updLane_steady
    | with_reducible apply enterLane_steady
    | with_reducible apply State.raiseFault_steady
    | fail_if_no_progress (with_reducible refine Steady.lit (s := _) rfl ?_)

theorem execTrainStepTimeout_steady (l : Fin 104) {r0 s : State} (h0 : Steady r0 s) : Ends r0 (execTrainStepTimeout l s) := by
  unfold execTrainStepTimeout
  repeat' first
    | (extract_lets +onlyGivenNames x; refine Steady.cut (r := r0) x ?_ (fun hx => ?_); unfold x; clear x; rotate_left; clear_value x)
    | (extract_lets +onlyGivenNames x; unfold x; clear x)
    | with_reducible assumption
    | with_reducible apply Ends.next
    | with_reducible apply Ends.ite
    | with_reducible apply Steady.ite
    | with_reducible apply sendCtl_steady
    | with_reducible apply State.updLane_steady
    | with_reducible apply trainingFails_steady
    | fail_if_no_progress (with_reducible refine Steady.lit (s := _) rfl ?_)
    | split

theorem execLaneTrainFail_steady (l : Fin 104) {r0 s : State} (h0 : Steady r0 s) : Ends r0 (execLaneTrainFail l s) := by
  unfold execLaneTrainFail
  repeat' first
    | (extract_lets +onlyGivenNames x; refine Steady.cut (r := r0) x ?_ (fun hx => ?_); unfold x; clear x; rotate_left; clear_value x)
    | (extract_lets +onlyGivenNames x; unfold x; clear x)
    | with_reducible assumption
    | with_reducible apply Ends.next
    | with_reducible apply Ends.ite
    | with_reducible apply Steady.ite
    | with_reducible apply trainingFails_steady
    | split

theorem execAdaptationFreeze_steady (l : Fin 104) {r0 s : State} (h0 : Steady r0 s) : Ends r0 (execAdaptationFreeze l s) := by
  unfold execAdaptationFreeze
  repeat' first
    | (extract_lets +onlyGivenNames x; refine Steady.cut (r := r0) x ?_ (fun hx => ?_); unfold x; clear x; rotate_left; clear_value x)
    | (extract_lets +onlyGivenNames x; unfold x; clear x)
    | with_reducible assumption
    | with_reducible apply Ends.next
    | with_reducible apply Ends.ite
    | with_reducible apply Steady.ite
    | with_reducible apply State.updLane_steady
    | fail_if_no_progress (with_reducible refine Steady.lit (s := _) rfl ?_)
    | split

theorem execAdaptationResume_steady (l : Fin 104) {r0 s : State} (h0 : Steady r0 s) : Ends r0 (execAdaptationResume l s) := by
  unfold execAdaptationResume
  repeat' first
    | (extract_lets +onlyGivenNames x; refine Steady.cut (r := r0) x ?_ (fun hx => ?_); unfold x; clear x; rotate_left; clear_value x)
    | (extract_lets +onlyGivenNames x; unfold x; clear x)
    | with_reducible assumption
    | with_reducible apply Ends.next
    | with_reducible apply Ends.ite
    | with_reducible apply Steady.ite
    | with_reducible apply State.updLane_steady
    | fail_if_no_progress (with_reducible refine Steady.lit (s := _) rfl ?_)
    | split

theorem sweepOfSpare_steady (l m : Nat) {r0 s : State} (h0 : Steady r0 s) : Steady r0 (sweepOfSpare l m s) := by
  unfold sweepOfSpare
  repeat' first
    | (extract_lets +onlyGivenNames x; refine Steady.cut (r := r0) x ?_ (fun hx => ?_); unfold x; clear x; rotate_left; clear_value x)
    | (extract_lets +onlyGivenNames x; unfold x; clear x)
    | with_reducible assumption
    | with_reducible apply Steady.ite
    | with_reducible apply enterLane_steady
    | with_reducible apply State.updLane_steady
    | with_reducible apply spareReturns_steady
    | with_reducible apply State.updGroup_steady
    | fail_if_no_progress (with_reducible refine Steady.lit (s := _) rfl ?_)
    | split

theorem execEyeSweep_steady (l : Fin 104) (margin : Nat) {r0 s : State} (h0 : Steady r0 s) : Ends r0 (execEyeSweep l margin s) := by
  unfold execEyeSweep
  repeat' first
    | (extract_lets +onlyGivenNames x; refine Steady.cut (r := r0) x ?_ (fun hx => ?_); unfold x; clear x; rotate_left; clear_value x)
    | (extract_lets +onlyGivenNames x; unfold x; clear x)
    | with_reducible assumption
    | with_reducible apply Ends.next
    | with_reducible apply Ends.ite
    | with_reducible apply Steady.ite
    | with_reducible apply State.setReg_steady
    | with_reducible apply State.updLane_steady
    | with_reducible apply State.raiseFault_steady
    | with_reducible apply sweepOfSpare_steady
    | fail_if_no_progress (with_reducible refine Steady.lit (s := _) rfl ?_)
    | split

theorem startTraining_steady (l : Nat) {r0 s : State} (h0 : Steady r0 s) : Steady r0 (startTraining l s) := by
  unfold startTraining
  repeat' first
    | (extract_lets +onlyGivenNames x; refine Steady.cut (r := r0) x ?_ (fun hx => ?_); unfold x; clear x; rotate_left; clear_value x)
    | (extract_lets +onlyGivenNames x; unfold x; clear x)
    | with_reducible assumption
    | with_reducible apply Steady.ite
    | with_reducible apply State.updLane_steady
    | with_reducible apply enterLane_steady
    | fail_if_no_progress (with_reducible refine Steady.lit (s := _) rfl ?_)
    | split

theorem startRetraining_steady (l : Nat) {r0 s : State} (h0 : Steady r0 s) : Steady r0 (startRetraining l s) := by
  unfold startRetraining
  repeat' first
    | (extract_lets +onlyGivenNames x; refine Steady.cut (r := r0) x ?_ (fun hx => ?_); unfold x; clear x; rotate_left; clear_value x)
    | (extract_lets +onlyGivenNames x; unfold x; clear x)
    | with_reducible assumption
    | with_reducible apply Steady.ite
    | with_reducible apply startTraining_steady
    | with_reducible apply enterLane_steady
    | with_reducible apply State.updLane_steady
    | fail_if_no_progress (with_reducible refine Steady.lit (s := _) rfl ?_)
    | split

theorem execRetrain_steady (l : Fin 104) {r0 s : State} (h0 : Steady r0 s) : Ends r0 (execRetrain l s) := by
  unfold execRetrain
  repeat' first
    | (extract_lets +onlyGivenNames x; refine Steady.cut (r := r0) x ?_ (fun hx => ?_); unfold x; clear x; rotate_left; clear_value x)
    | (extract_lets +onlyGivenNames x; unfold x; clear x)
    | with_reducible assumption
    | with_reducible apply Ends.next
    | with_reducible apply Ends.ite
    | with_reducible apply Steady.ite
    | with_reducible apply startRetraining_steady
    | with_reducible apply State.updLane_steady
    | fail_if_no_progress (with_reducible refine Steady.lit (s := _) rfl ?_)
    | split

theorem execRetrainStart_steady (l : Fin 104) {r0 s : State} (h0 : Steady r0 s) : Ends r0 (execRetrainStart l s) := by
  unfold execRetrainStart
  repeat' first
    | with_reducible assumption
    | with_reducible apply Ends.next
    | with_reducible apply Ends.ite
    | with_reducible apply Steady.ite
    | with_reducible apply startRetraining_steady
    | split

theorem execRetrainDone_steady (l : Fin 104) {r0 s : State} (h0 : Steady r0 s) : Ends r0 (execRetrainDone l s) := by
  unfold execRetrainDone
  repeat' first
    | with_reducible assumption
    | with_reducible apply Ends.next
    | with_reducible apply Ends.ite
    | with_reducible apply Steady.ite
    | with_reducible apply trainingEnds_steady
    | split

theorem execRetrainTimeout_steady (l : Fin 104) {r0 s : State} (h0 : Steady r0 s) : Ends r0 (execRetrainTimeout l s) := by
  unfold execRetrainTimeout
  repeat' first
    | (extract_lets +onlyGivenNames x; refine Steady.cut (r := r0) x ?_ (fun hx => ?_); unfold x; clear x; rotate_left; clear_value x)
    | (extract_lets +onlyGivenNames x; unfold x; clear x)
    | with_reducible assumption
    | with_reducible apply Ends.next
    | with_reducible apply Ends.ite
    | with_reducible apply Steady.ite
    | with_reducible apply trainingFails_steady
    | split

theorem execAligningTimeout_steady (l : Fin 104) {r0 s : State} (h0 : Steady r0 s) : Ends r0 (execAligningTimeout l s) := by
  unfold execAligningTimeout
  repeat' first
    | (extract_lets +onlyGivenNames x; refine Steady.cut (r := r0) x ?_ (fun hx => ?_); unfold x; clear x; rotate_left; clear_value x)
    | (extract_lets +onlyGivenNames x; unfold x; clear x)
    | with_reducible assumption
    | with_reducible apply Ends.next
    | with_reducible apply Ends.ite
    | with_reducible apply Steady.ite
    | with_reducible apply enterLane_steady
    | split

theorem laneDown_steady (l : Nat) {r0 s : State} (h0 : Steady r0 s) : Steady r0 (laneDown l s) := by
  unfold laneDown
  repeat' first
    | with_reducible assumption
    | with_reducible apply State.updLane_steady

theorem laneOffCheck_steady (l : Nat) {r0 s : State} (h0 : Steady r0 s) : Steady r0 (laneOffCheck l s) := by
  unfold laneOffCheck
  repeat' first
    | (extract_lets +onlyGivenNames x; refine Steady.cut (r := r0) x ?_ (fun hx => ?_); unfold x; clear x; rotate_left; clear_value x)
    | (extract_lets +onlyGivenNames x; unfold x; clear x)
    | with_reducible assumption
    | with_reducible apply Steady.ite
    | with_reducible apply enterLane_steady
    | split

theorem wakeForward_steady (l : Nat) {r0 s : State} (h0 : Steady r0 s) : Steady r0 (wakeForward l s) := by
  unfold wakeForward
  repeat' first
    | (extract_lets +onlyGivenNames x; refine Steady.cut (r := r0) x ?_ (fun hx => ?_); unfold x; clear x; rotate_left; clear_value x)
    | (extract_lets +onlyGivenNames x; unfold x; clear x)
    | with_reducible assumption
    | with_reducible apply Steady.ite
    | with_reducible apply sendMsg_steady
    | with_reducible apply enterLane_steady
    | with_reducible apply State.updLane_steady
    | fail_if_no_progress (with_reducible refine Steady.lit (s := _) rfl ?_)
    | split

theorem execFwdPowerReq_steady (l : Fin 104) (v : Fin 3) {r0 s : State} (h0 : Steady r0 s) : Ends r0 (execFwdPowerReq l v s) := by
  unfold execFwdPowerReq
  repeat' first
    | (extract_lets +onlyGivenNames x; refine Steady.cut (r := r0) x ?_ (fun hx => ?_); unfold x; clear x; rotate_left; clear_value x)
    | (extract_lets +onlyGivenNames x; unfold x; clear x)
    | with_reducible assumption
    | with_reducible apply Ends.next
    | with_reducible apply Ends.ite
    | with_reducible apply Steady.ite
    | with_reducible apply State.setReg_steady
    | with_reducible apply sendMsg_steady
    | with_reducible apply State.updLane_steady
    | with_reducible apply laneOffCheck_steady
    | with_reducible apply enterLane_steady
    | with_reducible apply wakeForward_steady
    | with_reducible apply startTraining_steady
    | fail_if_no_progress (with_reducible refine Steady.lit (s := _) rfl ?_)
    | split

theorem wakeBackChannel_steady (l : Nat) {r0 s : State} (h0 : Steady r0 s) : Steady r0 (wakeBackChannel l s) := by
  unfold wakeBackChannel
  repeat' first
    | with_reducible assumption
    | with_reducible apply sendMsg_steady

theorem execBackPowerReq_steady (l : Fin 104) (v : Fin 3) {r0 s : State} (h0 : Steady r0 s) : Ends r0 (execBackPowerReq l v s) := by
  unfold execBackPowerReq
  repeat' first
    | (extract_lets +onlyGivenNames x; refine Steady.cut (r := r0) x ?_ (fun hx => ?_); unfold x; clear x; rotate_left; clear_value x)
    | (extract_lets +onlyGivenNames x; unfold x; clear x)
    | with_reducible assumption
    | with_reducible apply Ends.next
    | with_reducible apply Ends.ite
    | with_reducible apply Steady.ite
    | with_reducible apply State.setReg_steady
    | with_reducible apply sendMsg_steady
    | with_reducible apply State.updLane_steady
    | with_reducible apply laneOffCheck_steady
    | with_reducible apply wakeBackChannel_steady
    | with_reducible apply startTraining_steady
    | fail_if_no_progress (with_reducible refine Steady.lit (s := _) rfl ?_)
    | split

theorem execSleepAck_steady (l : Fin 104) (back : Bool) {r0 s : State} (h0 : Steady r0 s) : Ends r0 (execSleepAck l back s) := by
  unfold execSleepAck
  repeat' first
    | (extract_lets +onlyGivenNames x; refine Steady.cut (r := r0) x ?_ (fun hx => ?_); unfold x; clear x; rotate_left; clear_value x)
    | (extract_lets +onlyGivenNames x; unfold x; clear x)
    | with_reducible assumption
    | with_reducible apply Ends.next
    | with_reducible apply Ends.ite
    | with_reducible apply Steady.ite
    | with_reducible apply State.updLane_steady
    | with_reducible apply wakeBackChannel_steady
    | with_reducible apply enterLane_steady
    | with_reducible apply wakeForward_steady
    | fail_if_no_progress (with_reducible refine Steady.lit (s := _) rfl ?_)
    | split

theorem execLaneSleepTimeout_steady (l : Fin 104) {r0 s : State} (h0 : Steady r0 s) : Ends r0 (execLaneSleepTimeout l s) := by
  unfold execLaneSleepTimeout
  repeat' first
    | (extract_lets +onlyGivenNames x; refine Steady.cut (r := r0) x ?_ (fun hx => ?_); unfold x; clear x; rotate_left; clear_value x)
    | (extract_lets +onlyGivenNames x; unfold x; clear x)
    | with_reducible assumption
    | with_reducible apply Ends.next
    | with_reducible apply Ends.ite
    | with_reducible apply Steady.ite
    | with_reducible apply State.updLane_steady
    | with_reducible apply State.raise_steady
    | fail_if_no_progress (with_reducible refine Steady.lit (s := _) rfl ?_)
    | split

theorem execWake_steady (l : Fin 104) (back : Bool) {r0 s : State} (h0 : Steady r0 s) : Ends r0 (execWake l back s) := by
  unfold execWake
  repeat' first
    | (extract_lets +onlyGivenNames x; refine Steady.cut (r := r0) x ?_ (fun hx => ?_); unfold x; clear x; rotate_left; clear_value x)
    | (extract_lets +onlyGivenNames x; unfold x; clear x)
    | with_reducible assumption
    | with_reducible apply Ends.next
    | with_reducible apply Ends.ite
    | with_reducible apply Steady.ite
    | with_reducible apply State.updLane_steady
    | with_reducible apply wakeBack_steady
    | with_reducible apply wakeForward_steady
    | fail_if_no_progress (with_reducible refine Steady.lit (s := _) rfl ?_)
    | split

theorem stopChecker_steady (l : Nat) {r0 s : State} (h0 : Steady r0 s) : Steady r0 (stopChecker l s) := by
  unfold stopChecker
  repeat' first
    | (extract_lets +onlyGivenNames x; refine Steady.cut (r := r0) x ?_ (fun hx => ?_); unfold x; clear x; rotate_left; clear_value x)
    | (extract_lets +onlyGivenNames x; refine Steady.cut2 (r := r0) x ?_ (fun hx => ?_); unfold x; clear x; rotate_left; clear_value x)
    | (extract_lets +onlyGivenNames x; refine Steady.cut1 (r := r0) x ?_ (fun hx => ?_); unfold x; clear x; rotate_left; clear_value x)
    | (extract_lets +onlyGivenNames x; unfold x; clear x)
    | with_reducible assumption
    | with_reducible apply State.free_steady
    | with_reducible apply State.setReg_steady
    | with_reducible apply State.updLane_steady
    | fail_if_no_progress (with_reducible refine Steady.lit (s := _) rfl ?_)
    | split

theorem endTest_steady (l : Nat) {r0 s : State} (h0 : Steady r0 s) : Steady r0 (endTest l s) := by
  unfold endTest
  repeat' first
    | with_reducible assumption
    | with_reducible apply enterLane_steady
    | with_reducible apply stopChecker_steady
    | with_reducible apply State.updLane_steady
    | fail_if_no_progress (with_reducible refine Steady.lit (s := _) rfl ?_)

theorem prbsWrite_steady (l v : Nat) {r0 s : State} (h0 : Steady r0 s) : Steady r0 (prbsWrite l v s) := by
  unfold prbsWrite
  repeat' first
    | (extract_lets +onlyGivenNames x; refine Steady.cut (r := r0) x ?_ (fun hx => ?_); unfold x; clear x; rotate_left; clear_value x)
    | (extract_lets +onlyGivenNames x; unfold x; clear x)
    | with_reducible assumption
    | with_reducible apply Steady.ite
    | with_reducible apply State.setReg_steady
    | with_reducible apply stopChecker_steady
    | with_reducible apply sendCtl_steady
    | with_reducible apply State.emit_steady
    | with_reducible apply State.updLane_steady
    | with_reducible apply enterLane_steady
    | with_reducible apply endTest_steady
    | fail_if_no_progress (with_reducible refine Steady.lit (s := _) rfl ?_)
    | split

theorem execPrbsGenEnable_steady (l : Fin 104) (ctl : BitVec 32) {r0 s : State} (h0 : Steady r0 s) : Ends r0 (execPrbsGenEnable l ctl s) := by
  unfold execPrbsGenEnable
  repeat' first
    | with_reducible assumption
    | with_reducible apply Ends.next
    | with_reducible apply prbsWrite_steady

theorem execPrbsChkEnable_steady (l : Fin 104) (ctl : BitVec 32) {r0 s : State} (h0 : Steady r0 s) : Ends r0 (execPrbsChkEnable l ctl s) := by
  unfold execPrbsChkEnable
  repeat' first
    | with_reducible assumption
    | with_reducible apply Ends.next
    | with_reducible apply prbsWrite_steady

theorem execPrbsInjectOne_steady (l : Fin 104) {r0 s : State} (h0 : Steady r0 s) : Ends r0 (execPrbsInjectOne l s) := by
  unfold execPrbsInjectOne
  repeat' first
    | (extract_lets +onlyGivenNames x; refine Steady.cut (r := r0) x ?_ (fun hx => ?_); unfold x; clear x; rotate_left; clear_value x)
    | (extract_lets +onlyGivenNames x; unfold x; clear x)
    | with_reducible assumption
    | with_reducible apply Ends.next
    | with_reducible apply Ends.ite
    | with_reducible apply Steady.ite
    | with_reducible apply State.emit_steady
    | split

theorem execChkLock_steady (l : Fin 104) {r0 s : State} (h0 : Steady r0 s) : Ends r0 (execChkLock l s) := by
  unfold execChkLock
  repeat' first
    | (extract_lets +onlyGivenNames x; refine Steady.cut (r := r0) x ?_ (fun hx => ?_); unfold x; clear x; rotate_left; clear_value x)
    | (extract_lets +onlyGivenNames x; unfold x; clear x)
    | with_reducible assumption
    | with_reducible apply Ends.next
    | with_reducible apply Ends.ite
    | with_reducible apply Steady.ite
    | with_reducible apply State.updLane_steady
    | with_reducible apply State.setReg_steady
    | fail_if_no_progress (with_reducible refine Steady.lit (s := _) rfl ?_)
    | split

theorem execChkLockDrop_steady (l : Fin 104) (bits : Nat) (errors : ErrorCount) {r0 s : State} (h0 : Steady r0 s) : Ends r0 (execChkLockDrop l bits errors s) := by
  unfold execChkLockDrop
  repeat' first
    | (extract_lets +onlyGivenNames x; refine Steady.cut (r := r0) x ?_ (fun hx => ?_); unfold x; clear x; rotate_left; clear_value x)
    | (extract_lets +onlyGivenNames x; unfold x; clear x)
    | with_reducible assumption
    | with_reducible apply Ends.next
    | with_reducible apply Ends.ite
    | with_reducible apply Steady.ite
    | with_reducible apply State.setReg_steady
    | with_reducible apply State.updLane_steady
    | fail_if_no_progress (with_reducible refine Steady.lit (s := _) rfl ?_)
    | split

theorem execTestDurationEnd_steady (l : Fin 104) {r0 s : State} (h0 : Steady r0 s) : Ends r0 (execTestDurationEnd l s) := by
  unfold execTestDurationEnd
  repeat' first
    | (extract_lets +onlyGivenNames x; refine Steady.cut (r := r0) x ?_ (fun hx => ?_); unfold x; clear x; rotate_left; clear_value x)
    | (extract_lets +onlyGivenNames x; unfold x; clear x)
    | with_reducible assumption
    | with_reducible apply Ends.next
    | with_reducible apply Ends.ite
    | with_reducible apply Steady.ite
    | with_reducible apply endTest_steady
    | fail_if_no_progress (with_reducible refine Steady.lit (s := _) rfl ?_)
    | split

theorem execTestResult_steady (l : Fin 104) (seq : BitVec 8) (errors : BitVec 32) {r0 s : State} (h0 : Steady r0 s) : Ends r0 (execTestResult l seq errors s) := by
  unfold execTestResult
  repeat' first
    | with_reducible assumption
    | with_reducible apply Ends.next
    | with_reducible apply Ends.ite
    | with_reducible apply Steady.ite
    | with_reducible apply State.setReg_steady
    | split

end Sys2Proof.Machine
end

