-- ==== Sys2Proof/Laws/SteadyPosition.lean ====
section
/-! SUPPORT. What the operations of Machine/Position.lean keep. -/
namespace Sys2Proof.Machine

set_option linter.unusedTactic false
set_option linter.unreachableTactic false

theorem driveTio_steady (t : Nat) (on : Bool) (at_ : Nat) {r0 s : State} (h0 : Steady r0 s) : Steady r0 (driveTio t on at_ s) := by
  unfold driveTio
  repeat' first
    | with_reducible assumption
    | with_reducible apply Steady.ite
    | with_reducible apply State.updTio_steady
    | with_reducible apply State.emit_steady
    | fail_if_no_progress (with_reducible refine Steady.lit (s := _) rfl ?_)
    | split

theorem drivePins_steady (fn source : Nat) (on : Bool) {r0 s : State} (h0 : Steady r0 s) : Steady r0 (drivePins fn source on s) := by
  unfold drivePins
  repeat' first
    | with_reducible assumption
    | with_reducible refine Steady.foldl _ _ ?_ (fun _ _ _ => ?_)
    | with_reducible apply driveTio_steady

theorem pulseTio_steady (t at_ : Nat) {r0 s : State} (h0 : Steady r0 s) : Steady r0 (pulseTio t at_ s) := by
  unfold pulseTio
  repeat' first
    | (extract_lets +onlyGivenNames x; refine Steady.cut (r := r0) x ?_ (fun hx => ?_); unfold x; clear x; rotate_left; clear_value x)
    | (extract_lets +onlyGivenNames x; unfold x; clear x)
    | with_reducible assumption
    | with_reducible apply driveTio_steady
    | with_reducible apply State.updTio_steady
    | fail_if_no_progress (with_reducible refine Steady.lit (s := _) rfl ?_)
    | split

theorem stampTio_steady (t : Nat) (level : Bool) {r0 s : State} (h0 : Steady r0 s) : Steady r0 (stampTio t level s) := by
  unfold stampTio
  repeat' first
    | with_reducible assumption
    | with_reducible apply State.updTio_steady
    | fail_if_no_progress (with_reducible refine Steady.lit (s := _) rfl ?_)

theorem writeCapture_steady (c stamp : Nat) {r0 s : State} (h0 : Steady r0 s) : Steady r0 (writeCapture c stamp s) := by
  unfold writeCapture
  repeat' first
    | (extract_lets +onlyGivenNames x; refine Steady.cut (r := r0) x ?_ (fun hx => ?_); unfold x; clear x; rotate_left; clear_value x)
    | (extract_lets +onlyGivenNames x; unfold x; clear x)
    | with_reducible assumption
    | with_reducible apply State.updPosChan_steady
    | fail_if_no_progress (with_reducible refine Steady.lit (s := _) rfl ?_)

theorem compareStep_steady (k : Nat) (old new : Nat) (up : Bool) (stamp : Nat) {r0 s : State} (h0 : Steady r0 s) : Steady r0 (compareStep k old new up stamp s) := by
  unfold compareStep
  repeat' first
    | (extract_lets +onlyGivenNames x; refine Steady.cut (r := r0) x ?_ (fun hx => ?_); unfold x; clear x; rotate_left; clear_value x)
    | (extract_lets +onlyGivenNames x; unfold x; clear x)
    | with_reducible assumption
    | with_reducible apply Steady.ite
    | with_reducible refine Steady.foldl _ _ ?_ (fun _ _ _ => ?_)
    | with_reducible apply State.updCmp_steady
    | with_reducible apply State.setReg_steady
    | with_reducible apply State.raise_steady
    | with_reducible apply writeCapture_steady
    | with_reducible apply pulseTio_steady
    | fail_if_no_progress (with_reducible refine Steady.lit (s := _) rfl ?_)
    | split

theorem compareBehind_steady (k : Nat) {r0 s : State} (h0 : Steady r0 s) : Steady r0 (compareBehind k s) := by
  unfold compareBehind
  repeat' first
    | (extract_lets +onlyGivenNames x; refine Steady.cut (r := r0) x ?_ (fun hx => ?_); unfold x; clear x; rotate_left; clear_value x)
    | (extract_lets +onlyGivenNames x; unfold x; clear x)
    | with_reducible assumption
    | with_reducible apply Steady.ite
    | with_reducible apply State.count_steady
    | with_reducible apply State.setReg_steady
    | with_reducible apply State.raise_steady
    | split

theorem execCompareWrite_steady (k : Fin 64) (isCtl : Bool) (v : BitVec 32) {r0 s : State} (h0 : Steady r0 s) : Ends r0 (execCompareWrite k isCtl v s) := by
  unfold execCompareWrite
  repeat' first
    | (extract_lets +onlyGivenNames x; refine Steady.cut (r := r0) x ?_ (fun hx => ?_); unfold x; clear x; rotate_left; clear_value x)
    | (extract_lets +onlyGivenNames x; unfold x; clear x)
    | with_reducible assumption
    | with_reducible apply Ends.next
    | with_reducible apply Ends.ite
    | with_reducible apply Steady.ite
    | with_reducible apply State.setReg_steady
    | with_reducible apply State.updCmp_steady
    | with_reducible apply compareBehind_steady
    | fail_if_no_progress (with_reducible refine Steady.lit (s := _) rfl ?_)
    | split

theorem reportStep_steady (c : Nat) (up : Bool) (stamp : Nat) {r0 s : State} (h0 : Steady r0 s) : Steady r0 (reportStep c up stamp s) := by
  unfold reportStep
  repeat' first
    | (extract_lets +onlyGivenNames x; refine Steady.cut (r := r0) x ?_ (fun hx => ?_); unfold x; clear x; rotate_left; clear_value x)
    | (extract_lets +onlyGivenNames x; unfold x; clear x)
    | with_reducible assumption
    | with_reducible apply Steady.ite
    | with_reducible refine Steady.foldl _ _ ?_ (fun _ _ _ => ?_)
    | with_reducible apply State.count_steady
    | with_reducible apply State.setReg_steady
    | with_reducible apply State.updPosChan_steady
    | with_reducible apply compareStep_steady
    | fail_if_no_progress (with_reducible refine Steady.lit (s := _) rfl ?_)
    | split

theorem countStep_steady (c : Nat) (up : Bool) (stamp : Nat) {r0 s : State} (h0 : Steady r0 s) : Steady r0 (countStep c up stamp s) := by
  unfold countStep
  repeat' first
    | (extract_lets +onlyGivenNames x; refine Steady.cut (r := r0) x ?_ (fun hx => ?_); unfold x; clear x; rotate_left; clear_value x)
    | (extract_lets +onlyGivenNames x; unfold x; clear x)
    | with_reducible assumption
    | with_reducible apply Steady.ite
    | with_reducible apply reportStep_steady
    | with_reducible apply State.updPosChan_steady
    | fail_if_no_progress (with_reducible refine Steady.lit (s := _) rfl ?_)
    | split

theorem reZero_steady (c : Nat) (e : Int) {r0 s : State} (h0 : Steady r0 s) : Steady r0 (reZero c e s) := by
  unfold reZero
  repeat' first
    | (extract_lets +onlyGivenNames x; refine Steady.cut (r := r0) x ?_ (fun hx => ?_); unfold x; clear x; rotate_left; clear_value x)
    | (extract_lets +onlyGivenNames x; refine Steady.cut2 (r := r0) x ?_ (fun hx => ?_); unfold x; clear x; rotate_left; clear_value x)
    | (extract_lets +onlyGivenNames x; refine Steady.cut1 (r := r0) x ?_ (fun hx => ?_); unfold x; clear x; rotate_left; clear_value x)
    | (extract_lets +onlyGivenNames x; unfold x; clear x)
    | with_reducible assumption
    | with_reducible apply Steady.ite
    | with_reducible refine Steady.foldl1 _ _ ?_ (fun _ _ _ => ?_)
    | with_reducible refine Steady.foldl2 _ _ ?_ (fun _ _ _ => ?_)
    | with_reducible refine Steady.foldl _ _ ?_ (fun _ _ _ => ?_)
    | with_reducible apply State.count_steady
    | with_reducible apply State.setReg_steady
    | with_reducible apply State.updPosChan_steady
    | with_reducible apply State.raise_steady
    | fail_if_no_progress (with_reducible refine Steady.lit (s := _) rfl ?_)
    | split

theorem indexEvent_steady (c : Nat) {r0 s : State} (h0 : Steady r0 s) : Steady r0 (indexEvent c s) := by
  unfold indexEvent
  repeat' first
    | (extract_lets +onlyGivenNames x; refine Steady.cut (r := r0) x ?_ (fun hx => ?_); unfold x; clear x; rotate_left; clear_value x)
    | (extract_lets +onlyGivenNames x; unfold x; clear x)
    | with_reducible assumption
    | with_reducible apply Steady.ite
    | with_reducible apply State.count_steady
    | with_reducible apply State.setReg_steady
    | with_reducible apply State.updPosChan_steady
    | with_reducible apply State.raiseFault_steady
    | with_reducible apply reZero_steady
    | fail_if_no_progress (with_reducible refine Steady.lit (s := _) rfl ?_)
    | split

theorem acceptEdge_steady (c i : Nat) (level : Bool) (stamp at_ : Nat) {r0 s : State} (h0 : Steady r0 s) : Steady r0 (acceptEdge c i level stamp at_ s) := by
  unfold acceptEdge
  repeat' first
    | (extract_lets +onlyGivenNames x; refine Steady.cut (r := r0) x ?_ (fun hx => ?_); unfold x; clear x; rotate_left; clear_value x)
    | (extract_lets +onlyGivenNames x; unfold x; clear x)
    | with_reducible assumption
    | with_reducible apply Steady.ite
    | with_reducible apply State.updPosChan_steady
    | with_reducible apply indexEvent_steady
    | with_reducible apply countStep_steady
    | fail_if_no_progress (with_reducible refine Steady.lit (s := _) rfl ?_)
    | split

theorem refuseEdge_steady (c i : Nat) (at_ : Nat) {r0 s : State} (h0 : Steady r0 s) : Steady r0 (refuseEdge c i at_ s) := by
  unfold refuseEdge
  repeat' first
    | (extract_lets +onlyGivenNames x; refine Steady.cut (r := r0) x ?_ (fun hx => ?_); unfold x; clear x; rotate_left; clear_value x)
    | (extract_lets +onlyGivenNames x; unfold x; clear x)
    | with_reducible assumption
    | with_reducible apply Steady.ite
    | with_reducible apply State.updPosChan_steady
    | with_reducible apply State.count_steady
    | with_reducible apply State.raise_steady
    | fail_if_no_progress (with_reducible refine Steady.lit (s := _) rfl ?_)
    | split

theorem leaveFilter_steady (c i : Nat) (stamp at_ : Nat) {r0 s : State} (h0 : Steady r0 s) : Steady r0 (leaveFilter c i stamp at_ s) := by
  unfold leaveFilter
  repeat' first
    | (extract_lets +onlyGivenNames x; refine Steady.cut (r := r0) x ?_ (fun hx => ?_); unfold x; clear x; rotate_left; clear_value x)
    | (extract_lets +onlyGivenNames x; unfold x; clear x)
    | with_reducible assumption
    | with_reducible apply Steady.ite
    | with_reducible apply State.updPosChan_steady
    | with_reducible apply refuseEdge_steady
    | with_reducible apply acceptEdge_steady
    | fail_if_no_progress (with_reducible refine Steady.lit (s := _) rfl ?_)
    | split

theorem passFilter_steady (c i : Nat) {r0 s : State} (h0 : Steady r0 s) : Steady r0 (passFilter c i s) := by
  unfold passFilter
  repeat' first
    | (extract_lets +onlyGivenNames x; refine Steady.cut (r := r0) x ?_ (fun hx => ?_); unfold x; clear x; rotate_left; clear_value x)
    | (extract_lets +onlyGivenNames x; unfold x; clear x)
    | with_reducible assumption
    | with_reducible apply Steady.ite
    | with_reducible apply leaveFilter_steady
    | fail_if_no_progress (with_reducible refine Steady.lit (s := _) rfl ?_)
    | split

theorem execPosTransition_steady (c : Fin 16) (input : Fin 3) (wireN level : Bool) {r0 s : State} (h0 : Steady r0 s) : Ends r0 (execPosTransition c input wireN level s) := by
  unfold execPosTransition
  repeat' first
    | (extract_lets +onlyGivenNames x; refine Steady.cut (r := r0) x ?_ (fun hx => ?_); unfold x; clear x; rotate_left; clear_value x)
    | (extract_lets +onlyGivenNames x; unfold x; clear x)
    | with_reducible assumption
    | with_reducible apply Ends.next
    | with_reducible apply Ends.ite
    | with_reducible apply Steady.ite
    | with_reducible apply passFilter_steady
    | with_reducible apply State.updPosChan_steady
    | fail_if_no_progress (with_reducible refine Steady.lit (s := _) rfl ?_)
    | split

theorem execFilterPass_steady (c : Fin 16) (input : Fin 3) {r0 s : State} (h0 : Steady r0 s) : Ends r0 (execFilterPass c input s) := by
  unfold execFilterPass
  repeat' first
    | with_reducible assumption
    | with_reducible apply Ends.next
    | with_reducible apply passFilter_steady

theorem execEdgeLateAccept_steady (c : Fin 16) {r0 s : State} (h0 : Steady r0 s) : Ends r0 (execEdgeLateAccept c s) := by
  unfold execEdgeLateAccept
  repeat' first
    | (extract_lets +onlyGivenNames x; refine Steady.cut (r := r0) x ?_ (fun hx => ?_); unfold x; clear x; rotate_left; clear_value x)
    | (extract_lets +onlyGivenNames x; unfold x; clear x)
    | with_reducible assumption
    | with_reducible apply Ends.next
    | with_reducible apply acceptEdge_steady
    | fail_if_no_progress (with_reducible refine Steady.lit (s := _) rfl ?_)
    | split

theorem posFormatEnters_steady (c : Nat) (old : Int) {r0 s : State} (h0 : Steady r0 s) : Steady r0 (posFormatEnters c old s) := by
  unfold posFormatEnters
  repeat' first
    | with_reducible assumption
    | with_reducible apply Steady.ite
    | with_reducible apply State.updPosChan_steady
    | fail_if_no_progress (with_reducible refine Steady.lit (s := _) rfl ?_)
    | split

theorem hysteresisEnters_steady (c : Nat) {r0 s : State} (h0 : Steady r0 s) : Steady r0 (hysteresisEnters c s) := by
  unfold hysteresisEnters
  repeat' first
    | with_reducible assumption
    | with_reducible apply Steady.ite
    | with_reducible apply reportStep_steady
    | with_reducible apply State.updPosChan_steady
    | fail_if_no_progress (with_reducible refine Steady.lit (s := _) rfl ?_)
    | split

theorem execWireRecovery_steady (c : Fin 16) {r0 s : State} (h0 : Steady r0 s) : Ends r0 (execWireRecovery c s) := by
  unfold execWireRecovery
  repeat' first
    | (extract_lets +onlyGivenNames x; refine Steady.cut (r := r0) x ?_ (fun hx => ?_); unfold x; clear x; rotate_left; clear_value x)
    | (extract_lets +onlyGivenNames x; unfold x; clear x)
    | with_reducible assumption
    | with_reducible apply Ends.next
    | with_reducible apply Ends.ite
    | with_reducible apply Steady.ite
    | with_reducible apply State.updPosChan_steady
    | fail_if_no_progress (with_reducible refine Steady.lit (s := _) rfl ?_)
    | split

theorem execIndexRearm_steady (c : Fin 16) {r0 s : State} (h0 : Steady r0 s) : Ends r0 (execIndexRearm c s) := by
  unfold execIndexRearm
  repeat' first
    | with_reducible assumption
    | with_reducible apply Ends.next
    | with_reducible apply Ends.ite
    | with_reducible apply Steady.ite
    | with_reducible apply State.updPosChan_steady
    | fail_if_no_progress (with_reducible refine Steady.lit (s := _) rfl ?_)
    | split

theorem execPosPreset_steady (c : Fin 16) (v : BitVec 64) {r0 s : State} (h0 : Steady r0 s) : Ends r0 (execPosPreset c v s) := by
  unfold execPosPreset
  repeat' first
    | (extract_lets +onlyGivenNames x; refine Steady.cut (r := r0) x ?_ (fun hx => ?_); unfold x; clear x; rotate_left; clear_value x)
    | (extract_lets +onlyGivenNames x; refine Steady.cut2 (r := r0) x ?_ (fun hx => ?_); unfold x; clear x; rotate_left; clear_value x)
    | (extract_lets +onlyGivenNames x; refine Steady.cut1 (r := r0) x ?_ (fun hx => ?_); unfold x; clear x; rotate_left; clear_value x)
    | (extract_lets +onlyGivenNames x; unfold x; clear x)
    | with_reducible assumption
    | with_reducible apply Ends.next
    | with_reducible apply Ends.ite
    | with_reducible apply Steady.ite
    | with_reducible apply State.setReg_steady
    | with_reducible apply State.count_steady
    | with_reducible apply State.updPosChan_steady
    | fail_if_no_progress (with_reducible refine Steady.lit (s := _) rfl ?_)
    | split

theorem execLatchIn_steady (t : Fin 96) {r0 s : State} (h0 : Steady r0 s) : Ends r0 (execLatchIn t s) := by
  unfold execLatchIn
  repeat' first
    | with_reducible assumption
    | with_reducible apply Ends.next
    | with_reducible apply Ends.ite
    | with_reducible apply Steady.ite
    | with_reducible apply writeCapture_steady
    | with_reducible apply stampTio_steady
    | split

theorem execTioInputEdge_steady (t : Fin 96) (level : Bool) {r0 s : State} (h0 : Steady r0 s) : Ends r0 (execTioInputEdge t level s) := by
  unfold execTioInputEdge
  repeat' first
    | with_reducible assumption
    | with_reducible apply Ends.next
    | with_reducible apply Ends.ite
    | with_reducible apply Steady.ite
    | with_reducible apply stampTio_steady
    | split

theorem execTioPulseEnd_steady (t : Fin 96) {r0 s : State} (h0 : Steady r0 s) : Ends r0 (execTioPulseEnd t s) := by
  unfold execTioPulseEnd
  repeat' first
    | with_reducible assumption
    | with_reducible apply Ends.next
    | with_reducible apply Ends.ite
    | with_reducible apply Steady.ite
    | with_reducible apply driveTio_steady
    | with_reducible apply State.updTio_steady
    | fail_if_no_progress (with_reducible refine Steady.lit (s := _) rfl ?_)
    | split

theorem execTioPulseAt_steady (t : Fin 96) (dt : BitVec 64) {r0 s : State} (h0 : Steady r0 s) : Ends r0 (execTioPulseAt t dt s) := by
  unfold execTioPulseAt
  repeat' first
    | with_reducible assumption
    | with_reducible apply Ends.next
    | with_reducible apply Ends.ite
    | with_reducible apply Steady.ite
    | with_reducible apply pulseTio_steady
    | with_reducible apply State.raise_steady
    | with_reducible apply State.updTio_steady
    | fail_if_no_progress (with_reducible refine Steady.lit (s := _) rfl ?_)
    | split

theorem execScheduledPulse_steady (t : Fin 96) {r0 s : State} (h0 : Steady r0 s) : Ends r0 (execScheduledPulse t s) := by
  unfold execScheduledPulse
  repeat' first
    | with_reducible assumption
    | with_reducible apply Ends.next
    | with_reducible apply Ends.ite
    | with_reducible apply Steady.ite
    | with_reducible apply pulseTio_steady
    | with_reducible apply State.updTio_steady
    | fail_if_no_progress (with_reducible refine Steady.lit (s := _) rfl ?_)
    | split

end Sys2Proof.Machine
end

