-- ==== Sys2Proof/Laws/SteadyMotion.lean ====
section
/-! SUPPORT. What the operations of Machine/Motion.lean keep. -/
namespace Sys2Proof.Machine

set_option linter.unusedTactic false
set_option linter.unreachableTactic false

theorem motEnter_steady (m : Nat) (st : MotState) {r0 s : State} (h0 : Steady r0 s) : Steady r0 (motEnter m st s) := by
  unfold motEnter
  repeat' first
    | (extract_lets +onlyGivenNames x; refine Steady.cut (r := r0) x ?_ (fun hx => ?_); unfold x; clear x; rotate_left; clear_value x)
    | (extract_lets +onlyGivenNames x; unfold x; clear x)
    | with_reducible assumption
    | with_reducible apply State.updMotion_steady
    | with_reducible apply State.setReg_steady
    | with_reducible apply drivePins_steady
    | fail_if_no_progress (with_reducible refine Steady.lit (s := _) rfl ?_)

theorem motStop_steady (m : Nat) {r0 s : State} (h0 : Steady r0 s) : Steady r0 (motStop m s) := by
  unfold motStop
  repeat' first
    | (extract_lets +onlyGivenNames x; refine Steady.cut (r := r0) x ?_ (fun hx => ?_); unfold x; clear x; rotate_left; clear_value x)
    | (extract_lets +onlyGivenNames x; unfold x; clear x)
    | with_reducible assumption
    | with_reducible apply State.updMotion_steady
    | with_reducible apply motEnter_steady
    | fail_if_no_progress (with_reducible refine Steady.lit (s := _) rfl ?_)
    | split

theorem motQuickStop_steady (m : Nat) {r0 s : State} (h0 : Steady r0 s) : Steady r0 (motQuickStop m s) := by
  unfold motQuickStop
  repeat' first
    | (extract_lets +onlyGivenNames x; refine Steady.cut (r := r0) x ?_ (fun hx => ?_); unfold x; clear x; rotate_left; clear_value x)
    | (extract_lets +onlyGivenNames x; unfold x; clear x)
    | with_reducible assumption
    | with_reducible apply State.updMotion_steady
    | with_reducible apply motEnter_steady
    | fail_if_no_progress (with_reducible refine Steady.lit (s := _) rfl ?_)
    | split

theorem motHardStop_steady (m : Nat) {r0 s : State} (h0 : Steady r0 s) : Steady r0 (motHardStop m s) := by
  unfold motHardStop
  repeat' first
    | (extract_lets +onlyGivenNames x; refine Steady.cut (r := r0) x ?_ (fun hx => ?_); unfold x; clear x; rotate_left; clear_value x)
    | (extract_lets +onlyGivenNames x; unfold x; clear x)
    | with_reducible assumption
    | with_reducible apply Steady.ite
    | with_reducible apply State.updMotion_steady
    | with_reducible apply State.setReg_steady
    | with_reducible apply motEnter_steady
    | fail_if_no_progress (with_reducible refine Steady.lit (s := _) rfl ?_)
    | split

theorem transEnter_steady (u : Nat) (st : TransState) {r0 s : State} (h0 : Steady r0 s) : Steady r0 (transEnter u st s) := by
  unfold transEnter
  repeat' first
    | with_reducible assumption
    | with_reducible apply State.updTrans_steady
    | fail_if_no_progress (with_reducible refine Steady.lit (s := _) rfl ?_)

theorem holdGates_steady (st : Nat) {r0 s : State} (h0 : Steady r0 s) : Steady r0 (holdGates st s) := by
  unfold holdGates
  repeat' first
    | with_reducible assumption
    | with_reducible apply Steady.ite
    | with_reducible apply State.updSeam_steady
    | fail_if_no_progress (with_reducible refine Steady.lit (s := _) rfl ?_)
    | split

theorem stopRequest_steady (u : Nat) {r0 s : State} (h0 : Steady r0 s) : Steady r0 (stopRequest u s) := by
  unfold stopRequest
  repeat' first
    | (extract_lets +onlyGivenNames x; refine Steady.cut (r := r0) x ?_ (fun hx => ?_); unfold x; clear x; rotate_left; clear_value x)
    | (extract_lets +onlyGivenNames x; unfold x; clear x)
    | with_reducible assumption
    | with_reducible apply Steady.ite
    | with_reducible refine Steady.foldl _ _ ?_ (fun _ _ _ => ?_)
    | with_reducible apply holdGates_steady
    | with_reducible apply State.updTrans_steady
    | with_reducible apply motStop_steady
    | fail_if_no_progress (with_reducible refine Steady.lit (s := _) rfl ?_)
    | split

theorem transStreamsClosed_steady (u : Nat) {r0 s : State} (h0 : Steady r0 s) : Steady r0 (transStreamsClosed u s) := by
  unfold transStreamsClosed
  repeat' first
    | (extract_lets +onlyGivenNames x; refine Steady.cut (r := r0) x ?_ (fun hx => ?_); unfold x; clear x; rotate_left; clear_value x)
    | (extract_lets +onlyGivenNames x; unfold x; clear x)
    | with_reducible assumption
    | with_reducible apply Steady.ite
    | with_reducible apply transEnter_steady
    | with_reducible apply State.updTrans_steady
    | with_reducible apply motStop_steady
    | fail_if_no_progress (with_reducible refine Steady.lit (s := _) rfl ?_)
    | split

theorem transStreamOpened_steady (u : Nat) {r0 s : State} (h0 : Steady r0 s) : Steady r0 (transStreamOpened u s) := by
  unfold transStreamOpened
  repeat' first
    | (extract_lets +onlyGivenNames x; refine Steady.cut (r := r0) x ?_ (fun hx => ?_); unfold x; clear x; rotate_left; clear_value x)
    | (extract_lets +onlyGivenNames x; unfold x; clear x)
    | with_reducible assumption
    | with_reducible apply Steady.ite
    | with_reducible apply State.updTrans_steady
    | with_reducible apply transEnter_steady
    | with_reducible apply State.setReg_steady
    | with_reducible apply State.updMotion_steady
    | fail_if_no_progress (with_reducible refine Steady.lit (s := _) rfl ?_)
    | split

theorem seamAbort_steady (u : Nat) {r0 s : State} (h0 : Steady r0 s) : Steady r0 (seamAbort u s) := by
  unfold seamAbort
  repeat' first
    | with_reducible assumption
    | with_reducible apply transEnter_steady
    | with_reducible apply State.raiseFault_steady
    | fail_if_no_progress (with_reducible refine Steady.lit (s := _) rfl ?_)
    | split

theorem transFault_steady (u : Nat) {r0 s : State} (h0 : Steady r0 s) : Steady r0 (transFault u s) := by
  unfold transFault
  repeat' first
    | with_reducible assumption
    | with_reducible apply transEnter_steady
    | fail_if_no_progress (with_reducible refine Steady.lit (s := _) rfl ?_)
    | split

theorem recordStandstill_steady (u : Nat) {r0 s : State} (h0 : Steady r0 s) : Steady r0 (recordStandstill u s) := by
  unfold recordStandstill
  repeat' first
    | (extract_lets +onlyGivenNames x; refine Steady.cut (r := r0) x ?_ (fun hx => ?_); unfold x; clear x; rotate_left; clear_value x)
    | (extract_lets +onlyGivenNames x; unfold x; clear x)
    | with_reducible assumption
    | with_reducible apply Steady.ite
    | with_reducible refine Steady.foldl _ _ ?_ (fun _ _ _ => ?_)
    | with_reducible apply State.setReg_steady
    | with_reducible apply State.updSeam_steady
    | with_reducible apply State.updTrans_steady
    | with_reducible apply State.raise_steady
    | fail_if_no_progress (with_reducible refine Steady.lit (s := _) rfl ?_)
    | split

theorem transAtRest_steady (m : Nat) {r0 s : State} (h0 : Steady r0 s) : Steady r0 (transAtRest m s) := by
  unfold transAtRest
  repeat' first
    | (extract_lets +onlyGivenNames x; refine Steady.cut (r := r0) x ?_ (fun hx => ?_); unfold x; clear x; rotate_left; clear_value x)
    | (extract_lets +onlyGivenNames x; unfold x; clear x)
    | with_reducible assumption
    | with_reducible apply Steady.ite
    | with_reducible apply transEnter_steady
    | with_reducible apply recordStandstill_steady
    | with_reducible apply State.updTrans_steady
    | fail_if_no_progress (with_reducible refine Steady.lit (s := _) rfl ?_)
    | split

theorem followCheck_steady (m : Nat) {r0 s : State} (h0 : Steady r0 s) : Steady r0 (followCheck m s) := by
  unfold followCheck
  repeat' first
    | (extract_lets +onlyGivenNames x; refine Steady.cut (r := r0) x ?_ (fun hx => ?_); unfold x; clear x; rotate_left; clear_value x)
    | (extract_lets +onlyGivenNames x; unfold x; clear x)
    | with_reducible assumption
    | with_reducible apply Steady.ite
    | with_reducible apply motEnter_steady
    | with_reducible apply State.updMotion_steady
    | with_reducible apply State.raiseFault_steady
    | with_reducible apply seamAbort_steady
    | fail_if_no_progress (with_reducible refine Steady.lit (s := _) rfl ?_)
    | split

theorem emitSteps_steady (m : Nat) (p0 p1 : Int) {r0 s : State} (h0 : Steady r0 s) : Steady r0 (emitSteps m p0 p1 s) := by
  unfold emitSteps
  repeat' first
    | (extract_lets +onlyGivenNames x; refine Steady.cut (r := r0) x ?_ (fun hx => ?_); unfold x; clear x; rotate_left; clear_value x)
    | (extract_lets +onlyGivenNames x; unfold x; clear x)
    | with_reducible assumption
    | with_reducible apply Steady.ite
    | with_reducible refine Steady.foldl _ _ ?_ (fun _ _ _ => ?_)
    | with_reducible apply State.emits_steady
    | with_reducible apply State.updMotion_steady
    | with_reducible apply State.setReg_steady
    | fail_if_no_progress (with_reducible refine Steady.lit (s := _) rfl ?_)
    | split

theorem tickTaken_steady (m : Nat) {r0 s : State} (h0 : Steady r0 s) : Steady r0 (tickTaken m s) := by
  unfold tickTaken
  repeat' first
    | (extract_lets +onlyGivenNames x; refine Steady.cut (r := r0) x ?_ (fun hx => ?_); unfold x; clear x; rotate_left; clear_value x)
    | (extract_lets +onlyGivenNames x; unfold x; clear x)
    | with_reducible assumption
    | with_reducible apply Steady.ite
    | with_reducible apply State.loopRan_steady
    | with_reducible apply State.updMotion_steady
    | fail_if_no_progress (with_reducible refine Steady.lit (s := _) rfl ?_)
    | split

theorem advance_steady (m : Nat) (p : Int) (va : Int × Int) (arrived : Bool) {r0 s : State} (h0 : Steady r0 s) : Steady r0 (advance m p va arrived s) := by
  unfold advance
  repeat' first
    | (extract_lets +onlyGivenNames x; refine Steady.cut (r := r0) x ?_ (fun hx => ?_); unfold x; clear x; rotate_left; clear_value x)
    | (extract_lets +onlyGivenNames x; refine Steady.cut2 (r := r0) x ?_ (fun hx => ?_); unfold x; clear x; rotate_left; clear_value x)
    | (extract_lets +onlyGivenNames x; refine Steady.cut1 (r := r0) x ?_ (fun hx => ?_); unfold x; clear x; rotate_left; clear_value x)
    | (extract_lets +onlyGivenNames x; unfold x; clear x)
    | with_reducible assumption
    | with_reducible apply Steady.ite
    | with_reducible apply emitSteps_steady
    | with_reducible apply State.updMotion_steady
    | with_reducible apply State.setReg_steady
    | fail_if_no_progress (with_reducible refine Steady.lit (s := _) rfl ?_)
    | split

theorem integrate_steady (m : Nat) {r0 s : State} (h0 : Steady r0 s) : Steady r0 (integrate m s) := by
  unfold integrate
  repeat' first
    | (extract_lets +onlyGivenNames x; refine Steady.cut (r := r0) x ?_ (fun hx => ?_); unfold x; clear x; rotate_left; clear_value x)
    | (extract_lets +onlyGivenNames x; refine Steady.cut2 (r := r0) x ?_ (fun hx => ?_); unfold x; clear x; rotate_left; clear_value x)
    | (extract_lets +onlyGivenNames x; refine Steady.cut1 (r := r0) x ?_ (fun hx => ?_); unfold x; clear x; rotate_left; clear_value x)
    | (extract_lets +onlyGivenNames x; unfold x; clear x)
    | with_reducible assumption
    | with_reducible apply Steady.ite
    | with_reducible apply advance_steady
    | with_reducible apply motEnter_steady
    | with_reducible apply followCheck_steady
    | with_reducible apply transAtRest_steady
    | fail_if_no_progress (with_reducible refine Steady.lit (s := _) rfl ?_)
    | split

theorem execMotionTick_steady (m : Fin 16) {r0 s : State} (h0 : Steady r0 s) : Ends r0 (execMotionTick m s) := by
  unfold execMotionTick
  repeat' first
    | (extract_lets +onlyGivenNames x; refine Steady.cut (r := r0) x ?_ (fun hx => ?_); unfold x; clear x; rotate_left; clear_value x)
    | (extract_lets +onlyGivenNames x; unfold x; clear x)
    | with_reducible assumption
    | with_reducible apply Ends.next
    | with_reducible apply Ends.ite
    | with_reducible apply Steady.ite
    | with_reducible apply tickTaken_steady
    | with_reducible apply followCheck_steady
    | with_reducible apply State.updMotion_steady
    | with_reducible apply State.emit_steady
    | with_reducible apply integrate_steady
    | fail_if_no_progress (with_reducible refine Steady.lit (s := _) rfl ?_)
    | split

theorem execMotionReplan_steady (m : Fin 16) (sub : Fin 32) (v : Int) {r0 s : State} (h0 : Steady r0 s) : Ends r0 (execMotionReplan m sub v s) := by
  unfold execMotionReplan
  repeat' first
    | (extract_lets +onlyGivenNames x; refine Steady.cut (r := r0) x ?_ (fun hx => ?_); unfold x; clear x; rotate_left; clear_value x)
    | (extract_lets +onlyGivenNames x; unfold x; clear x)
    | with_reducible assumption
    | with_reducible apply Ends.next
    | with_reducible apply Ends.ite
    | with_reducible apply Steady.ite
    | with_reducible apply State.setReg_steady
    | with_reducible apply State.updMotion_steady
    | fail_if_no_progress (with_reducible refine Steady.lit (s := _) rfl ?_)
    | split

theorem execMotStop_steady (m : Fin 16) {r0 s : State} (h0 : Steady r0 s) : Ends r0 (execMotStop m s) := by
  unfold execMotStop
  repeat' first
    | with_reducible assumption
    | with_reducible apply Ends.next
    | with_reducible apply Ends.ite
    | with_reducible apply Steady.ite
    | with_reducible apply motStop_steady
    | split

theorem execMotQuickStop_steady (m : Fin 16) {r0 s : State} (h0 : Steady r0 s) : Ends r0 (execMotQuickStop m s) := by
  unfold execMotQuickStop
  repeat' first
    | with_reducible assumption
    | with_reducible apply Ends.next
    | with_reducible apply motQuickStop_steady

theorem execMotHardStop_steady (m : Fin 16) {r0 s : State} (h0 : Steady r0 s) : Ends r0 (execMotHardStop m s) := by
  unfold execMotHardStop
  repeat' first
    | (extract_lets +onlyGivenNames x; refine Steady.cut (r := r0) x ?_ (fun hx => ?_); unfold x; clear x; rotate_left; clear_value x)
    | (extract_lets +onlyGivenNames x; unfold x; clear x)
    | with_reducible assumption
    | with_reducible apply Ends.next
    | with_reducible apply motHardStop_steady
    | with_reducible apply transAtRest_steady

theorem execMotClear_steady (m : Fin 16) {r0 s : State} (h0 : Steady r0 s) : Ends r0 (execMotClear m s) := by
  unfold execMotClear
  repeat' first
    | (extract_lets +onlyGivenNames x; refine Steady.cut (r := r0) x ?_ (fun hx => ?_); unfold x; clear x; rotate_left; clear_value x)
    | (extract_lets +onlyGivenNames x; unfold x; clear x)
    | with_reducible assumption
    | with_reducible apply Ends.next
    | with_reducible apply Ends.ite
    | with_reducible apply Steady.ite
    | with_reducible apply motEnter_steady
    | with_reducible apply State.updMotion_steady
    | fail_if_no_progress (with_reducible refine Steady.lit (s := _) rfl ?_)
    | split

theorem execMotEnable_steady (m : Fin 16) (v : Bool) {r0 s : State} (h0 : Steady r0 s) : Ends r0 (execMotEnable m v s) := by
  unfold execMotEnable
  repeat' first
    | (extract_lets +onlyGivenNames x; refine Steady.cut (r := r0) x ?_ (fun hx => ?_); unfold x; clear x; rotate_left; clear_value x)
    | (extract_lets +onlyGivenNames x; unfold x; clear x)
    | with_reducible assumption
    | with_reducible apply Ends.next
    | with_reducible apply Ends.ite
    | with_reducible apply Steady.ite
    | with_reducible apply State.setReg_steady
    | with_reducible apply State.updMotion_steady
    | with_reducible apply motEnter_steady
    | fail_if_no_progress (with_reducible refine Steady.lit (s := _) rfl ?_)
    | split

theorem quickStopActs_steady (t : Nat) {r0 s : State} (h0 : Steady r0 s) : Steady r0 (quickStopActs t s) := by
  unfold quickStopActs
  repeat' first
    | (extract_lets +onlyGivenNames x; refine Steady.cut (r := r0) x ?_ (fun hx => ?_); unfold x; clear x; rotate_left; clear_value x)
    | (extract_lets +onlyGivenNames x; unfold x; clear x)
    | with_reducible assumption
    | with_reducible refine Steady.foldl _ _ ?_ (fun _ _ _ => ?_)
    | with_reducible apply motQuickStop_steady
    | with_reducible apply transFault_steady
    | fail_if_no_progress (with_reducible refine Steady.lit (s := _) rfl ?_)
    | split

theorem execQuickStopInAssert_steady (t : Fin 96) {r0 s : State} (h0 : Steady r0 s) : Ends r0 (execQuickStopInAssert t s) := by
  unfold execQuickStopInAssert
  repeat' first
    | with_reducible assumption
    | with_reducible apply Ends.next
    | with_reducible apply Ends.ite
    | with_reducible apply Steady.ite
    | with_reducible apply quickStopActs_steady
    | with_reducible apply stampTio_steady
    | split

theorem execQuickStopInRelease_steady (t : Fin 96) {r0 s : State} (h0 : Steady r0 s) : Ends r0 (execQuickStopInRelease t s) := by
  unfold execQuickStopInRelease
  repeat' first
    | with_reducible assumption
    | with_reducible apply Ends.next
    | with_reducible apply Ends.ite
    | with_reducible apply Steady.ite
    | with_reducible apply stampTio_steady
    | split

theorem execPosWireFault_steady (c : Fin 16) {r0 s : State} (h0 : Steady r0 s) : Ends r0 (execPosWireFault c s) := by
  unfold execPosWireFault
  repeat' first
    | (extract_lets +onlyGivenNames x; refine Steady.cut (r := r0) x ?_ (fun hx => ?_); unfold x; clear x; rotate_left; clear_value x)
    | (extract_lets +onlyGivenNames x; unfold x; clear x)
    | with_reducible assumption
    | with_reducible apply Ends.next
    | with_reducible apply Ends.ite
    | with_reducible apply Steady.ite
    | with_reducible refine Steady.foldl _ _ ?_ (fun _ _ _ => ?_)
    | with_reducible apply State.updPosChan_steady
    | with_reducible apply State.count_steady
    | with_reducible apply State.raiseFault_steady
    | with_reducible apply seamAbort_steady
    | fail_if_no_progress (with_reducible refine Steady.lit (s := _) rfl ?_)
    | split

theorem execSeamStop_steady (u : Fin 16) {r0 s : State} (h0 : Steady r0 s) : Ends r0 (execSeamStop u s) := by
  unfold execSeamStop
  repeat' first
    | with_reducible assumption
    | with_reducible apply Ends.next
    | with_reducible apply stopRequest_steady

theorem startBackup_steady (u : Nat) {r0 s : State} (h0 : Steady r0 s) : Steady r0 (startBackup u s) := by
  unfold startBackup
  repeat' first
    | (extract_lets +onlyGivenNames x; refine Steady.cut (r := r0) x ?_ (fun hx => ?_); unfold x; clear x; rotate_left; clear_value x)
    | (extract_lets +onlyGivenNames x; unfold x; clear x)
    | with_reducible assumption
    | with_reducible apply Steady.ite
    | with_reducible apply State.updTrans_steady
    | with_reducible apply State.updMotion_steady
    | fail_if_no_progress (with_reducible refine Steady.lit (s := _) rfl ?_)
    | split

theorem execSeamRestart_steady (u : Fin 16) {r0 s : State} (h0 : Steady r0 s) : Ends r0 (execSeamRestart u s) := by
  unfold execSeamRestart
  repeat' first
    | (extract_lets +onlyGivenNames x; refine Steady.cut (r := r0) x ?_ (fun hx => ?_); unfold x; clear x; rotate_left; clear_value x)
    | (extract_lets +onlyGivenNames x; unfold x; clear x)
    | with_reducible assumption
    | with_reducible apply Ends.next
    | with_reducible apply Ends.ite
    | with_reducible apply Steady.ite
    | with_reducible refine Steady.foldl _ _ ?_ (fun _ _ _ => ?_)
    | with_reducible apply startBackup_steady
    | with_reducible apply State.updSeam_steady
    | fail_if_no_progress (with_reducible refine Steady.lit (s := _) rfl ?_)
    | split

theorem execBackupStart_steady (u : Fin 16) {r0 s : State} (h0 : Steady r0 s) : Ends r0 (execBackupStart u s) := by
  unfold execBackupStart
  repeat' first
    | (extract_lets +onlyGivenNames x; refine Steady.cut (r := r0) x ?_ (fun hx => ?_); unfold x; clear x; rotate_left; clear_value x)
    | (extract_lets +onlyGivenNames x; unfold x; clear x)
    | with_reducible assumption
    | with_reducible apply Ends.next
    | with_reducible apply Ends.ite
    | with_reducible apply Steady.ite
    | with_reducible apply startBackup_steady
    | fail_if_no_progress (with_reducible refine Steady.lit (s := _) rfl ?_)
    | split

theorem execRestartStart_steady (u : Fin 16) {r0 s : State} (h0 : Steady r0 s) : Ends r0 (execRestartStart u s) := by
  unfold execRestartStart
  repeat' first
    | (extract_lets +onlyGivenNames x; refine Steady.cut (r := r0) x ?_ (fun hx => ?_); unfold x; clear x; rotate_left; clear_value x)
    | (extract_lets +onlyGivenNames x; unfold x; clear x)
    | with_reducible assumption
    | with_reducible apply Ends.next
    | with_reducible apply Ends.ite
    | with_reducible apply Steady.ite
    | with_reducible apply State.updTrans_steady
    | with_reducible apply State.setReg_steady
    | with_reducible apply State.updMotion_steady
    | fail_if_no_progress (with_reducible refine Steady.lit (s := _) rfl ?_)
    | split

theorem takePreset_steady (u k : Nat) {r0 s : State} (h0 : Steady r0 s) : Steady r0 (takePreset u k s) := by
  unfold takePreset
  repeat' first
    | (extract_lets +onlyGivenNames x; refine Steady.cut (r := r0) x ?_ (fun hx => ?_); unfold x; clear x; rotate_left; clear_value x)
    | (extract_lets +onlyGivenNames x; refine Steady.cut2 (r := r0) x ?_ (fun hx => ?_); unfold x; clear x; rotate_left; clear_value x)
    | (extract_lets +onlyGivenNames x; refine Steady.cut1 (r := r0) x ?_ (fun hx => ?_); unfold x; clear x; rotate_left; clear_value x)
    | (extract_lets +onlyGivenNames x; unfold x; clear x)
    | with_reducible assumption
    | with_reducible apply Steady.ite
    | with_reducible apply State.updTrans_steady
    | with_reducible apply State.updMotion_steady
    | with_reducible apply State.raise_steady
    | fail_if_no_progress (with_reducible refine Steady.lit (s := _) rfl ?_)
    | split

theorem paceFixed_steady (u : Nat) {r0 s : State} (h0 : Steady r0 s) : Steady r0 (paceFixed u s) := by
  unfold paceFixed
  repeat' first
    | (extract_lets +onlyGivenNames x; refine Steady.cut (r := r0) x ?_ (fun hx => ?_); unfold x; clear x; rotate_left; clear_value x)
    | (extract_lets +onlyGivenNames x; unfold x; clear x)
    | with_reducible assumption
    | with_reducible apply Steady.ite
    | with_reducible apply takePreset_steady
    | split

theorem pacingHold_steady (u : Nat) (up : Bool) {r0 s : State} (h0 : Steady r0 s) : Steady r0 (pacingHold u up s) := by
  unfold pacingHold
  repeat' first
    | (extract_lets +onlyGivenNames x; refine Steady.cut (r := r0) x ?_ (fun hx => ?_); unfold x; clear x; rotate_left; clear_value x)
    | (extract_lets +onlyGivenNames x; unfold x; clear x)
    | with_reducible assumption
    | with_reducible apply Steady.ite
    | with_reducible apply State.updTrans_steady
    | with_reducible apply State.count_steady
    | with_reducible apply State.raise_steady
    | fail_if_no_progress (with_reducible refine Steady.lit (s := _) rfl ?_)
    | split

theorem execPacingEval_steady (u : Fin 16) {r0 s : State} (h0 : Steady r0 s) : Ends r0 (execPacingEval u s) := by
  unfold execPacingEval
  repeat' first
    | (extract_lets +onlyGivenNames x; refine Steady.cut (r := r0) x ?_ (fun hx => ?_); unfold x; clear x; rotate_left; clear_value x)
    | (extract_lets +onlyGivenNames x; refine Steady.cut2 (r := r0) x ?_ (fun hx => ?_); unfold x; clear x; rotate_left; clear_value x)
    | (extract_lets +onlyGivenNames x; refine Steady.cut1 (r := r0) x ?_ (fun hx => ?_); unfold x; clear x; rotate_left; clear_value x)
    | (extract_lets +onlyGivenNames x; unfold x; clear x)
    | with_reducible assumption
    | with_reducible apply Ends.next
    | with_reducible apply Ends.ite
    | with_reducible apply Steady.ite
    | with_reducible apply State.loopRan_steady
    | with_reducible apply pacingHold_steady
    | with_reducible apply takePreset_steady
    | with_reducible apply State.updTrans_steady
    | fail_if_no_progress (with_reducible refine Steady.lit (s := _) rfl ?_)
    | split

end Sys2Proof.Machine
end

