-- ==== Sys2Proof/Laws/SteadyReservoir.lean ====
section
/-! SUPPORT. What the operations of Machine/Reservoir.lean keep. -/
namespace Sys2Proof.Machine

set_option linter.unusedTactic false
set_option linter.unreachableTactic false

theorem updPage_steady (st : Nat) (f : PageRec → PageRec) {r0 s : State} (h0 : Steady r0 s) : Steady r0 (updPage st f s) := by
  unfold updPage
  repeat' first
    | (extract_lets +onlyGivenNames x; refine Steady.cut (r := r0) x ?_ (fun hx => ?_); unfold x; clear x; rotate_left; clear_value x)
    | (extract_lets +onlyGivenNames x; unfold x; clear x)
    | with_reducible assumption
    | with_reducible apply State.updRing_steady
    | fail_if_no_progress (with_reducible refine Steady.lit (s := _) rfl ?_)
    | split

theorem divertPage_steady (st : Nat) {r0 s : State} (h0 : Steady r0 s) : Steady r0 (divertPage st s) := by
  unfold divertPage
  repeat' first
    | (extract_lets +onlyGivenNames x; refine Steady.cut (r := r0) x ?_ (fun hx => ?_); unfold x; clear x; rotate_left; clear_value x)
    | (extract_lets +onlyGivenNames x; unfold x; clear x)
    | with_reducible assumption
    | with_reducible apply Steady.ite
    | with_reducible apply updPage_steady
    | with_reducible apply State.count_steady
    | with_reducible apply State.raise_steady
    | with_reducible apply drivePins_steady
    | with_reducible apply State.updSeam_steady
    | fail_if_no_progress (with_reducible refine Steady.lit (s := _) rfl ?_)
    | split

theorem holdPage_steady (st : Nat) {r0 s : State} (h0 : Steady r0 s) : Steady r0 (holdPage st s) := by
  unfold holdPage
  repeat' first
    | (extract_lets +onlyGivenNames x; refine Steady.cut (r := r0) x ?_ (fun hx => ?_); unfold x; clear x; rotate_left; clear_value x)
    | (extract_lets +onlyGivenNames x; unfold x; clear x)
    | with_reducible assumption
    | with_reducible apply Steady.ite
    | with_reducible apply updPage_steady
    | with_reducible apply State.updRing_steady
    | with_reducible apply State.updChan_steady
    | with_reducible apply State.count_steady
    | with_reducible apply State.raise_steady
    | with_reducible apply State.updSeam_steady
    | with_reducible apply divertPage_steady
    | fail_if_no_progress (with_reducible refine Steady.lit (s := _) rfl ?_)
    | split

theorem weirEval_steady (st : Nat) {r0 s : State} (h0 : Steady r0 s) : Steady r0 (weirEval st s) := by
  unfold weirEval
  repeat' first
    | (extract_lets +onlyGivenNames x; refine Steady.cut (r := r0) x ?_ (fun hx => ?_); unfold x; clear x; rotate_left; clear_value x)
    | (extract_lets +onlyGivenNames x; refine Steady.cut2 (r := r0) x ?_ (fun hx => ?_); unfold x; clear x; rotate_left; clear_value x)
    | (extract_lets +onlyGivenNames x; refine Steady.cut1 (r := r0) x ?_ (fun hx => ?_); unfold x; clear x; rotate_left; clear_value x)
    | (extract_lets +onlyGivenNames x; unfold x; clear x)
    | with_reducible assumption
    | with_reducible apply Steady.ite
    | with_reducible refine Steady.foldl1 _ _ ?_ (fun _ _ _ => ?_)
    | with_reducible refine Steady.foldl2 _ _ ?_ (fun _ _ _ => ?_)
    | with_reducible refine Steady.foldl _ _ ?_ (fun _ _ _ => ?_)
    | with_reducible apply State.updRing_steady
    | with_reducible apply drivePins_steady
    | with_reducible apply stopRequest_steady
    | with_reducible apply holdPage_steady
    | fail_if_no_progress (with_reducible refine Steady.lit (s := _) rfl ?_)
    | split

theorem moveMark_steady (st : Nat) (f : Ring → Ring) {r0 s : State} (h0 : Steady r0 s) : Steady r0 (moveMark st f s) := by
  unfold moveMark
  repeat' first
    | with_reducible assumption
    | with_reducible apply weirEval_steady
    | with_reducible apply State.updRing_steady

theorem markInPage_steady (st first last : Nat) {r0 s : State} (h0 : Steady r0 s) : Steady r0 (markInPage st first last s) := by
  unfold markInPage
  repeat' first
    | with_reducible assumption
    | with_reducible apply Steady.ite
    | with_reducible apply State.updRing_steady
    | fail_if_no_progress (with_reducible refine Steady.lit (s := _) rfl ?_)
    | split

theorem closePage_steady (st last : Nat) (maxLength ended : Bool) {r0 s : State} (h0 : Steady r0 s) : Steady r0 (closePage st last maxLength ended s) := by
  unfold closePage
  repeat' first
    | (extract_lets +onlyGivenNames x; refine Steady.cut (r := r0) x ?_ (fun hx => ?_); unfold x; clear x; rotate_left; clear_value x)
    | (extract_lets +onlyGivenNames x; unfold x; clear x)
    | with_reducible assumption
    | with_reducible apply Steady.ite
    | with_reducible apply State.updRing_steady
    | with_reducible apply State.countWrap_steady
    | with_reducible apply State.raise_steady
    | with_reducible apply markInPage_steady
    | with_reducible apply State.updSeam_steady
    | fail_if_no_progress (with_reducible refine Steady.lit (s := _) rfl ?_)
    | split

theorem openPage_steady (st first : Nat) {r0 s : State} (h0 : Steady r0 s) : Steady r0 (openPage st first s) := by
  unfold openPage
  repeat' first
    | (extract_lets +onlyGivenNames x; refine Steady.cut (r := r0) x ?_ (fun hx => ?_); unfold x; clear x; rotate_left; clear_value x)
    | (extract_lets +onlyGivenNames x; unfold x; clear x)
    | with_reducible assumption
    | with_reducible apply Steady.ite
    | with_reducible apply State.updRing_steady
    | with_reducible apply markInPage_steady
    | with_reducible apply divertPage_steady
    | with_reducible apply holdPage_steady
    | with_reducible apply moveMark_steady
    | with_reducible apply State.updSeam_steady
    | fail_if_no_progress (with_reducible refine Steady.lit (s := _) rfl ?_)
    | split

theorem pageFrom_steady (st cyc : Nat) (reg : Obj → Nat) {r0 s : State} (h0 : Steady r0 s) : Steady r0 (pageFrom st cyc reg s) := by
  unfold pageFrom
  repeat' first
    | (extract_lets +onlyGivenNames x; refine Steady.cut (r := r0) x ?_ (fun hx => ?_); unfold x; clear x; rotate_left; clear_value x)
    | (extract_lets +onlyGivenNames x; unfold x; clear x)
    | with_reducible assumption
    | with_reducible apply Steady.ite
    | with_reducible apply State.updRing_steady
    | with_reducible apply closePage_steady
    | with_reducible apply openPage_steady
    | fail_if_no_progress (with_reducible refine Steady.lit (s := _) rfl ?_)
    | split

theorem takeGates_steady (st : Nat) (l : LineSum) (n : Nat) {r0 s : State} (h0 : Steady r0 s) : Steady r0 (takeGates st l n s) := by
  induction n generalizing s with
  | zero => exact h0
  | succ n ih =>
  unfold takeGates
  repeat' first
    | with_reducible apply ih
    | (extract_lets +onlyGivenNames x; refine Steady.cut (r := r0) x ?_ (fun hx => ?_); unfold x; clear x; rotate_left; clear_value x)
    | (extract_lets +onlyGivenNames x; unfold x; clear x)
    | with_reducible assumption
    | with_reducible apply Steady.ite
    | with_reducible apply State.updRing_steady
    | with_reducible apply pageFrom_steady
    | fail_if_no_progress (with_reducible refine Steady.lit (s := _) rfl ?_)
    | split

theorem adaptTheta_steady (st : Nat) (reg : Obj → Nat) (vals : List Nat) {r0 s : State} (h0 : Steady r0 s) : Steady r0 (adaptTheta st reg vals s) := by
  unfold adaptTheta
  repeat' first
    | (extract_lets +onlyGivenNames x; refine Steady.cut (r := r0) x ?_ (fun hx => ?_); unfold x; clear x; rotate_left; clear_value x)
    | (extract_lets +onlyGivenNames x; unfold x; clear x)
    | with_reducible assumption
    | with_reducible apply Steady.ite
    | with_reducible apply State.setReg_steady
    | with_reducible apply State.updRing_steady
    | with_reducible apply State.count_steady
    | with_reducible apply State.raise_steady
    | fail_if_no_progress (with_reducible refine Steady.lit (s := _) rfl ?_)
    | split

theorem takeEdge_steady (st : Nat) (l : LineSum) {r0 s : State} (h0 : Steady r0 s) : Steady r0 (takeEdge st l s).2 := by
  unfold takeEdge
  repeat' first
    | (extract_lets +onlyGivenNames x; refine Steady.cut (r := r0) x ?_ (fun hx => ?_); unfold x; clear x; rotate_left; clear_value x)
    | (extract_lets +onlyGivenNames x; refine Steady.cut2 (r := r0) x ?_ (fun hx => ?_); unfold x; clear x; rotate_left; clear_value x)
    | (extract_lets +onlyGivenNames x; refine Steady.cut1 (r := r0) x ?_ (fun hx => ?_); unfold x; clear x; rotate_left; clear_value x)
    | (extract_lets +onlyGivenNames x; unfold x; clear x)
    | with_reducible assumption
    | with_reducible apply Steady.ite
    | with_reducible apply Steady.ite2
    | with_reducible apply State.updRing_steady
    | with_reducible apply pageFrom_steady
    | with_reducible apply adaptTheta_steady
    | fail_if_no_progress (with_reducible refine Steady.lit (s := _) rfl ?_)
    | split

theorem closeDue_steady (st cyc : Nat) {r0 s : State} (h0 : Steady r0 s) : Steady r0 (closeDue st cyc s) := by
  unfold closeDue
  repeat' first
    | (extract_lets +onlyGivenNames x; refine Steady.cut (r := r0) x ?_ (fun hx => ?_); unfold x; clear x; rotate_left; clear_value x)
    | (extract_lets +onlyGivenNames x; unfold x; clear x)
    | with_reducible assumption
    | with_reducible apply Steady.ite
    | with_reducible apply closePage_steady
    | fail_if_no_progress (with_reducible refine Steady.lit (s := _) rfl ?_)
    | split

theorem takeLine_steady (st : Nat) (l : LineSum) {r0 s : State} (h0 : Steady r0 s) : Steady r0 (takeLine st l s) := by
  unfold takeLine
  repeat' first
    | (extract_lets +onlyGivenNames x; refine Steady.cut (r := r0) x ?_ (fun hx => ?_); unfold x; clear x; rotate_left; clear_value x)
    | (extract_lets +onlyGivenNames x; refine Steady.cut2 (r := r0) x ?_ (fun hx => ?_); unfold x; clear x; rotate_left; clear_value x)
    | (extract_lets +onlyGivenNames x; refine Steady.cut1 (r := r0) x ?_ (fun hx => ?_); unfold x; clear x; rotate_left; clear_value x)
    | (extract_lets +onlyGivenNames x; unfold x; clear x)
    | with_reducible assumption
    | with_reducible apply Steady.ite
    | with_reducible apply State.updRing_steady
    | with_reducible apply takeGates_steady
    | with_reducible apply closeDue_steady
    | with_reducible apply openPage_steady
    | with_reducible apply updPage_steady
    | with_reducible apply divertPage_steady
    | with_reducible apply takeEdge_steady
    | with_reducible apply markInPage_steady
    | fail_if_no_progress (with_reducible refine Steady.lit (s := _) rfl ?_)
    | split

theorem pageAdvance_steady (st : Nat) (n : Nat) {r0 s : State} (h0 : Steady r0 s) : Steady r0 (pageAdvance st n s) := by
  induction n generalizing s with
  | zero => exact h0
  | succ n ih =>
  unfold pageAdvance
  repeat' first
    | with_reducible apply ih
    | (extract_lets +onlyGivenNames x; refine Steady.cut (r := r0) x ?_ (fun hx => ?_); unfold x; clear x; rotate_left; clear_value x)
    | (extract_lets +onlyGivenNames x; unfold x; clear x)
    | with_reducible assumption
    | with_reducible apply State.updRing_steady
    | with_reducible apply takeLine_steady
    | fail_if_no_progress (with_reducible refine Steady.lit (s := _) rfl ?_)
    | split

theorem gateEdge_steady (st t : Nat) (level : Bool) (stamp : Nat) (x : Int) {r0 s : State} (h0 : Steady r0 s) : Steady r0 (gateEdge st t level stamp x s) := by
  unfold gateEdge
  repeat' first
    | (extract_lets +onlyGivenNames x; refine Steady.cut (r := r0) x ?_ (fun hx => ?_); unfold x; clear x; rotate_left; clear_value x)
    | (extract_lets +onlyGivenNames x; unfold x; clear x)
    | with_reducible assumption
    | with_reducible apply Steady.ite
    | with_reducible apply State.updRing_steady
    | fail_if_no_progress (with_reducible refine Steady.lit (s := _) rfl ?_)
    | split

theorem execGateInEdge_steady (t : Fin 96) (level : Bool) {r0 s : State} (h0 : Steady r0 s) : Ends r0 (execGateInEdge t level s) := by
  unfold execGateInEdge
  repeat' first
    | (extract_lets +onlyGivenNames x; refine Steady.cut (r := r0) x ?_ (fun hx => ?_); unfold x; clear x; rotate_left; clear_value x)
    | (extract_lets +onlyGivenNames x; unfold x; clear x)
    | with_reducible assumption
    | with_reducible apply Ends.next
    | with_reducible apply Ends.ite
    | with_reducible apply Steady.ite
    | with_reducible apply stampTio_steady
    | with_reducible apply gateEdge_steady
    | split

theorem releaseGates_steady (st stamp : Nat) (p : Int) {r0 s : State} (h0 : Steady r0 s) : Steady r0 (releaseGates st stamp p s) := by
  unfold releaseGates
  repeat' first
    | (extract_lets +onlyGivenNames x; refine Steady.cut (r := r0) x ?_ (fun hx => ?_); unfold x; clear x; rotate_left; clear_value x)
    | (extract_lets +onlyGivenNames x; unfold x; clear x)
    | with_reducible assumption
    | with_reducible apply Steady.ite
    | with_reducible refine Steady.foldl _ _ ?_ (fun _ _ _ => ?_)
    | with_reducible apply State.updSeam_steady
    | with_reducible apply gateEdge_steady
    | fail_if_no_progress (with_reducible refine Steady.lit (s := _) rfl ?_)
    | split

theorem execDivertRelease_steady (u : Fin 16) {r0 s : State} (h0 : Steady r0 s) : Ends r0 (execDivertRelease u s) := by
  unfold execDivertRelease
  repeat' first
    | with_reducible assumption
    | with_reducible apply Ends.next
    | with_reducible apply Ends.ite
    | with_reducible apply Steady.ite
    | with_reducible refine Steady.foldl _ _ ?_ (fun _ _ _ => ?_)
    | with_reducible apply drivePins_steady
    | with_reducible apply State.updSeam_steady
    | fail_if_no_progress (with_reducible refine Steady.lit (s := _) rfl ?_)
    | split

theorem pendingMark_steady (st : Nat) (reg : Obj → Nat) {r0 s : State} (h0 : Steady r0 s) : Steady r0 (pendingMark st reg s) := by
  unfold pendingMark
  repeat' first
    | (extract_lets +onlyGivenNames x; refine Steady.cut (r := r0) x ?_ (fun hx => ?_); unfold x; clear x; rotate_left; clear_value x)
    | (extract_lets +onlyGivenNames x; unfold x; clear x)
    | with_reducible assumption
    | with_reducible apply Steady.ite
    | with_reducible apply State.updRing_steady
    | split

theorem writeTag_steady (r : LineRec) {r0 s : State} (h0 : Steady r0 s) : Steady r0 (writeTag r s) := by
  unfold writeTag
  repeat' first
    | (extract_lets +onlyGivenNames x; refine Steady.cut (r := r0) x ?_ (fun hx => ?_); unfold x; clear x; rotate_left; clear_value x)
    | (extract_lets +onlyGivenNames x; unfold x; clear x)
    | with_reducible assumption
    | with_reducible apply Steady.ite
    | with_reducible apply State.count_steady
    | with_reducible apply State.updRing_steady
    | with_reducible apply State.raiseFault_steady
    | with_reducible apply pageAdvance_steady
    | with_reducible apply pendingMark_steady
    | with_reducible apply State.updStrm_steady
    | with_reducible apply weirEval_steady
    | fail_if_no_progress (with_reducible refine Steady.lit (s := _) rfl ?_)
    | split

theorem releasePage_steady (st number : Nat) {r0 s : State} (h0 : Steady r0 s) : Steady r0 (releasePage st number s) := by
  unfold releasePage
  repeat' first
    | (extract_lets +onlyGivenNames x; refine Steady.cut (r := r0) x ?_ (fun hx => ?_); unfold x; clear x; rotate_left; clear_value x)
    | (extract_lets +onlyGivenNames x; refine Steady.cut2 (r := r0) x ?_ (fun hx => ?_); unfold x; clear x; rotate_left; clear_value x)
    | (extract_lets +onlyGivenNames x; refine Steady.cut1 (r := r0) x ?_ (fun hx => ?_); unfold x; clear x; rotate_left; clear_value x)
    | (extract_lets +onlyGivenNames x; unfold x; clear x)
    | with_reducible assumption
    | with_reducible apply Steady.ite
    | with_reducible refine Steady.foldl1 _ _ ?_ (fun _ _ _ => ?_)
    | with_reducible refine Steady.foldl2 _ _ ?_ (fun _ _ _ => ?_)
    | with_reducible refine Steady.foldl _ _ ?_ (fun _ _ _ => ?_)
    | with_reducible apply State.updRing_steady
    | with_reducible apply moveMark_steady
    | fail_if_no_progress (with_reducible refine Steady.lit (s := _) rfl ?_)
    | split

theorem execPageRelease_steady (st : Fin 64) (page : BitVec 32) {r0 s : State} (h0 : Steady r0 s) : Ends r0 (execPageRelease st page s) := by
  unfold execPageRelease
  repeat' first
    | with_reducible assumption
    | with_reducible apply Ends.next
    | with_reducible apply releasePage_steady

theorem execHostMark_steady (st : Fin 64) (k : Fin 8) (v : BitVec 64) {r0 s : State} (h0 : Steady r0 s) : Ends r0 (execHostMark st k v s) := by
  unfold execHostMark
  repeat' first
    | (extract_lets +onlyGivenNames x; refine Steady.cut (r := r0) x ?_ (fun hx => ?_); unfold x; clear x; rotate_left; clear_value x)
    | (extract_lets +onlyGivenNames x; unfold x; clear x)
    | with_reducible assumption
    | with_reducible apply Ends.next
    | with_reducible apply Ends.ite
    | with_reducible apply Steady.ite
    | with_reducible apply State.setReg_steady
    | with_reducible apply moveMark_steady
    | split

end Sys2Proof.Machine
end

