-- ==== Sys2Proof/Laws/SteadyCrossing.lean ====
section
/-! SUPPORT. What the operations of Machine/Crossing.lean keep. -/
namespace Sys2Proof.Machine

set_option linter.unusedTactic false
set_option linter.unreachableTactic false

theorem queueWeirEval_steady (q : Nat) {r0 s : State} (h0 : Steady r0 s) : Steady r0 (queueWeirEval q s) := by
  unfold queueWeirEval
  repeat' first
    | (extract_lets +onlyGivenNames x; refine Steady.cut (r := r0) x ?_ (fun hx => ?_); unfold x; clear x; rotate_left; clear_value x)
    | (extract_lets +onlyGivenNames x; refine Steady.cut2 (r := r0) x ?_ (fun hx => ?_); unfold x; clear x; rotate_left; clear_value x)
    | (extract_lets +onlyGivenNames x; refine Steady.cut1 (r := r0) x ?_ (fun hx => ?_); unfold x; clear x; rotate_left; clear_value x)
    | (extract_lets +onlyGivenNames x; unfold x; clear x)
    | with_reducible assumption
    | with_reducible apply Steady.ite
    | with_reducible apply drivePins_steady
    | with_reducible apply State.setQueue_steady
    | fail_if_no_progress (with_reducible refine Steady.lit (s := _) rfl ?_)
    | split

theorem queueTurn_steady (q : Nat) (f : Queue → Queue) {r0 s : State} (h0 : Steady r0 s) : Steady r0 (queueTurn q f s) := by
  unfold queueTurn
  repeat' first
    | (extract_lets +onlyGivenNames x; refine Steady.cut (r := r0) x ?_ (fun hx => ?_); unfold x; clear x; rotate_left; clear_value x)
    | (extract_lets +onlyGivenNames x; unfold x; clear x)
    | with_reducible assumption
    | with_reducible apply queueWeirEval_steady
    | with_reducible apply State.setQueue_steady

theorem flushQueue_steady (q : Nat) {r0 s : State} (h0 : Steady r0 s) : Steady r0 (flushQueue q s) := by
  unfold flushQueue
  repeat' first
    | with_reducible assumption
    | with_reducible apply queueTurn_steady
    | fail_if_no_progress (with_reducible refine Steady.lit (s := _) rfl ?_)

theorem readQueues_steady  {r0 s : State} (h0 : Steady r0 s) : Steady r0 (readQueues s) := by
  unfold readQueues
  repeat' first
    | with_reducible assumption
    | with_reducible refine Steady.foldl _ _ ?_ (fun _ _ _ => ?_)
    | with_reducible apply queueTurn_steady
    | fail_if_no_progress (with_reducible refine Steady.lit (s := _) rfl ?_)

theorem flushIsland_steady (n : Nat) {r0 s : State} (h0 : Steady r0 s) : Steady r0 (flushIsland n s) := by
  unfold flushIsland
  repeat' first
    | with_reducible assumption
    | with_reducible apply Steady.ite
    | with_reducible refine Steady.foldl1 _ _ ?_ (fun _ _ _ => ?_)
    | with_reducible refine Steady.foldl2 _ _ ?_ (fun _ _ _ => ?_)
    | with_reducible refine Steady.foldl _ _ ?_ (fun _ _ _ => ?_)
    | with_reducible apply flushQueue_steady
    | split

theorem flushStream_steady (st : Nat) {r0 s : State} (h0 : Steady r0 s) : Steady r0 (flushStream st s) := by
  unfold flushStream
  repeat' first
    | with_reducible assumption
    | with_reducible apply Steady.ite
    | with_reducible refine Steady.foldl _ _ ?_ (fun _ _ _ => ?_)
    | with_reducible apply flushQueue_steady
    | split

theorem markSlot_steady (st line : Nat) (lost : Bool) {r0 s : State} (h0 : Steady r0 s) : Steady r0 (markSlot st line lost s) := by
  unfold markSlot
  repeat' first
    | (extract_lets +onlyGivenNames x; refine Steady.cut (r := r0) x ?_ (fun hx => ?_); unfold x; clear x; rotate_left; clear_value x)
    | (extract_lets +onlyGivenNames x; unfold x; clear x)
    | with_reducible assumption
    | with_reducible apply Steady.ite
    | with_reducible apply State.updRing_steady
    | fail_if_no_progress (with_reducible refine Steady.lit (s := _) rfl ?_)
    | split

end Sys2Proof.Machine
end

