-- ==== Sys2Proof/Laws/SteadyLines.lean ====
section
/-! SUPPORT. What the operations of Machine/Lines.lean keep. -/
namespace Sys2Proof.Machine

set_option linter.unusedTactic false
set_option linter.unreachableTactic false

theorem updRec_steady (st line : Nat) (f : LineRec → LineRec) {r0 s : State} (h0 : Steady r0 s) : Steady r0 (updRec st line f s) := by
  unfold updRec
  repeat' first
    | with_reducible assumption
    | with_reducible apply Steady.ite
    | fail_if_no_progress (with_reducible refine Steady.lit (s := _) rfl ?_)
    | split

theorem dropRec_steady (st line : Nat) {r0 s : State} (h0 : Steady r0 s) : Steady r0 (dropRec st line s) := by
  unfold dropRec
  repeat' first
    | with_reducible assumption
    | fail_if_no_progress (with_reducible refine Steady.lit (s := _) rfl ?_)

theorem dropSegments_steady (st line : Nat) {r0 s : State} (h0 : Steady r0 s) : Steady r0 (dropSegments st line s) :=
  Steady.table h0 rfl rfl rfl rfl fun c => { c with slices := Table.rising_keys _ _ (fun _ => rfl) c.slices }

theorem driftHand_steady (r : LineRec) (m : Option Nat) {r0 s : State} (h0 : Steady r0 s) : Steady r0 (driftHand r m s) := by
  unfold driftHand
  repeat' first
    | (extract_lets +onlyGivenNames x; refine Steady.cut (r := r0) x ?_ (fun hx => ?_); unfold x; clear x; rotate_left; clear_value x)
    | (extract_lets +onlyGivenNames x; unfold x; clear x)
    | with_reducible assumption
    | with_reducible apply State.updStrm_steady
    | fail_if_no_progress (with_reducible refine Steady.lit (s := _) rfl ?_)

theorem captureEnters_steady (st line : Nat) {r0 s : State} (h0 : Steady r0 s) : Steady r0 (captureEnters st line s) := by
  unfold captureEnters
  repeat' first
    | with_reducible assumption
    | with_reducible apply Steady.ite
    | with_reducible apply State.updCalib_steady
    | fail_if_no_progress (with_reducible refine Steady.lit (s := _) rfl ?_)
    | split

theorem failCapture_steady (st result : Nat) {r0 s : State} (h0 : Steady r0 s) : Steady r0 (failCapture st result s) := by
  unfold failCapture
  repeat' first
    | (extract_lets +onlyGivenNames x; refine Steady.cut (r := r0) x ?_ (fun hx => ?_); unfold x; clear x; rotate_left; clear_value x)
    | (extract_lets +onlyGivenNames x; unfold x; clear x)
    | with_reducible assumption
    | with_reducible apply Steady.ite
    | with_reducible apply State.updCalib_steady
    | with_reducible apply State.raise_steady
    | fail_if_no_progress (with_reducible refine Steady.lit (s := _) rfl ?_)
    | split

theorem captureTake_steady (r : LineRec) {r0 s : State} (h0 : Steady r0 s) : Steady r0 (captureTake r s) := by
  unfold captureTake
  repeat' first
    | (extract_lets +onlyGivenNames x; refine Steady.cut (r := r0) x ?_ (fun hx => ?_); unfold x; clear x; rotate_left; clear_value x)
    | (extract_lets +onlyGivenNames x; refine Steady.cut2 (r := r0) x ?_ (fun hx => ?_); unfold x; clear x; rotate_left; clear_value x)
    | (extract_lets +onlyGivenNames x; refine Steady.cut1 (r := r0) x ?_ (fun hx => ?_); unfold x; clear x; rotate_left; clear_value x)
    | (extract_lets +onlyGivenNames x; unfold x; clear x)
    | with_reducible assumption
    | with_reducible apply Steady.ite
    | with_reducible refine Steady.foldl1 _ _ ?_ (fun _ _ _ => ?_)
    | with_reducible refine Steady.foldl2 _ _ ?_ (fun _ _ _ => ?_)
    | with_reducible refine Steady.foldl _ _ ?_ (fun _ _ _ => ?_)
    | with_reducible apply State.setCalib_steady
    | with_reducible apply failCapture_steady
    | fail_if_no_progress (with_reducible refine Steady.lit (s := _) rfl ?_)
    | split

theorem warmSample_steady (is : Nat → Bool) (v : Int) {r0 s : State} (h0 : Steady r0 s) : Steady r0 (warmSample is v s) := by
  unfold warmSample
  repeat' first
    | (extract_lets +onlyGivenNames x; refine Steady.cut (r := r0) x ?_ (fun hx => ?_); unfold x; clear x; rotate_left; clear_value x)
    | (extract_lets +onlyGivenNames x; refine Steady.cut2 (r := r0) x ?_ (fun hx => ?_); unfold x; clear x; rotate_left; clear_value x)
    | (extract_lets +onlyGivenNames x; refine Steady.cut1 (r := r0) x ?_ (fun hx => ?_); unfold x; clear x; rotate_left; clear_value x)
    | (extract_lets +onlyGivenNames x; unfold x; clear x)
    | with_reducible assumption
    | with_reducible apply Steady.ite
    | with_reducible refine Steady.foldl1 _ _ ?_ (fun _ _ _ => ?_)
    | with_reducible refine Steady.foldl2 _ _ ?_ (fun _ _ _ => ?_)
    | with_reducible refine Steady.foldl _ _ ?_ (fun _ _ _ => ?_)
    | fail_if_no_progress (with_reducible refine Steady.lit (s := _) rfl ?_)
    | split

theorem closeCheck_steady (st : Nat) {r0 s : State} (h0 : Steady r0 s) : Steady r0 (closeCheck st s) := by
  unfold closeCheck
  repeat' first
    | (extract_lets +onlyGivenNames x; refine Steady.cut (r := r0) x ?_ (fun hx => ?_); unfold x; clear x; rotate_left; clear_value x)
    | (extract_lets +onlyGivenNames x; unfold x; clear x)
    | with_reducible assumption
    | with_reducible apply Steady.ite
    | with_reducible apply flushStream_steady
    | with_reducible apply State.updStrm_steady
    | with_reducible apply closePage_steady
    | with_reducible apply State.updSeam_steady
    | with_reducible apply transStreamsClosed_steady
    | fail_if_no_progress (with_reducible refine Steady.lit (s := _) rfl ?_)
    | split

theorem completeLine_steady (r : LineRec) {r0 s : State} (h0 : Steady r0 s) : Steady r0 (completeLine r s) := by
  unfold completeLine
  repeat' first
    | (extract_lets +onlyGivenNames x; refine Steady.cut (r := r0) x ?_ (fun hx => ?_); unfold x; clear x; rotate_left; clear_value x)
    | (extract_lets +onlyGivenNames x; unfold x; clear x)
    | with_reducible assumption
    | with_reducible apply Steady.ite
    | with_reducible apply driftHand_steady
    | with_reducible apply warmSample_steady
    | with_reducible apply closeCheck_steady
    | with_reducible apply dropRec_steady
    | with_reducible apply captureTake_steady
    | with_reducible apply writeTag_steady
    | fail_if_no_progress (with_reducible refine Steady.lit (s := _) rfl ?_)
    | split

theorem loseRec_steady (r : LineRec) {r0 s : State} (h0 : Steady r0 s) : Steady r0 (loseRec r s) := by
  unfold loseRec
  repeat' first
    | (extract_lets +onlyGivenNames x; refine Steady.cut (r := r0) x ?_ (fun hx => ?_); unfold x; clear x; rotate_left; clear_value x)
    | (extract_lets +onlyGivenNames x; unfold x; clear x)
    | with_reducible assumption
    | with_reducible apply dropSegments_steady
    | with_reducible apply driftHand_steady
    | with_reducible apply closeCheck_steady
    | with_reducible apply dropRec_steady
    | with_reducible apply captureTake_steady
    | with_reducible apply writeTag_steady
    | fail_if_no_progress (with_reducible refine Steady.lit (s := _) rfl ?_)

theorem loseLine_steady (st line : Nat) {r0 s : State} (h0 : Steady r0 s) : Steady r0 (loseLine st line s) := by
  unfold loseLine
  repeat' first
    | with_reducible assumption
    | with_reducible apply loseRec_steady
    | fail_if_no_progress (with_reducible refine Steady.lit (s := _) rfl ?_)
    | split

theorem lineCheck_steady (st line : Nat) {r0 s : State} (h0 : Steady r0 s) : Steady r0 (lineCheck st line s) := by
  unfold lineCheck
  repeat' first
    | with_reducible assumption
    | with_reducible apply Steady.ite
    | with_reducible apply completeLine_steady
    | fail_if_no_progress (with_reducible refine Steady.lit (s := _) rfl ?_)
    | split

theorem closeDeferred_steady (g : Nat) {r0 s : State} (h0 : Steady r0 s) : Steady r0 (closeDeferred g s) := by
  unfold closeDeferred
  repeat' first
    | (extract_lets +onlyGivenNames x; refine Steady.cut (r := r0) x ?_ (fun hx => ?_); unfold x; clear x; rotate_left; clear_value x)
    | (extract_lets +onlyGivenNames x; unfold x; clear x)
    | with_reducible assumption
    | with_reducible apply Steady.ite
    | with_reducible refine Steady.foldl _ _ ?_ (fun _ _ _ => ?_)
    | with_reducible apply loseLine_steady
    | with_reducible apply updRec_steady
    | fail_if_no_progress (with_reducible refine Steady.lit (s := _) rfl ?_)
    | split

theorem closeStream_steady (st : Nat) {r0 s : State} (h0 : Steady r0 s) : Steady r0 (closeStream st s) := by
  unfold closeStream
  repeat' first
    | (extract_lets +onlyGivenNames x; refine Steady.cut (r := r0) x ?_ (fun hx => ?_); unfold x; clear x; rotate_left; clear_value x)
    | (extract_lets +onlyGivenNames x; refine Steady.cut2 (r := r0) x ?_ (fun hx => ?_); unfold x; clear x; rotate_left; clear_value x)
    | (extract_lets +onlyGivenNames x; refine Steady.cut1 (r := r0) x ?_ (fun hx => ?_); unfold x; clear x; rotate_left; clear_value x)
    | (extract_lets +onlyGivenNames x; unfold x; clear x)
    | with_reducible assumption
    | with_reducible apply Steady.ite
    | with_reducible refine Steady.foldl1 _ _ ?_ (fun _ _ _ => ?_)
    | with_reducible refine Steady.foldl2 _ _ ?_ (fun _ _ _ => ?_)
    | with_reducible refine Steady.foldl _ _ ?_ (fun _ _ _ => ?_)
    | with_reducible apply dropSegments_steady
    | with_reducible apply dropRec_steady
    | with_reducible apply State.updStrm_steady
    | with_reducible apply failCapture_steady
    | with_reducible apply updRec_steady
    | with_reducible apply closeCheck_steady
    | with_reducible apply writeTag_steady
    | (refine Steady.table (s := x) hx rfl rfl rfl rfl fun c => { c with ports := Table.rising_keys _ _ (fun _ => rfl) c.ports })
    | fail_if_no_progress (with_reducible refine Steady.lit (s := _) rfl ?_)
    | split

end Sys2Proof.Machine
end

