-- ==== Sys2Proof/Laws/SteadyLinks.lean ====
section
/-! SUPPORT. What the operations of Machine/Links.lean keep. -/
namespace Sys2Proof.Machine

set_option linter.unusedTactic false
set_option linter.unreachableTactic false

theorem sendPacket_steady (g : Nat) (p : BackPacket) (replay : Bool) {r0 s : State} (h0 : Steady r0 s) : Steady r0 (sendPacket g p replay s) := by
  unfold sendPacket
  repeat' first
    | with_reducible assumption
    | with_reducible apply Steady.ite
    | with_reducible apply sendBlocks_steady
    | split

theorem sendUnsent_steady (n g : Nat) {r0 s : State} (h0 : Steady r0 s) : Steady r0 (sendUnsent n g s) := by
  induction n generalizing s with
  | zero => exact h0
  | succ n ih =>
    unfold sendUnsent
    dsimp only
    split
    · exact h0
    · exact Steady.ite h0 (ih (sendPacket_steady _ _ _ (State.setGroup_steady _ _ h0)))

theorem sendBack_steady (g ptype sub : Nat) (payload : Bytes) {r0 s : State} (h0 : Steady r0 s) : Steady r0 (sendBack g ptype sub payload s) := by
  unfold sendBack
  repeat' first
    | (extract_lets +onlyGivenNames x; refine Steady.cut (r := r0) x ?_ (fun hx => ?_); unfold x; clear x; rotate_left; clear_value x)
    | (extract_lets +onlyGivenNames x; unfold x; clear x)
    | with_reducible assumption
    | with_reducible apply State.updGroup_steady
    | with_reducible apply sendUnsent_steady
    | fail_if_no_progress (with_reducible refine Steady.lit (s := _) rfl ?_)

theorem sendAck_steady (g id psn : Nat) (nak : Bool) {r0 s : State} (h0 : Steady r0 s) : Steady r0 (sendAck g id psn nak s) := by
  unfold sendAck
  repeat' first
    | with_reducible assumption
    | with_reducible apply sendMsg_steady

theorem keepAwake_steady (g : Nat) {r0 s : State} (h0 : Steady r0 s) : Steady r0 (keepAwake g s) := by
  unfold keepAwake
  repeat' first
    | with_reducible assumption
    | with_reducible apply Steady.ite
    | with_reducible refine Steady.foldl _ _ ?_ (fun _ _ _ => ?_)
    | with_reducible apply wakeBackChannel_steady
    | with_reducible apply State.updLane_steady
    | fail_if_no_progress (with_reducible refine Steady.lit (s := _) rfl ?_)
    | split

theorem sendCtlReq_steady (g : Nat) (a : CtlAccess) {r0 s : State} (h0 : Steady r0 s) : Steady r0 (sendCtlReq g a s) := by
  unfold sendCtlReq
  repeat' first
    | (extract_lets +onlyGivenNames x; refine Steady.cut (r := r0) x ?_ (fun hx => ?_); unfold x; clear x; rotate_left; clear_value x)
    | (extract_lets +onlyGivenNames x; unfold x; clear x)
    | with_reducible assumption
    | with_reducible apply Steady.ite
    | with_reducible apply State.updGroup_steady
    | with_reducible apply sendBack_steady
    | with_reducible apply State.count_steady
    | fail_if_no_progress (with_reducible refine Steady.lit (s := _) rfl ?_)
    | split

theorem startAccess_steady (g address count : Nat) (write : Bool) (data : Bytes) (proxy : Bool) {r0 s : State} (h0 : Steady r0 s) : Steady r0 (startAccess g address count write data proxy s) := by
  unfold startAccess
  repeat' first
    | (extract_lets +onlyGivenNames x; refine Steady.cut (r := r0) x ?_ (fun hx => ?_); unfold x; clear x; rotate_left; clear_value x)
    | (extract_lets +onlyGivenNames x; unfold x; clear x)
    | with_reducible assumption
    | with_reducible apply Steady.ite
    | with_reducible apply State.updGroup_steady
    | with_reducible apply sendCtlReq_steady
    | fail_if_no_progress (with_reducible refine Steady.lit (s := _) rfl ?_)
    | split

theorem endAccess_steady (g : Nat) {r0 s : State} (h0 : Steady r0 s) : Steady r0 (endAccess g s) := by
  unfold endAccess
  repeat' first
    | with_reducible assumption
    | with_reducible apply State.updGroup_steady
    | with_reducible apply sendCtlReq_steady
    | fail_if_no_progress (with_reducible refine Steady.lit (s := _) rfl ?_)
    | split

theorem sendCancel_steady (g first last : Nat) {r0 s : State} (h0 : Steady r0 s) : Steady r0 (sendCancel g first last s) := by
  unfold sendCancel
  repeat' first
    | with_reducible assumption
    | with_reducible apply sendBack_steady
    | with_reducible apply State.updGroup_steady
    | fail_if_no_progress (with_reducible refine Steady.lit (s := _) rfl ?_)

theorem sendTimeSync_steady (g : Nat) {r0 s : State} (h0 : Steady r0 s) : Steady r0 (sendTimeSync g s) := by
  unfold sendTimeSync
  repeat' first
    | (extract_lets +onlyGivenNames x; refine Steady.cut (r := r0) x ?_ (fun hx => ?_); unfold x; clear x; rotate_left; clear_value x)
    | (extract_lets +onlyGivenNames x; unfold x; clear x)
    | with_reducible assumption
    | with_reducible apply State.updGroup_steady
    | with_reducible apply sendBack_steady
    | fail_if_no_progress (with_reducible refine Steady.lit (s := _) rfl ?_)

theorem updRx_steady (g id : Nat) (f : RxSeq → RxSeq) {r0 s : State} (h0 : Steady r0 s) : Steady r0 (updRx g id f s) := by
  unfold updRx
  repeat' first
    | with_reducible assumption
    | with_reducible apply State.updGroup_steady
    | fail_if_no_progress (with_reducible refine Steady.lit (s := _) rfl ?_)

theorem nakAgain_steady (g id psn : Nat) {r0 s : State} (h0 : Steady r0 s) : Steady r0 (nakAgain g id psn s) := by
  unfold nakAgain
  repeat' first
    | with_reducible assumption
    | with_reducible apply Steady.ite
    | with_reducible apply sendAck_steady
    | with_reducible apply updRx_steady
    | fail_if_no_progress (with_reducible refine Steady.lit (s := _) rfl ?_)
    | split

theorem nakPsn_steady (g id psn : Nat) {r0 s : State} (h0 : Steady r0 s) : Steady r0 (nakPsn g id psn s) := by
  unfold nakPsn
  repeat' first
    | with_reducible assumption
    | with_reducible apply Steady.ite
    | with_reducible apply nakAgain_steady
    | split

theorem acceptPsn_steady (g id psn : Nat) (replay : Bool) {r0 s : State} (h0 : Steady r0 s) : Steady r0 (acceptPsn g id psn replay s).1 := by
  unfold acceptPsn
  repeat' first
    | (extract_lets +onlyGivenNames x; refine Steady.cut (r := r0) x ?_ (fun hx => ?_); unfold x; clear x; rotate_left; clear_value x)
    | (extract_lets +onlyGivenNames x; unfold x; clear x)
    | with_reducible assumption
    | with_reducible apply Steady.ite
    | with_reducible apply Steady.ite1
    | with_reducible refine Steady.foldl _ _ ?_ (fun _ _ _ => ?_)
    | with_reducible apply State.count_steady
    | with_reducible apply updRx_steady
    | with_reducible apply nakPsn_steady
    | split

theorem replayEnd_steady (g id : Nat) {r0 s : State} (h0 : Steady r0 s) : Steady r0 (replayEnd g id s) := by
  unfold replayEnd
  repeat' first
    | with_reducible assumption
    | with_reducible apply Steady.ite
    | with_reducible apply closeDeferred_steady
    | split

theorem acceptHdr_steady (g : Nat) (h : CamHdr) {r0 s : State} (h0 : Steady r0 s) : Steady r0 (acceptHdr g h s).1 := by
  unfold acceptHdr
  repeat' first
    | (extract_lets +onlyGivenNames x; refine Steady.cut (r := r0) x ?_ (fun hx => ?_); unfold x; clear x; rotate_left; clear_value x)
    | (extract_lets +onlyGivenNames x; refine Steady.cut2 (r := r0) x ?_ (fun hx => ?_); unfold x; clear x; rotate_left; clear_value x)
    | (extract_lets +onlyGivenNames x; refine Steady.cut1 (r := r0) x ?_ (fun hx => ?_); unfold x; clear x; rotate_left; clear_value x)
    | (extract_lets +onlyGivenNames x; unfold x; clear x)
    | with_reducible assumption
    | with_reducible apply Steady.ite1
    | with_reducible apply acceptPsn_steady
    | with_reducible apply replayEnd_steady

theorem unmatched_steady (kind num seq : Nat) {r0 s : State} (h0 : Steady r0 s) : Steady r0 (unmatched kind num seq s) := by
  unfold unmatched
  repeat' first
    | (extract_lets +onlyGivenNames x; refine Steady.cut (r := r0) x ?_ (fun hx => ?_); unfold x; clear x; rotate_left; clear_value x)
    | (extract_lets +onlyGivenNames x; unfold x; clear x)
    | with_reducible assumption
    | with_reducible apply Steady.ite
    | with_reducible apply State.count_steady
    | with_reducible apply State.raise_steady
    | fail_if_no_progress (with_reducible refine Steady.lit (s := _) rfl ?_)
    | split

theorem arrivePixels_steady (r : LineRec) (k portion a width : Nat) (px : List Nat) {r0 s : State} (h0 : Steady r0 s) : Steady r0 (arrivePixels r k portion a width px s) := by
  unfold arrivePixels
  repeat' first
    | (extract_lets +onlyGivenNames x; refine Steady.cut (r := r0) x ?_ (fun hx => ?_); unfold x; clear x; rotate_left; clear_value x)
    | (extract_lets +onlyGivenNames x; refine Steady.cut2 (r := r0) x ?_ (fun hx => ?_); unfold x; clear x; rotate_left; clear_value x)
    | (extract_lets +onlyGivenNames x; refine Steady.cut1 (r := r0) x ?_ (fun hx => ?_); unfold x; clear x; rotate_left; clear_value x)
    | (extract_lets +onlyGivenNames x; unfold x; clear x)
    | with_reducible assumption
    | with_reducible apply Steady.ite
    | with_reducible apply updRec_steady
    | fail_if_no_progress (with_reducible refine Steady.lit (s := _) rfl ?_)
    | split

theorem execLineArrived_steady (src : Source) (seq : BitVec 32) (portion : Fin 9) (pixels : Nat) {r0 s : State} (h0 : Steady r0 s) : Ends r0 (execLineArrived src seq portion pixels s) := by
  unfold execLineArrived
  repeat' first
    | with_reducible assumption
    | with_reducible apply Ends.next
    | with_reducible apply Ends.ite
    | with_reducible apply Steady.ite
    | with_reducible apply updRec_steady
    | with_reducible apply unmatched_steady
    | fail_if_no_progress (with_reducible refine Steady.lit (s := _) rfl ?_)
    | split

theorem takePixels_steady (g id : Nat) (p : Packet) (f : PixelFields) {r0 s : State} (h0 : Steady r0 s) : Steady r0 (takePixels g id p f s) := by
  unfold takePixels
  repeat' first
    | (extract_lets +onlyGivenNames x; refine Steady.cut (r := r0) x ?_ (fun hx => ?_); unfold x; clear x; rotate_left; clear_value x)
    | (extract_lets +onlyGivenNames x; unfold x; clear x)
    | with_reducible assumption
    | with_reducible apply Steady.ite
    | with_reducible apply unmatched_steady
    | with_reducible apply State.count_steady
    | with_reducible apply noteIngest_steady
    | with_reducible apply updRec_steady
    | with_reducible apply arrivePixels_steady
    | fail_if_no_progress (with_reducible refine Steady.lit (s := _) rfl ?_)
    | split

theorem execAckInterval_steady (g : Fin 96) (id : Fin 9) {r0 s : State} (h0 : Steady r0 s) : Ends r0 (execAckInterval g id s) := by
  unfold execAckInterval
  repeat' first
    | with_reducible assumption
    | with_reducible apply Ends.next
    | with_reducible apply Ends.ite
    | with_reducible apply Steady.ite
    | with_reducible apply sendAck_steady
    | with_reducible apply updRx_steady
    | fail_if_no_progress (with_reducible refine Steady.lit (s := _) rfl ?_)
    | split

theorem execReplayTimeout_steady (g : Fin 96) (id : Fin 9) (psn : BitVec 16) {r0 s : State} (h0 : Steady r0 s) : Ends r0 (execReplayTimeout g id psn s) := by
  unfold execReplayTimeout
  repeat' first
    | (extract_lets +onlyGivenNames x; refine Steady.cut (r := r0) x ?_ (fun hx => ?_); unfold x; clear x; rotate_left; clear_value x)
    | (extract_lets +onlyGivenNames x; unfold x; clear x)
    | with_reducible assumption
    | with_reducible apply Ends.next
    | with_reducible apply Ends.ite
    | with_reducible apply Steady.ite
    | with_reducible apply sendAck_steady
    | with_reducible apply updRx_steady
    | with_reducible apply State.count_steady
    | with_reducible apply replayEnd_steady
    | with_reducible apply State.raiseFault_steady
    | fail_if_no_progress (with_reducible refine Steady.lit (s := _) rfl ?_)
    | split

theorem execAck_steady (g : Fin 96) (body : BitVec 32) {r0 s : State} (h0 : Steady r0 s) : Ends r0 (execAck g body s) := by
  unfold execAck
  repeat' first
    | (extract_lets +onlyGivenNames x; refine Steady.cut (r := r0) x ?_ (fun hx => ?_); unfold x; clear x; rotate_left; clear_value x)
    | (extract_lets +onlyGivenNames x; unfold x; clear x)
    | with_reducible assumption
    | with_reducible apply Ends.next
    | with_reducible apply Ends.ite
    | with_reducible apply Steady.ite
    | with_reducible apply sendPacket_steady
    | with_reducible apply sendUnsent_steady
    | with_reducible apply State.setGroup_steady
    | fail_if_no_progress (with_reducible refine Steady.lit (s := _) rfl ?_)
    | split

theorem sendOxbow_steady (g id : Nat) {r0 s : State} (h0 : Steady r0 s) : Steady r0 (sendOxbow g id s) := by
  unfold sendOxbow
  repeat' first
    | (extract_lets +onlyGivenNames x; refine Steady.cut (r := r0) x ?_ (fun hx => ?_); unfold x; clear x; rotate_left; clear_value x)
    | (extract_lets +onlyGivenNames x; unfold x; clear x)
    | with_reducible assumption
    | with_reducible apply Steady.ite
    | with_reducible refine Steady.foldl _ _ ?_ (fun _ _ _ => ?_)
    | with_reducible apply sendMsg_steady
    | with_reducible apply State.updGroup_steady
    | with_reducible apply sendPacket_steady
    | fail_if_no_progress (with_reducible refine Steady.lit (s := _) rfl ?_)
    | split

theorem execOxbowRecoveryEnd_steady (g : Fin 96) {r0 s : State} (h0 : Steady r0 s) : Ends r0 (execOxbowRecoveryEnd g s) := by
  unfold execOxbowRecoveryEnd
  repeat' first
    | with_reducible assumption
    | with_reducible apply Ends.next
    | with_reducible apply closeDeferred_steady
    | with_reducible apply State.updGroup_steady
    | fail_if_no_progress (with_reducible refine Steady.lit (s := _) rfl ?_)

theorem ctlRespTaken_steady (g address tag status : Nat) (data : Bytes) {r0 s : State} (h0 : Steady r0 s) : Steady r0 (ctlRespTaken g address tag status data s) := by
  unfold ctlRespTaken
  repeat' first
    | (extract_lets +onlyGivenNames x; refine Steady.cut (r := r0) x ?_ (fun hx => ?_); unfold x; clear x; rotate_left; clear_value x)
    | (extract_lets +onlyGivenNames x; unfold x; clear x)
    | with_reducible assumption
    | with_reducible apply Steady.ite
    | with_reducible apply State.updGroup_steady
    | with_reducible apply State.setReg_steady
    | with_reducible apply endAccess_steady
    | fail_if_no_progress (with_reducible refine Steady.lit (s := _) rfl ?_)
    | split

theorem execCtlResp_steady (g : Fin 96) (h : CamHdr) (address : BitVec 32) (tag : BitVec 16) (status : BitVec 8) (data : Bytes) {r0 s : State} (h0 : Steady r0 s) : Ends r0 (execCtlResp g h address tag status data s) := by
  unfold execCtlResp
  repeat' first
    | (extract_lets +onlyGivenNames x; refine Steady.cut (r := r0) x ?_ (fun hx => ?_); unfold x; clear x; rotate_left; clear_value x)
    | (extract_lets +onlyGivenNames x; refine Steady.cut2 (r := r0) x ?_ (fun hx => ?_); unfold x; clear x; rotate_left; clear_value x)
    | (extract_lets +onlyGivenNames x; refine Steady.cut1 (r := r0) x ?_ (fun hx => ?_); unfold x; clear x; rotate_left; clear_value x)
    | (extract_lets +onlyGivenNames x; unfold x; clear x)
    | with_reducible assumption
    | with_reducible apply Ends.next
    | with_reducible apply Ends.ite
    | with_reducible apply Steady.ite
    | with_reducible apply acceptHdr_steady
    | with_reducible apply ctlRespTaken_steady
    | split

theorem execCtlTimeout_steady (g : Fin 96) {r0 s : State} (h0 : Steady r0 s) : Ends r0 (execCtlTimeout g s) := by
  unfold execCtlTimeout
  repeat' first
    | (extract_lets +onlyGivenNames x; refine Steady.cut (r := r0) x ?_ (fun hx => ?_); unfold x; clear x; rotate_left; clear_value x)
    | (extract_lets +onlyGivenNames x; unfold x; clear x)
    | with_reducible assumption
    | with_reducible apply Ends.next
    | with_reducible apply Ends.ite
    | with_reducible apply Steady.ite
    | with_reducible apply sendCtlReq_steady
    | with_reducible apply State.setReg_steady
    | with_reducible apply endAccess_steady
    | with_reducible apply State.raiseFault_steady
    | fail_if_no_progress (with_reducible refine Steady.lit (s := _) rfl ?_)
    | split

theorem execCamRegRead_steady (g : Fin 96) {r0 s : State} (h0 : Steady r0 s) : Ends r0 (execCamRegRead g s) := by
  unfold execCamRegRead
  repeat' first
    | (extract_lets +onlyGivenNames x; refine Steady.cut (r := r0) x ?_ (fun hx => ?_); unfold x; clear x; rotate_left; clear_value x)
    | (extract_lets +onlyGivenNames x; unfold x; clear x)
    | with_reducible assumption
    | with_reducible apply Ends.next
    | with_reducible apply Ends.ite
    | with_reducible apply Steady.ite
    | with_reducible apply State.setReg_steady
    | with_reducible apply startAccess_steady
    | split

theorem execCamRegWrite_steady (g : Fin 96) {r0 s : State} (h0 : Steady r0 s) : Ends r0 (execCamRegWrite g s) := by
  unfold execCamRegWrite
  repeat' first
    | (extract_lets +onlyGivenNames x; refine Steady.cut (r := r0) x ?_ (fun hx => ?_); unfold x; clear x; rotate_left; clear_value x)
    | (extract_lets +onlyGivenNames x; unfold x; clear x)
    | with_reducible assumption
    | with_reducible apply Ends.next
    | with_reducible apply Ends.ite
    | with_reducible apply Steady.ite
    | with_reducible apply State.setReg_steady
    | with_reducible apply startAccess_steady
    | split

theorem readIdentity_steady (g : Nat) {r0 s : State} (h0 : Steady r0 s) : Steady r0 (readIdentity g s) := by
  unfold readIdentity
  repeat' first
    | (extract_lets +onlyGivenNames x; refine Steady.cut (r := r0) x ?_ (fun hx => ?_); unfold x; clear x; rotate_left; clear_value x)
    | (extract_lets +onlyGivenNames x; unfold x; clear x)
    | with_reducible assumption
    | with_reducible apply sendBack_steady
    | with_reducible apply State.updGroup_steady
    | fail_if_no_progress (with_reducible refine Steady.lit (s := _) rfl ?_)

theorem execLinkUp_steady (g : Fin 96) (regs : Bytes) {r0 s : State} (h0 : Steady r0 s) : Ends r0 (execLinkUp g regs s) := by
  unfold execLinkUp
  repeat' first
    | (extract_lets +onlyGivenNames x; refine Steady.cut (r := r0) x ?_ (fun hx => ?_); unfold x; clear x; rotate_left; clear_value x)
    | (extract_lets +onlyGivenNames x; unfold x; clear x)
    | with_reducible assumption
    | with_reducible apply Ends.next
    | with_reducible apply Ends.ite
    | with_reducible apply Steady.ite
    | with_reducible apply readIdentity_steady
    | with_reducible apply State.updGroup_steady
    | with_reducible apply sendTimeSync_steady
    | with_reducible apply startAccess_steady
    | with_reducible apply State.raise_steady
    | fail_if_no_progress (with_reducible refine Steady.lit (s := _) rfl ?_)
    | split

theorem execTimeSync_steady (g : Fin 96) {r0 s : State} (h0 : Steady r0 s) : Ends r0 (execTimeSync g s) := by
  unfold execTimeSync
  repeat' first
    | with_reducible assumption
    | with_reducible apply Ends.next
    | with_reducible apply Ends.ite
    | with_reducible apply Steady.ite
    | with_reducible apply sendTimeSync_steady
    | with_reducible apply State.loopRan_steady
    | split

theorem unlockTime_steady (g : Nat) {r0 s : State} (h0 : Steady r0 s) : Steady r0 (unlockTime g s) := by
  unfold unlockTime
  repeat' first
    | (extract_lets +onlyGivenNames x; refine Steady.cut (r := r0) x ?_ (fun hx => ?_); unfold x; clear x; rotate_left; clear_value x)
    | (extract_lets +onlyGivenNames x; unfold x; clear x)
    | with_reducible assumption
    | with_reducible apply Steady.ite
    | with_reducible apply State.updGroup_steady
    | with_reducible apply State.raiseFault_steady
    | fail_if_no_progress (with_reducible refine Steady.lit (s := _) rfl ?_)
    | split

theorem timeRespTaken_steady (g syncId t2 t3 t4 rate : Nat) {r0 s : State} (h0 : Steady r0 s) : Steady r0 (timeRespTaken g syncId t2 t3 t4 rate s) := by
  unfold timeRespTaken
  repeat' first
    | (extract_lets +onlyGivenNames x; refine Steady.cut (r := r0) x ?_ (fun hx => ?_); unfold x; clear x; rotate_left; clear_value x)
    | (extract_lets +onlyGivenNames x; unfold x; clear x)
    | with_reducible assumption
    | with_reducible apply Steady.ite
    | with_reducible apply State.updGroup_steady
    | with_reducible apply State.setReg_steady
    | with_reducible apply sendBack_steady
    | with_reducible apply unlockTime_steady
    | with_reducible apply startAccess_steady
    | fail_if_no_progress (with_reducible refine Steady.lit (s := _) rfl ?_)
    | split

theorem execTimeResp_steady (g : Fin 96) (h : CamHdr) (syncId : BitVec 16) (t2 t3 t4 : Nat) (rate : BitVec 32) {r0 s : State} (h0 : Steady r0 s) : Ends r0 (execTimeResp g h syncId t2 t3 t4 rate s) := by
  unfold execTimeResp
  repeat' first
    | (extract_lets +onlyGivenNames x; refine Steady.cut (r := r0) x ?_ (fun hx => ?_); unfold x; clear x; rotate_left; clear_value x)
    | (extract_lets +onlyGivenNames x; refine Steady.cut2 (r := r0) x ?_ (fun hx => ?_); unfold x; clear x; rotate_left; clear_value x)
    | (extract_lets +onlyGivenNames x; refine Steady.cut1 (r := r0) x ?_ (fun hx => ?_); unfold x; clear x; rotate_left; clear_value x)
    | (extract_lets +onlyGivenNames x; unfold x; clear x)
    | with_reducible assumption
    | with_reducible apply Ends.next
    | with_reducible apply Ends.ite
    | with_reducible apply Steady.ite
    | with_reducible apply acceptHdr_steady
    | with_reducible apply timeRespTaken_steady
    | split

theorem execTimeRespMissing_steady (g : Fin 96) {r0 s : State} (h0 : Steady r0 s) : Ends r0 (execTimeRespMissing g s) := by
  unfold execTimeRespMissing
  repeat' first
    | with_reducible assumption
    | with_reducible apply Ends.next
    | with_reducible apply Ends.ite
    | with_reducible apply Steady.ite
    | with_reducible apply unlockTime_steady
    | with_reducible apply State.updGroup_steady
    | fail_if_no_progress (with_reducible refine Steady.lit (s := _) rfl ?_)
    | split

theorem trigRejected_steady (g seq reason : Nat) {r0 s : State} (h0 : Steady r0 s) : Steady r0 (trigRejected g seq reason s) := by
  unfold trigRejected
  repeat' first
    | (extract_lets +onlyGivenNames x; refine Steady.cut (r := r0) x ?_ (fun hx => ?_); unfold x; clear x; rotate_left; clear_value x)
    | (extract_lets +onlyGivenNames x; unfold x; clear x)
    | with_reducible assumption
    | with_reducible apply State.count_steady
    | with_reducible apply State.raise_steady
    | with_reducible apply loseLine_steady
    | fail_if_no_progress (with_reducible refine Steady.lit (s := _) rfl ?_)
    | split

theorem execTrigReject_steady (g : Fin 96) (h : CamHdr) (seq : BitVec 32) (reason : BitVec 16) {r0 s : State} (h0 : Steady r0 s) : Ends r0 (execTrigReject g h seq reason s) := by
  unfold execTrigReject
  repeat' first
    | (extract_lets +onlyGivenNames x; refine Steady.cut (r := r0) x ?_ (fun hx => ?_); unfold x; clear x; rotate_left; clear_value x)
    | (extract_lets +onlyGivenNames x; refine Steady.cut2 (r := r0) x ?_ (fun hx => ?_); unfold x; clear x; rotate_left; clear_value x)
    | (extract_lets +onlyGivenNames x; refine Steady.cut1 (r := r0) x ?_ (fun hx => ?_); unfold x; clear x; rotate_left; clear_value x)
    | (extract_lets +onlyGivenNames x; unfold x; clear x)
    | with_reducible assumption
    | with_reducible apply Ends.next
    | with_reducible apply Ends.ite
    | with_reducible apply Steady.ite
    | with_reducible apply acceptHdr_steady
    | with_reducible apply trigRejected_steady
    | split

theorem execReplayFull_steady (g : Fin 96) (h : CamHdr) {r0 s : State} (h0 : Steady r0 s) : Ends r0 (execReplayFull g h s) := by
  unfold execReplayFull
  repeat' first
    | with_reducible assumption
    | with_reducible apply Ends.next
    | with_reducible apply acceptHdr_steady

theorem withdrawRec_steady (r : LineRec) {r0 s : State} (h0 : Steady r0 s) : Steady r0 (withdrawRec r s) := by
  unfold withdrawRec
  repeat' first
    | (extract_lets +onlyGivenNames x; refine Steady.cut (r := r0) x ?_ (fun hx => ?_); unfold x; clear x; rotate_left; clear_value x)
    | (extract_lets +onlyGivenNames x; unfold x; clear x)
    | with_reducible assumption
    | with_reducible apply Steady.ite
    | with_reducible apply dropRec_steady
    | with_reducible apply State.updCalib_steady
    | with_reducible apply State.updGen_steady
    | fail_if_no_progress (with_reducible refine Steady.lit (s := _) rfl ?_)
    | split

theorem slipRec_steady (r : LineRec) {r0 s : State} (h0 : Steady r0 s) : Steady r0 (slipRec r s) := by
  unfold slipRec
  repeat' first
    | with_reducible assumption
    | with_reducible apply updRec_steady
    | with_reducible apply State.count_steady
    | with_reducible apply State.raise_steady
    | fail_if_no_progress (with_reducible refine Steady.lit (s := _) rfl ?_)

theorem cancelAnswered_steady (r : LineRec) {r0 s : State} (h0 : Steady r0 s) : Steady r0 (cancelAnswered r s) := by
  unfold cancelAnswered
  repeat' first
    | with_reducible assumption
    | with_reducible apply Steady.ite
    | with_reducible apply slipRec_steady
    | with_reducible apply withdrawRec_steady
    | split

theorem cancelDone_steady (g arg : Nat) {r0 s : State} (h0 : Steady r0 s) : Steady r0 (cancelDone g arg s) := by
  unfold cancelDone
  repeat' first
    | (extract_lets +onlyGivenNames x; refine Steady.cut (r := r0) x ?_ (fun hx => ?_); unfold x; clear x; rotate_left; clear_value x)
    | (extract_lets +onlyGivenNames x; refine Steady.cut2 (r := r0) x ?_ (fun hx => ?_); unfold x; clear x; rotate_left; clear_value x)
    | (extract_lets +onlyGivenNames x; refine Steady.cut1 (r := r0) x ?_ (fun hx => ?_); unfold x; clear x; rotate_left; clear_value x)
    | (extract_lets +onlyGivenNames x; unfold x; clear x)
    | with_reducible assumption
    | with_reducible apply Steady.ite
    | with_reducible refine Steady.foldl1 _ _ ?_ (fun _ _ _ => ?_)
    | with_reducible refine Steady.foldl2 _ _ ?_ (fun _ _ _ => ?_)
    | with_reducible refine Steady.foldl _ _ ?_ (fun _ _ _ => ?_)
    | with_reducible apply State.updGroup_steady
    | with_reducible apply cancelAnswered_steady
    | fail_if_no_progress (with_reducible refine Steady.lit (s := _) rfl ?_)
    | split

theorem execCancelDone_steady (g : Fin 96) (h : CamHdr) (arg : BitVec 32) {r0 s : State} (h0 : Steady r0 s) : Ends r0 (execCancelDone g h arg s) := by
  unfold execCancelDone
  repeat' first
    | (extract_lets +onlyGivenNames x; refine Steady.cut (r := r0) x ?_ (fun hx => ?_); unfold x; clear x; rotate_left; clear_value x)
    | (extract_lets +onlyGivenNames x; refine Steady.cut2 (r := r0) x ?_ (fun hx => ?_); unfold x; clear x; rotate_left; clear_value x)
    | (extract_lets +onlyGivenNames x; refine Steady.cut1 (r := r0) x ?_ (fun hx => ?_); unfold x; clear x; rotate_left; clear_value x)
    | (extract_lets +onlyGivenNames x; unfold x; clear x)
    | with_reducible assumption
    | with_reducible apply Ends.next
    | with_reducible apply Ends.ite
    | with_reducible apply Steady.ite
    | with_reducible apply acceptHdr_steady
    | with_reducible apply cancelDone_steady
    | split

theorem execCameraEvent_steady (g : Fin 96) (h : CamHdr) (code reason : BitVec 16) (arg : BitVec 32) {r0 s : State} (h0 : Steady r0 s) : Ends r0 (execCameraEvent g h code reason arg s) := by
  unfold execCameraEvent
  repeat' first
    | (extract_lets +onlyGivenNames x; refine Steady.cut (r := r0) x ?_ (fun hx => ?_); unfold x; clear x; rotate_left; clear_value x)
    | (extract_lets +onlyGivenNames x; refine Steady.cut2 (r := r0) x ?_ (fun hx => ?_); unfold x; clear x; rotate_left; clear_value x)
    | (extract_lets +onlyGivenNames x; refine Steady.cut1 (r := r0) x ?_ (fun hx => ?_); unfold x; clear x; rotate_left; clear_value x)
    | (extract_lets +onlyGivenNames x; unfold x; clear x)
    | with_reducible assumption
    | with_reducible apply Ends.next
    | with_reducible apply Ends.ite
    | with_reducible apply Steady.ite
    | with_reducible apply acceptHdr_steady
    | with_reducible apply State.raise_steady
    | split

end Sys2Proof.Machine
end

