-- ==== Sys2Proof/Laws/SteadyAnalog.lean ====
section
/-! SUPPORT. What the operations of Machine/Analog.lean keep. -/
namespace Sys2Proof.Machine

set_option linter.unusedTactic false
set_option linter.unreachableTactic false

theorem drivePort_steady (p : Nat) (pin : Pin) (bit : Nat) (on : Bool) (at_ : Nat) {r0 s : State} (h0 : Steady r0 s) : Steady r0 (drivePort p pin bit on at_ s) := by
  unfold drivePort
  repeat' first
    | with_reducible assumption
    | with_reducible apply Steady.ite
    | with_reducible apply State.emit_steady
    | split

theorem startClock_steady (p at_ : Nat) (until_ : Option Nat) {r0 s : State} (h0 : Steady r0 s) : Steady r0 (startClock p at_ until_ s) := by
  unfold startClock
  repeat' first
    | with_reducible assumption
    | with_reducible apply Steady.ite
    | with_reducible apply State.emit_steady
    | with_reducible apply State.updPort_steady
    | fail_if_no_progress (with_reducible refine Steady.lit (s := _) rfl ?_)
    | split

theorem quietPort_steady (p : Nat) {r0 s : State} (h0 : Steady r0 s) : Steady r0 (quietPort p s) := by
  unfold quietPort
  repeat' first
    | (extract_lets +onlyGivenNames x; refine Steady.cut (r := r0) x ?_ (fun hx => ?_); unfold x; clear x; rotate_left; clear_value x)
    | (extract_lets +onlyGivenNames x; unfold x; clear x)
    | with_reducible assumption
    | with_reducible apply Steady.ite
    | with_reducible apply drivePort_steady
    | with_reducible apply State.emit_steady
    | with_reducible apply State.updPort_steady
    | fail_if_no_progress (with_reducible refine Steady.lit (s := _) rfl ?_)
    | split

theorem portDown_steady (p : Nat) {r0 s : State} (h0 : Steady r0 s) : Steady r0 (portDown p s) := by
  unfold portDown
  repeat' first
    | with_reducible assumption
    | with_reducible apply quietPort_steady
    | with_reducible apply State.updPort_steady
    | fail_if_no_progress (with_reducible refine Steady.lit (s := _) rfl ?_)

theorem portUp_steady (p : Nat) {r0 s : State} (h0 : Steady r0 s) : Steady r0 (portUp p s) := by
  unfold portUp
  repeat' first
    | (extract_lets +onlyGivenNames x; refine Steady.cut (r := r0) x ?_ (fun hx => ?_); unfold x; clear x; rotate_left; clear_value x)
    | (extract_lets +onlyGivenNames x; unfold x; clear x)
    | with_reducible assumption
    | with_reducible apply Steady.ite
    | with_reducible apply State.updPort_steady
    | with_reducible apply startClock_steady
    | with_reducible apply quietPort_steady
    | fail_if_no_progress (with_reducible refine Steady.lit (s := _) rfl ?_)
    | split

theorem dropPulses_steady (st line : Nat) {r0 s : State} (h0 : Steady r0 s) : Steady r0 (dropPulses st line s) := by
  unfold dropPulses
  repeat' first
    | with_reducible assumption
    | fail_if_no_progress (with_reducible refine Steady.lit (s := _) rfl ?_)

theorem execExposureWindowOpen_steady (p : Fin 32) (seq : BitVec 32) {r0 s : State} (h0 : Steady r0 s) : Ends r0 (execExposureWindowOpen p seq s) := by
  unfold execExposureWindowOpen
  repeat' first
    | (extract_lets +onlyGivenNames x; refine Steady.cut (r := r0) x ?_ (fun hx => ?_); unfold x; clear x; rotate_left; clear_value x)
    | (extract_lets +onlyGivenNames x; unfold x; clear x)
    | with_reducible assumption
    | with_reducible apply Ends.next
    | with_reducible apply Ends.ite
    | with_reducible apply Steady.ite
    | with_reducible apply State.updPort_steady
    | with_reducible apply State.count_steady
    | with_reducible apply loseLine_steady
    | with_reducible apply dropPulses_steady
    | with_reducible apply State.raise_steady
    | with_reducible apply State.setPort_steady
    | with_reducible apply drivePort_steady
    | with_reducible apply State.emit_steady
    | fail_if_no_progress (with_reducible refine Steady.lit (s := _) rfl ?_)
    | split

theorem updPortLine_steady (p seq : Nat) (f : PortLine → PortLine) {r0 s : State} (h0 : Steady r0 s) : Steady r0 (updPortLine p seq f s) := by
  unfold updPortLine
  repeat' first
    | with_reducible assumption
    | with_reducible apply Steady.ite
    | with_reducible apply State.updPort_steady
    | fail_if_no_progress (with_reducible refine Steady.lit (s := _) rfl ?_)
    | split

theorem losePortLine_steady (p seq : Nat) {r0 s : State} (h0 : Steady r0 s) : Steady r0 (losePortLine p seq s) := by
  unfold losePortLine
  repeat' first
    | (extract_lets +onlyGivenNames x; refine Steady.cut (r := r0) x ?_ (fun hx => ?_); unfold x; clear x; rotate_left; clear_value x)
    | (extract_lets +onlyGivenNames x; unfold x; clear x)
    | with_reducible assumption
    | with_reducible apply State.updPort_steady
    | with_reducible apply loseLine_steady
    | fail_if_no_progress (with_reducible refine Steady.lit (s := _) rfl ?_)
    | split

theorem execReadoutToken_steady (p : Fin 32) {r0 s : State} (h0 : Steady r0 s) : Ends r0 (execReadoutToken p s) := by
  unfold execReadoutToken
  repeat' first
    | (extract_lets +onlyGivenNames x; refine Steady.cut (r := r0) x ?_ (fun hx => ?_); unfold x; clear x; rotate_left; clear_value x)
    | (extract_lets +onlyGivenNames x; unfold x; clear x)
    | with_reducible assumption
    | with_reducible apply Ends.next
    | with_reducible apply Ends.ite
    | with_reducible apply Steady.ite
    | with_reducible apply State.updPort_steady
    | with_reducible apply State.count_steady
    | with_reducible apply losePortLine_steady
    | with_reducible apply State.raiseFault_steady
    | with_reducible apply updPortLine_steady
    | fail_if_no_progress (with_reducible refine Steady.lit (s := _) rfl ?_)
    | split

theorem execExposureWindowClose_steady (p : Fin 32) {r0 s : State} (h0 : Steady r0 s) : Ends r0 (execExposureWindowClose p s) := by
  unfold execExposureWindowClose
  repeat' first
    | with_reducible assumption
    | with_reducible apply Ends.next
    | with_reducible apply Ends.ite
    | with_reducible apply Steady.ite
    | with_reducible apply drivePort_steady
    | with_reducible apply State.updPort_steady
    | fail_if_no_progress (with_reducible refine Steady.lit (s := _) rfl ?_)
    | split

theorem edgeOff_steady (p at_ planned : Nat) {r0 s : State} (h0 : Steady r0 s) : Steady r0 (edgeOff p at_ planned s) := by
  unfold edgeOff
  repeat' first
    | with_reducible assumption
    | with_reducible apply Steady.ite
    | with_reducible apply State.updPort_steady
    | with_reducible apply State.count_steady
    | with_reducible apply State.raise_steady
    | fail_if_no_progress (with_reducible refine Steady.lit (s := _) rfl ?_)
    | split

theorem execStExpEdge_steady (p : Fin 32) (opening : Bool) (at_ : Nat) {r0 s : State} (h0 : Steady r0 s) : Ends r0 (execStExpEdge p opening at_ s) := by
  unfold execStExpEdge
  repeat' first
    | (extract_lets +onlyGivenNames x; refine Steady.cut (r := r0) x ?_ (fun hx => ?_); unfold x; clear x; rotate_left; clear_value x)
    | (extract_lets +onlyGivenNames x; unfold x; clear x)
    | with_reducible assumption
    | with_reducible apply Ends.next
    | with_reducible apply Ends.ite
    | with_reducible apply Steady.ite
    | with_reducible apply edgeOff_steady
    | with_reducible apply updPortLine_steady
    | with_reducible apply State.setReg_steady
    | with_reducible apply updRec_steady
    | fail_if_no_progress (with_reducible refine Steady.lit (s := _) rfl ?_)
    | split

theorem execStExpMissing_steady (p : Fin 32) {r0 s : State} (h0 : Steady r0 s) : Ends r0 (execStExpMissing p s) := by
  unfold execStExpMissing
  repeat' first
    | (extract_lets +onlyGivenNames x; refine Steady.cut (r := r0) x ?_ (fun hx => ?_); unfold x; clear x; rotate_left; clear_value x)
    | (extract_lets +onlyGivenNames x; unfold x; clear x)
    | with_reducible assumption
    | with_reducible apply Ends.next
    | with_reducible apply State.updPort_steady
    | with_reducible apply State.count_steady
    | with_reducible apply losePortLine_steady
    | with_reducible apply State.raiseFault_steady
    | fail_if_no_progress (with_reducible refine Steady.lit (s := _) rfl ?_)
    | split

theorem execTransferPulse_steady (p : Fin 32) {r0 s : State} (h0 : Steady r0 s) : Ends r0 (execTransferPulse p s) := by
  unfold execTransferPulse
  repeat' first
    | (extract_lets +onlyGivenNames x; refine Steady.cut (r := r0) x ?_ (fun hx => ?_); unfold x; clear x; rotate_left; clear_value x)
    | (extract_lets +onlyGivenNames x; unfold x; clear x)
    | with_reducible assumption
    | with_reducible apply Ends.next
    | with_reducible apply Ends.ite
    | with_reducible apply Steady.ite
    | with_reducible apply startClock_steady
    | with_reducible apply drivePort_steady
    | with_reducible apply updPortLine_steady
    | with_reducible apply State.updPort_steady
    | fail_if_no_progress (with_reducible refine Steady.lit (s := _) rfl ?_)
    | split

theorem countClips_steady (i : Nat) (codes : List Nat) {r0 s : State} (h0 : Steady r0 s) : Steady r0 (countClips i codes s) := by
  unfold countClips
  repeat' first
    | (extract_lets +onlyGivenNames x; refine Steady.cut (r := r0) x ?_ (fun hx => ?_); unfold x; clear x; rotate_left; clear_value x)
    | (extract_lets +onlyGivenNames x; unfold x; clear x)
    | with_reducible assumption
    | with_reducible apply Steady.ite
    | with_reducible apply State.count_steady
    | split

theorem placeInput_steady (reg : Obj → Int) (p i : Nat) (a b : List Int) (line : Table Nat) {r0 s : State} (h0 : Steady r0 s) : Steady r0 (placeInput reg p i a b line s).2 := by
  unfold placeInput
  repeat' first
    | (extract_lets +onlyGivenNames x; refine Steady.cut (r := r0) x ?_ (fun hx => ?_); unfold x; clear x; rotate_left; clear_value x)
    | (extract_lets +onlyGivenNames x; refine Steady.cut2 (r := r0) x ?_ (fun hx => ?_); unfold x; clear x; rotate_left; clear_value x)
    | (extract_lets +onlyGivenNames x; refine Steady.cut1 (r := r0) x ?_ (fun hx => ?_); unfold x; clear x; rotate_left; clear_value x)
    | (extract_lets +onlyGivenNames x; unfold x; clear x)
    | with_reducible assumption
    | with_reducible apply Steady.ite
    | with_reducible apply Steady.ite2
    | with_reducible refine Steady.foldl1 _ _ ?_ (fun _ _ _ => ?_)
    | with_reducible refine Steady.foldl2 _ _ ?_ (fun _ _ _ => ?_)
    | with_reducible refine Steady.foldl _ _ ?_ (fun _ _ _ => ?_)
    | with_reducible apply countClips_steady
    | with_reducible apply State.setReg_steady
    | split

theorem placeInputs_steady (reg : Obj → Int) (p : Nat) (l : List Nat) (nv : List (List Int)) (line : Table Nat) {r0 s : State} (h0 : Steady r0 s) :
    Steady r0 (placeInputs reg p l nv line s).2 := by
  induction l generalizing nv line s with
  | nil => exact h0
  | cons i l ih => exact ih _ _ (placeInput_steady _ _ _ _ _ _ h0)

theorem handOver_steady (r : LineRec) (k : Nat) (t : Trib) (px : List Nat) (n a : Nat) {r0 s : State} (h0 : Steady r0 s) :
    Steady r0 (handOver r k t px n a s) := by
  induction n generalizing a s with
  | zero => exact h0
  | succ n ih =>
    simp only [handOver]
    exact Steady.ite h0 (ih _ (arrivePixels_steady _ _ _ _ _ _ h0))

theorem execReadoutEnd_steady (p : Fin 32) (nanovolts : List (List Int)) {r0 s : State} (h0 : Steady r0 s) : Ends r0 (execReadoutEnd p nanovolts s) := by
  unfold execReadoutEnd
  repeat' first
    | (extract_lets +onlyGivenNames x; refine Steady.cut (r := r0) x ?_ (fun hx => ?_); unfold x; clear x; rotate_left; clear_value x)
    | (extract_lets +onlyGivenNames x; refine Steady.cut2 (r := r0) x ?_ (fun hx => ?_); unfold x; clear x; rotate_left; clear_value x)
    | (extract_lets +onlyGivenNames x; refine Steady.cut1 (r := r0) x ?_ (fun hx => ?_); unfold x; clear x; rotate_left; clear_value x)
    | (extract_lets +onlyGivenNames x; unfold x; clear x)
    | with_reducible assumption
    | with_reducible apply Ends.next
    | with_reducible apply Ends.ite
    | with_reducible apply Steady.ite
    | with_reducible apply State.updPort_steady
    | with_reducible apply State.emit_steady
    | with_reducible apply placeInputs_steady
    | with_reducible apply unmatched_steady
    | with_reducible apply updRec_steady
    | with_reducible apply handOver_steady
    | fail_if_no_progress (with_reducible refine Steady.lit (s := _) rfl ?_)
    | split

theorem execBankCalibration_steady (b : Fin 4) (ok : Bool) {r0 s : State} (h0 : Steady r0 s) : Ends r0 (execBankCalibration b ok s) := by
  unfold execBankCalibration
  repeat' first
    | (extract_lets +onlyGivenNames x; refine Steady.cut (r := r0) x ?_ (fun hx => ?_); unfold x; clear x; rotate_left; clear_value x)
    | (extract_lets +onlyGivenNames x; unfold x; clear x)
    | with_reducible assumption
    | with_reducible apply Ends.next
    | with_reducible apply Ends.ite
    | with_reducible apply Steady.ite
    | with_reducible refine Steady.foldl _ _ ?_ (fun _ _ _ => ?_)
    | with_reducible apply State.setBank_steady
    | with_reducible apply State.updPort_steady
    | with_reducible apply State.raiseFault_steady
    | fail_if_no_progress (with_reducible refine Steady.lit (s := _) rfl ?_)
    | split

end Sys2Proof.Machine
end

