-- ==== Sys2Proof/Laws/SteadyIllumination.lean ====
section
/-! SUPPORT. What the operations of Machine/Illumination.lean keep. -/
namespace Sys2Proof.Machine

set_option linter.unusedTactic false
set_option linter.unreachableTactic false

theorem State.mapPulses_steady (f : List LampPulse → List LampPulse) {r0 s : State} (h0 : Steady r0 s) : Steady r0 (State.mapPulses s f) := by
  unfold State.mapPulses
  repeat' first
    | with_reducible assumption
    | fail_if_no_progress (with_reducible refine Steady.lit (s := _) rfl ?_)

theorem driveBand_steady (b : Nat) (on : Bool) (at_ : Nat) {r0 s : State} (h0 : Steady r0 s) : Steady r0 (driveBand b on at_ s) := by
  unfold driveBand
  repeat' first
    | with_reducible assumption
    | with_reducible apply Steady.ite
    | with_reducible apply State.emit_steady
    | split

theorem execBandAssert_steady (b : Fin 16) {r0 s : State} (h0 : Steady r0 s) : Ends r0 (execBandAssert b s) := by
  unfold execBandAssert
  repeat' first
    | (extract_lets +onlyGivenNames x; refine Steady.cut (r := r0) x ?_ (fun hx => ?_); unfold x; clear x; rotate_left; clear_value x)
    | (extract_lets +onlyGivenNames x; unfold x; clear x)
    | with_reducible assumption
    | with_reducible apply Ends.next
    | with_reducible apply Ends.ite
    | with_reducible apply Steady.ite
    | with_reducible apply State.mapPulses_steady
    | with_reducible apply driveBand_steady
    | fail_if_no_progress (with_reducible refine Steady.lit (s := _) rfl ?_)
    | split

theorem execPulseStart_steady (b : Fin 16) {r0 s : State} (h0 : Steady r0 s) : Ends r0 (execPulseStart b s) := by
  unfold execPulseStart
  repeat' first
    | (extract_lets +onlyGivenNames x; refine Steady.cut (r := r0) x ?_ (fun hx => ?_); unfold x; clear x; rotate_left; clear_value x)
    | (extract_lets +onlyGivenNames x; refine Steady.cut2 (r := r0) x ?_ (fun hx => ?_); unfold x; clear x; rotate_left; clear_value x)
    | (extract_lets +onlyGivenNames x; refine Steady.cut1 (r := r0) x ?_ (fun hx => ?_); unfold x; clear x; rotate_left; clear_value x)
    | (extract_lets +onlyGivenNames x; unfold x; clear x)
    | with_reducible assumption
    | with_reducible apply Ends.next
    | with_reducible apply Ends.ite
    | with_reducible apply Steady.ite
    | with_reducible refine Steady.foldl1 _ _ ?_ (fun _ _ _ => ?_)
    | with_reducible refine Steady.foldl2 _ _ ?_ (fun _ _ _ => ?_)
    | with_reducible refine Steady.foldl _ _ ?_ (fun _ _ _ => ?_)
    | with_reducible apply driveBand_steady
    | with_reducible apply State.mapPulses_steady
    | with_reducible apply State.updXpoint_steady
    | with_reducible apply State.emit_steady
    | with_reducible apply updRec_steady
    | fail_if_no_progress (with_reducible refine Steady.lit (s := _) rfl ?_)
    | split

theorem endPulse_steady (b at_ : Nat) (p : LampPulse) {r0 s : State} (h0 : Steady r0 s) : Steady r0 (endPulse b at_ p s) := by
  unfold endPulse
  repeat' first
    | (extract_lets +onlyGivenNames x; refine Steady.cut (r := r0) x ?_ (fun hx => ?_); unfold x; clear x; rotate_left; clear_value x)
    | (extract_lets +onlyGivenNames x; refine Steady.cut2 (r := r0) x ?_ (fun hx => ?_); unfold x; clear x; rotate_left; clear_value x)
    | (extract_lets +onlyGivenNames x; refine Steady.cut1 (r := r0) x ?_ (fun hx => ?_); unfold x; clear x; rotate_left; clear_value x)
    | (extract_lets +onlyGivenNames x; unfold x; clear x)
    | with_reducible assumption
    | with_reducible apply Steady.ite
    | with_reducible refine Steady.foldl1 _ _ ?_ (fun _ _ _ => ?_)
    | with_reducible refine Steady.foldl2 _ _ ?_ (fun _ _ _ => ?_)
    | with_reducible refine Steady.foldl _ _ ?_ (fun _ _ _ => ?_)
    | with_reducible apply State.emit_steady
    | with_reducible apply driveBand_steady
    | fail_if_no_progress (with_reducible refine Steady.lit (s := _) rfl ?_)
    | split

theorem countUnchecked_steady (b c : Nat) {r0 s : State} (h0 : Steady r0 s) : Steady r0 (countUnchecked b c s) := by
  unfold countUnchecked
  repeat' first
    | (extract_lets +onlyGivenNames x; refine Steady.cut (r := r0) x ?_ (fun hx => ?_); unfold x; clear x; rotate_left; clear_value x)
    | (extract_lets +onlyGivenNames x; unfold x; clear x)
    | with_reducible assumption
    | with_reducible apply Steady.ite
    | with_reducible apply State.updXpoint_steady
    | fail_if_no_progress (with_reducible refine Steady.lit (s := _) rfl ?_)
    | split

theorem lampFeed_steady (p : LampPulse) {r0 s : State} (h0 : Steady r0 s) : Steady r0 (lampFeed p s) := by
  unfold lampFeed
  repeat' first
    | (extract_lets +onlyGivenNames x; refine Steady.cut (r := r0) x ?_ (fun hx => ?_); unfold x; clear x; rotate_left; clear_value x)
    | (extract_lets +onlyGivenNames x; refine Steady.cut2 (r := r0) x ?_ (fun hx => ?_); unfold x; clear x; rotate_left; clear_value x)
    | (extract_lets +onlyGivenNames x; refine Steady.cut1 (r := r0) x ?_ (fun hx => ?_); unfold x; clear x; rotate_left; clear_value x)
    | (extract_lets +onlyGivenNames x; unfold x; clear x)
    | with_reducible assumption
    | with_reducible apply Steady.ite
    | fail_if_no_progress (with_reducible refine Steady.lit (s := _) rfl ?_)
    | split

theorem execPulseEnd_steady (b : Fin 16) {r0 s : State} (h0 : Steady r0 s) : Ends r0 (execPulseEnd b s) := by
  unfold execPulseEnd
  repeat' first
    | (extract_lets +onlyGivenNames x; refine Steady.cut (r := r0) x ?_ (fun hx => ?_); unfold x; clear x; rotate_left; clear_value x)
    | (extract_lets +onlyGivenNames x; refine Steady.cut2 (r := r0) x ?_ (fun hx => ?_); unfold x; clear x; rotate_left; clear_value x)
    | (extract_lets +onlyGivenNames x; refine Steady.cut1 (r := r0) x ?_ (fun hx => ?_); unfold x; clear x; rotate_left; clear_value x)
    | (extract_lets +onlyGivenNames x; unfold x; clear x)
    | with_reducible assumption
    | with_reducible apply Ends.next
    | with_reducible apply Ends.ite
    | with_reducible apply Steady.ite
    | with_reducible refine Steady.foldl1 _ _ ?_ (fun _ _ _ => ?_)
    | with_reducible refine Steady.foldl _ _ ?_ (fun _ _ _ => ?_)
    | with_reducible apply countUnchecked_steady
    | with_reducible apply endPulse_steady
    | with_reducible apply lampFeed_steady
    | fail_if_no_progress (with_reducible refine Steady.lit (s := _) rfl ?_)
    | split

theorem execDischargeEnd_steady (b : Fin 16) {r0 s : State} (h0 : Steady r0 s) : Ends r0 (execDischargeEnd b s) := by
  unfold execDischargeEnd
  repeat' first
    | with_reducible assumption
    | with_reducible apply Ends.next
    | fail_if_no_progress (with_reducible refine Steady.lit (s := _) rfl ?_)

theorem failXpoint_steady (i : Nat) (st : XpState) {r0 s : State} (h0 : Steady r0 s) : Steady r0 (failXpoint i st s) := by
  unfold failXpoint
  repeat' first
    | (extract_lets +onlyGivenNames x; refine Steady.cut (r := r0) x ?_ (fun hx => ?_); unfold x; clear x; rotate_left; clear_value x)
    | (extract_lets +onlyGivenNames x; unfold x; clear x)
    | with_reducible assumption
    | with_reducible apply Steady.ite
    | with_reducible apply State.updXpoint_steady
    | with_reducible apply State.raiseFault_steady
    | fail_if_no_progress (with_reducible refine Steady.lit (s := _) rfl ?_)
    | split

theorem shortColumns_steady (cs : List Nat) {r0 s : State} (h0 : Steady r0 s) : Steady r0 (shortColumns cs s) := by
  unfold shortColumns
  repeat' first
    | with_reducible assumption
    | with_reducible apply Steady.ite
    | with_reducible refine Steady.foldl _ _ ?_ (fun _ _ _ => ?_)
    | with_reducible apply failXpoint_steady
    | split

theorem checkLit_steady (b : Nat) (p : LampPulse) (lit : List SinkMeas) (m : SinkMeas) {r0 s : State} (h0 : Steady r0 s) : Steady r0 (checkLit b p lit m s) := by
  unfold checkLit
  repeat' first
    | (extract_lets +onlyGivenNames x; refine Steady.cut (r := r0) x ?_ (fun hx => ?_); unfold x; clear x; rotate_left; clear_value x)
    | (extract_lets +onlyGivenNames x; unfold x; clear x)
    | with_reducible assumption
    | with_reducible apply Steady.ite
    | with_reducible apply State.updXpoint_steady
    | with_reducible apply failXpoint_steady
    | fail_if_no_progress (with_reducible refine Steady.lit (s := _) rfl ?_)
    | split

theorem checkUnlit_steady (b : Nat) (lit : List SinkMeas) (m : SinkMeas) {r0 s : State} (h0 : Steady r0 s) : Steady r0 (checkUnlit b lit m s) := by
  unfold checkUnlit
  repeat' first
    | (extract_lets +onlyGivenNames x; refine Steady.cut (r := r0) x ?_ (fun hx => ?_); unfold x; clear x; rotate_left; clear_value x)
    | (extract_lets +onlyGivenNames x; unfold x; clear x)
    | with_reducible assumption
    | with_reducible apply Steady.ite
    | with_reducible apply State.updXpoint_steady
    | with_reducible apply shortColumns_steady
    | fail_if_no_progress (with_reducible refine Steady.lit (s := _) rfl ?_)
    | split

theorem headroomTake_steady (b : Nat) (p : LampPulse) (lit : List SinkMeas) {r0 s : State} (h0 : Steady r0 s) : Steady r0 (headroomTake b p lit s) := by
  unfold headroomTake
  repeat' first
    | (extract_lets +onlyGivenNames x; refine Steady.cut (r := r0) x ?_ (fun hx => ?_); unfold x; clear x; rotate_left; clear_value x)
    | (extract_lets +onlyGivenNames x; unfold x; clear x)
    | with_reducible assumption
    | with_reducible apply Steady.ite
    | fail_if_no_progress (with_reducible refine Steady.lit (s := _) rfl ?_)
    | split

theorem execPulseCheck_steady (b : Fin 16) (meas : List SinkMeas) {r0 s : State} (h0 : Steady r0 s) : Ends r0 (execPulseCheck b meas s) := by
  unfold execPulseCheck
  repeat' first
    | (extract_lets +onlyGivenNames x; refine Steady.cut (r := r0) x ?_ (fun hx => ?_); unfold x; clear x; rotate_left; clear_value x)
    | (extract_lets +onlyGivenNames x; unfold x; clear x)
    | with_reducible assumption
    | with_reducible apply Ends.next
    | with_reducible apply Ends.ite
    | with_reducible apply Steady.ite
    | with_reducible refine Steady.foldl _ _ ?_ (fun _ _ _ => ?_)
    | with_reducible apply State.mapPulses_steady
    | with_reducible apply headroomTake_steady
    | with_reducible apply checkLit_steady
    | with_reducible apply checkUnlit_steady
    | fail_if_no_progress (with_reducible refine Steady.lit (s := _) rfl ?_)
    | split

theorem startLampTest_steady  {r0 s : State} (h0 : Steady r0 s) : Steady r0 (startLampTest s) := by
  unfold startLampTest
  repeat' first
    | with_reducible assumption
    | fail_if_no_progress (with_reducible refine Steady.lit (s := _) rfl ?_)

theorem execLampTest_steady  {r0 s : State} (h0 : Steady r0 s) : Ends r0 (execLampTest s) := by
  unfold execLampTest
  repeat' first
    | with_reducible assumption
    | with_reducible apply Ends.next
    | with_reducible apply Ends.ite
    | with_reducible apply Steady.ite
    | with_reducible apply startLampTest_steady
    | split

theorem execLampTestDone_steady (shorted : List (Fin 64)) {r0 s : State} (h0 : Steady r0 s) : Ends r0 (execLampTestDone shorted s) := by
  unfold execLampTestDone
  repeat' first
    | with_reducible assumption
    | with_reducible apply Ends.next
    | with_reducible apply Ends.ite
    | with_reducible apply Steady.ite
    | with_reducible apply shortColumns_steady
    | fail_if_no_progress (with_reducible refine Steady.lit (s := _) rfl ?_)
    | split

theorem execDiagPulse_steady (b : Fin 16) {r0 s : State} (h0 : Steady r0 s) : Ends r0 (execDiagPulse b s) := by
  unfold execDiagPulse
  repeat' first
    | (extract_lets +onlyGivenNames x; refine Steady.cut (r := r0) x ?_ (fun hx => ?_); unfold x; clear x; rotate_left; clear_value x)
    | (extract_lets +onlyGivenNames x; unfold x; clear x)
    | with_reducible assumption
    | with_reducible apply Ends.next
    | with_reducible apply Ends.ite
    | with_reducible apply Steady.ite
    | with_reducible apply State.mapPulses_steady
    | split

theorem execLampUnverified_steady (b : Fin 16) (col : Fin 64) {r0 s : State} (h0 : Steady r0 s) : Ends r0 (execLampUnverified b col s) := by
  unfold execLampUnverified
  repeat' first
    | (extract_lets +onlyGivenNames x; refine Steady.cut (r := r0) x ?_ (fun hx => ?_); unfold x; clear x; rotate_left; clear_value x)
    | (extract_lets +onlyGivenNames x; unfold x; clear x)
    | with_reducible assumption
    | with_reducible apply Ends.next
    | with_reducible apply Ends.ite
    | with_reducible apply Steady.ite
    | with_reducible apply State.updXpoint_steady
    | with_reducible apply State.raiseFault_steady
    | fail_if_no_progress (with_reducible refine Steady.lit (s := _) rfl ?_)
    | split

theorem syncBroadcast_steady  {r0 s : State} (h0 : Steady r0 s) : Steady r0 (syncBroadcast s) := by
  unfold syncBroadcast
  repeat' first
    | with_reducible assumption
    | with_reducible apply Steady.ite
    | fail_if_no_progress (with_reducible refine Steady.lit (s := _) rfl ?_)
    | split

theorem execSyncFire_steady  {r0 s : State} (h0 : Steady r0 s) : Ends r0 (execSyncFire s) := by
  unfold execSyncFire
  repeat' first
    | with_reducible assumption
    | with_reducible apply Ends.next
    | with_reducible apply Ends.ite
    | with_reducible apply Steady.ite
    | with_reducible apply State.emits_steady
    | split

theorem execSyncEdge_steady  {r0 s : State} (h0 : Steady r0 s) : Ends r0 (execSyncEdge s) := by
  unfold execSyncEdge
  repeat' first
    | with_reducible assumption
    | with_reducible apply Ends.next
    | with_reducible apply Ends.ite
    | with_reducible apply Steady.ite
    | with_reducible apply syncBroadcast_steady
    | with_reducible apply State.countWrap_steady
    | fail_if_no_progress (with_reducible refine Steady.lit (s := _) rfl ?_)
    | split

theorem execSyncFault_steady  {r0 s : State} (h0 : Steady r0 s) : Ends r0 (execSyncFault s) := by
  unfold execSyncFault
  repeat' first
    | (extract_lets +onlyGivenNames x; refine Steady.cut (r := r0) x ?_ (fun hx => ?_); unfold x; clear x; rotate_left; clear_value x)
    | (extract_lets +onlyGivenNames x; unfold x; clear x)
    | with_reducible assumption
    | with_reducible apply Ends.next
    | with_reducible apply Ends.ite
    | with_reducible apply Steady.ite
    | with_reducible apply State.raiseFault_steady
    | fail_if_no_progress (with_reducible refine Steady.lit (s := _) rfl ?_)
    | split

theorem disableBand_steady (b : Nat) {r0 s : State} (h0 : Steady r0 s) : Steady r0 (disableBand b s) := by
  unfold disableBand
  repeat' first
    | (extract_lets +onlyGivenNames x; refine Steady.cut (r := r0) x ?_ (fun hx => ?_); unfold x; clear x; rotate_left; clear_value x)
    | (extract_lets +onlyGivenNames x; unfold x; clear x)
    | with_reducible assumption
    | with_reducible apply Steady.ite
    | with_reducible refine Steady.foldl _ _ ?_ (fun _ _ _ => ?_)
    | with_reducible apply State.setReg_steady
    | with_reducible apply endPulse_steady
    | with_reducible apply State.count_steady
    | with_reducible apply updRec_steady
    | with_reducible apply State.raise_steady
    | with_reducible apply driveBand_steady
    | with_reducible apply State.mapPulses_steady
    | fail_if_no_progress (with_reducible refine Steady.lit (s := _) rfl ?_)
    | split

theorem execBandEnable_steady (b : Fin 16) (v : Bool) {r0 s : State} (h0 : Steady r0 s) : Ends r0 (execBandEnable b v s) := by
  unfold execBandEnable
  repeat' first
    | (extract_lets +onlyGivenNames x; refine Steady.cut (r := r0) x ?_ (fun hx => ?_); unfold x; clear x; rotate_left; clear_value x)
    | (extract_lets +onlyGivenNames x; unfold x; clear x)
    | with_reducible assumption
    | with_reducible apply Ends.next
    | with_reducible apply Ends.ite
    | with_reducible apply Steady.ite
    | with_reducible apply State.setReg_steady
    | with_reducible apply driveBand_steady
    | with_reducible apply disableBand_steady
    | fail_if_no_progress (with_reducible refine Steady.lit (s := _) rfl ?_)
    | split

theorem execHeadroomEval_steady  {r0 s : State} (h0 : Steady r0 s) : Ends r0 (execHeadroomEval s) := by
  unfold execHeadroomEval
  repeat' first
    | (extract_lets +onlyGivenNames x; refine Steady.cut (r := r0) x ?_ (fun hx => ?_); unfold x; clear x; rotate_left; clear_value x)
    | (extract_lets +onlyGivenNames x; unfold x; clear x)
    | with_reducible assumption
    | with_reducible apply Ends.next
    | with_reducible apply Ends.ite
    | with_reducible apply Steady.ite
    | with_reducible apply State.loopRan_steady
    | with_reducible apply State.setReg_steady
    | with_reducible apply State.count_steady
    | with_reducible apply State.raise_steady
    | fail_if_no_progress (with_reducible refine Steady.lit (s := _) rfl ?_)
    | split

end Sys2Proof.Machine
end

