-- ==== Sys2Proof/Laws/SteadyAudit.lean ====
section
/-! SUPPORT. What the operations of Machine/Audit.lean keep. -/
namespace Sys2Proof.Machine

set_option linter.unusedTactic false
set_option linter.unreachableTactic false

theorem audit_steady (code : Nat) (a : Actor) (index sub result : Nat) (data : Bytes) (must : Bool) {r0 s : State} (h0 : Steady r0 s) : Steady r0 (audit code a index sub result data must s) := by
  unfold audit
  repeat' first
    | (extract_lets +onlyGivenNames x; refine Steady.cut (r := r0) x ?_ (fun hx => ?_); unfold x; clear x; rotate_left; clear_value x)
    | (extract_lets +onlyGivenNames x; unfold x; clear x)
    | with_reducible assumption
    | with_reducible apply Steady.ite
    | with_reducible apply State.raise_steady
    | fail_if_no_progress (with_reducible refine Steady.lit (s := _) rfl ?_)
    | split

theorem watchConditions_steady  {r0 s : State} (h0 : Steady r0 s) : Steady r0 (watchConditions s) := by
  unfold watchConditions
  repeat' first
    | (extract_lets +onlyGivenNames x; refine Steady.cut (r := r0) x ?_ (fun hx => ?_); unfold x; clear x; rotate_left; clear_value x)
    | (extract_lets +onlyGivenNames x; unfold x; clear x)
    | with_reducible assumption
    | with_reducible apply Steady.ite
    | with_reducible apply State.raiseFault_steady
    | fail_if_no_progress (with_reducible refine Steady.lit (s := _) rfl ?_)
    | split

theorem alarmEval_steady  {r0 s : State} (h0 : Steady r0 s) : Steady r0 (alarmEval s) := by
  unfold alarmEval
  repeat' first
    | (extract_lets +onlyGivenNames x; refine Steady.cut (r := r0) x ?_ (fun hx => ?_); unfold x; clear x; rotate_left; clear_value x)
    | (extract_lets +onlyGivenNames x; unfold x; clear x)
    | with_reducible assumption
    | with_reducible apply Steady.ite
    | with_reducible refine Steady.foldl _ _ ?_ (fun _ _ _ => ?_)
    | with_reducible apply State.emit_steady
    | fail_if_no_progress (with_reducible refine Steady.lit (s := _) rfl ?_)
    | split

theorem driveAlarm_steady (a : Nat) {r0 s : State} (h0 : Steady r0 s) : Steady r0 (driveAlarm a s) := by
  unfold driveAlarm
  repeat' first
    | (extract_lets +onlyGivenNames x; refine Steady.cut (r := r0) x ?_ (fun hx => ?_); unfold x; clear x; rotate_left; clear_value x)
    | (extract_lets +onlyGivenNames x; unfold x; clear x)
    | with_reducible assumption
    | with_reducible apply Steady.ite
    | with_reducible apply State.emit_steady
    | fail_if_no_progress (with_reducible refine Steady.lit (s := _) rfl ?_)
    | split

theorem updRecord_steady (st number : Nat) (f : PageRec → PageRec) {r0 s : State} (h0 : Steady r0 s) : Steady r0 (updRecord st number f s) := by
  unfold updRecord
  repeat' first
    | with_reducible assumption
    | with_reducible apply Steady.ite
    | with_reducible apply State.updRing_steady
    | fail_if_no_progress (with_reducible refine Steady.lit (s := _) rfl ?_)
    | split

theorem sealFailed_steady (st number : Nat) {r0 s : State} (h0 : Steady r0 s) : Steady r0 (sealFailed st number s) := by
  unfold sealFailed
  repeat' first
    | (extract_lets +onlyGivenNames x; refine Steady.cut (r := r0) x ?_ (fun hx => ?_); unfold x; clear x; rotate_left; clear_value x)
    | (extract_lets +onlyGivenNames x; unfold x; clear x)
    | with_reducible assumption
    | with_reducible apply updRecord_steady
    | with_reducible apply alarmEval_steady
    | with_reducible apply State.count_steady
    | with_reducible apply State.raise_steady
    | fail_if_no_progress (with_reducible refine Steady.lit (s := _) rfl ?_)

theorem sealEnters_steady (st : Nat) {r0 s : State} (h0 : Steady r0 s) : Steady r0 (sealEnters st s) := by
  unfold sealEnters
  repeat' first
    | with_reducible assumption
    | with_reducible apply Steady.ite
    | with_reducible apply sealFailed_steady
    | fail_if_no_progress (with_reducible refine Steady.lit (s := _) rfl ?_)
    | split

end Sys2Proof.Machine
end

