-- ==== Sys2Proof/Laws/SteadyCommit.lean ====
section
/-! SUPPORT. What the operations of Machine/Commit.lean keep. -/
namespace Sys2Proof.Machine

set_option linter.unusedTactic false
set_option linter.unreachableTactic false

theorem refreshConfig_steady  {r0 s : State} (h0 : Steady r0 s) : Steady r0 (refreshConfig s) := by
  unfold refreshConfig
  repeat' first
    | (extract_lets +onlyGivenNames x; refine Steady.cut (r := r0) x ?_ (fun hx => ?_); unfold x; clear x; rotate_left; clear_value x)
    | (extract_lets +onlyGivenNames x; refine Steady.cut2 (r := r0) x ?_ (fun hx => ?_); unfold x; clear x; rotate_left; clear_value x)
    | (extract_lets +onlyGivenNames x; refine Steady.cut1 (r := r0) x ?_ (fun hx => ?_); unfold x; clear x; rotate_left; clear_value x)
    | (extract_lets +onlyGivenNames x; unfold x; clear x)
    | with_reducible assumption
    | with_reducible apply Steady.ite
    | with_reducible refine Steady.foldl1 _ _ ?_ (fun _ _ _ => ?_)
    | with_reducible refine Steady.foldl2 _ _ ?_ (fun _ _ _ => ?_)
    | with_reducible refine Steady.foldl _ _ ?_ (fun _ _ _ => ?_)
    | with_reducible apply State.setReg_steady
    | split

theorem settleCurve_steady (slot : Nat) (knots : List Nat) {r0 s : State} (h0 : Steady r0 s) : Steady r0 (settleCurve slot knots s) := by
  unfold settleCurve
  repeat' first
    | with_reducible assumption
    | with_reducible refine Steady.foldl _ _ ?_ (fun _ _ _ => ?_)
    | with_reducible apply State.updStrm_steady
    | (refine Steady.table (s := s) h0 rfl rfl rfl rfl fun c => { c with curves := Table.rising_set _ _ _ _ c.curves })
    | fail_if_no_progress (with_reducible refine Steady.lit (s := _) rfl ?_)

theorem applyBlob_steady (st line index sub : Nat) (b : Bytes) {r0 s : State} (h0 : Steady r0 s) : Steady r0 (applyBlob st line index sub b s) := by
  unfold applyBlob
  repeat' first
    | (extract_lets +onlyGivenNames x; refine Steady.cut (r := r0) x ?_ (fun hx => ?_); unfold x; clear x; rotate_left; clear_value x)
    | (extract_lets +onlyGivenNames x; unfold x; clear x)
    | with_reducible assumption
    | with_reducible apply Steady.ite
    | with_reducible refine Steady.foldl _ _ ?_ (fun _ _ _ => ?_)
    | with_reducible apply State.setStrm_steady
    | with_reducible apply State.setReg_steady
    | with_reducible apply State.updRing_steady
    | with_reducible apply State.updStrm_steady
    | with_reducible apply settleCurve_steady
    | (refine Steady.table (s := s) h0 rfl rfl rfl rfl fun c => { c with curves := Table.rising_set _ _ _ _ c.curves })
    | fail_if_no_progress (with_reducible refine Steady.lit (s := _) rfl ?_)
    | split

theorem tioEnter_steady (t : Nat) (old : Nat) {r0 s : State} (h0 : Steady r0 s) : Steady r0 (tioEnter t old s) := by
  unfold tioEnter
  repeat' first
    | (extract_lets +onlyGivenNames x; refine Steady.cut (r := r0) x ?_ (fun hx => ?_); unfold x; clear x; rotate_left; clear_value x)
    | (extract_lets +onlyGivenNames x; unfold x; clear x)
    | with_reducible assumption
    | with_reducible apply Steady.ite
    | with_reducible apply State.updTio_steady
    | with_reducible apply driveTio_steady
    | with_reducible apply quickStopActs_steady
    | fail_if_no_progress (with_reducible refine Steady.lit (s := _) rfl ?_)
    | split

theorem feClear_steady (k : Nat) {r0 s : State} (h0 : Steady r0 s) : Steady r0 (feClear k s) := by
  unfold feClear
  repeat' first
    | (extract_lets +onlyGivenNames x; refine Steady.cut (r := r0) x ?_ (fun hx => ?_); unfold x; clear x; rotate_left; clear_value x)
    | (extract_lets +onlyGivenNames x; refine Steady.cut2 (r := r0) x ?_ (fun hx => ?_); unfold x; clear x; rotate_left; clear_value x)
    | (extract_lets +onlyGivenNames x; refine Steady.cut1 (r := r0) x ?_ (fun hx => ?_); unfold x; clear x; rotate_left; clear_value x)
    | (extract_lets +onlyGivenNames x; unfold x; clear x)
    | with_reducible assumption
    | fail_if_no_progress (with_reducible refine Steady.lit (s := _) rfl ?_)

theorem autoRangeEnters_steady (k : Nat) {r0 s : State} (h0 : Steady r0 s) : Steady r0 (autoRangeEnters k s) := by
  unfold autoRangeEnters
  repeat' first
    | with_reducible assumption
    | fail_if_no_progress (with_reducible refine Steady.lit (s := _) rfl ?_)

theorem groupLanesEnter_steady (g : Nat) {r0 s : State} (h0 : Steady r0 s) : Steady r0 (groupLanesEnter g s) := by
  unfold groupLanesEnter
  repeat' first
    | with_reducible assumption
    | with_reducible apply State.setGroup_steady

theorem applyMember_steady (st line : Nat) (m : Nat × Val) {r0 s : State} (h0 : Steady r0 s) : Steady r0 (applyMember st line m s) := by
  unfold applyMember
  repeat' first
    | (extract_lets +onlyGivenNames x; refine Steady.cut (r := r0) x ?_ (fun hx => ?_); unfold x; clear x; rotate_left; clear_value x)
    | (extract_lets +onlyGivenNames x; refine Steady.cut2 (r := r0) x ?_ (fun hx => ?_); unfold x; clear x; rotate_left; clear_value x)
    | (extract_lets +onlyGivenNames x; refine Steady.cut1 (r := r0) x ?_ (fun hx => ?_); unfold x; clear x; rotate_left; clear_value x)
    | (extract_lets +onlyGivenNames x; unfold x; clear x)
    | with_reducible assumption
    | with_reducible apply Steady.ite
    | with_reducible apply applyBlob_steady
    | with_reducible apply State.setReg_steady
    | with_reducible apply groupLanesEnter_steady
    | with_reducible apply posFormatEnters_steady
    | with_reducible apply hysteresisEnters_steady
    | with_reducible apply tioEnter_steady
    | with_reducible apply feClear_steady
    | with_reducible apply autoRangeEnters_steady
    | with_reducible apply paceFixed_steady
    | with_reducible apply captureEnters_steady
    | with_reducible apply sealEnters_steady
    | with_reducible apply alarmEval_steady
    | with_reducible apply driveAlarm_steady
    | fail_if_no_progress (with_reducible refine Steady.lit (s := _) rfl ?_)
    | split

theorem resetTables_steady (members : List (Nat × Val)) (st : Nat) (w0 p0 : Nat) {r0 s : State} (h0 : Steady r0 s) : Steady r0 (resetTables members st w0 p0 s) := by
  unfold resetTables
  repeat' first
    | (extract_lets +onlyGivenNames x; refine Steady.cut (r := r0) x ?_ (fun hx => ?_); unfold x; clear x; rotate_left; clear_value x)
    | (extract_lets +onlyGivenNames x; refine Steady.cut2 (r := r0) x ?_ (fun hx => ?_); unfold x; clear x; rotate_left; clear_value x)
    | (extract_lets +onlyGivenNames x; refine Steady.cut1 (r := r0) x ?_ (fun hx => ?_); unfold x; clear x; rotate_left; clear_value x)
    | (extract_lets +onlyGivenNames x; unfold x; clear x)
    | with_reducible assumption
    | with_reducible apply Steady.ite
    | with_reducible apply State.updStrm_steady
    | with_reducible apply State.setReg_steady
    | fail_if_no_progress (with_reducible refine Steady.lit (s := _) rfl ?_)
    | split

theorem applyMembers_steady (st line : Nat) (ms : List (Nat × Val)) {r0 s : State} (h0 : Steady r0 s) : Steady r0 (applyMembers st line ms s) := by
  unfold applyMembers
  repeat' first
    | (extract_lets +onlyGivenNames x; refine Steady.cut (r := r0) x ?_ (fun hx => ?_); unfold x; clear x; rotate_left; clear_value x)
    | (extract_lets +onlyGivenNames x; refine Steady.cut2 (r := r0) x ?_ (fun hx => ?_); unfold x; clear x; rotate_left; clear_value x)
    | (extract_lets +onlyGivenNames x; refine Steady.cut1 (r := r0) x ?_ (fun hx => ?_); unfold x; clear x; rotate_left; clear_value x)
    | (extract_lets +onlyGivenNames x; unfold x; clear x)
    | with_reducible assumption
    | with_reducible apply Steady.ite
    | with_reducible refine Steady.foldl1 _ _ ?_ (fun _ _ _ => ?_)
    | with_reducible refine Steady.foldl2 _ _ ?_ (fun _ _ _ => ?_)
    | with_reducible refine Steady.foldl _ _ ?_ (fun _ _ _ => ?_)
    | with_reducible apply applyMember_steady
    | with_reducible apply resetTables_steady
    | with_reducible apply refreshConfig_steady
    | split

theorem commitDone_steady (id stream line : Nat) {r0 s : State} (h0 : Steady r0 s) : Steady r0 (commitDone id stream line s) := by
  unfold commitDone
  repeat' first
    | with_reducible assumption
    | with_reducible apply State.raise_steady

theorem settleCurves_steady (ms : List (Nat × Val)) {r0 s : State} (h0 : Steady r0 s) : Steady r0 (settleCurves ms s) := by
  unfold settleCurves
  repeat' first
    | with_reducible assumption
    | with_reducible apply Steady.ite
    | with_reducible refine Steady.foldl1 _ _ ?_ (fun _ _ _ => ?_)
    | with_reducible refine Steady.foldl2 _ _ ?_ (fun _ _ _ => ?_)
    | with_reducible refine Steady.foldl _ _ ?_ (fun _ _ _ => ?_)
    | with_reducible apply settleCurve_steady
    | fail_if_no_progress (with_reducible refine Steady.lit (s := _) rfl ?_)
    | split

theorem enterStream_steady (g : CommitGroup) (st : Nat) {r0 s : State} (h0 : Steady r0 s) : Steady r0 (enterStream g st s) := by
  unfold enterStream
  repeat' first
    | (extract_lets +onlyGivenNames x; refine Steady.cut (r := r0) x ?_ (fun hx => ?_); unfold x; clear x; rotate_left; clear_value x)
    | (extract_lets +onlyGivenNames x; refine Steady.cut2 (r := r0) x ?_ (fun hx => ?_); unfold x; clear x; rotate_left; clear_value x)
    | (extract_lets +onlyGivenNames x; refine Steady.cut1 (r := r0) x ?_ (fun hx => ?_); unfold x; clear x; rotate_left; clear_value x)
    | (extract_lets +onlyGivenNames x; unfold x; clear x)
    | with_reducible assumption
    | with_reducible apply Steady.ite
    | with_reducible apply applyMembers_steady
    | with_reducible apply State.updRing_steady
    | with_reducible apply settleCurves_steady
    | with_reducible apply commitDone_steady
    | fail_if_no_progress (with_reducible refine Steady.lit (s := _) rfl ?_)
    | split

theorem enterDue_steady (st : Nat) (n : Nat) {r0 s : State} (h0 : Steady r0 s) : Steady r0 (enterDue st n s) := by
  induction n generalizing s with
  | zero => exact h0
  | succ n ih =>
  unfold enterDue
  repeat' first
    | with_reducible apply ih
    | with_reducible assumption
    | with_reducible apply Steady.ite
    | with_reducible apply enterStream_steady
    | fail_if_no_progress (with_reducible refine Steady.lit (s := _) rfl ?_)
    | split

theorem enterIdle_steady (st : Nat) {r0 s : State} (h0 : Steady r0 s) : Steady r0 (enterIdle st s) := by
  unfold enterIdle
  repeat' first
    | with_reducible assumption
    | with_reducible refine Steady.foldl _ _ ?_ (fun _ _ _ => ?_)
    | with_reducible apply enterStream_steady

theorem enterPlain_steady (g : CommitGroup) {r0 s : State} (h0 : Steady r0 s) : Steady r0 (enterPlain g s) := by
  unfold enterPlain
  repeat' first
    | (extract_lets +onlyGivenNames x; refine Steady.cut (r := r0) x ?_ (fun hx => ?_); unfold x; clear x; rotate_left; clear_value x)
    | (extract_lets +onlyGivenNames x; unfold x; clear x)
    | with_reducible assumption
    | with_reducible apply Steady.ite
    | with_reducible refine Steady.foldl _ _ ?_ (fun _ _ _ => ?_)
    | with_reducible apply applyMembers_steady
    | with_reducible apply commitDone_steady
    | fail_if_no_progress (with_reducible refine Steady.lit (s := _) rfl ?_)
    | split

theorem execCommitEnter_steady (id : Nat) (st : Option (Fin 64)) {r0 s : State} (h0 : Steady r0 s) : Ends r0 (execCommitEnter id st s) := by
  unfold execCommitEnter
  repeat' first
    | (extract_lets +onlyGivenNames x; refine Steady.cut (r := r0) x ?_ (fun hx => ?_); unfold x; clear x; rotate_left; clear_value x)
    | (extract_lets +onlyGivenNames x; unfold x; clear x)
    | with_reducible assumption
    | with_reducible apply Ends.next
    | with_reducible apply Ends.ite
    | with_reducible apply Steady.ite
    | with_reducible apply enterPlain_steady
    | with_reducible apply enterStream_steady
    | fail_if_no_progress (with_reducible refine Steady.lit (s := _) rfl ?_)
    | split

end Sys2Proof.Machine
end

