-- ==== Sys2Proof/Laws/SteadyGenerator.lean ====
section
/-! SUPPORT. What the operations of Machine/Generator.lean keep. -/
namespace Sys2Proof.Machine

set_option linter.unusedTactic false
set_option linter.unreachableTactic false

theorem sendTriggers_steady (r : LineRec) {r0 s : State} (h0 : Steady r0 s) : Steady r0 (sendTriggers r s) := by
  unfold sendTriggers
  repeat' first
    | (extract_lets +onlyGivenNames x; refine Steady.cut (r := r0) x ?_ (fun hx => ?_); unfold x; clear x; rotate_left; clear_value x)
    | (extract_lets +onlyGivenNames x; unfold x; clear x)
    | with_reducible assumption
    | with_reducible apply Steady.ite
    | with_reducible refine Steady.foldl _ _ ?_ (fun _ _ _ => ?_)
    | with_reducible apply sendBack_steady
    | split

theorem countRate_steady (st at_ : Nat) {r0 s : State} (h0 : Steady r0 s) : Steady r0 (countRate st at_ s) := by
  unfold countRate
  repeat' first
    | (extract_lets +onlyGivenNames x; refine Steady.cut (r := r0) x ?_ (fun hx => ?_); unfold x; clear x; rotate_left; clear_value x)
    | (extract_lets +onlyGivenNames x; unfold x; clear x)
    | with_reducible assumption
    | with_reducible apply Steady.ite
    | with_reducible apply State.updStrm_steady
    | with_reducible apply State.count_steady
    | fail_if_no_progress (with_reducible refine Steady.lit (s := _) rfl ?_)
    | split

theorem seamResume_steady (r : LineRec) {r0 s : State} (h0 : Steady r0 s) : Steady r0 (seamResume r s) := by
  unfold seamResume
  repeat' first
    | (extract_lets +onlyGivenNames x; refine Steady.cut (r := r0) x ?_ (fun hx => ?_); unfold x; clear x; rotate_left; clear_value x)
    | (extract_lets +onlyGivenNames x; unfold x; clear x)
    | with_reducible assumption
    | with_reducible apply Steady.ite
    | with_reducible apply State.updSeam_steady
    | with_reducible apply State.count_steady
    | with_reducible apply State.raise_steady
    | with_reducible apply releaseGates_steady
    | with_reducible apply paceFixed_steady
    | with_reducible apply transEnter_steady
    | with_reducible apply State.updTrans_steady
    | fail_if_no_progress (with_reducible refine Steady.lit (s := _) rfl ?_)
    | split

theorem scheduleLine_steady (st : Nat) (want : Nat) (p : Placed) {r0 s : State} (h0 : Steady r0 s) : Steady r0 (scheduleLine st want p s) := by
  unfold scheduleLine
  repeat' first
    | (extract_lets +onlyGivenNames x; refine Steady.cut (r := r0) x ?_ (fun hx => ?_); unfold x; clear x; rotate_left; clear_value x)
    | (extract_lets +onlyGivenNames x; refine Steady.cut2 (r := r0) x ?_ (fun hx => ?_); unfold x; clear x; rotate_left; clear_value x)
    | (extract_lets +onlyGivenNames x; refine Steady.cut1 (r := r0) x ?_ (fun hx => ?_); unfold x; clear x; rotate_left; clear_value x)
    | (extract_lets +onlyGivenNames x; unfold x; clear x)
    | with_reducible assumption
    | with_reducible apply Steady.ite
    | with_reducible apply enterDue_steady
    | with_reducible apply seamResume_steady
    | with_reducible apply State.updGen_steady
    | with_reducible apply State.updStrm_steady
    | with_reducible apply State.updCalib_steady
    | with_reducible apply State.count_steady
    | with_reducible apply State.raiseFault_steady
    | with_reducible apply loseRec_steady
    | with_reducible apply State.mapPulses_steady
    | with_reducible apply countRate_steady
    | with_reducible apply sendTriggers_steady
    | fail_if_no_progress (with_reducible refine Steady.lit (s := _) rfl ?_)
    | split

theorem skipUsed_steady (st : Nat) {r0 s : State} (h0 : Steady r0 s) : Steady r0 (skipUsed st s) := by
  unfold skipUsed
  repeat' first
    | (extract_lets +onlyGivenNames x; refine Steady.cut (r := r0) x ?_ (fun hx => ?_); unfold x; clear x; rotate_left; clear_value x)
    | (extract_lets +onlyGivenNames x; unfold x; clear x)
    | with_reducible assumption
    | with_reducible apply State.updGen_steady
    | fail_if_no_progress (with_reducible refine Steady.lit (s := _) rfl ?_)

theorem readyToPlace_steady (st : Nat) {r0 s : State} (h0 : Steady r0 s) : Steady r0 (readyToPlace st s) := by
  unfold readyToPlace
  repeat' first
    | (extract_lets +onlyGivenNames x; refine Steady.cut (r := r0) x ?_ (fun hx => ?_); unfold x; clear x; rotate_left; clear_value x)
    | (extract_lets +onlyGivenNames x; unfold x; clear x)
    | with_reducible assumption
    | with_reducible apply Steady.ite
    | with_reducible apply skipUsed_steady
    | with_reducible apply enterDue_steady
    | split

theorem timerRun_steady (st : Nat) (n : Nat) {r0 s : State} (h0 : Steady r0 s) : Steady r0 (timerRun st n s) := by
  induction n generalizing s with
  | zero => exact h0
  | succ n ih =>
  unfold timerRun
  repeat' first
    | with_reducible apply ih
    | (extract_lets +onlyGivenNames x; refine Steady.cut (r := r0) x ?_ (fun hx => ?_); unfold x; clear x; rotate_left; clear_value x)
    | (extract_lets +onlyGivenNames x; refine Steady.cut2 (r := r0) x ?_ (fun hx => ?_); unfold x; clear x; rotate_left; clear_value x)
    | (extract_lets +onlyGivenNames x; refine Steady.cut1 (r := r0) x ?_ (fun hx => ?_); unfold x; clear x; rotate_left; clear_value x)
    | (extract_lets +onlyGivenNames x; unfold x; clear x)
    | with_reducible assumption
    | with_reducible apply Steady.ite
    | with_reducible apply readyToPlace_steady
    | with_reducible apply scheduleLine_steady
    | fail_if_no_progress (with_reducible refine Steady.lit (s := _) rfl ?_)
    | split

theorem withdraw_steady (st : Nat) (r : LineRec) {r0 s : State} (h0 : Steady r0 s) : Steady r0 (withdraw st r s) := by
  unfold withdraw
  repeat' first
    | (extract_lets +onlyGivenNames x; refine Steady.cut (r := r0) x ?_ (fun hx => ?_); unfold x; clear x; rotate_left; clear_value x)
    | (extract_lets +onlyGivenNames x; unfold x; clear x)
    | with_reducible assumption
    | with_reducible apply Steady.ite
    | with_reducible refine Steady.foldl _ _ ?_ (fun _ _ _ => ?_)
    | with_reducible apply slipRec_steady
    | with_reducible apply withdrawRec_steady
    | with_reducible apply sendCancel_steady
    | with_reducible apply updRec_steady
    | fail_if_no_progress (with_reducible refine Steady.lit (s := _) rfl ?_)
    | split

theorem recheck_steady (st c : Nat) {r0 s : State} (h0 : Steady r0 s) : Steady r0 (recheck st c s) := by
  unfold recheck
  repeat' first
    | (extract_lets +onlyGivenNames x; refine Steady.cut (r := r0) x ?_ (fun hx => ?_); unfold x; clear x; rotate_left; clear_value x)
    | (extract_lets +onlyGivenNames x; refine Steady.cut2 (r := r0) x ?_ (fun hx => ?_); unfold x; clear x; rotate_left; clear_value x)
    | (extract_lets +onlyGivenNames x; refine Steady.cut1 (r := r0) x ?_ (fun hx => ?_); unfold x; clear x; rotate_left; clear_value x)
    | (extract_lets +onlyGivenNames x; unfold x; clear x)
    | with_reducible assumption
    | with_reducible apply Steady.ite
    | with_reducible refine Steady.foldl1 _ _ ?_ (fun _ _ _ => ?_)
    | with_reducible refine Steady.foldl2 _ _ ?_ (fun _ _ _ => ?_)
    | with_reducible refine Steady.foldl _ _ ?_ (fun _ _ _ => ?_)
    | with_reducible apply withdraw_steady
    | with_reducible apply updRec_steady
    | fail_if_no_progress (with_reducible refine Steady.lit (s := _) rfl ?_)
    | split

theorem placeReached_steady (st c stamp : Nat) (n : Nat) {r0 s : State} (h0 : Steady r0 s) : Steady r0 (placeReached st c stamp n s) := by
  induction n generalizing s with
  | zero => exact h0
  | succ n ih =>
  unfold placeReached
  repeat' first
    | with_reducible apply ih
    | (extract_lets +onlyGivenNames x; refine Steady.cut (r := r0) x ?_ (fun hx => ?_); unfold x; clear x; rotate_left; clear_value x)
    | (extract_lets +onlyGivenNames x; unfold x; clear x)
    | with_reducible assumption
    | with_reducible apply Steady.ite
    | with_reducible apply readyToPlace_steady
    | with_reducible apply State.count_steady
    | with_reducible apply State.raise_steady
    | with_reducible apply scheduleLine_steady
    | split

theorem placePredicted_steady (st c : Nat) (n : Nat) {r0 s : State} (h0 : Steady r0 s) : Steady r0 (placePredicted st c n s) := by
  induction n generalizing s with
  | zero => exact h0
  | succ n ih =>
  unfold placePredicted
  repeat' first
    | with_reducible apply ih
    | (extract_lets +onlyGivenNames x; refine Steady.cut (r := r0) x ?_ (fun hx => ?_); unfold x; clear x; rotate_left; clear_value x)
    | (extract_lets +onlyGivenNames x; refine Steady.cut2 (r := r0) x ?_ (fun hx => ?_); unfold x; clear x; rotate_left; clear_value x)
    | (extract_lets +onlyGivenNames x; refine Steady.cut1 (r := r0) x ?_ (fun hx => ?_); unfold x; clear x; rotate_left; clear_value x)
    | (extract_lets +onlyGivenNames x; unfold x; clear x)
    | with_reducible assumption
    | with_reducible apply Steady.ite
    | with_reducible apply readyToPlace_steady
    | with_reducible apply scheduleLine_steady
    | split

theorem positionRun_steady (st : Nat) {r0 s : State} (h0 : Steady r0 s) : Steady r0 (positionRun st s) := by
  unfold positionRun
  repeat' first
    | (extract_lets +onlyGivenNames x; refine Steady.cut (r := r0) x ?_ (fun hx => ?_); unfold x; clear x; rotate_left; clear_value x)
    | (extract_lets +onlyGivenNames x; refine Steady.cut2 (r := r0) x ?_ (fun hx => ?_); unfold x; clear x; rotate_left; clear_value x)
    | (extract_lets +onlyGivenNames x; refine Steady.cut1 (r := r0) x ?_ (fun hx => ?_); unfold x; clear x; rotate_left; clear_value x)
    | (extract_lets +onlyGivenNames x; unfold x; clear x)
    | with_reducible assumption
    | with_reducible apply Steady.ite
    | with_reducible apply recheck_steady
    | with_reducible apply placeReached_steady
    | with_reducible apply placePredicted_steady
    | with_reducible apply State.updGen_steady
    | fail_if_no_progress (with_reducible refine Steady.lit (s := _) rfl ?_)
    | split

theorem execGeneratorEvaluate_steady (st : Fin 64) {r0 s : State} (h0 : Steady r0 s) : Ends r0 (execGeneratorEvaluate st s) := by
  unfold execGeneratorEvaluate
  repeat' first
    | with_reducible assumption
    | with_reducible apply Ends.next
    | with_reducible apply Ends.ite
    | with_reducible apply Steady.ite
    | with_reducible apply State.updGen_steady
    | with_reducible apply positionRun_steady
    | with_reducible apply timerRun_steady
    | fail_if_no_progress (with_reducible refine Steady.lit (s := _) rfl ?_)
    | split

theorem openStream_steady (st : Nat) {r0 s : State} (h0 : Steady r0 s) : Steady r0 (openStream st s) := by
  unfold openStream
  repeat' first
    | (extract_lets +onlyGivenNames x; refine Steady.cut (r := r0) x ?_ (fun hx => ?_); unfold x; clear x; rotate_left; clear_value x)
    | (extract_lets +onlyGivenNames x; unfold x; clear x)
    | with_reducible assumption
    | with_reducible apply Steady.ite
    | with_reducible refine Steady.foldl _ _ ?_ (fun _ _ _ => ?_)
    | with_reducible apply enterIdle_steady
    | with_reducible apply State.setRing_steady
    | with_reducible apply State.setStrm_steady
    | with_reducible apply State.updCalib_steady
    | with_reducible apply dropLineEnds_steady
    | with_reducible apply State.updGen_steady
    | with_reducible apply State.setReg_steady
    | with_reducible apply State.updPort_steady
    | with_reducible apply State.updSeam_steady
    | with_reducible apply keepAwake_steady
    | with_reducible apply weirEval_steady
    | with_reducible apply transStreamOpened_steady
    | fail_if_no_progress (with_reducible refine Steady.lit (s := _) rfl ?_)
    | split

theorem gapRecheck_steady (r : LineRec) {r0 s : State} (h0 : Steady r0 s) : Steady r0 (gapRecheck r s) := by
  unfold gapRecheck
  repeat' first
    | with_reducible assumption
    | with_reducible apply Steady.ite
    | with_reducible apply updRec_steady
    | with_reducible apply State.updCalib_steady
    | fail_if_no_progress (with_reducible refine Steady.lit (s := _) rfl ?_)
    | split

theorem triggerOut_steady (st : Nat) (at_ : Nat) {r0 s : State} (h0 : Steady r0 s) : Steady r0 (triggerOut st at_ s) := by
  unfold triggerOut
  repeat' first
    | with_reducible assumption
    | with_reducible refine Steady.foldl _ _ ?_ (fun _ _ _ => ?_)
    | with_reducible apply pulseTio_steady

end Sys2Proof.Machine
end

