-- ==== Sys2Proof/Laws/SteadySpares.lean ====
section
/-! SUPPORT. What the operations of Machine/Spares.lean keep. -/
namespace Sys2Proof.Machine

set_option linter.unusedTactic false
set_option linter.unreachableTactic false

theorem notePools_steady  {r0 s : State} (h0 : Steady r0 s) : Steady r0 (notePools s) := by
  unfold notePools
  repeat' first
    | (extract_lets +onlyGivenNames x; refine Steady.cut (r := r0) x ?_ (fun hx => ?_); unfold x; clear x; rotate_left; clear_value x)
    | (extract_lets +onlyGivenNames x; unfold x; clear x)
    | with_reducible assumption
    | with_reducible apply Steady.ite
    | with_reducible refine Steady.foldl _ _ ?_ (fun _ _ _ => ?_)
    | with_reducible apply State.raise_steady
    | fail_if_no_progress (with_reducible refine Steady.lit (s := _) rfl ?_)
    | split

theorem recordRepairAt_steady (dt rkind origin unit detail fault : Nat) {r0 s : State} (h0 : Steady r0 s) : Steady r0 (recordRepairAt dt rkind origin unit detail fault s) := by
  unfold recordRepairAt
  repeat' first
    | (extract_lets +onlyGivenNames x; refine Steady.cut (r := r0) x ?_ (fun hx => ?_); unfold x; clear x; rotate_left; clear_value x)
    | (extract_lets +onlyGivenNames x; unfold x; clear x)
    | with_reducible assumption
    | fail_if_no_progress (with_reducible refine Steady.lit (s := _) rfl ?_)

theorem recordRepair_steady (rkind origin unit detail fault : Nat) {r0 s : State} (h0 : Steady r0 s) : Steady r0 (recordRepair rkind origin unit detail fault s) := by
  unfold recordRepair
  repeat' first
    | with_reducible assumption
    | with_reducible apply recordRepairAt_steady

theorem updRepair_steady (rkind unit : Nat) (f : Repair → Repair) {r0 s : State} (h0 : Steady r0 s) : Steady r0 (updRepair rkind unit f s) := by
  unfold updRepair
  repeat' first
    | with_reducible assumption
    | with_reducible apply Steady.ite
    | fail_if_no_progress (with_reducible refine Steady.lit (s := _) rfl ?_)
    | split

theorem countInsertion_steady (origin : Nat) {r0 s : State} (h0 : Steady r0 s) : Steady r0 (countInsertion origin s) := by
  unfold countInsertion
  repeat' first
    | with_reducible assumption
    | with_reducible apply Steady.ite
    | with_reducible apply State.count_steady
    | split

theorem flushReplaced_steady (pool unit : Nat) {r0 s : State} (h0 : Steady r0 s) : Steady r0 (flushReplaced pool unit s) := by
  unfold flushReplaced
  repeat' first
    | with_reducible assumption
    | with_reducible apply flushIsland_steady
    | fail_if_no_progress (with_reducible refine Steady.lit (s := _) rfl ?_)
    | split

theorem inserted_steady (pool unit spare origin : Nat) {r0 s : State} (h0 : Steady r0 s) : Steady r0 (inserted pool unit spare origin s) := by
  unfold inserted
  repeat' first
    | with_reducible assumption
    | with_reducible apply notePools_steady
    | with_reducible apply flushReplaced_steady
    | with_reducible apply State.raise_steady

theorem retireCore_steady (core : Nat) {r0 s : State} (h0 : Steady r0 s) : Steady r0 (retireCore core s) := by
  unfold retireCore
  repeat' first
    | (extract_lets +onlyGivenNames x; refine Steady.cut (r := r0) x ?_ (fun hx => ?_); unfold x; clear x; rotate_left; clear_value x)
    | (extract_lets +onlyGivenNames x; unfold x; clear x)
    | with_reducible assumption
    | with_reducible apply Steady.ite
    | with_reducible apply State.setReg_steady
    | fail_if_no_progress (with_reducible refine Steady.lit (s := _) rfl ?_)
    | split

theorem wearCheck_steady (ind unit : Nat) (past : Bool) {r0 s : State} (h0 : Steady r0 s) : Steady r0 (wearCheck ind unit past s) := by
  unfold wearCheck
  repeat' first
    | (extract_lets +onlyGivenNames x; refine Steady.cut (r := r0) x ?_ (fun hx => ?_); unfold x; clear x; rotate_left; clear_value x)
    | (extract_lets +onlyGivenNames x; unfold x; clear x)
    | with_reducible assumption
    | with_reducible apply Steady.ite
    | with_reducible apply State.raiseFault_steady
    | fail_if_no_progress (with_reducible refine Steady.lit (s := _) rfl ?_)
    | split

theorem State.updCoefRow_steady (row : Nat) (f : CoefRow → CoefRow) {r0 s : State} (h0 : Steady r0 s) : Steady r0 (State.updCoefRow s row f) := by
  unfold State.updCoefRow
  repeat' first
    | with_reducible assumption
    | (refine Steady.table (s := s) h0 rfl rfl rfl rfl fun c => { c with coefRows := Table.rising_set _ _ _ _ c.coefRows })
    | fail_if_no_progress (with_reducible refine Steady.lit (s := _) rfl ?_)

theorem mapCoefRow_steady (row origin : Nat) {r0 s : State} (h0 : Steady r0 s) : Steady r0 (mapCoefRow row origin s) := by
  unfold mapCoefRow
  repeat' first
    | (extract_lets +onlyGivenNames x; refine Steady.cut (r := r0) x ?_ (fun hx => ?_); unfold x; clear x; rotate_left; clear_value x)
    | (extract_lets +onlyGivenNames x; unfold x; clear x)
    | with_reducible assumption
    | with_reducible apply Steady.ite
    | with_reducible apply State.updCoefRow_steady
    | with_reducible apply State.setReg_steady
    | with_reducible apply recordRepair_steady
    | with_reducible apply wearCheck_steady
    | with_reducible apply inserted_steady
    | with_reducible apply countInsertion_steady
    | fail_if_no_progress (with_reducible refine Steady.lit (s := _) rfl ?_)
    | split

end Sys2Proof.Machine
end

