-- ==== Sys2Proof/Laws/SteadyPipeline.lean ====
section
/-! SUPPORT. What the operations of Machine/Pipeline.lean keep. -/
namespace Sys2Proof.Machine

set_option linter.unusedTactic false
set_option linter.unreachableTactic false

theorem execSegmentArrives_steady (st : Fin 64) {r0 s : State} (h0 : Steady r0 s) : Ends r0 (execSegmentArrives st s) := by
  unfold execSegmentArrives
  repeat' first
    | (extract_lets +onlyGivenNames x; refine Steady.cut (r := r0) x ?_ (fun hx => ?_); unfold x; clear x; rotate_left; clear_value x)
    | (extract_lets +onlyGivenNames x; unfold x; clear x)
    | with_reducible assumption
    | with_reducible apply Ends.next
    | with_reducible apply Ends.ite
    | with_reducible apply Steady.ite
    | with_reducible apply loseLine_steady
    | with_reducible apply State.raiseFault_steady
    | fail_if_no_progress (with_reducible refine Steady.lit (s := _) rfl ?_)
    | split

theorem enterLine_steady (r : LineRec) {r0 s : State} (h0 : Steady r0 s) : Steady r0 (enterLine r s) := by
  unfold enterLine
  repeat' first
    | (extract_lets +onlyGivenNames x; refine Steady.cut (r := r0) x ?_ (fun hx => ?_); unfold x; clear x; rotate_left; clear_value x)
    | (extract_lets +onlyGivenNames x; refine Steady.cut2 (r := r0) x ?_ (fun hx => ?_); unfold x; clear x; rotate_left; clear_value x)
    | (extract_lets +onlyGivenNames x; refine Steady.cut1 (r := r0) x ?_ (fun hx => ?_); unfold x; clear x; rotate_left; clear_value x)
    | (extract_lets +onlyGivenNames x; unfold x; clear x)
    | with_reducible assumption
    | with_reducible apply Steady.ite
    | with_reducible apply State.count_steady
    | with_reducible apply State.updStrm_steady
    | with_reducible apply State.raise_steady
    | with_reducible apply State.setReg_steady
    | with_reducible apply updRec_steady
    | fail_if_no_progress (with_reducible refine Steady.lit (s := _) rfl ?_)
    | split

theorem execSegmentDeal_steady  {r0 s : State} (h0 : Steady r0 s) : Ends r0 (execSegmentDeal s) := by
  unfold execSegmentDeal
  repeat' first
    | (extract_lets +onlyGivenNames x; refine Steady.cut (r := r0) x ?_ (fun hx => ?_); unfold x; clear x; rotate_left; clear_value x)
    | (extract_lets +onlyGivenNames x; unfold x; clear x)
    | with_reducible assumption
    | with_reducible apply Ends.next
    | with_reducible apply Ends.ite
    | with_reducible apply Steady.ite
    | with_reducible apply enterLine_steady
    | with_reducible apply State.updSlice_steady
    | fail_if_no_progress (with_reducible refine Steady.lit (s := _) rfl ?_)
    | split

theorem correctedReads_steady (rows : List Nat) {r0 s : State} (h0 : Steady r0 s) : Steady r0 (correctedReads rows s) := by
  unfold correctedReads
  repeat' first
    | (extract_lets +onlyGivenNames x; refine Steady.cut (r := r0) x ?_ (fun hx => ?_); unfold x; clear x; rotate_left; clear_value x)
    | (extract_lets +onlyGivenNames x; unfold x; clear x)
    | with_reducible assumption
    | with_reducible apply Steady.ite
    | with_reducible refine Steady.foldl _ _ ?_ (fun _ _ _ => ?_)
    | with_reducible apply State.count_steady
    | with_reducible apply State.updCoefRow_steady
    | with_reducible apply mapCoefRow_steady
    | fail_if_no_progress (with_reducible refine Steady.lit (s := _) rfl ?_)
    | split

theorem uncorrectableReads_steady (rows : List Nat) {r0 s : State} (h0 : Steady r0 s) : Steady r0 (uncorrectableReads rows s) := by
  unfold uncorrectableReads
  repeat' first
    | (extract_lets +onlyGivenNames x; refine Steady.cut (r := r0) x ?_ (fun hx => ?_); unfold x; clear x; rotate_left; clear_value x)
    | (extract_lets +onlyGivenNames x; unfold x; clear x)
    | with_reducible assumption
    | with_reducible apply Steady.ite
    | with_reducible refine Steady.foldl _ _ ?_ (fun _ _ _ => ?_)
    | with_reducible apply State.count_steady
    | with_reducible apply State.raise_steady
    | with_reducible apply State.updCoefRow_steady
    | with_reducible apply State.report_steady
    | fail_if_no_progress (with_reducible refine Steady.lit (s := _) rfl ?_)
    | split

theorem takeOut_steady (r : LineRec) (g : Segment) (bits : Nat) (o : SegOut) {r0 s : State} (h0 : Steady r0 s) : Steady r0 (takeOut r g bits o s) := by
  unfold takeOut
  repeat' first
    | (extract_lets +onlyGivenNames x; refine Steady.cut (r := r0) x ?_ (fun hx => ?_); unfold x; clear x; rotate_left; clear_value x)
    | (extract_lets +onlyGivenNames x; refine Steady.cut2 (r := r0) x ?_ (fun hx => ?_); unfold x; clear x; rotate_left; clear_value x)
    | (extract_lets +onlyGivenNames x; refine Steady.cut1 (r := r0) x ?_ (fun hx => ?_); unfold x; clear x; rotate_left; clear_value x)
    | (extract_lets +onlyGivenNames x; unfold x; clear x)
    | with_reducible assumption
    | with_reducible apply Steady.ite
    | with_reducible apply State.count_steady
    | with_reducible apply State.updStrm_steady
    | with_reducible apply updRec_steady
    | fail_if_no_progress (with_reducible refine Steady.lit (s := _) rfl ?_)
    | split

theorem sliceDone_steady (k : Nat) {r0 s : State} (h0 : Steady r0 s) : Steady r0 (sliceDone k s) := by
  unfold sliceDone
  repeat' first
    | (extract_lets +onlyGivenNames x; refine Steady.cut (r := r0) x ?_ (fun hx => ?_); unfold x; clear x; rotate_left; clear_value x)
    | (extract_lets +onlyGivenNames x; unfold x; clear x)
    | with_reducible assumption
    | with_reducible apply Steady.ite
    | with_reducible apply State.updSlice_steady
    | with_reducible apply inserted_steady
    | fail_if_no_progress (with_reducible refine Steady.lit (s := _) rfl ?_)
    | split

theorem residueFault_steady (k : Nat) (g : Segment) {r0 s : State} (h0 : Steady r0 s) : Steady r0 (residueFault k g s) := by
  unfold residueFault
  repeat' first
    | (extract_lets +onlyGivenNames x; refine Steady.cut (r := r0) x ?_ (fun hx => ?_); unfold x; clear x; rotate_left; clear_value x)
    | (extract_lets +onlyGivenNames x; unfold x; clear x)
    | with_reducible assumption
    | with_reducible apply Steady.ite
    | with_reducible apply State.updSlice_steady
    | with_reducible apply State.count_steady
    | with_reducible apply State.raiseFault_steady
    | with_reducible apply wearCheck_steady
    | with_reducible apply loseLine_steady
    | fail_if_no_progress (with_reducible refine Steady.lit (s := _) rfl ?_)
    | split

theorem execSegmentComplete_steady (k : Fin 68) (residue : Bool) (uncorrectable corrected : List Nat) {r0 s : State} (h0 : Steady r0 s) : Ends r0 (execSegmentComplete k residue uncorrectable corrected s) := by
  unfold execSegmentComplete
  repeat' first
    | (extract_lets +onlyGivenNames x; refine Steady.cut (r := r0) x ?_ (fun hx => ?_); unfold x; clear x; rotate_left; clear_value x)
    | (extract_lets +onlyGivenNames x; unfold x; clear x)
    | with_reducible assumption
    | with_reducible apply Ends.next
    | with_reducible apply Ends.ite
    | with_reducible apply Steady.ite
    | with_reducible apply residueFault_steady
    | with_reducible apply sliceDone_steady
    | with_reducible apply takeOut_steady
    | with_reducible apply correctedReads_steady
    | with_reducible apply uncorrectableReads_steady
    | with_reducible apply lineCheck_steady
    | fail_if_no_progress (with_reducible refine Steady.lit (s := _) rfl ?_)
    | split

theorem retireSlice_steady (k spare : Nat) {r0 s : State} (h0 : Steady r0 s) : Steady r0 (retireSlice k spare s) := by
  unfold retireSlice
  repeat' first
    | with_reducible assumption
    | with_reducible apply updRepair_steady
    | with_reducible apply State.updSlice_steady
    | fail_if_no_progress (with_reducible refine Steady.lit (s := _) rfl ?_)

theorem standBy_steady (j : Nat) {r0 s : State} (h0 : Steady r0 s) : Steady r0 (standBy j s) := by
  unfold standBy
  repeat' first
    | with_reducible assumption
    | with_reducible apply Steady.ite
    | with_reducible apply State.updSlice_steady
    | with_reducible apply inserted_steady
    | fail_if_no_progress (with_reducible refine Steady.lit (s := _) rfl ?_)
    | split

theorem sliceReturns_steady (k : Nat) (spare : Option Nat) {r0 s : State} (h0 : Steady r0 s) : Steady r0 (sliceReturns k spare s) := by
  unfold sliceReturns
  repeat' first
    | (extract_lets +onlyGivenNames x; refine Steady.cut (r := r0) x ?_ (fun hx => ?_); unfold x; clear x; rotate_left; clear_value x)
    | (extract_lets +onlyGivenNames x; unfold x; clear x)
    | with_reducible assumption
    | with_reducible apply Steady.ite
    | with_reducible apply updRepair_steady
    | with_reducible apply State.updSlice_steady
    | with_reducible apply standBy_steady
    | fail_if_no_progress (with_reducible refine Steady.lit (s := _) rfl ?_)
    | split

theorem sliceRetires_steady (k : Nat) (spare : Option Nat) {r0 s : State} (h0 : Steady r0 s) : Steady r0 (sliceRetires k spare s) := by
  unfold sliceRetires
  repeat' first
    | (extract_lets +onlyGivenNames x; refine Steady.cut (r := r0) x ?_ (fun hx => ?_); unfold x; clear x; rotate_left; clear_value x)
    | (extract_lets +onlyGivenNames x; unfold x; clear x)
    | with_reducible assumption
    | with_reducible apply Steady.ite
    | with_reducible apply notePools_steady
    | with_reducible apply retireSlice_steady
    | with_reducible apply State.updSlice_steady
    | with_reducible apply inserted_steady
    | with_reducible apply countInsertion_steady
    | with_reducible apply State.setReg_steady
    | with_reducible apply State.report_steady
    | fail_if_no_progress (with_reducible refine Steady.lit (s := _) rfl ?_)
    | split

theorem execSliceBist_steady (k : Fin 68) (pass : Bool) {r0 s : State} (h0 : Steady r0 s) : Ends r0 (execSliceBist k pass s) := by
  unfold execSliceBist
  repeat' first
    | (extract_lets +onlyGivenNames x; refine Steady.cut (r := r0) x ?_ (fun hx => ?_); unfold x; clear x; rotate_left; clear_value x)
    | (extract_lets +onlyGivenNames x; unfold x; clear x)
    | with_reducible assumption
    | with_reducible apply Ends.next
    | with_reducible apply Ends.ite
    | with_reducible apply Steady.ite
    | with_reducible apply sliceReturns_steady
    | with_reducible apply sliceRetires_steady
    | split

theorem execCoefRowRewrite_steady (row : Nat) {r0 s : State} (h0 : Steady r0 s) : Ends r0 (execCoefRowRewrite row s) := by
  unfold execCoefRowRewrite
  repeat' first
    | with_reducible assumption
    | with_reducible apply Ends.next
    | with_reducible apply Ends.ite
    | with_reducible apply Steady.ite
    | with_reducible apply State.updCoefRow_steady
    | fail_if_no_progress (with_reducible refine Steady.lit (s := _) rfl ?_)
    | split

end Sys2Proof.Machine
end

