-- ==== Sys2Proof/Laws/SteadyCalibration.lean ====
section
/-! SUPPORT. What the operations of Machine/Calibration.lean keep. -/
namespace Sys2Proof.Machine

set_option linter.unusedTactic false
set_option linter.unreachableTactic false

theorem acceptGroup_steady (boundary : Nat) (ms : List (Nat × Val)) (inForce : Bool) {r0 s : State} (h0 : Steady r0 s) : Steady r0 (acceptGroup boundary ms inForce s) := by
  unfold acceptGroup
  repeat' first
    | (extract_lets +onlyGivenNames x; refine Steady.cut (r := r0) x ?_ (fun hx => ?_); unfold x; clear x; rotate_left; clear_value x)
    | (extract_lets +onlyGivenNames x; unfold x; clear x)
    | with_reducible assumption
    | with_reducible apply Steady.ite
    | with_reducible refine Steady.foldl _ _ ?_ (fun _ _ _ => ?_)
    | with_reducible apply enterPlain_steady
    | with_reducible apply enterIdle_steady
    | fail_if_no_progress (with_reducible refine Steady.lit (s := _) rfl ?_)
    | split

theorem armCapture_steady (st code : Nat) {r0 s : State} (h0 : Steady r0 s) : Steady r0 (armCapture st code s) := by
  unfold armCapture
  repeat' first
    | (extract_lets +onlyGivenNames x; refine Steady.cut (r := r0) x ?_ (fun hx => ?_); unfold x; clear x; rotate_left; clear_value x)
    | (extract_lets +onlyGivenNames x; unfold x; clear x)
    | with_reducible assumption
    | with_reducible apply Steady.ite
    | with_reducible apply State.updCalib_steady
    | with_reducible apply acceptGroup_steady
    | fail_if_no_progress (with_reducible refine Steady.lit (s := _) rfl ?_)
    | split

theorem abortCal_steady (st : Nat) {r0 s : State} (h0 : Steady r0 s) : Steady r0 (abortCal st s) := by
  unfold abortCal
  repeat' first
    | (extract_lets +onlyGivenNames x; refine Steady.cut (r := r0) x ?_ (fun hx => ?_); unfold x; clear x; rotate_left; clear_value x)
    | (extract_lets +onlyGivenNames x; unfold x; clear x)
    | with_reducible assumption
    | with_reducible apply Steady.ite
    | with_reducible apply failCapture_steady
    | with_reducible apply State.updCalib_steady
    | fail_if_no_progress (with_reducible refine Steady.lit (s := _) rfl ?_)
    | split

theorem calCommand_steady (st code : Nat) {r0 s : State} (h0 : Steady r0 s) : Steady r0 (calCommand st code s) := by
  unfold calCommand
  repeat' first
    | with_reducible assumption
    | with_reducible apply Steady.ite
    | with_reducible apply abortCal_steady
    | with_reducible apply State.raise_steady
    | with_reducible apply State.updCalib_steady
    | with_reducible apply armCapture_steady
    | fail_if_no_progress (with_reducible refine Steady.lit (s := _) rfl ?_)
    | split

theorem execCalDark_steady (st : Fin 64) {r0 s : State} (h0 : Steady r0 s) : Ends r0 (execCalDark st s) := by
  unfold execCalDark
  repeat' first
    | with_reducible assumption
    | with_reducible apply Ends.next
    | with_reducible apply calCommand_steady

theorem execCalWhite_steady (st : Fin 64) {r0 s : State} (h0 : Steady r0 s) : Ends r0 (execCalWhite st s) := by
  unfold execCalWhite
  repeat' first
    | with_reducible assumption
    | with_reducible apply Ends.next
    | with_reducible apply calCommand_steady

theorem execCalGapDark_steady (st : Fin 64) {r0 s : State} (h0 : Steady r0 s) : Ends r0 (execCalGapDark st s) := by
  unfold execCalGapDark
  repeat' first
    | with_reducible assumption
    | with_reducible apply Ends.next
    | with_reducible apply calCommand_steady

theorem execCalGapWhite_steady (st : Fin 64) {r0 s : State} (h0 : Steady r0 s) : Ends r0 (execCalGapWhite st s) := by
  unfold execCalGapWhite
  repeat' first
    | with_reducible assumption
    | with_reducible apply Ends.next
    | with_reducible apply calCommand_steady

theorem execCalDerive_steady (st : Fin 64) {r0 s : State} (h0 : Steady r0 s) : Ends r0 (execCalDerive st s) := by
  unfold execCalDerive
  repeat' first
    | with_reducible assumption
    | with_reducible apply Ends.next
    | with_reducible apply calCommand_steady

theorem execCalAbort_steady (st : Fin 64) {r0 s : State} (h0 : Steady r0 s) : Ends r0 (execCalAbort st s) := by
  unfold execCalAbort
  repeat' first
    | with_reducible assumption
    | with_reducible apply Ends.next
    | with_reducible apply calCommand_steady

theorem execCaptureStart_steady (st : Fin 64) {r0 s : State} (h0 : Steady r0 s) : Ends r0 (execCaptureStart st s) := by
  unfold execCaptureStart
  repeat' first
    | (extract_lets +onlyGivenNames x; refine Steady.cut (r := r0) x ?_ (fun hx => ?_); unfold x; clear x; rotate_left; clear_value x)
    | (extract_lets +onlyGivenNames x; unfold x; clear x)
    | with_reducible assumption
    | with_reducible apply Ends.next
    | with_reducible apply Ends.ite
    | with_reducible apply Steady.ite
    | with_reducible apply enterStream_steady
    | with_reducible apply captureEnters_steady
    | fail_if_no_progress (with_reducible refine Steady.lit (s := _) rfl ?_)
    | split

theorem execCaptureComplete_steady (st : Fin 64) {r0 s : State} (h0 : Steady r0 s) : Ends r0 (execCaptureComplete st s) := by
  unfold execCaptureComplete
  repeat' first
    | (extract_lets +onlyGivenNames x; refine Steady.cut (r := r0) x ?_ (fun hx => ?_); unfold x; clear x; rotate_left; clear_value x)
    | (extract_lets +onlyGivenNames x; unfold x; clear x)
    | with_reducible assumption
    | with_reducible apply Ends.next
    | with_reducible apply Ends.ite
    | with_reducible apply Steady.ite
    | with_reducible apply State.setCalib_steady
    | with_reducible apply State.raise_steady
    | fail_if_no_progress (with_reducible refine Steady.lit (s := _) rfl ?_)
    | split

theorem execDeriveDone_steady (st : Fin 64) {r0 s : State} (h0 : Steady r0 s) : Ends r0 (execDeriveDone st s) := by
  unfold execDeriveDone
  repeat' first
    | (extract_lets +onlyGivenNames x; refine Steady.cut (r := r0) x ?_ (fun hx => ?_); unfold x; clear x; rotate_left; clear_value x)
    | (extract_lets +onlyGivenNames x; refine Steady.cut2 (r := r0) x ?_ (fun hx => ?_); unfold x; clear x; rotate_left; clear_value x)
    | (extract_lets +onlyGivenNames x; refine Steady.cut1 (r := r0) x ?_ (fun hx => ?_); unfold x; clear x; rotate_left; clear_value x)
    | (extract_lets +onlyGivenNames x; unfold x; clear x)
    | with_reducible assumption
    | with_reducible apply Ends.next
    | with_reducible apply Ends.ite
    | with_reducible apply Steady.ite
    | with_reducible apply State.setReg_steady
    | with_reducible apply State.report_steady
    | with_reducible apply State.updCalib_steady
    | with_reducible apply failCapture_steady
    | with_reducible apply State.raise_steady
    | with_reducible apply acceptGroup_steady
    | fail_if_no_progress (with_reducible refine Steady.lit (s := _) rfl ?_)
    | split

theorem enterWarming_steady  {r0 s : State} (h0 : Steady r0 s) : Steady r0 (enterWarming s) := by
  unfold enterWarming
  repeat' first
    | with_reducible assumption
    | fail_if_no_progress (with_reducible refine Steady.lit (s := _) rfl ?_)

theorem lampDomains_steady (on : Bool) {r0 s : State} (h0 : Steady r0 s) : Steady r0 (lampDomains on s) := by
  unfold lampDomains
  repeat' first
    | with_reducible assumption
    | with_reducible apply Steady.ite
    | with_reducible apply enterWarming_steady
    | fail_if_no_progress (with_reducible refine Steady.lit (s := _) rfl ?_)
    | split

theorem warmSource_steady (i : Nat) {r0 s : State} (h0 : Steady r0 s) : Steady r0 (warmSource i s).2 := by
  unfold warmSource
  repeat' first
    | (extract_lets +onlyGivenNames x; refine Steady.cut (r := r0) x ?_ (fun hx => ?_); unfold x; clear x; rotate_left; clear_value x)
    | (extract_lets +onlyGivenNames x; refine Steady.cut2 (r := r0) x ?_ (fun hx => ?_); unfold x; clear x; rotate_left; clear_value x)
    | (extract_lets +onlyGivenNames x; refine Steady.cut1 (r := r0) x ?_ (fun hx => ?_); unfold x; clear x; rotate_left; clear_value x)
    | (extract_lets +onlyGivenNames x; unfold x; clear x)
    | with_reducible assumption
    | with_reducible apply Steady.ite
    | with_reducible apply Steady.ite2
    | with_reducible apply State.free_steady
    | with_reducible apply State.setReg_steady
    | fail_if_no_progress (with_reducible refine Steady.lit (s := _) rfl ?_)
    | split

theorem execWarmupInterval_steady  {r0 s : State} (h0 : Steady r0 s) : Ends r0 (execWarmupInterval s) := by
  unfold execWarmupInterval
  repeat' first
    | (extract_lets +onlyGivenNames x; refine Steady.cut (r := r0) x ?_ (fun hx => ?_); unfold x; clear x; rotate_left; clear_value x)
    | (extract_lets +onlyGivenNames x; refine Steady.cut2 (r := r0) x ?_ (fun hx => ?_); unfold x; clear x; rotate_left; clear_value x)
    | (extract_lets +onlyGivenNames x; refine Steady.cut1 (r := r0) x ?_ (fun hx => ?_); unfold x; clear x; rotate_left; clear_value x)
    | (extract_lets +onlyGivenNames x; unfold x; clear x)
    | with_reducible assumption
    | with_reducible apply Ends.next
    | with_reducible apply Ends.ite
    | with_reducible apply Steady.ite
    | with_reducible refine Steady.foldl1 _ _ ?_ (fun _ _ _ => ?_)
    | with_reducible refine Steady.foldl2 _ _ ?_ (fun _ _ _ => ?_)
    | with_reducible refine Steady.foldl _ _ ?_ (fun _ _ _ => ?_)
    | with_reducible apply State.loopRan_steady
    | with_reducible apply warmSource_steady
    | with_reducible apply State.raise_steady
    | fail_if_no_progress (with_reducible refine Steady.lit (s := _) rfl ?_)
    | split

theorem execLampWarmupTimeout_steady  {r0 s : State} (h0 : Steady r0 s) : Ends r0 (execLampWarmupTimeout s) := by
  unfold execLampWarmupTimeout
  repeat' first
    | (extract_lets +onlyGivenNames x; refine Steady.cut (r := r0) x ?_ (fun hx => ?_); unfold x; clear x; rotate_left; clear_value x)
    | (extract_lets +onlyGivenNames x; unfold x; clear x)
    | with_reducible assumption
    | with_reducible apply Ends.next
    | with_reducible apply Ends.ite
    | with_reducible apply Steady.ite
    | with_reducible refine Steady.foldl _ _ ?_ (fun _ _ _ => ?_)
    | with_reducible apply State.raiseFault_steady
    | with_reducible apply failCapture_steady
    | fail_if_no_progress (with_reducible refine Steady.lit (s := _) rfl ?_)
    | split

theorem execWarmupRestart_steady  {r0 s : State} (h0 : Steady r0 s) : Ends r0 (execWarmupRestart s) := by
  unfold execWarmupRestart
  repeat' first
    | with_reducible assumption
    | with_reducible apply Ends.next
    | with_reducible apply enterWarming_steady

end Sys2Proof.Machine
end

