-- ==== Sys2Proof/Laws/SteadyDelta.lean ====
section
/-! SUPPORT. What the operations of Machine/Delta.lean keep. -/
namespace Sys2Proof.Machine

set_option linter.unusedTactic false
set_option linter.unreachableTactic false

theorem State.updCq_steady (f : CplQueue → CplQueue) {r0 s : State} (h0 : Steady r0 s) : Steady r0 (State.updCq s f) := by
  unfold State.updCq
  repeat' first
    | with_reducible assumption
    | fail_if_no_progress (with_reducible refine Steady.lit (s := _) rfl ?_)

theorem State.updMbx_steady (f : Mailbox → Mailbox) {r0 s : State} (h0 : Steady r0 s)
    (e : ∀ m, ((f m).txRing, (f m).rxRing) = (m.txRing, m.rxRing)) : Steady r0 (s.updMbx f) := by
  have e1 : (f s.host.mbx).txRing = s.host.mbx.txRing := congrArg Prod.fst (e s.host.mbx)
  have e2 : (f s.host.mbx).rxRing = s.host.mbx.rxRing := congrArg Prod.snd (e s.host.mbx)
  refine Steady.table h0 rfl rfl rfl rfl fun c => { c with txRing := ?_, rxRing := ?_ }
  · simp only [State.updMbx, e1]; exact c.txRing
  · simp only [State.updMbx, e2]; exact c.rxRing

theorem readReservoir_steady (a len : Nat) {r0 s : State} (h0 : Steady r0 s) : Steady r0 (readReservoir a len s).2 := by
  unfold readReservoir
  repeat' first
    | (extract_lets +onlyGivenNames x; refine Steady.cut (r := r0) x ?_ (fun hx => ?_); unfold x; clear x; rotate_left; clear_value x)
    | (extract_lets +onlyGivenNames x; refine Steady.cut2 (r := r0) x ?_ (fun hx => ?_); unfold x; clear x; rotate_left; clear_value x)
    | (extract_lets +onlyGivenNames x; refine Steady.cut1 (r := r0) x ?_ (fun hx => ?_); unfold x; clear x; rotate_left; clear_value x)
    | (extract_lets +onlyGivenNames x; unfold x; clear x)
    | with_reducible assumption
    | with_reducible apply Steady.ite
    | with_reducible apply Steady.ite2
    | with_reducible apply State.count_steady
    | fail_if_no_progress (with_reducible refine Steady.lit (s := _) rfl ?_)
    | split

theorem execBar4Read_steady (off len : Nat) {r0 s : State} (h0 : Steady r0 s) : Ends r0 (execBar4Read off len s) := by
  unfold execBar4Read
  repeat' first
    | (extract_lets +onlyGivenNames x; refine Steady.cut (r := r0) x ?_ (fun hx => ?_); unfold x; clear x; rotate_left; clear_value x)
    | (extract_lets +onlyGivenNames x; refine Steady.cut2 (r := r0) x ?_ (fun hx => ?_); unfold x; clear x; rotate_left; clear_value x)
    | (extract_lets +onlyGivenNames x; refine Steady.cut1 (r := r0) x ?_ (fun hx => ?_); unfold x; clear x; rotate_left; clear_value x)
    | (extract_lets +onlyGivenNames x; unfold x; clear x)
    | with_reducible assumption
    | with_reducible apply Ends.next
    | with_reducible apply readReservoir_steady
    | with_reducible apply enq_steady

theorem execBar4Write_steady (_off : Nat) (_data : Bytes) {r0 s : State} (h0 : Steady r0 s) : Ends r0 (execBar4Write _off _data s) := by
  unfold execBar4Write
  repeat' first
    | with_reducible assumption
    | with_reducible apply Ends.next
    | with_reducible apply State.count_steady
    | with_reducible apply State.emit_steady

theorem putRun_steady (n : Nat) (toLocal : Bool) (a : Nat) (b : Bytes) {r0 s : State} (h0 : Steady r0 s) : Steady r0 (putRun n toLocal a b s) := by
  unfold putRun
  repeat' first
    | with_reducible assumption
    | with_reducible apply Steady.ite
    | with_reducible apply enqs_steady
    | (refine Steady.table (s := s) h0 rfl rfl rfl rfl fun c => { c with mem := Memory.wf_writeN _ _ _ c.mem })
    | fail_if_no_progress (with_reducible refine Steady.lit (s := _) rfl ?_)
    | split

theorem putCopy_steady (n d : Nat) (b : Bytes) {r0 s : State} (h0 : Steady r0 s) : Steady r0 (putCopy n d b s) := by
  unfold putCopy
  repeat' first
    | (extract_lets +onlyGivenNames x; refine Steady.cut (r := r0) x ?_ (fun hx => ?_); unfold x; clear x; rotate_left; clear_value x)
    | (extract_lets +onlyGivenNames x; refine Steady.cut2 (r := r0) x ?_ (fun hx => ?_); unfold x; clear x; rotate_left; clear_value x)
    | (extract_lets +onlyGivenNames x; refine Steady.cut1 (r := r0) x ?_ (fun hx => ?_); unfold x; clear x; rotate_left; clear_value x)
    | (extract_lets +onlyGivenNames x; unfold x; clear x)
    | with_reducible assumption
    | with_reducible apply Steady.ite
    | with_reducible refine Steady.foldl1 _ _ ?_ (fun _ _ _ => ?_)
    | with_reducible refine Steady.foldl2 _ _ ?_ (fun _ _ _ => ?_)
    | with_reducible refine Steady.foldl _ _ ?_ (fun _ _ _ => ?_)
    | with_reducible apply putRun_steady
    | with_reducible apply enqs_steady
    | split

theorem flushRun_steady (n : Nat) {r0 s : State} (h0 : Steady r0 s) : Steady r0 (flushRun n s) := by
  unfold flushRun
  repeat' first
    | (extract_lets +onlyGivenNames x; refine Steady.cut (r := r0) x ?_ (fun hx => ?_); unfold x; clear x; rotate_left; clear_value x)
    | (extract_lets +onlyGivenNames x; unfold x; clear x)
    | with_reducible assumption
    | with_reducible apply Steady.ite
    | with_reducible apply putCopy_steady
    | with_reducible apply putRun_steady
    | with_reducible apply State.updChan_steady
    | fail_if_no_progress (with_reducible refine Steady.lit (s := _) rfl ?_)
    | split

theorem addLine_steady (n a : Nat) (b : Bytes) {r0 s : State} (h0 : Steady r0 s) : Steady r0 (addLine n a b s) := by
  unfold addLine
  repeat' first
    | (extract_lets +onlyGivenNames x; refine Steady.cut (r := r0) x ?_ (fun hx => ?_); unfold x; clear x; rotate_left; clear_value x)
    | (extract_lets +onlyGivenNames x; unfold x; clear x)
    | with_reducible assumption
    | with_reducible apply Steady.ite
    | with_reducible apply flushRun_steady
    | with_reducible apply State.updChan_steady
    | fail_if_no_progress (with_reducible refine Steady.lit (s := _) rfl ?_)
    | split

theorem lostUnits_steady (st : Nat) {r0 s : State} (h0 : Steady r0 s) : Steady r0 (lostUnits st s) := by
  unfold lostUnits
  repeat' first
    | with_reducible assumption
    | with_reducible apply State.count_steady
    | with_reducible apply State.raiseFault_steady

theorem readSlot_steady (st line off len : Nat) (x : RingSlot) {r0 s : State} (h0 : Steady r0 s) : Steady r0 (readSlot st line off len x s).2.2 := by
  unfold readSlot
  repeat' first
    | (extract_lets +onlyGivenNames x; refine Steady.cut (r := r0) x ?_ (fun hx => ?_); unfold x; clear x; rotate_left; clear_value x)
    | (extract_lets +onlyGivenNames x; refine Steady.cut2 (r := r0) x ?_ (fun hx => ?_); unfold x; clear x; rotate_left; clear_value x)
    | (extract_lets +onlyGivenNames x; refine Steady.cut1 (r := r0) x ?_ (fun hx => ?_); unfold x; clear x; rotate_left; clear_value x)
    | (extract_lets +onlyGivenNames x; unfold x; clear x)
    | with_reducible assumption
    | with_reducible apply Steady.ite
    | with_reducible apply Steady.ite3
    | with_reducible apply State.count_steady
    | with_reducible apply lostUnits_steady
    | fail_if_no_progress (with_reducible refine Steady.lit (s := _) rfl ?_)
    | split

theorem fetchLine_steady (j : FetchJob) (i : Nat) (expired : Bool) {r0 s : State} (h0 : Steady r0 s) (b : Bytes) (m : Bool) (t : State)
    (e : fetchLine j i expired s = some (b, m, t)) : Steady r0 t := by
  unfold fetchLine at e
  dsimp only at e
  repeat' first
    | assumption
    | with_reducible apply readSlot_steady
    | with_reducible apply Steady.ite3
    | (simp only [Option.some.injEq, Prod.mk.injEq, reduceCtorEq] at e; done)
    | (simp only [Option.some.injEq, Prod.mk.injEq] at e; obtain ⟨-, -, rfl⟩ := e)
    | split at e

theorem askHost_steady (n a len : Nat) {r0 s : State} (h0 : Steady r0 s) : Steady r0 (askHost n a len s) := by
  unfold askHost
  repeat' first
    | with_reducible assumption
    | with_reducible apply enqs_steady

theorem requestNext_steady (n : Nat) {r0 s : State} (h0 : Steady r0 s) : Steady r0 (requestNext n s) := by
  unfold requestNext
  repeat' first
    | (extract_lets +onlyGivenNames x; refine Steady.cut (r := r0) x ?_ (fun hx => ?_); unfold x; clear x; rotate_left; clear_value x)
    | (extract_lets +onlyGivenNames x; refine Steady.cut2 (r := r0) x ?_ (fun hx => ?_); unfold x; clear x; rotate_left; clear_value x)
    | (extract_lets +onlyGivenNames x; refine Steady.cut1 (r := r0) x ?_ (fun hx => ?_); unfold x; clear x; rotate_left; clear_value x)
    | (extract_lets +onlyGivenNames x; unfold x; clear x)
    | with_reducible assumption
    | with_reducible apply Steady.ite
    | with_reducible apply askHost_steady
    | fail_if_no_progress (with_reducible refine Steady.lit (s := _) rfl ?_)
    | split

theorem loadDesc_steady (n raw d : Nat) {r0 s : State} (h0 : Steady r0 s) : Steady r0 (loadDesc n raw d s) := by
  unfold loadDesc
  repeat' first
    | (extract_lets +onlyGivenNames x; refine Steady.cut (r := r0) x ?_ (fun hx => ?_); unfold x; clear x; rotate_left; clear_value x)
    | (extract_lets +onlyGivenNames x; refine Steady.cut2 (r := r0) x ?_ (fun hx => ?_); unfold x; clear x; rotate_left; clear_value x)
    | (extract_lets +onlyGivenNames x; refine Steady.cut1 (r := r0) x ?_ (fun hx => ?_); unfold x; clear x; rotate_left; clear_value x)
    | (extract_lets +onlyGivenNames x; unfold x; clear x)
    | with_reducible assumption
    | with_reducible apply Steady.ite
    | with_reducible apply State.updChan_steady
    | with_reducible apply moveMark_steady
    | with_reducible apply requestNext_steady
    | fail_if_no_progress (with_reducible refine Steady.lit (s := _) rfl ?_)
    | split

theorem pushRecord_steady (n rec_ : Nat) {r0 s : State} (h0 : Steady r0 s) : Steady r0 (pushRecord n rec_ s) := by
  unfold pushRecord
  repeat' first
    | (extract_lets +onlyGivenNames x; refine Steady.cut (r := r0) x ?_ (fun hx => ?_); unfold x; clear x; rotate_left; clear_value x)
    | (extract_lets +onlyGivenNames x; refine Steady.cut2 (r := r0) x ?_ (fun hx => ?_); unfold x; clear x; rotate_left; clear_value x)
    | (extract_lets +onlyGivenNames x; refine Steady.cut1 (r := r0) x ?_ (fun hx => ?_); unfold x; clear x; rotate_left; clear_value x)
    | (extract_lets +onlyGivenNames x; unfold x; clear x)
    | with_reducible assumption
    | with_reducible apply Steady.ite
    | with_reducible apply State.updChan_steady
    | with_reducible apply sendVector_steady
    | with_reducible apply State.updCq_steady
    | fail_if_no_progress (with_reducible refine Steady.lit (s := _) rfl ?_)
    | split

theorem signalRecord_steady (n rec_ : Nat) {r0 s : State} (h0 : Steady r0 s) : Steady r0 (signalRecord n rec_ s).2 := by
  unfold signalRecord
  repeat' first
    | with_reducible assumption
    | with_reducible apply Steady.ite
    | with_reducible apply Steady.ite2
    | with_reducible apply State.updCq_steady
    | with_reducible apply State.raise_steady
    | with_reducible apply pushRecord_steady
    | fail_if_no_progress (with_reducible refine Steady.lit (s := _) rfl ?_)
    | split

theorem chanError_steady (n raw code : Nat) {r0 s : State} (h0 : Steady r0 s) : Steady r0 (chanError n raw code s) := by
  unfold chanError
  repeat' first
    | (extract_lets +onlyGivenNames x; refine Steady.cut (r := r0) x ?_ (fun hx => ?_); unfold x; clear x; rotate_left; clear_value x)
    | (extract_lets +onlyGivenNames x; refine Steady.cut2 (r := r0) x ?_ (fun hx => ?_); unfold x; clear x; rotate_left; clear_value x)
    | (extract_lets +onlyGivenNames x; refine Steady.cut1 (r := r0) x ?_ (fun hx => ?_); unfold x; clear x; rotate_left; clear_value x)
    | (extract_lets +onlyGivenNames x; unfold x; clear x)
    | with_reducible assumption
    | with_reducible apply Steady.ite
    | with_reducible apply State.updChan_steady
    | with_reducible apply State.raiseFault_steady
    | with_reducible apply signalRecord_steady
    | fail_if_no_progress (with_reducible refine Steady.lit (s := _) rfl ?_)
    | split

theorem fetchDue_steady (n raw : Nat) {r0 s : State} (h0 : Steady r0 s) : Steady r0 (fetchDue n raw s) := by
  unfold fetchDue
  repeat' first
    | with_reducible assumption
    | with_reducible apply Steady.ite
    | with_reducible apply chanError_steady
    | with_reducible apply requestNext_steady
    | with_reducible apply State.updChan_steady
    | fail_if_no_progress (with_reducible refine Steady.lit (s := _) rfl ?_)
    | split

theorem resume_steady (n : Nat) {r0 s : State} (h0 : Steady r0 s) : Steady r0 (resume n s) := by
  unfold resume
  repeat' first
    | (extract_lets +onlyGivenNames x; refine Steady.cut (r := r0) x ?_ (fun hx => ?_); unfold x; clear x; rotate_left; clear_value x)
    | (extract_lets +onlyGivenNames x; unfold x; clear x)
    | with_reducible assumption
    | with_reducible apply fetchDue_steady
    | with_reducible apply requestNext_steady
    | with_reducible apply State.updChan_steady
    | with_reducible apply loadDesc_steady
    | fail_if_no_progress (with_reducible refine Steady.lit (s := _) rfl ?_)
    | split

theorem chanWait_steady (n : Nat) (st : ChState) {r0 s : State} (h0 : Steady r0 s) : Steady r0 (chanWait n st s) := by
  unfold chanWait
  repeat' first
    | (extract_lets +onlyGivenNames x; refine Steady.cut (r := r0) x ?_ (fun hx => ?_); unfold x; clear x; rotate_left; clear_value x)
    | (extract_lets +onlyGivenNames x; unfold x; clear x)
    | with_reducible assumption
    | with_reducible apply Steady.ite
    | with_reducible apply State.updChan_steady
    | with_reducible apply resume_steady
    | fail_if_no_progress (with_reducible refine Steady.lit (s := _) rfl ?_)
    | split

theorem startEvent_steady (n : Nat) {r0 s : State} (h0 : Steady r0 s) : Steady r0 (startEvent n s) := by
  unfold startEvent
  repeat' first
    | with_reducible assumption
    | with_reducible apply resume_steady
    | with_reducible apply State.updChan_steady
    | fail_if_no_progress (with_reducible refine Steady.lit (s := _) rfl ?_)
    | split

theorem nextDesc_steady (n : Nat) {r0 s : State} (h0 : Steady r0 s) : Steady r0 (nextDesc n s) := by
  unfold nextDesc
  repeat' first
    | (extract_lets +onlyGivenNames x; refine Steady.cut (r := r0) x ?_ (fun hx => ?_); unfold x; clear x; rotate_left; clear_value x)
    | (extract_lets +onlyGivenNames x; unfold x; clear x)
    | with_reducible assumption
    | with_reducible apply Steady.ite
    | with_reducible apply State.updChan_steady
    | with_reducible apply chanWait_steady
    | with_reducible apply loadDesc_steady
    | with_reducible apply requestNext_steady
    | fail_if_no_progress (with_reducible refine Steady.lit (s := _) rfl ?_)
    | split

theorem execDescriptorFetch_steady (n : Fin 256) (reply : ReadReply) {r0 s : State} (h0 : Steady r0 s) : Ends r0 (execDescriptorFetch n reply s) := by
  unfold execDescriptorFetch
  repeat' first
    | (extract_lets +onlyGivenNames x; refine Steady.cut (r := r0) x ?_ (fun hx => ?_); unfold x; clear x; rotate_left; clear_value x)
    | (extract_lets +onlyGivenNames x; unfold x; clear x)
    | with_reducible assumption
    | with_reducible apply Ends.next
    | with_reducible apply Ends.ite
    | with_reducible apply Steady.ite
    | with_reducible apply chanError_steady
    | with_reducible apply chanWait_steady
    | with_reducible apply State.updChan_steady
    | with_reducible apply fetchDue_steady
    | with_reducible apply loadDesc_steady
    | fail_if_no_progress (with_reducible refine Steady.lit (s := _) rfl ?_)
    | split

theorem finishData_steady (n count : Nat) {r0 s : State} (h0 : Steady r0 s) : Steady r0 (finishData n count s) := by
  unfold finishData
  repeat' first
    | (extract_lets +onlyGivenNames x; refine Steady.cut (r := r0) x ?_ (fun hx => ?_); unfold x; clear x; rotate_left; clear_value x)
    | (extract_lets +onlyGivenNames x; unfold x; clear x)
    | with_reducible assumption
    | with_reducible apply Steady.ite
    | with_reducible apply flushRun_steady
    | with_reducible apply enq_steady
    | with_reducible apply State.updChan_steady
    | fail_if_no_progress (with_reducible refine Steady.lit (s := _) rfl ?_)
    | split

theorem dataError_steady (n code left : Nat) {r0 s : State} (h0 : Steady r0 s) : Steady r0 (dataError n code left s) := by
  unfold dataError
  repeat' first
    | (extract_lets +onlyGivenNames x; refine Steady.cut (r := r0) x ?_ (fun hx => ?_); unfold x; clear x; rotate_left; clear_value x)
    | (extract_lets +onlyGivenNames x; refine Steady.cut2 (r := r0) x ?_ (fun hx => ?_); unfold x; clear x; rotate_left; clear_value x)
    | (extract_lets +onlyGivenNames x; refine Steady.cut1 (r := r0) x ?_ (fun hx => ?_); unfold x; clear x; rotate_left; clear_value x)
    | (extract_lets +onlyGivenNames x; unfold x; clear x)
    | with_reducible assumption
    | with_reducible apply flushRun_steady
    | with_reducible apply State.free_steady
    | with_reducible apply State.updChan_steady
    | fail_if_no_progress (with_reducible refine Steady.lit (s := _) rfl ?_)

theorem takePiece_steady (n d : Nat) (b : Bytes) {r0 s : State} (h0 : Steady r0 s) : Steady r0 (takePiece n d b s) := by
  unfold takePiece
  repeat' first
    | (extract_lets +onlyGivenNames x; refine Steady.cut (r := r0) x ?_ (fun hx => ?_); unfold x; clear x; rotate_left; clear_value x)
    | (extract_lets +onlyGivenNames x; unfold x; clear x)
    | with_reducible assumption
    | with_reducible apply Steady.ite
    | with_reducible apply State.updChan_steady
    | with_reducible apply addLine_steady
    | with_reducible apply finishData_steady
    | with_reducible apply requestNext_steady
    | fail_if_no_progress (with_reducible refine Steady.lit (s := _) rfl ?_)
    | split

theorem fetchStep_steady (n d : Nat) (j : FetchJob) {r0 s : State} (h0 : Steady r0 s) : Steady r0 (fetchStep n d j s) := by
  unfold fetchStep
  repeat' first
    | (extract_lets +onlyGivenNames x; refine Steady.cut (r := r0) x ?_ (fun hx => ?_); unfold x; clear x; rotate_left; clear_value x)
    | (extract_lets +onlyGivenNames x; unfold x; clear x)
    | with_reducible assumption
    | with_reducible apply Steady.ite
    | with_reducible apply State.count_steady
    | with_reducible apply finishData_steady
    | with_reducible apply State.updChan_steady
    | with_reducible apply addLine_steady
    | with_reducible apply moveMark_steady
    | exact fetchLine_steady _ _ _ h0 _ _ _ ‹fetchLine _ _ _ _ = _›
    | fail_if_no_progress (with_reducible refine Steady.lit (s := _) rfl ?_)
    | split

theorem execSourceReadCompletion_steady (n : Fin 256) (reply : ReadReply) {r0 s : State} (h0 : Steady r0 s) : Ends r0 (execSourceReadCompletion n reply s) := by
  unfold execSourceReadCompletion
  repeat' first
    | (extract_lets +onlyGivenNames x; refine Steady.cut (r := r0) x ?_ (fun hx => ?_); unfold x; clear x; rotate_left; clear_value x)
    | (extract_lets +onlyGivenNames x; refine Steady.cut2 (r := r0) x ?_ (fun hx => ?_); unfold x; clear x; rotate_left; clear_value x)
    | (extract_lets +onlyGivenNames x; refine Steady.cut1 (r := r0) x ?_ (fun hx => ?_); unfold x; clear x; rotate_left; clear_value x)
    | (extract_lets +onlyGivenNames x; unfold x; clear x)
    | with_reducible assumption
    | with_reducible apply Ends.next
    | with_reducible apply Ends.ite
    | with_reducible apply Steady.ite
    | with_reducible apply fetchStep_steady
    | with_reducible apply dataError_steady
    | with_reducible apply takePiece_steady
    | with_reducible apply readReservoir_steady
    | fail_if_no_progress (with_reducible refine Steady.lit (s := _) rfl ?_)
    | split

theorem execFetchWaitExpire_steady (n : Fin 256) {r0 s : State} (h0 : Steady r0 s) : Ends r0 (execFetchWaitExpire n s) := by
  unfold execFetchWaitExpire
  repeat' first
    | (extract_lets +onlyGivenNames x; refine Steady.cut (r := r0) x ?_ (fun hx => ?_); unfold x; clear x; rotate_left; clear_value x)
    | (extract_lets +onlyGivenNames x; unfold x; clear x)
    | with_reducible assumption
    | with_reducible apply Ends.next
    | with_reducible apply Ends.ite
    | with_reducible apply Steady.ite
    | with_reducible apply fetchStep_steady
    | fail_if_no_progress (with_reducible refine Steady.lit (s := _) rfl ?_)
    | split

theorem execFlushReadCompletion_steady (n : Fin 256) (ok : Bool) {r0 s : State} (h0 : Steady r0 s) : Ends r0 (execFlushReadCompletion n ok s) := by
  unfold execFlushReadCompletion
  repeat' first
    | with_reducible assumption
    | with_reducible apply Ends.next
    | with_reducible apply Ends.ite
    | with_reducible apply Steady.ite
    | with_reducible apply State.updChan_steady
    | with_reducible apply State.count_steady
    | fail_if_no_progress (with_reducible refine Steady.lit (s := _) rfl ?_)
    | split

theorem endFetch_steady (n code : Nat) (j : FetchJob) {r0 s : State} (h0 : Steady r0 s) : Steady r0 (endFetch n code j s) := by
  unfold endFetch
  repeat' first
    | (extract_lets +onlyGivenNames x; refine Steady.cut (r := r0) x ?_ (fun hx => ?_); unfold x; clear x; rotate_left; clear_value x)
    | (extract_lets +onlyGivenNames x; unfold x; clear x)
    | with_reducible assumption
    | with_reducible apply Steady.ite
    | with_reducible apply moveMark_steady
    | with_reducible apply State.raise_steady
    | with_reducible apply releasePage_steady
    | with_reducible apply State.setReg_steady
    | split

theorem writeBack_steady (n raw off : Nat) (b : Bytes) {r0 s : State} (h0 : Steady r0 s) : Steady r0 (writeBack n raw off b s) := by
  unfold writeBack
  repeat' first
    | with_reducible assumption
    | with_reducible apply putRun_steady

theorem execDescriptorComplete_steady (n : Fin 256) {r0 s : State} (h0 : Steady r0 s) : Ends r0 (execDescriptorComplete n s) := by
  unfold execDescriptorComplete
  repeat' first
    | (extract_lets +onlyGivenNames x; refine Steady.cut (r := r0) x ?_ (fun hx => ?_); unfold x; clear x; rotate_left; clear_value x)
    | (extract_lets +onlyGivenNames x; refine Steady.cut2 (r := r0) x ?_ (fun hx => ?_); unfold x; clear x; rotate_left; clear_value x)
    | (extract_lets +onlyGivenNames x; refine Steady.cut1 (r := r0) x ?_ (fun hx => ?_); unfold x; clear x; rotate_left; clear_value x)
    | (extract_lets +onlyGivenNames x; unfold x; clear x)
    | with_reducible assumption
    | with_reducible apply Ends.next
    | with_reducible apply Ends.ite
    | with_reducible apply Steady.ite
    | with_reducible refine Steady.foldl1 _ _ ?_ (fun _ _ _ => ?_)
    | with_reducible refine Steady.foldl2 _ _ ?_ (fun _ _ _ => ?_)
    | with_reducible refine Steady.foldl _ _ ?_ (fun _ _ _ => ?_)
    | with_reducible apply endFetch_steady
    | with_reducible apply writeBack_steady
    | with_reducible apply State.count_steady
    | with_reducible apply State.updChan_steady
    | with_reducible apply sendVector_steady
    | with_reducible apply signalRecord_steady
    | with_reducible apply nextDesc_steady
    | with_reducible apply startEvent_steady
    | fail_if_no_progress (with_reducible refine Steady.lit (s := _) rfl ?_)
    | split

theorem creditStall_steady  {r0 s : State} (h0 : Steady r0 s) : Steady r0 (creditStall s) := by
  unfold creditStall
  repeat' first
    | (extract_lets +onlyGivenNames x; refine Steady.cut (r := r0) x ?_ (fun hx => ?_); unfold x; clear x; rotate_left; clear_value x)
    | (extract_lets +onlyGivenNames x; refine Steady.cut2 (r := r0) x ?_ (fun hx => ?_); unfold x; clear x; rotate_left; clear_value x)
    | (extract_lets +onlyGivenNames x; refine Steady.cut1 (r := r0) x ?_ (fun hx => ?_); unfold x; clear x; rotate_left; clear_value x)
    | (extract_lets +onlyGivenNames x; unfold x; clear x)
    | with_reducible assumption
    | with_reducible apply State.free_steady
    | with_reducible apply State.setReg_steady

theorem class0Done_steady (st line : Nat) (x : RingSlot) {r0 s : State} (h0 : Steady r0 s) : Steady r0 (class0Done st line x s) := by
  unfold class0Done
  repeat' first
    | with_reducible assumption
    | with_reducible apply Steady.ite
    | with_reducible apply State.count_steady
    | with_reducible apply State.raise_steady
    | split

theorem lineDone_steady (st line : Nat) {r0 s : State} (h0 : Steady r0 s) : Steady r0 (lineDone st line s) := by
  unfold lineDone
  repeat' first
    | (extract_lets +onlyGivenNames x; refine Steady.cut (r := r0) x ?_ (fun hx => ?_); unfold x; clear x; rotate_left; clear_value x)
    | (extract_lets +onlyGivenNames x; unfold x; clear x)
    | with_reducible assumption
    | with_reducible apply Steady.ite
    | with_reducible apply moveMark_steady
    | with_reducible apply class0Done_steady
    | with_reducible apply creditStall_steady
    | fail_if_no_progress (with_reducible refine Steady.lit (s := _) rfl ?_)
    | split

theorem deliverLine_steady (n d st line : Nat) (x : RingSlot) {r0 s : State} (h0 : Steady r0 s) : Steady r0 (deliverLine n d st line x s) := by
  unfold deliverLine
  repeat' first
    | (extract_lets +onlyGivenNames x; refine Steady.cut (r := r0) x ?_ (fun hx => ?_); unfold x; clear x; rotate_left; clear_value x)
    | (extract_lets +onlyGivenNames x; refine Steady.cut2 (r := r0) x ?_ (fun hx => ?_); unfold x; clear x; rotate_left; clear_value x)
    | (extract_lets +onlyGivenNames x; refine Steady.cut1 (r := r0) x ?_ (fun hx => ?_); unfold x; clear x; rotate_left; clear_value x)
    | (extract_lets +onlyGivenNames x; unfold x; clear x)
    | with_reducible assumption
    | with_reducible apply Steady.ite
    | with_reducible apply readSlot_steady
    | with_reducible apply putRun_steady
    | with_reducible apply State.updChan_steady
    | fail_if_no_progress (with_reducible refine Steady.lit (s := _) rfl ?_)
    | split

theorem execStreamLineDeliver_steady (st : Fin 64) {r0 s : State} (h0 : Steady r0 s) : Ends r0 (execStreamLineDeliver st s) := by
  unfold execStreamLineDeliver
  repeat' first
    | (extract_lets +onlyGivenNames x; refine Steady.cut (r := r0) x ?_ (fun hx => ?_); unfold x; clear x; rotate_left; clear_value x)
    | (extract_lets +onlyGivenNames x; refine Steady.cut2 (r := r0) x ?_ (fun hx => ?_); unfold x; clear x; rotate_left; clear_value x)
    | (extract_lets +onlyGivenNames x; refine Steady.cut1 (r := r0) x ?_ (fun hx => ?_); unfold x; clear x; rotate_left; clear_value x)
    | (extract_lets +onlyGivenNames x; unfold x; clear x)
    | with_reducible assumption
    | with_reducible apply Ends.next
    | with_reducible apply Ends.ite
    | with_reducible apply Steady.ite
    | with_reducible apply moveMark_steady
    | with_reducible apply finishData_steady
    | with_reducible apply deliverLine_steady
    | with_reducible apply State.updChan_steady
    | with_reducible apply State.raise_steady
    | fail_if_no_progress (with_reducible refine Steady.lit (s := _) rfl ?_)
    | split

theorem disableChan_steady (n : Nat) {r0 s : State} (h0 : Steady r0 s) : Steady r0 (disableChan n s) := by
  unfold disableChan
  repeat' first
    | (extract_lets +onlyGivenNames x; refine Steady.cut (r := r0) x ?_ (fun hx => ?_); unfold x; clear x; rotate_left; clear_value x)
    | (extract_lets +onlyGivenNames x; refine Steady.cut2 (r := r0) x ?_ (fun hx => ?_); unfold x; clear x; rotate_left; clear_value x)
    | (extract_lets +onlyGivenNames x; refine Steady.cut1 (r := r0) x ?_ (fun hx => ?_); unfold x; clear x; rotate_left; clear_value x)
    | (extract_lets +onlyGivenNames x; unfold x; clear x)
    | with_reducible assumption
    | with_reducible apply Steady.ite
    | with_reducible apply moveMark_steady
    | with_reducible apply State.updCq_steady
    | with_reducible apply State.updChan_steady
    | fail_if_no_progress (with_reducible refine Steady.lit (s := _) rfl ?_)
    | split

theorem enableChan_steady (n : Nat) {r0 s : State} (h0 : Steady r0 s) : Steady r0 (enableChan n s) := by
  unfold enableChan
  repeat' first
    | with_reducible assumption
    | with_reducible apply Steady.ite
    | with_reducible apply State.updChan_steady
    | fail_if_no_progress (with_reducible refine Steady.lit (s := _) rfl ?_)
    | split

theorem execDltChEnSet_steady (n : Fin 256) {r0 s : State} (h0 : Steady r0 s) : Ends r0 (execDltChEnSet n s) := by
  unfold execDltChEnSet
  repeat' first
    | with_reducible assumption
    | with_reducible apply Ends.next
    | with_reducible apply enableChan_steady

theorem execDltChEnClear_steady (n : Fin 256) {r0 s : State} (h0 : Steady r0 s) : Ends r0 (execDltChEnClear n s) := by
  unfold execDltChEnClear
  repeat' first
    | with_reducible assumption
    | with_reducible apply Ends.next
    | with_reducible apply disableChan_steady

theorem execChannelDisable_steady (n : Fin 256) {r0 s : State} (h0 : Steady r0 s) : Ends r0 (execChannelDisable n s) := by
  unfold execChannelDisable
  repeat' first
    | with_reducible assumption
    | with_reducible apply Ends.next
    | with_reducible apply disableChan_steady

theorem execChannelOff_steady (n : Fin 256) {r0 s : State} (h0 : Steady r0 s) : Ends r0 (execChannelOff n s) := by
  unfold execChannelOff
  repeat' first
    | (extract_lets +onlyGivenNames x; refine Steady.cut (r := r0) x ?_ (fun hx => ?_); unfold x; clear x; rotate_left; clear_value x)
    | (extract_lets +onlyGivenNames x; unfold x; clear x)
    | with_reducible assumption
    | with_reducible apply Ends.next
    | with_reducible apply Ends.ite
    | with_reducible apply Steady.ite
    | with_reducible apply State.updChan_steady
    | with_reducible apply enableChan_steady
    | fail_if_no_progress (with_reducible refine Steady.lit (s := _) rfl ?_)
    | split

theorem execDltChDoorbell_steady (n : Fin 256) {r0 s : State} (h0 : Steady r0 s) : Ends r0 (execDltChDoorbell n s) := by
  unfold execDltChDoorbell
  repeat' first
    | with_reducible assumption
    | with_reducible apply Ends.next
    | with_reducible apply Ends.ite
    | with_reducible apply Steady.ite
    | with_reducible apply startEvent_steady
    | split

theorem execChannelTimerStart_steady (n : Fin 256) {r0 s : State} (h0 : Steady r0 s) : Ends r0 (execChannelTimerStart n s) := by
  unfold execChannelTimerStart
  repeat' first
    | (extract_lets +onlyGivenNames x; refine Steady.cut (r := r0) x ?_ (fun hx => ?_); unfold x; clear x; rotate_left; clear_value x)
    | (extract_lets +onlyGivenNames x; unfold x; clear x)
    | with_reducible assumption
    | with_reducible apply Ends.next
    | with_reducible apply Ends.ite
    | with_reducible apply Steady.ite
    | with_reducible apply startEvent_steady
    | with_reducible apply State.updChan_steady
    | fail_if_no_progress (with_reducible refine Steady.lit (s := _) rfl ?_)
    | split

theorem writeNext_steady (n v : Nat) {r0 s : State} (h0 : Steady r0 s) : Steady r0 (writeNext n v s) := by
  unfold writeNext
  repeat' first
    | with_reducible assumption
    | with_reducible apply State.updChan_steady
    | fail_if_no_progress (with_reducible refine Steady.lit (s := _) rfl ?_)

theorem execChannelNextWrite_steady (n : Fin 256) (v : BitVec 64) {r0 s : State} (h0 : Steady r0 s) : Ends r0 (execChannelNextWrite n v s) := by
  unfold execChannelNextWrite
  repeat' first
    | with_reducible assumption
    | with_reducible apply Ends.next
    | with_reducible apply writeNext_steady

theorem releaseHeld_steady  (n : Nat) {r0 s : State} (h0 : Steady r0 s) : Steady r0 (releaseHeld  n s) := by
  induction n generalizing s with
  | zero => exact h0
  | succ n ih =>
  unfold releaseHeld
  repeat' first
    | with_reducible apply ih
    | (extract_lets +onlyGivenNames x; refine Steady.cut (r := r0) x ?_ (fun hx => ?_); unfold x; clear x; rotate_left; clear_value x)
    | (extract_lets +onlyGivenNames x; refine Steady.cut2 (r := r0) x ?_ (fun hx => ?_); unfold x; clear x; rotate_left; clear_value x)
    | (extract_lets +onlyGivenNames x; refine Steady.cut1 (r := r0) x ?_ (fun hx => ?_); unfold x; clear x; rotate_left; clear_value x)
    | (extract_lets +onlyGivenNames x; unfold x; clear x)
    | with_reducible assumption
    | with_reducible apply Steady.ite
    | with_reducible apply pushRecord_steady
    | with_reducible apply State.updCq_steady
    | with_reducible apply nextDesc_steady
    | fail_if_no_progress (with_reducible refine Steady.lit (s := _) rfl ?_)
    | split

theorem writeCqHead_steady (v : Nat) {r0 s : State} (h0 : Steady r0 s) : Steady r0 (writeCqHead v s) := by
  unfold writeCqHead
  repeat' first
    | (extract_lets +onlyGivenNames x; refine Steady.cut (r := r0) x ?_ (fun hx => ?_); unfold x; clear x; rotate_left; clear_value x)
    | (extract_lets +onlyGivenNames x; unfold x; clear x)
    | with_reducible assumption
    | with_reducible apply Steady.ite
    | with_reducible apply State.updCq_steady
    | with_reducible apply releaseHeld_steady
    | fail_if_no_progress (with_reducible refine Steady.lit (s := _) rfl ?_)
    | split

theorem execDltCqHead_steady (v : BitVec 32) {r0 s : State} (h0 : Steady r0 s) : Ends r0 (execDltCqHead v s) := by
  unfold execDltCqHead
  repeat' first
    | with_reducible assumption
    | with_reducible apply Ends.next
    | with_reducible apply writeCqHead_steady

theorem writeCqCtl_steady (v : Nat) {r0 s : State} (h0 : Steady r0 s) : Steady r0 (writeCqCtl v s) := by
  unfold writeCqCtl
  repeat' first
    | (extract_lets +onlyGivenNames x; refine Steady.cut (r := r0) x ?_ (fun hx => ?_); unfold x; clear x; rotate_left; clear_value x)
    | (extract_lets +onlyGivenNames x; unfold x; clear x)
    | with_reducible assumption
    | with_reducible apply Steady.ite
    | with_reducible apply State.updCq_steady
    | fail_if_no_progress (with_reducible refine Steady.lit (s := _) rfl ?_)
    | split

theorem unmask_steady (v : Nat) {r0 s : State} (h0 : Steady r0 s) : Steady r0 (unmask v s) := by
  unfold unmask
  repeat' first
    | (extract_lets +onlyGivenNames x; refine Steady.cut (r := r0) x ?_ (fun hx => ?_); unfold x; clear x; rotate_left; clear_value x)
    | (extract_lets +onlyGivenNames x; unfold x; clear x)
    | with_reducible assumption
    | with_reducible apply Steady.ite
    | with_reducible apply enq_steady
    | fail_if_no_progress (with_reducible refine Steady.lit (s := _) rfl ?_)
    | split

theorem execMsixUnmask_steady (v : Fin 2048) {r0 s : State} (h0 : Steady r0 s) : Ends r0 (execMsixUnmask v s) := by
  unfold execMsixUnmask
  repeat' first
    | with_reducible assumption
    | with_reducible apply Ends.next
    | with_reducible apply unmask_steady

theorem noteSubscribers_steady  {r0 s : State} (h0 : Steady r0 s) : Steady r0 (noteSubscribers s) := by
  unfold noteSubscribers
  repeat' first
    | with_reducible assumption
    | with_reducible apply State.setReg_steady

theorem closeSession_steady (num : Nat) {r0 s : State} (h0 : Steady r0 s) : Steady r0 (closeSession num s) := by
  unfold closeSession
  repeat' first
    | (extract_lets +onlyGivenNames x; refine Steady.cut (r := r0) x ?_ (fun hx => ?_); unfold x; clear x; rotate_left; clear_value x)
    | (extract_lets +onlyGivenNames x; unfold x; clear x)
    | with_reducible assumption
    | with_reducible apply noteSubscribers_steady
    | with_reducible apply State.setReg_steady
    | fail_if_no_progress (with_reducible refine Steady.lit (s := _) rfl ?_)

theorem emptyMailbox_steady  {r0 s : State} (h0 : Steady r0 s) : Steady r0 (emptyMailbox s) := by
  unfold emptyMailbox
  repeat' first
    | (extract_lets +onlyGivenNames x; refine Steady.cut (r := r0) x ?_ (fun hx => ?_); unfold x; clear x; rotate_left; clear_value x)
    | (extract_lets +onlyGivenNames x; unfold x; clear x)
    | with_reducible assumption
    | with_reducible refine Steady.foldl _ _ ?_ (fun _ _ _ => ?_)
    | with_reducible apply closeSession_steady
    | with_reducible refine State.updMbx_steady _ ?_ (fun _ => rfl)
    | fail_if_no_progress (with_reducible refine Steady.lit (s := _) rfl ?_)

theorem execMbxDisable_steady  {r0 s : State} (h0 : Steady r0 s) : Ends r0 (execMbxDisable s) := by
  unfold execMbxDisable
  repeat' first
    | with_reducible assumption
    | with_reducible apply Ends.next
    | with_reducible apply emptyMailbox_steady
    | with_reducible refine State.updMbx_steady _ ?_ (fun _ => rfl)
    | fail_if_no_progress (with_reducible refine Steady.lit (s := _) rfl ?_)

theorem skipBadSlots_steady  (n : Nat) {r0 s : State} (h0 : Steady r0 s) : Steady r0 (skipBadSlots  n s) := by
  induction n generalizing s with
  | zero => exact h0
  | succ n ih =>
  unfold skipBadSlots
  repeat' first
    | with_reducible apply ih
    | (extract_lets +onlyGivenNames x; refine Steady.cut (r := r0) x ?_ (fun hx => ?_); unfold x; clear x; rotate_left; clear_value x)
    | (extract_lets +onlyGivenNames x; unfold x; clear x)
    | with_reducible assumption
    | with_reducible apply Steady.ite
    | with_reducible apply txVector_steady
    | with_reducible refine State.updMbx_steady _ ?_ (fun _ => rfl)
    | fail_if_no_progress (with_reducible refine Steady.lit (s := _) rfl ?_)
    | split

theorem writeTxTail_steady (v : Nat) {r0 s : State} (h0 : Steady r0 s) : Steady r0 (writeTxTail v s) := by
  unfold writeTxTail
  repeat' first
    | with_reducible assumption
    | with_reducible apply Steady.ite
    | with_reducible apply skipBadSlots_steady
    | with_reducible refine State.updMbx_steady _ ?_ (fun _ => rfl)
    | fail_if_no_progress (with_reducible refine Steady.lit (s := _) rfl ?_)
    | split

theorem execMbxTxTail_steady (v : BitVec 32) {r0 s : State} (h0 : Steady r0 s) : Ends r0 (execMbxTxTail v s) := by
  unfold execMbxTxTail
  repeat' first
    | with_reducible assumption
    | with_reducible apply Ends.next
    | with_reducible apply writeTxTail_steady

theorem fillRx_steady  (n : Nat) {r0 s : State} (h0 : Steady r0 s) : Steady r0 (fillRx  n s) := by
  induction n generalizing s with
  | zero => exact h0
  | succ n ih =>
  unfold fillRx
  repeat' first
    | with_reducible apply ih
    | with_reducible assumption
    | with_reducible apply Steady.ite
    | with_reducible apply mbxFill_steady
    | with_reducible refine State.updMbx_steady _ ?_ (fun _ => rfl)
    | fail_if_no_progress (with_reducible refine Steady.lit (s := _) rfl ?_)
    | split

theorem writeRxHead_steady (v : Nat) {r0 s : State} (h0 : Steady r0 s) : Steady r0 (writeRxHead v s) := by
  unfold writeRxHead
  repeat' first
    | with_reducible assumption
    | with_reducible apply Steady.ite
    | with_reducible apply fillRx_steady
    | with_reducible refine State.updMbx_steady _ ?_ (fun _ => rfl)
    | fail_if_no_progress (with_reducible refine Steady.lit (s := _) rfl ?_)
    | split

theorem execMbxRxHead_steady (v : BitVec 32) {r0 s : State} (h0 : Steady r0 s) : Ends r0 (execMbxRxHead v s) := by
  unfold execMbxRxHead
  repeat' first
    | with_reducible assumption
    | with_reducible apply Ends.next
    | with_reducible apply writeRxHead_steady

theorem owedVectors_steady  {r0 s : State} (h0 : Steady r0 s) : Steady r0 (owedVectors s) := by
  unfold owedVectors
  repeat' first
    | (extract_lets +onlyGivenNames x; refine Steady.cut (r := r0) x ?_ (fun hx => ?_); unfold x; clear x; rotate_left; clear_value x)
    | (extract_lets +onlyGivenNames x; unfold x; clear x)
    | with_reducible assumption
    | with_reducible apply Steady.ite
    | with_reducible apply sendVector_steady
    | with_reducible apply State.updCq_steady
    | with_reducible apply rxVector_steady
    | with_reducible apply txVector_steady
    | fail_if_no_progress (with_reducible refine Steady.lit (s := _) rfl ?_)
    | split

theorem writeChanCtl_steady (n v : Nat) {r0 s : State} (h0 : Steady r0 s) : Steady r0 (writeChanCtl n v s) := by
  unfold writeChanCtl
  repeat' first
    | (extract_lets +onlyGivenNames x; refine Steady.cut (r := r0) x ?_ (fun hx => ?_); unfold x; clear x; rotate_left; clear_value x)
    | (extract_lets +onlyGivenNames x; unfold x; clear x)
    | with_reducible assumption
    | with_reducible apply Steady.ite
    | with_reducible apply State.updChan_steady
    | with_reducible apply enableChan_steady
    | with_reducible apply disableChan_steady
    | fail_if_no_progress (with_reducible refine Steady.lit (s := _) rfl ?_)
    | split

theorem writeChanReg_steady (n r v : Nat) {r0 s : State} (h0 : Steady r0 s) : Steady r0 (writeChanReg n r v s) := by
  unfold writeChanReg
  repeat' first
    | with_reducible assumption
    | with_reducible apply Steady.ite
    | with_reducible apply writeChanCtl_steady
    | with_reducible apply writeNext_steady
    | with_reducible apply State.updChan_steady
    | fail_if_no_progress (with_reducible refine Steady.lit (s := _) rfl ?_)
    | split

theorem writeMsix_steady (v word x : Nat) {r0 s : State} (h0 : Steady r0 s) : Steady r0 (writeMsix v word x s) := by
  unfold writeMsix
  repeat' first
    | (extract_lets +onlyGivenNames x; refine Steady.cut (r := r0) x ?_ (fun hx => ?_); unfold x; clear x; rotate_left; clear_value x)
    | (extract_lets +onlyGivenNames x; unfold x; clear x)
    | with_reducible assumption
    | with_reducible apply Steady.ite
    | with_reducible apply unmask_steady
    | fail_if_no_progress (with_reducible refine Steady.lit (s := _) rfl ?_)
    | split

theorem execBar0RegisterWrite_steady (off : Nat) (v : BitVec 32) {r0 s : State} (h0 : Steady r0 s) : Ends r0 (execBar0RegisterWrite off v s) := by
  unfold execBar0RegisterWrite
  repeat' first
    | (extract_lets +onlyGivenNames x; refine Steady.cut (r := r0) x ?_ (fun hx => ?_); unfold x; clear x; rotate_left; clear_value x)
    | (extract_lets +onlyGivenNames x; unfold x; clear x)
    | with_reducible assumption
    | with_reducible apply Ends.next
    | with_reducible apply Ends.ite
    | with_reducible apply Steady.ite
    | with_reducible apply State.updCq_steady
    | with_reducible apply writeCqCtl_steady
    | with_reducible apply writeCqHead_steady
    | with_reducible apply writeChanReg_steady
    | with_reducible apply writeMsix_steady
    | with_reducible apply startEvent_steady
    | with_reducible refine State.updMbx_steady _ ?_ (fun _ => rfl)
    | with_reducible apply emptyMailbox_steady
    | with_reducible apply writeTxTail_steady
    | with_reducible apply writeRxHead_steady
    | (refine Steady.table (s := s) h0 rfl rfl rfl rfl fun c => { c with txRing := Memory.wf_writeN _ _ _ c.txRing })
    | fail_if_no_progress (with_reducible refine Steady.lit (s := _) rfl ?_)
    | split

theorem disableAll_steady  {r0 s : State} (h0 : Steady r0 s) : Steady r0 (disableAll s) := by
  unfold disableAll
  repeat' first
    | with_reducible assumption
    | with_reducible refine Steady.foldl _ _ ?_ (fun _ _ _ => ?_)
    | with_reducible apply disableChan_steady

theorem linkDown_steady  {r0 s : State} (h0 : Steady r0 s) : Steady r0 (linkDown s) := by
  unfold linkDown
  repeat' first
    | (extract_lets +onlyGivenNames x; refine Steady.cut (r := r0) x ?_ (fun hx => ?_); unfold x; clear x; rotate_left; clear_value x)
    | (extract_lets +onlyGivenNames x; unfold x; clear x)
    | with_reducible assumption
    | with_reducible apply Steady.ite
    | with_reducible refine Steady.foldl _ _ ?_ (fun _ _ _ => ?_)
    | with_reducible apply disableChan_steady
    | with_reducible apply State.updChan_steady
    | with_reducible apply State.setReg_steady
    | with_reducible apply State.raiseFault_steady
    | fail_if_no_progress (with_reducible refine Steady.lit (s := _) rfl ?_)
    | split

theorem execHostLinkDown_steady  {r0 s : State} (h0 : Steady r0 s) : Ends r0 (execHostLinkDown s) := by
  unfold execHostLinkDown
  repeat' first
    | with_reducible assumption
    | with_reducible apply Ends.next
    | with_reducible apply linkDown_steady

theorem execHostLinkDegraded_steady (gen width : Nat) {r0 s : State} (h0 : Steady r0 s) : Ends r0 (execHostLinkDegraded gen width s) := by
  unfold execHostLinkDegraded
  repeat' first
    | (extract_lets +onlyGivenNames x; refine Steady.cut (r := r0) x ?_ (fun hx => ?_); unfold x; clear x; rotate_left; clear_value x)
    | (extract_lets +onlyGivenNames x; unfold x; clear x)
    | with_reducible assumption
    | with_reducible apply Ends.next
    | with_reducible apply Ends.ite
    | with_reducible apply Steady.ite
    | with_reducible apply State.setReg_steady
    | with_reducible apply State.count_steady
    | with_reducible apply State.raiseFault_steady
    | split

theorem execHostLinkUp_steady (gen width : Nat) (sizes : LinkSizes) {r0 s : State} (h0 : Steady r0 s) : Ends r0 (execHostLinkUp gen width sizes s) := by
  unfold execHostLinkUp
  repeat' first
    | (extract_lets +onlyGivenNames x; refine Steady.cut (r := r0) x ?_ (fun hx => ?_); unfold x; clear x; rotate_left; clear_value x)
    | (extract_lets +onlyGivenNames x; unfold x; clear x)
    | with_reducible assumption
    | with_reducible apply Ends.next
    | with_reducible apply Ends.ite
    | with_reducible apply Steady.ite
    | with_reducible apply State.raiseFault_steady
    | with_reducible apply State.setReg_steady
    | fail_if_no_progress (with_reducible refine Steady.lit (s := _) rfl ?_)
    | split

theorem preempt_steady  {r0 s : State} (h0 : Steady r0 s) : Steady r0 (preempt s) := by
  unfold preempt
  repeat' first
    | (extract_lets +onlyGivenNames x; refine Steady.cut (r := r0) x ?_ (fun hx => ?_); unfold x; clear x; rotate_left; clear_value x)
    | (extract_lets +onlyGivenNames x; unfold x; clear x)
    | with_reducible assumption
    | with_reducible apply Steady.ite
    | with_reducible apply State.updChan_steady
    | fail_if_no_progress (with_reducible refine Steady.lit (s := _) rfl ?_)
    | split

theorem issueTx_steady (t : Tx) {r0 s : State} (h0 : Steady r0 s) : Steady r0 (issueTx t s) := by
  unfold issueTx
  repeat' first
    | with_reducible assumption
    | with_reducible apply State.emit_steady
    | with_reducible apply lineDone_steady
    | fail_if_no_progress (with_reducible refine Steady.lit (s := _) rfl ?_)
    | split

theorem passEnds_steady (k n : Nat) {r0 s : State} (h0 : Steady r0 s) : Steady r0 (passEnds k n s) := by
  induction n generalizing s with
  | zero => exact h0
  | succ n ih =>
    unfold passEnds
    split
    · exact ih (lineDone_steady _ _ (State.setTx_steady _ _ h0))
    · exact h0

theorem serveChan_steady (k n : Nat) (t : Tx) (rest : List Tx) {r0 s : State} (h0 : Steady r0 s) : Steady r0 (serveChan k n t rest s) := by
  unfold serveChan
  repeat' first
    | (extract_lets +onlyGivenNames x; refine Steady.cut (r := r0) x ?_ (fun hx => ?_); unfold x; clear x; rotate_left; clear_value x)
    | (extract_lets +onlyGivenNames x; unfold x; clear x)
    | with_reducible assumption
    | with_reducible apply Steady.ite
    | with_reducible apply preempt_steady
    | with_reducible apply State.setTx_steady
    | with_reducible apply passEnds_steady
    | with_reducible apply issueTx_steady
    | fail_if_no_progress (with_reducible refine Steady.lit (s := _) rfl ?_)
    | split

theorem deltaIssue_steady  {r0 s : State} (h0 : Steady r0 s) : Steady r0 (deltaIssue s) := by
  unfold deltaIssue
  repeat' first
    | with_reducible assumption
    | with_reducible apply Steady.ite
    | with_reducible apply serveChan_steady
    | fail_if_no_progress (with_reducible refine Steady.lit (s := _) rfl ?_)
    | split

theorem fetchesGone_steady  {r0 s : State} (h0 : Steady r0 s) : Steady r0 (fetchesGone s) := by
  unfold fetchesGone
  repeat' first
    | (extract_lets +onlyGivenNames x; refine Steady.cut (r := r0) x ?_ (fun hx => ?_); unfold x; clear x; rotate_left; clear_value x)
    | (extract_lets +onlyGivenNames x; refine Steady.cut2 (r := r0) x ?_ (fun hx => ?_); unfold x; clear x; rotate_left; clear_value x)
    | (extract_lets +onlyGivenNames x; refine Steady.cut1 (r := r0) x ?_ (fun hx => ?_); unfold x; clear x; rotate_left; clear_value x)
    | (extract_lets +onlyGivenNames x; unfold x; clear x)
    | with_reducible assumption
    | with_reducible apply dropLineEnds_steady
    | fail_if_no_progress (with_reducible refine Steady.lit (s := _) rfl ?_)

end Sys2Proof.Machine
end

