-- ==== Sys2Proof/Laws/SteadyFrontEnd.lean ====
section
/-! SUPPORT. What the operations of Machine/FrontEnd.lean keep. -/
namespace Sys2Proof.Machine

set_option linter.unusedTactic false
set_option linter.unreachableTactic false

theorem State.setConv_steady (j : Nat) (x : Converter) {r0 s : State} (h0 : Steady r0 s) : Steady r0 (State.setConv s j x) := by
  unfold State.setConv
  repeat' first
    | with_reducible assumption
    | fail_if_no_progress (with_reducible refine Steady.lit (s := _) rfl ?_)

theorem State.updConv_steady (j : Nat) (f : Converter → Converter) {r0 s : State} (h0 : Steady r0 s) : Steady r0 (State.updConv s j f) := by
  unfold State.updConv
  repeat' first
    | with_reducible assumption
    | with_reducible apply State.setConv_steady

theorem State.setFeChan_steady (k : Nat) (x : FeChan) {r0 s : State} (h0 : Steady r0 s) : Steady r0 (State.setFeChan s k x) := by
  unfold State.setFeChan
  repeat' first
    | with_reducible assumption
    | fail_if_no_progress (with_reducible refine Steady.lit (s := _) rfl ?_)

theorem State.updFeChan_steady (k : Nat) (f : FeChan → FeChan) {r0 s : State} (h0 : Steady r0 s) : Steady r0 (State.updFeChan s k f) := by
  unfold State.updFeChan
  repeat' first
    | with_reducible assumption
    | with_reducible apply State.setFeChan_steady

theorem State.updFeIsland_steady (i : Nat) (f : FeIsland → FeIsland) {r0 s : State} (h0 : Steady r0 s) : Steady r0 (State.updFeIsland s i f) := by
  unfold State.updFeIsland
  repeat' first
    | with_reducible assumption
    | fail_if_no_progress (with_reducible refine Steady.lit (s := _) rfl ?_)

theorem feItem_steady (i : Nat) (item : List Nat) {r0 s : State} (h0 : Steady r0 s) : Steady r0 (feItem i item s) := by
  unfold feItem
  repeat' first
    | (extract_lets +onlyGivenNames x; refine Steady.cut (r := r0) x ?_ (fun hx => ?_); unfold x; clear x; rotate_left; clear_value x)
    | (extract_lets +onlyGivenNames x; unfold x; clear x)
    | with_reducible assumption
    | with_reducible apply Steady.ite
    | with_reducible apply State.updFeIsland_steady
    | with_reducible apply State.count_steady
    | with_reducible apply State.raise_steady
    | fail_if_no_progress (with_reducible refine Steady.lit (s := _) rfl ?_)
    | split

theorem State.writeMem_steady (a : Nat) (b : Bytes) {r0 s : State} (h0 : Steady r0 s) : Steady r0 (State.writeMem s a b) := by
  unfold State.writeMem
  repeat' first
    | with_reducible assumption
    | (refine Steady.table (s := s) h0 rfl rfl rfl rfl fun c => { c with mem := Memory.wf_writeN _ _ _ c.mem })
    | fail_if_no_progress (with_reducible refine Steady.lit (s := _) rfl ?_)

theorem execFeItemWrite_steady (i : Fin 2) {r0 s : State} (h0 : Steady r0 s) : Ends r0 (execFeItemWrite i s) := by
  unfold execFeItemWrite
  repeat' first
    | (extract_lets +onlyGivenNames x; refine Steady.cut (r := r0) x ?_ (fun hx => ?_); unfold x; clear x; rotate_left; clear_value x)
    | (extract_lets +onlyGivenNames x; refine Steady.cut2 (r := r0) x ?_ (fun hx => ?_); unfold x; clear x; rotate_left; clear_value x)
    | (extract_lets +onlyGivenNames x; refine Steady.cut1 (r := r0) x ?_ (fun hx => ?_); unfold x; clear x; rotate_left; clear_value x)
    | (extract_lets +onlyGivenNames x; unfold x; clear x)
    | with_reducible assumption
    | with_reducible apply Ends.next
    | with_reducible apply Ends.ite
    | with_reducible apply Steady.ite
    | with_reducible refine Steady.foldl1 _ _ ?_ (fun _ _ _ => ?_)
    | with_reducible refine Steady.foldl2 _ _ ?_ (fun _ _ _ => ?_)
    | with_reducible refine Steady.foldl _ _ ?_ (fun _ _ _ => ?_)
    | with_reducible apply State.writeMem_steady
    | with_reducible apply State.updFeIsland_steady
    | fail_if_no_progress (with_reducible refine Steady.lit (s := _) rfl ?_)
    | split

theorem execFeQueueFlush_steady (i : Fin 2) {r0 s : State} (h0 : Steady r0 s) : Ends r0 (execFeQueueFlush i s) := by
  unfold execFeQueueFlush
  repeat' first
    | (extract_lets +onlyGivenNames x; refine Steady.cut (r := r0) x ?_ (fun hx => ?_); unfold x; clear x; rotate_left; clear_value x)
    | (extract_lets +onlyGivenNames x; unfold x; clear x)
    | with_reducible assumption
    | with_reducible apply Ends.next
    | with_reducible apply Ends.ite
    | with_reducible apply Steady.ite
    | with_reducible apply State.updFeIsland_steady
    | with_reducible apply State.writeMem_steady
    | fail_if_no_progress (with_reducible refine Steady.lit (s := _) rfl ?_)
    | split

theorem switchRange_steady (k g : Nat) (up : Bool) {r0 s : State} (h0 : Steady r0 s) : Steady r0 (switchRange k g up s) := by
  unfold switchRange
  repeat' first
    | with_reducible assumption
    | with_reducible apply State.updFeChan_steady
    | fail_if_no_progress (with_reducible refine Steady.lit (s := _) rfl ?_)

theorem holdRange_steady (k dir : Nat) {r0 s : State} (h0 : Steady r0 s) : Steady r0 (holdRange k dir s) := by
  unfold holdRange
  repeat' first
    | with_reducible assumption
    | with_reducible apply Steady.ite
    | with_reducible apply State.updFeChan_steady
    | with_reducible apply State.raise_steady
    | fail_if_no_progress (with_reducible refine Steady.lit (s := _) rfl ?_)
    | split

theorem feCode_steady (k : Nat) (code : Int) (t : Int × Bool × State) {r0 : State} (h0 : Steady r0 t.2.2) :
    Steady r0 (feCode k code t).2.2 := by
  have h1 := h0
  unfold feCode
  repeat' first
    | (extract_lets +onlyGivenNames x; refine Steady.cut (r := r0) x ?_ (fun hx => ?_); unfold x; clear x; rotate_left; clear_value x)
    | (extract_lets +onlyGivenNames x; refine Steady.cut2 (r := r0) x ?_ (fun hx => ?_); unfold x; clear x; rotate_left; clear_value x)
    | (extract_lets +onlyGivenNames x; refine Steady.cut1 (r := r0) x ?_ (fun hx => ?_); unfold x; clear x; rotate_left; clear_value x)
    | (extract_lets +onlyGivenNames x; unfold x; clear x)
    | with_reducible assumption
    | with_reducible apply Steady.ite
    | with_reducible apply Steady.ite2
    | with_reducible apply Steady.ite3
    | with_reducible apply State.updFeChan_steady
    | with_reducible apply switchRange_steady
    | with_reducible apply holdRange_steady
    | fail_if_no_progress (with_reducible refine Steady.lit (s := _) rfl ?_)
    | split

theorem foldl_feCode_steady (k : Nat) (codes : List Int) (t : Int × Bool × State) {r0 : State} (h0 : Steady r0 t.2.2) :
    Steady r0 (codes.foldl (fun t c => feCode k c t) t).2.2 := by
  induction codes generalizing t with
  | nil => exact h0
  | cons c l ih => exact ih _ (feCode_steady k c t h0)

theorem fit32_steady (v : Int) {r0 s : State} (h0 : Steady r0 s) : Steady r0 (fit32 v s).2 := by
  unfold fit32
  repeat' first
    | (extract_lets +onlyGivenNames x; refine Steady.cut (r := r0) x ?_ (fun hx => ?_); unfold x; clear x; rotate_left; clear_value x)
    | (extract_lets +onlyGivenNames x; refine Steady.cut2 (r := r0) x ?_ (fun hx => ?_); unfold x; clear x; rotate_left; clear_value x)
    | (extract_lets +onlyGivenNames x; refine Steady.cut1 (r := r0) x ?_ (fun hx => ?_); unfold x; clear x; rotate_left; clear_value x)
    | (extract_lets +onlyGivenNames x; unfold x; clear x)
    | with_reducible assumption
    | with_reducible apply Steady.ite
    | with_reducible apply Steady.ite2
    | with_reducible apply State.free_steady
    | split

theorem threshold_steady (o : FeOut) (e : Nat) (vals : List (Nat × Int)) {r0 s : State} (h0 : Steady r0 s) : Steady r0 (threshold o e vals s) := by
  unfold threshold
  repeat' first
    | (extract_lets +onlyGivenNames x; refine Steady.cut (r := r0) x ?_ (fun hx => ?_); unfold x; clear x; rotate_left; clear_value x)
    | (extract_lets +onlyGivenNames x; refine Steady.cut2 (r := r0) x ?_ (fun hx => ?_); unfold x; clear x; rotate_left; clear_value x)
    | (extract_lets +onlyGivenNames x; refine Steady.cut1 (r := r0) x ?_ (fun hx => ?_); unfold x; clear x; rotate_left; clear_value x)
    | (extract_lets +onlyGivenNames x; unfold x; clear x)
    | with_reducible assumption
    | with_reducible apply Steady.ite
    | with_reducible apply State.updFeChan_steady
    | with_reducible apply feItem_steady
    | with_reducible apply State.count_steady
    | with_reducible apply State.raise_steady
    | fail_if_no_progress (with_reducible refine Steady.lit (s := _) rfl ?_)
    | split

theorem feOutput_steady (k : Nat) (o : FeOut) (y i qd : Int) {r0 s : State} (h0 : Steady r0 s) : Steady r0 (feOutput k o y i qd s) := by
  unfold feOutput
  apply Steady.ite
  · exact threshold_steady _ _ _ (threshold_steady _ _ _ (warmSample_steady _ _ (State.setReg_steady _ _ (feItem_steady _ _
      (fit32_steady _ h0)))))
  · exact threshold_steady _ _ _ (threshold_steady _ _ _ (warmSample_steady _ _ (State.setReg_steady _ _ (State.setReg_steady _ _
      (feItem_steady _ _ (fit32_steady _ h0))))))

theorem feSample_steady (k : Nat) (a : Int) (q : Nat) (clip late : Bool) {r0 s : State} (h0 : Steady r0 s) : Steady r0 (feSample k a q clip late s) := by
  unfold feSample
  repeat' first
    | (extract_lets +onlyGivenNames x; refine Steady.cut (r := r0) x ?_ (fun hx => ?_); unfold x; clear x; rotate_left; clear_value x)
    | (extract_lets +onlyGivenNames x; refine Steady.cut2 (r := r0) x ?_ (fun hx => ?_); unfold x; clear x; rotate_left; clear_value x)
    | (extract_lets +onlyGivenNames x; refine Steady.cut1 (r := r0) x ?_ (fun hx => ?_); unfold x; clear x; rotate_left; clear_value x)
    | (extract_lets +onlyGivenNames x; unfold x; clear x)
    | with_reducible assumption
    | with_reducible apply Steady.ite
    | with_reducible apply State.setFeChan_steady
    | with_reducible apply State.count_steady
    | with_reducible apply feOutput_steady
    | fail_if_no_progress (with_reducible refine Steady.lit (s := _) rfl ?_)
    | split

theorem feChannelRun_steady (k : Nat) (codes : List Int) (q : Nat) (late : Bool) {r0 s : State} (h0 : Steady r0 s) : Steady r0 (feChannelRun k codes q late s) := by
  unfold feChannelRun
  repeat' first
    | (extract_lets +onlyGivenNames x; refine Steady.cut (r := r0) x ?_ (fun hx => ?_); unfold x; clear x; rotate_left; clear_value x)
    | (extract_lets +onlyGivenNames x; refine Steady.cut2 (r := r0) x ?_ (fun hx => ?_); unfold x; clear x; rotate_left; clear_value x)
    | (extract_lets +onlyGivenNames x; refine Steady.cut1 (r := r0) x ?_ (fun hx => ?_); unfold x; clear x; rotate_left; clear_value x)
    | (extract_lets +onlyGivenNames x; unfold x; clear x)
    | with_reducible assumption
    | with_reducible apply Steady.ite
    | with_reducible refine Steady.foldl1 _ _ ?_ (fun _ _ _ => ?_)
    | with_reducible refine Steady.foldl2 _ _ ?_ (fun _ _ _ => ?_)
    | with_reducible refine Steady.foldl _ _ ?_ (fun _ _ _ => ?_)
    | with_reducible apply feCode_steady
    | with_reducible apply feSample_steady
    | exact foldl_feCode_steady _ _ _ (by with_reducible assumption)
    | split

theorem pauseRun_steady (j : Nat) (mark : Bool) {r0 s : State} (h0 : Steady r0 s) : Steady r0 (pauseRun j mark s) := by
  unfold pauseRun
  repeat' first
    | with_reducible assumption
    | with_reducible apply Steady.ite
    | with_reducible apply State.updConv_steady
    | fail_if_no_progress (with_reducible refine Steady.lit (s := _) rfl ?_)
    | split

theorem resumeRun_steady (j from_ : Nat) {r0 s : State} (h0 : Steady r0 s) : Steady r0 (resumeRun j from_ s) := by
  unfold resumeRun
  repeat' first
    | with_reducible assumption
    | with_reducible apply State.updConv_steady
    | fail_if_no_progress (with_reducible refine Steady.lit (s := _) rfl ?_)
    | split

theorem startRun_steady (j at_ : Nat) (late : Bool) {r0 s : State} (h0 : Steady r0 s) : Steady r0 (startRun j at_ late s) := by
  unfold startRun
  repeat' first
    | with_reducible assumption
    | with_reducible apply State.updConv_steady
    | fail_if_no_progress (with_reducible refine Steady.lit (s := _) rfl ?_)

theorem startInj_steady (j k from_ : Nat) (waited : Bool) {r0 s : State} (h0 : Steady r0 s) : Steady r0 (startInj j k from_ waited s) := by
  unfold startInj
  repeat' first
    | (extract_lets +onlyGivenNames x; refine Steady.cut (r := r0) x ?_ (fun hx => ?_); unfold x; clear x; rotate_left; clear_value x)
    | (extract_lets +onlyGivenNames x; unfold x; clear x)
    | with_reducible assumption
    | with_reducible apply Steady.ite
    | with_reducible apply pauseRun_steady
    | with_reducible apply State.updConv_steady
    | fail_if_no_progress (with_reducible refine Steady.lit (s := _) rfl ?_)
    | split

theorem startCal_steady (j : Nat) {r0 s : State} (h0 : Steady r0 s) : Steady r0 (startCal j s) := by
  unfold startCal
  repeat' first
    | with_reducible assumption
    | with_reducible apply pauseRun_steady
    | with_reducible apply State.updConv_steady
    | fail_if_no_progress (with_reducible refine Steady.lit (s := _) rfl ?_)

theorem convFree_steady (j from_ : Nat) {r0 s : State} (h0 : Steady r0 s) : Steady r0 (convFree j from_ s) := by
  unfold convFree
  repeat' first
    | (extract_lets +onlyGivenNames x; refine Steady.cut (r := r0) x ?_ (fun hx => ?_); unfold x; clear x; rotate_left; clear_value x)
    | (extract_lets +onlyGivenNames x; unfold x; clear x)
    | with_reducible assumption
    | with_reducible apply Steady.ite
    | with_reducible apply startInj_steady
    | with_reducible apply State.updConv_steady
    | with_reducible apply startCal_steady
    | with_reducible apply resumeRun_steady
    | with_reducible apply startRun_steady
    | fail_if_no_progress (with_reducible refine Steady.lit (s := _) rfl ?_)
    | split

theorem missedTrigger_steady (j : Nat) {r0 s : State} (h0 : Steady r0 s) : Steady r0 (missedTrigger j s) := by
  unfold missedTrigger
  repeat' first
    | (extract_lets +onlyGivenNames x; refine Steady.cut (r := r0) x ?_ (fun hx => ?_); unfold x; clear x; rotate_left; clear_value x)
    | (extract_lets +onlyGivenNames x; unfold x; clear x)
    | with_reducible assumption
    | with_reducible apply Steady.ite
    | with_reducible apply State.count_steady
    | with_reducible apply State.updConv_steady
    | with_reducible apply State.raise_steady
    | fail_if_no_progress (with_reducible refine Steady.lit (s := _) rfl ?_)
    | split

theorem feTrigger_steady (j at_ : Nat) (fixed : Bool) {r0 s : State} (h0 : Steady r0 s) : Steady r0 (feTrigger j at_ fixed s) := by
  unfold feTrigger
  repeat' first
    | (extract_lets +onlyGivenNames x; refine Steady.cut (r := r0) x ?_ (fun hx => ?_); unfold x; clear x; rotate_left; clear_value x)
    | (extract_lets +onlyGivenNames x; unfold x; clear x)
    | with_reducible assumption
    | with_reducible apply Steady.ite
    | with_reducible apply startRun_steady
    | with_reducible apply missedTrigger_steady
    | with_reducible apply State.updConv_steady
    | fail_if_no_progress (with_reducible refine Steady.lit (s := _) rfl ?_)
    | split

theorem writeThreshold_steady (k e v : Nat) {r0 s : State} (h0 : Steady r0 s) : Steady r0 (writeThreshold k e v s) := by
  unfold writeThreshold
  repeat' first
    | (extract_lets +onlyGivenNames x; refine Steady.cut (r := r0) x ?_ (fun hx => ?_); unfold x; clear x; rotate_left; clear_value x)
    | (extract_lets +onlyGivenNames x; unfold x; clear x)
    | with_reducible assumption
    | with_reducible apply Steady.ite
    | with_reducible apply State.setReg_steady
    | with_reducible apply State.updFeChan_steady
    | fail_if_no_progress (with_reducible refine Steady.lit (s := _) rfl ?_)
    | split

theorem execFeTimerTrigger_steady (j : Fin 16) {r0 s : State} (h0 : Steady r0 s) : Ends r0 (execFeTimerTrigger j s) := by
  unfold execFeTimerTrigger
  repeat' first
    | (extract_lets +onlyGivenNames x; refine Steady.cut (r := r0) x ?_ (fun hx => ?_); unfold x; clear x; rotate_left; clear_value x)
    | (extract_lets +onlyGivenNames x; unfold x; clear x)
    | with_reducible assumption
    | with_reducible apply Ends.next
    | with_reducible apply Ends.ite
    | with_reducible apply Steady.ite
    | with_reducible apply feTrigger_steady
    | with_reducible apply State.updConv_steady
    | fail_if_no_progress (with_reducible refine Steady.lit (s := _) rfl ?_)
    | split

theorem execFePulseTrigger_steady (j : Fin 16) {r0 s : State} (h0 : Steady r0 s) : Ends r0 (execFePulseTrigger j s) := by
  unfold execFePulseTrigger
  repeat' first
    | (extract_lets +onlyGivenNames x; refine Steady.cut (r := r0) x ?_ (fun hx => ?_); unfold x; clear x; rotate_left; clear_value x)
    | (extract_lets +onlyGivenNames x; unfold x; clear x)
    | with_reducible assumption
    | with_reducible apply Ends.next
    | with_reducible apply Ends.ite
    | with_reducible apply Steady.ite
    | with_reducible apply State.updConv_steady
    | with_reducible apply feTrigger_steady
    | fail_if_no_progress (with_reducible refine Steady.lit (s := _) rfl ?_)
    | split

theorem execConvStart_steady (j : Fin 16) {r0 s : State} (h0 : Steady r0 s) : Ends r0 (execConvStart j s) := by
  unfold execConvStart
  repeat' first
    | with_reducible assumption
    | with_reducible apply Ends.next
    | with_reducible apply Ends.ite
    | with_reducible apply Steady.ite
    | with_reducible apply feTrigger_steady
    | split

theorem execTioEdge_steady (t : Fin 96) {r0 s : State} (h0 : Steady r0 s) : Ends r0 (execTioEdge t s) := by
  unfold execTioEdge
  repeat' first
    | (extract_lets +onlyGivenNames x; refine Steady.cut (r := r0) x ?_ (fun hx => ?_); unfold x; clear x; rotate_left; clear_value x)
    | (extract_lets +onlyGivenNames x; unfold x; clear x)
    | with_reducible assumption
    | with_reducible apply Ends.next
    | with_reducible apply Ends.ite
    | with_reducible apply Steady.ite
    | with_reducible refine Steady.foldl _ _ ?_ (fun _ _ _ => ?_)
    | with_reducible apply stampTio_steady
    | with_reducible apply State.raise_steady
    | with_reducible apply feTrigger_steady
    | with_reducible apply State.updConv_steady
    | fail_if_no_progress (with_reducible refine Steady.lit (s := _) rfl ?_)
    | split

theorem execLineTriggerInstant_steady (st : Fin 64) (line : Nat) {r0 s : State} (h0 : Steady r0 s) : Ends r0 (execLineTriggerInstant st line s) := by
  unfold execLineTriggerInstant
  repeat' first
    | (extract_lets +onlyGivenNames x; refine Steady.cut (r := r0) x ?_ (fun hx => ?_); unfold x; clear x; rotate_left; clear_value x)
    | (extract_lets +onlyGivenNames x; unfold x; clear x)
    | with_reducible assumption
    | with_reducible apply Ends.next
    | with_reducible apply Ends.ite
    | with_reducible apply Steady.ite
    | with_reducible refine Steady.foldl _ _ ?_ (fun _ _ _ => ?_)
    | with_reducible apply triggerOut_steady
    | with_reducible apply gapRecheck_steady
    | with_reducible apply updRec_steady
    | with_reducible apply feTrigger_steady
    | fail_if_no_progress (with_reducible refine Steady.lit (s := _) rfl ?_)
    | split

theorem execInjectedTrigger_steady (k : Fin 64) {r0 s : State} (h0 : Steady r0 s) : Ends r0 (execInjectedTrigger k s) := by
  unfold execInjectedTrigger
  repeat' first
    | (extract_lets +onlyGivenNames x; refine Steady.cut (r := r0) x ?_ (fun hx => ?_); unfold x; clear x; rotate_left; clear_value x)
    | (extract_lets +onlyGivenNames x; unfold x; clear x)
    | with_reducible assumption
    | with_reducible apply Ends.next
    | with_reducible apply Ends.ite
    | with_reducible apply Steady.ite
    | with_reducible apply startInj_steady
    | with_reducible apply missedTrigger_steady
    | with_reducible apply State.updConv_steady
    | fail_if_no_progress (with_reducible refine Steady.lit (s := _) rfl ?_)
    | split

theorem feRunChannels_steady (j : Nat) (r : FeRun) (l : List Nat) (codes : List (List Int)) (i : Nat) {r0 s : State}
    (h0 : Steady r0 s) : Steady r0 (feRunChannels j r l codes i s) := by
  induction l generalizing codes i s with
  | nil => exact h0
  | cons k l ih => exact ih _ _ (feChannelRun_steady _ _ _ _ h0)

theorem execRunComplete_steady (j : Fin 16) (codes : List (List Int)) {r0 s : State} (h0 : Steady r0 s) : Ends r0 (execRunComplete j codes s) := by
  unfold execRunComplete
  repeat' first
    | (extract_lets +onlyGivenNames x; refine Steady.cut (r := r0) x ?_ (fun hx => ?_); unfold x; clear x; rotate_left; clear_value x)
    | (extract_lets +onlyGivenNames x; unfold x; clear x)
    | with_reducible assumption
    | with_reducible apply Ends.next
    | with_reducible apply Ends.ite
    | with_reducible apply Steady.ite
    | with_reducible apply feChannelRun_steady
    | with_reducible apply State.updConv_steady
    | with_reducible apply convFree_steady
    | with_reducible apply feRunChannels_steady
    | fail_if_no_progress (with_reducible refine Steady.lit (s := _) rfl ?_)
    | split

theorem requestCal_steady (j : Nat) {r0 s : State} (h0 : Steady r0 s) : Steady r0 (requestCal j s) := by
  unfold requestCal
  repeat' first
    | (extract_lets +onlyGivenNames x; refine Steady.cut (r := r0) x ?_ (fun hx => ?_); unfold x; clear x; rotate_left; clear_value x)
    | (extract_lets +onlyGivenNames x; unfold x; clear x)
    | with_reducible assumption
    | with_reducible apply Steady.ite
    | with_reducible apply startCal_steady
    | with_reducible apply State.updConv_steady
    | fail_if_no_progress (with_reducible refine Steady.lit (s := _) rfl ?_)
    | split

theorem execFeCalibrate_steady (j : Fin 16) {r0 s : State} (h0 : Steady r0 s) : Ends r0 (execFeCalibrate j s) := by
  unfold execFeCalibrate
  repeat' first
    | with_reducible assumption
    | with_reducible apply Ends.next
    | with_reducible apply requestCal_steady

theorem execFeCalPeriod_steady (j : Fin 16) {r0 s : State} (h0 : Steady r0 s) : Ends r0 (execFeCalPeriod j s) := by
  unfold execFeCalPeriod
  repeat' first
    | (extract_lets +onlyGivenNames x; refine Steady.cut (r := r0) x ?_ (fun hx => ?_); unfold x; clear x; rotate_left; clear_value x)
    | (extract_lets +onlyGivenNames x; unfold x; clear x)
    | with_reducible assumption
    | with_reducible apply Ends.next
    | with_reducible apply Ends.ite
    | with_reducible apply Steady.ite
    | with_reducible apply requestCal_steady
    | split

theorem feReady_steady (i : Nat) {r0 s : State} (h0 : Steady r0 s) : Steady r0 (feReady i s) := by
  unfold feReady
  repeat' first
    | (extract_lets +onlyGivenNames x; refine Steady.cut (r := r0) x ?_ (fun hx => ?_); unfold x; clear x; rotate_left; clear_value x)
    | (extract_lets +onlyGivenNames x; unfold x; clear x)
    | with_reducible assumption
    | with_reducible apply Steady.ite
    | with_reducible apply State.setReg_steady
    | split

theorem execFeCalDone_steady (j : Fin 16) (ok : Bool) {r0 s : State} (h0 : Steady r0 s) : Ends r0 (execFeCalDone j ok s) := by
  unfold execFeCalDone
  repeat' first
    | (extract_lets +onlyGivenNames x; refine Steady.cut (r := r0) x ?_ (fun hx => ?_); unfold x; clear x; rotate_left; clear_value x)
    | (extract_lets +onlyGivenNames x; unfold x; clear x)
    | with_reducible assumption
    | with_reducible apply Ends.next
    | with_reducible apply Ends.ite
    | with_reducible apply Steady.ite
    | with_reducible apply State.updConv_steady
    | with_reducible apply convFree_steady
    | with_reducible apply feReady_steady
    | with_reducible apply State.raiseFault_steady
    | fail_if_no_progress (with_reducible refine Steady.lit (s := _) rfl ?_)
    | split

theorem fePower_steady (i : Nat) (on : Bool) {r0 s : State} (h0 : Steady r0 s) : Steady r0 (fePower i on s) := by
  unfold fePower
  repeat' first
    | (extract_lets +onlyGivenNames x; refine Steady.cut (r := r0) x ?_ (fun hx => ?_); unfold x; clear x; rotate_left; clear_value x)
    | (extract_lets +onlyGivenNames x; unfold x; clear x)
    | with_reducible assumption
    | with_reducible apply Steady.ite
    | with_reducible refine Steady.foldl _ _ ?_ (fun _ _ _ => ?_)
    | with_reducible apply State.updFeIsland_steady
    | with_reducible apply State.writeMem_steady
    | with_reducible apply State.setConv_steady
    | with_reducible apply State.setReg_steady
    | fail_if_no_progress (with_reducible refine Steady.lit (s := _) rfl ?_)
    | split

theorem execGenZeroCrossing_steady (g : Fin 8) {r0 s : State} (h0 : Steady r0 s) : Ends r0 (execGenZeroCrossing g s) := by
  unfold execGenZeroCrossing
  repeat' first
    | (extract_lets +onlyGivenNames x; refine Steady.cut (r := r0) x ?_ (fun hx => ?_); unfold x; clear x; rotate_left; clear_value x)
    | (extract_lets +onlyGivenNames x; refine Steady.cut2 (r := r0) x ?_ (fun hx => ?_); unfold x; clear x; rotate_left; clear_value x)
    | (extract_lets +onlyGivenNames x; refine Steady.cut1 (r := r0) x ?_ (fun hx => ?_); unfold x; clear x; rotate_left; clear_value x)
    | (extract_lets +onlyGivenNames x; unfold x; clear x)
    | with_reducible assumption
    | with_reducible apply Ends.next
    | with_reducible apply Ends.ite
    | with_reducible apply Steady.ite
    | with_reducible refine Steady.foldl1 _ _ ?_ (fun _ _ _ => ?_)
    | with_reducible refine Steady.foldl _ _ ?_ (fun _ _ _ => ?_)
    | with_reducible apply State.countWrap_steady
    | with_reducible apply State.updFeChan_steady
    | fail_if_no_progress (with_reducible refine Steady.lit (s := _) rfl ?_)
    | split

theorem execGenEnable_steady (g : Fin 8) (v : Bool) {r0 s : State} (h0 : Steady r0 s) : Ends r0 (execGenEnable g v s) := by
  unfold execGenEnable
  repeat' first
    | (extract_lets +onlyGivenNames x; refine Steady.cut (r := r0) x ?_ (fun hx => ?_); unfold x; clear x; rotate_left; clear_value x)
    | (extract_lets +onlyGivenNames x; unfold x; clear x)
    | with_reducible assumption
    | with_reducible apply Ends.next
    | with_reducible apply Ends.ite
    | with_reducible apply Steady.ite
    | with_reducible apply State.setReg_steady
    | fail_if_no_progress (with_reducible refine Steady.lit (s := _) rfl ?_)
    | split

theorem execFeGenOvercurrent_steady (g : Fin 8) {r0 s : State} (h0 : Steady r0 s) : Ends r0 (execFeGenOvercurrent g s) := by
  unfold execFeGenOvercurrent
  repeat' first
    | with_reducible assumption
    | with_reducible apply Ends.next
    | with_reducible apply Ends.ite
    | with_reducible apply Steady.ite
    | with_reducible apply State.setReg_steady
    | with_reducible apply State.raiseFault_steady
    | split

theorem execFeClamp_steady (p : Fin 64) {r0 s : State} (h0 : Steady r0 s) : Ends r0 (execFeClamp p s) := by
  unfold execFeClamp
  repeat' first
    | (extract_lets +onlyGivenNames x; refine Steady.cut (r := r0) x ?_ (fun hx => ?_); unfold x; clear x; rotate_left; clear_value x)
    | (extract_lets +onlyGivenNames x; unfold x; clear x)
    | with_reducible assumption
    | with_reducible apply Ends.next
    | with_reducible apply Ends.ite
    | with_reducible apply Steady.ite
    | with_reducible refine Steady.foldl _ _ ?_ (fun _ _ _ => ?_)
    | with_reducible apply State.setReg_steady
    | with_reducible apply State.updFeChan_steady
    | with_reducible apply State.count_steady
    | with_reducible apply State.raise_steady
    | fail_if_no_progress (with_reducible refine Steady.lit (s := _) rfl ?_)
    | split

theorem startTest_steady (k : Nat) {r0 s : State} (h0 : Steady r0 s) : Steady r0 (startTest k s) := by
  unfold startTest
  repeat' first
    | (extract_lets +onlyGivenNames x; refine Steady.cut (r := r0) x ?_ (fun hx => ?_); unfold x; clear x; rotate_left; clear_value x)
    | (extract_lets +onlyGivenNames x; unfold x; clear x)
    | with_reducible assumption
    | with_reducible apply Steady.ite
    | with_reducible apply pauseRun_steady
    | with_reducible apply State.updConv_steady
    | fail_if_no_progress (with_reducible refine Steady.lit (s := _) rfl ?_)
    | split

theorem execChTest_steady (k : Fin 64) {r0 s : State} (h0 : Steady r0 s) : Ends r0 (execChTest k s) := by
  unfold execChTest
  repeat' first
    | with_reducible assumption
    | with_reducible apply Ends.next
    | with_reducible apply startTest_steady

theorem takeTest_steady (k : Nat) (m1 m2 : Int) {r0 s : State} (h0 : Steady r0 s) : Steady r0 (takeTest k m1 m2 s) := by
  unfold takeTest
  repeat' first
    | (extract_lets +onlyGivenNames x; refine Steady.cut (r := r0) x ?_ (fun hx => ?_); unfold x; clear x; rotate_left; clear_value x)
    | (extract_lets +onlyGivenNames x; refine Steady.cut2 (r := r0) x ?_ (fun hx => ?_); unfold x; clear x; rotate_left; clear_value x)
    | (extract_lets +onlyGivenNames x; refine Steady.cut1 (r := r0) x ?_ (fun hx => ?_); unfold x; clear x; rotate_left; clear_value x)
    | (extract_lets +onlyGivenNames x; unfold x; clear x)
    | with_reducible assumption
    | with_reducible apply Steady.ite
    | with_reducible apply fit32_steady
    | with_reducible apply State.setReg_steady
    | with_reducible apply State.updFeChan_steady
    | with_reducible apply State.raiseFault_steady
    | fail_if_no_progress (with_reducible refine Steady.lit (s := _) rfl ?_)
    | split

theorem execChTestDone_steady (k : Fin 64) (m1 m2 : Int) {r0 s : State} (h0 : Steady r0 s) : Ends r0 (execChTestDone k m1 m2 s) := by
  unfold execChTestDone
  repeat' first
    | (extract_lets +onlyGivenNames x; refine Steady.cut (r := r0) x ?_ (fun hx => ?_); unfold x; clear x; rotate_left; clear_value x)
    | (extract_lets +onlyGivenNames x; unfold x; clear x)
    | with_reducible assumption
    | with_reducible apply Ends.next
    | with_reducible apply Ends.ite
    | with_reducible apply Steady.ite
    | with_reducible apply convFree_steady
    | with_reducible apply takeTest_steady
    | with_reducible apply State.updConv_steady
    | fail_if_no_progress (with_reducible refine Steady.lit (s := _) rfl ?_)
    | split

end Sys2Proof.Machine
end

