-- ==== Sys2Proof/Laws/SteadyQueues.lean ====
section
/-! SUPPORT. What the operations of Machine/Queues.lean keep. -/
namespace Sys2Proof.Machine

set_option linter.unusedTactic false
set_option linter.unreachableTactic false

theorem execQueueWrite_steady (q : Fin 1024) (cls : Fin 4) (words : Nat) (last bad : Bool) (line : Option (Fin 64 × Nat)) {r0 s : State} (h0 : Steady r0 s) : Ends r0 (execQueueWrite q cls words last bad line s) := by
  unfold execQueueWrite
  repeat' first
    | with_reducible assumption
    | with_reducible apply Ends.next
    | with_reducible apply queueTurn_steady
    | fail_if_no_progress (with_reducible refine Steady.lit (s := _) rfl ?_)

theorem lineHit_steady (st line : Nat) {r0 s : State} (h0 : Steady r0 s) : Steady r0 (lineHit st line s) := by
  unfold lineHit
  repeat' first
    | (extract_lets +onlyGivenNames x; refine Steady.cut (r := r0) x ?_ (fun hx => ?_); unfold x; clear x; rotate_left; clear_value x)
    | (extract_lets +onlyGivenNames x; unfold x; clear x)
    | with_reducible assumption
    | with_reducible apply Steady.ite
    | with_reducible apply updRec_steady
    | with_reducible apply loseLine_steady
    | with_reducible apply markSlot_steady
    | fail_if_no_progress (with_reducible refine Steady.lit (s := _) rfl ?_)
    | split

theorem execQueuePointer_steady (q : Fin 1024) {r0 s : State} (h0 : Steady r0 s) : Ends r0 (execQueuePointer q s) := by
  unfold execQueuePointer
  repeat' first
    | (extract_lets +onlyGivenNames x; refine Steady.cut (r := r0) x ?_ (fun hx => ?_); unfold x; clear x; rotate_left; clear_value x)
    | (extract_lets +onlyGivenNames x; refine Steady.cut2 (r := r0) x ?_ (fun hx => ?_); unfold x; clear x; rotate_left; clear_value x)
    | (extract_lets +onlyGivenNames x; refine Steady.cut1 (r := r0) x ?_ (fun hx => ?_); unfold x; clear x; rotate_left; clear_value x)
    | (extract_lets +onlyGivenNames x; unfold x; clear x)
    | with_reducible assumption
    | with_reducible apply Ends.next
    | with_reducible apply Ends.ite
    | with_reducible apply Steady.ite
    | with_reducible refine Steady.foldl1 _ _ ?_ (fun _ _ _ => ?_)
    | with_reducible refine Steady.foldl2 _ _ ?_ (fun _ _ _ => ?_)
    | with_reducible refine Steady.foldl _ _ ?_ (fun _ _ _ => ?_)
    | with_reducible apply queueTurn_steady
    | with_reducible apply State.report_steady
    | with_reducible apply lineHit_steady
    | fail_if_no_progress (with_reducible refine Steady.lit (s := _) rfl ?_)
    | split

theorem execQueueFlush_steady  {r0 s : State} (h0 : Steady r0 s) : Ends r0 (execQueueFlush s) := by
  unfold execQueueFlush
  repeat' first
    | with_reducible assumption
    | with_reducible apply Ends.next
    | with_reducible apply Ends.ite
    | with_reducible apply Steady.ite
    | with_reducible apply flushQueue_steady
    | split

end Sys2Proof.Machine
end

