-- ==== Sys2Proof/Laws/SteadyPower.lean ====
section
/-! SUPPORT. What the operations of Machine/Power.lean keep. -/
namespace Sys2Proof.Machine

set_option linter.unusedTactic false
set_option linter.unreachableTactic false

theorem flushDomain_steady (d : Nat) {r0 s : State} (h0 : Steady r0 s) : Steady r0 (flushDomain d s) := by
  unfold flushDomain
  repeat' first
    | with_reducible assumption
    | with_reducible apply Steady.ite
    | with_reducible refine Steady.foldl _ _ ?_ (fun _ _ _ => ?_)
    | with_reducible apply flushQueue_steady
    | split

theorem sliceUp_steady (k : Nat) {r0 s : State} (h0 : Steady r0 s) : Steady r0 (sliceUp k s) := by
  unfold sliceUp
  repeat' first
    | (extract_lets +onlyGivenNames x; refine Steady.cut (r := r0) x ?_ (fun hx => ?_); unfold x; clear x; rotate_left; clear_value x)
    | (extract_lets +onlyGivenNames x; unfold x; clear x)
    | with_reducible assumption
    | with_reducible apply Steady.ite
    | with_reducible apply State.setSlice_steady
    | split

theorem sliceDown_steady (k : Nat) {r0 s : State} (h0 : Steady r0 s) : Steady r0 (sliceDown k s) := by
  unfold sliceDown
  repeat' first
    | (extract_lets +onlyGivenNames x; refine Steady.cut (r := r0) x ?_ (fun hx => ?_); unfold x; clear x; rotate_left; clear_value x)
    | (extract_lets +onlyGivenNames x; unfold x; clear x)
    | with_reducible assumption
    | with_reducible apply Steady.ite
    | with_reducible apply State.setSlice_steady
    | split

theorem domainUp_steady (d : Nat) {r0 s : State} (h0 : Steady r0 s) : Steady r0 (domainUp d s) := by
  unfold domainUp
  repeat' first
    | (extract_lets +onlyGivenNames x; refine Steady.cut (r := r0) x ?_ (fun hx => ?_); unfold x; clear x; rotate_left; clear_value x)
    | (extract_lets +onlyGivenNames x; unfold x; clear x)
    | with_reducible assumption
    | with_reducible apply Steady.ite
    | with_reducible refine Steady.foldl _ _ ?_ (fun _ _ _ => ?_)
    | with_reducible apply startTraining_steady
    | with_reducible apply sliceUp_steady
    | with_reducible apply State.setBank_steady
    | with_reducible apply portUp_steady
    | with_reducible apply fePower_steady
    | with_reducible apply startLampTest_steady
    | with_reducible apply lampDomains_steady
    | split

theorem domainDown_steady (d : Nat) {r0 s : State} (h0 : Steady r0 s) : Steady r0 (domainDown d s) := by
  unfold domainDown
  repeat' first
    | with_reducible assumption
    | with_reducible apply Steady.ite
    | with_reducible refine Steady.foldl _ _ ?_ (fun _ _ _ => ?_)
    | with_reducible apply laneDown_steady
    | with_reducible apply sliceDown_steady
    | with_reducible apply portDown_steady
    | with_reducible apply State.setBank_steady
    | with_reducible apply fePower_steady
    | with_reducible apply lampDomains_steady
    | split

theorem setRail_steady (r v : Nat) {r0 s : State} (h0 : Steady r0 s) : Steady r0 (setRail r v s) := by
  unfold setRail
  repeat' first
    | (extract_lets +onlyGivenNames x; refine Steady.cut (r := r0) x ?_ (fun hx => ?_); unfold x; clear x; rotate_left; clear_value x)
    | (extract_lets +onlyGivenNames x; unfold x; clear x)
    | with_reducible assumption
    | with_reducible apply Steady.ite
    | with_reducible apply State.setReg_steady
    | split

theorem enableRail_steady (r : Nat) {r0 s : State} (h0 : Steady r0 s) : Steady r0 (enableRail r s) := by
  unfold enableRail
  repeat' first
    | (extract_lets +onlyGivenNames x; refine Steady.cut (r := r0) x ?_ (fun hx => ?_); unfold x; clear x; rotate_left; clear_value x)
    | (extract_lets +onlyGivenNames x; refine Steady.cut2 (r := r0) x ?_ (fun hx => ?_); unfold x; clear x; rotate_left; clear_value x)
    | (extract_lets +onlyGivenNames x; refine Steady.cut1 (r := r0) x ?_ (fun hx => ?_); unfold x; clear x; rotate_left; clear_value x)
    | (extract_lets +onlyGivenNames x; unfold x; clear x)
    | with_reducible assumption
    | with_reducible apply Steady.ite
    | with_reducible apply State.setReg_steady
    | with_reducible apply setRail_steady
    | split

theorem disableRail_steady (r : Nat) {r0 s : State} (h0 : Steady r0 s) : Steady r0 (disableRail r s) := by
  unfold disableRail
  repeat' first
    | with_reducible assumption
    | with_reducible apply setRail_steady
    | with_reducible apply State.setReg_steady

theorem switchDomain_steady (m : Mode) (d : Nat) {r0 s : State} (h0 : Steady r0 s) : Steady r0 (switchDomain m s d) := by
  unfold switchDomain
  repeat' first
    | (extract_lets +onlyGivenNames x; refine Steady.cut (r := r0) x ?_ (fun hx => ?_); unfold x; clear x; rotate_left; clear_value x)
    | (extract_lets +onlyGivenNames x; unfold x; clear x)
    | with_reducible assumption
    | with_reducible apply Steady.ite
    | with_reducible apply enableRail_steady
    | with_reducible apply State.setReg_steady
    | with_reducible apply State.countWrap_steady
    | with_reducible apply domainDown_steady
    | with_reducible apply flushDomain_steady
    | split

theorem domainsFollow_steady (m : Mode) {r0 s : State} (h0 : Steady r0 s) : Steady r0 (domainsFollow m s) := by
  unfold domainsFollow
  repeat' first
    | with_reducible assumption
    | with_reducible refine Steady.foldl _ _ ?_ (fun _ _ _ => ?_)
    | with_reducible apply switchDomain_steady

theorem execDomainOn_steady (d : Fin 64) {r0 s : State} (h0 : Steady r0 s) : Ends r0 (execDomainOn d s) := by
  unfold execDomainOn
  repeat' first
    | with_reducible assumption
    | with_reducible apply Ends.next
    | with_reducible apply Ends.ite
    | with_reducible apply Steady.ite
    | with_reducible apply domainUp_steady
    | with_reducible apply State.setReg_steady
    | split

theorem execDomainFault_steady (d : Fin 64) {r0 s : State} (h0 : Steady r0 s) : Ends r0 (execDomainFault d s) := by
  unfold execDomainFault
  repeat' first
    | with_reducible assumption
    | with_reducible apply Ends.next
    | with_reducible apply Ends.ite
    | with_reducible apply Steady.ite
    | with_reducible apply State.setReg_steady
    | with_reducible apply State.raiseFault_steady
    | split

theorem execFlushDrainEnd_steady (q : Fin 1024) {r0 s : State} (h0 : Steady r0 s) : Ends r0 (execFlushDrainEnd q s) := by
  unfold execFlushDrainEnd
  repeat' first
    | (extract_lets +onlyGivenNames x; refine Steady.cut (r := r0) x ?_ (fun hx => ?_); unfold x; clear x; rotate_left; clear_value x)
    | (extract_lets +onlyGivenNames x; unfold x; clear x)
    | with_reducible assumption
    | with_reducible apply Ends.next
    | with_reducible apply Ends.ite
    | with_reducible apply Steady.ite
    | with_reducible refine Steady.foldl _ _ ?_ (fun _ _ _ => ?_)
    | with_reducible apply queueTurn_steady
    | with_reducible apply switchDomain_steady
    | fail_if_no_progress (with_reducible refine Steady.lit (s := _) rfl ?_)
    | split

theorem execClusterOff_steady (k : Fin 16) {r0 s : State} (h0 : Steady r0 s) : Ends r0 (execClusterOff k s) := by
  unfold execClusterOff
  repeat' first
    | (extract_lets +onlyGivenNames x; refine Steady.cut (r := r0) x ?_ (fun hx => ?_); unfold x; clear x; rotate_left; clear_value x)
    | (extract_lets +onlyGivenNames x; unfold x; clear x)
    | with_reducible assumption
    | with_reducible apply Ends.next
    | with_reducible apply Ends.ite
    | with_reducible apply Steady.ite
    | with_reducible apply domainDown_steady
    | with_reducible apply flushDomain_steady
    | with_reducible apply State.setReg_steady
    | split

theorem darkenLamps_steady  {r0 s : State} (h0 : Steady r0 s) : Steady r0 (darkenLamps s) := by
  unfold darkenLamps
  repeat' first
    | (extract_lets +onlyGivenNames x; refine Steady.cut (r := r0) x ?_ (fun hx => ?_); unfold x; clear x; rotate_left; clear_value x)
    | (extract_lets +onlyGivenNames x; unfold x; clear x)
    | with_reducible assumption
    | with_reducible apply Steady.ite
    | with_reducible refine Steady.foldl _ _ ?_ (fun _ _ _ => ?_)
    | with_reducible apply endPulse_steady
    | with_reducible apply State.count_steady
    | with_reducible apply updRec_steady
    | with_reducible apply State.raise_steady
    | with_reducible apply driveBand_steady
    | with_reducible apply State.mapPulses_steady
    | fail_if_no_progress (with_reducible refine Steady.lit (s := _) rfl ?_)
    | split

theorem quietPins_steady  {r0 s : State} (h0 : Steady r0 s) : Steady r0 (quietPins s) := by
  unfold quietPins
  repeat' first
    | (extract_lets +onlyGivenNames x; refine Steady.cut (r := r0) x ?_ (fun hx => ?_); unfold x; clear x; rotate_left; clear_value x)
    | (extract_lets +onlyGivenNames x; unfold x; clear x)
    | with_reducible assumption
    | with_reducible apply Steady.ite
    | with_reducible refine Steady.foldl _ _ ?_ (fun _ _ _ => ?_)
    | with_reducible apply quietPort_steady
    | with_reducible apply State.updPort_steady
    | with_reducible apply driveTio_steady
    | with_reducible apply State.updTio_steady
    | fail_if_no_progress (with_reducible refine Steady.lit (s := _) rfl ?_)
    | split

theorem endStreams_steady  {r0 s : State} (h0 : Steady r0 s) : Steady r0 (endStreams s) := by
  unfold endStreams
  repeat' first
    | (extract_lets +onlyGivenNames x; refine Steady.cut (r := r0) x ?_ (fun hx => ?_); unfold x; clear x; rotate_left; clear_value x)
    | (extract_lets +onlyGivenNames x; refine Steady.cut2 (r := r0) x ?_ (fun hx => ?_); unfold x; clear x; rotate_left; clear_value x)
    | (extract_lets +onlyGivenNames x; refine Steady.cut1 (r := r0) x ?_ (fun hx => ?_); unfold x; clear x; rotate_left; clear_value x)
    | (extract_lets +onlyGivenNames x; unfold x; clear x)
    | with_reducible assumption
    | with_reducible apply Steady.ite
    | with_reducible refine Steady.foldl1 _ _ ?_ (fun _ _ _ => ?_)
    | with_reducible refine Steady.foldl2 _ _ ?_ (fun _ _ _ => ?_)
    | with_reducible refine Steady.foldl _ _ ?_ (fun _ _ _ => ?_)
    | with_reducible apply failCapture_steady
    | with_reducible apply State.updStrm_steady
    | with_reducible apply State.updSeam_steady
    | (refine Steady.table (s := x) hx rfl rfl rfl rfl fun c => { c with slices := Table.rising_keys _ _ (fun _ => rfl) c.slices })
    | fail_if_no_progress (with_reducible refine Steady.lit (s := _) rfl ?_)
    | split

theorem haltDecided_held {r0 s : State} (h0 : Held r0 s) (b : s.mode.booted = true) : Held r0 (haltDecided s) :=
  Held.moved h0 rfl fun _ _ => ⟨b, Or.inr rfl⟩

theorem stopMotion_steady (hard : Bool) {r0 s : State} (h0 : Steady r0 s) : Steady r0 (stopMotion hard s) := by
  unfold stopMotion
  repeat' first
    | with_reducible assumption
    | with_reducible apply Steady.ite
    | with_reducible refine Steady.foldl _ _ ?_ (fun _ _ _ => ?_)
    | with_reducible apply motHardStop_steady
    | with_reducible apply motQuickStop_steady
    | split

theorem idleTransports_steady {r0 s : State} (h0 : Steady r0 s) : Steady r0 (idleTransports s) :=
  Steady.table h0 rfl rfl rfl rfl fun c => { c with transports := Table.rising_keys _ _ (fun _ => rfl) c.transports }

theorem safeHalt_held (cause : Nat) (hard : Bool) {r0 s : State} (h0 : Held r0 s) : Held r0 (safeHalt cause hard s) := by
  unfold safeHalt
  split
  · exact h0
  · rename_i g
    have k := disableAll_steady (endStreams_steady (quietPins_steady (darkenLamps_steady (Steady.refl s))))
    have b : (disableAll (endStreams (quietPins (darkenLamps s)))).mode.booted = true := by
      rw [k.mode]
      exact (show s.power.halted = false ∧ s.mode.booted = true by simpa using g).2
    exact (haltDecided_held (h0.on k) b).on (alarmEval_steady (audit_steady _ _ _ _ _ _ _ (State.setReg_steady _ _
      (idleTransports_steady (stopMotion_steady _ (Steady.refl _))))))

theorem execMotorEnableRelease_steady  {r0 s : State} (h0 : Steady r0 s) : Ends r0 (execMotorEnableRelease s) := by
  unfold execMotorEnableRelease
  repeat' first
    | (extract_lets +onlyGivenNames x; refine Steady.cut (r := r0) x ?_ (fun hx => ?_); unfold x; clear x; rotate_left; clear_value x)
    | (extract_lets +onlyGivenNames x; unfold x; clear x)
    | with_reducible assumption
    | with_reducible apply Ends.next
    | with_reducible apply Ends.ite
    | with_reducible apply Steady.ite
    | with_reducible refine Steady.foldl _ _ ?_ (fun _ _ _ => ?_)
    | with_reducible apply driveTio_steady
    | fail_if_no_progress (with_reducible refine Steady.lit (s := _) rfl ?_)
    | split

theorem execRailFault_held (r : Fin 8) {r0 s : State} (h0 : Held r0 s) : Leads r0 (execRailFault r s) := by
  unfold execRailFault
  repeat' first
    | (extract_lets +onlyGivenNames x; refine Held.cut (r := r0) x ?_ (fun hx => ?_); unfold x; clear x; rotate_left; clear_value x)
    | (extract_lets +onlyGivenNames x; unfold x; clear x)
    | with_reducible assumption
    | with_reducible apply Leads.next
    | with_reducible apply Leads.ite
    | with_reducible apply Held.ite
    | with_reducible refine Held.foldl _ _ ?_ (fun _ _ _ => ?_)
    | with_reducible refine Held.on ?_ (State.setReg_steady (h0 := Steady.refl _) ..)
    | with_reducible refine Held.on ?_ (State.count_steady (h0 := Steady.refl _) ..)
    | with_reducible refine Held.on ?_ (State.raiseFault_steady (h0 := Steady.refl _) ..)
    | with_reducible refine Held.on ?_ (disableBand_steady (h0 := Steady.refl _) ..)
    | with_reducible apply safeHalt_held
    | split

theorem noteTj_steady (t : Int) {r0 s : State} (h0 : Steady r0 s) : Steady r0 (noteTj t s) := by
  unfold noteTj
  repeat' first
    | (extract_lets +onlyGivenNames x; refine Steady.cut (r := r0) x ?_ (fun hx => ?_); unfold x; clear x; rotate_left; clear_value x)
    | (extract_lets +onlyGivenNames x; unfold x; clear x)
    | with_reducible assumption
    | with_reducible apply Steady.ite
    | with_reducible apply State.setReg_steady
    | fail_if_no_progress (with_reducible refine Steady.lit (s := _) rfl ?_)
    | split

theorem execThermalWarn_steady (t : Int) {r0 s : State} (h0 : Steady r0 s) : Ends r0 (execThermalWarn t s) := by
  unfold execThermalWarn
  repeat' first
    | (extract_lets +onlyGivenNames x; refine Steady.cut (r := r0) x ?_ (fun hx => ?_); unfold x; clear x; rotate_left; clear_value x)
    | (extract_lets +onlyGivenNames x; unfold x; clear x)
    | with_reducible assumption
    | with_reducible apply Ends.next
    | with_reducible apply Ends.ite
    | with_reducible apply Steady.ite
    | with_reducible apply noteTj_steady
    | with_reducible apply alarmEval_steady
    | with_reducible apply State.raiseFault_steady
    | fail_if_no_progress (with_reducible refine Steady.lit (s := _) rfl ?_)
    | split

theorem execThermalShutdown_held (t : Int) {r0 s : State} (h0 : Held r0 s) : Leads r0 (execThermalShutdown t s) := by
  unfold execThermalShutdown
  repeat' first
    | (extract_lets +onlyGivenNames x; refine Held.cut (r := r0) x ?_ (fun hx => ?_); unfold x; clear x; rotate_left; clear_value x)
    | (extract_lets +onlyGivenNames x; unfold x; clear x)
    | with_reducible assumption
    | with_reducible apply Leads.next
    | with_reducible apply Leads.ite
    | with_reducible apply Held.ite
    | with_reducible refine Held.on ?_ (noteTj_steady (h0 := Steady.refl _) ..)
    | with_reducible apply safeHalt_held
    | with_reducible refine Held.on ?_ (State.raiseFault_steady (h0 := Steady.refl _) ..)
    | split

theorem setAvsStatus_steady (clamped up above : Bool) {r0 s : State} (h0 : Steady r0 s) : Steady r0 (setAvsStatus clamped up above s) := by
  unfold setAvsStatus
  repeat' first
    | with_reducible assumption
    | with_reducible apply State.setReg_steady

theorem avsClamp_steady (up : Bool) {r0 s : State} (h0 : Steady r0 s) : Steady r0 (avsClamp up s) := by
  unfold avsClamp
  repeat' first
    | (extract_lets +onlyGivenNames x; refine Steady.cut (r := r0) x ?_ (fun hx => ?_); unfold x; clear x; rotate_left; clear_value x)
    | (extract_lets +onlyGivenNames x; unfold x; clear x)
    | with_reducible assumption
    | with_reducible apply Steady.ite
    | with_reducible apply setAvsStatus_steady
    | with_reducible apply State.count_steady
    | with_reducible apply State.raise_steady
    | split

theorem avsMove_steady (want : Int) {r0 s : State} (h0 : Steady r0 s) : Steady r0 (avsMove want s) := by
  unfold avsMove
  repeat' first
    | (extract_lets +onlyGivenNames x; refine Steady.cut (r := r0) x ?_ (fun hx => ?_); unfold x; clear x; rotate_left; clear_value x)
    | (extract_lets +onlyGivenNames x; unfold x; clear x)
    | with_reducible assumption
    | with_reducible apply Steady.ite
    | with_reducible apply setRail_steady
    | with_reducible apply avsClamp_steady
    | with_reducible apply setAvsStatus_steady
    | split

theorem execAvsEval_steady (slack : Int) {r0 s : State} (h0 : Steady r0 s) : Ends r0 (execAvsEval slack s) := by
  unfold execAvsEval
  repeat' first
    | (extract_lets +onlyGivenNames x; refine Steady.cut (r := r0) x ?_ (fun hx => ?_); unfold x; clear x; rotate_left; clear_value x)
    | (extract_lets +onlyGivenNames x; unfold x; clear x)
    | with_reducible assumption
    | with_reducible apply Ends.next
    | with_reducible apply Ends.ite
    | with_reducible apply Steady.ite
    | with_reducible apply State.loopRan_steady
    | with_reducible apply State.setReg_steady
    | with_reducible apply setAvsStatus_steady
    | with_reducible apply setRail_steady
    | with_reducible apply avsMove_steady
    | fail_if_no_progress (with_reducible refine Steady.lit (s := _) rfl ?_)
    | split

theorem execAvsDroop_steady (monitor : Nat) {r0 s : State} (h0 : Steady r0 s) : Ends r0 (execAvsDroop monitor s) := by
  unfold execAvsDroop
  repeat' first
    | (extract_lets +onlyGivenNames x; refine Steady.cut (r := r0) x ?_ (fun hx => ?_); unfold x; clear x; rotate_left; clear_value x)
    | (extract_lets +onlyGivenNames x; unfold x; clear x)
    | with_reducible assumption
    | with_reducible apply Ends.next
    | with_reducible apply Ends.ite
    | with_reducible apply Steady.ite
    | with_reducible apply setAvsStatus_steady
    | with_reducible apply setRail_steady
    | with_reducible apply State.count_steady
    | with_reducible apply State.raiseFault_steady
    | fail_if_no_progress (with_reducible refine Steady.lit (s := _) rfl ?_)
    | split

theorem execAvsFallback_steady  {r0 s : State} (h0 : Steady r0 s) : Ends r0 (execAvsFallback s) := by
  unfold execAvsFallback
  repeat' first
    | (extract_lets +onlyGivenNames x; refine Steady.cut (r := r0) x ?_ (fun hx => ?_); unfold x; clear x; rotate_left; clear_value x)
    | (extract_lets +onlyGivenNames x; unfold x; clear x)
    | with_reducible assumption
    | with_reducible apply Ends.next
    | with_reducible apply Ends.ite
    | with_reducible apply Steady.ite
    | with_reducible apply setAvsStatus_steady
    | with_reducible apply setRail_steady
    | fail_if_no_progress (with_reducible refine Steady.lit (s := _) rfl ?_)
    | split

end Sys2Proof.Machine
end

