-- ==== Sys2Proof/Laws/SteadyStartup.lean ====
section
/-! SUPPORT. What the operations of Machine/Startup.lean keep. -/
namespace Sys2Proof.Machine

set_option linter.unusedTactic false
set_option linter.unreachableTactic false

/-- A mode is entered as the halt allows. -/
theorem enterMode_held (m : Mode) (cause : Nat) {r0 s : State} (h0 : Held r0 s)
    (n : HaltHeld s → s.power.halted = true → m = .safeHalt) : Held r0 (enterMode m cause s) := by
  unfold enterMode
  have h1 : Held r0 { s with mode := m, target := none } := by
    refine Held.moved h0 rfl fun k g => ?_
    have e := n k g
    subst e
    exact ⟨rfl, Or.inl ⟨rfl, rfl⟩⟩
  exact h1.on (State.raise_steady _ _ _ (State.countWrap_steady _ _ (State.setReg_steady _ _ (State.setReg_steady _ _ (Steady.refl _)))))

theorem persistent_held {r0 s : State} (h0 : Held r0 s) : Held r0 (persistent s) :=
  ⟨h0.pending, fun k => ⟨Table.rising_filter _ _ (h0.canonical k).dict, Table.rising_nil, Table.rising_nil, Table.rising_nil,
    Table.rising_nil, Table.rising_nil, Table.rising_nil, Table.rising_nil, Table.rising_nil, Table.rising_nil, Table.rising_nil,
    Table.rising_nil, Table.rising_nil, Table.rising_nil, Table.rising_nil, Table.rising_nil, Table.rising_nil, Table.rising_nil,
    Table.rising_nil, rfl, rfl, rfl⟩, fun _ k => absurd (show false = true from k) (by decide)⟩

theorem setStage_steady (stage : Nat) {r0 s : State} (h0 : Steady r0 s) : Steady r0 (setStage stage s) := by
  unfold setStage
  repeat' first
    | with_reducible assumption
    | with_reducible apply State.setReg_steady

theorem failStage_steady (stage rail : Nat) {r0 s : State} (h0 : Steady r0 s) : Steady r0 (failStage stage rail s) := by
  unfold failStage
  repeat' first
    | with_reducible assumption
    | with_reducible apply State.setReg_steady

theorem bootSetup_steady (before : Nat) {r0 s : State} (h0 : Steady r0 s) : Steady r0 (bootSetup before s) := by
  unfold bootSetup
  repeat' first
    | (extract_lets +onlyGivenNames x; refine Steady.cut (r := r0) x ?_ (fun hx => ?_); unfold x; clear x; rotate_left; clear_value x)
    | (extract_lets +onlyGivenNames x; unfold x; clear x)
    | with_reducible assumption
    | with_reducible apply Steady.ite
    | with_reducible apply setStage_steady
    | with_reducible apply State.setReg_steady
    | with_reducible apply domainsFollow_steady
    | fail_if_no_progress (with_reducible refine Steady.lit (s := _) rfl ?_)
    | split

theorem enterBoot_held {r0 s : State} (h0 : Held r0 s) (n : HaltHeld s → s.power.halted = false) : Held r0 (enterBoot s) := by
  unfold enterBoot
  have h1 : Held r0 { s with now := 0, grayDt := 0, loops := [], boot := { s.boot with before := s.boot.before + s.now, starting := true, rail := 8 } } :=
    Held.lit (s := s) rfl h0
  exact (enterMode_held .boot 0 h1 fun k g => absurd ((n k).symm.trans g) (by decide)).on (bootSetup_steady _ (Steady.refl _))

theorem raiseRails_held {r0 s : State} (h0 : Held r0 s) (n : HaltHeld s → s.power.halted = false) : Held r0 (raiseRails s) := by
  unfold raiseRails
  split
  · exact enterBoot_held h0 n
  · rename_i r _
    have h1 : Held r0 { s with target := some .boot, boot := { s.boot with starting := true, rail := r } } :=
      Held.moved h0 rfl fun k g => absurd ((n k).symm.trans g) (by decide)
    exact Held.ite h1 (h1.on (enableRail_steady _ (Steady.refl _)))

theorem startEnds_held {r0 s : State} (h0 : Held r0 s) (n : HaltHeld s → s.power.halted = false) : Held r0 (startEnds s) :=
  Held.moved h0 rfl fun k g => absurd ((n k).symm.trans g) (by decide)

theorem powerUp_held {r0 s : State} (h0 : Held r0 s) (n : HaltHeld s → s.power.halted = false) : Held r0 (powerUp s) := by
  unfold powerUp
  have k := setStage_steady 2 (Steady.refl s)
  have h2 : Held r0 { s with boot := { s.boot with recordBad := some s.now } } := Held.lit (s := s) rfl h0
  have l := failStage_steady 1 0 (Steady.refl { s with boot := { s.boot with recordBad := some s.now } })
  exact Held.ite (raiseRails_held (h0.on k) n) (startEnds_held (h2.on l) n)

theorem standbyUp_held (record : Bool) {r0 s : State} (h0 : Held r0 s) : Held r0 (standbyUp record s) := by
  unfold standbyUp
  have h1 := persistent_held h0
  dsimp only
  generalize persistent s = p at h1 ⊢
  have h2 : Held r0 { p with boot := { p.boot with standby := true, record := record, starting := true } } := Held.lit (s := p) rfl h1
  exact h2.on (domainsFollow_steady _ (Steady.refl _))

theorem standbyUp_halted (record : Bool) (s : State) : (standbyUp record s).power.halted = false := by
  unfold standbyUp
  have e : (persistent s).power.halted = false := rfl
  dsimp only
  generalize persistent s = p at e ⊢
  have k := domainsFollow_steady .sentinel (Steady.refl { p with boot := { p.boot with standby := true, record := record, starting := true } })
  rw [k.halted]
  exact e

theorem execStandbyInRange_held (record : Bool) {r0 s : State} (h0 : Held r0 s) : Leads r0 (execStandbyInRange record s) := by
  unfold execStandbyInRange
  apply Leads.next
  refine Held.ite ?_ h0
  have k := setStage_steady 1 (Steady.refl (standbyUp record s))
  exact powerUp_held ((standbyUp_held record h0).on k) fun _ => k.halted.trans (standbyUp_halted record s)

theorem execStandbyOutOfRange_held {r0 s : State} (h0 : Held r0 s) : Leads r0 (execStandbyOutOfRange s) := by
  unfold execStandbyOutOfRange
  apply Leads.next
  exact Held.moved (persistent_held h0) rfl fun _ k => absurd (show false = true from k) (by decide)

theorem execRailRegulating_held (r : Fin 8) {r0 s : State} (h0 : Held r0 s) : Leads r0 (execRailRegulating r s) := by
  unfold execRailRegulating
  apply Leads.next
  refine Held.ite h0 ?_
  have k : Steady s ((s.setReg (Obj.railState r) 2).setReg (Obj.railVoltage r) (s.nat (Obj.railSetpoint r) / 2 : Nat)) :=
    State.setReg_steady _ _ (State.setReg_steady _ _ (Steady.refl s))
  refine Held.ite ((h0.on k).on (domainsFollow_steady _ (Steady.refl _))) ?_
  split
  · rename_i g
    refine raiseRails_held (h0.on k) fun c => c.idle ?_
    have m : s.mode = .sentinel := by simpa using (show (_ ∧ _) ∧ _ by simpa using g).1.1
    rw [k.mode, m]
    rfl
  · exact h0.on k

theorem rampDown_steady  {r0 s : State} (h0 : Steady r0 s) : Steady r0 (rampDown s) := by
  unfold rampDown
  repeat' first
    | with_reducible assumption
    | with_reducible apply Steady.ite
    | with_reducible refine Steady.foldl _ _ ?_ (fun _ _ _ => ?_)
    | with_reducible apply disableRail_steady
    | split

theorem execBootRailTimeout_held (r : Fin 8) {r0 s : State} (h0 : Held r0 s) : Leads r0 (execBootRailTimeout r s) := by
  unfold execBootRailTimeout
  apply Leads.next
  split
  · rename_i g
    have m : s.mode = .sentinel := by simpa using (show ((_ ∧ _) ∧ _) ∧ _ by simpa using g).1.1.1
    have k := failStage_steady 2 r (rampDown_steady (Steady.refl s))
    exact startEnds_held (h0.on k) fun c => c.idle (by rw [k.mode, m]; rfl)
  · exact h0

theorem wakeUp_held (fromPerst : Bool) {r0 s : State} (h0 : Held r0 s) : Held r0 (wakeUp fromPerst s) := by
  unfold wakeUp
  split
  · exact h0
  · rename_i g
    have m : s.mode = .sentinel := by simpa using (show _ ∧ _ by simpa using g).1
    have k : Steady s (if !fromPerst && s.host.perst && !s.boot.wake then
        { s with boot := { s.boot with wake := true } }.emit (.pin .peWakeN 0 true s.now) else s) :=
      Steady.ite (State.emit_steady _ (Steady.lit (s := s) rfl (Steady.refl s))) (Steady.refl s)
    exact powerUp_held (h0.on k) fun c => c.idle (by rw [k.mode, m]; rfl)

theorem noteCause_steady (source : Nat) {r0 s : State} (h0 : Steady r0 s) : Steady r0 (noteCause source s) := by
  unfold noteCause
  repeat' first
    | with_reducible assumption
    | with_reducible apply Steady.ite
    | with_reducible apply State.setReg_steady
    | split

theorem resetLeaves_held (source : Nat) {r0 s : State} (h0 : Held r0 s) : Held r0 (resetLeaves source s) := by
  unfold resetLeaves
  have h1 := persistent_held (h0.on (noteCause_steady source (Steady.refl s)))
  have e : (persistent (noteCause source s)).power.halted = false := rfl
  dsimp only
  generalize noteCause source s = c at h1 e ⊢
  generalize persistent c = p at h1 e ⊢
  have h2 : Held r0 { p with mode := s.mode, target := none, boot := { p.boot with starting := true } } :=
    Held.moved h1 rfl fun _ g => absurd (e.symm.trans g) (by decide)
  exact h2.on (State.emit_steady _ (State.setReg_steady _ _ (Steady.foldl _ _ (Steady.refl _) fun _ _ h => State.setReg_steady _ _ h)))

theorem resetLeaves_halted (source : Nat) (s : State) : (resetLeaves source s).power.halted = false := by
  unfold resetLeaves
  exact (State.emit_steady _ (State.setReg_steady _ _ (Steady.foldl _ _ (Steady.refl _) fun _ _ h =>
    State.setReg_steady _ _ h))).halted

theorem keepRails_steady (s : State) {r0 p : State} (h0 : Steady r0 p) : Steady r0 (keepRails s p) := by
  unfold keepRails
  exact State.setReg_steady _ _ (Steady.foldl _ _ h0 fun _ _ h => Steady.ite (Steady.foldl _ _ h fun _ _ h => State.setReg_steady _ _ h) h)

theorem stayInSentinel_steady  {r0 s : State} (h0 : Steady r0 s) : Steady r0 (stayInSentinel s) := by
  unfold stayInSentinel
  repeat' first
    | with_reducible assumption
    | with_reducible apply setStage_steady
    | fail_if_no_progress (with_reducible refine Steady.lit (s := _) rfl ?_)

theorem deviceReset_held (source : Nat) {r0 s : State} (h0 : Held r0 s) : Held r0 (deviceReset source s) := by
  unfold deviceReset
  have h1 := resetLeaves_held source h0
  have e := resetLeaves_halted source s
  have k := stayInSentinel_steady (Steady.refl (resetLeaves source s))
  have l := keepRails_steady s (Steady.refl (resetLeaves source s))
  refine Held.ite h0 (Held.ite (enterMode_held _ _ (h1.on k) fun _ g => ?_) (raiseRails_held (h1.on l) fun _ => l.halted.trans e))
  exact absurd ((k.halted.trans e).symm.trans g) (by decide)

theorem execDeviceReset_held  {r0 s : State} (h0 : Held r0 s) : Leads r0 (execDeviceReset s) := by
  unfold execDeviceReset
  repeat' first
    | with_reducible assumption
    | with_reducible apply Leads.next
    | with_reducible apply Leads.ite
    | with_reducible apply Held.ite
    | with_reducible apply deviceReset_held
    | split

theorem countAttempt_steady  {r0 s : State} (h0 : Steady r0 s) : Steady r0 (countAttempt s) := by
  unfold countAttempt
  repeat' first
    | (extract_lets +onlyGivenNames x; refine Steady.cut (r := r0) x ?_ (fun hx => ?_); unfold x; clear x; rotate_left; clear_value x)
    | (extract_lets +onlyGivenNames x; unfold x; clear x)
    | with_reducible assumption
    | with_reducible apply Steady.ite
    | with_reducible apply State.setReg_steady
    | split

theorem execBootWatchdog_held  {r0 s : State} (h0 : Held r0 s) : Leads r0 (execBootWatchdog s) := by
  unfold execBootWatchdog
  repeat' first
    | with_reducible assumption
    | with_reducible apply Leads.next
    | with_reducible apply Leads.ite
    | with_reducible apply Held.ite
    | with_reducible apply deviceReset_held
    | with_reducible refine Held.on ?_ (countAttempt_steady (h0 := Steady.refl _) ..)
    | split

theorem execMgmtWatchdog_held  {r0 s : State} (h0 : Held r0 s) : Leads r0 (execMgmtWatchdog s) := by
  unfold execMgmtWatchdog
  repeat' first
    | with_reducible assumption
    | with_reducible apply Leads.next
    | with_reducible apply Leads.ite
    | with_reducible apply Held.ite
    | with_reducible apply deviceReset_held
    | with_reducible refine Held.on ?_ (countAttempt_steady (h0 := Steady.refl _) ..)
    | split

theorem execJtagSystemReset_held  {r0 s : State} (h0 : Held r0 s) : Leads r0 (execJtagSystemReset s) := by
  unfold execJtagSystemReset
  repeat' first
    | with_reducible assumption
    | with_reducible apply Leads.next
    | with_reducible apply Leads.ite
    | with_reducible apply Held.ite
    | with_reducible apply deviceReset_held
    | split

theorem hostReset_steady  {r0 s : State} (h0 : Steady r0 s) : Steady r0 (hostReset s) := by
  unfold hostReset
  repeat' first
    | (extract_lets +onlyGivenNames x; refine Steady.cut (r := r0) x ?_ (fun hx => ?_); unfold x; clear x; rotate_left; clear_value x)
    | (extract_lets +onlyGivenNames x; unfold x; clear x)
    | with_reducible assumption
    | with_reducible apply Steady.ite
    | with_reducible apply emptyMailbox_steady
    | with_reducible apply linkDown_steady
    | fail_if_no_progress (with_reducible refine Steady.lit (s := _) rfl ?_)
    | split

theorem execPerstAssert_held  {r0 s : State} (h0 : Held r0 s) : Leads r0 (execPerstAssert s) := by
  unfold execPerstAssert
  repeat' first
    | (extract_lets +onlyGivenNames x; refine Held.cut (r := r0) x ?_ (fun hx => ?_); unfold x; clear x; rotate_left; clear_value x)
    | (extract_lets +onlyGivenNames x; unfold x; clear x)
    | with_reducible assumption
    | with_reducible apply Leads.next
    | with_reducible apply Leads.ite
    | with_reducible apply Held.ite
    | with_reducible apply deviceReset_held
    | with_reducible refine Held.on ?_ (hostReset_steady (h0 := Steady.refl _) ..)
    | with_reducible refine Held.on ?_ (noteCause_steady (h0 := Steady.refl _) ..)
    | fail_if_no_progress (with_reducible refine Held.lit (s := _) rfl ?_)
    | split

theorem execPerstDeassert_held  {r0 s : State} (h0 : Held r0 s) : Leads r0 (execPerstDeassert s) := by
  unfold execPerstDeassert
  repeat' first
    | (extract_lets +onlyGivenNames x; refine Held.cut (r := r0) x ?_ (fun hx => ?_); unfold x; clear x; rotate_left; clear_value x)
    | (extract_lets +onlyGivenNames x; unfold x; clear x)
    | with_reducible assumption
    | with_reducible apply Leads.next
    | with_reducible apply Leads.ite
    | with_reducible apply Held.ite
    | with_reducible refine Held.on ?_ (State.emit_steady (h0 := Steady.refl _) ..)
    | with_reducible apply wakeUp_held
    | fail_if_no_progress (with_reducible refine Held.lit (s := _) rfl ?_)
    | split

theorem applyRepair_steady (r : Repair) {r0 s : State} (h0 : Steady r0 s) : Steady r0 (applyRepair r s) := by
  unfold applyRepair
  repeat' first
    | (extract_lets +onlyGivenNames x; refine Steady.cut (r := r0) x ?_ (fun hx => ?_); unfold x; clear x; rotate_left; clear_value x)
    | (extract_lets +onlyGivenNames x; unfold x; clear x)
    | with_reducible assumption
    | with_reducible apply Steady.ite
    | with_reducible apply State.updSlice_steady
    | with_reducible apply State.setReg_steady
    | with_reducible apply State.updCoefRow_steady
    | with_reducible apply retireCore_steady
    | with_reducible apply State.updXpoint_steady
    | fail_if_no_progress (with_reducible refine Steady.lit (s := _) rfl ?_)
    | split

theorem applyHard_steady  {r0 s : State} (h0 : Steady r0 s) : Steady r0 (applyHard s) := by
  unfold applyHard
  repeat' first
    | with_reducible assumption
    | with_reducible refine Steady.foldl _ _ ?_ (fun _ _ _ => ?_)
    | with_reducible apply applyRepair_steady

theorem applySoft_steady  {r0 s : State} (h0 : Steady r0 s) : Steady r0 (applySoft s) := by
  unfold applySoft
  repeat' first
    | (extract_lets +onlyGivenNames x; refine Steady.cut (r := r0) x ?_ (fun hx => ?_); unfold x; clear x; rotate_left; clear_value x)
    | (extract_lets +onlyGivenNames x; unfold x; clear x)
    | with_reducible assumption
    | with_reducible apply Steady.ite
    | with_reducible refine Steady.foldl _ _ ?_ (fun _ _ _ => ?_)
    | with_reducible apply State.raise_steady
    | with_reducible apply applyRepair_steady
    | fail_if_no_progress (with_reducible refine Steady.lit (s := _) rfl ?_)
    | split

theorem applySparedLanes_steady  {r0 s : State} (h0 : Steady r0 s) : Steady r0 (applySparedLanes s) := by
  unfold applySparedLanes
  repeat' first
    | with_reducible assumption
    | with_reducible apply Steady.ite
    | with_reducible refine Steady.foldl _ _ ?_ (fun _ _ _ => ?_)
    | with_reducible apply State.updGroup_steady
    | fail_if_no_progress (with_reducible refine Steady.lit (s := _) rfl ?_)
    | split

theorem selfTestFails_steady  {r0 s : State} (h0 : Steady r0 s) : Steady r0 (selfTestFails s) := by
  unfold selfTestFails
  repeat' first
    | (extract_lets +onlyGivenNames x; refine Steady.cut (r := r0) x ?_ (fun hx => ?_); unfold x; clear x; rotate_left; clear_value x)
    | (extract_lets +onlyGivenNames x; refine Steady.cut2 (r := r0) x ?_ (fun hx => ?_); unfold x; clear x; rotate_left; clear_value x)
    | (extract_lets +onlyGivenNames x; refine Steady.cut1 (r := r0) x ?_ (fun hx => ?_); unfold x; clear x; rotate_left; clear_value x)
    | (extract_lets +onlyGivenNames x; unfold x; clear x)
    | with_reducible assumption
    | with_reducible apply Steady.ite
    | with_reducible apply State.free_steady
    | with_reducible apply audit_steady
    | with_reducible apply State.setReg_steady
    | with_reducible apply failStage_steady
    | with_reducible apply alarmEval_steady
    | with_reducible apply watchConditions_steady
    | with_reducible apply State.report_steady
    | fail_if_no_progress (with_reducible refine Steady.lit (s := _) rfl ?_)
    | split

theorem tellTorn_steady  {r0 s : State} (h0 : Steady r0 s) : Steady r0 (tellTorn s) := by
  unfold tellTorn
  repeat' first
    | (extract_lets +onlyGivenNames x; refine Steady.cut (r := r0) x ?_ (fun hx => ?_); unfold x; clear x; rotate_left; clear_value x)
    | (extract_lets +onlyGivenNames x; unfold x; clear x)
    | with_reducible assumption
    | with_reducible refine Steady.foldl _ _ ?_ (fun _ _ _ => ?_)
    | with_reducible apply audit_steady
    | fail_if_no_progress (with_reducible refine Steady.lit (s := _) rfl ?_)

theorem makeAttestation_steady  {r0 s : State} (h0 : Steady r0 s) : Steady r0 (makeAttestation s) := by
  unfold makeAttestation
  repeat' first
    | with_reducible assumption
    | with_reducible apply Steady.ite
    | fail_if_no_progress (with_reducible refine Steady.lit (s := _) rfl ?_)
    | split

theorem enterRecovery_held {r0 s : State} (h0 : Held r0 s) (n : HaltHeld s → s.power.halted = false) : Held r0 (enterRecovery s) :=
  Held.moved h0 rfl fun k g => absurd ((n k).symm.trans g) (by decide)

theorem rejectSlot_held (slot k : Nat) {r0 s : State} (h0 : Held r0 s) (n : s.power.halted = false) : Held r0 (rejectSlot slot k s) := by
  unfold rejectSlot
  have l : Steady s ((((audit 0x02 .device 0 0 0 (leBytes 1 slot ++ leBytes 1 k) false
      { s with sec := { s.sec with slots := Table.set {} s.sec.slots slot { (Table.get {} s.sec.slots slot : PeonySlot) with valid := false } },
               boot := { s.boot with toTry := s.boot.toTry.drop 1 } }).raise .firmwareRejected [slot, k]).setReg Obj.bootSlot 0x80)) :=
    State.setReg_steady _ _ (State.raise_steady _ _ _ (audit_steady _ _ _ _ _ _ _ (Steady.lit (s := s) rfl (Steady.refl s))))
  have l' := setStage_steady 8 l
  exact Held.ite (enterRecovery_held (h0.on l') fun _ => l'.halted.trans n) (h0.on l)

theorem toConfigure_held {r0 s : State} (h0 : Held r0 s) (n : HaltHeld s → s.power.halted = false) : Held r0 (toConfigure s) :=
  Held.moved h0 rfl fun k g => absurd ((n k).symm.trans g) (by decide)

theorem runSlot_held (slot : Nat) (c : SlotCheck) {r0 s : State} (h0 : Held r0 s) (n : s.power.halted = false) :
    Held r0 (runSlot slot c s) := by
  unfold runSlot
  have l (x : Table PeonySlot) : Steady s
      { s with boot := { s.boot with peony := true, toTry := [] }, sec := { s.sec with running := slot, slots := x } } :=
    Steady.lit (s := s) rfl (Steady.refl s)
  exact (toConfigure_held (h0.on (l _)) fun _ => n).on (setStage_steady _ (State.setReg_steady _ _ (State.setReg_steady _ _ (Steady.refl _))))

theorem execBootSlotVerify_held (slot : Fin 2) (c : SlotCheck) {r0 s : State} (h0 : Held r0 s) : Leads r0 (execBootSlotVerify slot c s) := by
  unfold execBootSlotVerify
  split
  · exact Leads.next h0
  · rename_i g
    have n : s.power.halted = false := by
      simp only [Bool.or_eq_true, not_or, Bool.not_eq_true] at g
      exact g.1.1.1.2
    apply Leads.next
    split
    · exact rejectSlot_held _ _ h0 n
    · exact runSlot_held _ _ h0 n

end Sys2Proof.Machine
end

