-- ==== Sys2Proof/Laws/SteadyModes.lean ====
section
/-! SUPPORT. What the operations of Machine/Modes.lean keep. -/
namespace Sys2Proof.Machine

set_option linter.unusedTactic false
set_option linter.unreachableTactic false

theorem unitsFollow_steady  {r0 s : State} (h0 : Steady r0 s) : Steady r0 (unitsFollow s) := by
  unfold unitsFollow
  repeat' first
    | (extract_lets +onlyGivenNames x; refine Steady.cut (r := r0) x ?_ (fun hx => ?_); unfold x; clear x; rotate_left; clear_value x)
    | (extract_lets +onlyGivenNames x; unfold x; clear x)
    | with_reducible assumption
    | with_reducible apply Steady.ite
    | with_reducible refine Steady.foldl _ _ ?_ (fun _ _ _ => ?_)
    | with_reducible apply laneDown_steady
    | with_reducible apply portDown_steady
    | with_reducible apply portUp_steady
    | split

theorem trainLanes_steady (pick : LaneState → Bool) {r0 s : State} (h0 : Steady r0 s) : Steady r0 (trainLanes pick s) := by
  unfold trainLanes
  repeat' first
    | with_reducible assumption
    | with_reducible apply Steady.ite
    | with_reducible refine Steady.foldl _ _ ?_ (fun _ _ _ => ?_)
    | with_reducible apply startTraining_steady
    | split

theorem tryOpen_steady (st : Nat) {r0 s : State} (h0 : Steady r0 s) : Steady r0 (tryOpen st s) := by
  unfold tryOpen
  repeat' first
    | with_reducible assumption
    | with_reducible apply Steady.ite
    | with_reducible apply openStream_steady
    | with_reducible apply State.raise_steady
    | split

theorem openHeld_steady  {r0 s : State} (h0 : Steady r0 s) : Steady r0 (openHeld s) := by
  unfold openHeld
  repeat' first
    | with_reducible assumption
    | with_reducible apply Steady.ite
    | with_reducible refine Steady.foldl _ _ ?_ (fun _ _ _ => ?_)
    | with_reducible apply tryOpen_steady
    | split

theorem leaveStreams_steady  {r0 s : State} (h0 : Steady r0 s) : Steady r0 (leaveStreams s) := by
  unfold leaveStreams
  repeat' first
    | (extract_lets +onlyGivenNames x; refine Steady.cut (r := r0) x ?_ (fun hx => ?_); unfold x; clear x; rotate_left; clear_value x)
    | (extract_lets +onlyGivenNames x; unfold x; clear x)
    | with_reducible assumption
    | with_reducible apply Steady.ite
    | with_reducible refine Steady.foldl _ _ ?_ (fun _ _ _ => ?_)
    | with_reducible apply stopRequest_steady
    | with_reducible apply closeStream_steady
    | split

theorem startHold_steady  {r0 s : State} (h0 : Steady r0 s) : Steady r0 (startHold s) := by
  unfold startHold
  repeat' first
    | (extract_lets +onlyGivenNames x; refine Steady.cut (r := r0) x ?_ (fun hx => ?_); unfold x; clear x; rotate_left; clear_value x)
    | (extract_lets +onlyGivenNames x; unfold x; clear x)
    | with_reducible assumption
    | with_reducible apply Steady.ite
    | with_reducible refine Steady.foldl _ _ ?_ (fun _ _ _ => ?_)
    | with_reducible apply State.updStrm_steady
    | with_reducible apply transEnter_steady
    | with_reducible apply stopRequest_steady
    | fail_if_no_progress (with_reducible refine Steady.lit (s := _) rfl ?_)
    | split

theorem returnToBackup_steady (u : Nat) {r0 s : State} (h0 : Steady r0 s) : Steady r0 (returnToBackup u s) := by
  unfold returnToBackup
  repeat' first
    | (extract_lets +onlyGivenNames x; refine Steady.cut (r := r0) x ?_ (fun hx => ?_); unfold x; clear x; rotate_left; clear_value x)
    | (extract_lets +onlyGivenNames x; unfold x; clear x)
    | with_reducible assumption
    | with_reducible apply Steady.ite
    | with_reducible apply State.updTrans_steady
    | with_reducible apply State.updMotion_steady
    | fail_if_no_progress (with_reducible refine Steady.lit (s := _) rfl ?_)
    | split

theorem resumeStream_steady (st : Nat) {r0 s : State} (h0 : Steady r0 s) : Steady r0 (resumeStream st s) := by
  unfold resumeStream
  repeat' first
    | (extract_lets +onlyGivenNames x; refine Steady.cut (r := r0) x ?_ (fun hx => ?_); unfold x; clear x; rotate_left; clear_value x)
    | (extract_lets +onlyGivenNames x; unfold x; clear x)
    | with_reducible assumption
    | with_reducible apply Steady.ite
    | with_reducible apply State.setGen_steady
    | with_reducible apply State.setReg_steady
    | fail_if_no_progress (with_reducible refine Steady.lit (s := _) rfl ?_)
    | split

theorem exitHold_steady  {r0 s : State} (h0 : Steady r0 s) : Steady r0 (exitHold s) := by
  unfold exitHold
  repeat' first
    | (extract_lets +onlyGivenNames x; refine Steady.cut (r := r0) x ?_ (fun hx => ?_); unfold x; clear x; rotate_left; clear_value x)
    | (extract_lets +onlyGivenNames x; unfold x; clear x)
    | with_reducible assumption
    | with_reducible apply Steady.ite
    | with_reducible refine Steady.foldl _ _ ?_ (fun _ _ _ => ?_)
    | with_reducible apply resumeStream_steady
    | with_reducible apply returnToBackup_steady
    | with_reducible apply State.updStrm_steady
    | with_reducible apply tryOpen_steady
    | with_reducible apply closeStream_steady
    | fail_if_no_progress (with_reducible refine Steady.lit (s := _) rfl ?_)
    | split

theorem startDegraded_held (r : FaultReport) {r0 s : State} (h0 : Held r0 s) (n : HaltHeld s → s.power.halted = false) :
    Held r0 (startDegraded r s) := by
  unfold startDegraded
  have h1 : Held r0 { s with target := some .degraded, power := { s.power with leftFor := s.mode, degradeDue := none } } :=
    Held.moved h0 rfl fun k g => absurd ((n k).symm.trans g) (by decide)
  exact h1.on (State.setReg_steady _ _ (Steady.refl _))

/-- Where Degraded may be decided no halt is in force. -/
theorem HaltHeld.free {s : State} (h : HaltHeld s) (t : s.target = none) (m : s.mode ≠ .safeHalt) : s.power.halted = false := by
  by_contra e
  exact m (h.aim (by simpa using e) (by rw [t]; decide)).1

theorem degradeAgain_held {r0 s : State} (h0 : Held r0 s) : Held r0 (degradeAgain s) := by
  unfold degradeAgain
  extract_lets due
  clear_value due
  split
  · rename_i r
    split
    · rename_i g
      have g' : s.target.isNone = true ∧ s.mode.degradable = true := by simpa using g
      refine startDegraded_held r h0 fun c => c.free (by simpa using g'.1) fun m => ?_
      rw [m] at g'
      exact absurd g'.2 (by decide)
    · exact h0
  · exact Held.lit (s := s) rfl h0

theorem restoreDue_held {r0 s : State} (h0 : Held r0 s) : Held r0 (restoreDue s) := by
  unfold restoreDue
  split
  · rename_i g
    simp only [Bool.and_eq_true, beq_iff_eq, Option.isNone_iff_eq_none] at g
    refine Held.moved h0 rfl fun c k => ?_
    have := c.free g.1.2 (by rw [g.1.1]; decide)
    exact absurd (this.symm.trans k) (by decide)
  · exact h0

theorem allocateRings_steady {r0 s : State} (h0 : Steady r0 s) : Steady r0 (allocateRings s) := by
  unfold allocateRings
  refine Steady.table h0 rfl rfl rfl rfl fun c => { c with rings := ?_ }
  generalize List.range 64 = l
  suffices h : ∀ t : Table Ring × Nat, Table.rising t.1 → Table.rising (l.foldl (fun (t : Table Ring × Nat) st =>
    let a := s.areasOf st
    if a.1 = 0 then t
    else (Table.set {} t.1 st { allocated := true, base := t.2, recordBase := t.2 + a.1, edgeBase := t.2 + a.1 + a.2.1 },
      t.2 + a.1 + a.2.1 + a.2.2)) t).1 from h _ Table.rising_nil
  induction l with
  | nil => exact fun _ h => h
  | cons x l ih =>
    intro t h
    refine ih _ ?_
    dsimp only
    split
    · exact h
    · exact Table.rising_set _ _ _ _ h

theorem enterWaiting_steady  {r0 s : State} (h0 : Steady r0 s) : Steady r0 (enterWaiting s) := by
  unfold enterWaiting
  repeat' first
    | with_reducible assumption
    | with_reducible refine Steady.foldl _ _ ?_ (fun _ _ _ => ?_)
    | with_reducible apply enterPlain_steady

theorem groupsDown_steady  {r0 s : State} (h0 : Steady r0 s) : Steady r0 (groupsDown s) := by
  unfold groupsDown
  repeat' first
    | with_reducible assumption
    | with_reducible apply Steady.ite
    | with_reducible refine Steady.foldl _ _ ?_ (fun _ _ _ => ?_)
    | with_reducible apply State.updGroup_steady
    | fail_if_no_progress (with_reducible refine Steady.lit (s := _) rfl ?_)
    | split

theorem groupsLink_steady  {r0 s : State} (h0 : Steady r0 s) : Steady r0 (groupsLink s) := by
  unfold groupsLink
  repeat' first
    | (extract_lets +onlyGivenNames x; refine Steady.cut (r := r0) x ?_ (fun hx => ?_); unfold x; clear x; rotate_left; clear_value x)
    | (extract_lets +onlyGivenNames x; unfold x; clear x)
    | with_reducible assumption
    | with_reducible apply Steady.ite
    | with_reducible refine Steady.foldl _ _ ?_ (fun _ _ _ => ?_)
    | with_reducible apply State.updGroup_steady
    | fail_if_no_progress (with_reducible refine Steady.lit (s := _) rfl ?_)
    | split

theorem configureEntry_steady  {r0 s : State} (h0 : Steady r0 s) : Steady r0 (configureEntry s) := by
  unfold configureEntry
  repeat' first
    | (extract_lets +onlyGivenNames x; refine Steady.cut (r := r0) x ?_ (fun hx => ?_); unfold x; clear x; rotate_left; clear_value x)
    | (extract_lets +onlyGivenNames x; unfold x; clear x)
    | with_reducible assumption
    | with_reducible apply Steady.ite
    | with_reducible refine Steady.foldl _ _ ?_ (fun _ _ _ => ?_)
    | with_reducible apply fetchesGone_steady
    | with_reducible apply State.setReg_steady
    | with_reducible apply refreshConfig_steady
    | with_reducible apply unitsFollow_steady
    | with_reducible apply groupsDown_steady
    | with_reducible apply enterWaiting_steady
    | with_reducible apply domainsFollow_steady
    | with_reducible apply State.updLane_steady
    | with_reducible apply trainLanes_steady
    | (refine Steady.table (s := x) hx rfl rfl rfl rfl fun c => { c with rings := Table.rising_nil })
    | fail_if_no_progress (with_reducible refine Steady.lit (s := _) rfl ?_)
    | split

theorem firstConfigure_steady  {r0 s : State} (h0 : Steady r0 s) : Steady r0 (firstConfigure s) := by
  unfold firstConfigure
  repeat' first
    | (extract_lets +onlyGivenNames x; refine Steady.cut (r := r0) x ?_ (fun hx => ?_); unfold x; clear x; rotate_left; clear_value x)
    | (extract_lets +onlyGivenNames x; unfold x; clear x)
    | with_reducible assumption
    | with_reducible apply applySoft_steady
    | with_reducible apply setStage_steady
    | with_reducible apply audit_steady
    | with_reducible apply State.setReg_steady
    | with_reducible apply watchConditions_steady
    | fail_if_no_progress (with_reducible refine Steady.lit (s := _) rfl ?_)

theorem endTests_steady  {r0 s : State} (h0 : Steady r0 s) : Steady r0 (endTests s) := by
  unfold endTests
  repeat' first
    | (extract_lets +onlyGivenNames x; refine Steady.cut (r := r0) x ?_ (fun hx => ?_); unfold x; clear x; rotate_left; clear_value x)
    | (extract_lets +onlyGivenNames x; unfold x; clear x)
    | with_reducible assumption
    | with_reducible apply Steady.ite
    | with_reducible refine Steady.foldl _ _ ?_ (fun _ _ _ => ?_)
    | with_reducible apply endTest_steady
    | with_reducible apply State.setReg_steady
    | with_reducible apply State.updConv_steady
    | with_reducible apply convFree_steady
    | fail_if_no_progress (with_reducible refine Steady.lit (s := _) rfl ?_)
    | split

theorem noteReached_steady  {r0 s : State} (h0 : Steady r0 s) : Steady r0 (noteReached s) := by
  unfold noteReached
  repeat' first
    | with_reducible assumption
    | with_reducible apply Steady.ite
    | with_reducible apply State.setReg_steady
    | fail_if_no_progress (with_reducible refine Steady.lit (s := _) rfl ?_)
    | split

theorem startMode_held (m : Mode) {r0 s : State} (h0 : Held r0 s) (n : HaltHeld s → s.power.halted = false) : Held r0 (startMode m s) := by
  have aim (t : Option Mode) {a : State} (k : Steady s a) : Held r0 { a with target := t } :=
    Held.moved (h0.on k) rfl fun c g => by
      have c' : HaltHeld s := by
        have := c
        unfold HaltHeld at this ⊢
        rwa [k.mode, k.target, k.halted] at this
      exact absurd ((n c').symm.trans (k.halted.symm.trans g)) (by decide)
  cases m <;> unfold startMode <;> dsimp only
  case safeHalt => exact safeHalt_held _ _ h0
  case hold => exact Held.ite (aim _ (Steady.refl s)) ((aim _ (Steady.refl s)).on (startHold_steady (Steady.refl _)))
  case idleReady =>
    refine Held.ite ?_ ((aim _ (Steady.refl s)).on (leaveStreams_steady (Steady.refl _)))
    exact (aim _ (applySparedLanes_steady (Steady.refl s))).on (groupsLink_steady (trainLanes_steady _ (domainsFollow_steady _
      (unitsFollow_steady (Steady.refl _)))))
  case configure => exact (aim _ (Steady.refl s)).on (leaveStreams_steady (Steady.refl _))
  case maintenance => exact (aim _ (Steady.refl s)).on (leaveStreams_steady (Steady.refl _))
  case stream => exact (aim _ (Steady.refl s)).on (domainsFollow_steady _ (Steady.refl _))
  all_goals exact aim _ (Steady.refl s)

theorem requestMode_held (role : Nat) (m : Mode) {r0 s : State} (h0 : Held r0 s) : Held r0 (requestMode role m s) := by
  unfold requestMode
  split
  · exact h0
  · rename_i e
    refine startMode_held m h0 fun _ => ?_
    unfold modeError at e
    by_contra g
    split at e
    · exact absurd e (by simp)
    · have g' : s.power.halted = true := by simpa using g
      simp [g'] at e

theorem execModeRequestSentinel_held (r : Role) {r0 s : State} (h0 : Held r0 s) : Leads r0 (execModeRequestSentinel r s) := by
  unfold execModeRequestSentinel
  repeat' first
    | with_reducible assumption
    | with_reducible apply Leads.next
    | with_reducible apply requestMode_held

theorem execModeRequestConfigure_held (r : Role) {r0 s : State} (h0 : Held r0 s) : Leads r0 (execModeRequestConfigure r s) := by
  unfold execModeRequestConfigure
  repeat' first
    | with_reducible assumption
    | with_reducible apply Leads.next
    | with_reducible apply requestMode_held

theorem execModeRequestCalibrate_held (r : Role) {r0 s : State} (h0 : Held r0 s) : Leads r0 (execModeRequestCalibrate r s) := by
  unfold execModeRequestCalibrate
  repeat' first
    | with_reducible assumption
    | with_reducible apply Leads.next
    | with_reducible apply requestMode_held

theorem execModeRequestIdleReady_held (r : Role) {r0 s : State} (h0 : Held r0 s) : Leads r0 (execModeRequestIdleReady r s) := by
  unfold execModeRequestIdleReady
  repeat' first
    | with_reducible assumption
    | with_reducible apply Leads.next
    | with_reducible apply requestMode_held

theorem execModeRequestScan_held (r : Role) {r0 s : State} (h0 : Held r0 s) : Leads r0 (execModeRequestScan r s) := by
  unfold execModeRequestScan
  repeat' first
    | with_reducible assumption
    | with_reducible apply Leads.next
    | with_reducible apply requestMode_held

theorem execModeRequestStream_held (r : Role) {r0 s : State} (h0 : Held r0 s) : Leads r0 (execModeRequestStream r s) := by
  unfold execModeRequestStream
  repeat' first
    | with_reducible assumption
    | with_reducible apply Leads.next
    | with_reducible apply requestMode_held

theorem execModeRequestHold_held (r : Role) {r0 s : State} (h0 : Held r0 s) : Leads r0 (execModeRequestHold r s) := by
  unfold execModeRequestHold
  repeat' first
    | with_reducible assumption
    | with_reducible apply Leads.next
    | with_reducible apply requestMode_held

theorem execModeRequestMaintenance_held (r : Role) {r0 s : State} (h0 : Held r0 s) : Leads r0 (execModeRequestMaintenance r s) := by
  unfold execModeRequestMaintenance
  repeat' first
    | with_reducible assumption
    | with_reducible apply Leads.next
    | with_reducible apply requestMode_held

theorem execModeRequestSafeHalt_held (r : Role) {r0 s : State} (h0 : Held r0 s) : Leads r0 (execModeRequestSafeHalt r s) := by
  unfold execModeRequestSafeHalt
  repeat' first
    | with_reducible assumption
    | with_reducible apply Leads.next
    | with_reducible apply requestMode_held

theorem modeEntry_steady (m from_ : Mode) {r0 s : State} (h0 : Steady r0 s) : Steady r0 (modeEntry m from_ s) := by
  unfold modeEntry
  repeat' first
    | (extract_lets +onlyGivenNames x; refine Steady.cut (r := r0) x ?_ (fun hx => ?_); unfold x; clear x; rotate_left; clear_value x)
    | (extract_lets +onlyGivenNames x; unfold x; clear x)
    | with_reducible assumption
    | with_reducible apply Steady.ite
    | with_reducible refine Steady.foldl _ _ ?_ (fun _ _ _ => ?_)
    | with_reducible apply configureEntry_steady
    | with_reducible apply firstConfigure_steady
    | with_reducible apply allocateRings_steady
    | with_reducible apply refreshConfig_steady
    | with_reducible apply endTests_steady
    | with_reducible apply noteReached_steady
    | with_reducible apply openHeld_steady
    | with_reducible apply requestCal_steady
    | with_reducible apply exitHold_steady
    | fail_if_no_progress (with_reducible refine Steady.lit (s := _) rfl ?_)
    | split

theorem reachMode_held (m : Mode) {r0 s : State} (h0 : Held r0 s)
    (n : HaltHeld s → s.power.halted = true → m = .sentinel ∨ m = .safeHalt) : Held r0 (reachMode m s) := by
  unfold reachMode
  split
  · exact deviceReset_held _ h0
  · rename_i g
    have h1 : Held r0 (modeEntry m s.mode (enterMode m (s.modeCause m) s)) :=
      (enterMode_held m _ h0 fun c k => (n c k).resolve_left (by simpa using g)).on (modeEntry_steady _ _ (Steady.refl _))
    exact degradeAgain_held (restoreDue_held (h1.on (domainsFollow_steady _ (Steady.ite (State.raise_steady _ _ _ (Steady.refl _))
      (Steady.refl _)))))

theorem execModeTransitionDone_held {r0 s : State} (h0 : Held r0 s) : Leads r0 (execModeTransitionDone s) := by
  unfold execModeTransitionDone
  apply Leads.next
  split
  · rename_i m e
    refine Held.ite (reachMode_held m h0 fun c k => ?_) h0
    by_cases t : s.target = some .safeHalt
    · exact Or.inr (by rw [e] at t; simpa using t)
    · exact absurd (c.aim k t).2 (by rw [e]; simp)
  · exact h0

theorem execHoldEntry_held {r0 s : State} (h0 : Held r0 s) : Leads r0 (execHoldEntry s) := by
  unfold execHoldEntry
  apply Leads.next
  split
  · rename_i g
    have t : s.target = some .hold := by simpa using (show (_ ∧ _) ∧ _ by simpa using g).1.1
    have k := Steady.foldl (List.range 64) (fun s st => if s.triggering st then s.updGen st fun g => { g with held := true } else s)
      (Steady.refl s) fun _ _ h => Steady.ite (State.updGen_steady _ _ h) h
    dsimp only
    generalize List.foldl _ s _ = a at k
    have l : Steady s { a with power := { a.power with heldFrom := a.mode } } := Steady.lit (s := a) rfl k
    refine reachMode_held .hold (h0.on l) fun c g => ?_
    exact absurd (c.aim g (by rw [l.target, t]; decide)).2 (by rw [l.target, t]; simp)
  · exact h0

theorem writeStreamEnable_steady (st : Nat) (v : Bool) {r0 s : State} (h0 : Steady r0 s) : Steady r0 (writeStreamEnable st v s) := by
  unfold writeStreamEnable
  repeat' first
    | (extract_lets +onlyGivenNames x; refine Steady.cut (r := r0) x ?_ (fun hx => ?_); unfold x; clear x; rotate_left; clear_value x)
    | (extract_lets +onlyGivenNames x; unfold x; clear x)
    | with_reducible assumption
    | with_reducible apply Steady.ite
    | with_reducible apply tryOpen_steady
    | with_reducible apply State.setReg_steady
    | with_reducible apply domainsFollow_steady
    | with_reducible apply closeStream_steady
    | with_reducible apply State.updStrm_steady
    | fail_if_no_progress (with_reducible refine Steady.lit (s := _) rfl ?_)
    | split

theorem execStreamOpen_steady (st : Fin 64) {r0 s : State} (h0 : Steady r0 s) : Ends r0 (execStreamOpen st s) := by
  unfold execStreamOpen
  repeat' first
    | with_reducible assumption
    | with_reducible apply Ends.next
    | with_reducible apply writeStreamEnable_steady

theorem execStreamClose_steady (st : Fin 64) {r0 s : State} (h0 : Steady r0 s) : Ends r0 (execStreamClose st s) := by
  unfold execStreamClose
  repeat' first
    | with_reducible assumption
    | with_reducible apply Ends.next
    | with_reducible apply writeStreamEnable_steady

end Sys2Proof.Machine
end

