-- ==== Sys2Proof/Laws/SteadySecurity.lean ====
section
/-! SUPPORT. What the operations of Machine/Security.lean keep. -/
namespace Sys2Proof.Machine

set_option linter.unusedTactic false
set_option linter.unreachableTactic false

theorem failWaiting_steady  {r0 s : State} (h0 : Steady r0 s) : Steady r0 (failWaiting s) := by
  unfold failWaiting
  repeat' first
    | (extract_lets +onlyGivenNames x; refine Steady.cut (r := r0) x ?_ (fun hx => ?_); unfold x; clear x; rotate_left; clear_value x)
    | (extract_lets +onlyGivenNames x; unfold x; clear x)
    | with_reducible assumption
    | with_reducible refine Steady.foldl _ _ ?_ (fun _ _ _ => ?_)
    | with_reducible apply sealFailed_steady
    | fail_if_no_progress (with_reducible refine Steady.lit (s := _) rfl ?_)

theorem closeOthers_steady (keep : Nat) {r0 s : State} (h0 : Steady r0 s) : Steady r0 (closeOthers keep s) := by
  unfold closeOthers
  repeat' first
    | with_reducible assumption
    | with_reducible refine Steady.foldl _ _ ?_ (fun _ _ _ => ?_)
    | with_reducible apply closeSession_steady

theorem zeroise_steady (trigger keep : Nat) {r0 s : State} (h0 : Steady r0 s) : Steady r0 (zeroise trigger keep s) := by
  unfold zeroise
  repeat' first
    | (extract_lets +onlyGivenNames x; refine Steady.cut (r := r0) x ?_ (fun hx => ?_); unfold x; clear x; rotate_left; clear_value x)
    | (extract_lets +onlyGivenNames x; unfold x; clear x)
    | with_reducible assumption
    | with_reducible apply Steady.ite
    | with_reducible apply closeOthers_steady
    | with_reducible apply failWaiting_steady
    | fail_if_no_progress (with_reducible refine Steady.lit (s := _) rfl ?_)
    | split

theorem execZeroise_steady  {r0 s : State} (h0 : Steady r0 s) : Ends r0 (execZeroise s) := by
  unfold execZeroise
  repeat' first
    | with_reducible assumption
    | with_reducible apply Ends.next
    | with_reducible apply Ends.ite
    | with_reducible apply Steady.ite
    | with_reducible apply zeroise_steady
    | split

theorem execZeroised_steady  {r0 s : State} (h0 : Steady r0 s) : Ends r0 (execZeroised s) := by
  unfold execZeroised
  repeat' first
    | (extract_lets +onlyGivenNames x; refine Steady.cut (r := r0) x ?_ (fun hx => ?_); unfold x; clear x; rotate_left; clear_value x)
    | (extract_lets +onlyGivenNames x; unfold x; clear x)
    | with_reducible assumption
    | with_reducible apply Ends.next
    | with_reducible apply audit_steady
    | with_reducible apply State.raise_steady
    | fail_if_no_progress (with_reducible refine Steady.lit (s := _) rfl ?_)
    | split

theorem tamperRespond_held (bits : Nat) {r0 s : State} (h0 : Held r0 s) : Held r0 (tamperRespond bits s) := by
  unfold tamperRespond
  repeat' first
    | (extract_lets +onlyGivenNames x; refine Held.cut (r := r0) x ?_ (fun hx => ?_); unfold x; clear x; rotate_left; clear_value x)
    | (extract_lets +onlyGivenNames x; unfold x; clear x)
    | with_reducible assumption
    | with_reducible apply Held.ite
    | with_reducible refine Held.on ?_ (audit_steady (h0 := Steady.refl _) ..)
    | with_reducible refine Held.on ?_ (State.raise_steady (h0 := Steady.refl _) ..)
    | with_reducible refine Held.on ?_ (zeroise_steady (h0 := Steady.refl _) ..)
    | with_reducible apply safeHalt_held
    | with_reducible refine Held.on ?_ (State.report_steady (h0 := Steady.refl _) ..)
    | with_reducible refine Held.on ?_ (alarmEval_steady (h0 := Steady.refl _) ..)
    | split

theorem execTamperDetected_held (inputs : BitVec 4) (sensors : BitVec 8) {r0 s : State} (h0 : Held r0 s) :
    Leads r0 (execTamperDetected inputs sensors s) := by
  unfold execTamperDetected
  extract_lets on bits src s1 s2
  have h1 : Held r0 s1 := Held.lit (s := s) rfl h0
  have h2 : Held r0 s2 := h1.on (State.setReg_steady _ _ (Steady.refl _))
  clear_value s2 bits
  exact Leads.next (Held.ite h0 (Held.ite (wakeUp_held _ h2) (Held.ite h2 (tamperRespond_held _ h2))))

theorem tamperClear_steady (inputs : Nat) {r0 s : State} (h0 : Steady r0 s) : Steady r0 (tamperClear inputs s) := by
  unfold tamperClear
  repeat' first
    | (extract_lets +onlyGivenNames x; refine Steady.cut (r := r0) x ?_ (fun hx => ?_); unfold x; clear x; rotate_left; clear_value x)
    | (extract_lets +onlyGivenNames x; unfold x; clear x)
    | with_reducible assumption
    | with_reducible apply alarmEval_steady
    | with_reducible apply State.setReg_steady
    | fail_if_no_progress (with_reducible refine Steady.lit (s := _) rfl ?_)

theorem execTamperClear_steady (inputs : BitVec 4) {r0 s : State} (h0 : Steady r0 s) : Ends r0 (execTamperClear inputs s) := by
  unfold execTamperClear
  repeat' first
    | with_reducible assumption
    | with_reducible apply Ends.next
    | with_reducible apply tamperClear_steady

theorem selfTestRun_steady  {r0 s : State} (h0 : Steady r0 s) : Steady r0 (selfTestRun s) := by
  unfold selfTestRun
  repeat' first
    | with_reducible assumption
    | with_reducible apply alarmEval_steady
    | with_reducible apply watchConditions_steady
    | with_reducible apply State.setReg_steady

theorem execSelfTestRun_steady  {r0 s : State} (h0 : Steady r0 s) : Ends r0 (execSelfTestRun s) := by
  unfold execSelfTestRun
  repeat' first
    | with_reducible assumption
    | with_reducible apply Ends.next
    | with_reducible apply Ends.ite
    | with_reducible apply Steady.ite
    | with_reducible apply selfTestRun_steady
    | split

theorem execSelfTestDone_held (passed : Bool) {r0 s : State} (h0 : Held r0 s) : Leads r0 (execSelfTestDone passed s) := by
  unfold execSelfTestDone
  have k := State.setReg_steady Obj.securityState 1 (Steady.refl s)
  refine Leads.next (Held.ite h0 (Held.ite (h0.on (failWaiting_steady (selfTestFails_steady (Steady.refl s)))) (Held.ite h0 (Held.ite ?_
    ((h0.on k).on (alarmEval_steady (watchConditions_steady (Steady.refl _))))))))
  have h1 : Held r0 (makeAttestation (tellTorn (applyHard (setStage 4 (s.setReg Obj.securityState 1))))) :=
    h0.on (makeAttestation_steady (tellTorn_steady (applyHard_steady (setStage_steady 4 k))))
  dsimp only
  generalize makeAttestation _ = a at h1 ⊢
  have h2 : Held r0 { a with boot := { a.boot with tested := true, toTry := a.slotOrder } } := Held.lit (s := a) rfl h1
  exact Held.ite h2 (tamperRespond_held _ h2)

theorem execVendorServiceEnable_steady (v : Bool) {r0 s : State} (h0 : Steady r0 s) : Ends r0 (execVendorServiceEnable v s) := by
  unfold execVendorServiceEnable
  repeat' first
    | with_reducible assumption
    | with_reducible apply Ends.next
    | with_reducible apply Ends.ite
    | with_reducible apply Steady.ite
    | with_reducible apply State.setReg_steady
    | split

theorem setRoleKey_steady (a : Actor) (r : Nat) (key : Bytes) {r0 s : State} (h0 : Steady r0 s) : Steady r0 (setRoleKey a r key s) := by
  unfold setRoleKey
  repeat' first
    | (extract_lets +onlyGivenNames x; refine Steady.cut (r := r0) x ?_ (fun hx => ?_); unfold x; clear x; rotate_left; clear_value x)
    | (extract_lets +onlyGivenNames x; unfold x; clear x)
    | with_reducible assumption
    | with_reducible apply audit_steady
    | fail_if_no_progress (with_reducible refine Steady.lit (s := _) rfl ?_)

theorem execRoleKeySet_steady (r : Fin 3) (key : Bytes) {r0 s : State} (h0 : Steady r0 s) : Ends r0 (execRoleKeySet r key s) := by
  unfold execRoleKeySet
  repeat' first
    | with_reducible assumption
    | with_reducible apply Ends.next
    | with_reducible apply Ends.ite
    | with_reducible apply Steady.ite
    | with_reducible apply setRoleKey_steady
    | split

theorem debugUnlock_steady (a : Actor) {r0 s : State} (h0 : Steady r0 s) : Steady r0 (debugUnlock a s) := by
  unfold debugUnlock
  repeat' first
    | (extract_lets +onlyGivenNames x; refine Steady.cut (r := r0) x ?_ (fun hx => ?_); unfold x; clear x; rotate_left; clear_value x)
    | (extract_lets +onlyGivenNames x; unfold x; clear x)
    | with_reducible assumption
    | with_reducible apply audit_steady
    | with_reducible apply zeroise_steady
    | fail_if_no_progress (with_reducible refine Steady.lit (s := _) rfl ?_)

theorem execDebugUnlock_steady  {r0 s : State} (h0 : Steady r0 s) : Ends r0 (execDebugUnlock s) := by
  unfold execDebugUnlock
  repeat' first
    | with_reducible assumption
    | with_reducible apply Ends.next
    | with_reducible apply Ends.ite
    | with_reducible apply Steady.ite
    | with_reducible apply debugUnlock_steady
    | split

theorem lwBurn_steady (a : Actor) (i sub uses : Nat) (value : Bytes) {r0 s : State} (h0 : Steady r0 s) : Steady r0 (lwBurn a i sub uses value s) := by
  unfold lwBurn
  repeat' first
    | (extract_lets +onlyGivenNames x; refine Steady.cut (r := r0) x ?_ (fun hx => ?_); unfold x; clear x; rotate_left; clear_value x)
    | (extract_lets +onlyGivenNames x; unfold x; clear x)
    | with_reducible assumption
    | with_reducible apply audit_steady
    | fail_if_no_progress (with_reducible refine Steady.lit (s := _) rfl ?_)

theorem nodeLock_steady (a : Actor) (v : Nat) {r0 s : State} (h0 : Steady r0 s) : Steady r0 (nodeLock a v s) := by
  unfold nodeLock
  repeat' first
    | with_reducible assumption
    | with_reducible apply lwBurn_steady
    | with_reducible apply State.setReg_steady

theorem execNodeAddressLock_steady (v : BitVec 8) {r0 s : State} (h0 : Steady r0 s) : Ends r0 (execNodeAddressLock v s) := by
  unfold execNodeAddressLock
  repeat' first
    | with_reducible assumption
    | with_reducible apply Ends.next
    | with_reducible apply Ends.ite
    | with_reducible apply Steady.ite
    | with_reducible apply nodeLock_steady
    | split

theorem approvedLock_steady (a : Actor) {r0 s : State} (h0 : Steady r0 s) : Steady r0 (approvedLock a s) := by
  unfold approvedLock
  repeat' first
    | (extract_lets +onlyGivenNames x; refine Steady.cut (r := r0) x ?_ (fun hx => ?_); unfold x; clear x; rotate_left; clear_value x)
    | (extract_lets +onlyGivenNames x; unfold x; clear x)
    | with_reducible assumption
    | with_reducible apply lwBurn_steady
    | with_reducible apply State.setReg_steady
    | with_reducible apply alarmEval_steady
    | with_reducible apply watchConditions_steady
    | with_reducible apply audit_steady

theorem execApprovedModeLock_steady  {r0 s : State} (h0 : Steady r0 s) : Ends r0 (execApprovedModeLock s) := by
  unfold execApprovedModeLock
  repeat' first
    | with_reducible assumption
    | with_reducible apply Ends.next
    | with_reducible apply Ends.ite
    | with_reducible apply Steady.ite
    | with_reducible apply approvedLock_steady
    | split

theorem debugLock_steady (a : Actor) {r0 s : State} (h0 : Steady r0 s) : Steady r0 (debugLock a s) := by
  unfold debugLock
  repeat' first
    | (extract_lets +onlyGivenNames x; refine Steady.cut (r := r0) x ?_ (fun hx => ?_); unfold x; clear x; rotate_left; clear_value x)
    | (extract_lets +onlyGivenNames x; unfold x; clear x)
    | with_reducible assumption
    | with_reducible apply lwBurn_steady
    | with_reducible apply State.setReg_steady
    | fail_if_no_progress (with_reducible refine Steady.lit (s := _) rfl ?_)

theorem execDebugLock_steady  {r0 s : State} (h0 : Steady r0 s) : Ends r0 (execDebugLock s) := by
  unfold execDebugLock
  repeat' first
    | with_reducible assumption
    | with_reducible apply Ends.next
    | with_reducible apply Ends.ite
    | with_reducible apply Steady.ite
    | with_reducible apply debugLock_steady
    | split

theorem ownerHash_steady (a : Actor) (h : Bytes) {r0 s : State} (h0 : Steady r0 s) : Steady r0 (ownerHash a h s) := by
  unfold ownerHash
  repeat' first
    | (extract_lets +onlyGivenNames x; refine Steady.cut (r := r0) x ?_ (fun hx => ?_); unfold x; clear x; rotate_left; clear_value x)
    | (extract_lets +onlyGivenNames x; unfold x; clear x)
    | with_reducible assumption
    | with_reducible apply Steady.ite
    | with_reducible apply lwBurn_steady
    | with_reducible apply State.setReg_steady
    | with_reducible apply alarmEval_steady
    | with_reducible apply watchConditions_steady
    | with_reducible apply zeroise_steady
    | fail_if_no_progress (with_reducible refine Steady.lit (s := _) rfl ?_)
    | split

theorem execOwnerKeyHash_steady (h : Bytes) {r0 s : State} (h0 : Steady r0 s) : Ends r0 (execOwnerKeyHash h s) := by
  unfold execOwnerKeyHash
  repeat' first
    | with_reducible assumption
    | with_reducible apply Ends.next
    | with_reducible apply Ends.ite
    | with_reducible apply Steady.ite
    | with_reducible apply ownerHash_steady
    | split

theorem rollback_steady (a : Actor) (v : Nat) {r0 s : State} (h0 : Steady r0 s) : Steady r0 (rollback a v s) := by
  unfold rollback
  repeat' first
    | with_reducible assumption
    | with_reducible apply lwBurn_steady
    | with_reducible apply State.setReg_steady

theorem execAntiRollback_steady (v : BitVec 32) {r0 s : State} (h0 : Steady r0 s) : Ends r0 (execAntiRollback v s) := by
  unfold execAntiRollback
  repeat' first
    | with_reducible assumption
    | with_reducible apply Ends.next
    | with_reducible apply Ends.ite
    | with_reducible apply Steady.ite
    | with_reducible apply rollback_steady
    | split

theorem revoke_steady (a : Actor) (slot id : Nat) {r0 s : State} (h0 : Steady r0 s) : Steady r0 (revoke a slot id s) := by
  unfold revoke
  repeat' first
    | with_reducible assumption
    | with_reducible apply Steady.ite
    | with_reducible apply lwBurn_steady
    | with_reducible apply State.setReg_steady
    | split

theorem execKeyRevocation_steady (slot : Fin 8) (id : BitVec 64) {r0 s : State} (h0 : Steady r0 s) : Ends r0 (execKeyRevocation slot id s) := by
  unfold execKeyRevocation
  repeat' first
    | with_reducible assumption
    | with_reducible apply Ends.next
    | with_reducible apply Ends.ite
    | with_reducible apply Steady.ite
    | with_reducible apply revoke_steady
    | split

theorem promote_steady (a : Actor) (seq : Nat) {r0 s : State} (h0 : Steady r0 s) : Steady r0 (promote a seq s) := by
  unfold promote
  repeat' first
    | (extract_lets +onlyGivenNames x; refine Steady.cut (r := r0) x ?_ (fun hx => ?_); unfold x; clear x; rotate_left; clear_value x)
    | (extract_lets +onlyGivenNames x; unfold x; clear x)
    | with_reducible assumption
    | with_reducible apply Steady.ite
    | with_reducible apply lwBurn_steady
    | fail_if_no_progress (with_reducible refine Steady.lit (s := _) rfl ?_)
    | split

theorem execHardRepairPromote_steady (seq : BitVec 8) {r0 s : State} (h0 : Steady r0 s) : Ends r0 (execHardRepairPromote seq s) := by
  unfold execHardRepairPromote
  repeat' first
    | with_reducible assumption
    | with_reducible apply Ends.next
    | with_reducible apply Ends.ite
    | with_reducible apply Steady.ite
    | with_reducible apply promote_steady
    | split

theorem closeBlock_steady  {r0 s : State} (h0 : Steady r0 s) : Steady r0 (closeBlock s) := by
  unfold closeBlock
  repeat' first
    | with_reducible assumption
    | with_reducible apply Steady.ite
    | fail_if_no_progress (with_reducible refine Steady.lit (s := _) rfl ?_)
    | split

theorem queueSeal_steady (st : Nat) (p : PageRec) (hashes : Bytes) {r0 s : State} (h0 : Steady r0 s) : Steady r0 (queueSeal st p hashes s) := by
  unfold queueSeal
  repeat' first
    | (extract_lets +onlyGivenNames x; refine Steady.cut (r := r0) x ?_ (fun hx => ?_); unfold x; clear x; rotate_left; clear_value x)
    | (extract_lets +onlyGivenNames x; unfold x; clear x)
    | with_reducible assumption
    | with_reducible apply Steady.ite
    | with_reducible apply sealFailed_steady
    | with_reducible apply updRecord_steady
    | with_reducible apply closeBlock_steady
    | fail_if_no_progress (with_reducible refine Steady.lit (s := _) rfl ?_)
    | split

theorem execSealLineRead_steady (st : Fin 64) {r0 s : State} (h0 : Steady r0 s) : Ends r0 (execSealLineRead st s) := by
  unfold execSealLineRead
  repeat' first
    | (extract_lets +onlyGivenNames x; refine Steady.cut (r := r0) x ?_ (fun hx => ?_); unfold x; clear x; rotate_left; clear_value x)
    | (extract_lets +onlyGivenNames x; unfold x; clear x)
    | with_reducible assumption
    | with_reducible apply Ends.next
    | with_reducible apply Ends.ite
    | with_reducible apply Steady.ite
    | with_reducible apply queueSeal_steady
    | with_reducible apply sealFailed_steady
    | fail_if_no_progress (with_reducible refine Steady.lit (s := _) rfl ?_)
    | split

theorem execSealBlockClose_steady  {r0 s : State} (h0 : Steady r0 s) : Ends r0 (execSealBlockClose s) := by
  unfold execSealBlockClose
  repeat' first
    | with_reducible assumption
    | with_reducible apply Ends.next
    | with_reducible apply Ends.ite
    | with_reducible apply Steady.ite
    | with_reducible apply closeBlock_steady
    | split

theorem execSealIssued_steady  {r0 s : State} (h0 : Steady r0 s) : Ends r0 (execSealIssued s) := by
  unfold execSealIssued
  repeat' first
    | (extract_lets +onlyGivenNames x; refine Steady.cut (r := r0) x ?_ (fun hx => ?_); unfold x; clear x; rotate_left; clear_value x)
    | (extract_lets +onlyGivenNames x; unfold x; clear x)
    | with_reducible assumption
    | with_reducible apply Ends.next
    | with_reducible apply Ends.ite
    | with_reducible apply Steady.ite
    | with_reducible refine Steady.foldl _ _ ?_ (fun _ _ _ => ?_)
    | with_reducible apply audit_steady
    | with_reducible apply updRecord_steady
    | with_reducible apply State.setReg_steady
    | with_reducible apply State.raise_steady
    | fail_if_no_progress (with_reducible refine Steady.lit (s := _) rfl ?_)
    | split

theorem auditAck_steady (a : Actor) (seq : Nat) {r0 s : State} (h0 : Steady r0 s) : Steady r0 (auditAck a seq s) := by
  unfold auditAck
  repeat' first
    | (extract_lets +onlyGivenNames x; refine Steady.cut (r := r0) x ?_ (fun hx => ?_); unfold x; clear x; rotate_left; clear_value x)
    | (extract_lets +onlyGivenNames x; unfold x; clear x)
    | with_reducible assumption
    | with_reducible apply alarmEval_steady
    | with_reducible apply audit_steady
    | fail_if_no_progress (with_reducible refine Steady.lit (s := _) rfl ?_)

theorem execAuditAck_steady (seq : BitVec 64) {r0 s : State} (h0 : Steady r0 s) : Ends r0 (execAuditAck seq s) := by
  unfold execAuditAck
  repeat' first
    | with_reducible assumption
    | with_reducible apply Ends.next
    | with_reducible apply Ends.ite
    | with_reducible apply Steady.ite
    | with_reducible apply auditAck_steady
    | split

theorem execSandboxViolation_steady  {r0 s : State} (h0 : Steady r0 s) : Ends r0 (execSandboxViolation s) := by
  unfold execSandboxViolation
  repeat' first
    | with_reducible assumption
    | with_reducible apply Ends.next
    | with_reducible apply Ends.ite
    | with_reducible apply Steady.ite
    | with_reducible apply State.setReg_steady
    | with_reducible apply State.raise_steady
    | split

end Sys2Proof.Machine
end

