-- ==== Sys2Proof/Laws/SteadyConfluence.lean ====
section
/-! SUPPORT. What the operations of Machine/Confluence.lean keep. -/
namespace Sys2Proof.Machine

set_option linter.unusedTactic false
set_option linter.unreachableTactic false

theorem execRecordClose_steady (st : Fin 64) (line : Nat) {r0 s : State} (h0 : Steady r0 s) : Ends r0 (execRecordClose st line s) := by
  unfold execRecordClose
  repeat' first
    | with_reducible assumption
    | with_reducible apply Ends.next
    | with_reducible apply Ends.ite
    | with_reducible apply Steady.ite
    | with_reducible apply updRec_steady
    | with_reducible apply loseRec_steady
    | fail_if_no_progress (with_reducible refine Steady.lit (s := _) rfl ?_)
    | split

theorem execOxbowAck_steady (g : Fin 96) (body : BitVec 32) {r0 s : State} (h0 : Steady r0 s) : Ends r0 (execOxbowAck g body s) := by
  unfold execOxbowAck
  repeat' first
    | (extract_lets +onlyGivenNames x; refine Steady.cut (r := r0) x ?_ (fun hx => ?_); unfold x; clear x; rotate_left; clear_value x)
    | (extract_lets +onlyGivenNames x; refine Steady.cut2 (r := r0) x ?_ (fun hx => ?_); unfold x; clear x; rotate_left; clear_value x)
    | (extract_lets +onlyGivenNames x; refine Steady.cut1 (r := r0) x ?_ (fun hx => ?_); unfold x; clear x; rotate_left; clear_value x)
    | (extract_lets +onlyGivenNames x; unfold x; clear x)
    | with_reducible assumption
    | with_reducible apply Ends.next
    | with_reducible apply Ends.ite
    | with_reducible apply Steady.ite
    | with_reducible apply resume_steady
    | with_reducible apply State.updGroup_steady
    | with_reducible apply updRx_steady
    | with_reducible apply State.updLane_steady
    | with_reducible apply recordRepairAt_steady
    | with_reducible apply State.raise_steady
    | with_reducible apply inserted_steady
    | fail_if_no_progress (with_reducible refine Steady.lit (s := _) rfl ?_)
    | split

theorem abandonOxbow_steady (g : Nat) {r0 s : State} (h0 : Steady r0 s) : Steady r0 (abandonOxbow g s) := by
  unfold abandonOxbow
  repeat' first
    | (extract_lets +onlyGivenNames x; refine Steady.cut (r := r0) x ?_ (fun hx => ?_); unfold x; clear x; rotate_left; clear_value x)
    | (extract_lets +onlyGivenNames x; unfold x; clear x)
    | with_reducible assumption
    | with_reducible apply State.updGroup_steady
    | with_reducible apply State.updLane_steady
    | with_reducible apply State.raiseFault_steady
    | fail_if_no_progress (with_reducible refine Steady.lit (s := _) rfl ?_)
    | split

theorem laneFails_steady (l : Nat) (spare : Bool) {r0 s : State} (h0 : Steady r0 s) : Steady r0 (laneFails l spare s).1 := by
  unfold laneFails
  repeat' first
    | (extract_lets +onlyGivenNames x; refine Steady.cut (r := r0) x ?_ (fun hx => ?_); unfold x; clear x; rotate_left; clear_value x)
    | (extract_lets +onlyGivenNames x; unfold x; clear x)
    | with_reducible assumption
    | with_reducible apply Steady.ite
    | with_reducible apply Steady.ite1
    | with_reducible apply State.updLane_steady
    | with_reducible apply State.updGroup_steady
    | with_reducible apply abandonOxbow_steady
    | with_reducible apply sendOxbow_steady
    | with_reducible apply countInsertion_steady
    | with_reducible apply State.raiseFault_steady
    | fail_if_no_progress (with_reducible refine Steady.lit (s := _) rfl ?_)
    | split

theorem replayMark_steady (g : Segment) {r0 s : State} (h0 : Steady r0 s) : Steady r0 (replayMark g s) := by
  unfold replayMark
  repeat' first
    | with_reducible assumption
    | with_reducible apply updRec_steady
    | with_reducible apply State.count_steady
    | fail_if_no_progress (with_reducible refine Steady.lit (s := _) rfl ?_)

theorem sliceFails_steady (k : Nat) (spare : Bool) {r0 s : State} (h0 : Steady r0 s) : Steady r0 (sliceFails k spare s).1 := by
  unfold sliceFails
  repeat' first
    | (extract_lets +onlyGivenNames x; refine Steady.cut (r := r0) x ?_ (fun hx => ?_); unfold x; clear x; rotate_left; clear_value x)
    | (extract_lets +onlyGivenNames x; unfold x; clear x)
    | with_reducible assumption
    | with_reducible apply Steady.ite
    | with_reducible apply Steady.ite1
    | with_reducible apply State.updSlice_steady
    | with_reducible apply inserted_steady
    | with_reducible apply loseLine_steady
    | with_reducible apply recordRepair_steady
    | with_reducible apply notePools_steady
    | with_reducible apply State.setReg_steady
    | with_reducible apply countInsertion_steady
    | with_reducible apply replayMark_steady
    | fail_if_no_progress (with_reducible refine Steady.lit (s := _) rfl ?_)
    | split

theorem retirePlanned_steady (dt k j fault : Nat) {r0 s : State} (h0 : Steady r0 s) : Steady r0 (retirePlanned dt k j fault s) := by
  unfold retirePlanned
  repeat' first
    | (extract_lets +onlyGivenNames x; refine Steady.cut (r := r0) x ?_ (fun hx => ?_); unfold x; clear x; rotate_left; clear_value x)
    | (extract_lets +onlyGivenNames x; unfold x; clear x)
    | with_reducible assumption
    | with_reducible apply Steady.ite
    | with_reducible apply State.updSlice_steady
    | with_reducible apply inserted_steady
    | with_reducible apply countInsertion_steady
    | with_reducible apply recordRepairAt_steady
    | fail_if_no_progress (with_reducible refine Steady.lit (s := _) rfl ?_)
    | split

theorem markChannel_steady (dt i origin fault : Nat) {r0 s : State} (h0 : Steady r0 s) : Steady r0 (markChannel dt i origin fault s) := by
  unfold markChannel
  repeat' first
    | (extract_lets +onlyGivenNames x; refine Steady.cut (r := r0) x ?_ (fun hx => ?_); unfold x; clear x; rotate_left; clear_value x)
    | (extract_lets +onlyGivenNames x; unfold x; clear x)
    | with_reducible assumption
    | with_reducible apply State.setReg_steady
    | with_reducible apply inserted_steady
    | with_reducible apply countInsertion_steady
    | with_reducible apply recordRepairAt_steady

theorem channelFails_steady (i : Nat) (spare : Bool) {r0 s : State} (h0 : Steady r0 s) : Steady r0 (channelFails i spare s).1 := by
  unfold channelFails
  repeat' first
    | (extract_lets +onlyGivenNames x; refine Steady.cut (r := r0) x ?_ (fun hx => ?_); unfold x; clear x; rotate_left; clear_value x)
    | (extract_lets +onlyGivenNames x; unfold x; clear x)
    | with_reducible assumption
    | with_reducible apply Steady.ite
    | with_reducible apply Steady.ite1
    | with_reducible apply recordRepair_steady
    | with_reducible apply markChannel_steady
    | with_reducible apply State.setReg_steady
    | fail_if_no_progress (with_reducible refine Steady.lit (s := _) rfl ?_)
    | split

theorem segmentFails_steady (detail : Nat) (spare : Bool) {r0 s : State} (h0 : Steady r0 s) : Steady r0 (segmentFails detail spare s).1 := by
  unfold segmentFails
  repeat' first
    | (extract_lets +onlyGivenNames x; refine Steady.cut (r := r0) x ?_ (fun hx => ?_); unfold x; clear x; rotate_left; clear_value x)
    | (extract_lets +onlyGivenNames x; unfold x; clear x)
    | with_reducible assumption
    | with_reducible apply Steady.ite
    | with_reducible apply Steady.ite1
    | with_reducible apply inserted_steady
    | with_reducible apply countInsertion_steady
    | with_reducible apply recordRepair_steady
    | with_reducible apply domainDown_steady
    | with_reducible apply flushDomain_steady
    | with_reducible apply State.setReg_steady
    | with_reducible apply State.raiseFault_steady
    | fail_if_no_progress (with_reducible refine Steady.lit (s := _) rfl ?_)
    | split

theorem crosspointFails_steady (i kind : Nat) (spare : Bool) {r0 s : State} (h0 : Steady r0 s) : Steady r0 (crosspointFails i kind spare s).1 := by
  unfold crosspointFails
  repeat' first
    | (extract_lets +onlyGivenNames x; refine Steady.cut (r := r0) x ?_ (fun hx => ?_); unfold x; clear x; rotate_left; clear_value x)
    | (extract_lets +onlyGivenNames x; unfold x; clear x)
    | with_reducible assumption
    | with_reducible apply Steady.ite
    | with_reducible apply Steady.ite1
    | with_reducible apply recordRepair_steady
    | with_reducible apply countInsertion_steady
    | fail_if_no_progress (with_reducible refine Steady.lit (s := _) rfl ?_)
    | split

theorem execLampLift_steady (b : Fin 16) (col : Fin 64) {r0 s : State} (h0 : Steady r0 s) : Ends r0 (execLampLift b col s) := by
  unfold execLampLift
  repeat' first
    | (extract_lets +onlyGivenNames x; refine Steady.cut (r := r0) x ?_ (fun hx => ?_); unfold x; clear x; rotate_left; clear_value x)
    | (extract_lets +onlyGivenNames x; refine Steady.cut2 (r := r0) x ?_ (fun hx => ?_); unfold x; clear x; rotate_left; clear_value x)
    | (extract_lets +onlyGivenNames x; refine Steady.cut1 (r := r0) x ?_ (fun hx => ?_); unfold x; clear x; rotate_left; clear_value x)
    | (extract_lets +onlyGivenNames x; unfold x; clear x)
    | with_reducible assumption
    | with_reducible apply Ends.next
    | with_reducible apply Ends.ite
    | with_reducible apply Steady.ite
    | with_reducible refine Steady.foldl1 _ _ ?_ (fun _ _ _ => ?_)
    | with_reducible refine Steady.foldl2 _ _ ?_ (fun _ _ _ => ?_)
    | with_reducible refine Steady.foldl _ _ ?_ (fun _ _ _ => ?_)
    | with_reducible apply State.updXpoint_steady
    | with_reducible apply State.raise_steady
    | with_reducible apply State.report_steady
    | with_reducible apply inserted_steady
    | fail_if_no_progress (with_reducible refine Steady.lit (s := _) rfl ?_)
    | split

theorem plan_steady (kind unit : Nat) {r0 s : State} (h0 : Steady r0 s) : Steady r0 (plan kind unit s) := by
  unfold plan
  repeat' first
    | with_reducible assumption
    | with_reducible apply Steady.ite
    | fail_if_no_progress (with_reducible refine Steady.lit (s := _) rfl ?_)
    | split

theorem unplan_steady (kind unit : Nat) {r0 s : State} (h0 : Steady r0 s) : Steady r0 (unplan kind unit s) := by
  unfold unplan
  repeat' first
    | with_reducible assumption
    | fail_if_no_progress (with_reducible refine Steady.lit (s := _) rfl ?_)

theorem handle_steady (r : FaultReport) (spare : Bool) {r0 s : State} (h0 : Steady r0 s) : Steady r0 (handle r spare s).1 := by
  unfold handle
  repeat' first
    | (extract_lets +onlyGivenNames x; refine Steady.cut (r := r0) x ?_ (fun hx => ?_); unfold x; clear x; rotate_left; clear_value x)
    | (extract_lets +onlyGivenNames x; unfold x; clear x)
    | with_reducible assumption
    | with_reducible apply Steady.ite
    | with_reducible apply Steady.ite1
    | with_reducible apply laneFails_steady
    | with_reducible apply unplan_steady
    | with_reducible apply sliceFails_steady
    | with_reducible apply mapCoefRow_steady
    | with_reducible apply segmentFails_steady
    | with_reducible apply channelFails_steady
    | with_reducible apply crosspointFails_steady
    | with_reducible apply plan_steady
    | split

theorem stopTransports_steady (r : FaultReport) {r0 s : State} (h0 : Steady r0 s) : Steady r0 (stopTransports r s) := by
  unfold stopTransports
  repeat' first
    | (extract_lets +onlyGivenNames x; refine Steady.cut (r := r0) x ?_ (fun hx => ?_); unfold x; clear x; rotate_left; clear_value x)
    | (extract_lets +onlyGivenNames x; unfold x; clear x)
    | with_reducible assumption
    | with_reducible apply Steady.ite
    | with_reducible refine Steady.foldl _ _ ?_ (fun _ _ _ => ?_)
    | with_reducible apply transFault_steady
    | with_reducible apply motQuickStop_steady
    | split

theorem sustain_held (r : FaultReport) {r0 s : State} (h0 : Held r0 s) : Held r0 (sustain r s) := by
  unfold sustain
  have h1 : Held r0 { s with dep := { s.dep with sustain := s.dep.sustain ++ [r] } } := Held.lit (s := s) rfl h0
  dsimp only
  split
  · exact h1
  · rename_i g
    split
    · rename_i t
      refine startDegraded_held r h1 fun c => c.free (by simpa using t) fun m => g ?_
      have m' : s.mode = .safeHalt := m
      rw [m']
      rfl
    · exact Held.lit (s := { s with dep := { s.dep with sustain := s.dep.sustain ++ [r] } }) rfl h1

theorem reviewSustain_held  {r0 s : State} (h0 : Held r0 s) : Held r0 (reviewSustain s) := by
  unfold reviewSustain
  repeat' first
    | with_reducible assumption
    | with_reducible apply restoreDue_held
    | with_reducible apply sustain_held
    | fail_if_no_progress (with_reducible refine Held.lit (s := _) rfl ?_)

theorem decide__held (r : FaultReport) {r0 s : State} (h0 : Held r0 s) : Held r0 (decide_ r s) := by
  unfold decide_
  refine Held.ite h0 (Held.ite (safeHalt_held _ _ (h0.on (State.emit_steady _ (Steady.refl s)))) ?_)
  extract_lets stop spare s1 h degrade s2
  have h1 : Held r0 s1 := Held.ite (h0.on (stopTransports_steady r (Steady.refl s))) h0
  have h2 : Held r0 s2 := h1.on (State.emit_steady _ (handle_steady r spare (Steady.refl s1)))
  clear_value s2
  have h3 : Held r0 (if degrade then sustain r s2 else s2) := Held.ite (sustain_held r h2) h2
  exact h3.on (notePools_steady (Steady.refl _))

theorem execArbiterDecision_held  {r0 s : State} (h0 : Held r0 s) : Leads r0 (execArbiterDecision s) := by
  unfold execArbiterDecision
  repeat' first
    | with_reducible assumption
    | with_reducible apply Leads.next
    | with_reducible apply reviewSustain_held
    | with_reducible apply decide__held
    | fail_if_no_progress (with_reducible refine Held.lit (s := _) rfl ?_)
    | split

theorem runPlanned_steady (p : Planned) {r0 s : State} (h0 : Steady r0 s) : Steady r0 (runPlanned p s) := by
  unfold runPlanned
  repeat' first
    | (extract_lets +onlyGivenNames x; refine Steady.cut (r := r0) x ?_ (fun hx => ?_); unfold x; clear x; rotate_left; clear_value x)
    | (extract_lets +onlyGivenNames x; unfold x; clear x)
    | with_reducible assumption
    | with_reducible apply Steady.ite
    | with_reducible refine Steady.foldl _ _ ?_ (fun _ _ _ => ?_)
    | with_reducible apply unplan_steady
    | with_reducible apply sendOxbow_steady
    | with_reducible apply countInsertion_steady
    | with_reducible apply State.updLane_steady
    | with_reducible apply State.updGroup_steady
    | with_reducible apply retirePlanned_steady
    | with_reducible apply markChannel_steady
    | fail_if_no_progress (with_reducible refine Steady.lit (s := _) rfl ?_)
    | split

theorem execPlannedInsertion_steady  {r0 s : State} (h0 : Steady r0 s) : Ends r0 (execPlannedInsertion s) := by
  unfold execPlannedInsertion
  repeat' first
    | with_reducible assumption
    | with_reducible apply Ends.next
    | with_reducible apply runPlanned_steady
    | fail_if_no_progress (with_reducible refine Steady.lit (s := _) rfl ?_)
    | split

theorem execPlannedWaitExpire_steady  {r0 s : State} (h0 : Steady r0 s) : Ends r0 (execPlannedWaitExpire s) := by
  unfold execPlannedWaitExpire
  repeat' first
    | with_reducible assumption
    | with_reducible apply Ends.next
    | with_reducible apply runPlanned_steady
    | fail_if_no_progress (with_reducible refine Steady.lit (s := _) rfl ?_)
    | split

theorem retireCopy_steady (copy : Nat) {r0 s : State} (h0 : Steady r0 s) : Steady r0 (retireCopy copy s) := by
  unfold retireCopy
  repeat' first
    | (extract_lets +onlyGivenNames x; refine Steady.cut (r := r0) x ?_ (fun hx => ?_); unfold x; clear x; rotate_left; clear_value x)
    | (extract_lets +onlyGivenNames x; unfold x; clear x)
    | with_reducible assumption
    | with_reducible apply State.setReg_steady
    | with_reducible apply notePools_steady
    | with_reducible apply recordRepair_steady
    | with_reducible apply State.report_steady
    | fail_if_no_progress (with_reducible refine Steady.lit (s := _) rfl ?_)

theorem resyncCopy_steady (copy : Nat) {r0 s : State} (h0 : Steady r0 s) : Steady r0 (resyncCopy copy s) := by
  unfold resyncCopy
  repeat' first
    | (extract_lets +onlyGivenNames x; refine Steady.cut (r := r0) x ?_ (fun hx => ?_); unfold x; clear x; rotate_left; clear_value x)
    | (extract_lets +onlyGivenNames x; unfold x; clear x)
    | with_reducible assumption
    | with_reducible apply State.setReg_steady
    | with_reducible apply State.report_steady
    | fail_if_no_progress (with_reducible refine Steady.lit (s := _) rfl ?_)

theorem execTmrDisagree_held (copy : Fin 3) {r0 s : State} (h0 : Held r0 s) : Leads r0 (execTmrDisagree copy s) := by
  unfold execTmrDisagree
  exact Leads.next (Held.ite h0 (Held.ite (safeHalt_held _ _ (h0.on (State.report_steady _ _ _ _ _ (Steady.refl s))))
    (Held.ite (h0.on (retireCopy_steady _ (Steady.refl s))) (h0.on (resyncCopy_steady _ (Steady.refl s))))))

theorem execTmrResyncDone_steady  {r0 s : State} (h0 : Steady r0 s) : Ends r0 (execTmrResyncDone s) := by
  unfold execTmrResyncDone
  repeat' first
    | with_reducible assumption
    | with_reducible apply Ends.next
    | with_reducible apply Ends.ite
    | with_reducible apply Steady.ite
    | with_reducible apply State.setReg_steady
    | fail_if_no_progress (with_reducible refine Steady.lit (s := _) rfl ?_)
    | split

theorem execReservoirChannel_steady (stack : Fin 2) (ch : Fin 16) {r0 s : State} (h0 : Steady r0 s) : Ends r0 (execReservoirChannel stack ch s) := by
  unfold execReservoirChannel
  repeat' first
    | (extract_lets +onlyGivenNames x; refine Steady.cut (r := r0) x ?_ (fun hx => ?_); unfold x; clear x; rotate_left; clear_value x)
    | (extract_lets +onlyGivenNames x; unfold x; clear x)
    | with_reducible assumption
    | with_reducible apply Ends.next
    | with_reducible apply Ends.ite
    | with_reducible apply Steady.ite
    | with_reducible apply State.report_steady
    | split

theorem execSwitchSegmentCheck_steady (d : Fin 64) (drops : List Nat) {r0 s : State} (h0 : Steady r0 s) : Ends r0 (execSwitchSegmentCheck d drops s) := by
  unfold execSwitchSegmentCheck
  repeat' first
    | (extract_lets +onlyGivenNames x; refine Steady.cut (r := r0) x ?_ (fun hx => ?_); unfold x; clear x; rotate_left; clear_value x)
    | (extract_lets +onlyGivenNames x; refine Steady.cut2 (r := r0) x ?_ (fun hx => ?_); unfold x; clear x; rotate_left; clear_value x)
    | (extract_lets +onlyGivenNames x; refine Steady.cut1 (r := r0) x ?_ (fun hx => ?_); unfold x; clear x; rotate_left; clear_value x)
    | (extract_lets +onlyGivenNames x; unfold x; clear x)
    | with_reducible assumption
    | with_reducible apply Ends.next
    | with_reducible apply Ends.ite
    | with_reducible apply Steady.ite
    | with_reducible refine Steady.foldl1 _ _ ?_ (fun _ _ _ => ?_)
    | with_reducible refine Steady.foldl2 _ _ ?_ (fun _ _ _ => ?_)
    | with_reducible refine Steady.foldl _ _ ?_ (fun _ _ _ => ?_)
    | with_reducible apply State.loopRan_steady
    | with_reducible apply State.report_steady
    | fail_if_no_progress (with_reducible refine Steady.lit (s := _) rfl ?_)
    | split

theorem execSpareTest_steady (k : Fin 68) (pass : Bool) {r0 s : State} (h0 : Steady r0 s) : Ends r0 (execSpareTest k pass s) := by
  unfold execSpareTest
  repeat' first
    | (extract_lets +onlyGivenNames x; refine Steady.cut (r := r0) x ?_ (fun hx => ?_); unfold x; clear x; rotate_left; clear_value x)
    | (extract_lets +onlyGivenNames x; unfold x; clear x)
    | with_reducible assumption
    | with_reducible apply Ends.next
    | with_reducible apply Ends.ite
    | with_reducible apply Steady.ite
    | with_reducible apply State.loopRan_steady
    | with_reducible apply recordRepair_steady
    | with_reducible apply State.updSlice_steady
    | with_reducible apply notePools_steady
    | with_reducible apply State.report_steady
    | fail_if_no_progress (with_reducible refine Steady.lit (s := _) rfl ?_)
    | split

theorem laneHour_steady (l : Nat) {r0 s : State} (h0 : Steady r0 s) : Steady r0 (laneHour s l) := by
  unfold laneHour
  repeat' first
    | (extract_lets +onlyGivenNames x; refine Steady.cut (r := r0) x ?_ (fun hx => ?_); unfold x; clear x; rotate_left; clear_value x)
    | (extract_lets +onlyGivenNames x; refine Steady.cut2 (r := r0) x ?_ (fun hx => ?_); unfold x; clear x; rotate_left; clear_value x)
    | (extract_lets +onlyGivenNames x; refine Steady.cut1 (r := r0) x ?_ (fun hx => ?_); unfold x; clear x; rotate_left; clear_value x)
    | (extract_lets +onlyGivenNames x; unfold x; clear x)
    | with_reducible assumption
    | with_reducible apply State.updLane_steady
    | with_reducible apply wearCheck_steady
    | fail_if_no_progress (with_reducible refine Steady.lit (s := _) rfl ?_)
    | split

theorem bandHour_steady (b : Nat) {r0 s : State} (h0 : Steady r0 s) : Steady r0 (bandHour s b) := by
  unfold bandHour
  repeat' first
    | (extract_lets +onlyGivenNames x; refine Steady.cut (r := r0) x ?_ (fun hx => ?_); unfold x; clear x; rotate_left; clear_value x)
    | (extract_lets +onlyGivenNames x; refine Steady.cut2 (r := r0) x ?_ (fun hx => ?_); unfold x; clear x; rotate_left; clear_value x)
    | (extract_lets +onlyGivenNames x; refine Steady.cut1 (r := r0) x ?_ (fun hx => ?_); unfold x; clear x; rotate_left; clear_value x)
    | (extract_lets +onlyGivenNames x; unfold x; clear x)
    | with_reducible assumption
    | with_reducible apply Steady.ite
    | with_reducible apply wearCheck_steady
    | fail_if_no_progress (with_reducible refine Steady.lit (s := _) rfl ?_)
    | split

theorem takeLanes_steady  {r0 s : State} (h0 : Steady r0 s) : Steady r0 (takeLanes s) := by
  unfold takeLanes
  repeat' first
    | with_reducible assumption
    | with_reducible refine Steady.foldl _ _ ?_ (fun _ _ _ => ?_)
    | with_reducible apply laneHour_steady

theorem takeAged_steady (m : WearSample) {r0 s : State} (h0 : Steady r0 s) : Steady r0 (takeAged m s) := by
  unfold takeAged
  repeat' first
    | with_reducible assumption
    | with_reducible refine Steady.foldl1 _ _ ?_ (fun _ _ _ => ?_)
    | with_reducible refine Steady.foldl2 _ _ ?_ (fun _ _ _ => ?_)
    | with_reducible refine Steady.foldl _ _ ?_ (fun _ _ _ => ?_)
    | with_reducible apply wearCheck_steady
    | fail_if_no_progress (with_reducible refine Steady.lit (s := _) rfl ?_)

theorem takeDram_steady (m : WearSample) {r0 s : State} (h0 : Steady r0 s) : Steady r0 (takeDram m s) := by
  unfold takeDram
  repeat' first
    | (extract_lets +onlyGivenNames x; refine Steady.cut (r := r0) x ?_ (fun hx => ?_); unfold x; clear x; rotate_left; clear_value x)
    | (extract_lets +onlyGivenNames x; refine Steady.cut2 (r := r0) x ?_ (fun hx => ?_); unfold x; clear x; rotate_left; clear_value x)
    | (extract_lets +onlyGivenNames x; refine Steady.cut1 (r := r0) x ?_ (fun hx => ?_); unfold x; clear x; rotate_left; clear_value x)
    | (extract_lets +onlyGivenNames x; unfold x; clear x)
    | with_reducible assumption
    | with_reducible refine Steady.foldl1 _ _ ?_ (fun _ _ _ => ?_)
    | with_reducible refine Steady.foldl2 _ _ ?_ (fun _ _ _ => ?_)
    | with_reducible refine Steady.foldl _ _ ?_ (fun _ _ _ => ?_)
    | with_reducible apply State.count_steady
    | with_reducible apply wearCheck_steady
    | fail_if_no_progress (with_reducible refine Steady.lit (s := _) rfl ?_)

theorem takeBands_steady  {r0 s : State} (h0 : Steady r0 s) : Steady r0 (takeBands s) := by
  unfold takeBands
  repeat' first
    | (extract_lets +onlyGivenNames x; refine Steady.cut (r := r0) x ?_ (fun hx => ?_); unfold x; clear x; rotate_left; clear_value x)
    | (extract_lets +onlyGivenNames x; unfold x; clear x)
    | with_reducible assumption
    | with_reducible apply Steady.ite
    | with_reducible refine Steady.foldl _ _ ?_ (fun _ _ _ => ?_)
    | with_reducible apply bandHour_steady
    | fail_if_no_progress (with_reducible refine Steady.lit (s := _) rfl ?_)
    | split

theorem execWearEval_steady (m : WearSample) {r0 s : State} (h0 : Steady r0 s) : Ends r0 (execWearEval m s) := by
  unfold execWearEval
  repeat' first
    | with_reducible assumption
    | with_reducible apply Ends.next
    | with_reducible apply takeBands_steady
    | with_reducible apply takeDram_steady
    | with_reducible apply takeAged_steady
    | with_reducible apply takeLanes_steady

theorem storeRecord_steady  {r0 s : State} (h0 : Steady r0 s) : Steady r0 (storeRecord s) := by
  unfold storeRecord
  repeat' first
    | (extract_lets +onlyGivenNames x; refine Steady.cut (r := r0) x ?_ (fun hx => ?_); unfold x; clear x; rotate_left; clear_value x)
    | (extract_lets +onlyGivenNames x; refine Steady.cut2 (r := r0) x ?_ (fun hx => ?_); unfold x; clear x; rotate_left; clear_value x)
    | (extract_lets +onlyGivenNames x; refine Steady.cut1 (r := r0) x ?_ (fun hx => ?_); unfold x; clear x; rotate_left; clear_value x)
    | (extract_lets +onlyGivenNames x; unfold x; clear x)
    | with_reducible assumption
    | with_reducible apply Steady.ite
    | with_reducible apply State.raise_steady
    | fail_if_no_progress (with_reducible refine Steady.lit (s := _) rfl ?_)
    | split

theorem execRepairRecordWrite_steady  {r0 s : State} (h0 : Steady r0 s) : Ends r0 (execRepairRecordWrite s) := by
  unfold execRepairRecordWrite
  repeat' first
    | with_reducible assumption
    | with_reducible apply Ends.next
    | with_reducible refine Steady.foldl _ _ ?_ (fun _ _ _ => ?_)
    | with_reducible apply storeRecord_steady

theorem clearRepairs_steady (v : Nat) {r0 s : State} (h0 : Steady r0 s) : Steady r0 (clearRepairs v s) := by
  unfold clearRepairs
  repeat' first
    | with_reducible assumption
    | with_reducible apply Steady.ite
    | fail_if_no_progress (with_reducible refine Steady.lit (s := _) rfl ?_)
    | split

theorem execRepairClear_steady (v : BitVec 16) {r0 s : State} (h0 : Steady r0 s) : Ends r0 (execRepairClear v s) := by
  unfold execRepairClear
  repeat' first
    | with_reducible assumption
    | with_reducible apply Ends.next
    | with_reducible apply clearRepairs_steady

end Sys2Proof.Machine
end

