-- ==== Sys2Proof/Laws/SteadyReception.lean ====
section
/-! SUPPORT. What the operations of Machine/Reception.lean keep. -/
namespace Sys2Proof.Machine

set_option linter.unusedTactic false
set_option linter.unreachableTactic false

theorem cameraSays_steady (g code reason arg : Nat) {r0 s : State} (h0 : Steady r0 s) : Steady r0 (cameraSays g code reason arg s) := by
  unfold cameraSays
  repeat' first
    | with_reducible assumption
    | with_reducible apply Steady.ite
    | with_reducible apply trigRejected_steady
    | with_reducible apply cancelDone_steady
    | with_reducible apply State.raise_steady
    | split

theorem messageTaken_steady (g ptype : Nat) (p : Packet) {r0 s : State} (h0 : Steady r0 s) : Steady r0 (messageTaken g ptype p s) := by
  unfold messageTaken
  repeat' first
    | (extract_lets +onlyGivenNames x; refine Steady.cut (r := r0) x ?_ (fun hx => ?_); unfold x; clear x; rotate_left; clear_value x)
    | (extract_lets +onlyGivenNames x; refine Steady.cut2 (r := r0) x ?_ (fun hx => ?_); unfold x; clear x; rotate_left; clear_value x)
    | (extract_lets +onlyGivenNames x; refine Steady.cut1 (r := r0) x ?_ (fun hx => ?_); unfold x; clear x; rotate_left; clear_value x)
    | (extract_lets +onlyGivenNames x; unfold x; clear x)
    | with_reducible assumption
    | with_reducible apply Steady.ite
    | with_reducible apply ctlRespTaken_steady
    | with_reducible apply cameraSays_steady
    | with_reducible apply State.free_steady
    | with_reducible apply timeRespTaken_steady
    | split

theorem packetArrives_steady (g id : Nat) (p : Packet) {r0 s : State} (h0 : Steady r0 s) : Steady r0 (packetArrives g id p s) := by
  unfold packetArrives
  repeat' first
    | (extract_lets +onlyGivenNames x; refine Steady.cut (r := r0) x ?_ (fun hx => ?_); unfold x; clear x; rotate_left; clear_value x)
    | (extract_lets +onlyGivenNames x; refine Steady.cut2 (r := r0) x ?_ (fun hx => ?_); unfold x; clear x; rotate_left; clear_value x)
    | (extract_lets +onlyGivenNames x; refine Steady.cut1 (r := r0) x ?_ (fun hx => ?_); unfold x; clear x; rotate_left; clear_value x)
    | (extract_lets +onlyGivenNames x; unfold x; clear x)
    | with_reducible assumption
    | with_reducible apply Steady.ite
    | with_reducible apply State.count_steady
    | with_reducible apply nakAgain_steady
    | with_reducible apply acceptPsn_steady
    | with_reducible apply replayEnd_steady
    | with_reducible apply messageTaken_steady
    | with_reducible apply takePixels_steady
    | split

theorem execPixel_steady (l : Fin 104) (p : Packet) {r0 s : State} (h0 : Steady r0 s) : Ends r0 (execPixel l p s) := by
  unfold execPixel
  repeat' first
    | with_reducible assumption
    | with_reducible apply Ends.next
    | with_reducible apply packetArrives_steady
    | fail_if_no_progress (with_reducible refine Steady.lit (s := _) rfl ?_)
    | split

theorem assembled_steady (l : Nat) (p : Packet) {r0 s : State} (h0 : Steady r0 s) : Steady r0 (assembled l p s) := by
  unfold assembled
  repeat' first
    | with_reducible assumption
    | with_reducible apply packetArrives_steady
    | fail_if_no_progress (with_reducible refine Steady.lit (s := _) rfl ?_)
    | split

theorem assemble_steady (l : Nat) (isData : Bool) (t : BlockType) (w : Nat) {r0 s : State} (h0 : Steady r0 s) : Steady r0 (assemble l isData t w s) := by
  unfold assemble
  repeat' first
    | (extract_lets +onlyGivenNames x; refine Steady.cut (r := r0) x ?_ (fun hx => ?_); unfold x; clear x; rotate_left; clear_value x)
    | (extract_lets +onlyGivenNames x; unfold x; clear x)
    | with_reducible assumption
    | with_reducible apply Steady.ite
    | with_reducible apply State.updLane_steady
    | with_reducible apply assembled_steady
    | fail_if_no_progress (with_reducible refine Steady.lit (s := _) rfl ?_)
    | split

theorem linkCtlTaken_steady (l : Fin 104) (w : Nat) {r0 s : State} (h0 : Steady r0 s) : Steady r0 (linkCtlTaken l w s) := by
  unfold linkCtlTaken
  repeat' first
    | (extract_lets +onlyGivenNames x; refine Steady.cut (r := r0) x ?_ (fun hx => ?_); unfold x; clear x; rotate_left; clear_value x)
    | (extract_lets +onlyGivenNames x; unfold x; clear x)
    | with_reducible assumption
    | with_reducible apply Steady.ite
    | with_reducible apply execTrainSts_steady
    | with_reducible apply execSleepAck_steady
    | with_reducible apply execWake_steady
    | with_reducible apply execTestResult_steady
    | with_reducible apply execAck_steady
    | with_reducible apply execOxbowAck_steady
    | with_reducible apply Steady.stateOf
    | fail_if_no_progress (with_reducible refine Steady.lit (s := _) rfl ?_)
    | split

theorem blockTaken_steady (l : Fin 104) (isData : Bool) (w ctle : Nat) {r0 s : State} (h0 : Steady r0 s) : Steady r0 (blockTaken l isData w ctle s) := by
  unfold blockTaken
  repeat' first
    | (extract_lets +onlyGivenNames x; refine Steady.cut (r := r0) x ?_ (fun hx => ?_); unfold x; clear x; rotate_left; clear_value x)
    | (extract_lets +onlyGivenNames x; refine Steady.cut2 (r := r0) x ?_ (fun hx => ?_); unfold x; clear x; rotate_left; clear_value x)
    | (extract_lets +onlyGivenNames x; refine Steady.cut1 (r := r0) x ?_ (fun hx => ?_); unfold x; clear x; rotate_left; clear_value x)
    | (extract_lets +onlyGivenNames x; unfold x; clear x)
    | with_reducible assumption
    | with_reducible apply Steady.ite
    | with_reducible apply ctleStep_steady
    | with_reducible apply State.updLane_steady
    | with_reducible apply assemble_steady
    | with_reducible apply State.count_steady
    | with_reducible apply linkCtlTaken_steady
    | fail_if_no_progress (with_reducible refine Steady.lit (s := _) rfl ?_)
    | split

theorem elasticOverflow_steady (l : Nat) {r0 s : State} (h0 : Steady r0 s) : Steady r0 (elasticOverflow l s) := by
  unfold elasticOverflow
  repeat' first
    | with_reducible assumption
    | with_reducible refine Steady.foldl _ _ ?_ (fun _ _ _ => ?_)
    | with_reducible apply State.report_steady
    | with_reducible apply State.raise_steady
    | fail_if_no_progress (with_reducible refine Steady.lit (s := _) rfl ?_)
    | split

theorem execBlockReceived_steady (l : Fin 104) (hdr : BitVec 2) (payload : BitVec 64) (elasticFull : Bool) (ctle : Nat) {r0 s : State} (h0 : Steady r0 s) : Ends r0 (execBlockReceived l hdr payload elasticFull ctle s) := by
  unfold execBlockReceived
  repeat' first
    | (extract_lets +onlyGivenNames x; refine Steady.cut (r := r0) x ?_ (fun hx => ?_); unfold x; clear x; rotate_left; clear_value x)
    | (extract_lets +onlyGivenNames x; refine Steady.cut2 (r := r0) x ?_ (fun hx => ?_); unfold x; clear x; rotate_left; clear_value x)
    | (extract_lets +onlyGivenNames x; refine Steady.cut1 (r := r0) x ?_ (fun hx => ?_); unfold x; clear x; rotate_left; clear_value x)
    | (extract_lets +onlyGivenNames x; unfold x; clear x)
    | with_reducible assumption
    | with_reducible apply Ends.next
    | with_reducible apply Ends.ite
    | with_reducible apply Steady.ite
    | with_reducible apply State.updLane_steady
    | with_reducible apply elasticOverflow_steady
    | with_reducible apply State.count_steady
    | with_reducible apply alignArrives_steady
    | with_reducible apply blockTaken_steady
    | fail_if_no_progress (with_reducible refine Steady.lit (s := _) rfl ?_)
    | split

end Sys2Proof.Machine
end

