-- ==== Sys2Proof/Laws/SteadyFlags.lean ====
section
/-! SUPPORT. What the operations of Machine/Flags.lean keep. -/
namespace Sys2Proof.Machine

set_option linter.unusedTactic false
set_option linter.unreachableTactic false

theorem State.view_steady (index sub : Nat) {r0 s : State} (h0 : Steady r0 s) : Steady r0 (State.view s index sub).2 := by
  unfold State.view
  repeat' first
    | (extract_lets +onlyGivenNames x; refine Steady.cut (r := r0) x ?_ (fun hx => ?_); unfold x; clear x; rotate_left; clear_value x)
    | (extract_lets +onlyGivenNames x; refine Steady.cut2 (r := r0) x ?_ (fun hx => ?_); unfold x; clear x; rotate_left; clear_value x)
    | (extract_lets +onlyGivenNames x; refine Steady.cut1 (r := r0) x ?_ (fun hx => ?_); unfold x; clear x; rotate_left; clear_value x)
    | (extract_lets +onlyGivenNames x; unfold x; clear x)
    | with_reducible assumption
    | with_reducible apply Steady.ite
    | with_reducible apply Steady.ite2
    | with_reducible apply State.free_steady
    | fail_if_no_progress (with_reducible refine Steady.lit (s := _) rfl ?_)
    | split

theorem readClears_steady (index sub : Nat) {r0 s : State} (h0 : Steady r0 s) : Steady r0 (readClears index sub s) := by
  unfold readClears
  repeat' first
    | (extract_lets +onlyGivenNames x; refine Steady.cut (r := r0) x ?_ (fun hx => ?_); unfold x; clear x; rotate_left; clear_value x)
    | (extract_lets +onlyGivenNames x; unfold x; clear x)
    | with_reducible assumption
    | with_reducible apply State.setQueue_steady
    | with_reducible apply State.setReg_steady
    | with_reducible apply State.updLane_steady
    | with_reducible apply State.updPort_steady
    | with_reducible apply State.updPosChan_steady
    | with_reducible apply State.updStrm_steady
    | fail_if_no_progress (with_reducible refine Steady.lit (s := _) rfl ?_)
    | split

end Sys2Proof.Machine
end

