-- ==== Sys2Proof/Laws/SteadyChecks.lean ====
section
/-! SUPPORT. What the operations of Machine/Checks.lean keep. -/
namespace Sys2Proof.Machine

set_option linter.unusedTactic false
set_option linter.unreachableTactic false

theorem overlay_steady (m : Nat × Val) {r0 s : State} (h0 : Steady r0 s) : Steady r0 (overlay s m) := by
  unfold overlay
  repeat' first
    | (extract_lets +onlyGivenNames x; refine Steady.cut (r := r0) x ?_ (fun hx => ?_); unfold x; clear x; rotate_left; clear_value x)
    | (extract_lets +onlyGivenNames x; refine Steady.cut2 (r := r0) x ?_ (fun hx => ?_); unfold x; clear x; rotate_left; clear_value x)
    | (extract_lets +onlyGivenNames x; refine Steady.cut1 (r := r0) x ?_ (fun hx => ?_); unfold x; clear x; rotate_left; clear_value x)
    | (extract_lets +onlyGivenNames x; unfold x; clear x)
    | with_reducible assumption
    | with_reducible apply Steady.ite
    | with_reducible apply State.setReg_steady
    | with_reducible apply State.updStrm_steady
    | with_reducible apply applyBlob_steady
    | fail_if_no_progress (with_reducible refine Steady.lit (s := _) rfl ?_)
    | split

theorem State.projected_steady (ms : List (Nat × Val)) {r0 s : State} (h0 : Steady r0 s) : Steady r0 (State.projected s ms) := by
  unfold State.projected
  repeat' first
    | with_reducible assumption
    | with_reducible refine Steady.foldl _ _ ?_ (fun _ _ _ => ?_)
    | with_reducible apply overlay_steady

end Sys2Proof.Machine
end

