-- ==== Sys2Proof/Laws/SteadyWrites.lean ====
section
/-! SUPPORT. What the operations of Machine/Writes.lean keep. -/
namespace Sys2Proof.Machine

set_option linter.unusedTactic false
set_option linter.unreachableTactic false

/-- What a write did keeps what every operation keeps. -/
def Wrote (r : State) (e : Effect) : Prop := ∀ d, e = .ok d → Held r d.state ∧ ∀ t, Held r t → Held r (d.after t)
/-- The same, of a write that may have no rule of its own. -/
def WroteAny (r : State) (o : Option Effect) : Prop := ∀ e, o = some e → Wrote r e

theorem Wrote.error {r : State} (e : Err) : Wrote r (.error e) := fun _ h => by cases h
theorem Wrote.deny {r : State} (s : State) (code : Nat) : Wrote r (deny s code) := Wrote.error _
theorem Wrote.did {r t : State} (h : Held r t) : Wrote r (did t) := fun _ e => by cases e; exact ⟨h, fun _ k => k⟩
theorem Wrote.denyTelling {r t : State} (code : Nat) (h : Held r t) : Wrote r (denyTelling t code) :=
  fun _ e => by cases e; exact ⟨h, fun _ k => k⟩
theorem Wrote.later {r s : State} {f : State → State} (h : Held r s) (k : ∀ t, Held r t → Held r (f t)) :
    Wrote r (.ok { state := s, after := f }) := fun _ e => by cases e; exact ⟨h, k⟩
theorem Wrote.ite {r : State} {a b : Effect} {c : Prop} [Decidable c] (h : Wrote r a) (k : Wrote r b) : Wrote r (if c then a else b) := by
  split
  · exact h
  · exact k
theorem Wrote.orElseDo {r t : State} (e : Option Nat) (s : State) (h : Held r t) : Wrote r (orElseDo e s t) := by
  cases e with
  | none => exact Wrote.did h
  | some c => exact Wrote.deny _ _
theorem Wrote.inRange {r t : State} (ok : Bool) (s : State) (h : Held r t) : Wrote r (inRange ok s t) :=
  Wrote.ite (Wrote.did h) (Wrote.deny _ _)
theorem WroteAny.none {r : State} : WroteAny r none := fun _ h => by cases h
theorem WroteAny.some {r : State} {e : Effect} (h : Wrote r e) : WroteAny r (some e) := fun _ k => by cases k; exact h
theorem WroteAny.ite {r : State} {a b : Option Effect} {c : Prop} [Decidable c] (h : WroteAny r a) (k : WroteAny r b) :
    WroteAny r (if c then a else b) := by
  split
  · exact h
  · exact k
theorem WroteAny.orElse {r : State} {a b : Option Effect} (h : WroteAny r a) (k : WroteAny r b) : WroteAny r (a <|> b) := by
  cases a with
  | none => exact k
  | some x => exact h
theorem WroteAny.getD {r : State} {a : Option Effect} {b : Effect} (h : WroteAny r a) (k : Wrote r b) : Wrote r (a.getD b) := by
  cases a with
  | none => exact k
  | some x => exact h x rfl
theorem writeMode_held (role code : Nat) {r0 s : State} (h0 : Held r0 s) : Wrote r0 (writeMode role code s) := by
  unfold writeMode
  repeat' first
    | with_reducible assumption
    | with_reducible apply Wrote.error
    | with_reducible apply Wrote.deny
    | with_reducible apply Wrote.did
    | with_reducible apply Wrote.denyTelling
    | with_reducible apply Wrote.orElseDo
    | with_reducible apply Wrote.inRange
    | with_reducible apply Wrote.ite
    | with_reducible apply Wrote.later
    | with_reducible apply Held.stateOf
    | with_reducible apply requestMode_held
    | fail_if_no_progress (with_reducible refine Held.lit (s := _) rfl ?_)
    | split

theorem writeDevice_held (role index sub : Nat) (v : Int) {r0 s : State} (h0 : Held r0 s) : WroteAny r0 (writeDevice role index sub v s) := by
  unfold writeDevice
  repeat' first
    | (extract_lets +onlyGivenNames x; refine Held.cut (r := r0) x ?_ (fun hx => ?_); unfold x; clear x; rotate_left; clear_value x)
    | (extract_lets +onlyGivenNames x; unfold x; clear x)
    | with_reducible assumption
    | with_reducible apply WroteAny.none
    | with_reducible apply WroteAny.some
    | with_reducible apply WroteAny.ite
    | with_reducible apply Wrote.error
    | with_reducible apply Wrote.deny
    | with_reducible apply Wrote.did
    | with_reducible apply Wrote.denyTelling
    | with_reducible apply Wrote.orElseDo
    | with_reducible apply Wrote.inRange
    | with_reducible apply Wrote.ite
    | with_reducible apply Wrote.later
    | with_reducible apply Held.stateOf
    | with_reducible apply Held.ite
    | with_reducible apply writeMode_held
    | with_reducible refine Held.on ?_ (State.setReg_steady (h0 := Steady.refl _) ..)
    | with_reducible refine Leads.on ?_ (execQueueFlush_steady (h0 := Steady.refl _) ..)
    | with_reducible apply deviceReset_held
    | split

theorem writeLane_held (l sub : Nat) (v : Int) {r0 s : State} (h0 : Held r0 s) : WroteAny r0 (writeLane l sub v s) := by
  unfold writeLane
  repeat' first
    | (extract_lets +onlyGivenNames x; refine Held.cut (r := r0) x ?_ (fun hx => ?_); unfold x; clear x; rotate_left; clear_value x)
    | (extract_lets +onlyGivenNames x; unfold x; clear x)
    | with_reducible assumption
    | with_reducible apply WroteAny.none
    | with_reducible apply WroteAny.some
    | with_reducible apply WroteAny.ite
    | with_reducible apply Wrote.error
    | with_reducible apply Wrote.deny
    | with_reducible apply Wrote.did
    | with_reducible apply Wrote.denyTelling
    | with_reducible apply Wrote.orElseDo
    | with_reducible apply Wrote.inRange
    | with_reducible apply Wrote.ite
    | with_reducible apply Wrote.later
    | with_reducible apply Held.stateOf
    | with_reducible apply Held.ite
    | with_reducible refine Leads.on ?_ (execFwdPowerReq_steady (h0 := Steady.refl _) ..)
    | with_reducible refine Leads.on ?_ (execBackPowerReq_steady (h0 := Steady.refl _) ..)
    | with_reducible refine Held.on ?_ (State.setReg_steady (h0 := Steady.refl _) ..)
    | with_reducible refine Leads.on ?_ (execRetrain_steady (h0 := Steady.refl _) ..)
    | with_reducible refine Held.on ?_ (prbsWrite_steady (h0 := Steady.refl _) ..)
    | with_reducible refine Leads.on ?_ (execPrbsInjectOne_steady (h0 := Steady.refl _) ..)
    | fail_if_no_progress (with_reducible refine Held.lit (s := _) rfl ?_)
    | split

theorem writeCamera_held (g sub : Nat) (v : Int) {r0 s : State} (h0 : Held r0 s) : WroteAny r0 (writeCamera g sub v s) := by
  unfold writeCamera
  repeat' first
    | (extract_lets +onlyGivenNames x; refine Held.cut (r := r0) x ?_ (fun hx => ?_); unfold x; clear x; rotate_left; clear_value x)
    | (extract_lets +onlyGivenNames x; unfold x; clear x)
    | with_reducible assumption
    | with_reducible apply WroteAny.none
    | with_reducible apply WroteAny.some
    | with_reducible apply WroteAny.ite
    | with_reducible apply Wrote.error
    | with_reducible apply Wrote.deny
    | with_reducible apply Wrote.did
    | with_reducible apply Wrote.denyTelling
    | with_reducible apply Wrote.orElseDo
    | with_reducible apply Wrote.inRange
    | with_reducible apply Wrote.ite
    | with_reducible apply Wrote.later
    | with_reducible apply Held.stateOf
    | with_reducible apply Held.ite
    | with_reducible refine Leads.on ?_ (execCamRegRead_steady (h0 := Steady.refl _) ..)
    | with_reducible refine Leads.on ?_ (execCamRegWrite_steady (h0 := Steady.refl _) ..)
    | fail_if_no_progress (with_reducible refine Held.lit (s := _) rfl ?_)
    | split

theorem writeCal_held (st sub : Nat) (v : Int) {r0 s : State} (h0 : Held r0 s) : WroteAny r0 (writeCal st sub v s) := by
  unfold writeCal
  repeat' first
    | (extract_lets +onlyGivenNames x; refine Held.cut (r := r0) x ?_ (fun hx => ?_); unfold x; clear x; rotate_left; clear_value x)
    | (extract_lets +onlyGivenNames x; unfold x; clear x)
    | with_reducible assumption
    | with_reducible apply WroteAny.none
    | with_reducible apply WroteAny.some
    | with_reducible apply WroteAny.ite
    | with_reducible apply Wrote.error
    | with_reducible apply Wrote.deny
    | with_reducible apply Wrote.did
    | with_reducible apply Wrote.denyTelling
    | with_reducible apply Wrote.orElseDo
    | with_reducible apply Wrote.inRange
    | with_reducible apply Wrote.ite
    | with_reducible apply Wrote.later
    | with_reducible apply Held.stateOf
    | with_reducible apply Held.ite
    | with_reducible refine Held.on ?_ (calCommand_steady (h0 := Steady.refl _) ..)
    | with_reducible refine Held.on ?_ (State.setReg_steady (h0 := Steady.refl _) ..)
    | fail_if_no_progress (with_reducible refine Held.lit (s := _) rfl ?_)
    | split

theorem writePath_held (index sub : Nat) (v : Int) {r0 s : State} (h0 : Held r0 s) : WroteAny r0 (writePath index sub v s) := by
  unfold writePath
  repeat' first
    | (extract_lets +onlyGivenNames x; refine Held.cut (r := r0) x ?_ (fun hx => ?_); unfold x; clear x; rotate_left; clear_value x)
    | (extract_lets +onlyGivenNames x; unfold x; clear x)
    | with_reducible assumption
    | with_reducible apply WroteAny.none
    | with_reducible apply WroteAny.some
    | with_reducible apply WroteAny.ite
    | with_reducible apply Wrote.error
    | with_reducible apply Wrote.deny
    | with_reducible apply Wrote.did
    | with_reducible apply Wrote.denyTelling
    | with_reducible apply Wrote.orElseDo
    | with_reducible apply Wrote.inRange
    | with_reducible apply Wrote.ite
    | with_reducible apply Wrote.later
    | with_reducible apply Held.stateOf
    | with_reducible apply Held.ite
    | with_reducible refine Held.on ?_ (State.setReg_steady (h0 := Steady.refl _) ..)
    | with_reducible apply writeLane_held
    | with_reducible apply writeCamera_held
    | with_reducible refine Held.on ?_ (writeStreamEnable_steady (h0 := Steady.refl _) ..)
    | with_reducible apply writeCal_held
    | with_reducible refine Held.on ?_ (enterWarming_steady (h0 := Steady.refl _) ..)
    | fail_if_no_progress (with_reducible refine Held.lit (s := _) rfl ?_)
    | split

theorem writeMotion_held (m sub : Nat) (v : Int) {r0 s : State} (h0 : Held r0 s) : WroteAny r0 (writeMotion m sub v s) := by
  unfold writeMotion
  repeat' first
    | (extract_lets +onlyGivenNames x; refine Held.cut (r := r0) x ?_ (fun hx => ?_); unfold x; clear x; rotate_left; clear_value x)
    | (extract_lets +onlyGivenNames x; unfold x; clear x)
    | with_reducible assumption
    | with_reducible apply WroteAny.none
    | with_reducible apply WroteAny.some
    | with_reducible apply WroteAny.ite
    | with_reducible apply Wrote.error
    | with_reducible apply Wrote.deny
    | with_reducible apply Wrote.did
    | with_reducible apply Wrote.denyTelling
    | with_reducible apply Wrote.orElseDo
    | with_reducible apply Wrote.inRange
    | with_reducible apply Wrote.ite
    | with_reducible apply Wrote.later
    | with_reducible apply Held.stateOf
    | with_reducible apply Held.ite
    | with_reducible refine Leads.on ?_ (execMotionReplan_steady (h0 := Steady.refl _) ..)
    | with_reducible refine Leads.on ?_ (execMotEnable_steady (h0 := Steady.refl _) ..)
    | with_reducible refine Leads.on ?_ (execMotStop_steady (h0 := Steady.refl _) ..)
    | with_reducible refine Leads.on ?_ (execMotQuickStop_steady (h0 := Steady.refl _) ..)
    | with_reducible refine Leads.on ?_ (execMotHardStop_steady (h0 := Steady.refl _) ..)
    | with_reducible refine Leads.on ?_ (execMotClear_steady (h0 := Steady.refl _) ..)
    | fail_if_no_progress (with_reducible refine Held.lit (s := _) rfl ?_)
    | split

theorem writeMotive_held (index sub : Nat) (v : Int) {r0 s : State} (h0 : Held r0 s) : WroteAny r0 (writeMotive index sub v s) := by
  unfold writeMotive
  repeat' first
    | (extract_lets +onlyGivenNames x; refine Held.cut (r := r0) x ?_ (fun hx => ?_); unfold x; clear x; rotate_left; clear_value x)
    | (extract_lets +onlyGivenNames x; unfold x; clear x)
    | with_reducible assumption
    | with_reducible apply WroteAny.none
    | with_reducible apply WroteAny.some
    | with_reducible apply WroteAny.ite
    | with_reducible apply Wrote.error
    | with_reducible apply Wrote.deny
    | with_reducible apply Wrote.did
    | with_reducible apply Wrote.denyTelling
    | with_reducible apply Wrote.orElseDo
    | with_reducible apply Wrote.inRange
    | with_reducible apply Wrote.ite
    | with_reducible apply Wrote.later
    | with_reducible apply Held.stateOf
    | with_reducible apply Held.ite
    | with_reducible refine Leads.on ?_ (execPosPreset_steady (h0 := Steady.refl _) ..)
    | with_reducible refine Leads.on ?_ (execIndexRearm_steady (h0 := Steady.refl _) ..)
    | with_reducible apply writeMotion_held
    | with_reducible refine Leads.on ?_ (execCompareWrite_steady (h0 := Steady.refl _) ..)
    | with_reducible refine Leads.on ?_ (execTioPulseAt_steady (h0 := Steady.refl _) ..)
    | with_reducible refine Leads.on ?_ (execSeamRestart_steady (h0 := Steady.refl _) ..)
    | with_reducible refine Leads.on ?_ (execSeamStop_steady (h0 := Steady.refl _) ..)
    | fail_if_no_progress (with_reducible refine Held.lit (s := _) rfl ?_)
    | split

theorem writeStore_held (index sub : Nat) (v : Int) {r0 s : State} (h0 : Held r0 s) : WroteAny r0 (writeStore index sub v s) := by
  unfold writeStore
  repeat' first
    | (extract_lets +onlyGivenNames x; refine Held.cut (r := r0) x ?_ (fun hx => ?_); unfold x; clear x; rotate_left; clear_value x)
    | (extract_lets +onlyGivenNames x; unfold x; clear x)
    | with_reducible assumption
    | with_reducible apply WroteAny.none
    | with_reducible apply WroteAny.some
    | with_reducible apply WroteAny.ite
    | with_reducible apply Wrote.error
    | with_reducible apply Wrote.deny
    | with_reducible apply Wrote.did
    | with_reducible apply Wrote.denyTelling
    | with_reducible apply Wrote.orElseDo
    | with_reducible apply Wrote.inRange
    | with_reducible apply Wrote.ite
    | with_reducible apply Wrote.later
    | with_reducible apply Held.stateOf
    | with_reducible apply Held.ite
    | with_reducible refine Leads.on ?_ (execBandEnable_steady (h0 := Steady.refl _) ..)
    | with_reducible refine Held.on ?_ (releasePage_steady (h0 := Steady.refl _) ..)
    | with_reducible refine Leads.on ?_ (execHostMark_steady (h0 := Steady.refl _) ..)
    | with_reducible refine Leads.on ?_ (execSyncFire_steady (h0 := Steady.refl _) ..)
    | with_reducible refine Held.on ?_ (startLampTest_steady (h0 := Steady.refl _) ..)
    | with_reducible refine Held.on ?_ (disableChan_steady (h0 := Steady.refl _) ..)
    | fail_if_no_progress (with_reducible refine Held.lit (s := _) rfl ?_)
    | split

theorem writeFeChan_held (k sub n : Nat) {r0 s : State} (h0 : Held r0 s) : WroteAny r0 (writeFeChan k sub n s) := by
  unfold writeFeChan
  repeat' first
    | with_reducible assumption
    | with_reducible apply WroteAny.none
    | with_reducible apply WroteAny.some
    | with_reducible apply WroteAny.ite
    | with_reducible apply Wrote.error
    | with_reducible apply Wrote.deny
    | with_reducible apply Wrote.did
    | with_reducible apply Wrote.denyTelling
    | with_reducible apply Wrote.orElseDo
    | with_reducible apply Wrote.inRange
    | with_reducible apply Wrote.ite
    | with_reducible apply Wrote.later
    | with_reducible apply Held.stateOf
    | with_reducible apply Held.ite
    | with_reducible refine Held.on ?_ (startTest_steady (h0 := Steady.refl _) ..)
    | with_reducible refine Held.on ?_ (writeThreshold_steady (h0 := Steady.refl _) ..)
    | split

theorem writeFe_held (index sub : Nat) (v : Int) {r0 s : State} (h0 : Held r0 s) : WroteAny r0 (writeFe index sub v s) := by
  unfold writeFe
  repeat' first
    | (extract_lets +onlyGivenNames x; refine Held.cut (r := r0) x ?_ (fun hx => ?_); unfold x; clear x; rotate_left; clear_value x)
    | (extract_lets +onlyGivenNames x; unfold x; clear x)
    | with_reducible assumption
    | with_reducible apply WroteAny.none
    | with_reducible apply WroteAny.some
    | with_reducible apply WroteAny.ite
    | with_reducible apply Wrote.error
    | with_reducible apply Wrote.deny
    | with_reducible apply Wrote.did
    | with_reducible apply Wrote.denyTelling
    | with_reducible apply Wrote.orElseDo
    | with_reducible apply Wrote.inRange
    | with_reducible apply Wrote.ite
    | with_reducible apply Wrote.later
    | with_reducible apply Held.stateOf
    | with_reducible apply Held.ite
    | with_reducible apply writeFeChan_held
    | with_reducible refine Held.on ?_ (requestCal_steady (h0 := Steady.refl _) ..)
    | with_reducible refine Leads.on ?_ (execConvStart_steady (h0 := Steady.refl _) ..)
    | with_reducible refine Leads.on ?_ (execGenEnable_steady (h0 := Steady.refl _) ..)
    | with_reducible refine Held.on ?_ (State.setReg_steady (h0 := Steady.refl _) ..)
    | with_reducible refine Leads.on ?_ (execFeQueueFlush_steady (h0 := Steady.refl _) ..)
    | fail_if_no_progress (with_reducible refine Held.lit (s := _) rfl ?_)
    | split

theorem writeSecure_held (a : Actor) (index sub : Nat) (v : Int) {r0 s : State} (h0 : Held r0 s) :
    WroteAny r0 (writeSecure a index sub v s) := by
  unfold writeSecure
  extract_lets n key on lock e
  have hon : ∀ e, Wrote r0 e → WroteAny r0 (on e) := fun e h => WroteAny.some (Wrote.ite (Wrote.did h0) h)
  have hlock : ∀ e, Wrote r0 e → WroteAny r0 (lock e) := fun e h => WroteAny.some (Wrote.ite (Wrote.deny _ _) h)
  clear_value n key on lock e
  have h (t : State) (k : Steady s t) : Held r0 t := h0.on k
  have r := Steady.refl s
  have o (c : Option Nat) (t : State) (k : Steady s t) : WroteAny r0 (some (orElseDo c s t)) :=
    WroteAny.some (Wrote.orElseDo c s (h t k))
  have ho (c : Option Nat) (t : State) (k : Steady s t) : WroteAny r0 (on (orElseDo c s t)) := hon _ (Wrote.orElseDo c s (h t k))
  refine WroteAny.ite (WroteAny.some (Wrote.ite (Wrote.deny _ _) (Wrote.did (h _ (watchConditions_steady
    (State.setReg_steady _ _ r)))))) ?_
  refine WroteAny.ite (WroteAny.some (Wrote.inRange _ _ (h _ (clearRepairs_steady _ r)))) ?_
  refine WroteAny.ite (o _ _ (nodeLock_steady _ _ r)) ?_
  refine WroteAny.ite (hlock _ (Wrote.orElseDo _ _ (h _ (approvedLock_steady _ r)))) ?_
  refine WroteAny.ite (hlock _ (Wrote.orElseDo _ _ (h _ (debugLock_steady _ r)))) ?_
  refine WroteAny.ite (o _ _ (ownerHash_steady _ _ r)) ?_
  refine WroteAny.ite (o _ _ (rollback_steady _ _ r)) ?_
  refine WroteAny.ite (o _ _ (revoke_steady _ _ _ r)) ?_
  refine WroteAny.ite (o _ _ (promote_steady _ _ r)) ?_
  refine WroteAny.ite (ho _ _ (selfTestRun_steady r)) ?_
  refine WroteAny.ite (hon _ ?_) ?_
  · split
    · exact Wrote.deny _ _
    · exact Wrote.later h0 fun t h => h.on (zeroise_steady _ _ (Steady.refl t))
  refine WroteAny.ite (o _ _ (State.setReg_steady _ _ r)) ?_
  refine WroteAny.ite (hon _ ?_) ?_
  · split
    · exact Wrote.deny _ _
    · exact Wrote.later h0 fun t h => h.on (debugUnlock_steady _ (Steady.refl t))
  refine WroteAny.ite (o _ _ (setRoleKey_steady _ _ _ r)) ?_
  refine WroteAny.ite (o _ _ (auditAck_steady _ _ r)) ?_
  exact WroteAny.ite (hon _ (Wrote.did (h _ (tamperClear_steady _ r)))) WroteAny.none

theorem writeOwn_held (a : Actor) (role index sub : Nat) (v : Int) {r0 s : State} (h0 : Held r0 s) :
    Wrote r0 (writeOwn a role index sub v s) :=
  WroteAny.getD (WroteAny.orElse (writeDevice_held _ _ _ _ h0) (WroteAny.orElse (writePath_held _ _ _ h0) (WroteAny.orElse
    (writeMotive_held _ _ _ h0) (WroteAny.orElse (writeStore_held _ _ _ h0) (WroteAny.orElse (writeFe_held _ _ _ h0)
    (writeSecure_held _ _ _ _ h0)))))) (Wrote.did (h0.on (State.setReg_steady _ _ (Steady.refl s))))

theorem writeImage_held (a : Actor) (b : Bytes) {r0 s : State} (h0 : Held r0 s) : Wrote r0 (writeImage a b s) := by
  unfold writeImage
  repeat' first
    | (extract_lets +onlyGivenNames x; refine Held.cut (r := r0) x ?_ (fun hx => ?_); unfold x; clear x; rotate_left; clear_value x)
    | (extract_lets +onlyGivenNames x; unfold x; clear x)
    | with_reducible assumption
    | with_reducible apply Wrote.error
    | with_reducible apply Wrote.deny
    | with_reducible apply Wrote.did
    | with_reducible apply Wrote.denyTelling
    | with_reducible apply Wrote.orElseDo
    | with_reducible apply Wrote.inRange
    | with_reducible apply Wrote.ite
    | with_reducible apply Wrote.later
    | with_reducible apply Held.stateOf
    | with_reducible apply Held.ite
    | with_reducible refine Held.on ?_ (State.setReg_steady (h0 := Steady.refl _) ..)
    | with_reducible refine Held.on ?_ (audit_steady (h0 := Steady.refl _) ..)
    | fail_if_no_progress (with_reducible refine Held.lit (s := _) rfl ?_)
    | split

theorem writeBlob_held (a : Actor) (index sub : Nat) (b : Bytes) {r0 s : State} (h0 : Held r0 s) : Wrote r0 (writeBlob a index sub b s) := by
  unfold writeBlob
  repeat' first
    | with_reducible assumption
    | with_reducible apply Wrote.error
    | with_reducible apply Wrote.deny
    | with_reducible apply Wrote.did
    | with_reducible apply Wrote.denyTelling
    | with_reducible apply Wrote.orElseDo
    | with_reducible apply Wrote.inRange
    | with_reducible apply Wrote.ite
    | with_reducible apply Wrote.later
    | with_reducible apply Held.stateOf
    | with_reducible apply Held.ite
    | with_reducible refine Held.on ?_ (State.updGroup_steady (h0 := Steady.refl _) ..)
    | with_reducible apply writeImage_held
    | fail_if_no_progress (with_reducible refine Held.lit (s := _) rfl ?_)
    | split

end Sys2Proof.Machine
end

