-- ==== Sys2Proof/Laws/SteadyPackets.lean ====
section
/-! SUPPORT. What the operations of Machine/Packets.lean keep. -/
namespace Sys2Proof.Machine

set_option linter.unusedTactic false
set_option linter.unreachableTactic false

/-- What a service did keeps what every operation keeps. -/
def Serves (r : State) (d : Served) : Prop := Held r d.state ∧ ∀ t, Held r t → Held r (d.after t)
/-- The same, of a group that may be accepted. -/
def Accepts (r : State) (c : Committed) : Prop := ∀ b id t, c = .accepted b id t → Held r t

theorem Serves.lit {r s : State} {f : State → State} (a : Answer) (o : Option Nat) (h : Held r s) (k : ∀ t, Held r t → Held r (f t)) :
    Serves r { answer := a, state := s, after := f, session := o } := ⟨h, k⟩
theorem Serves.answers {r s : State} (p : Bytes) (h : Held r s) : Serves r (answers p s) := ⟨h, fun _ k => k⟩
theorem Serves.fails {r s : State} (e : Err) (h : Held r s) : Serves r (fails s e) := ⟨h, fun _ k => k⟩
theorem Serves.ask {r s : State} (a : Ask) (e : Err) (h : Held r s) : Serves r (a.fails s e) := ⟨h, fun _ k => k⟩
theorem Serves.ite {r : State} {a b : Served} {c : Prop} [Decidable c] (h : Serves r a) (k : Serves r b) :
    Serves r (if c then a else b) := by
  split
  · exact h
  · exact k
theorem Accepts.rejected {r : State} (k : Nat) (e : Err) (b : Bool) : Accepts r (.rejected k e b) := fun _ _ _ h => by cases h
theorem Accepts.accepted {r t : State} (b id : Nat) (h : Held r t) : Accepts r (.accepted b id t) := fun _ _ _ e => by cases e; exact h
theorem Accepts.ite {r : State} {a b : Committed} {c : Prop} [Decidable c] (h : Accepts r a) (k : Accepts r b) :
    Accepts r (if c then a else b) := by
  split
  · exact h
  · exact k

theorem serveDiscover_held (_a : Ask) {r0 s : State} (h0 : Held r0 s) : Serves r0 (serveDiscover _a s) := by
  unfold serveDiscover
  repeat' first
    | with_reducible assumption
    | with_reducible apply Serves.answers
    | with_reducible apply Serves.fails
    | with_reducible apply Serves.ask
    | with_reducible apply Serves.ite
    | with_reducible apply Serves.lit
    | exact fun _ h => h
    | (intro t ht)

theorem serveNop_held (a : Ask) {r0 s : State} (h0 : Held r0 s) : Serves r0 (serveNop a s) := by
  unfold serveNop
  repeat' first
    | with_reducible assumption
    | with_reducible apply Serves.answers
    | with_reducible apply Serves.fails
    | with_reducible apply Serves.ask
    | with_reducible apply Serves.ite
    | with_reducible apply Serves.lit
    | exact fun _ h => h
    | (intro t ht)

theorem serveRead_held (a : Ask) {r0 s : State} (h0 : Held r0 s) : Serves r0 (serveRead a s) := by
  unfold serveRead
  repeat' first
    | (extract_lets +onlyGivenNames x; refine Held.cut (r := r0) x ?_ (fun hx => ?_); unfold x; clear x; rotate_left; clear_value x)
    | (extract_lets +onlyGivenNames x; refine Held.cut2 (r := r0) x ?_ (fun hx => ?_); unfold x; clear x; rotate_left; clear_value x)
    | (extract_lets +onlyGivenNames x; refine Held.cut1 (r := r0) x ?_ (fun hx => ?_); unfold x; clear x; rotate_left; clear_value x)
    | (extract_lets +onlyGivenNames x; unfold x; clear x)
    | with_reducible assumption
    | with_reducible apply Serves.answers
    | with_reducible apply Serves.fails
    | with_reducible apply Serves.ask
    | with_reducible apply Serves.ite
    | with_reducible apply Held.ite
    | with_reducible refine Held.on ?_ (State.view_steady (h0 := Steady.refl _) ..)
    | with_reducible refine Held.on ?_ (readClears_steady (h0 := Steady.refl _) ..)
    | fail_if_no_progress (with_reducible refine Held.lit (s := _) rfl ?_)
    | split
    | with_reducible apply Serves.lit
    | exact fun _ h => h
    | (intro t ht)

theorem serveReadDesc_held (a : Ask) {r0 s : State} (h0 : Held r0 s) : Serves r0 (serveReadDesc a s) := by
  unfold serveReadDesc
  repeat' first
    | with_reducible assumption
    | with_reducible apply Serves.answers
    | with_reducible apply Serves.fails
    | with_reducible apply Serves.ask
    | with_reducible apply Serves.ite
    | fail_if_no_progress (with_reducible refine Held.lit (s := _) rfl ?_)
    | split
    | with_reducible apply Serves.lit
    | exact fun _ h => h
    | (intro t ht)

theorem stage_steady (owner group key : Nat) (v : Staged) {r0 s : State} (h0 : Steady r0 s) : Steady r0 (stage owner group key v s) := by
  unfold stage
  repeat' first
    | (extract_lets +onlyGivenNames x; refine Steady.cut (r := r0) x ?_ (fun hx => ?_); unfold x; clear x; rotate_left; clear_value x)
    | (extract_lets +onlyGivenNames x; unfold x; clear x)
    | with_reducible assumption
    | with_reducible apply Steady.ite
    | fail_if_no_progress (with_reducible refine Steady.lit (s := _) rfl ?_)
    | split

theorem emptyGroup_steady (owner group : Nat) {r0 s : State} (h0 : Steady r0 s) : Steady r0 (emptyGroup owner group s) := by
  unfold emptyGroup
  repeat' first
    | with_reducible assumption
    | fail_if_no_progress (with_reducible refine Steady.lit (s := _) rfl ?_)

theorem enterCommit_steady (boundary : Nat) (ms : List (Nat × Val)) {r0 s : State} (h0 : Steady r0 s) : Steady r0 (enterCommit boundary ms s) := by
  unfold enterCommit
  repeat' first
    | (extract_lets +onlyGivenNames x; refine Steady.cut (r := r0) x ?_ (fun hx => ?_); unfold x; clear x; rotate_left; clear_value x)
    | (extract_lets +onlyGivenNames x; unfold x; clear x)
    | with_reducible assumption
    | with_reducible apply Steady.ite
    | with_reducible apply acceptGroup_steady
    | with_reducible apply domainsFollow_steady
    | with_reducible apply unitsFollow_steady
    | with_reducible apply refreshConfig_steady
    | with_reducible apply syncBroadcast_steady
    | with_reducible apply watchConditions_steady
    | split

theorem tryCommit_held (ms : List (Nat × Staged)) {r0 s : State} (h0 : Held r0 s) : Accepts r0 (tryCommit ms s) := by
  unfold tryCommit
  repeat' first
    | (extract_lets +onlyGivenNames x; clear_value x)
    | with_reducible apply Accepts.rejected
    | with_reducible apply Accepts.accepted
    | with_reducible apply Accepts.ite
    | exact h0.on (enterCommit_steady _ _ (Steady.refl s))
    | split

theorem commitOne_held (a : Ask) (key : Nat) (v : Val) {r0 s : State} (h0 : Held r0 s) : Serves r0 (commitOne a key v s) := by
  unfold commitOne
  split
  · exact Serves.ask _ _ h0
  · exact Serves.answers _ (tryCommit_held _ h0 _ _ _ ‹_›)

theorem serveWrite_held (a : Ask) {r0 s : State} (h0 : Held r0 s) : Serves r0 (serveWrite a s) := by
  unfold serveWrite
  repeat' first
    | (extract_lets +onlyGivenNames x; refine Held.cut (r := r0) x ?_ (fun hx => ?_); unfold x; clear x; rotate_left; clear_value x)
    | (extract_lets +onlyGivenNames x; unfold x; clear x)
    | with_reducible assumption
    | with_reducible apply Serves.answers
    | with_reducible apply Serves.fails
    | with_reducible apply Serves.ask
    | with_reducible apply Serves.ite
    | with_reducible apply Held.ite
    | with_reducible apply commitOne_held
    | with_reducible refine Held.on ?_ (stage_steady (h0 := Steady.refl _) ..)
    | with_reducible apply writeOwn_held
    | (have w := writeOwn_held a.actor a.role a.q.index a.q.sub _ h0 _ ‹writeOwn _ _ _ _ _ _ = _›; first | exact w.1 | exact w.2)
    | fail_if_no_progress (with_reducible refine Held.lit (s := _) rfl ?_)
    | split
    | with_reducible apply Serves.lit
    | exact fun _ h => h
    | (intro t ht)

theorem serveCommit_held (a : Ask) {r0 s : State} (h0 : Held r0 s) : Serves r0 (serveCommit a s) := by
  unfold serveCommit
  extract_lets group ms
  refine Serves.ite (Serves.fails _ h0) ?_
  split
  · exact Serves.lit _ _ (Held.ite h0 (h0.on (emptyGroup_steady _ _ (Steady.refl s)))) fun _ h => h
  · exact Serves.answers _ ((tryCommit_held _ h0 _ _ _ ‹_›).on (emptyGroup_steady _ _ (Steady.refl _)))

theorem serveDiscard_held (a : Ask) {r0 s : State} (h0 : Held r0 s) : Serves r0 (serveDiscard a s) := by
  unfold serveDiscard
  repeat' first
    | (extract_lets +onlyGivenNames x; refine Held.cut (r := r0) x ?_ (fun hx => ?_); unfold x; clear x; rotate_left; clear_value x)
    | (extract_lets +onlyGivenNames x; unfold x; clear x)
    | with_reducible assumption
    | with_reducible apply Serves.answers
    | with_reducible apply Serves.fails
    | with_reducible apply Serves.ask
    | with_reducible apply Serves.ite
    | with_reducible apply Held.ite
    | with_reducible refine Held.on ?_ (emptyGroup_steady (h0 := Steady.refl _) ..)
    | split
    | with_reducible apply Serves.lit
    | exact fun _ h => h
    | (intro t ht)

theorem serveCommitStatus_held (a : Ask) {r0 s : State} (h0 : Held r0 s) : Serves r0 (serveCommitStatus a s) := by
  unfold serveCommitStatus
  repeat' first
    | (extract_lets +onlyGivenNames x; refine Held.cut (r := r0) x ?_ (fun hx => ?_); unfold x; clear x; rotate_left; clear_value x)
    | (extract_lets +onlyGivenNames x; unfold x; clear x)
    | with_reducible assumption
    | with_reducible apply Serves.answers
    | with_reducible apply Serves.fails
    | with_reducible apply Serves.ask
    | with_reducible apply Serves.ite
    | with_reducible apply Held.ite
    | split
    | with_reducible apply Serves.lit
    | exact fun _ h => h
    | (intro t ht)

theorem updTransfer_steady (num : Nat) (f : Transfer → Transfer) {r0 s : State} (h0 : Steady r0 s) : Steady r0 (updTransfer num f s) := by
  unfold updTransfer
  repeat' first
    | with_reducible assumption
    | with_reducible apply Steady.ite
    | fail_if_no_progress (with_reducible refine Steady.lit (s := _) rfl ?_)
    | split

theorem endTransfer_steady (num : Nat) {r0 s : State} (h0 : Steady r0 s) : Steady r0 (endTransfer num s) := by
  unfold endTransfer
  repeat' first
    | with_reducible assumption
    | fail_if_no_progress (with_reducible refine Steady.lit (s := _) rfl ?_)

theorem dropTransfer_steady (t : Transfer) {r0 s : State} (h0 : Steady r0 s) : Steady r0 (dropTransfer t s) := by
  unfold dropTransfer
  repeat' first
    | (extract_lets +onlyGivenNames x; refine Steady.cut (r := r0) x ?_ (fun hx => ?_); unfold x; clear x; rotate_left; clear_value x)
    | (extract_lets +onlyGivenNames x; unfold x; clear x)
    | with_reducible assumption
    | with_reducible apply Steady.ite
    | with_reducible apply endTransfer_steady
    | with_reducible apply stage_steady
    | split

theorem serveSegInit_held (a : Ask) {r0 s : State} (h0 : Held r0 s) : Serves r0 (serveSegInit a s) := by
  unfold serveSegInit
  repeat' first
    | (extract_lets +onlyGivenNames x; refine Held.cut (r := r0) x ?_ (fun hx => ?_); unfold x; clear x; rotate_left; clear_value x)
    | (extract_lets +onlyGivenNames x; refine Held.cut2 (r := r0) x ?_ (fun hx => ?_); unfold x; clear x; rotate_left; clear_value x)
    | (extract_lets +onlyGivenNames x; refine Held.cut1 (r := r0) x ?_ (fun hx => ?_); unfold x; clear x; rotate_left; clear_value x)
    | (extract_lets +onlyGivenNames x; unfold x; clear x)
    | with_reducible assumption
    | with_reducible apply Serves.answers
    | with_reducible apply Serves.fails
    | with_reducible apply Serves.ask
    | with_reducible apply Serves.ite
    | with_reducible apply Held.ite
    | with_reducible refine Held.on ?_ (State.view_steady (h0 := Steady.refl _) ..)
    | with_reducible refine Held.on ?_ (readClears_steady (h0 := Steady.refl _) ..)
    | with_reducible refine Held.on ?_ (stage_steady (h0 := Steady.refl _) ..)
    | fail_if_no_progress (with_reducible refine Held.lit (s := _) rfl ?_)
    | split
    | with_reducible apply Serves.lit
    | exact fun _ h => h
    | (intro t ht)

theorem serveSegData_held (a : Ask) {r0 s : State} (h0 : Held r0 s) : Serves r0 (serveSegData a s) := by
  unfold serveSegData
  repeat' first
    | (extract_lets +onlyGivenNames x; refine Held.cut (r := r0) x ?_ (fun hx => ?_); unfold x; clear x; rotate_left; clear_value x)
    | (extract_lets +onlyGivenNames x; unfold x; clear x)
    | with_reducible assumption
    | with_reducible apply Serves.answers
    | with_reducible apply Serves.fails
    | with_reducible apply Serves.ask
    | with_reducible apply Serves.ite
    | with_reducible apply Held.ite
    | with_reducible refine Held.on ?_ (State.count_steady (h0 := Steady.refl _) ..)
    | with_reducible refine Held.on ?_ (updTransfer_steady (h0 := Steady.refl _) ..)
    | fail_if_no_progress (with_reducible refine Held.lit (s := _) rfl ?_)
    | split
    | with_reducible apply Serves.lit
    | exact fun _ h => h
    | (intro t ht)

theorem applyTransfer_held (a : Ask) (t : Transfer) (crc : Nat) {r0 s : State} (h0 : Held r0 s) : Serves r0 (applyTransfer a t crc s) := by
  unfold applyTransfer
  repeat' first
    | (extract_lets +onlyGivenNames x; refine Held.cut (r := r0) x ?_ (fun hx => ?_); unfold x; clear x; rotate_left; clear_value x)
    | (extract_lets +onlyGivenNames x; unfold x; clear x)
    | with_reducible assumption
    | with_reducible apply Serves.answers
    | with_reducible apply Serves.fails
    | with_reducible apply Serves.ask
    | with_reducible apply Serves.ite
    | with_reducible apply Held.ite
    | with_reducible refine Held.on ?_ (endTransfer_steady (h0 := Steady.refl _) ..)
    | with_reducible refine Held.on ?_ (stage_steady (h0 := Steady.refl _) ..)
    | with_reducible apply tryCommit_held
    | with_reducible apply writeBlob_held
    | exact tryCommit_held _ hx _ _ _ ‹tryCommit _ _ = _›
    | (have w := writeBlob_held _ _ _ _ hx _ ‹writeBlob _ _ _ _ _ = _›; first | exact w.1 | exact w.2)
    | fail_if_no_progress (with_reducible refine Held.lit (s := _) rfl ?_)
    | split
    | with_reducible apply Serves.lit
    | exact fun _ h => h
    | (intro t ht)

theorem serveSegEnd_held (a : Ask) {r0 s : State} (h0 : Held r0 s) : Serves r0 (serveSegEnd a s) := by
  unfold serveSegEnd
  repeat' first
    | (extract_lets +onlyGivenNames x; refine Held.cut (r := r0) x ?_ (fun hx => ?_); unfold x; clear x; rotate_left; clear_value x)
    | (extract_lets +onlyGivenNames x; unfold x; clear x)
    | with_reducible assumption
    | with_reducible apply Serves.answers
    | with_reducible apply Serves.fails
    | with_reducible apply Serves.ask
    | with_reducible apply Serves.ite
    | with_reducible apply Held.ite
    | with_reducible refine Held.on ?_ (updTransfer_steady (h0 := Steady.refl _) ..)
    | with_reducible refine Held.on ?_ (endTransfer_steady (h0 := Steady.refl _) ..)
    | with_reducible refine Held.on ?_ (dropTransfer_steady (h0 := Steady.refl _) ..)
    | with_reducible apply applyTransfer_held
    | fail_if_no_progress (with_reducible refine Held.lit (s := _) rfl ?_)
    | split
    | with_reducible apply Serves.lit
    | exact fun _ h => h
    | (intro t ht)

theorem serveSegAbort_held (a : Ask) {r0 s : State} (h0 : Held r0 s) : Serves r0 (serveSegAbort a s) := by
  unfold serveSegAbort
  repeat' first
    | with_reducible assumption
    | with_reducible apply Serves.answers
    | with_reducible apply Serves.fails
    | with_reducible apply Serves.ask
    | with_reducible apply Serves.ite
    | with_reducible refine Held.on ?_ (dropTransfer_steady (h0 := Steady.refl _) ..)
    | fail_if_no_progress (with_reducible refine Held.lit (s := _) rfl ?_)
    | split
    | with_reducible apply Serves.lit
    | exact fun _ h => h
    | (intro t ht)

theorem serveSessionOpen_held (a : Ask) {r0 s : State} (h0 : Held r0 s) : Serves r0 (serveSessionOpen a s) := by
  unfold serveSessionOpen
  repeat' first
    | (extract_lets +onlyGivenNames x; refine Held.cut (r := r0) x ?_ (fun hx => ?_); unfold x; clear x; rotate_left; clear_value x)
    | (extract_lets +onlyGivenNames x; unfold x; clear x)
    | with_reducible assumption
    | with_reducible apply Serves.answers
    | with_reducible apply Serves.fails
    | with_reducible apply Serves.ask
    | with_reducible apply Serves.ite
    | with_reducible apply Held.ite
    | fail_if_no_progress (with_reducible refine Held.lit (s := _) rfl ?_)
    | split
    | with_reducible apply Serves.lit
    | exact fun _ h => h
    | (intro t ht)

theorem proofFails_held (a : Ask) (x : Session) {r0 s : State} (h0 : Held r0 s) : Serves r0 (proofFails a x s) := by
  unfold proofFails
  extract_lets src s1 recent locked kd s2 s3 kd2 s4 s5
  have k1 : Steady s s1 := State.count_steady _ _ (closeSession_steady _ (Steady.refl s))
  have k2 : Steady s s2 := Steady.lit (s := s1) rfl k1
  have k3 : Steady s s3 := audit_steady _ _ _ _ _ _ _ k2
  have k4 : Steady s s4 := Steady.lit (s := s3) rfl k3
  have k5 : Steady s s5 := Steady.ite (State.raiseFault_steady _ _ _ _ _ _ _ k4) k3
  exact Serves.fails _ (h0.on k5)

theorem openSession_steady (x : Session) (key : Bytes) {r0 s : State} (h0 : Steady r0 s) : Steady r0 (openSession x key s) := by
  unfold openSession
  repeat' first
    | (extract_lets +onlyGivenNames x; refine Steady.cut (r := r0) x ?_ (fun hx => ?_); unfold x; clear x; rotate_left; clear_value x)
    | (extract_lets +onlyGivenNames x; unfold x; clear x)
    | with_reducible assumption
    | with_reducible apply updSession_steady
    | with_reducible apply State.setReg_steady
    | fail_if_no_progress (with_reducible refine Steady.lit (s := _) rfl ?_)

theorem serveSessionAuth_held (a : Ask) {r0 s : State} (h0 : Held r0 s) : Serves r0 (serveSessionAuth a s) := by
  unfold serveSessionAuth
  repeat' first
    | (extract_lets +onlyGivenNames x; refine Held.cut (r := r0) x ?_ (fun hx => ?_); unfold x; clear x; rotate_left; clear_value x)
    | (extract_lets +onlyGivenNames x; unfold x; clear x)
    | with_reducible assumption
    | with_reducible apply Serves.answers
    | with_reducible apply Serves.fails
    | with_reducible apply Serves.ask
    | with_reducible apply Serves.ite
    | with_reducible apply Held.ite
    | with_reducible apply proofFails_held
    | with_reducible refine Held.on ?_ (audit_steady (h0 := Steady.refl _) ..)
    | with_reducible refine Held.on ?_ (openSession_steady (h0 := Steady.refl _) ..)
    | fail_if_no_progress (with_reducible refine Held.lit (s := _) rfl ?_)
    | split
    | with_reducible apply Serves.lit
    | exact fun _ h => h
    | (intro t ht)

theorem serveSessionClose_held (a : Ask) {r0 s : State} (h0 : Held r0 s) : Serves r0 (serveSessionClose a s) := by
  unfold serveSessionClose
  repeat' first
    | with_reducible assumption
    | with_reducible apply Serves.answers
    | with_reducible apply Serves.fails
    | with_reducible apply Serves.ask
    | with_reducible apply Serves.ite
    | with_reducible apply Held.ite
    | with_reducible refine Held.on ?_ (closeSession_steady (h0 := Steady.refl _) ..)
    | split
    | with_reducible apply Serves.lit
    | exact fun _ h => h
    | (intro t ht)

theorem serveSubscribe_held (a : Ask) {r0 s : State} (h0 : Held r0 s) : Serves r0 (serveSubscribe a s) := by
  unfold serveSubscribe
  repeat' first
    | (extract_lets +onlyGivenNames x; refine Held.cut (r := r0) x ?_ (fun hx => ?_); unfold x; clear x; rotate_left; clear_value x)
    | (extract_lets +onlyGivenNames x; unfold x; clear x)
    | with_reducible assumption
    | with_reducible apply Serves.answers
    | with_reducible apply Serves.fails
    | with_reducible apply Serves.ask
    | with_reducible apply Serves.ite
    | with_reducible apply Held.ite
    | with_reducible refine Held.on ?_ (noteSubscribers_steady (h0 := Steady.refl _) ..)
    | fail_if_no_progress (with_reducible refine Held.lit (s := _) rfl ?_)
    | split
    | with_reducible apply Serves.lit
    | exact fun _ h => h
    | (intro t ht)

theorem serveEventAck_held (a : Ask) {r0 s : State} (h0 : Held r0 s) : Serves r0 (serveEventAck a s) := by
  unfold serveEventAck
  repeat' first
    | (extract_lets +onlyGivenNames x; refine Held.cut (r := r0) x ?_ (fun hx => ?_); unfold x; clear x; rotate_left; clear_value x)
    | (extract_lets +onlyGivenNames x; unfold x; clear x)
    | with_reducible assumption
    | with_reducible apply Serves.answers
    | with_reducible apply Serves.fails
    | with_reducible apply Serves.ask
    | with_reducible apply Serves.ite
    | with_reducible apply Held.ite
    | with_reducible refine Held.on ?_ (State.free_steady (h0 := Steady.refl _) ..)
    | fail_if_no_progress (with_reducible refine Held.lit (s := _) rfl ?_)
    | split
    | with_reducible apply Serves.lit
    | exact fun _ h => h
    | (intro t ht)

theorem driveEnumOut_steady (on : Bool) {r0 s : State} (h0 : Steady r0 s) : Steady r0 (driveEnumOut on s) := by
  unfold driveEnumOut
  repeat' first
    | with_reducible assumption
    | with_reducible apply Steady.ite
    | with_reducible apply State.emit_steady
    | fail_if_no_progress (with_reducible refine Steady.lit (s := _) rfl ?_)
    | split

theorem serveAssign_held (a : Ask) {r0 s : State} (h0 : Held r0 s) : Serves r0 (serveAssign a s) := by
  unfold serveAssign
  repeat' first
    | (extract_lets +onlyGivenNames x; refine Held.cut (r := r0) x ?_ (fun hx => ?_); unfold x; clear x; rotate_left; clear_value x)
    | (extract_lets +onlyGivenNames x; unfold x; clear x)
    | with_reducible assumption
    | with_reducible apply Serves.answers
    | with_reducible apply Serves.fails
    | with_reducible apply Serves.ask
    | with_reducible apply Serves.ite
    | with_reducible apply Held.ite
    | with_reducible refine Held.on ?_ (State.setReg_steady (h0 := Steady.refl _) ..)
    | with_reducible refine Held.on ?_ (driveEnumOut_steady (h0 := Steady.refl _) ..)
    | fail_if_no_progress (with_reducible refine Held.lit (s := _) rfl ?_)
    | split
    | with_reducible apply Serves.lit
    | exact fun _ h => h
    | (intro t ht)

theorem service_held (op : Nat) (a : Ask) {r0 s : State} (h0 : Held r0 s) : Serves r0 (service op a s) := by
  unfold service
  repeat' first
    | with_reducible assumption
    | with_reducible apply Serves.answers
    | with_reducible apply Serves.fails
    | with_reducible apply Serves.ask
    | with_reducible apply Serves.ite
    | with_reducible apply serveDiscover_held
    | with_reducible apply serveAssign_held
    | with_reducible apply serveNop_held
    | with_reducible apply serveRead_held
    | with_reducible apply serveWrite_held
    | with_reducible apply serveReadDesc_held
    | with_reducible apply serveCommit_held
    | with_reducible apply serveDiscard_held
    | with_reducible apply serveCommitStatus_held
    | with_reducible apply serveSegInit_held
    | with_reducible apply serveSegData_held
    | with_reducible apply serveSegEnd_held
    | with_reducible apply serveSegAbort_held
    | with_reducible apply serveSessionOpen_held
    | with_reducible apply serveSessionAuth_held
    | with_reducible apply serveSessionClose_held
    | with_reducible apply serveSubscribe_held
    | with_reducible apply serveEventAck_held
    | fail_if_no_progress (with_reducible refine Held.lit (s := _) rfl ?_)
    | split
    | with_reducible apply Serves.lit
    | exact fun _ h => h
    | (intro t ht)

theorem reply_steady (q : Kdp) (op session error : Nat) (payload : Bytes) {r0 s : State} (h0 : Steady r0 s) : Steady r0 (reply q op session error payload s) := by
  unfold reply
  repeat' first
    | with_reducible assumption
    | with_reducible apply Steady.ite
    | with_reducible apply State.emit_steady
    | with_reducible apply sendKdp_steady
    | split

theorem refuse_steady (q : Kdp) (op session index sub : Nat) (e : Err) {r0 s : State} (h0 : Steady r0 s) : Steady r0 (refuse q op session index sub e s) := by
  unfold refuse
  repeat' first
    | with_reducible assumption
    | with_reducible apply reply_steady

theorem keepResponse_steady (k : Kept) {r0 s : State} (h0 : Steady r0 s) : Steady r0 (keepResponse k s) := by
  unfold keepResponse
  repeat' first
    | (extract_lets +onlyGivenNames x; refine Steady.cut (r := r0) x ?_ (fun hx => ?_); unfold x; clear x; rotate_left; clear_value x)
    | (extract_lets +onlyGivenNames x; unfold x; clear x)
    | with_reducible assumption
    | fail_if_no_progress (with_reducible refine Steady.lit (s := _) rfl ?_)

theorem conclude_held (op : Nat) (q : Kdp) (ses : Nat) {d : Served} {r0 : State} (h0 : Serves r0 d) : Held r0 (conclude op q ses d) := by
  unfold conclude
  extract_lets num
  split
  · exact h0.2 _ h0.1
  · exact h0.2 _ (h0.1.on (reply_steady _ _ _ _ _ (keepResponse_steady _ (Steady.refl _))))
  · extract_lets p
    exact h0.2 _ (h0.1.on (reply_steady _ _ _ _ _ (keepResponse_steady _ (Steady.refl _))))

theorem execute_held (op : Nat) (q : Kdp) {r0 s : State} (h0 : Held r0 s) : Held r0 (execute op q s) := by
  unfold execute
  extract_lets ses role index sub
  clear_value ses role index sub
  have r (o n i b : Nat) (e : Err) : Held r0 (refuse q o n i b e s) := h0.on (refuse_steady _ _ _ _ _ _ (Steady.refl s))
  refine Held.ite (r _ _ _ _ _) (Held.ite (r _ _ _ _ _) ?_)
  split
  · exact Held.ite h0 (r _ _ _ _ _)
  · refine Held.ite (r _ _ _ _ _) ?_
    split
    · exact h0.on (reply_steady _ _ _ _ _ (Steady.refl s))
    · exact conclude_held _ _ _ (service_held _ _ h0)

theorem serveRequest_held (op : Nat) (q : Kdp) {r0 s : State} (h0 : Held r0 s) : Held r0 (serveRequest op q s) := by
  unfold serveRequest
  repeat' first
    | with_reducible assumption
    | with_reducible apply Held.ite
    | with_reducible apply execute_held
    | with_reducible refine Held.on ?_ (refuse_steady (h0 := Steady.refl _) ..)
    | with_reducible refine Held.on ?_ (updSession_steady (h0 := Steady.refl _) ..)
    | fail_if_no_progress (with_reducible refine Held.lit (s := _) rfl ?_)
    | split

theorem advanceTx_steady  {r0 s : State} (h0 : Steady r0 s) : Steady r0 (advanceTx s) := by
  unfold advanceTx
  repeat' first
    | (extract_lets +onlyGivenNames x; refine Steady.cut (r := r0) x ?_ (fun hx => ?_); unfold x; clear x; rotate_left; clear_value x)
    | (extract_lets +onlyGivenNames x; unfold x; clear x)
    | with_reducible assumption
    | with_reducible apply Steady.ite
    | with_reducible apply skipBadSlots_steady
    | with_reducible apply txVector_steady
    | fail_if_no_progress (with_reducible refine Steady.lit (s := _) rfl ?_)
    | split

theorem noteActivity_steady (q : Kdp) {r0 s : State} (h0 : Steady r0 s) : Steady r0 (noteActivity q s) := by
  unfold noteActivity
  repeat' first
    | with_reducible assumption
    | with_reducible apply Steady.ite
    | fail_if_no_progress (with_reducible refine Steady.lit (s := _) rfl ?_)
    | split

theorem receive_held (op : Nat) (q : Kdp) {r0 s : State} (h0 : Held r0 s) : Held r0 (receive op q s) := by
  unfold receive
  repeat' first
    | (extract_lets +onlyGivenNames x; refine Held.cut (r := r0) x ?_ (fun hx => ?_); unfold x; clear x; rotate_left; clear_value x)
    | (extract_lets +onlyGivenNames x; refine Held.cut2 (r := r0) x ?_ (fun hx => ?_); unfold x; clear x; rotate_left; clear_value x)
    | (extract_lets +onlyGivenNames x; refine Held.cut1 (r := r0) x ?_ (fun hx => ?_); unfold x; clear x; rotate_left; clear_value x)
    | (extract_lets +onlyGivenNames x; unfold x; clear x)
    | with_reducible assumption
    | with_reducible apply Held.ite
    | with_reducible apply wakeUp_held
    | with_reducible refine Held.on ?_ (noteActivity_steady (h0 := Steady.refl _) ..)
    | with_reducible refine Held.on ?_ (advanceTx_steady (h0 := Steady.refl _) ..)
    | with_reducible refine Held.on ?_ (refuse_steady (h0 := Steady.refl _) ..)
    | with_reducible apply serveRequest_held
    | fail_if_no_progress (with_reducible refine Held.lit (s := _) rfl ?_)
    | split

theorem execDiscover_held (q : Kdp) {r0 s : State} (h0 : Held r0 s) : Leads r0 (execDiscover q s) := by
  unfold execDiscover
  repeat' first
    | with_reducible assumption
    | with_reducible apply Leads.next
    | with_reducible apply receive_held

theorem execAssignAddress_held (q : Kdp) {r0 s : State} (h0 : Held r0 s) : Leads r0 (execAssignAddress q s) := by
  unfold execAssignAddress
  repeat' first
    | with_reducible assumption
    | with_reducible apply Leads.next
    | with_reducible apply receive_held

theorem execNop_held (q : Kdp) {r0 s : State} (h0 : Held r0 s) : Leads r0 (execNop q s) := by
  unfold execNop
  repeat' first
    | with_reducible assumption
    | with_reducible apply Leads.next
    | with_reducible apply receive_held

theorem execRead_held (q : Kdp) {r0 s : State} (h0 : Held r0 s) : Leads r0 (execRead q s) := by
  unfold execRead
  repeat' first
    | with_reducible assumption
    | with_reducible apply Leads.next
    | with_reducible apply receive_held

theorem execWrite_held (q : Kdp) {r0 s : State} (h0 : Held r0 s) : Leads r0 (execWrite q s) := by
  unfold execWrite
  repeat' first
    | with_reducible assumption
    | with_reducible apply Leads.next
    | with_reducible apply receive_held

theorem execReadDesc_held (q : Kdp) {r0 s : State} (h0 : Held r0 s) : Leads r0 (execReadDesc q s) := by
  unfold execReadDesc
  repeat' first
    | with_reducible assumption
    | with_reducible apply Leads.next
    | with_reducible apply receive_held

theorem execCommit_held (q : Kdp) {r0 s : State} (h0 : Held r0 s) : Leads r0 (execCommit q s) := by
  unfold execCommit
  repeat' first
    | with_reducible assumption
    | with_reducible apply Leads.next
    | with_reducible apply receive_held

theorem execDiscard_held (q : Kdp) {r0 s : State} (h0 : Held r0 s) : Leads r0 (execDiscard q s) := by
  unfold execDiscard
  repeat' first
    | with_reducible assumption
    | with_reducible apply Leads.next
    | with_reducible apply receive_held

theorem execCommitStatus_held (q : Kdp) {r0 s : State} (h0 : Held r0 s) : Leads r0 (execCommitStatus q s) := by
  unfold execCommitStatus
  repeat' first
    | with_reducible assumption
    | with_reducible apply Leads.next
    | with_reducible apply receive_held

theorem execSegInit_held (q : Kdp) {r0 s : State} (h0 : Held r0 s) : Leads r0 (execSegInit q s) := by
  unfold execSegInit
  repeat' first
    | with_reducible assumption
    | with_reducible apply Leads.next
    | with_reducible apply receive_held

theorem execSegData_held (q : Kdp) {r0 s : State} (h0 : Held r0 s) : Leads r0 (execSegData q s) := by
  unfold execSegData
  repeat' first
    | with_reducible assumption
    | with_reducible apply Leads.next
    | with_reducible apply receive_held

theorem execSegEnd_held (q : Kdp) {r0 s : State} (h0 : Held r0 s) : Leads r0 (execSegEnd q s) := by
  unfold execSegEnd
  repeat' first
    | with_reducible assumption
    | with_reducible apply Leads.next
    | with_reducible apply receive_held

theorem execSegAbort_held (q : Kdp) {r0 s : State} (h0 : Held r0 s) : Leads r0 (execSegAbort q s) := by
  unfold execSegAbort
  repeat' first
    | with_reducible assumption
    | with_reducible apply Leads.next
    | with_reducible apply receive_held

theorem execSessionOpen_held (q : Kdp) {r0 s : State} (h0 : Held r0 s) : Leads r0 (execSessionOpen q s) := by
  unfold execSessionOpen
  repeat' first
    | with_reducible assumption
    | with_reducible apply Leads.next
    | with_reducible apply receive_held

theorem execSessionAuth_held (q : Kdp) {r0 s : State} (h0 : Held r0 s) : Leads r0 (execSessionAuth q s) := by
  unfold execSessionAuth
  repeat' first
    | with_reducible assumption
    | with_reducible apply Leads.next
    | with_reducible apply receive_held

theorem execSessionClose_held (q : Kdp) {r0 s : State} (h0 : Held r0 s) : Leads r0 (execSessionClose q s) := by
  unfold execSessionClose
  repeat' first
    | with_reducible assumption
    | with_reducible apply Leads.next
    | with_reducible apply receive_held

theorem execSubscribe_held (q : Kdp) {r0 s : State} (h0 : Held r0 s) : Leads r0 (execSubscribe q s) := by
  unfold execSubscribe
  repeat' first
    | with_reducible assumption
    | with_reducible apply Leads.next
    | with_reducible apply receive_held

theorem execEventAck_held (q : Kdp) {r0 s : State} (h0 : Held r0 s) : Leads r0 (execEventAck q s) := by
  unfold execEventAck
  repeat' first
    | with_reducible assumption
    | with_reducible apply Leads.next
    | with_reducible apply receive_held

theorem execUnknownOpcode_held (q : Kdp) (op : BitVec 8) {r0 s : State} (h0 : Held r0 s) : Leads r0 (execUnknownOpcode q op s) := by
  unfold execUnknownOpcode
  repeat' first
    | with_reducible assumption
    | with_reducible apply Leads.next
    | with_reducible apply Leads.ite
    | with_reducible apply Held.ite
    | with_reducible apply receive_held
    | split

theorem execSegTimeout_steady (transfer : BitVec 8) {r0 s : State} (h0 : Steady r0 s) : Ends r0 (execSegTimeout transfer s) := by
  unfold execSegTimeout
  repeat' first
    | with_reducible assumption
    | with_reducible apply Ends.next
    | with_reducible apply Ends.ite
    | with_reducible apply Steady.ite
    | with_reducible apply dropTransfer_steady
    | fail_if_no_progress (with_reducible refine Steady.lit (s := _) rfl ?_)
    | split

theorem execSessionTimeout_steady (session : BitVec 16) {r0 s : State} (h0 : Steady r0 s) : Ends r0 (execSessionTimeout session s) := by
  unfold execSessionTimeout
  repeat' first
    | with_reducible assumption
    | with_reducible apply Ends.next
    | with_reducible apply Ends.ite
    | with_reducible apply Steady.ite
    | with_reducible apply closeSession_steady
    | fail_if_no_progress (with_reducible refine Steady.lit (s := _) rfl ?_)
    | split

theorem execEventRetry_steady (mailbox : Bool) {r0 s : State} (h0 : Steady r0 s) : Ends r0 (execEventRetry mailbox s) := by
  unfold execEventRetry
  repeat' first
    | (extract_lets +onlyGivenNames x; refine Steady.cut (r := r0) x ?_ (fun hx => ?_); unfold x; clear x; rotate_left; clear_value x)
    | (extract_lets +onlyGivenNames x; refine Steady.cut2 (r := r0) x ?_ (fun hx => ?_); unfold x; clear x; rotate_left; clear_value x)
    | (extract_lets +onlyGivenNames x; refine Steady.cut1 (r := r0) x ?_ (fun hx => ?_); unfold x; clear x; rotate_left; clear_value x)
    | (extract_lets +onlyGivenNames x; unfold x; clear x)
    | with_reducible assumption
    | with_reducible apply Ends.next
    | with_reducible apply Ends.ite
    | with_reducible apply Steady.ite
    | with_reducible apply sendKdp_steady
    | with_reducible apply sendVector_steady
    | fail_if_no_progress (with_reducible refine Steady.lit (s := _) rfl ?_)
    | split

theorem execKdpMalformed_steady  {r0 s : State} (h0 : Steady r0 s) : Ends r0 (execKdpMalformed s) := by
  unfold execKdpMalformed
  repeat' first
    | with_reducible assumption
    | with_reducible apply Ends.next
    | with_reducible apply Ends.ite
    | with_reducible apply Steady.ite
    | with_reducible apply State.count_steady
    | split

end Sys2Proof.Machine
end

