-- ==== Sys2Proof/Laws/SteadyNetwork.lean ====
section
/-! SUPPORT. What the operations of Machine/Network.lean keep. -/
namespace Sys2Proof.Machine

set_option linter.unusedTactic false
set_option linter.unreachableTactic false

theorem State.updAddr_steady (f : Addressing → Addressing) {r0 s : State} (h0 : Steady r0 s) : Steady r0 (State.updAddr s f) := by
  unfold State.updAddr
  repeat' first
    | with_reducible assumption
    | fail_if_no_progress (with_reducible refine Steady.lit (s := _) rfl ?_)

theorem armEnumOut_steady  {r0 s : State} (h0 : Steady r0 s) : Steady r0 (armEnumOut s) := by
  unfold armEnumOut
  repeat' first
    | with_reducible assumption
    | with_reducible apply State.updAddr_steady
    | fail_if_no_progress (with_reducible refine Steady.lit (s := _) rfl ?_)

theorem takeAddress_steady (addr seq src : Nat) (mailbox : Bool) {r0 s : State} (h0 : Steady r0 s) : Steady r0 (takeAddress addr seq src mailbox s) := by
  unfold takeAddress
  repeat' first
    | (extract_lets +onlyGivenNames x; refine Steady.cut (r := r0) x ?_ (fun hx => ?_); unfold x; clear x; rotate_left; clear_value x)
    | (extract_lets +onlyGivenNames x; unfold x; clear x)
    | with_reducible assumption
    | with_reducible apply State.setReg_steady
    | with_reducible apply State.updAddr_steady
    | with_reducible apply sendKdp_steady
    | with_reducible apply armEnumOut_steady
    | with_reducible apply State.raise_steady
    | fail_if_no_progress (with_reducible refine Steady.lit (s := _) rfl ?_)

theorem execAddressTake_steady  {r0 s : State} (h0 : Steady r0 s) : Ends r0 (execAddressTake s) := by
  unfold execAddressTake
  repeat' first
    | with_reducible assumption
    | with_reducible apply Ends.next
    | with_reducible apply Ends.ite
    | with_reducible apply Steady.ite
    | with_reducible apply takeAddress_steady
    | fail_if_no_progress (with_reducible refine Steady.lit (s := _) rfl ?_)
    | split

theorem execEnumOutAssert_steady  {r0 s : State} (h0 : Steady r0 s) : Ends r0 (execEnumOutAssert s) := by
  unfold execEnumOutAssert
  repeat' first
    | with_reducible assumption
    | with_reducible apply Ends.next
    | with_reducible apply Ends.ite
    | with_reducible apply Steady.ite
    | with_reducible apply driveEnumOut_steady
    | with_reducible apply State.updAddr_steady
    | fail_if_no_progress (with_reducible refine Steady.lit (s := _) rfl ?_)
    | split

theorem execEnumInAssert_steady  {r0 s : State} (h0 : Steady r0 s) : Ends r0 (execEnumInAssert s) := by
  unfold execEnumInAssert
  repeat' first
    | (extract_lets +onlyGivenNames x; refine Steady.cut (r := r0) x ?_ (fun hx => ?_); unfold x; clear x; rotate_left; clear_value x)
    | (extract_lets +onlyGivenNames x; unfold x; clear x)
    | with_reducible assumption
    | with_reducible apply Ends.next
    | with_reducible apply Ends.ite
    | with_reducible apply Steady.ite
    | with_reducible apply State.updAddr_steady
    | with_reducible apply armEnumOut_steady
    | fail_if_no_progress (with_reducible refine Steady.lit (s := _) rfl ?_)
    | split

theorem execAddressInUseSeen_steady (a : BitVec 8) {r0 s : State} (h0 : Steady r0 s) : Ends r0 (execAddressInUseSeen a s) := by
  unfold execAddressInUseSeen
  repeat' first
    | with_reducible assumption
    | with_reducible apply Ends.next
    | with_reducible apply Ends.ite
    | with_reducible apply Steady.ite
    | with_reducible apply State.updAddr_steady
    | fail_if_no_progress (with_reducible refine Steady.lit (s := _) rfl ?_)
    | split

theorem execFnLinkFault_steady  {r0 s : State} (h0 : Steady r0 s) : Ends r0 (execFnLinkFault s) := by
  unfold execFnLinkFault
  repeat' first
    | with_reducible assumption
    | with_reducible apply Ends.next
    | with_reducible apply Ends.ite
    | with_reducible apply Steady.ite
    | with_reducible apply State.updAddr_steady
    | with_reducible apply State.raiseFault_steady
    | fail_if_no_progress (with_reducible refine Steady.lit (s := _) rfl ?_)
    | split

theorem State.updPtp_steady (f : Ptp → Ptp) {r0 s : State} (h0 : Steady r0 s) : Steady r0 (State.updPtp s f) := by
  unfold State.updPtp
  repeat' first
    | with_reducible assumption
    | fail_if_no_progress (with_reducible refine Steady.lit (s := _) rfl ?_)

theorem ptpLose_steady  {r0 s : State} (h0 : Steady r0 s) : Steady r0 (ptpLose s) := by
  unfold ptpLose
  repeat' first
    | with_reducible assumption
    | with_reducible apply State.updPtp_steady
    | with_reducible apply State.raiseFault_steady
    | fail_if_no_progress (with_reducible refine Steady.lit (s := _) rfl ?_)

theorem stepTime_steady (d : Int) {r0 s : State} (h0 : Steady r0 s) : Steady r0 (stepTime d s) := by
  unfold stepTime
  repeat' first
    | (extract_lets +onlyGivenNames x; refine Steady.cut (r := r0) x ?_ (fun hx => ?_); unfold x; clear x; rotate_left; clear_value x)
    | (extract_lets +onlyGivenNames x; refine Steady.cut2 (r := r0) x ?_ (fun hx => ?_); unfold x; clear x; rotate_left; clear_value x)
    | (extract_lets +onlyGivenNames x; refine Steady.cut1 (r := r0) x ?_ (fun hx => ?_); unfold x; clear x; rotate_left; clear_value x)
    | (extract_lets +onlyGivenNames x; unfold x; clear x)
    | with_reducible assumption
    | with_reducible refine Steady.foldl1 _ _ ?_ (fun _ _ _ => ?_)
    | with_reducible refine Steady.foldl2 _ _ ?_ (fun _ _ _ => ?_)
    | with_reducible refine Steady.foldl _ _ ?_ (fun _ _ _ => ?_)
    | with_reducible apply State.updLane_steady
    | with_reducible apply State.updGroup_steady
    | with_reducible apply distribute_steady
    | fail_if_no_progress (with_reducible refine Steady.lit (s := _) rfl ?_)

theorem discipline_steady (offset : Int) {r0 s : State} (h0 : Steady r0 s) : Steady r0 (discipline offset s) := by
  unfold discipline
  repeat' first
    | (extract_lets +onlyGivenNames x; refine Steady.cut (r := r0) x ?_ (fun hx => ?_); unfold x; clear x; rotate_left; clear_value x)
    | (extract_lets +onlyGivenNames x; unfold x; clear x)
    | with_reducible assumption
    | with_reducible apply Steady.ite
    | with_reducible apply stepTime_steady
    | with_reducible apply State.updPtp_steady
    | with_reducible apply State.raise_steady
    | fail_if_no_progress (with_reducible refine Steady.lit (s := _) rfl ?_)
    | split

theorem ptpJudge_steady (offset : Int) {r0 s : State} (h0 : Steady r0 s) : Steady r0 (ptpJudge offset s) := by
  unfold ptpJudge
  repeat' first
    | (extract_lets +onlyGivenNames x; refine Steady.cut (r := r0) x ?_ (fun hx => ?_); unfold x; clear x; rotate_left; clear_value x)
    | (extract_lets +onlyGivenNames x; unfold x; clear x)
    | with_reducible assumption
    | with_reducible apply Steady.ite
    | with_reducible apply State.updPtp_steady
    | with_reducible apply ptpLose_steady
    | fail_if_no_progress (with_reducible refine Steady.lit (s := _) rfl ?_)
    | split

theorem execPtpSync_steady (origin : Nat) {r0 s : State} (h0 : Steady r0 s) : Ends r0 (execPtpSync origin s) := by
  unfold execPtpSync
  repeat' first
    | (extract_lets +onlyGivenNames x; refine Steady.cut (r := r0) x ?_ (fun hx => ?_); unfold x; clear x; rotate_left; clear_value x)
    | (extract_lets +onlyGivenNames x; unfold x; clear x)
    | with_reducible assumption
    | with_reducible apply Ends.next
    | with_reducible apply Ends.ite
    | with_reducible apply Steady.ite
    | with_reducible apply State.setReg_steady
    | with_reducible apply ptpJudge_steady
    | with_reducible apply State.updPtp_steady
    | with_reducible apply discipline_steady
    | with_reducible apply State.emit_steady
    | fail_if_no_progress (with_reducible refine Steady.lit (s := _) rfl ?_)
    | split

theorem execPtpDelayResp_steady (stamp : Nat) {r0 s : State} (h0 : Steady r0 s) : Ends r0 (execPtpDelayResp stamp s) := by
  unfold execPtpDelayResp
  repeat' first
    | with_reducible assumption
    | with_reducible apply Ends.next
    | with_reducible apply Ends.ite
    | with_reducible apply Steady.ite
    | with_reducible apply State.updPtp_steady
    | with_reducible apply State.setReg_steady
    | fail_if_no_progress (with_reducible refine Steady.lit (s := _) rfl ?_)
    | split

theorem execPtpUnlock_steady  {r0 s : State} (h0 : Steady r0 s) : Ends r0 (execPtpUnlock s) := by
  unfold execPtpUnlock
  repeat' first
    | with_reducible assumption
    | with_reducible apply Ends.next
    | with_reducible apply Ends.ite
    | with_reducible apply Steady.ite
    | with_reducible apply ptpLose_steady
    | split

theorem execPtpMasterSync_steady  {r0 s : State} (h0 : Steady r0 s) : Ends r0 (execPtpMasterSync s) := by
  unfold execPtpMasterSync
  repeat' first
    | (extract_lets +onlyGivenNames x; refine Steady.cut (r := r0) x ?_ (fun hx => ?_); unfold x; clear x; rotate_left; clear_value x)
    | (extract_lets +onlyGivenNames x; unfold x; clear x)
    | with_reducible assumption
    | with_reducible apply Ends.next
    | with_reducible apply Ends.ite
    | with_reducible apply Steady.ite
    | with_reducible apply State.updPtp_steady
    | with_reducible apply State.emit_steady
    | fail_if_no_progress (with_reducible refine Steady.lit (s := _) rfl ?_)
    | split

theorem execPtpPpsIn_steady (stamp : Nat) {r0 s : State} (h0 : Steady r0 s) : Ends r0 (execPtpPpsIn stamp s) := by
  unfold execPtpPpsIn
  repeat' first
    | with_reducible assumption
    | with_reducible apply Ends.next
    | with_reducible apply Ends.ite
    | with_reducible apply Steady.ite
    | with_reducible apply State.setReg_steady
    | split

theorem execPtpPpsOut_steady  {r0 s : State} (h0 : Steady r0 s) : Ends r0 (execPtpPpsOut s) := by
  unfold execPtpPpsOut
  repeat' first
    | with_reducible assumption
    | with_reducible apply Ends.next
    | with_reducible apply Ends.ite
    | with_reducible apply Steady.ite
    | with_reducible apply State.emits_steady
    | split

theorem slewTick_steady  {r0 s : State} (h0 : Steady r0 s) : Steady r0 (slewTick s) := by
  unfold slewTick
  repeat' first
    | (extract_lets +onlyGivenNames x; refine Steady.cut (r := r0) x ?_ (fun hx => ?_); unfold x; clear x; rotate_left; clear_value x)
    | (extract_lets +onlyGivenNames x; unfold x; clear x)
    | with_reducible assumption
    | with_reducible apply Steady.ite
    | with_reducible apply State.updPtp_steady
    | fail_if_no_progress (with_reducible refine Steady.lit (s := _) rfl ?_)
    | split

theorem tick_steady  {r0 s : State} (h0 : Steady r0 s) : Steady r0 (tick s) := by
  unfold tick
  repeat' first
    | with_reducible assumption
    | with_reducible apply Steady.ite
    | with_reducible apply alarmEval_steady
    | with_reducible apply deltaIssue_steady
    | with_reducible apply owedVectors_steady
    | with_reducible apply readQueues_steady
    | with_reducible apply distribute_steady
    | with_reducible apply slewTick_steady
    | split

theorem restoreCheckpoint_steady  {r0 s : State} (h0 : Steady r0 s) : Steady r0 (restoreCheckpoint s) := by
  unfold restoreCheckpoint
  repeat' first
    | (extract_lets +onlyGivenNames x; refine Steady.cut (r := r0) x ?_ (fun hx => ?_); unfold x; clear x; rotate_left; clear_value x)
    | (extract_lets +onlyGivenNames x; unfold x; clear x)
    | with_reducible assumption
    | fail_if_no_progress (with_reducible refine Steady.lit (s := _) rfl ?_)

theorem execCheckpoint_steady  {r0 s : State} (h0 : Steady r0 s) : Ends r0 (execCheckpoint s) := by
  unfold execCheckpoint
  repeat' first
    | with_reducible assumption
    | with_reducible apply Ends.next
    | with_reducible apply Ends.ite
    | with_reducible apply Steady.ite
    | fail_if_no_progress (with_reducible refine Steady.lit (s := _) rfl ?_)
    | split

theorem execLockstepMismatch_steady  {r0 s : State} (h0 : Steady r0 s) : Ends r0 (execLockstepMismatch s) := by
  unfold execLockstepMismatch
  repeat' first
    | with_reducible assumption
    | with_reducible apply Ends.next
    | with_reducible apply Ends.ite
    | with_reducible apply Steady.ite
    | with_reducible apply restoreCheckpoint_steady
    | with_reducible apply State.setReg_steady
    | with_reducible apply State.report_steady
    | fail_if_no_progress (with_reducible refine Steady.lit (s := _) rfl ?_)
    | split

theorem failCore_steady (core spare : Nat) {r0 s : State} (h0 : Steady r0 s) : Steady r0 (failCore core spare s) := by
  unfold failCore
  repeat' first
    | with_reducible assumption
    | with_reducible apply retireCore_steady
    | with_reducible apply recordRepair_steady

theorem coreShort_held  {r0 s : State} (h0 : Held r0 s) : Held r0 (coreShort s) := by
  unfold coreShort
  repeat' first
    | with_reducible assumption
    | with_reducible apply Held.ite
    | with_reducible apply sustain_held
    | split

theorem pairCores_held (pass0 pass1 : Bool) {r0 s : State} (h0 : Held r0 s) : Held r0 (pairCores pass0 pass1 s) := by
  unfold pairCores
  split
  · rename_i c0 c1 rest _
    extract_lets spare s1 out s2
    have k1 : Steady s s1 := failCore_steady _ _ (failCore_steady _ _ (Steady.refl s))
    have k2 : Steady s s2 := failCore_steady _ _ (Steady.refl s)
    clear_value s1 s2 out
    refine Held.ite (h0.on (State.setReg_steady _ _ (Steady.refl s))) (Held.ite ?_ (Held.ite ?_ ?_))
    · exact coreShort_held (h0.on (Steady.ite k1 (State.setReg_steady _ _ k1)))
    · exact h0.on (inserted_steady _ _ _ _ (countInsertion_steady _ k2))
    · exact coreShort_held (h0.on k2)
  · exact h0

theorem execTakeoverResume_held (pass0 pass1 : Bool) {r0 s : State} (h0 : Held r0 s) : Leads r0 (execTakeoverResume pass0 pass1 s) := by
  unfold execTakeoverResume
  apply Leads.next
  split
  · refine Held.ite h0 ?_
    extract_lets d a b
    have ha : Held r0 a := pairCores_held _ _ (h0.on (Steady.lit (s := s) rfl (Steady.refl s)))
    have hb : Held r0 b := ha.on (notePools_steady (switchDomain_steady _ _ (Steady.refl a)))
    clear_value b
    refine Held.ite hb (Held.foldl _ _ (Held.lit (s := b) rfl hb) fun _ _ h => receive_held _ _ h)
  · exact h0

end Sys2Proof.Machine
end

