-- ==== Sys2Proof/Laws/SteadyExec.lean ====
section
/-! SUPPORT. Every command ends in a next state, with the queue as it was, the canonical form and a decided halt kept: the laws of the
meanings, one by one. -/
namespace Sys2Proof.Machine

set_option linter.unusedTactic false
set_option linter.unreachableTactic false
/-- What any command does to the queue, the canonical form and the halt. -/
theorem exec_leads (c : Instr) (s : State) : Leads s (exec c s) := by
  cases c with
  | lineArrived _ _ _ _ => exact Leads.of_ends (execLineArrived_steady (h0 := Steady.refl s) ..)
  | recordClose _ _ => exact Leads.of_ends (execRecordClose_steady (h0 := Steady.refl s) ..)
  | oxbowRecoveryEnd _ => exact Leads.of_ends (execOxbowRecoveryEnd_steady (h0 := Steady.refl s) ..)
  | commitEnter _ _ => exact Leads.of_ends (execCommitEnter_steady (h0 := Steady.refl s) ..)
  | arbiterDecision  => exact execArbiterDecision_held (h0 := Held.refl s) ..
  | queueWrite _ _ _ _ _ _ => exact Leads.of_ends (execQueueWrite_steady (h0 := Steady.refl s) ..)
  | queuePointer _ => exact Leads.of_ends (execQueuePointer_steady (h0 := Steady.refl s) ..)
  | queueFlush  => exact Leads.of_ends (execQueueFlush_steady (h0 := Steady.refl s) ..)
  | flushDrainEnd _ => exact Leads.of_ends (execFlushDrainEnd_steady (h0 := Steady.refl s) ..)
  | blockReceived _ _ _ _ _ => exact Leads.of_ends (execBlockReceived_steady (h0 := Steady.refl s) ..)
  | blockLock _ => exact Leads.of_ends (execBlockLock_steady (h0 := Steady.refl s) ..)
  | laneLockLoss _ => exact Leads.of_ends (execLaneLockLoss_steady (h0 := Steady.refl s) ..)
  | signalLost _ => exact Leads.of_ends (execSignalLost_steady (h0 := Steady.refl s) ..)
  | alignBlock _ _ => exact Leads.of_ends (execAlignBlock_steady (h0 := Steady.refl s) ..)
  | alignLoss _ => exact Leads.of_ends (execAlignLoss_steady (h0 := Steady.refl s) ..)
  | fillerBlock _ _ _ => exact Leads.of_ends (execFillerBlock_steady (h0 := Steady.refl s) ..)
  | deskewFail _ => exact Leads.of_ends (execDeskewFail_steady (h0 := Steady.refl s) ..)
  | trainReq _ => exact Leads.of_ends (execTrainReq_steady (h0 := Steady.refl s) ..)
  | trainSts _ _ _ => exact Leads.of_ends (execTrainSts_steady (h0 := Steady.refl s) ..)
  | trainStepTimeout _ => exact Leads.of_ends (execTrainStepTimeout_steady (h0 := Steady.refl s) ..)
  | laneTrainFail _ => exact Leads.of_ends (execLaneTrainFail_steady (h0 := Steady.refl s) ..)
  | adaptationFreeze _ => exact Leads.of_ends (execAdaptationFreeze_steady (h0 := Steady.refl s) ..)
  | adaptationResume _ => exact Leads.of_ends (execAdaptationResume_steady (h0 := Steady.refl s) ..)
  | eyeSweep _ _ => exact Leads.of_ends (execEyeSweep_steady (h0 := Steady.refl s) ..)
  | retrain _ => exact Leads.of_ends (execRetrain_steady (h0 := Steady.refl s) ..)
  | retrainStart _ => exact Leads.of_ends (execRetrainStart_steady (h0 := Steady.refl s) ..)
  | retrainDone _ => exact Leads.of_ends (execRetrainDone_steady (h0 := Steady.refl s) ..)
  | retrainTimeout _ => exact Leads.of_ends (execRetrainTimeout_steady (h0 := Steady.refl s) ..)
  | fwdPowerReq _ _ => exact Leads.of_ends (execFwdPowerReq_steady (h0 := Steady.refl s) ..)
  | backPowerReq _ _ => exact Leads.of_ends (execBackPowerReq_steady (h0 := Steady.refl s) ..)
  | sleepAck _ _ => exact Leads.of_ends (execSleepAck_steady (h0 := Steady.refl s) ..)
  | laneSleepTimeout _ => exact Leads.of_ends (execLaneSleepTimeout_steady (h0 := Steady.refl s) ..)
  | wake _ _ => exact Leads.of_ends (execWake_steady (h0 := Steady.refl s) ..)
  | prbsGenEnable _ _ => exact Leads.of_ends (execPrbsGenEnable_steady (h0 := Steady.refl s) ..)
  | prbsChkEnable _ _ => exact Leads.of_ends (execPrbsChkEnable_steady (h0 := Steady.refl s) ..)
  | prbsInjectOne _ => exact Leads.of_ends (execPrbsInjectOne_steady (h0 := Steady.refl s) ..)
  | chkLock _ => exact Leads.of_ends (execChkLock_steady (h0 := Steady.refl s) ..)
  | chkLockDrop _ _ _ => exact Leads.of_ends (execChkLockDrop_steady (h0 := Steady.refl s) ..)
  | testDurationEnd _ => exact Leads.of_ends (execTestDurationEnd_steady (h0 := Steady.refl s) ..)
  | testResult _ _ _ => exact Leads.of_ends (execTestResult_steady (h0 := Steady.refl s) ..)
  | pixel _ _ => exact Leads.of_ends (execPixel_steady (h0 := Steady.refl s) ..)
  | ackInterval _ _ => exact Leads.of_ends (execAckInterval_steady (h0 := Steady.refl s) ..)
  | replayTimeout _ _ _ => exact Leads.of_ends (execReplayTimeout_steady (h0 := Steady.refl s) ..)
  | ack _ _ => exact Leads.of_ends (execAck_steady (h0 := Steady.refl s) ..)
  | oxbowAck _ _ => exact Leads.of_ends (execOxbowAck_steady (h0 := Steady.refl s) ..)
  | ctlResp _ _ _ _ _ _ => exact Leads.of_ends (execCtlResp_steady (h0 := Steady.refl s) ..)
  | ctlTimeout _ => exact Leads.of_ends (execCtlTimeout_steady (h0 := Steady.refl s) ..)
  | trigReject _ _ _ _ => exact Leads.of_ends (execTrigReject_steady (h0 := Steady.refl s) ..)
  | replayFull _ _ => exact Leads.of_ends (execReplayFull_steady (h0 := Steady.refl s) ..)
  | cancelDone _ _ _ => exact Leads.of_ends (execCancelDone_steady (h0 := Steady.refl s) ..)
  | cameraEvent _ _ _ _ _ => exact Leads.of_ends (execCameraEvent_steady (h0 := Steady.refl s) ..)
  | timeSync _ => exact Leads.of_ends (execTimeSync_steady (h0 := Steady.refl s) ..)
  | timeResp _ _ _ _ _ _ _ => exact Leads.of_ends (execTimeResp_steady (h0 := Steady.refl s) ..)
  | timeRespMissing _ => exact Leads.of_ends (execTimeRespMissing_steady (h0 := Steady.refl s) ..)
  | linkUp _ _ => exact Leads.of_ends (execLinkUp_steady (h0 := Steady.refl s) ..)
  | camRegRead _ => exact Leads.of_ends (execCamRegRead_steady (h0 := Steady.refl s) ..)
  | camRegWrite _ => exact Leads.of_ends (execCamRegWrite_steady (h0 := Steady.refl s) ..)
  | exposureWindowOpen _ _ => exact Leads.of_ends (execExposureWindowOpen_steady (h0 := Steady.refl s) ..)
  | readoutToken _ => exact Leads.of_ends (execReadoutToken_steady (h0 := Steady.refl s) ..)
  | exposureWindowClose _ => exact Leads.of_ends (execExposureWindowClose_steady (h0 := Steady.refl s) ..)
  | stExpEdge _ _ _ => exact Leads.of_ends (execStExpEdge_steady (h0 := Steady.refl s) ..)
  | transferPulse _ => exact Leads.of_ends (execTransferPulse_steady (h0 := Steady.refl s) ..)
  | readoutEnd _ _ => exact Leads.of_ends (execReadoutEnd_steady (h0 := Steady.refl s) ..)
  | bankCalibration _ _ => exact Leads.of_ends (execBankCalibration_steady (h0 := Steady.refl s) ..)
  | segmentArrives _ => exact Leads.of_ends (execSegmentArrives_steady (h0 := Steady.refl s) ..)
  | segmentDeal  => exact Leads.of_ends (execSegmentDeal_steady (h0 := Steady.refl s) ..)
  | segmentComplete _ _ _ _ => exact Leads.of_ends (execSegmentComplete_steady (h0 := Steady.refl s) ..)
  | sliceBist _ _ => exact Leads.of_ends (execSliceBist_steady (h0 := Steady.refl s) ..)
  | coefRowRewrite _ => exact Leads.of_ends (execCoefRowRewrite_steady (h0 := Steady.refl s) ..)
  | streamOpen _ => exact Leads.of_ends (execStreamOpen_steady (h0 := Steady.refl s) ..)
  | streamClose _ => exact Leads.of_ends (execStreamClose_steady (h0 := Steady.refl s) ..)
  | calDark _ => exact Leads.of_ends (execCalDark_steady (h0 := Steady.refl s) ..)
  | calWhite _ => exact Leads.of_ends (execCalWhite_steady (h0 := Steady.refl s) ..)
  | calGapDark _ => exact Leads.of_ends (execCalGapDark_steady (h0 := Steady.refl s) ..)
  | calGapWhite _ => exact Leads.of_ends (execCalGapWhite_steady (h0 := Steady.refl s) ..)
  | calDerive _ => exact Leads.of_ends (execCalDerive_steady (h0 := Steady.refl s) ..)
  | calAbort _ => exact Leads.of_ends (execCalAbort_steady (h0 := Steady.refl s) ..)
  | captureStart _ => exact Leads.of_ends (execCaptureStart_steady (h0 := Steady.refl s) ..)
  | captureComplete _ => exact Leads.of_ends (execCaptureComplete_steady (h0 := Steady.refl s) ..)
  | deriveDone _ => exact Leads.of_ends (execDeriveDone_steady (h0 := Steady.refl s) ..)
  | warmupInterval  => exact Leads.of_ends (execWarmupInterval_steady (h0 := Steady.refl s) ..)
  | lampWarmupTimeout  => exact Leads.of_ends (execLampWarmupTimeout_steady (h0 := Steady.refl s) ..)
  | warmupRestart  => exact Leads.of_ends (execWarmupRestart_steady (h0 := Steady.refl s) ..)
  | posTransition _ _ _ _ => exact Leads.of_ends (execPosTransition_steady (h0 := Steady.refl s) ..)
  | filterPass _ _ => exact Leads.of_ends (execFilterPass_steady (h0 := Steady.refl s) ..)
  | edgeLateAccept _ => exact Leads.of_ends (execEdgeLateAccept_steady (h0 := Steady.refl s) ..)
  | posWireFault _ => exact Leads.of_ends (execPosWireFault_steady (h0 := Steady.refl s) ..)
  | wireRecovery _ => exact Leads.of_ends (execWireRecovery_steady (h0 := Steady.refl s) ..)
  | indexRearm _ => exact Leads.of_ends (execIndexRearm_steady (h0 := Steady.refl s) ..)
  | posPreset _ _ => exact Leads.of_ends (execPosPreset_steady (h0 := Steady.refl s) ..)
  | generatorEvaluate _ => exact Leads.of_ends (execGeneratorEvaluate_steady (h0 := Steady.refl s) ..)
  | compareWrite _ _ _ => exact Leads.of_ends (execCompareWrite_steady (h0 := Steady.refl s) ..)
  | latchIn _ => exact Leads.of_ends (execLatchIn_steady (h0 := Steady.refl s) ..)
  | tioEdge _ => exact Leads.of_ends (execTioEdge_steady (h0 := Steady.refl s) ..)
  | quickStopInAssert _ => exact Leads.of_ends (execQuickStopInAssert_steady (h0 := Steady.refl s) ..)
  | quickStopInRelease _ => exact Leads.of_ends (execQuickStopInRelease_steady (h0 := Steady.refl s) ..)
  | tioPulseEnd _ => exact Leads.of_ends (execTioPulseEnd_steady (h0 := Steady.refl s) ..)
  | tioPulseAt _ _ => exact Leads.of_ends (execTioPulseAt_steady (h0 := Steady.refl s) ..)
  | scheduledPulse _ => exact Leads.of_ends (execScheduledPulse_steady (h0 := Steady.refl s) ..)
  | motionTick _ => exact Leads.of_ends (execMotionTick_steady (h0 := Steady.refl s) ..)
  | motionReplan _ _ _ => exact Leads.of_ends (execMotionReplan_steady (h0 := Steady.refl s) ..)
  | motStop _ => exact Leads.of_ends (execMotStop_steady (h0 := Steady.refl s) ..)
  | motQuickStop _ => exact Leads.of_ends (execMotQuickStop_steady (h0 := Steady.refl s) ..)
  | motHardStop _ => exact Leads.of_ends (execMotHardStop_steady (h0 := Steady.refl s) ..)
  | motClear _ => exact Leads.of_ends (execMotClear_steady (h0 := Steady.refl s) ..)
  | motEnable _ _ => exact Leads.of_ends (execMotEnable_steady (h0 := Steady.refl s) ..)
  | seamStop _ => exact Leads.of_ends (execSeamStop_steady (h0 := Steady.refl s) ..)
  | seamRestart _ => exact Leads.of_ends (execSeamRestart_steady (h0 := Steady.refl s) ..)
  | backupStart _ => exact Leads.of_ends (execBackupStart_steady (h0 := Steady.refl s) ..)
  | restartStart _ => exact Leads.of_ends (execRestartStart_steady (h0 := Steady.refl s) ..)
  | pacingEval _ => exact Leads.of_ends (execPacingEval_steady (h0 := Steady.refl s) ..)
  | divertRelease _ => exact Leads.of_ends (execDivertRelease_steady (h0 := Steady.refl s) ..)
  | gateInEdge _ _ => exact Leads.of_ends (execGateInEdge_steady (h0 := Steady.refl s) ..)
  | holdEntry  => exact execHoldEntry_held (h0 := Held.refl s) ..
  | bandAssert _ => exact Leads.of_ends (execBandAssert_steady (h0 := Steady.refl s) ..)
  | pulseStart _ => exact Leads.of_ends (execPulseStart_steady (h0 := Steady.refl s) ..)
  | pulseEnd _ => exact Leads.of_ends (execPulseEnd_steady (h0 := Steady.refl s) ..)
  | dischargeEnd _ => exact Leads.of_ends (execDischargeEnd_steady (h0 := Steady.refl s) ..)
  | pulseCheck _ _ => exact Leads.of_ends (execPulseCheck_steady (h0 := Steady.refl s) ..)
  | lampTest  => exact Leads.of_ends (execLampTest_steady (h0 := Steady.refl s) ..)
  | lampTestDone _ => exact Leads.of_ends (execLampTestDone_steady (h0 := Steady.refl s) ..)
  | diagPulse _ => exact Leads.of_ends (execDiagPulse_steady (h0 := Steady.refl s) ..)
  | lampUnverified _ _ => exact Leads.of_ends (execLampUnverified_steady (h0 := Steady.refl s) ..)
  | lampLift _ _ => exact Leads.of_ends (execLampLift_steady (h0 := Steady.refl s) ..)
  | syncFire  => exact Leads.of_ends (execSyncFire_steady (h0 := Steady.refl s) ..)
  | syncEdge  => exact Leads.of_ends (execSyncEdge_steady (h0 := Steady.refl s) ..)
  | syncFault  => exact Leads.of_ends (execSyncFault_steady (h0 := Steady.refl s) ..)
  | bandEnable _ _ => exact Leads.of_ends (execBandEnable_steady (h0 := Steady.refl s) ..)
  | headroomEval  => exact Leads.of_ends (execHeadroomEval_steady (h0 := Steady.refl s) ..)
  | pageRelease _ _ => exact Leads.of_ends (execPageRelease_steady (h0 := Steady.refl s) ..)
  | hostMark _ _ _ => exact Leads.of_ends (execHostMark_steady (h0 := Steady.refl s) ..)
  | fetchWaitExpire _ => exact Leads.of_ends (execFetchWaitExpire_steady (h0 := Steady.refl s) ..)
  | bar4Read _ _ => exact Leads.of_ends (execBar4Read_steady (h0 := Steady.refl s) ..)
  | bar4Write _ _ => exact Leads.of_ends (execBar4Write_steady (_off := 0) (_data := []) (h0 := Steady.refl s))
  | dltChDoorbell _ => exact Leads.of_ends (execDltChDoorbell_steady (h0 := Steady.refl s) ..)
  | channelTimerStart _ => exact Leads.of_ends (execChannelTimerStart_steady (h0 := Steady.refl s) ..)
  | dltChEnSet _ => exact Leads.of_ends (execDltChEnSet_steady (h0 := Steady.refl s) ..)
  | dltChEnClear _ => exact Leads.of_ends (execDltChEnClear_steady (h0 := Steady.refl s) ..)
  | channelOff _ => exact Leads.of_ends (execChannelOff_steady (h0 := Steady.refl s) ..)
  | channelNextWrite _ _ => exact Leads.of_ends (execChannelNextWrite_steady (h0 := Steady.refl s) ..)
  | channelDisable _ => exact Leads.of_ends (execChannelDisable_steady (h0 := Steady.refl s) ..)
  | descriptorFetch _ _ => exact Leads.of_ends (execDescriptorFetch_steady (h0 := Steady.refl s) ..)
  | sourceReadCompletion _ _ => exact Leads.of_ends (execSourceReadCompletion_steady (h0 := Steady.refl s) ..)
  | streamLineDeliver _ => exact Leads.of_ends (execStreamLineDeliver_steady (h0 := Steady.refl s) ..)
  | flushReadCompletion _ _ => exact Leads.of_ends (execFlushReadCompletion_steady (h0 := Steady.refl s) ..)
  | descriptorComplete _ => exact Leads.of_ends (execDescriptorComplete_steady (h0 := Steady.refl s) ..)
  | dltCqHead _ => exact Leads.of_ends (execDltCqHead_steady (h0 := Steady.refl s) ..)
  | msixUnmask _ => exact Leads.of_ends (execMsixUnmask_steady (h0 := Steady.refl s) ..)
  | hostLinkDown  => exact Leads.of_ends (execHostLinkDown_steady (h0 := Steady.refl s) ..)
  | hostLinkDegraded _ _ => exact Leads.of_ends (execHostLinkDegraded_steady (h0 := Steady.refl s) ..)
  | bar0RegisterWrite _ _ => exact Leads.of_ends (execBar0RegisterWrite_steady (h0 := Steady.refl s) ..)
  | mbxTxTail _ => exact Leads.of_ends (execMbxTxTail_steady (h0 := Steady.refl s) ..)
  | mbxRxHead _ => exact Leads.of_ends (execMbxRxHead_steady (h0 := Steady.refl s) ..)
  | mbxDisable  => exact Leads.of_ends (execMbxDisable_steady (h0 := Steady.refl s) ..)
  | feTimerTrigger _ => exact Leads.of_ends (execFeTimerTrigger_steady (h0 := Steady.refl s) ..)
  | fePulseTrigger _ => exact Leads.of_ends (execFePulseTrigger_steady (h0 := Steady.refl s) ..)
  | convStart _ => exact Leads.of_ends (execConvStart_steady (h0 := Steady.refl s) ..)
  | injectedTrigger _ => exact Leads.of_ends (execInjectedTrigger_steady (h0 := Steady.refl s) ..)
  | runComplete _ _ => exact Leads.of_ends (execRunComplete_steady (h0 := Steady.refl s) ..)
  | feCalibrate _ => exact Leads.of_ends (execFeCalibrate_steady (h0 := Steady.refl s) ..)
  | feCalPeriod _ => exact Leads.of_ends (execFeCalPeriod_steady (h0 := Steady.refl s) ..)
  | feCalDone _ _ => exact Leads.of_ends (execFeCalDone_steady (h0 := Steady.refl s) ..)
  | genZeroCrossing _ => exact Leads.of_ends (execGenZeroCrossing_steady (h0 := Steady.refl s) ..)
  | genEnable _ _ => exact Leads.of_ends (execGenEnable_steady (h0 := Steady.refl s) ..)
  | feGenOvercurrent _ => exact Leads.of_ends (execFeGenOvercurrent_steady (h0 := Steady.refl s) ..)
  | feClamp _ => exact Leads.of_ends (execFeClamp_steady (h0 := Steady.refl s) ..)
  | feItemWrite _ => exact Leads.of_ends (execFeItemWrite_steady (h0 := Steady.refl s) ..)
  | feQueueFlush _ => exact Leads.of_ends (execFeQueueFlush_steady (h0 := Steady.refl s) ..)
  | chTest _ => exact Leads.of_ends (execChTest_steady (h0 := Steady.refl s) ..)
  | chTestDone _ _ _ => exact Leads.of_ends (execChTestDone_steady (h0 := Steady.refl s) ..)
  | discover _ => exact execDiscover_held (h0 := Held.refl s) ..
  | assignAddress _ => exact execAssignAddress_held (h0 := Held.refl s) ..
  | addressTake  => exact Leads.of_ends (execAddressTake_steady (h0 := Steady.refl s) ..)
  | enumOutAssert  => exact Leads.of_ends (execEnumOutAssert_steady (h0 := Steady.refl s) ..)
  | enumInAssert  => exact Leads.of_ends (execEnumInAssert_steady (h0 := Steady.refl s) ..)
  | nop _ => exact execNop_held (h0 := Held.refl s) ..
  | read _ => exact execRead_held (h0 := Held.refl s) ..
  | write _ => exact execWrite_held (h0 := Held.refl s) ..
  | readDesc _ => exact execReadDesc_held (h0 := Held.refl s) ..
  | commit _ => exact execCommit_held (h0 := Held.refl s) ..
  | discard _ => exact execDiscard_held (h0 := Held.refl s) ..
  | commitStatus _ => exact execCommitStatus_held (h0 := Held.refl s) ..
  | segInit _ => exact execSegInit_held (h0 := Held.refl s) ..
  | segData _ => exact execSegData_held (h0 := Held.refl s) ..
  | segEnd _ => exact execSegEnd_held (h0 := Held.refl s) ..
  | segAbort _ => exact execSegAbort_held (h0 := Held.refl s) ..
  | segTimeout _ => exact Leads.of_ends (execSegTimeout_steady (h0 := Steady.refl s) ..)
  | sessionOpen _ => exact execSessionOpen_held (h0 := Held.refl s) ..
  | sessionAuth _ => exact execSessionAuth_held (h0 := Held.refl s) ..
  | sessionClose _ => exact execSessionClose_held (h0 := Held.refl s) ..
  | sessionTimeout _ => exact Leads.of_ends (execSessionTimeout_steady (h0 := Steady.refl s) ..)
  | subscribe _ => exact execSubscribe_held (h0 := Held.refl s) ..
  | eventAck _ => exact execEventAck_held (h0 := Held.refl s) ..
  | eventRetry _ => exact Leads.of_ends (execEventRetry_steady (h0 := Steady.refl s) ..)
  | ptpSync _ => exact Leads.of_ends (execPtpSync_steady (h0 := Steady.refl s) ..)
  | ptpUnlock  => exact Leads.of_ends (execPtpUnlock_steady (h0 := Steady.refl s) ..)
  | ptpPpsIn _ => exact Leads.of_ends (execPtpPpsIn_steady (h0 := Steady.refl s) ..)
  | ptpPpsOut  => exact Leads.of_ends (execPtpPpsOut_steady (h0 := Steady.refl s) ..)
  | fnLinkFault  => exact Leads.of_ends (execFnLinkFault_steady (h0 := Steady.refl s) ..)
  | modeRequestSentinel _ => exact execModeRequestSentinel_held (h0 := Held.refl s) ..
  | modeRequestConfigure _ => exact execModeRequestConfigure_held (h0 := Held.refl s) ..
  | modeRequestCalibrate _ => exact execModeRequestCalibrate_held (h0 := Held.refl s) ..
  | modeRequestIdleReady _ => exact execModeRequestIdleReady_held (h0 := Held.refl s) ..
  | modeRequestScan _ => exact execModeRequestScan_held (h0 := Held.refl s) ..
  | modeRequestStream _ => exact execModeRequestStream_held (h0 := Held.refl s) ..
  | modeRequestHold _ => exact execModeRequestHold_held (h0 := Held.refl s) ..
  | modeRequestMaintenance _ => exact execModeRequestMaintenance_held (h0 := Held.refl s) ..
  | modeRequestSafeHalt _ => exact execModeRequestSafeHalt_held (h0 := Held.refl s) ..
  | modeTransitionDone  => exact execModeTransitionDone_held (h0 := Held.refl s) ..
  | standbyInRange _ => exact execStandbyInRange_held (h0 := Held.refl s) ..
  | standbyOutOfRange  => exact execStandbyOutOfRange_held (h0 := Held.refl s) ..
  | domainOn _ => exact Leads.of_ends (execDomainOn_steady (h0 := Steady.refl s) ..)
  | domainFault _ => exact Leads.of_ends (execDomainFault_steady (h0 := Steady.refl s) ..)
  | railFault _ => exact execRailFault_held (h0 := Held.refl s) ..
  | avsEval _ => exact Leads.of_ends (execAvsEval_steady (h0 := Steady.refl s) ..)
  | avsDroop _ => exact Leads.of_ends (execAvsDroop_steady (h0 := Steady.refl s) ..)
  | avsFallback  => exact Leads.of_ends (execAvsFallback_steady (h0 := Steady.refl s) ..)
  | thermalWarn _ => exact Leads.of_ends (execThermalWarn_steady (h0 := Steady.refl s) ..)
  | thermalShutdown _ => exact execThermalShutdown_held (h0 := Held.refl s) ..
  | motorEnableRelease  => exact Leads.of_ends (execMotorEnableRelease_steady (h0 := Steady.refl s) ..)
  | clusterOff _ => exact Leads.of_ends (execClusterOff_steady (h0 := Steady.refl s) ..)
  | tmrDisagree _ => exact execTmrDisagree_held (h0 := Held.refl s) ..
  | tmrResyncDone  => exact Leads.of_ends (execTmrResyncDone_steady (h0 := Steady.refl s) ..)
  | lockstepMismatch  => exact Leads.of_ends (execLockstepMismatch_steady (h0 := Steady.refl s) ..)
  | takeoverResume _ _ => exact execTakeoverResume_held (h0 := Held.refl s) ..
  | checkpoint  => exact Leads.of_ends (execCheckpoint_steady (h0 := Steady.refl s) ..)
  | reservoirChannel _ _ => exact Leads.of_ends (execReservoirChannel_steady (h0 := Steady.refl s) ..)
  | switchSegmentCheck _ _ => exact Leads.of_ends (execSwitchSegmentCheck_steady (h0 := Steady.refl s) ..)
  | wearEval _ => exact Leads.of_ends (execWearEval_steady (h0 := Steady.refl s) ..)
  | spareTest _ _ => exact Leads.of_ends (execSpareTest_steady (h0 := Steady.refl s) ..)
  | plannedInsertion  => exact Leads.of_ends (execPlannedInsertion_steady (h0 := Steady.refl s) ..)
  | plannedWaitExpire  => exact Leads.of_ends (execPlannedWaitExpire_steady (h0 := Steady.refl s) ..)
  | repairRecordWrite  => exact Leads.of_ends (execRepairRecordWrite_steady (h0 := Steady.refl s) ..)
  | repairClear _ => exact Leads.of_ends (execRepairClear_steady (h0 := Steady.refl s) ..)
  | selfTestRun  => exact Leads.of_ends (execSelfTestRun_steady (h0 := Steady.refl s) ..)
  | zeroise  => exact Leads.of_ends (execZeroise_steady (h0 := Steady.refl s) ..)
  | vendorServiceEnable _ => exact Leads.of_ends (execVendorServiceEnable_steady (h0 := Steady.refl s) ..)
  | debugUnlock  => exact Leads.of_ends (execDebugUnlock_steady (h0 := Steady.refl s) ..)
  | roleKeySet _ _ => exact Leads.of_ends (execRoleKeySet_steady (h0 := Steady.refl s) ..)
  | nodeAddressLock _ => exact Leads.of_ends (execNodeAddressLock_steady (h0 := Steady.refl s) ..)
  | approvedModeLock  => exact Leads.of_ends (execApprovedModeLock_steady (h0 := Steady.refl s) ..)
  | debugLock  => exact Leads.of_ends (execDebugLock_steady (h0 := Steady.refl s) ..)
  | ownerKeyHash _ => exact Leads.of_ends (execOwnerKeyHash_steady (h0 := Steady.refl s) ..)
  | antiRollback _ => exact Leads.of_ends (execAntiRollback_steady (h0 := Steady.refl s) ..)
  | keyRevocation _ _ => exact Leads.of_ends (execKeyRevocation_steady (h0 := Steady.refl s) ..)
  | hardRepairPromote _ => exact Leads.of_ends (execHardRepairPromote_steady (h0 := Steady.refl s) ..)
  | sealLineRead _ => exact Leads.of_ends (execSealLineRead_steady (h0 := Steady.refl s) ..)
  | sealBlockClose  => exact Leads.of_ends (execSealBlockClose_steady (h0 := Steady.refl s) ..)
  | sealIssued  => exact Leads.of_ends (execSealIssued_steady (h0 := Steady.refl s) ..)
  | auditAck _ => exact Leads.of_ends (execAuditAck_steady (h0 := Steady.refl s) ..)
  | tamperDetected _ _ => exact execTamperDetected_held (h0 := Held.refl s) ..
  | tamperClear _ => exact Leads.of_ends (execTamperClear_steady (h0 := Steady.refl s) ..)
  | sandboxViolation  => exact Leads.of_ends (execSandboxViolation_steady (h0 := Steady.refl s) ..)
  | perstAssert  => exact execPerstAssert_held (h0 := Held.refl s) ..
  | perstDeassert  => exact execPerstDeassert_held (h0 := Held.refl s) ..
  | deviceReset  => exact execDeviceReset_held (h0 := Held.refl s) ..
  | bootWatchdog  => exact execBootWatchdog_held (h0 := Held.refl s) ..
  | mgmtWatchdog  => exact execMgmtWatchdog_held (h0 := Held.refl s) ..
  | jtagSystemReset  => exact execJtagSystemReset_held (h0 := Held.refl s) ..
  | bootRailTimeout _ => exact execBootRailTimeout_held (h0 := Held.refl s) ..
  | bootSlotVerify _ _ => exact execBootSlotVerify_held (h0 := Held.refl s) ..
  | aligningTimeout _ => exact Leads.of_ends (execAligningTimeout_steady (h0 := Steady.refl s) ..)
  | hostLinkUp _ _ _ => exact Leads.of_ends (execHostLinkUp_steady (h0 := Steady.refl s) ..)
  | addressInUseSeen _ => exact Leads.of_ends (execAddressInUseSeen_steady (h0 := Steady.refl s) ..)
  | kdpMalformed  => exact Leads.of_ends (execKdpMalformed_steady (h0 := Steady.refl s) ..)
  | unknownOpcode _ _ => exact execUnknownOpcode_held (h0 := Held.refl s) ..
  | stExpMissing _ => exact Leads.of_ends (execStExpMissing_steady (h0 := Steady.refl s) ..)
  | lineTriggerInstant _ _ => exact Leads.of_ends (execLineTriggerInstant_steady (h0 := Steady.refl s) ..)
  | tioInputEdge _ _ => exact Leads.of_ends (execTioInputEdge_steady (h0 := Steady.refl s) ..)
  | ptpDelayResp _ => exact Leads.of_ends (execPtpDelayResp_steady (h0 := Steady.refl s) ..)
  | ptpMasterSync  => exact Leads.of_ends (execPtpMasterSync_steady (h0 := Steady.refl s) ..)
  | selfTestDone _ => exact execSelfTestDone_held (h0 := Held.refl s) ..
  | railRegulating _ => exact execRailRegulating_held (h0 := Held.refl s) ..
  | zeroised  => exact Leads.of_ends (execZeroised_steady (h0 := Steady.refl s) ..)
end Sys2Proof.Machine
end

