-- ==== Sys2Proof/Machine/Ports.lean ====
section
/-! DEFINITION. The external ports (R58): how each output is driven (R188, R616, R626, R731), and the identity in the PCIe
configuration space (R762). -/
namespace Sys2Proof.Machine

/-- The outputs of the ports of R58, by number within their kind. -/
inductive Signal where
  | pwmPhase (k : Fin 32) | enumOut | bootFlash | alarm (a : Fin 4) | sync | laneTx (l : Fin 104)
  | sensorClock (p : Fin 32) | sensorTiming (p : Fin 32) | lampColumn (k : Fin 64) | lampBand (b : Fin 16)
  | motion (m : Fin 16) | timingIo (t : Fin 96) | frontEndPin (p : Fin 64) | ppsOut | auxSerial (k : Fin 8) | jtagTdo
  deriving DecidableEq, Repr

/-- How a signal is driven. -/
inductive Drive where
  /-- Its supply does not regulate yet. -/
  | unpowered
  | highZ
  /-- A lane transmitter in electrical idle. -/
  | electricalIdle
  /-- An open-drain output that does not pull. -/
  | released
  /-- A column sink that is off. -/
  | sinkOff
  /-- Driven, by the unit that the signal belongs to. -/
  | driven
  deriving DecidableEq, Repr

/-- A rail regulates, so the pins it feeds are powered (R623, R731). -/
def State.railUp (s : State) (r : Nat) : Bool := s.nat (Obj.railState r) == 2
/-- The rail of a controller phase and its place among the rail's phases (R623). -/
def railOfPhase (k : Nat) : Nat × Nat :=
  if k < 12 then (0, k) else if k < 15 then (1, k - 12) else if k < 20 then (2, k - 15) else if k < 24 then (3, k - 20)
  else if k < 26 then (4, k - 24) else if k < 28 then (5, k - 26) else if k < 30 then (6, k - 28) else (7, k - 30)
/-- A state that a mode from Configure on has led to: outputs that a unit drives may leave their reset state. -/
def State.outputsLive (s : State) : Bool := s.mode.talks && !s.power.halted
/-- A signal fed by a rail: unpowered while the rail does not regulate, driven where `on`, else in its reset state. -/
def State.fed (s : State) (r : Nat) (on : Bool) (rest : Drive) : Drive :=
  if !s.railUp r then .unpowered else if on then .driven else rest

/-- How an output is driven (R731). -/
def State.drive (s : State) : Signal → Drive
  | .pwmPhase k =>
    let r := railOfPhase k
    -- A rail drives the phases its power record uses, from its enable on (R723, R730).
    if s.nat (Obj.railState r.1) = 0 || (Config.powerRecord r.1).1 ≤ r.2 then .highZ else .driven
  | .enumOut => .driven
  -- Released 1 ms after both copies of the power record have failed, for a board programmer (R733).
  | .bootFlash => if s.mode == .sentinel && s.boot.recordBad.any (fun t => decide (t + ms 1 ≤ s.now)) then .highZ else .driven
  | .alarm a => if s.sec.alarmDriven.contains a.val then .driven else .highZ
  | .sync => if s.nat Obj.syncRole = 2 && s.outputsLive then .driven else .released
  | .laneTx l => s.fed 2 ((s.lane l).state != .disabled && (s.lane l).backPower == .active) .electricalIdle
  | .sensorClock _ | .sensorTiming _ => s.fed 6 s.mode.talks .highZ
  | .lampColumn k => s.fed 5 (s.lamps.pulses.any fun p => p.onSince.isSome && p.codes.any fun c => c.1 == k.val) .sinkOff
  | .lampBand b => s.fed 6 (s.lamps.driven.contains b.val) .highZ
  | .motion m => s.fed 6 (s.motion m).driven .highZ
  | .timingIo t => s.fed 6 (decide (16 ≤ s.tioFn t)) .highZ
  | .frontEndPin p =>
    let role := field (s.nat (Obj.pinRole p)) 12 4
    s.fed 6 (decide (2 ≤ role) && s.outputsLive) .highZ
  | .ppsOut => s.fed 6 true .highZ
  | .auxSerial k =>
    -- Master 7 runs I2C from Boot where the power record names telemetry (R626, R731); the spec gives no object for the others.
    s.fed 6 (k.val == 7 && decide (s.mode ≠ .off ∧ s.mode ≠ .sentinel) && (List.range 8).any Config.telemetry) .highZ
  | .jtagTdo => .highZ

/-! ### The PCIe configuration space (R762) -/

/-- PCIe Device ID by order code (R761). -/
def deviceId : Nat := if Config.oneStack then 0x9603 else if Config.gradeI then 0x9602 else 0x9601
/-- A 32-bit word of the configuration space that R762 states, by its offset in the standard header: 0x00 Device and Vendor ID,
0x08 class code and Revision ID, 0x2C Subsystem ID and Subsystem Vendor ID (PRESUMED, log entry 94: the offsets are the PCIe
specification's). -/
def configWord (offset : Nat) : Option Nat :=
  if offset = 0x00 then some (pack [(16, 16, deviceId), (0, 16, 0xE6D1)])
  else if offset = 0x08 then some (pack [(8, 24, 0x118000), (0, 8, 0xB0)])
  else if offset = 0x2C then some (pack [(16, 16, Config.boardId), (0, 16, 0xE6D1)])
  else none

end Sys2Proof.Machine
end

