-- ==== Sys2Proof/Tests/Slice0.lean ====
section
/-! SUPPORT. Tests: an ill-formed command for each check of WellFormed; the worked examples of the spec; and for each statement
with hypotheses a state and operands that meet them, clause by clause. -/
namespace Sys2Proof.Machine
set_option maxRecDepth 4000

/-! ### Helpers -/

/-- A state with lane 0 as given. -/
def aLane (x : Lane) : State := { lanes := [(0, x)] }
/-- A state with queue 0 as given. -/
def aQueue (x : Queue) : State := { queues := [(0, x)] }
/-- A state in which stream 0 has group 0 as its only tributary. -/
def aStream (s : State) : State := s.setReg (Obj.tributary 0 0) (2 ^ 63 + 16)
/-- A state in which lane 0 is configured into group 0. -/
def grouped (s : State) : State := s.setReg (Obj.groupLane 0 0) 0
/-- An intact packet of eight bytes, PSN 0, with the given flags and type (a PIXEL packet of four pixels at full width). -/
def aPacket (flags : Byte) (ty : Byte := 1) : Packet :=
  let h : Bytes := [ty, flags, 0, 0, 8, 0]
  let hd := h ++ [BitVec.ofNat 8 (crc8 h)]
  let sub := leBytes 8 (4 * 2 ^ 50)
  let pl : Bytes := List.replicate 8 0
  { header := hd, subheader := sub, payload := pl, crc := leBytes 4 (crc32c (hd ++ sub ++ pl)), termK := 4, alignAt := none }
/-- Group 0 of one lane, active, with group fields as given. -/
def aGroup (x : Group) : State := grouped { lanes := [(0, { state := .active })], groups := [(0, x)] }
/-- A record of line 1 (sequence number 7) of stream 0, all else at default. -/
def aRecord : LineRec := { stream := 0, line := 1, seq := 7, phase := 0, cycle := 0, sched := 0, exposure := 0 }
/-- Port 0 as given, with an analog tributary of stream 0 and the records given. -/
def aPort (x : Port) (rs : List LineRec) : State :=
  ({ ports := [(0, x)], records := rs, now := 10 ^ 9 } : State).setReg (Obj.tributary 0 0) (2 ^ 63 + 2 ^ 60 + 16 * 2 ^ 18)
/-- A line of a port, sequence number 7. -/
def aLine : PortLine := { seq := 7, opens := 0, closes := 8, transfer := 20, startPulse := 20, transferEnd := 30, readoutEnd := 40 }
/-- The device at address 1, idle and ready, with one open Security Officer's session, number 5 of source 5, besides what k and c hold. -/
def onNet (k : Kdps) (c : Security := {}) : State :=
  ({ mode := .idleReady, target := none, sec := c,
     kdps := { k with sessions := ⟨5, false, 5, 3, true, [], [], [], 0, 0, 0⟩ :: k.sessions } } : State).setReg Obj.nodeAddress 1
    |>.setReg Obj.securityState 1
/-- A request of source 5 to address 1, unauthenticated, naming session n. -/
def plain (b : Bytes) (n : BitVec 16 := 0) : Kdp := ⟨false, 5, 1, 0, n, 0, false, false, false, b⟩
/-- A request of source 5 to address 1 in session 5. -/
def signed5 (b : Bytes) : Kdp := ⟨false, 5, 1, 0, 5, 1, false, true, true, b⟩
/-- The state a request of session 5 is answered in. -/
def after5 (b : Bytes) (k : Kdps) : State :=
  updSession 5 (fun y => { y with rxCtr := 1, used := (onNet k).now }) (heard (signed5 b) (onNet k))
theorem plain_accepted (op : Nat) (b : Bytes) (n : BitVec 16) (k : Kdps) (c : Security) (h : lengthError op b = none) :
    Accepted op (plain b n) (onNet k c) (heard (plain b n) (onNet k c)) :=
  ⟨⟨rfl, rfl, nofun, .inr (.inl ⟨Nat.one_ne_zero, by simp [plain], rfl⟩), Nat.zero_ne_add_one 1⟩, .inl ⟨rfl, rfl⟩, h,
    .inl Nat.one_ne_zero, .inl rfl⟩
theorem signed5_accepted (op : Nat) (b : Bytes) (k : Kdps) (h : lengthError op b = none) :
    Accepted op (signed5 b) (onNet k) (after5 b k) :=
  ⟨⟨rfl, rfl, nofun, .inr (.inl ⟨Nat.one_ne_zero, by simp [signed5], rfl⟩), Nat.zero_ne_add_one 1⟩,
    .inr ⟨rfl, rfl, _, rfl, rfl, rfl, rfl, Nat.zero_lt_one, rfl⟩, h, .inl (by decide : (3 : Nat) ≠ 0), .inl rfl⟩
/-- Bytes that differ from b in every byte. -/
def flipped (b : Bytes) : Bytes := b.map (· ^^^ 1)
theorem flipped_ne : ∀ b : Bytes, b ≠ [] → b ≠ flipped b
  | [], h => absurd rfl h
  | x :: _, _ => fun e => absurd (List.cons.inj e).1 ((by decide : ∀ x : Byte, x ≠ x ^^^ 1) x)
/-- A pending session of source 5, number 7, for role 1. -/
def pending7 : Session := ⟨7, false, 5, 1, false, [], [], [], 0, 0, 0⟩
/-- The host's proof for it under the key [1]. -/
def proof7 : Bytes := proofOf "KDP-H" [1] pending7 (onNet {})
theorem proof7_length : proof7.length = 48 := by simp [proof7, proofOf, Config.hmac]
/-- DtSource, an ST row; DtMaxSlew, an RW row; QueueMap, a row of variable size. -/
def rowDtSource : Row := ⟨"DtSource", 0x2010, 1, 2, 1, .u8, .st, some .mode, .integrator, 0, 1, [(0, 0), (1, 1)], 1, ""⟩
def rowDtMaxSlew : Row := ⟨"DtMaxSlew", 0x2010, 1, 3, 1, .u32, .rw, none, .integrator, 200000, 4, [(1000, 500000)], 1, "ppb"⟩
def rowQueueMap : Row := ⟨"QueueMap", 0x2020, 1, 5, 1, .domain, .ro, none, .operator, 0, 0, [], 1, ""⟩
theorem revoke_free : revokeError (7 : Fin 8) (1 : BitVec 64).toNat (({ mode := .configure } : State).setReg Obj.securityState 1) = none := by
  have h : ∀ k : Nat, (({ mode := .configure } : State).setReg Obj.securityState 1).revoked k = false := by
    intro k
    simp only [State.revoked, List.any_eq_false]
    intro e he hk
    have : ∀ e < 8, (({ mode := .configure } : State).setReg Obj.securityState 1).nat (Obj.keyRevocation e) = 0 := by decide
    simp [this e (List.mem_range.1 he)] at hk
    omega
  have hl : (({ mode := .configure } : State).setReg Obj.securityState 1).romKeysLeft.length = 4 := by
    unfold State.romKeysLeft
    rw [List.filter_eq_self.2 (fun k _ => by simp [h])]
    simp
  have hr : ((({ mode := .configure } : State).setReg Obj.securityState 1).romKeysLeft == [(1 : BitVec 64).toNat]) = false := by
    rw [beq_eq_false_iff_ne]; intro e; rw [e] at hl; exact absurd hl (by decide)
  unfold revokeError
  rw [hr]
  decide
theorem notePools_lockstep (s : State) : (notePools s).nat Obj.lockstepState = s.nat Obj.lockstepState := by
  unfold notePools
  generalize List.range 9 = l
  induction l generalizing s with
  | nil => rfl
  | cons p l ih =>
    rw [List.foldl_cons, ih]
    dsimp only
    split
    · exact congrArg Int.toNat (raise_regs _ _ _ _ Obj.lockstepState (by decide))
    · split <;> rfl

/-! ### Ill-formed commands are told apart -/

theorem test_ill_formed_line_arrived : wellFormed (.lineArrived (.group 0) 0 0 (2 ^ 20)) = false := by decide
theorem test_ill_formed_commit_enter : wellFormed (.commitEnter 0 none) = false := by decide
theorem test_ill_formed_queue_write : wellFormed (.queueWrite 0 0 0 false false none) = false := by decide
theorem test_ill_formed_block_received : wellFormed (.blockReceived 0 0 0 false 32) = false := by decide
theorem test_ill_formed_eye_sweep : wellFormed (.eyeSweep 0 65) = false := by decide
theorem test_ill_formed_chk_lock_drop : wellFormed (.chkLockDrop 0 1 ⟨2, 0⟩) = false := by decide
theorem test_ill_formed_pixel : wellFormed (.pixel 0 { header := [], subheader := [], payload := [], crc := [0, 0, 0, 0], termK := 0, alignAt := none }) = false := by decide
theorem test_ill_formed_ctl_resp : wellFormed (.ctlResp 0 ⟨0, false⟩ 0 0 0 [1]) = false := by decide
theorem test_ill_formed_link_up : wellFormed (.linkUp 0 []) = false := by decide
theorem test_ill_formed_time_resp : wellFormed (.timeResp 0 ⟨0, false⟩ 0 (2 ^ 64) 0 0 0) = false := by decide
theorem test_ill_formed_segment_complete : wellFormed (.segmentComplete 0 false [1, 1] []) = false := by decide
theorem test_ill_formed_coef_row_rewrite : wellFormed (.coefRowRewrite 114688) = false := by decide
theorem test_ill_formed_motion_replan : wellFormed (.motionReplan 0 9 0) = false := by decide
theorem test_ill_formed_pulse_check : wellFormed (.pulseCheck 0 [⟨0, true, 0, 0⟩, ⟨0, true, 0, 0⟩]) = false := by decide
theorem test_ill_formed_lamp_test_done : wellFormed (.lampTestDone [3, 3]) = false := by decide
theorem test_ill_formed_bar4_read : wellFormed (.bar4Read (2 ^ 36) 1) = false := by decide
theorem test_ill_formed_bar4_write : wellFormed (.bar4Write 0 []) = false := by decide
theorem test_ill_formed_host_link_degraded : wellFormed (.hostLinkDegraded 6 4) = false := by decide
theorem test_ill_formed_bar0_register_write : wellFormed (.bar0RegisterWrite 2 0) = false := by decide
theorem test_ill_formed_read : wellFormed (.read ⟨false, 256, 1, 0, 0, 0, false, false, false, []⟩) = false := by decide
theorem test_ill_formed_write_auth : wellFormed (.write ⟨false, 5, 1, 0, 0, 0, false, true, true, []⟩) = false := by decide
theorem test_ill_formed_unknown_opcode : wellFormed (.unknownOpcode ⟨false, 5, 1, 0, 0, 0, false, false, false, []⟩ 0x04) = false := by decide
theorem test_ill_formed_switch_segment_check : wellFormed (.switchSegmentCheck 0 [1]) = false := by decide
theorem test_ill_formed_wear_eval : wellFormed (.wearEval ⟨[(1, 0), (1, 0)], []⟩) = false := by decide
theorem test_ill_formed_role_key_set : wellFormed (.roleKeySet 0 [1]) = false := by decide
theorem test_ill_formed_owner_key_hash : wellFormed (.ownerKeyHash [1]) = false := by decide
theorem test_ill_formed_boot_slot_verify : wellFormed (.bootSlotVerify 0 ⟨false, 0, true, false, 0, false, 0, false, 0⟩) = false := by decide
theorem test_ill_formed_host_link_up : wellFormed (.hostLinkUp 1 4 ⟨64, 512⟩) = false := by decide

/-! ### Worked examples of the spec -/

/-- "One Example B pixel" (chapter 05): the exposure ratio. -/
theorem test_pixel_ratio : ({ aRecord with stream := 0, phase := 1, expMeas := some 7992, regs := [((Obj.normEnable 0).key, 1),
    ((Obj.exposureRef 0 1).key, 8000)] } : LineRec).ratio = (65602, false) := by decide
/-- The same pixel through stages 3 to 5, 7 and 9. -/
theorem test_pixel_normalised : normalised 108800 3904 77361 65602 = 123948 := by decide
theorem test_pixel_drift : driftScale 123546 66065 = 124543 := by decide
theorem test_pixel_narrow : narrow 16 124543 = 31136 := by decide
/-- Stage 6 of the same pixel: knots 123,500 and 124,560 at places 121 and 122. -/
theorem test_pixel_curve : linearise (some (List.replicate 121 0 ++ [123500] ++ List.replicate 135 124560)) 123948 = 123546 := by decide
/-- A ramp's exposure at the bound (chapter 08): EXP_MEAS 796,875 against a reference of 400,000. -/
theorem test_ramp_ratio : ({ aRecord with expMeas := some 796875, regs := [((Obj.normEnable 0).key, 1),
    ((Obj.exposureRef 0 0).key, 400000)] } : LineRec).ratio = (32897, false) := by decide
/-- "Example B, one pixel" (chapter 06): OFFSET and GAIN. -/
theorem test_calibration_entry : calEntry ⟨3904, 190276, 0, 0⟩ 0 220000 65536 = (3904, some 77361) := by decide
/-- Example A's infrared phase (chapter 09): X, D_full, then D and W. -/
theorem test_lamp_curve : lampX (2 * 2 ^ 30 + 256) 3000 = 54074 := by decide +kernel
theorem test_lamp_full_code : fullCode 2730 33423 = 2785 := by decide
theorem test_lamp_pulse : lampPulseOf 2785 54074 360000 = some (174, 297037) := by decide
/-- Example A's port 0 (chapter 04): one SP clock, 12 dummies and 1,296 pixels at 20 MHz take 65,450 ns. -/
theorem test_readout_time : (({} : State).setReg (Obj.pixelClock 0) 20000000 |>.setReg (Obj.spWidth 0) 1 |>.setReg (Obj.leadDummy 0) 12
    |>.setReg (Obj.inputPort 3) 0 |>.setReg (Obj.inputMode 3) 0 |>.setReg (Obj.pixelCount 3) 1296).readoutNs 0 = 65450 := by decide
/-- Line 1,000 of the Example B front stream (chapter 07): 12,086.00 ns after e[0], in 1/4 ns. -/
theorem test_predicted_instant : (({ posChans := [(0, { latches := (1002107, 4999988750) :: List.replicate 7 (0, 0) ++
    [(1002099, 4999978750)] })] } : State).setReg (Obj.extrapEdges 0) 8).predictInstant 0 (1000000 * 65536 + 1000 * 138718) =
    5000000836 * 4 := by decide
/-- The tag of that line (chapter 10): T_SCHED, LINE, EXP_MEAS, START_ERR, P_TARGET, LATCH_DPOS, LATCH_DDT, PHASE and POS_KIND. -/
theorem test_tag : tagOf (
    { stream := 0, line := 1000, seq := 1000, phase := 4, cycle := 166, exposure := 8000, sched := 20000003344,
      posKind := 1, pTarget := 65674718000, latchPos := 1002116, latchDt := 5000000000, expMeas := some 8000, startErr := 3 } : LineRec) =
    5000000836 * 2 ^ 208 + 1000 * 2 ^ 176 + 8000 * 2 ^ 152 + 3 * 2 ^ 132 + 65674718000 * 2 ^ 92 + (2 ^ 24 - 836) * 2 ^ 52 +
      65536 * 2 ^ 34 + 4 * 2 ^ 2 + 1 := by decide
/-- The exchange of Example B's front camera (chapter 03): TimeOffset 600 sixteenths of a ns, PathDelay 12.30 ns. -/
def exchanged : State :=
  match exec (.timeResp 0 ⟨0, false⟩ 1 (1000000049 * 256 + 230) (1000000549 * 256 + 230) (1000000524 * 256 + 154) 0)
    (({ groups := [(0, { state := .up, sync := some (1, 1000000000 * 256) })] } : State).setReg (Obj.linkAsymmetry 0) 200) with
  | .next t => t
  | _ => {}
theorem test_time_offset : exchanged.nat (Obj.timeOffset 0) = 600 := by decide +kernel
theorem test_path_delay : exchanged.nat (Obj.pathDelay 0) = 197 := by decide +kernel
/-- The check value of the CRC-32C of R7 (log entry 7). -/
theorem test_crc32c : crc32c [0x31, 0x32, 0x33, 0x34, 0x35, 0x36, 0x37, 0x38, 0x39] = 0xE3069283 := by decide +kernel
/-- A line of 5,184 16-bit pixels takes a slot of 10,400 bytes, Example B's 8,224 with its tag (chapter 10). -/
theorem test_line_bytes : (({} : State).setReg (Obj.tributary 0 0) (2 ^ 63 + 1296) |>.setReg (Obj.storedWidthMax 0) 16).lineBytesOf 0 + 32 = 10400 := by
  decide

/-! ### States and operands that meet the hypotheses -/

theorem test_witness_lines_meet_their_records :
    (∃ (s : State)(src : Source)(seq : BitVec 32)(st : Nat)(k : Nat)(r : LineRec), s.matchLine (srcKind src) (srcNum src) seq.toNat = some (st, k, r)) ∧
    (∃ (s : State)(src : Source)(seq : BitVec 32), s.matchLine (srcKind src) (srcNum src) seq.toNat = none ∧ s.strays.contains (srcKind src, srcNum src, seq.toNat) = false ∧ ((∀ st k, s.streamOfSource (srcKind src) (srcNum src) = some (st, k) → (s.strm st).ignored.contains seq.toNat = false))) ∧
    (∃ (s : State)(src : Source)(seq : BitVec 32), s.matchLine (srcKind src) (srcNum src) seq.toNat = none ∧ (s.strays.contains (srcKind src, srcNum src, seq.toNat) = true ∨ (∃ st k, s.streamOfSource (srcKind src) (srcNum src) = some (st, k) ∧ (s.strm st).ignored.contains seq.toNat = true))) ∧
    (∃ (s : State)(st : Fin 64)(line : Nat)(r : LineRec), s.recOf st line = some r ∧ r.closeAt ≤ s.now ∧ r.parts.any Part.open? = true ∧ s.deferClose r = false) ∧
    (∃ (s : State)(st : Fin 64)(line : Nat)(r : LineRec), s.recOf st line = some r ∧ r.closeAt ≤ s.now ∧ r.parts.any Part.open? = true ∧ s.deferClose r = true) ∧
    (∃ (s : State)(st : Fin 64)(line : Nat), ((∀ r, s.recOf st line = some r → s.now < r.closeAt ∨ r.parts.any Part.open? = false))) :=
  ⟨⟨aStream { records := [{ stream := 0, line := 1, seq := 7, phase := 0, cycle := 0, sched := 0, exposure := 0, parts := [⟨0, 0, 64, 0⟩] }] }, .group 0, 7, _, _, _, rfl⟩,
   ⟨{}, .group 0, 7, by decide, by decide, fun _ _ h => absurd ((by decide : ({} : State).streamOfSource 0 0 = none).symm.trans h) nofun⟩,
   ⟨{ strays := [(0, 0, 7)] }, .group 0, 7, by decide, .inl (by decide)⟩,
   ⟨{ records := [{ stream := 0, line := 1, seq := 7, phase := 0, cycle := 0, sched := 0, exposure := 0, parts := [⟨0, 0, 64, 0⟩] }], now := 10 ^ 9 }, 0, 1, _, rfl, by decide, by decide, by decide⟩,
   ⟨{ records := [{ stream := 0, line := 1, seq := 7, phase := 0, cycle := 0, sched := 0, exposure := 0, regs := [((Obj.tributary 0 0).key, 2 ^ 63 + 16)], parts := [⟨0, 0, 64, 0⟩] }], now := 10 ^ 9, groups := [(0, { oxbow := some (0, 1) })] }, 0, 1, _, rfl, by decide, by decide, by decide⟩,
   ⟨{}, 0, 0, fun _ h => by cases h⟩⟩

theorem test_witness_groups_enter_and_reports_are_decided :
    (∃ (s : State)(id : Nat), (s.groupsWaiting.find? fun w => w.id == id) = none) ∧
    (∃ (s : State)(id : Nat)(t : Nat)(g : CommitGroup), (s.groupsWaiting.find? fun w => w.id == id) = some g ∧ g.boundary = 4 ∧ g.applyAt = some t ∧ t ≤ s.now) ∧
    (∃ (s : State)(id : Nat)(g : CommitGroup), (s.groupsWaiting.find? fun w => w.id == id) = some g ∧ g.boundary = 4 ∧ ((∀ t, g.applyAt = some t → s.now < t))) ∧
    (∃ (s : State)(id : Nat)(st : Fin 64)(g : CommitGroup), (s.groupsWaiting.find? fun w => w.id == id) = some g ∧ g.boundary ≠ 0 ∧ g.boundary ≠ 4 ∧ g.streams.contains st.val = true ∧ ((s.groupsWaiting.find? fun w => w.streams.contains st.val && 1 ≤ w.boundary && w.boundary ≤ 3).map CommitGroup.id) = some id ∧ (!s.streamOpen? st || s.boundaryAt st g.boundary) = true) ∧
    (∃ (s : State)(id : Nat)(st : Fin 64)(g : CommitGroup), (s.groupsWaiting.find? fun w => w.id == id) = some g ∧ g.boundary ≠ 4 ∧ (g.boundary = 0 ∨ g.streams.contains st.val = false ∨ ((s.groupsWaiting.find? fun w => w.streams.contains st.val && 1 ≤ w.boundary && w.boundary ≤ 3).map CommitGroup.id) ≠ some id ∨ (!s.streamOpen? st || s.boundaryAt st g.boundary) = false)) ∧
    (∃ (s : State)(id : Nat)(g : CommitGroup), (s.groupsWaiting.find? fun w => w.id == id) = some g ∧ g.boundary ≠ 0 ∧ g.boundary ≠ 4) ∧
    (∃ (s : State)(r : FaultReport), s.nextReport = some r) ∧
    (∃ (s : State), s.nextReport = none) :=
  ⟨⟨{}, 0, by decide⟩,
   ⟨{ groupsWaiting := [{ id := 3, boundary := 4, members := [], streams := [], applyAt := some 5 }], now := 5 }, 3, 5, _, rfl, by decide, by decide, by decide⟩,
   ⟨{ groupsWaiting := [{ id := 3, boundary := 4, members := [], streams := [], applyAt := some 5 }], now := 4 }, 3, { id := 3, boundary := 4, members := [], streams := [], applyAt := some 5 }, by decide, by decide, fun _ h => by cases h; decide⟩,
   ⟨{ groupsWaiting := [{ id := 3, boundary := 3, members := [], streams := [0] }] }, 3, 0, { id := 3, boundary := 3, members := [], streams := [0] }, by decide, by decide, by decide, by decide, by decide, by decide⟩,
   ⟨{ groupsWaiting := [{ id := 3, boundary := 3, members := [], streams := [0] }] }, 3, 1, { id := 3, boundary := 3, members := [], streams := [0] }, by decide, by decide, .inr (.inl rfl)⟩,
   ⟨{ groupsWaiting := [{ id := 3, boundary := 3, members := [], streams := [0] }] }, 3, { id := 3, boundary := 3, members := [], streams := [0] }, by decide, by decide, by decide⟩,
   ⟨{ reports := [⟨0, 0, 1, 2, 1, 0⟩] }, _, rfl⟩,
   ⟨{}, by decide⟩⟩

theorem test_witness_crossing_queues_follow_their_rules :
    (∃ (s : State)(q : Fin 1024)(cls : Fin 4)(words : Nat)(last : Bool)(bad : Bool)(line : Option (Fin 64 × Nat))(x : Queue), x = { s.queue q with waiting := (s.queue q).waiting ++ [⟨cls, words, last, bad, line.map fun l => (l.1.val, l.2)⟩] }) ∧
    (∃ (s : State)(q : Fin 1024)(cls : Fin 4)(words : Nat), (s.queue q).waiting = [] ∧ ((s.queue q).resetting = true ∨ ((s.queue q).draining = false ∧ (s.queue q).room q cls < words))) ∧
    (∃ (s : State)(q : Fin 1024)(cls : Fin 4)(words : Nat), (s.queue q).waiting = [] ∧ (s.queue q).resetting = false ∧ (s.queue q).draining = false ∧ words ≤ (s.queue q).room q cls) ∧
    (∃ (s : State)(q : Fin 1024)(cls : Fin 4)(words : Nat), (s.queue q).waiting = [] ∧ (s.queue q).resetting = false ∧ (s.queue q).draining = false ∧ words ≤ (s.queue q).room q cls) ∧
    (∃ (s : State)(q : Fin 1024)(cls : Fin 4)(words : Nat), (s.queue q).waiting = [] ∧ (s.queue q).resetting = false ∧ (s.queue q).draining = false ∧ words ≤ (s.queue q).room q cls) ∧
    (∃ (s : State)(q : Fin 1024), (s.queue q).waiting = [] ∧ (s.queue q).resetting = false ∧ (s.queue q).draining = true) ∧
    (∃ (s : State)(u : State)(q : Fin 1024)(x : Queue), x = { s.queue q with items := [], openWords := 0, openLine := none, ptrFault := true, resetting := true, draining := (s.queue q).draining || (s.queue q).openWords != 0, pointerFaults := satInc (s.queue q).pointerFaults 1 } ∧ u = (queueWeirEval q (s.setQueue q x)).report Kind.queuePointer 2 q (islandPlane (queueInfo q).1) (queueInfo q).1) ∧
    (∃ (s : State)(q : Nat)(x : Queue), s.mode = .maintenance ∧ q = s.nat Obj.queueSelect ∧ x = { s.queue q with items := [], openWords := 0, openLine := none, draining := (s.queue q).draining || (s.queue q).openWords != 0 }) ∧
    (∃ (s : State), s.mode ≠ .maintenance) ∧
    (∃ (s : State)(q : Fin 1024)(x : Queue), x = { s.queue q with draining := false } ∧ (s.target.getD s.mode).booted = false) ∧
    (∃ (s : State)(u : State)(q : Fin 1024)(x : Queue), x = { s.queue q with draining := false } ∧ (s.target.getD s.mode).booted = true ∧ u = queueWeirEval q (s.setQueue q (x.settle q x.waiting.length))) :=
  ⟨⟨{}, 0, 0, 0, false, true, none, _, rfl⟩,
   ⟨aQueue { resetting := true }, 0, 0, 5, by decide, .inl rfl⟩,
   ⟨{}, 0, 0, 0, by decide, by decide, by decide, Nat.zero_le _⟩,
   ⟨{}, 0, 0, 0, by decide, by decide, by decide, Nat.zero_le _⟩,
   ⟨{}, 0, 0, 0, by decide, by decide, by decide, Nat.zero_le _⟩,
   ⟨aQueue { draining := true }, 0, by decide, by decide, by decide⟩,
   ⟨{}, _, 0, _, rfl, rfl⟩,
   ⟨{ mode := .maintenance }, _, _, by decide, rfl, rfl⟩,
   ⟨{}, by decide⟩,
   ⟨{ mode := .off, target := none }, 0, _, rfl, by decide⟩,
   ⟨{ mode := .idleReady, target := none }, _, 0, _, rfl, by decide, rfl⟩⟩

theorem test_witness_block_lock_follows_the_headers :
    (∃ (s : State)(l : Fin 104), (s.lane l).framed = false) ∧
    (∃ (s : State)(v : State)(u : State)(l : Fin 104)(hdr : BitVec 2)(full : Bool), (s.lane l).framed = true ∧ (s.lane l).blockLock = false ∧ (hdr = 1 ∨ hdr = 2) ∧ v = (s.updLane l fun x => { x with signalDetect := true, cdrLock := true, slots := x.slots.map (· + 1), discardNext := x.discardNext && !x.blockLock }) ∧ u = (if full then elasticOverflow l v else v)) ∧
    (∃ (s : State)(v : State)(u : State)(l : Fin 104)(hdr : BitVec 2)(full : Bool), (s.lane l).framed = true ∧ (s.lane l).blockLock = false ∧ (hdr = 0 ∨ hdr = 3) ∧ v = (s.updLane l fun x => { x with signalDetect := true, cdrLock := true, slots := x.slots.map (· + 1), discardNext := x.discardNext && !x.blockLock }) ∧ u = (if full then elasticOverflow l v else v)) ∧
    (∃ (s : State)(v : State)(u : State)(l : Fin 104)(hdr : BitVec 2)(full : Bool), (s.lane l).framed = true ∧ (s.lane l).blockLock = true ∧ (hdr = 0 ∨ hdr = 3) ∧ v = (s.updLane l fun x => { x with signalDetect := true, cdrLock := true, slots := x.slots.map (· + 1), discardNext := x.discardNext && !x.blockLock }) ∧ u = (if full then elasticOverflow l v else v).updLane l (fun x => { x with window := (true :: x.window).take 64 })) ∧
    (∃ (s : State)(v : State)(u : State)(l : Fin 104)(hdr : BitVec 2)(full : Bool), (s.lane l).framed = true ∧ (s.lane l).blockLock = true ∧ (hdr = 1 ∨ hdr = 2) ∧ v = (s.updLane l fun x => { x with signalDetect := true, cdrLock := true, slots := x.slots.map (· + 1), discardNext := x.discardNext && !x.blockLock }) ∧ u = (if full then elasticOverflow l v else v).updLane l (fun x => { x with window := (false :: x.window).take 64 })) ∧
    (∃ (s : State)(l : Fin 104), (s.lane l).framed = true ∧ (s.lane l).blockLock = false ∧ 64 ≤ (s.lane l).validRun) ∧
    (∃ (s : State)(l : Fin 104), ((s.lane l).framed = false ∨ (s.lane l).blockLock = true ∨ (s.lane l).validRun < 64)) ∧
    (∃ (s : State)(l : Fin 104), (s.lane l).blockLock = true ∧ 16 ≤ ((s.lane l).window.filter id).length) ∧
    (∃ (s : State)(l : Fin 104), ((s.lane l).blockLock = false ∨ ((s.lane l).window.filter id).length < 16)) ∧
    (∃ (s : State)(l : Fin 104), (s.lane l).blockLock = true ∧ (s.lane l).state ≠ .sleep) ∧
    (∃ (s : State)(l : Fin 104), ((s.lane l).blockLock = false ∨ (s.lane l).state = .sleep)) :=
  ⟨⟨{}, 0, by decide⟩,
   ⟨aLane { state := .training, fwdPower := .active }, _, _, 0, 2, false, by decide, by decide, by decide, rfl, rfl⟩,
   ⟨aLane { state := .training, fwdPower := .active }, _, _, 0, 0, false, by decide, by decide, by decide, rfl, rfl⟩,
   ⟨aLane { state := .active, fwdPower := .active, blockLock := true }, _, _, 0, 0, false, by decide, by decide, by decide, rfl, rfl⟩,
   ⟨aLane { state := .active, fwdPower := .active, blockLock := true }, _, _, 0, 1, false, by decide, by decide, by decide, rfl, rfl⟩,
   ⟨aLane { state := .training, fwdPower := .active, validRun := 64 }, 0, by decide, by decide, by decide⟩,
   ⟨{}, 0, by decide⟩,
   ⟨aLane { state := .active, fwdPower := .active, blockLock := true, window := List.replicate 16 true }, 0, by decide, by decide⟩,
   ⟨{}, 0, by decide⟩,
   ⟨aLane { state := .active, fwdPower := .active, blockLock := true }, 0, by decide, by decide⟩,
   ⟨{}, 0, by decide⟩⟩

theorem test_witness_alignment_and_rate_matching :
    (∃ (s : State)(l : Fin 104)(payload : BitVec 64), (s.lane l).framed = true ∧ (s.lane l).blockLock = true ∧ isAlign payload.toNat = true ∧ (s.lane l).alignHere = true) ∧
    (∃ (s : State)(l : Fin 104)(payload : BitVec 64), ((s.lane l).framed = false ∨ (s.lane l).blockLock = false ∨ isAlign payload.toNat = false ∨ (s.lane l).alignHere = false)) ∧
    (∃ (s : State)(u : State)(l : Fin 104)(n : Nat), (s.lane l).alignLock = true ∧ (s.lane l).slots = some n ∧ alignPeriod ≤ n ∧ u = (((s.updLane l fun x => { x with lockedLaneId := none, slots := none }).updLane l fun x => { x with alignLock := false, deskewed := false, wakeRelock := false, head := none }).raiseFault .alignLoss [l] Kind.alignLoss 2 l 1 (islandOf 2 l))) ∧
    (∃ (s : State)(l : Fin 104), ((s.lane l).alignLock = false ∨ (∀ n, (s.lane l).slots = some n → n < alignPeriod))) ∧
    (∃ (s : State)(l : Fin 104), ((s.lane l).framed = false ∨ (s.lane l).blockLock = false)) ∧
    (∃ (s : State)(l : Fin 104)(g : Nat), (s.lane l).framed = true ∧ (s.lane l).blockLock = true ∧ s.groupOfLane l = some g ∧ s.laneDeskewed l = true) ∧
    (∃ (s : State)(l : Fin 104), (s.lane l).framed = true ∧ (s.lane l).blockLock = true ∧ s.groupOfLane l = none ∧ s.laneDeskewed l = true) ∧
    (∃ (s : State)(l : Fin 104)(all : Bool), (s.lane l).framed = true ∧ (s.lane l).blockLock = true ∧ (s.laneDeskewed l = false ∨ all = false)) ∧
    (∃ (s : State)(g : Fin 96), (∃ m ∈ s.deskewSet g, ∃ h, (s.lane m).head = some h ∧ h.2 + 239 ≤ s.now ∧ ∃ o ∈ s.deskewSet g, ((s.lane o).head.map Prod.fst) ≠ some h.1) ∧ (∃ m ∈ s.deskewSet g, (s.lane m).deskewed = false)) ∧
    (∃ (s : State)(g : Fin 96), ((∀ m ∈ s.deskewSet g, ∀ h, (s.lane m).head = some h → h.2 + 239 ≤ s.now → ∀ o ∈ s.deskewSet g, ((s.lane o).head.map Prod.fst) = some h.1) ∨ (∀ m ∈ s.deskewSet g, (s.lane m).deskewed = true))) :=
  ⟨⟨aLane { state := .active, fwdPower := .active, blockLock := true }, 0, 0xE39A71C64D4C, by decide, by decide, by decide, by decide⟩,
   ⟨{}, 0, 0, .inl rfl⟩,
   ⟨aLane { state := .active, fwdPower := .active, blockLock := true, alignLock := true, slots := some 16384 }, _, 0, 16384, by decide, by decide, by decide, rfl⟩,
   ⟨{}, 0, .inl rfl⟩,
   ⟨{}, 0, .inl rfl⟩,
   ⟨grouped (aLane { state := .active, fwdPower := .active, blockLock := true, deskewed := true }), 0, 0, by decide, by decide, by decide, by decide⟩,
   ⟨aLane { state := .active, fwdPower := .active, blockLock := true, deskewed := true }, 0, by decide, by decide, by decide, by decide⟩,
   ⟨aLane { state := .active, fwdPower := .active, blockLock := true }, 0, false, by decide, by decide, by decide⟩,
   ⟨(grouped { lanes := [(0, { head := some (0, 0) })], now := 239 }).setReg (Obj.groupLane 0 1) 1, 0, ⟨0, by decide, (0, 0), rfl, by decide, 1, by decide, by decide⟩, ⟨0, by decide, rfl⟩⟩,
   ⟨{}, 0, .inl nofun⟩⟩

theorem test_witness_training_steps_and_their_limits :
    (∃ (s : State)(l : Fin 104), ((s.lane l).state = .training ∨ (s.lane l).state = .retraining)) ∧
    (∃ (s : State)(u : State)(l : Fin 104)(body : BitVec 32), ((s.lane l).state = .training ∨ (s.lane l).state = .retraining) ∧ u = ((s.updLane l fun x => { x with taps := (field body.toNat 8 8, field body.toNat 16 8, field body.toNat 24 8), tapSts := (field body.toNat 0 2, field body.toNat 2 2, field body.toNat 4 2) }).setReg (Obj.txTaps l) (pack [(16, 8, field body.toNat 24 8), (8, 8, field body.toNat 16 8), (0, 8, field body.toNat 8 8)] : Nat))) ∧
    (∃ (s : State)(l : Fin 104), (s.lane l).state ≠ .training ∧ (s.lane l).state ≠ .retraining) ∧
    (∃ (s : State)(l : Fin 104), ((s.lane l).state = .training ∨ (s.lane l).state = .retraining)) ∧
    (∃ (s : State)(l : Fin 104), (s.lane l).state = .disabled) ∧
    (∃ (s : State)(l : Fin 104), (s.lane l).state ≠ .disabled ∧ (s.mode = .maintenance ∨ s.laneRunning l = false ∨ (s.lane l).state = .failed)) ∧
    (∃ (s : State)(l : Fin 104), (s.lane l).state ≠ .disabled ∧ (s.lane l).state ≠ .failed ∧ s.mode ≠ .maintenance ∧ s.laneRunning l = true) :=
  ⟨⟨aLane { state := .training }, 0, by decide⟩,
   ⟨aLane { state := .training }, _, 0, 0, by decide, rfl⟩,
   ⟨{}, 0, by decide, by decide⟩,
   ⟨aLane { state := .training }, 0, by decide⟩,
   ⟨{}, 0, by decide⟩,
   ⟨{ aLane { state := .active } with mode := .maintenance }, 0, by decide, by decide⟩,
   ⟨aStream { lanes := [(0, { state := .active })], streams := [(0, { state := .running })], mode := .scan } |> grouped, 0, by decide, by decide, by decide, by decide⟩⟩

theorem test_witness_adaptation_and_eye_margin :
    (∃ (s : State)(l : Fin 104), (s.lane l).state ≠ .active) ∧
    (∃ (s : State)(u : State)(v : State)(w : State)(l : Fin 104)(m : Nat), (s.lane l).state = .active ∧ m ≤ 64 ∧ u = (((s.setReg (Obj.eyeMargin l) m).setReg (Obj.eyeMarginMin l) (min (s.nat (Obj.eyeMarginMin l)) m : Nat)).updLane l fun x => { x with hourMin := some (min (x.hourMin.getD 64) m) }) ∧ v = (if m < s.nat Obj.eyeMarginWarn then (u.updLane l fun x => { x with marginWarn := true }).raiseFault .laneMargin [l, m] Kind.wearLane 1 l 1 (islandOf 2 l) else u) ∧ w = (if m < s.nat Obj.eyeMarginFail then (v.updLane l fun x => { x with marginFail := true }).raiseFault .laneEyeFail [l, m] Kind.laneEyeFail 2 l 1 (islandOf 2 l) else v)) :=
  ⟨⟨{}, 0, by decide⟩,
   ⟨aLane { state := .active }, _, _, _, 0, 64, by decide, by decide, rfl, rfl, rfl⟩⟩

theorem test_witness_lane_power_requests :
    (∃ (s : State)(l : Fin 104)(v : Fin 3), fwdPowerOk l v s = false) ∧
    (∃ (s : State)(u : State)(l : Fin 104), fwdPowerOk l 1 s = true ∧ u = s.setReg (Obj.fwdPowerReq l) 1) ∧
    (∃ (s : State)(u : State)(l : Fin 104), fwdPowerOk l 2 s = true ∧ u = ((s.setReg (Obj.fwdPowerReq l) 2).updLane l fun x => { x with fwdPower := .off, blockLock := false, alignLock := false, deskewed := false, cdrLock := false, sleepReq := none, slots := none, lockedLaneId := none, head := none, wakeRelock := false, asm := none })) ∧
    (∃ (s : State)(u : State)(l : Fin 104), u = s.setReg (Obj.fwdPowerReq l) 0) ∧
    (∃ (s : State)(u : State)(l : Fin 104), u = s.setReg (Obj.backPowerReq l) 1) ∧
    (∃ (s : State)(u : State)(l : Fin 104), u = s.setReg (Obj.backPowerReq l) 2) ∧
    (∃ (s : State)(u : State)(l : Fin 104), u = s.setReg (Obj.backPowerReq l) 0) ∧
    (∃ (s : State)(u : State)(l : Fin 104), (s.lane l).backSleepReq.isSome = true ∧ u = (s.updLane l fun x => { x with backSleepReq := none, backWakeAfterSleep := false, backPower := .sleep })) ∧
    (∃ (s : State)(u : State)(l : Fin 104), (s.lane l).sleepReq.isSome = true ∧ (s.lane l).state = .active ∧ u = enterLane l .sleep (s.updLane l fun x => { x with sleepReq := none, fwdPower := .sleep, blockLock := false, alignLock := false, deskewed := false, signalDetect := false, cdrLock := false, wakeAfterSleep := false, slots := none, head := none })) ∧
    (∃ (s : State)(l : Fin 104)(back : Bool), ((if back then (s.lane l).backSleepReq = none else (s.lane l).sleepReq = none ∨ (s.lane l).state ≠ .active))) ∧
    (∃ (s : State)(l : Fin 104)(t : Nat), (s.lane l).sleepReq = some t ∧ us 100 ≤ s.now - t) ∧
    (∃ (s : State)(l : Fin 104)(t : Nat), ((∀ t, (s.lane l).sleepReq = some t → s.now - t < us 100)) ∧ (s.lane l).backSleepReq = some t ∧ us 100 ≤ s.now - t) ∧
    (∃ (s : State)(l : Fin 104), ((∀ t, (s.lane l).sleepReq = some t ∨ (s.lane l).backSleepReq = some t → s.now - t < us 100))) :=
  ⟨⟨(aLane { state := .active }).setReg (Obj.groupSpare 0) 0, 0, 1, by decide⟩,
   ⟨{}, _, 0, by decide, rfl⟩,
   ⟨{}, _, 0, by decide, rfl⟩,
   ⟨{}, _, 0, rfl⟩,
   ⟨{}, _, 0, rfl⟩,
   ⟨{}, _, 0, rfl⟩,
   ⟨{}, _, 0, rfl⟩,
   ⟨aLane { backSleepReq := some 0 }, _, 0, by decide, rfl⟩,
   ⟨aLane { state := .active, sleepReq := some 0 }, _, 0, by decide, by decide, rfl⟩,
   ⟨{}, 0, false, by decide⟩,
   ⟨{ aLane { sleepReq := some 0 } with now := 400000 }, 0, 0, by decide, by decide⟩,
   ⟨{ aLane { backSleepReq := some 0 } with now := 400000 }, 0, 0, nofun, by decide, by decide⟩,
   ⟨{}, 0, nofun⟩⟩

theorem test_witness_lane_tests :
    (∃ (s : State)(ctl : BitVec 32), (prbsCtlOk ctl.toNat = false ∨ ((bitAt ctl.toNat 31 || bitAt ctl.toNat 30) = true ∧ s.mode ≠ .maintenance))) ∧
    (∃ (s : State)(t : State)(u : State)(v : State)(w : State)(l : Fin 104)(ctl : BitVec 32), prbsCtlOk ctl.toNat = true ∧ s.mode = .maintenance ∧ (bitAt ctl.toNat 31 || bitAt ctl.toNat 30) = true ∧ (s.lane l).state ≠ .disabled ∧ t = s.setReg (Obj.prbsCtl l) (prbsCtlHeld ctl.toNat : Nat) ∧ u = stopChecker l (sendCtl l 0x06 (((s.lane l).testSeq + 1) % 256) (pack [(0, 2, field ctl.toNat 28 2), (2, 1, b2n (bitAt ctl.toNat 30)), (3, 1, b2n (bitAt ctl.toNat 31)), (4, 16, field ctl.toNat 0 16)]) t) ∧ v = (if bitAt ctl.toNat 31 = true ∧ (s.lane l).backPower ≠ .off then u.emit (.prbs l (field ctl.toNat 28 2) (field ctl.toNat 16 8) (bitAt ctl.toNat 27)) else u) ∧ w = (v.updLane l fun x => { x with testSeq := ((s.lane l).testSeq + 1) % 256, testSince := some v.now, chkLock := false, blockLock := false, alignLock := false, deskewed := false, slots := none, lockedLaneId := none, head := none })) ∧
    (∃ (s : State)(l : Fin 104)(ctl : BitVec 32), prbsCtlOk ctl.toNat = true ∧ s.mode = .maintenance ∧ (bitAt ctl.toNat 31 || bitAt ctl.toNat 30) = true ∧ (s.lane l).state = .disabled) ∧
    (∃ (s : State)(t : State)(l : Fin 104)(ctl : BitVec 32), prbsCtlOk ctl.toNat = true ∧ (bitAt ctl.toNat 31 || bitAt ctl.toNat 30) = false ∧ t = s.setReg (Obj.prbsCtl l) (prbsCtlHeld ctl.toNat : Nat)) ∧
    (∃ (s : State)(l : Fin 104)(bits : Nat)(errors : Nat)(recent : Nat), (s.lane l).state = .test ∧ (s.lane l).chkLock = true ∧ 64 ≤ recent ∧ recent ≤ 1024 ∧ recent ≤ errors ∧ errors ≤ bits) ∧
    (∃ (s : State)(l : Fin 104)(bits : Nat)(errors : Nat)(recent : Nat), ((s.lane l).state ≠ .test ∨ (s.lane l).chkLock = false ∨ recent < 64 ∨ 1024 < recent ∨ errors < recent ∨ bits < errors)) ∧
    (∃ (s : State)(l : Fin 104)(t : Nat), (s.lane l).testSince = some t ∧ (s.lane l).state = .test ∧ ms (field (s.nat (Obj.prbsCtl l)) 0 16) ≤ s.now - t) ∧
    (∃ (s : State)(l : Fin 104), ((s.lane l).state ≠ .test ∨ (∀ t, (s.lane l).testSince = some t → s.now - t < ms (field (s.nat (Obj.prbsCtl l)) 0 16)))) :=
  ⟨⟨{}, 0, .inl rfl⟩,
   ⟨{ aLane { state := .active } with mode := .maintenance }, _, _, _, _, 0, 0x80000001, by decide, by decide, by decide, by decide, rfl, rfl, rfl, rfl⟩,
   ⟨{ aLane { state := .disabled } with mode := .maintenance }, 0, 0x80000001, by decide, by decide, by decide, by decide⟩,
   ⟨{}, _, 0, 1, by decide, by decide, rfl⟩,
   ⟨aLane { state := .test, chkLock := true }, 0, 64, 64, 64, by decide, by decide, by decide, by decide, by decide, by decide⟩,
   ⟨{}, 0, 0, 0, 0, .inr (.inr (.inl (by decide)))⟩,
   ⟨{ aLane { state := .test, testSince := some 0 } with now := 10 ^ 15 }, 0, 0, by decide, by decide, by decide⟩,
   ⟨{}, 0, .inl (by decide)⟩⟩

theorem test_witness_pixel_packets_and_replays :
    (∃ (s : State)(l : Fin 104), s.carries l = none) ∧
    (∃ (s : State)(l : Fin 104)(p : Packet)(g : Nat)(id : Nat), s.carries l = some (g, id) ∧ hdrOk p = false) ∧
    (∃ (s : State)(u : State)(l : Fin 104)(p : Packet)(g : Nat)(id : Nat), s.carries l = some (g, id) ∧ hdrOk p = true ∧ bodyOk p (pixelFields p) = false ∧ u = s.count (Obj.packetErrors g)) ∧
    (∃ (s : State)(u : State)(l : Fin 104)(p : Packet)(g : Nat)(id : Nat), s.carries l = some (g, id) ∧ hdrOk p = true ∧ bodyOk p (pixelFields p) = true ∧ acceptPsn g id (pixelFields p).psn (pixelFields p).replay s = (u, false)) ∧
    (∃ (s : State)(u : State)(l : Fin 104)(p : Packet)(g : Nat)(id : Nat)(t : Nat), s.carries l = some (g, id) ∧ hdrOk p = true ∧ bodyOk p (pixelFields p) = true ∧ acceptPsn g id (pixelFields p).psn (pixelFields p).replay s = (u, true) ∧ t = (p.header.getD 0 0).toNat ∧ 2 ≤ t ∧ t ≤ 4) ∧
    (∃ (s : State)(u : State)(l : Fin 104)(p : Packet)(g : Nat)(id : Nat)(t : Nat), s.carries l = some (g, id) ∧ hdrOk p = true ∧ bodyOk p (pixelFields p) = true ∧ acceptPsn g id (pixelFields p).psn (pixelFields p).replay s = (u, true) ∧ t = (p.header.getD 0 0).toNat ∧ (t < 1 ∨ 4 < t ∨ (t = 1 ∧ pixelOk g id p (pixelFields p) u = false))) ∧
    (∃ (s : State)(u : State)(l : Fin 104)(p : Packet)(g : Nat)(id : Nat), s.carries l = some (g, id) ∧ hdrOk p = true ∧ bodyOk p (pixelFields p) = true ∧ acceptPsn g id (pixelFields p).psn (pixelFields p).replay s = (u, true) ∧ (p.header.getD 0 0).toNat = 1 ∧ pixelOk g id p (pixelFields p) u = true) ∧
    (∃ (s : State)(g : Fin 96)(id : Fin 9)(due : Nat), (s.rx g id).ackDue = some due ∧ due + ns (s.nat Obj.ackInterval) ≤ s.now) ∧
    (∃ (s : State)(g : Fin 96)(id : Fin 9), ((∀ due, (s.rx g id).ackDue = some due → s.now < due + ns (s.nat Obj.ackInterval)))) ∧
    (∃ (s : State)(g : Fin 96)(id : Fin 9)(psn : BitVec 16)(n : Nak), ((s.rx g id).naks.find? fun m => m.psn == psn.toNat) = some n ∧ n.since + us (s.nat Obj.replayTimeout) ≤ s.now ∧ n.repeats < 2) ∧
    (∃ (s : State)(t : State)(g : Fin 96)(id : Fin 9)(psn : BitVec 16)(n : Nak), ((s.rx g id).naks.find? fun m => m.psn == psn.toNat) = some n ∧ n.since + us (s.nat Obj.replayTimeout) ≤ s.now ∧ 2 ≤ n.repeats ∧ t = (updRx g id (fun q => q.take psn.toNat s.now) s).count (Obj.replayFailures g)) ∧
    (∃ (s : State)(g : Fin 96)(id : Fin 9)(psn : BitVec 16), ((∀ n, ((s.rx g id).naks.find? fun m => m.psn == psn.toNat) = some n → s.now < n.since + us (s.nat Obj.replayTimeout)))) :=
  ⟨⟨{}, 0, by decide⟩,
   ⟨aGroup {}, 0, { aPacket 4 with header := [] }, 0, 0, by decide, by decide⟩,
   ⟨aGroup {}, _, 0, { aPacket 4 with crc := [] }, 0, 0, by decide, by decide +kernel, by decide +kernel, rfl⟩,
   ⟨aGroup { rx := [(0, { next := 40000 })] }, (acceptPsn 0 0 (pixelFields (aPacket 4)).psn (pixelFields (aPacket 4)).replay (aGroup { rx := [(0, { next := 40000 })] })).1, 0, aPacket 4, 0, 0, by decide, by decide +kernel, by decide +kernel, Prod.ext rfl (by decide +kernel)⟩,
   ⟨aGroup {}, (acceptPsn 0 0 (pixelFields (aPacket 4 3)).psn (pixelFields (aPacket 4 3)).replay (aGroup {})).1, 0, aPacket 4 3, 0, 0, _, by decide, by decide +kernel, by decide +kernel, Prod.ext rfl (by decide +kernel), rfl, by decide, by decide⟩,
   ⟨aGroup {}, (acceptPsn 0 0 (pixelFields (aPacket 4 0)).psn (pixelFields (aPacket 4 0)).replay (aGroup {})).1, 0, aPacket 4 0, 0, 0, _, by decide, by decide +kernel, by decide +kernel, Prod.ext rfl (by decide +kernel), rfl, .inl (by decide)⟩,
   ⟨aGroup { identity := List.replicate 56 0 ++ [64, 0, 0, 0] }, (acceptPsn 0 0 (pixelFields (aPacket 4)).psn (pixelFields (aPacket 4)).replay (aGroup { identity := List.replicate 56 0 ++ [64, 0, 0, 0] })).1, 0, aPacket 4, 0, 0, by decide, by decide +kernel, by decide +kernel, Prod.ext rfl (by decide +kernel), by decide, by decide +kernel⟩,
   ⟨({ aGroup { rx := [(0, { ackDue := some 3 })] } with now := 10 ^ 9 } : State), 0, 0, 3, by decide, by decide⟩,
   ⟨{}, 0, 0, nofun⟩,
   ⟨{ aGroup { rx := [(0, { naks := [⟨5, 0, 1⟩] })] } with now := 64000 }, 0, 0, 5, ⟨5, 0, 1⟩, by decide, by decide, by decide⟩,
   ⟨{ aGroup { rx := [(0, { naks := [⟨5, 0, 2⟩] })] } with now := 64000 }, _, 0, 0, 5, ⟨5, 0, 2⟩, by decide, by decide, by decide, rfl⟩,
   ⟨{}, 0, 0, 0, fun _ h => by cases h⟩⟩

theorem test_witness_camera_answers :
    (∃ (body : BitVec 32), bitAt body.toNat 20 = true) ∧
    (∃ (body : BitVec 32), bitAt body.toNat 20 = false) ∧
    (∃ (s : State)(u : State)(g : Fin 96)(h : CamHdr)(address : BitVec 32)(tag : BitVec 16), acceptHdr g h s = (u, true) ∧ ((∀ c, (u.group g).access = some c → c.tag ≠ tag.toNat ∨ c.address ≠ address.toNat))) ∧
    (∃ (s : State)(u : State)(g : Fin 96)(h : CamHdr)(address : BitVec 32)(tag : BitVec 16)(c : CtlAccess), acceptHdr g h s = (u, true) ∧ (u.group g).access = some c ∧ c.tag = tag.toNat ∧ c.address = address.toNat ∧ c.proxy = false) ∧
    (∃ (s : State)(u : State)(v : State)(g : Fin 96)(h : CamHdr)(address : BitVec 32)(tag : BitVec 16)(status : BitVec 8)(data : Bytes)(c : CtlAccess), acceptHdr g h s = (u, true) ∧ (u.group g).access = some c ∧ c.tag = tag.toNat ∧ c.address = address.toNat ∧ c.proxy = true ∧ v = (if c.write = false ∧ status.toNat = 0 then u.updGroup g fun x => { x with camRegData := data } else u)) ∧
    (∃ (s : State)(u : State)(g : Fin 96)(h : CamHdr), acceptHdr g h s = (u, false)) ∧
    (∃ (s : State)(g : Fin 96)(c : CtlAccess), (s.group g).access = some c ∧ c.sent + ms 1 ≤ s.now ∧ c.attempts < 3) ∧
    (∃ (s : State)(u : State)(g : Fin 96)(c : CtlAccess), (s.group g).access = some c ∧ c.sent + ms 1 ≤ s.now ∧ 3 ≤ c.attempts ∧ u = (if c.proxy then s.setReg (Obj.camRegStatus g) 3 else s)) ∧
    (∃ (s : State)(g : Fin 96), ((∀ c, (s.group g).access = some c → s.now < c.sent + ms 1))) ∧
    (∃ (s : State)(u : State)(v : State)(g : Fin 96)(h : CamHdr)(seq : BitVec 32)(reason : BitVec 16), acceptHdr g h s = (u, true) ∧ v = (u.count (Obj.trigRejects g)).raise .trigRejected [g, seq.toNat, reason.toNat]) ∧
    (∃ (s : State)(u : State)(g : Fin 96)(h : CamHdr), acceptHdr g h s = (u, true)) ∧
    (∃ (s : State)(u : State)(g : Fin 96)(h : CamHdr), acceptHdr g h s = (u, true) ∧ (u.group g).cancels = []) ∧
    (∃ (s : State)(u : State)(v : State)(g : Fin 96)(h : CamHdr)(arg : BitVec 32)(first : Nat)(last : Nat)(rest : List (Nat × Nat))(mine : LineRec → Bool)(answer : LineRec → LineRec), acceptHdr g h s = (u, true) ∧ (u.group g).cancels = (first, last) :: rest ∧ v = (u.updGroup g fun x => { x with cancels := rest }) ∧ mine = (fun r => r.cancelling.contains g.val && decide ((r.seq + 2 ^ 32 - first) % 2 ^ 32 ≤ (last + 2 ^ 32 - first) % 2 ^ 32)) ∧ answer = (fun r => { r with cancelling := r.cancelling.filter (· != g.val), keptByCamera := r.keptByCamera || !(arg.toNat != maxU 32 && decide ((r.seq + 2 ^ 32 - arg.toNat) % 2 ^ 32 < 2 ^ 31)) })) :=
  ⟨⟨0x100000, by decide⟩,
   ⟨0, by decide⟩,
   ⟨aGroup {}, _, 0, ⟨0, false⟩, 0, 0, Prod.ext rfl (by decide +kernel), fun _ h => by cases h⟩,
   ⟨aGroup { access := some { address := 16, count := 1, write := false, data := [], tag := 2, sent := 0, attempts := 1, proxy := false } }, _, 0, ⟨0, false⟩, 16, 2, { address := 16, count := 1, write := false, data := [], tag := 2, sent := 0, attempts := 1, proxy := false }, Prod.ext rfl (by decide +kernel), by decide, by decide, by decide, by decide⟩,
   ⟨aGroup { access := some { address := 16, count := 1, write := false, data := [], tag := 2, sent := 0, attempts := 1, proxy := true } }, _, _, 0, ⟨0, false⟩, 16, 2, 0, [], { address := 16, count := 1, write := false, data := [], tag := 2, sent := 0, attempts := 1, proxy := true }, Prod.ext rfl (by decide +kernel), by decide, by decide, by decide, by decide, rfl⟩,
   ⟨aGroup { rx := [(0, { next := 40000 })] }, _, 0, ⟨0, false⟩, Prod.ext rfl (by decide +kernel)⟩,
   ⟨{ aGroup { access := some { address := 16, count := 1, write := false, data := [], tag := 2, sent := 0, attempts := 2, proxy := true } } with now := 4000000 }, 0, { address := 16, count := 1, write := false, data := [], tag := 2, sent := 0, attempts := 2, proxy := true }, by decide, by decide, by decide⟩,
   ⟨{ aGroup { access := some { address := 16, count := 1, write := false, data := [], tag := 2, sent := 0, attempts := 3, proxy := true } } with now := 4000000 }, _, 0, { address := 16, count := 1, write := false, data := [], tag := 2, sent := 0, attempts := 3, proxy := true }, by decide, by decide, by decide, rfl⟩,
   ⟨{}, 0, fun _ h => by cases h⟩,
   ⟨aGroup {}, _, _, 0, ⟨0, false⟩, 0, 0, Prod.ext rfl (by decide +kernel), rfl⟩,
   ⟨aGroup {}, _, 0, ⟨0, false⟩, Prod.ext rfl (by decide +kernel)⟩,
   ⟨aGroup {}, _, 0, ⟨0, false⟩, Prod.ext rfl (by decide +kernel), by decide⟩,
   ⟨aGroup { cancels := [(1, 2)] }, _, _, 0, ⟨0, false⟩, 0, 1, 2, [], _, _, Prod.ext rfl (by decide +kernel), by decide, rfl, rfl, rfl⟩⟩

theorem test_witness_link_time_and_camera_registers :
    (∃ (s : State)(u : State)(g : Fin 96)(h : CamHdr)(syncId : BitVec 16), (acceptHdr g h s = (u, false) ∨ (acceptHdr g h s = (u, true) ∧ ∀ id t1, (u.group g).sync = some (id, t1) → id ≠ syncId.toNat))) ∧
    (∃ (s : State)(u : State)(v : State)(w : State)(g : Fin 96)(h : CamHdr)(syncId : BitVec 16)(t2 : Nat)(t3 : Nat)(t4 : Nat)(t1 : Nat)(rate : BitVec 32)(num : Int)(offset : Int), acceptHdr g h s = (u, true) ∧ (u.group g).sync = some (syncId.toNat, t1) ∧ num = (((t2 : Int) - t1) - ((t4 : Int) - t3)) * 1000 - u.reg (Obj.linkAsymmetry g) * 256 ∧ offset = roundDiv num 32000 ∧ v = sendBack g 0x15 (pack [(32, 32, rate.toNat), (0, 32, toBits 32 offset)]) (le8 (b2n (decide (16000 < offset.natAbs) || !((u.group g).state == .up || (u.group g).state == .spareInUse)) * 65536 + syncId.toNat)) (((u.updGroup g fun x => { x with sync := none }).setReg (Obj.timeOffset g) offset).setReg (Obj.pathDelay g) (roundDiv (((t2 : Int) - t1) + ((t4 : Int) - t3)) 32)) ∧ w = (v.updGroup g fun x => { x with goodSyncs := min ((v.group g).goodSyncs + 1) 3, timeLocked := x.timeLocked || decide (3 ≤ (v.group g).goodSyncs + 1) })) ∧
    (∃ (s : State)(g : Fin 96)(id : Nat)(t1 : Nat), (s.group g).sync = some (id, t1) ∧ t1 + 64 * us 100 ≤ s.now * 64) ∧
    (∃ (s : State)(g : Fin 96), ((∀ id t1, (s.group g).sync = some (id, t1) → s.now * 64 < t1 + 64 * us 100))) ∧
    (∃ (s : State)(g : Fin 96), ((s.group g).state ≠ .linking ∨ (s.group g).linkChecked = true ∨ s.groupActive g = false)) ∧
    (∃ (s : State)(u : State)(v : State)(g : Fin 96)(regs : Bytes), (s.group g).state = .linking ∧ (s.group g).linkChecked = false ∧ s.groupActive g = true ∧ u = (readIdentity g s).updGroup g (fun x => { x with identity := regs }) ∧ v = u.updGroup g (fun x => { x with linkChecked := true, goodSyncs := 0 })) ∧
    (∃ (s : State)(u : State)(g : Fin 96), u = s.setReg (Obj.camRegStatus g) 1) ∧
    (∃ (s : State)(g : Fin 96), ((s.group g).proxyBusy = true ∨ (s.group g).camRegData.length ≠ 4 * s.nat (Obj.camRegCount g))) ∧
    (∃ (s : State)(g : Fin 96)(a : Nat)(n : Nat), a = s.nat (Obj.camRegAddress g) ∧ n = s.nat (Obj.camRegCount g) ∧ (s.group g).proxyBusy = false ∧ (s.group g).camRegData.length = 4 * n) :=
  ⟨⟨aGroup { rx := [(0, { next := 40000 })] }, _, 0, ⟨0, false⟩, 0, .inl (Prod.ext rfl (by decide +kernel))⟩,
   ⟨aGroup { sync := some (1, 0) }, _, _, _, 0, ⟨0, false⟩, 1, 1600000, 0, 0, 0, 0, _, _, Prod.ext rfl (by decide +kernel), by decide, rfl, rfl, rfl, rfl⟩,
   ⟨{ aGroup { sync := some (1, 0) } with now := 400000 }, 0, 1, 0, by decide, by decide⟩,
   ⟨{}, 0, fun _ _ h => by cases h⟩,
   ⟨{}, 0, .inl (by decide)⟩,
   ⟨aGroup { state := .linking }, _, _, 0, [], by decide, by decide, by decide, rfl, rfl⟩,
   ⟨{}, _, 0, rfl⟩,
   ⟨aGroup { camRegData := [0] }, 0, .inr (by decide)⟩,
   ⟨(aGroup {}).setReg (Obj.camRegCount 0) 0, 0, _, _, rfl, rfl, by decide, rfl⟩⟩

theorem test_witness_oxbow_switch_completes :
    (∃ (s : State)(u : State)(v : State)(w : State)(g : Fin 96)(body : BitVec 32)(id : Nat)(resume : Nat)(old : Nat)(spare : Nat)(plan : Bool), id = field body.toNat 0 4 ∧ (s.group g).oxbow = some (id, resume) ∧ spare = s.spareOf g ∧ old = s.laneOfId g id ∧ plan = (s.lane old).planned ∧ u = s.updGroup g (fun x => { x with oxbow := none, moved := (id, spare) :: x.moved.filter (fun m => m.1 != id), spareLane := some 255, state := if x.state == .up then .spareInUse else x.state }) ∧ v = (updRx g id (fun q => { q with failedOver := true, lagUntil := some resume }) u).updLane old (fun x => { x with retrainPending := true }) ∧ w = recordRepairAt (v.group g).oxbowAt 7 (b2n plan) old spare (if plan then Kind.wearLane else v.laneFault old) (v.raise .oxbowDone [g, id, spare])) ∧
    (∃ (s : State)(g : Fin 96)(body : BitVec 32), ((∀ id resume, (s.group g).oxbow = some (id, resume) → id ≠ field body.toNat 0 4))) :=
  ⟨⟨{ groups := [(0, { oxbow := some (3, 9) })] }, _, _, _, 0, 3, _, 9, _, _, _, rfl, rfl, rfl, rfl, rfl, rfl, rfl, rfl⟩,
   ⟨{}, 0, 0, fun _ _ h => by cases h⟩⟩

theorem test_witness_analog_line_steps :
    (∃ (s : State)(p : Fin 32)(seq : BitVec 32), ((∀ st k r, s.matchLine 1 p seq.toNat = some (st, k, r) → (s.port p).state ≠ .running ∨ ((s.port p).queue.any fun l => l.seq == r.seq) = true ∨ s.earlierWaits p r = true ∨ r.cancelling ≠ [] ∨ s.now < r.sched ∨ (windowStart s p r - r.sched ≤ ns (r.nat (Obj.startLateLimit p)) ∧ s.now < windowStart s p r)))) ∧
    (∃ (s : State)(u : State)(p : Fin 32)(seq : BitVec 32)(st : Nat)(k : Nat)(r : LineRec)(l : PortLine), s.matchLine 1 p seq.toNat = some (st, k, r) ∧ (s.port p).state = .running ∧ ((s.port p).queue.any fun l => l.seq == r.seq) = false ∧ s.earlierWaits p r = false ∧ r.cancelling = [] ∧ r.sched ≤ s.now ∧ windowStart s p r - r.sched ≤ ns (r.nat (Obj.startLateLimit p)) ∧ windowStart s p r ≤ s.now ∧ l = portLine s p r (windowStart s p r) ∧ u = s.setPort p { s.port p with queue := (s.port p).queue ++ [l], prevP := l.transferEnd, prevR := l.readoutEnd, stExp := true, gateClose := some l.closes }) ∧
    (∃ (s : State)(p : Fin 32)(seq : BitVec 32)(st : Nat)(k : Nat)(r : LineRec), s.matchLine 1 p seq.toNat = some (st, k, r) ∧ (s.port p).state = .running ∧ ((s.port p).queue.any fun l => l.seq == r.seq) = false ∧ s.earlierWaits p r = false ∧ r.cancelling = [] ∧ r.sched ≤ s.now ∧ ns (r.nat (Obj.startLateLimit p)) < windowStart s p r - r.sched) ∧
    (∃ (s : State)(p : Fin 32), ((s.port p).queue.find? fun x => !x.token) = none) ∧
    (∃ (s : State)(p : Fin 32)(l : PortLine), ((s.port p).queue.find? fun x => !x.token) = some l ∧ s.now ≤ l.transfer) ∧
    (∃ (s : State)(p : Fin 32)(l : PortLine), ((s.port p).queue.find? fun x => !x.token) = some l ∧ l.transfer < s.now) ∧
    (∃ (s : State)(p : Fin 32)(t : Nat), (s.port p).gateClose = some t ∧ t ≤ s.now) ∧
    (∃ (s : State)(p : Fin 32), ((∀ t, (s.port p).gateClose = some t → s.now < t))) ∧
    (∃ (s : State)(p : Fin 32)(opening : Bool), ((s.port p).queue.find? fun x => if opening then x.openedAt.isNone else x.openedAt.isSome && x.closedAt.isNone) = none) ∧
    (∃ (s : State)(u : State)(p : Fin 32)(at_ : Nat)(l : PortLine), ((s.port p).queue.find? fun x => x.openedAt.isNone) = some l ∧ u = updPortLine p l.seq (fun x => { x with openedAt := some at_ }) (edgeOff p at_ l.opens s)) ∧
    (∃ (s : State)(u : State)(p : Fin 32)(at_ : Nat)(o : Nat)(l : PortLine), ((s.port p).queue.find? fun x => x.openedAt.isSome && x.closedAt.isNone) = some l ∧ l.openedAt = some o ∧ u = (updPortLine p l.seq (fun x => { x with closedAt := some at_ }) (edgeOff p at_ l.closes s)).setReg (Obj.exposureMeasuredLast p) ((at_ - o : Nat) : Int)) ∧
    (∃ (s : State)(p : Fin 32)(l : PortLine), ((s.port p).queue.find? fun l => (l.openedAt.isNone && decide (l.opens + 8 < s.now)) || (l.closedAt.isNone && decide (l.closes + 8 < s.now))) = some l) ∧
    (∃ (s : State)(p : Fin 32), ((s.port p).queue.find? fun l => (l.openedAt.isNone && decide (l.opens + 8 < s.now)) || (l.closedAt.isNone && decide (l.closes + 8 < s.now))) = none) ∧
    (∃ (s : State)(u : State)(v : State)(p : Fin 32)(l : PortLine)(start : Nat), (s.port p).queue.head? = some l ∧ l.token = true ∧ l.transfer ≤ s.now ∧ u = (if s.portContinuous p then s else startClock p l.transfer (some (l.readoutEnd + s.periods p 4)) s) ∧ start = (match (u.port p).clockFrom with | some t => u.risingEdge p t l.startPulse | none => l.startPulse) ∧ v = (if s.nat (Obj.tgMode p) = 1 then drivePort p .stTg 1 false (l.transfer + ns (u.nat (Obj.tgWidth p))) (drivePort p .stTg 1 true l.transfer u) else u)) ∧
    (∃ (s : State)(p : Fin 32), ((∀ l, (s.port p).queue.head? = some l → l.token = false ∨ s.now < l.transfer))) ∧
    (∃ (s : State)(u : State)(v : State)(p : Fin 32)(l : PortLine), (s.port p).queue.head? = some l ∧ l.token = true ∧ s.matchLine 1 p l.seq = none ∧ max l.readoutEnd (s.sampledAll s.reg p l.startPulse) ≤ s.now ∧ u = s.updPort p (fun x => { x with queue := x.queue.drop 1, lines := (x.lines + 1) % 2 ^ 24, stTg := false, stSp := false }) ∧ v = (match (u.port p).clockUntil with | some t => if u.power.halted then u else u.emit (.pin .stClk p false t) | none => u)) ∧
    (∃ (s : State)(u : State)(v : State)(w : State)(p : Fin 32)(nanovolts : List (List Int))(l : PortLine)(st : Nat)(k : Nat)(r : LineRec)(t : Table Nat)(tr : Trib), (s.port p).queue.head? = some l ∧ l.token = true ∧ s.matchLine 1 p l.seq = some (st, k, r) ∧ max l.readoutEnd (s.sampledAll r.reg p l.startPulse) ≤ s.now ∧ (tribsOf r.nat st)[k]? = some tr ∧ u = s.updPort p (fun x => { x with queue := x.queue.drop 1, lines := (x.lines + 1) % 2 ^ 24, stTg := false, stSp := false }) ∧ v = (match (u.port p).clockUntil with | some t => if u.power.halted then u else u.emit (.pin .stClk p false t) | none => u) ∧ (t, w) = placeInputs r.reg p (v.inputsOf p) nanovolts [] v) ∧
    (∃ (s : State)(p : Fin 32), ((∀ l, (s.port p).queue.head? = some l → l.token = false ∨ (∀ st k r, s.matchLine 1 p l.seq = some (st, k, r) → s.now < max l.readoutEnd (s.sampledAll r.reg p l.startPulse)) ∧ (s.matchLine 1 p l.seq = none → s.now < max l.readoutEnd (s.sampledAll s.reg p l.startPulse))))) ∧
    (∃ (s : State)(b : Fin 4), s.bank b ≠ .calibrating) ∧
    (∃ (s : State)(b : Fin 4), s.bank b = .calibrating) ∧
    (∃ (s : State)(b : Fin 4), s.bank b = .calibrating) :=
  ⟨⟨{}, 0, 0, fun _ _ _ h => absurd ((by decide : ({} : State).matchLine 1 0 0 = none).symm.trans h) nofun⟩,
   ⟨aPort { state := .running } [aRecord], _, 0, 7, 0, 0, aRecord, _, by decide, by decide, by decide, by decide, by decide, by decide, by decide, by decide, rfl, rfl⟩,
   ⟨aPort { state := .running, prevP := 20000 } [aRecord], 0, 7, 0, 0, aRecord, by decide, by decide, by decide, by decide, by decide, by decide, by decide⟩,
   ⟨{}, 0, by decide⟩,
   ⟨{ aPort { queue := [aLine] } [] with now := 20 }, 0, aLine, by decide, by decide⟩,
   ⟨aPort { queue := [aLine] } [], 0, aLine, by decide, by decide⟩,
   ⟨{ ports := [(0, { gateClose := some 0 })] }, 0, 0, by decide, by decide⟩,
   ⟨{}, 0, nofun⟩,
   ⟨{}, 0, false, by decide⟩,
   ⟨aPort { queue := [aLine] } [], _, 0, 0, aLine, by decide, rfl⟩,
   ⟨aPort { queue := [{ aLine with openedAt := some 0 }] } [], _, 0, 0, 0, { aLine with openedAt := some 0 }, by decide, by decide, rfl⟩,
   ⟨aPort { queue := [aLine] } [], 0, aLine, by decide⟩,
   ⟨{}, 0, by decide⟩,
   ⟨aPort { queue := [{ aLine with token := true }] } [], _, _, 0, { aLine with token := true }, _, by decide, by decide, by decide, rfl, rfl, rfl⟩,
   ⟨{}, 0, fun _ h => by cases h⟩,
   ⟨aPort { queue := [{ aLine with token := true }] } [], _, _, 0, { aLine with token := true }, by decide, by decide, by decide, by decide, rfl, rfl⟩,
   ⟨aPort { queue := [{ aLine with token := true }] } [{ aRecord with regs := [((Obj.tributary 0 0).key, 2 ^ 63 + 2 ^ 60 + 16 * 2 ^ 18)] }], _, _, _, 0, [], { aLine with token := true }, 0, 0, { aRecord with regs := [((Obj.tributary 0 0).key, 2 ^ 63 + 2 ^ 60 + 16 * 2 ^ 18)] }, _, _, by decide, by decide, by decide, by decide +kernel, rfl, rfl, rfl, rfl⟩,
   ⟨{}, 0, fun _ h => by cases h⟩,
   ⟨{}, 0, by decide⟩,
   ⟨{ banks := [(0, .calibrating)] }, 0, by decide⟩,
   ⟨{ banks := [(0, .calibrating)] }, 0, by decide⟩⟩

theorem test_witness_pixel_pipeline_steps :
    (∃ (s : State)(u : State)(st : Fin 64)(g : Segment), (s.ingest.find? fun x => x.stream == st.val) = some g ∧ u = { s with ingest := s.ingest.erase g }) ∧
    (∃ (s : State)(st : Fin 64), (s.ingest.find? fun x => x.stream == st.val) = none) ∧
    (∃ (s : State)(u : State)(g : Segment)(rest : List Segment)(k : Nat)(r : LineRec), (s.crossbar.filter fun x => x.cls == 0 && s.dealable x) ++ (s.crossbar.filter fun x => x.cls != 0 && s.dealable x) = g :: rest ∧ s.pickSlice g.cls = some k ∧ s.recOf g.stream g.line = some r ∧ u = (if r.entered then { s with crossbar := s.crossbar.erase g } else enterLine r { s with crossbar := s.crossbar.erase g })) ∧
    (∃ (s : State), ((∀ g rest, (s.crossbar.filter fun x => x.cls == 0 && s.dealable x) ++ (s.crossbar.filter fun x => x.cls != 0 && s.dealable x) = g :: rest → s.pickSlice g.cls = none ∨ s.recOf g.stream g.line = none))) ∧
    (∃ (s : State)(k : Fin 68), ((s.slice k).current = none ∨ (s.slice k).faulted = true)) ∧
    (∃ (s : State)(k : Fin 68)(g : Segment), (s.slice k).current = some g ∧ (s.slice k).faulted = false) ∧
    (∃ (s : State)(k : Fin 68)(g : Segment), (s.slice k).current = some g ∧ (s.slice k).faulted = false ∧ s.recOf g.stream g.line = none) ∧
    (∃ (s : State)(t : State)(k : Fin 68)(u : List Nat)(here : List Nat)(bad : List Nat)(g : Segment)(r : LineRec)(knots : Option (List Nat)), (s.slice k).current = some g ∧ (s.slice k).faulted = false ∧ s.recOf g.stream g.line = some r ∧ here = (List.range g.pixels.length).map (g.first + ·) ∧ bad = here.filter (fun x => u.contains x || (s.coefRow (s.rowOfPixel r x)).bad) ∧ knots = (match (tribsOf r.nat g.stream)[g.trib]? with | some t => if t.curve = 0 then none else some (if (r.knots t.curve).isEmpty then identityKnots else r.knots t.curve) | none => none) ∧ t = takeOut r g (widthBits g.width) (correctSegment r g (widthBits g.width) knots bad) s) ∧
    (∃ (s : State)(k : Fin 68), ((s.slice k).state ≠ .testing ∨ s.replayRuns k = true)) ∧
    (∃ (s : State)(k : Fin 68), (s.slice k).state = .testing ∧ s.replayRuns k = false) ∧
    (∃ (s : State), s.streamWrite = .refused) ∧
    (∃ (s : State), s.streamWrite = .now) ∧
    (∃ (s : State), s.streamWrite = .hold) ∧
    (∃ (s : State), s.streamWrite = .later) :=
  ⟨⟨{ ingest := [{ stream := 0, line := 1, trib := 0, first := 0, width := 0, pixels := [1, 2, 3, 4], cls := 0 }] }, _, 0, _, rfl, rfl⟩,
   ⟨{}, 0, by decide⟩,
   ⟨{ records := [{ aRecord with entered := true, expMeas := some 0, regs := [((Obj.tributary 0 0).key, 2 ^ 63 + 16)] }], crossbar := [{ stream := 0, line := 1, trib := 0, first := 0, width := 0, pixels := [1, 2, 3, 4], cls := 0 }], slices := [(3, { state := .active })] }, _, { stream := 0, line := 1, trib := 0, first := 0, width := 0, pixels := [1, 2, 3, 4], cls := 0 }, [], 3, { aRecord with entered := true, expMeas := some 0, regs := [((Obj.tributary 0 0).key, 2 ^ 63 + 16)] }, by decide, by decide, by decide, rfl⟩,
   ⟨{}, fun _ _ h => by cases h⟩,
   ⟨{}, 0, .inl rfl⟩,
   ⟨{ slices := [(3, { current := some { stream := 0, line := 1, trib := 0, first := 0, width := 0, pixels := [1, 2, 3, 4], cls := 0 } })] }, 3, { stream := 0, line := 1, trib := 0, first := 0, width := 0, pixels := [1, 2, 3, 4], cls := 0 }, by decide, by decide⟩,
   ⟨{ slices := [(3, { current := some { stream := 0, line := 1, trib := 0, first := 0, width := 0, pixels := [1, 2, 3, 4], cls := 0 } })] }, 3, { stream := 0, line := 1, trib := 0, first := 0, width := 0, pixels := [1, 2, 3, 4], cls := 0 }, by decide, by decide, by decide⟩,
   ⟨{ records := [{ aRecord with entered := true, expMeas := some 0, regs := [((Obj.tributary 0 0).key, 2 ^ 63 + 16)] }], slices := [(3, { current := some { stream := 0, line := 1, trib := 0, first := 0, width := 0, pixels := [1, 2, 3, 4], cls := 0 } })] }, _, 3, [], _, _, { stream := 0, line := 1, trib := 0, first := 0, width := 0, pixels := [1, 2, 3, 4], cls := 0 }, { aRecord with entered := true, expMeas := some 0, regs := [((Obj.tributary 0 0).key, 2 ^ 63 + 16)] }, _, by decide, by decide, by decide, rfl, rfl, rfl, rfl⟩,
   ⟨{}, 0, by decide⟩,
   ⟨{ slices := [(3, { state := .testing })] }, 3, by decide, by decide⟩,
   ⟨{ mode := .off, target := none }, by decide⟩,
   ⟨{ mode := .scan, target := none }, by decide⟩,
   ⟨{ mode := .hold, target := none }, by decide⟩,
   ⟨{ mode := .configure, target := none }, by decide⟩⟩

theorem test_witness_calibration_commands :
    (∃ (s : State)(st : Fin 64), (s.calib st).busy = true) ∧
    (∃ (s : State)(st : Fin 64), (s.calib st).busy = false ∧ s.mode ≠ .calibrate) ∧
    (∃ (s : State)(st : Fin 64), (s.calib st).busy = false ∧ s.mode ≠ .scan ∧ s.mode ≠ .stream) ∧
    (∃ (s : State)(st : Fin 64), (s.calib st).busy = false ∧ s.mode ≠ .idleReady ∧ s.mode ≠ .calibrate ∧ s.mode ≠ .scan ∧ s.mode ≠ .stream) ∧
    (∃ (s : State)(st : Fin 64), s.mode = .calibrate ∧ (s.calib st).busy = false) ∧
    (∃ (s : State)(st : Fin 64), (s.mode = .scan ∨ s.mode = .stream) ∧ (s.calib st).busy = false) ∧
    (∃ (s : State)(st : Fin 64), (s.mode = .idleReady ∨ s.mode = .calibrate ∨ s.mode = .scan ∨ s.mode = .stream) ∧ (s.calib st).busy = false) ∧
    (∃ (s : State)(st : Fin 64)(g : CommitGroup), (s.groupsWaiting.find? fun g => g.captures st) = some g) ∧
    (∃ (s : State)(st : Fin 64), (s.groupsWaiting.find? fun g => g.captures st) = none) ∧
    (∃ (s : State)(st : Fin 64)(c : Calib)(k : CalSet), (s.calib st).state = .capturing ∧ ((s.phasesIn st (s.calib st).mask).all fun ph => decide ((s.calib st).lines ≤ (Table.get {} (s.calib st).work ph).lines)) = true ∧ k = { doneAt := s.dt, gap := decide (3 ≤ (s.calib st).kind), phases := (s.calib st).work } ∧ c = { s.calib st with state := .captured, result := 0, work := [], excluded := [], restoreAt := if (s.calib st).kind = 1 then some (s.nextCycleLine st) else (s.calib st).restoreAt }) ∧
    (∃ (s : State)(st : Fin 64), ((s.calib st).state ≠ .capturing ∨ (∃ ph ∈ s.phasesIn st (s.calib st).mask, (Table.get {} (s.calib st).work ph).lines < (s.calib st).lines))) ∧
    (∃ (s : State)(st : Fin 64), (s.calib st).state ≠ .deriving_) ∧
    (∃ (s : State)(u : State)(st : Fin 64), (s.calib st).state = .deriving_ ∧ (s.derive st).result ≠ 0 ∧ u = s.setReg (Obj.calReport st) (s.derive st).report) ∧
    (∃ (s : State)(u : State)(v : State)(st : Fin 64)(stage : Bool), (s.calib st).state = .deriving_ ∧ (s.derive st).result = 0 ∧ u = (s.setReg (Obj.calReport st) (s.derive st).report).updCalib st (fun c => { c with derived := some (s.derive st).tables }) ∧ stage = (u.flag (Obj.calAutoStage st) && !u.groupsFull st) ∧ v = (({ u with dep := { u.dep with lampRef := u.dep.lampMean } } : State).updCalib st fun c => { c with result := 0, state := if stage then .staged else .captured }).raise .calDone [st, 0]) :=
  ⟨⟨{ calibs := [(0, { state := .capturing })] }, 0, by decide⟩,
   ⟨{}, 0, by decide, by decide⟩,
   ⟨{ mode := .calibrate }, 0, by decide, by decide, by decide⟩,
   ⟨{ mode := .off }, 0, by decide, by decide, by decide, by decide, by decide⟩,
   ⟨{ mode := .calibrate }, 0, by decide, by decide⟩,
   ⟨{ mode := .scan }, 0, .inl rfl, by decide⟩,
   ⟨{ mode := .idleReady }, 0, .inl rfl, by decide⟩,
   ⟨{ groupsWaiting := [{ id := 3, boundary := 1, members := [(captureKey 0, .num 0)], streams := [0] }] }, 0, _, rfl⟩,
   ⟨{}, 0, by decide⟩,
   ⟨{ calibs := [(0, { state := .capturing })] }, 0, _, _, by decide, by decide, rfl, rfl⟩,
   ⟨{}, 0, by decide⟩,
   ⟨{}, 0, by decide⟩,
   ⟨{ calibs := [(0, { state := .deriving_ })] }, _, 0, by decide, by decide, rfl⟩,
   ⟨({ calibs := [(0, { state := .deriving_, dark := some ⟨0, false, []⟩, white := some ⟨0, false, []⟩ })] } : State).setReg (Obj.calPhaseMask 0) 0 |>.setReg (Obj.calAutoStage 0) 0, _, _, 0, _, by decide, by decide +kernel, rfl, rfl, rfl⟩⟩

theorem test_witness_lamp_warm_up :
    (∃ (s : State), s.loopDue 1 0 (ms (s.nat Obj.warmupInterval)) = false) ∧
    (∃ (s : State)(u : State)(quiet : Bool)(n : Nat), s.loopDue 1 0 (ms (s.nat Obj.warmupInterval)) = true ∧ (quiet, u) = (s.loopRan 1 0).warmSources.foldl (fun t i => (t.1 && (warmSource i t.2).1, (warmSource i t.2).2)) (true, s.loopRan 1 0) ∧ n = (if quiet then u.warmup.settled + 1 else 0)) ∧
    (∃ (s : State)(u : State)(v : State), s.warmup.state = .warming ∧ s.warmup.since + ms (1000 * s.nat Obj.warmupTimeout) ≤ s.now ∧ u = { s with warmup := { s.warmup with state := .timeout } } ∧ v = u.raiseFault .lampWarmupTimeout [u.slowestSource] Kind.lampWarmupTimeout 1 u.slowestSource 2 (islandOf 10 0)) ∧
    (∃ (s : State), (s.warmup.state ≠ .warming ∨ s.now < s.warmup.since + ms (1000 * s.nat Obj.warmupTimeout))) :=
  ⟨⟨{ loops := [(256, 1)] }, by decide⟩,
   ⟨{}, _, _, _, by decide, rfl, rfl⟩,
   ⟨{ warmup := { state := .warming }, now := ms 900000 }, _, _, by decide, by decide, rfl, rfl⟩,
   ⟨{}, by decide⟩⟩

theorem test_witness_position_inputs :
    (∃ (s : State)(u : State)(c : Fin 16)(input : Fin 3)(wireN : Bool)(level : Bool)(present : Bool)(v : PosInput)(w : PosInput), u = passFilter c input s ∧ v = (if wireN then { (u.posChan c).input input with n := level } else { (u.posChan c).input input with p := level }) ∧ u.nat (Obj.wireCheck c) = 0 ∧ present = v.p ∧ w = { v with agreeSince := none, goodSince := none }) ∧
    (∃ (s : State)(u : State)(c : Fin 16)(input : Fin 3)(wireN : Bool)(level : Bool)(present : Bool)(v : PosInput)(w : PosInput), u = passFilter c input s ∧ v = (if wireN then { (u.posChan c).input input with n := level } else { (u.posChan c).input input with p := level }) ∧ u.nat (Obj.wireCheck c) ≠ 0 ∧ (present = (if v.p = v.n ∨ v.faulted = true then v.shown else v.p)) ∧ w = (if v.p = v.n then { v with agreeSince := some (v.agreeSince.getD u.now), goodSince := none } else { v with agreeSince := none, goodSince := if v.faulted then some (v.goodSince.getD u.now) else none })) ∧
    (∃ (s : State)(c : Fin 16)(input : Fin 3)(stamp : Nat), ((s.posChan c).input input).pending = some stamp ∧ stamp + 10 * s.nat (Obj.filterCycles c) ≤ s.now) ∧
    (∃ (s : State)(c : Fin 16)(input : Fin 3), ((∀ stamp, ((s.posChan c).input input).pending = some stamp → s.now < stamp + 10 * s.nat (Obj.filterCycles c)))) ∧
    (∃ (s : State)(c : Fin 16)(due : Nat → Bool)(i : Nat), due = (fun i => ((s.posChan c).input i).late && (match (s.posChan c).lastEdge i with | some t => decide (ns (s.nat (Obj.minEdgeTime c)) ≤ s.now - t) | none => true)) ∧ [0, 1, 2].find? due = some i) ∧
    (∃ (s : State)(c : Fin 16), ((∀ i < 3, ((s.posChan c).input i).late = true → ∃ t, (s.posChan c).lastEdge i = some t ∧ s.now - t < ns (s.nat (Obj.minEdgeTime c))))) ∧
    (∃ (s : State)(u : State)(c : Fin 16)(due : Nat → Bool)(i : Nat), due = (fun i => (s.posChan c).state != .off && !((s.posChan c).input i).faulted && s.nat (Obj.wireCheck c) != 0 && (match ((s.posChan c).input i).agreeSince with | some t => decide (ns (s.nat (Obj.wireCheck c)) < s.now - t) | none => false)) ∧ [0, 1, 2].find? due = some i ∧ u = ((s.updPosChan c (fun x => { x.setInput i { (s.posChan c).input i with faulted := true, pending := none, late := false } with state := .wireFault, wireFault := true })).count (Obj.wireFaults c)).raiseFault .posWireFault [c, i] Kind.posWireFault 2 (c + 256 * i) 0 (islandOf 0 0)) ∧
    (∃ (s : State)(c : Fin 16), ((∀ i < 3, (s.posChan c).state = .off ∨ ((s.posChan c).input i).faulted = true ∨ s.nat (Obj.wireCheck c) = 0 ∨ (∀ t, ((s.posChan c).input i).agreeSince = some t → s.now - t ≤ ns (s.nat (Obj.wireCheck c)))))) ∧
    (∃ (s : State)(u : State)(c : Fin 16)(due : Nat → Bool)(i : Nat), due = (fun i => ((s.posChan c).input i).faulted && (match ((s.posChan c).input i).goodSince with | some t => decide (ns (s.nat (Obj.wireCheck c)) ≤ s.now - t) | none => false)) ∧ [0, 1, 2].find? due = some i ∧ u = s.updPosChan c (fun x => x.setInput i { (s.posChan c).input i with faulted := false, goodSince := none, agreeSince := none, shown := ((s.posChan c).input i).p, passed := ((s.posChan c).input i).p, level := ((s.posChan c).input i).p, pending := none, late := false })) ∧
    (∃ (s : State)(c : Fin 16), ((∀ i < 3, ((s.posChan c).input i).faulted = true → ∀ t, ((s.posChan c).input i).goodSince = some t → s.now - t < ns (s.nat (Obj.wireCheck c))))) ∧
    (∃ (s : State)(c : Fin 16), s.channelTriggers c = true) ∧
    (∃ (s : State)(c : Fin 16)(v : BitVec 64)(p : Int)(d : Int)(m : Int), s.channelTriggers c = false ∧ p = signed 64 v.toNat ∧ d = p - s.extPos c ∧ m = (if s.nat (Obj.countsPerRev c) = 0 then 2 ^ 32 else s.nat (Obj.countsPerRev c) : Nat)) :=
  ⟨⟨({} : State).setReg (Obj.wireCheck 0) 0, _, 0, 0, false, false, _, _, _, rfl, rfl, by decide, rfl, rfl⟩,
   ⟨{}, _, 0, 0, false, false, _, _, _, rfl, rfl, by decide, rfl, rfl⟩,
   ⟨{ posChans := [(0, { a := { pending := some 0 } })] }, 0, 0, 0, by decide, by decide⟩,
   ⟨{}, 0, 0, nofun⟩,
   ⟨{ posChans := [(0, { a := { late := true, level := true } })] }, 0, _, 0, rfl, by decide⟩,
   ⟨{}, 0, fun i hi h => absurd h ((by decide : ∀ i < 3, ¬ ((({} : State).posChan 0).input i).late = true) i hi)⟩,
   ⟨{ posChans := [(0, { state := .running, a := { agreeSince := some 0 } })], now := 801 }, _, 0, _, 0, rfl, by decide, rfl⟩,
   ⟨{}, 0, fun _ _ => .inl rfl⟩,
   ⟨{ posChans := [(0, { a := { faulted := true, goodSince := some 0 } })], now := 800 }, _, 0, _, 0, rfl, by decide, rfl⟩,
   ⟨{}, 0, fun i hi h => absurd h ((by decide : ∀ i < 3, ¬ ((({} : State).posChan 0).input i).faulted = true) i hi)⟩,
   ⟨({ streams := [(0, { state := .running })] } : State).setReg (Obj.triggerSource 0) 1 |>.setReg (Obj.triggerChannel 0) 0, 0, by decide⟩,
   ⟨{}, 0, 0, _, _, _, by decide, rfl, rfl, rfl⟩⟩

theorem test_witness_generators_compares_and_timing_pins :
    (∃ (s : State)(u : State)(k : Fin 64)(v : BitVec 32), u = (s.setReg (Obj.compareValue k) v.toNat).updCmp k (fun x => { x with rearm := false })) ∧
    (∃ (v : BitVec 32), (cmpDir v.toNat = 3 ∨ field v.toNat 16 8 = 0)) ∧
    (∃ (s : State)(u : State)(k : Fin 64)(v : BitVec 32)(w : Nat), cmpDir v.toNat ≠ 3 ∧ field v.toNat 16 8 ≠ 0 ∧ w = putField (putField (putField v.toNat 24 1 0) 25 1 0) 0 16 (field (s.nat (Obj.compareCtl k)) 0 16) ∧ u = (s.setReg (Obj.compareCtl k) w).updCmp k (fun x => { x with rearm := false })) ∧
    (∃ (s : State)(t : Fin 96), s.tioFn t ≠ 4) ∧
    (∃ (s : State)(u : State)(v : State)(t : Fin 96), s.tioFn t = 4 ∧ u = (stampTio t true s).raise .tioEdge [t, s.tioStamp t] ∧ v = (u.convsOn 2 t).foldl (fun w j => feTrigger j (ns (s.tioStamp t)) false w) u) ∧
    (∃ (s : State)(t : Fin 96)(e : Nat), (s.tio t).pulseEnd = some e) ∧
    (∃ (s : State)(t : Fin 96), (s.tio t).pulseEnd = none) ∧
    (∃ (s : State)(t : Fin 96), s.tioFn t = 21 ∧ (s.tio t).instants.length < 16) ∧
    (∃ (s : State)(t : Fin 96), (s.tioFn t ≠ 21 ∨ 16 ≤ (s.tio t).instants.length)) :=
  ⟨⟨{}, _, 0, 0, rfl⟩,
   ⟨0, .inr rfl⟩,
   ⟨{}, _, 0, 0x10000, _, by decide, by decide, rfl, rfl⟩,
   ⟨{}, 0, by decide⟩,
   ⟨(({  } : State).setReg (Obj.tioConfig 5) (4 * 2 ^ 26 + 0 * 2 ^ 12)), _, _, 5, by decide, rfl, rfl⟩,
   ⟨{ tios := [(5, { pulseEnd := some 0 })] }, 5, 0, by decide⟩,
   ⟨{}, 0, by decide⟩,
   ⟨(({  } : State).setReg (Obj.tioConfig 5) (21 * 2 ^ 26 + 0 * 2 ^ 12)), 5, by decide, by decide⟩,
   ⟨{}, 0, .inl (by decide)⟩⟩

theorem test_witness_motion_commands :
    (∃ (s : State)(m : Fin 16), ((s.motion m).state = .off ∨ s.loopDue 2 m (ns 100) = false)) ∧
    (∃ (s : State)(t : State)(m : Fin 16), s.loopDue 2 m (ns 100) = true ∧ (s.motion m).state ≠ .off ∧ t = tickTaken m s ∧ ((t.motion m).vel ≠ 0 ∨ (t.motion m).acc ≠ 0 ∨ wantedOf m t = 0)) ∧
    (∃ (s : State)(t : State)(m : Fin 16), s.loopDue 2 m (ns 100) = true ∧ (s.motion m).state ≠ .off ∧ t = tickTaken m s ∧ (t.motion m).vel = 0 ∧ (t.motion m).acc = 0 ∧ wantedOf m t ≠ 0 ∧ decide (0 < wantedOf m t) = (t.motion m).dirUp) ∧
    (∃ (s : State)(t : State)(m : Fin 16)(up : Bool), s.loopDue 2 m (ns 100) = true ∧ (s.motion m).state ≠ .off ∧ t = tickTaken m s ∧ (t.motion m).vel = 0 ∧ (t.motion m).acc = 0 ∧ wantedOf m t ≠ 0 ∧ up = decide (0 < wantedOf m t) ∧ up ≠ (t.motion m).dirUp) ∧
    (∃ (s : State)(m : Fin 16), s.motionBusy m = false) ∧
    (∃ (s : State)(m : Fin 16), s.motionBusy m = true) ∧
    (∃ (sub : Fin 32), sub.val ∉ [2, 3, 4, 5, 6, 7, 8, 18]) ∧
    (∃ (s : State)(m : Fin 16), ((s.motion m).state ≠ .fault ∨ (s.motion m).vel ≠ 0 ∨ (∃ u, s.transportOfMotion m = some u ∧ (s.trans u).state ≠ .idle ∧ (s.trans u).state ≠ .fault))) ∧
    (∃ (s : State)(m : Fin 16), (s.motion m).state = .fault ∧ (s.motion m).vel = 0 ∧ ((∀ u, s.transportOfMotion m = some u → (s.trans u).state = .idle ∨ (s.trans u).state = .fault))) ∧
    (∃ (s : State)(u : State)(m : Fin 16), u = (s.setReg (Obj.motEnable m) 1).updMotion m (fun x => { x with driven := true })) ∧
    (∃ (s : State)(u : State)(m : Fin 16), u = (s.setReg (Obj.motEnable m) 0).updMotion m (fun x => { x with driven := x.driven })) :=
  ⟨⟨{}, 0, by decide⟩,
   ⟨{ motions := [(0, { state := .standstill })], now := 4000 }, _, 0, by decide, by decide, rfl, by decide⟩,
   ⟨((({ motions := [(0, { state := .standstill, idleHold := false, dirUp := true })], now := 4000 } : State).setReg (Obj.motMode 0) 2).setReg (Obj.motVelocity 0) (1)), _, 0, by decide, by decide, rfl, by decide, by decide, by decide, rfl⟩,
   ⟨((({ motions := [(0, { state := .standstill, idleHold := false, dirUp := true })], now := 4000 } : State).setReg (Obj.motMode 0) 2).setReg (Obj.motVelocity 0) (-1)), _, 0, _, by decide, by decide, rfl, by decide, by decide, by decide, rfl, by decide⟩,
   ⟨{}, 0, by decide⟩,
   ⟨({ transports := [(0, { state := .running })] } : State).setReg (Obj.transportMotion 0) 0 |>.setReg (Obj.transportKind 0) 1, 0, by decide⟩,
   ⟨0, by decide⟩,
   ⟨{}, 0, .inl (by decide)⟩,
   ⟨{ motions := [(0, { state := .fault })] }, 0, by decide, by decide, fun u h => absurd ((by decide : State.transportOfMotion { motions := [(0, { state := .fault })] } 0 = none).symm.trans h) nofun⟩,
   ⟨{}, _, 0, rfl⟩,
   ⟨{}, _, 0, rfl⟩⟩

theorem test_witness_transport_steps :
    (∃ (s : State)(u : Fin 16), (s.nat (Obj.transportKind u) ≠ 1 ∨ ((s.trans u).state ≠ .running ∧ (s.trans u).state ≠ .restarting))) ∧
    (∃ (s : State)(t : State)(u : Fin 16), s.nat (Obj.transportKind u) = 1 ∧ ((s.trans u).state = .running ∨ (s.trans u).state = .restarting) ∧ t = (((s.runningOf u).foldl (fun s st => holdGates st s) s).updTrans u fun x => { x with state := .stopping, since := none })) ∧
    (∃ (s : State)(u : Fin 16)(t : Nat), (s.trans u).since = some t) ∧
    (∃ (s : State)(u : Fin 16), (s.trans u).since = none) ∧
    (∃ (s : State)(u : Fin 16), s.restartReady u = false) ∧
    (∃ (s : State)(t : State)(u : Fin 16)(k : Nat), s.restartReady u = true ∧ k = max (s.nat (Obj.pacingMin u)) (min (s.nat (Obj.pacingMax u)) (s.trans u).preset) ∧ t = (s.updTrans u fun x => { x with state := .restarting, preset := k, since := none }).setReg (Obj.motMode (s.nat (Obj.transportMotion u))) 3) :=
  ⟨⟨{}, 0, by decide⟩,
   ⟨({ transports := [(0, { state := .running })] } : State).setReg (Obj.transportKind 0) 1, _, 0, by decide, by decide, rfl⟩,
   ⟨{ transports := [(0, { since := some 0 })] }, 0, 0, by decide⟩,
   ⟨{}, 0, by decide⟩,
   ⟨{}, 0, by decide⟩,
   ⟨({ transports := [(0, { state := .stopped, since := some 0 })], motions := [(3, { state := .standstill })], now := us 2000, mode := .scan, target := none } : State).setReg (Obj.transportMotion 0) 3, _, 0, _, by decide, rfl, rfl⟩⟩

theorem test_witness_pacing_gates_and_hold :
    (∃ (s : State)(u : Fin 16), ((s.trans u).state ≠ .running ∨ s.nat (Obj.pacingMode u) ≠ 1 ∨ s.loopDue 3 u (ms 1) = false)) ∧
    (∃ (s : State)(t : State)(u : Fin 16)(k : Nat), s.loopDue 3 u (ms 1) = true ∧ t = s.loopRan 3 u ∧ (s.trans u).state = .running ∧ s.nat (Obj.pacingMode u) = 1 ∧ (s.trans u).preset = k ∧ 1 ≤ k ∧ (t.preset u k).2.2 ≤ maxNat ((t.runningOf u).map t.ringFill)) ∧
    (∃ (s : State)(t : State)(u : Fin 16)(k : Nat), s.loopDue 3 u (ms 1) = true ∧ t = s.loopRan 3 u ∧ (s.trans u).state = .running ∧ s.nat (Obj.pacingMode u) = 1 ∧ (s.trans u).preset = k ∧ (k = 0 ∨ maxNat ((t.runningOf u).map t.ringFill) < (t.preset u k).2.2)) ∧
    (∃ (s : State)(t : Fin 96), (s.tioFn t ≠ 2 ∨ 64 ≤ s.tioSource t)) ∧
    (∃ (s : State)(u : State)(t : Fin 96)(level : Bool), s.tioFn t = 2 ∧ s.tioSource t < 64 ∧ u = stampTio t level s) ∧
    (∃ (s : State)(u : State), s.target = some .hold ∧ s.mode ≠ .degraded ∧ s.holdReady = true ∧ u = (List.range 64).foldl (fun s st => if s.triggering st then s.updGen st fun g => { g with held := true } else s) s) ∧
    (∃ (s : State), (s.target ≠ some .hold ∨ s.mode = .degraded ∨ s.holdReady = false)) :=
  ⟨⟨{}, 0, .inl (by decide)⟩,
   ⟨({ transports := [(0, { state := .running, preset := 1 })], now := ms 50 } : State).setReg (Obj.pacingMode 0) 1 |>.setReg (Obj.pacingPreset 0 1) (5 * 2 ^ 32), _, 0, 1, by decide, rfl, by decide, by decide, by decide, by decide, by decide⟩,
   ⟨({ transports := [(0, { state := .running, preset := 0 })], now := ms 50 } : State).setReg (Obj.pacingMode 0) 1, _, 0, 0, by decide, rfl, by decide, by decide, by decide, .inl rfl⟩,
   ⟨{}, 0, .inl (by decide)⟩,
   ⟨({} : State).setReg (Obj.tioConfig 5) (2 * 2 ^ 26 + 63 * 2 ^ 12), _, 5, true, by decide, by decide, rfl⟩,
   ⟨{ mode := .scan, target := some .hold }, _, by decide, by decide, by decide, rfl⟩,
   ⟨{}, .inl (by decide)⟩⟩

theorem test_witness_lamp_pulses :
    (∃ (s : State)(b : Fin 16), s.lamps.pulses.find? (waiting b) = none) ∧
    (∃ (s : State)(b : Fin 16)(p : LampPulse), s.lamps.pulses.find? (waiting b) = some p ∧ s.pulseAt p = none) ∧
    (∃ (s : State)(b : Fin 16)(p : LampPulse)(t : Nat), s.lamps.pulses.find? (waiting b) = some p ∧ s.pulseAt p = some t) ∧
    (∃ (s : State)(b : Fin 16), s.lamps.pulses.find? (readyPulse b) = none) ∧
    (∃ (s : State)(b : Fin 16)(p : LampPulse), s.lamps.pulses.find? (readyPulse b) = some p ∧ s.pulseAt p = none) ∧
    (∃ (s : State)(b : Fin 16)(p : LampPulse)(t : Nat), s.lamps.pulses.find? (readyPulse b) = some p ∧ s.pulseAt p = some t ∧ s.now < t) ∧
    (∃ (s : State)(u : State)(v : State)(b : Fin 16)(p : LampPulse)(t : Nat)(codes : List (Nat × Nat)), s.lamps.pulses.find? (readyPulse b) = some p ∧ s.pulseAt p = some t ∧ t ≤ s.now ∧ codes = (p.codes.map fun c => (c.1, if (s.xpoint (xpIndex b c.1)).failed then 0 else c.2)) ∧ u = s.mapPulses (updPulse (readyPulse b) fun q => some { q with onSince := some t, codes := codes }) ∧ v = codes.foldl (fun s c => let s := s.updXpoint (xpIndex b c.1) fun x => { x with dLast := c.2 }; if c.2 = 0 then s else s.emit (.pin .lampCol c.1 true t)) u) ∧
    (∃ (s : State)(b : Fin 16), s.lamps.pulses.find? (litPulse b) = none) ∧
    (∃ (s : State)(b : Fin 16)(p : LampPulse), s.lamps.pulses.find? (litPulse b) = some p) ∧
    (∃ (s : State)(b : Fin 16), s.lamps.pulses.find? (litPulse b) = none) ∧
    (∃ (s : State)(b : Fin 16)(p : LampPulse), s.lamps.pulses.find? (litPulse b) = some p ∧ (p.width < us 2 ∨ p.measured = true ∨ s.now < p.onSince.getD 0 + us 2)) ∧
    (∃ (s : State)(u : State)(v : State)(b : Fin 16)(p : LampPulse)(meas : List SinkMeas)(lit : List SinkMeas), s.lamps.pulses.find? (litPulse b) = some p ∧ us 2 ≤ p.width ∧ p.measured = false ∧ p.onSince.getD 0 + us 2 ≤ s.now ∧ lit = meas.filter (litNow p) ∧ u = headroomTake b p lit (s.mapPulses (updPulse (litPulse b) fun q => some { q with measured := true })) ∧ v = lit.foldl (fun s m => checkLit b p lit m s) u) :=
  ⟨⟨{}, 0, by decide⟩,
   ⟨{ lamps := { pulses := [{ line := some (0, 1), band := 2, offset := 8, width := us 2, codes := [(0, 5)] }] } }, 2, _, rfl, by decide⟩,
   ⟨{ lamps := { pulses := [{ line := none, band := 2, offset := 8, width := us 2, codes := [(0, 5)] }] } }, 2, { line := none, band := 2, offset := 8, width := us 2, codes := [(0, 5)] }, 8, by decide, by decide⟩,
   ⟨{}, 0, by decide⟩,
   ⟨{ lamps := { pulses := [{ line := some (0, 1), band := 2, offset := 8, width := us 2, codes := [(0, 5)], banded := true }] } }, 2, { line := some (0, 1), band := 2, offset := 8, width := us 2, codes := [(0, 5)], banded := true }, by decide, by decide⟩,
   ⟨{ lamps := { pulses := [{ line := none, band := 2, offset := 8, width := us 2, codes := [(0, 5)], banded := true }] } }, 2, { line := none, band := 2, offset := 8, width := us 2, codes := [(0, 5)], banded := true }, 8, by decide, by decide, by decide⟩,
   ⟨{ lamps := { pulses := [{ line := none, band := 2, offset := 8, width := us 2, codes := [(0, 5)], banded := true }] }, now := 8 }, _, _, 2, { line := none, band := 2, offset := 8, width := us 2, codes := [(0, 5)], banded := true }, 8, _, by decide, by decide, by decide, rfl, rfl, rfl⟩,
   ⟨{}, 0, by decide⟩,
   ⟨{ lamps := { pulses := [{ line := none, band := 2, offset := 8, width := us 2, codes := [(0, 5)], banded := true, onSince := some 0 }] } }, 2, { line := none, band := 2, offset := 8, width := us 2, codes := [(0, 5)], banded := true, onSince := some 0 }, by decide⟩,
   ⟨{}, 0, by decide⟩,
   ⟨{ lamps := { pulses := [{ line := none, band := 2, offset := 8, width := us 2 - 1, codes := [(0, 5)], banded := true, onSince := some 0 }] } }, 2, { line := none, band := 2, offset := 8, width := us 2 - 1, codes := [(0, 5)], banded := true, onSince := some 0 }, by decide, by decide⟩,
   ⟨{ lamps := { pulses := [{ line := none, band := 2, offset := 8, width := us 2, codes := [(0, 5)], banded := true, onSince := some 0 }] }, now := us 2 }, _, _, 2, { line := none, band := 2, offset := 8, width := us 2, codes := [(0, 5)], banded := true, onSince := some 0 }, [⟨0, true, 5, 900⟩], _, by decide, by decide, by decide, by decide, rfl, rfl, rfl⟩⟩

theorem test_witness_lamp_tests_and_lifts :
    (∃ (s : State), s.lamps.testUntil = none) ∧
    (∃ (s : State)(t : Nat), s.lamps.testUntil = some t) ∧
    (∃ (s : State)(b : Fin 16)(c : Fin 64), (s.xpoint (xpIndex b c)).state = .unverified ∧ (s.xpoint (xpIndex b c)).told = false ∧ (s.xpoint (xpIndex b c)).since + ms 50 ≤ s.now) ∧
    (∃ (s : State)(b : Fin 16)(c : Fin 64), ((s.xpoint (xpIndex b c)).state ≠ .unverified ∨ (s.xpoint (xpIndex b c)).told = true ∨ s.now < (s.xpoint (xpIndex b c)).since + ms 50)) ∧
    (∃ (s : State)(b : Fin 16)(c : Fin 64), s.lamps.liftsDue.contains (xpIndex b c) = false) ∧
    (∃ (s : State)(u : State)(b : Fin 16)(c : Fin 64)(firsts : List (Nat × Nat)), s.lamps.liftsDue.contains (xpIndex b c) = true ∧ u = { s with lamps := { s.lamps with liftsDue := s.lamps.liftsDue.filter (· != xpIndex b c) } } ∧ u.liftable b c = [] ∧ firsts = (u.streamsNaming b).map (fun st => (st, u.nextCycleLine st))) ∧
    (∃ (s : State)(u : State)(v : State)(b : Fin 16)(c : Fin 64)(n : Nat)(more : List Nat)(firsts : List (Nat × Nat))(capped : Bool), s.lamps.liftsDue.contains (xpIndex b c) = true ∧ u = { s with lamps := { s.lamps with liftsDue := s.lamps.liftsDue.filter (· != xpIndex b c) } } ∧ u.liftable b c = n :: more ∧ firsts = (u.streamsNaming b).map (fun st => (st, u.nextCycleLine st)) ∧ v = (n :: more).foldl (fun s n => s.updXpoint (xpIndex b n) fun x => { x with lifts := x.lifts + (if (n :: more).length = 1 then 2 else 1), liftFrom := firsts }) u ∧ capped = ((n :: more).any fun n => (liftedCode (fullCode (v.nat (Obj.bandFullScale b)) (Table.get 32768 v.lamps.trim (xpIndex b n))) (v.xpoint (xpIndex b n)).lifts (v.nat Obj.liftPct)).2)) ∧
    (∃ (s : State)(b : Fin 16), ((s.columnsOf b).any fun c => (s.xpoint (xpIndex b c)).state == .unverified) = true ∧ s.flag (Obj.bandEnable b) = true ∧ diagInterval b s = true) ∧
    (∃ (s : State)(b : Fin 16), (((s.columnsOf b).any fun c => (s.xpoint (xpIndex b c)).state == .unverified) = false ∨ s.flag (Obj.bandEnable b) = false ∨ diagInterval b s = false)) :=
  ⟨⟨{}, by decide⟩,
   ⟨{ lamps := { testUntil := some 0 } }, 0, by decide⟩,
   ⟨{ lamps := { points := [(xpIndex 2 3, { state := .unverified })] }, now := ms 50 }, 2, 3, by decide, by decide, by decide⟩,
   ⟨{}, 0, 0, .inl (by decide)⟩,
   ⟨{}, 0, 0, by decide⟩,
   ⟨{ lamps := { liftsDue := [xpIndex 2 3] } }, _, 2, 3, _, by decide, rfl, by decide, rfl⟩,
   ⟨({ lamps := { liftsDue := [xpIndex 2 3] } } : State).setReg (Obj.bandColumns 2) 0b11100, _, _, 2, 3, 2, [4], _, _, by decide, rfl, by decide, rfl, rfl, rfl⟩,
   ⟨({ lamps := { points := [(xpIndex 2 3, { state := .unverified })] } } : State).setReg (Obj.bandEnable 2) 1 |>.setReg (Obj.bandColumns 2) 8, 2, by decide, by decide, by decide⟩,
   ⟨{}, 0, .inl (by decide)⟩⟩

theorem test_witness_sync_and_lamp_rail :
    (∃ (s : State)(u : State)(b : Fin 16), u = s.setReg (Obj.bandEnable b) 1) ∧
    (∃ (s : State), (s.lampRailHeld = true ∨ (s.nat Obj.headroomMode ≠ 0 ∧ s.loopDue 4 0 (us (s.nat Obj.headroomPeriod)) = false))) ∧
    (∃ (s : State)(t : State), s.lampRailHeld = false ∧ s.nat Obj.headroomMode = 0 ∧ t = s.loopRan 4 0) ∧
    (∃ (s : State)(t : State), s.lampRailHeld = false ∧ s.nat Obj.headroomMode ≠ 0 ∧ s.loopDue 4 0 (us (s.nat Obj.headroomPeriod)) = true ∧ t = s.loopRan 4 0 ∧ s.lamps.sawChecked = false) ∧
    (∃ (s : State)(t : State)(u : State)(sp : Int)(want : Int)(held : Int)(bound : Option Bool), s.lampRailHeld = false ∧ s.nat Obj.headroomMode ≠ 0 ∧ s.loopDue 4 0 (us (s.nat Obj.headroomPeriod)) = true ∧ t = s.loopRan 4 0 ∧ s.lamps.sawChecked = true ∧ sp = s.reg Obj.lampRailSetpoint ∧ want = (if s.lamps.starved then sp + 200 else if (∃ v, s.lamps.leastMv = some v ∧ 800 + s.nat Obj.headroomTarget + 50 ≤ v) then sp - 25 else sp) ∧ held = clampInt (s.reg Obj.lampRailMin) (s.reg Obj.lampRailMax) want ∧ bound = (if held = want then none else some (decide (held < want))) ∧ u = ({ t with lamps := { s.lamps with sawChecked := false, starved := false, leastMv := none, atBound := bound } } : State).setReg Obj.lampRailSetpoint held) :=
  ⟨⟨{}, _, 0, rfl⟩,
   ⟨({} : State).setReg (Obj.railState 7) 3, .inl (by decide)⟩,
   ⟨({} : State).setReg Obj.headroomMode 0 |>.setReg (Obj.railState 7) 2, _, by decide, by decide, rfl⟩,
   ⟨({} : State).setReg Obj.headroomMode 1 |>.setReg (Obj.railState 7) 2, _, by decide, by decide, by decide, rfl, by decide⟩,
   ⟨({ lamps := { sawChecked := true, starved := true } } : State).setReg Obj.headroomMode 1 |>.setReg Obj.lampRailSetpoint 4800 |>.setReg (Obj.railState 7) 2, _, _, _, _, _, _, by decide, by decide, by decide, rfl, by decide, rfl, rfl, rfl, rfl, rfl⟩⟩

theorem test_witness_pages_marks_and_windows :
    (∃ (s : State)(st : Fin 64)(v : BitVec 64), hostMarkOk st v.toNat s = true) ∧
    (∃ (s : State)(st : Fin 64)(v : BitVec 64), v.toNat ≠ maxU 64 ∧ ((s.ring st).allocated = false ∨ v.toNat < (s.ring st).writeLine - s.nat (Obj.ringLines st) ∨ (s.ring st).writeLine < v.toNat)) :=
  ⟨⟨({ rings := [(0, { allocated := true, writeLine := 9 })] } : State), 0, 9, by decide⟩,
   ⟨{}, 0, 0, by decide, .inl rfl⟩⟩

theorem test_witness_channels_start_and_stop :
    (∃ (s : State)(n : Fin 256), (s.chan n).startSrc = 1 ∧ (s.chan n).state ≠ .off ∧ (s.chan n).state ≠ .disabling ∧ 1000 ≤ (s.chan n).period ∧ (s.chan n).firstDt + (s.chan n).tick * (s.chan n).period ≤ s.dt) ∧
    (∃ (s : State)(n : Fin 256), ((s.chan n).startSrc ≠ 1 ∨ (s.chan n).state = .off ∨ (s.chan n).state = .disabling ∨ (s.chan n).period < 1000 ∨ s.dt < (s.chan n).firstDt + (s.chan n).tick * (s.chan n).period)) ∧
    (∃ (s : State)(n : Fin 256), (s.chan n).state ≠ .disabling) ∧
    (∃ (s : State)(u : State)(n : Fin 256), (s.chan n).state = .disabling ∧ u = s.updChan n (fun c => { c with state := .off, enAgain := false })) :=
  ⟨⟨{ host := { chans := [(255, { startSrc := 1, state := .idle, period := 1000, tick := 1 })] }, now := 4000 }, 255, by decide, by decide, by decide, by decide, by decide⟩,
   ⟨{}, 0, .inl (by decide)⟩,
   ⟨{}, 0, by decide⟩,
   ⟨{ host := { chans := [(255, { state := .disabling })] } }, _, 255, by decide, rfl⟩⟩

theorem test_witness_descriptors_are_fetched_and_served :
    (∃ (s : State)(n : Fin 256), ((s.chan n).state ≠ .running ∨ (s.chan n).phase = .none ∨ ((s.chan n).unasked = true ∧ ((s.chan n).phase = .reread ∨ (s.chan n).phase = .fetch)))) ∧
    (∃ (s : State)(n : Fin 256), (s.chan n).state = .running ∧ (s.chan n).phase = .fetch ∧ (s.chan n).unasked = false) ∧
    (∃ (s : State)(n : Fin 256)(reply : ReadReply), (s.chan n).state = .running ∧ (s.chan n).phase = .reread ∧ (s.chan n).unasked = false ∧ s.descRead (s.chan n).cur 16 8 reply = none) ∧
    (∃ (s : State)(u : State)(n : Fin 256)(reply : ReadReply)(v : Nat)(raw : Nat), (s.chan n).state = .running ∧ (s.chan n).phase = .reread ∧ (s.chan n).unasked = false ∧ s.descRead (s.chan n).cur 16 8 reply = some v ∧ raw = v / 64 * 64 + 2 * field v 1 1 ∧ u = s.updChan n (fun c => { c with want := raw })) ∧
    (∃ (s : State)(n : Fin 256)(v : Nat)(raw : Nat)(d : Nat), (s.chan n).state = .running ∧ ((s.chan n).phase = .data ∨ (s.chan n).phase = .flush ∨ (s.chan n).phase = .complete) ∧ (s.chan n).prefetched = none ∧ descLocal (s.chan n).cur = true ∧ s.localRead (descAddr (s.chan n).cur + 16) 8 = some v ∧ v % 2 = 0 ∧ raw = v / 64 * 64 + 2 * field v 1 1 ∧ descLocal raw = true ∧ s.localRead (descAddr raw) 64 = some d) ∧
    (∃ (s : State)(n : Fin 256), ((s.chan n).phase = .data ∨ (s.chan n).phase = .flush ∨ (s.chan n).phase = .complete) ∧ ((s.chan n).prefetched.isSome = true ∨ descLocal (s.chan n).cur = false)) ∧
    (∃ (s : State)(n : Fin 256), ((s.chan n).state ≠ .running ∨ (s.chan n).phase ≠ .data ∨ (s.chan n).desc = none)) ∧
    (∃ (s : State)(n : Fin 256)(d : Nat)(j : FetchJob), (s.chan n).state = .running ∧ (s.chan n).phase = .data ∧ (s.chan n).desc = some d ∧ (s.chan n).fetch = some j) ∧
    (∃ (s : State)(n : Fin 256)(d : Nat), (s.chan n).state = .running ∧ (s.chan n).phase = .data ∧ (s.chan n).desc = some d ∧ (s.chan n).fetch = none ∧ (Desc.srcKind d ≠ 0 ∨ (s.chan n).unasked = true)) ∧
    (∃ (s : State)(n : Fin 256)(d : Nat)(left : Nat), (s.chan n).state = .running ∧ (s.chan n).phase = .data ∧ (s.chan n).desc = some d ∧ (s.chan n).fetch = none ∧ Desc.srcKind d = 0 ∧ (s.chan n).unasked = false ∧ Desc.srcSpace d = 0 ∧ left = descTotal d none - (s.chan n).pos - (if Desc.format d = 0 then ((s.chan n).piece d).2 else 1)) ∧
    (∃ (s : State)(n : Fin 256)(d : Nat)(left : Nat), (s.chan n).state = .running ∧ (s.chan n).phase = .data ∧ (s.chan n).desc = some d ∧ (s.chan n).fetch = none ∧ Desc.srcKind d = 0 ∧ (s.chan n).unasked = false ∧ Desc.srcSpace d = 1 ∧ left = descTotal d none - (s.chan n).pos - (if Desc.format d = 0 then ((s.chan n).piece d).2 else 1)) ∧
    (∃ (s : State)(n : Fin 256)(d : Nat)(left : Nat)(p : Nat × Nat), (s.chan n).state = .running ∧ (s.chan n).phase = .data ∧ (s.chan n).desc = some d ∧ (s.chan n).fetch = none ∧ Desc.srcKind d = 0 ∧ (s.chan n).unasked = false ∧ 2 ≤ Desc.srcSpace d ∧ p = (s.chan n).piece d ∧ left = descTotal d none - (s.chan n).pos - (if Desc.format d = 0 then p.2 else 1)) ∧
    (∃ (s : State)(n : Fin 256)(d : Nat)(j : FetchJob)(t : Nat), (s.chan n).state = .running ∧ (s.chan n).phase = .data ∧ (s.chan n).desc = some d ∧ (s.chan n).fetch = some j ∧ j.waitSince = some t) ∧
    (∃ (s : State)(n : Fin 256), ((s.chan n).state ≠ .running ∨ (s.chan n).phase ≠ .data ∨ (s.chan n).desc = none ∨ (s.chan n).fetch = none ∨ (∃ j, (s.chan n).fetch = some j ∧ j.waitSince = none))) :=
  ⟨⟨{}, 0, .inl (by decide)⟩,
   ⟨{ host := { chans := [(255, { state := .running, phase := .fetch })] } }, 255, by decide, by decide, by decide⟩,
   ⟨{ host := { chans := [(255, { state := .running, phase := .reread, cur := 2 })] } }, 255, .uncorrectable, by decide, by decide, by decide, by decide⟩,
   ⟨{ host := { chans := [(255, { state := .running, phase := .reread })] } }, _, 255, .data [5], 5, _, by decide, by decide, by decide, by decide, rfl, rfl⟩,
   ⟨{ host := { chans := [(255, { state := .running, phase := .data, cur := 2 })], mem := [(16, 2)] } }, 255, 2, _, 2 * 2 ^ 128, by decide, .inl rfl, by decide, by decide, by decide +kernel, by decide, rfl, by decide, by decide +kernel⟩,
   ⟨{ host := { chans := [(255, { state := .running, phase := .flush })] } }, 255, .inr (.inl rfl), .inr rfl⟩,
   ⟨{}, 0, .inl (by decide)⟩,
   ⟨{ host := { chans := [(255, { state := .running, phase := .data, desc := some (0), fetch := some ⟨0, 0, 0, 1, 0, 0, false, false, 0, 0, none, 0, some 0, false⟩ })] } }, 255, 0, ⟨0, 0, 0, 1, 0, 0, false, false, 0, 0, none, 0, some 0, false⟩, by decide, by decide, by decide, by decide⟩,
   ⟨{ host := { chans := [(255, { state := .running, phase := .data, desc := some (0), tx := [.send 1 (.hostRead 0 0)] })] } }, 255, 0, by decide, by decide, by decide, by decide, .inr rfl⟩,
   ⟨{ host := { chans := [(255, { state := .running, phase := .data, desc := some (0) })] } }, 255, 0, _, by decide, by decide, by decide, by decide, by decide, by decide, by decide, rfl⟩,
   ⟨{ host := { chans := [(255, { state := .running, phase := .data, desc := some (2 ^ 394) })] } }, 255, 2 ^ 394, _, by decide, by decide, by decide, by decide, by decide, by decide, by decide, rfl⟩,
   ⟨{ host := { chans := [(255, { state := .running, phase := .data, desc := some (2 ^ 395) })] } }, 255, 2 ^ 395, _, _, by decide, by decide, by decide, by decide, by decide, by decide, by decide, rfl, rfl⟩,
   ⟨{ host := { chans := [(255, { state := .running, phase := .data, desc := some (0), fetch := some ⟨0, 0, 0, 1, 0, 0, false, false, 0, 0, none, 0, some 0, false⟩ })] } }, 255, 0, ⟨0, 0, 0, 1, 0, 0, false, false, 0, 0, none, 0, some 0, false⟩, 0, by decide, by decide, by decide, by decide, by decide⟩,
   ⟨{}, 0, .inl (by decide)⟩⟩

theorem test_witness_delivery_completes :
    (∃ (s : State)(st : Fin 64), (256 ≤ s.nat (Obj.streamChannel st) ∨ s.nat (Obj.deliverScope st) = 2 ∨ (s.ring st).marks.find? (fun m => m.kind == .delivery) = none)) ∧
    (∃ (s : State)(st : Fin 64)(m : Mark)(n : Nat)(from_ : Nat)(f : Option Nat × Nat), s.nat (Obj.streamChannel st) = n ∧ n < 256 ∧ s.nat (Obj.deliverScope st) ≠ 2 ∧ (s.ring st).marks.find? (fun m => m.kind == .delivery) = some m ∧ from_ = (s.chan n).after st m.index ∧ f = s.nextDelivery st (s.nat (Obj.ringLines st) + 1) from_ ∧ ((s.chan n).state = .idle ∨ (s.chan n).state = .stoppedAtEnd)) ∧
    (∃ (s : State)(u : State)(st : Fin 64)(m : Mark)(n : Nat)(from_ : Nat)(d : Nat)(line : Nat)(f : Option Nat × Nat)(x : RingSlot), s.nat (Obj.streamChannel st) = n ∧ n < 256 ∧ s.nat (Obj.deliverScope st) ≠ 2 ∧ (s.ring st).marks.find? (fun m => m.kind == .delivery) = some m ∧ from_ = (s.chan n).after st m.index ∧ f = s.nextDelivery st (s.nat (Obj.ringLines st) + 1) from_ ∧ (s.chan n).state = .running ∧ (s.chan n).phase = .data ∧ (s.chan n).desc = some d ∧ Desc.srcKind d = 2 ∧ streamDone d st (s.chan n) s = false ∧ (u = (if f.2 = m.index ∨ from_ ≠ m.index then s else moveMark st (fun r => r.placeMark .delivery 0 f.2) s)) ∧ f.1 = some line ∧ u.slotOf st line = some x) ∧
    (∃ (s : State)(st : Fin 64)(m : Mark)(n : Nat)(d : Nat), s.nat (Obj.streamChannel st) = n ∧ n < 256 ∧ s.nat (Obj.deliverScope st) ≠ 2 ∧ (s.ring st).marks.find? (fun m => m.kind == .delivery) = some m ∧ (s.chan n).state = .running ∧ (s.chan n).phase = .data ∧ (s.chan n).desc = some d ∧ Desc.srcKind d = 2 ∧ streamDone d st (s.chan n) s = true) ∧
    (∃ (s : State)(n : Fin 256), ((s.chan n).desc = none ∨ (s.chan n).state ≠ .running ∨ (s.chan n).phase ≠ .complete ∨ (s.chan n).tx ≠ [])) ∧
    (∃ (s : State)(e : State)(u : State)(v : State)(w : State)(n : Fin 256)(d : Nat)(missing : Nat)(first : Nat)(isStream : Bool)(tell : Bool)(aux : Nat)(r : Bool × State), (s.chan n).desc = some d ∧ (s.chan n).state = .running ∧ (s.chan n).phase = .complete ∧ (s.chan n).tx = [] ∧ missing = ((s.chan n).fetch.map FetchJob.missing).getD 0 ∧ isStream = (Desc.srcKind d = 2 && Desc.format d = 1) ∧ first = (s.chan n).firstLine.getD (maxU 64) ∧ e = (match (s.chan n).fetch with | some j => endFetch n (s.chan n).code j s | none => s) ∧ u = writeBack n (s.chan n).cur 8 (leBytes 8 (pack [(62, 2, if (s.chan n).code = 0 then 1 else 2), (56, 6, (s.chan n).code), (40, 16, min missing 65535), (0, 40, (s.chan n).count)])) (if isStream then writeBack n (s.chan n).cur 48 (leBytes 8 first) e else e) ∧ v = (if (s.chan n).code = 0 then u.updChan n fun c => { c with done := (c.done + 1) % 2 ^ 32, phase := .none } else (u.count Obj.descriptorsBad).updChan n fun c => { c with bad := min (c.bad + 1) (maxU 32), err := true, error := c.code, phase := .none }) ∧ w = { v with host := { v.host with serving := if v.host.serving == some n.val then none else v.host.serving } } ∧ tell = (Desc.irq d || decide ((s.chan n).code ≠ 0)) ∧ aux = (if isStream then first else if (s.chan n).fetch.isSome then missing else 0) ∧ r = (if !tell then (false, w) else if w.mode.signalsMsix then (false, sendVector n (w.chanVector n) w) else if w.mode.signalsRecord then signalRecord n (w.recordOf n (s.chan n).code aux (s.chan n).count) w else (false, w))) ∧
    (∃ (s : State), (s.nat Obj.hostLinkRating = 0 ∨ s.now < s.host.linkFree ∨ s.pickClass = none)) ∧
    (∃ (s : State)(k : Nat)(n : Nat)(t : Tx)(rest : List Tx), s.nat Obj.hostLinkRating ≠ 0 ∧ s.host.linkFree ≤ s.now ∧ s.pickClass = some k ∧ nextTurn (Table.get 0 s.host.turns k) (s.ready k) = some n ∧ s.txOf n = t :: rest) :=
  ⟨⟨{}, 0, .inr (.inr (by decide))⟩,
   ⟨(({ rings := [(0, { marks := [⟨.delivery, 0, 0⟩], pageNext := 1, slots := [(0, { index := some 0 })] })], host := { chans := [(255, { state := .idle })] } } : State).setReg (Obj.streamChannel 0) 255), 0, ⟨.delivery, 0, 0⟩, 255, _, _, by decide, by decide, by decide, by decide, rfl, rfl, .inl rfl⟩,
   ⟨(({ rings := [(0, { marks := [⟨.delivery, 0, 0⟩], pageNext := 1, slots := [(0, { index := some 0 })] })], host := { chans := [(255, { state := .running, phase := .data, desc := some (2 ^ 13 + 2 ^ 16) })] } } : State).setReg (Obj.streamChannel 0) 255), _, 0, ⟨.delivery, 0, 0⟩, 255, _, 2 ^ 13 + 2 ^ 16, 0, _, { index := some 0 }, by decide, by decide, by decide, by decide, rfl, rfl, by decide, by decide, by decide, by decide, by decide, rfl, rfl, by decide⟩,
   ⟨(({ rings := [(0, { marks := [⟨.delivery, 0, 0⟩], pageNext := 1, slots := [(0, { index := some 0 })] })], host := { chans := [(255, { state := .running, phase := .data, desc := some (2 ^ 13) })] } } : State).setReg (Obj.streamChannel 0) 255), 0, ⟨.delivery, 0, 0⟩, 255, 2 ^ 13, by decide, by decide, by decide, by decide, by decide, by decide, by decide, by decide, by decide⟩,
   ⟨{}, 0, .inl (by decide)⟩,
   ⟨{ host := { chans := [(255, { state := .running, phase := .complete, desc := some 0 })] } }, _, _, _, _, 255, 0, _, _, _, _, _, _, by decide, by decide, by decide, by decide, rfl, rfl, rfl, rfl, rfl, rfl, rfl, rfl, rfl, rfl⟩,
   ⟨{}, .inr (.inr (by decide))⟩,
   ⟨({ host := { mgmt := [.lineEnd 3 0 0] } } : State).setReg Obj.hostLinkRating 26000, 3, mgmtChan, _, _, by decide, by decide, by decide, by decide, rfl⟩⟩

theorem test_witness_host_link_and_register_windows :
    (∃ (s : State)(gen : Nat)(width : Nat), (linkOk gen width = false ∨ s.nat Obj.hostLinkRating ≤ linkRating gen width)) ∧
    (∃ (s : State)(u : State)(gen : Nat)(width : Nat), linkOk gen width = true ∧ linkRating gen width < s.nat Obj.hostLinkRating ∧ u = (s.setReg Obj.hostLinkState (linkWord gen width s.host.mps)).setReg Obj.hostLinkRating (linkRating gen width)) ∧
    (∃ (o : Nat), o < 0x400000 ∧ o % 4 = 0) ∧
    (∃ (off : Nat), (off % 4 ≠ 0 ∨ 0x610000 ≤ off)) :=
  ⟨⟨{}, 0, 0, .inl (by decide)⟩,
   ⟨({} : State).setReg Obj.hostLinkRating 26000, _, 3, 4, by decide, by decide, rfl⟩,
   ⟨0, by decide, by decide⟩,
   ⟨1, .inl (by decide)⟩⟩

theorem test_witness_converter_triggers :
    (∃ (s : State)(j : Fin 16)(t : Nat), t = s.now / max (s.nat (Obj.trigPeriod j)) 1 * max (s.nat (Obj.trigPeriod j)) 1) ∧
    (∃ (s : State)(j : Fin 16), (s.conv j).pulse = none) ∧
    (∃ (s : State)(u : State)(j : Fin 16)(stamp : Nat)(t : Nat), (s.conv j).pulse = some stamp ∧ t = ns (stamp + s.nat (Obj.trigWidth j)) ∧ u = s.updConv j (fun x => { x with pulse := none })) ∧
    (∃ (s : State)(k : Fin 64)(j : Nat), j = s.nat (Obj.chConverter k) ∧ (s.flag (Obj.chInjected k) = false ∨ s.flag (Obj.chEnable k) = false ∨ trigKind (s.nat (Obj.injTrigSource j)) = 0 ∨ (s.conv j).state = .off ∨ (s.conv j).state = .failed)) ∧
    (∃ (s : State)(k : Fin 64)(j : Nat), j = s.nat (Obj.chConverter k) ∧ s.flag (Obj.chInjected k) = true ∧ s.flag (Obj.chEnable k) = true ∧ trigKind (s.nat (Obj.injTrigSource j)) ≠ 0 ∧ (s.conv j).state ≠ .off ∧ (s.conv j).state ≠ .failed) :=
  ⟨⟨{}, 0, _, rfl⟩,
   ⟨{}, 0, by decide⟩,
   ⟨{ fe := { convs := [(15, { pulse := some 0 })] } }, _, 15, 0, _, by decide, rfl, rfl⟩,
   ⟨{}, 0, _, rfl, .inl (by decide)⟩,
   ⟨({ fe := { convs := [(15, { state := .idle })] } } : State).setReg (Obj.chConverter 63) 15 |>.setReg (Obj.chInjected 63) 1 |>.setReg (Obj.chEnable 63) 1 |>.setReg (Obj.injTrigSource 15) (2 ^ 28), 63, _, rfl, by decide, by decide, by decide, by decide, by decide⟩⟩

theorem test_witness_runs_and_calibrations_end :
    (∃ (s : State)(j : Fin 16), ((s.conv j).state ≠ .converting ∨ ((s.conv j).inj = none ∧ (s.conv j).run = none))) ∧
    (∃ (s : State)(j : Fin 16)(i : FeInj), (s.conv j).state = .converting ∧ (s.conv j).inj = some i) ∧
    (∃ (s : State)(j : Fin 16)(r : FeRun)(last : Nat), (s.conv j).state = .converting ∧ (s.conv j).inj = none ∧ (s.conv j).run = some r ∧ last = r.instant (s.convPeriod j) (s.runLength j - 1)) ∧
    (∃ (s : State)(j : Fin 16), ((s.conv j).state ≠ .calibrating ∨ s.now < (s.conv j).calAt + us 24)) ∧
    (∃ (s : State)(u : State)(j : Fin 16), (s.conv j).state = .calibrating ∧ (s.conv j).calAt + us 24 ≤ s.now ∧ u = s.updConv j (fun x => { x with lastCal := s.now })) :=
  ⟨⟨{}, 0, .inl (by decide)⟩,
   ⟨{ fe := { convs := [(15, { state := .converting, inj := some ⟨0, 0, false⟩ })] } }, 15, _, by decide, rfl⟩,
   ⟨{ fe := { convs := [(15, { state := .converting, run := some { at_ := 0 } })] } }, 15, _, _, by decide, by decide, rfl, rfl⟩,
   ⟨{}, 0, .inl (by decide)⟩,
   ⟨{ fe := { convs := [(15, { state := .calibrating })] }, now := us 24 }, _, 15, by decide, by decide, rfl⟩⟩

theorem test_witness_front_end_generators_and_clamps :
    (∃ (s : State)(u : State)(g : Fin 8), u = s.setReg (Obj.genEnable g) 1 ∧ ((u.feIsland (g / 4)).powered = false ∨ u.nat (Obj.genState g) = 1)) ∧
    (∃ (s : State)(u : State)(g : Fin 8)(want : FeGen), u = s.setReg (Obj.genEnable g) 1 ∧ (u.feIsland (g / 4)).powered = true ∧ u.nat (Obj.genState g) ≠ 1 ∧ want = ⟨u.nat (Obj.genFrequency g), u.nat (Obj.genAmplitude g), u.nat (Obj.genOffset g)⟩) ∧
    (∃ (s : State)(g : Fin 8)(want : FeGen), want = ⟨s.nat (Obj.genFrequency g), s.nat (Obj.genAmplitude g), s.nat (Obj.genOffset g)⟩) ∧
    (∃ (s : State)(p : Fin 64), (s.feIsland (p / 32)).powered = false) ∧
    (∃ (s : State)(u : State)(v : State)(p : Fin 64)(t : Nat), (s.feIsland (p / 32)).powered = true ∧ u = s.setReg Obj.clampFlags (if bitAt (s.nat Obj.clampFlags) p then s.nat Obj.clampFlags else s.nat Obj.clampFlags + 2 ^ p.val : Nat) ∧ v = (List.range 64).foldl (fun s k => if s.nat (Obj.chPos k) = p.val || s.nat (Obj.chNeg k) = p.val then s.updFeChan k fun x => { x with clampAt := some (x.count + 1) } else s) u ∧ Table.get 0 v.fe.clampTold p = t) :=
  ⟨⟨{}, _, 0, rfl, by decide⟩,
   ⟨({ fe := { islands := [(1, { powered := true })] } } : State).setReg (Obj.genState 4) 0, _, 4, _, rfl, by decide, by decide, rfl⟩,
   ⟨{}, 4, _, rfl⟩,
   ⟨{}, 0, by decide⟩,
   ⟨{ fe := { islands := [(1, { powered := true })] } }, _, _, 63, 0, by decide, rfl, rfl, by decide⟩⟩

theorem test_witness_front_end_rings_and_path_tests :
    (∃ (s : State)(i : Fin 2), ((s.feIsland i).queue = [] ∨ s.nat (Obj.feRingBase i) = maxU 32 ∨ s.feSlots i = 0)) ∧
    (∃ (s : State)(i : Fin 2)(item : List Nat)(rest : List (List Nat)), (s.feIsland i).queue = item :: rest ∧ (s.feHead i % s.feSlots i + s.feSlots i - (s.feIsland i).tail % s.feSlots i - 1) % s.feSlots i < item.length) ∧
    (∃ (s : State)(i : Fin 2)(n : Nat)(tail : Nat)(r : Nat)(r' : Nat)(item : List Nat)(rest : List (List Nat)), (s.feIsland i).queue = (r :: item) :: rest ∧ s.nat (Obj.feRingBase i) ≠ maxU 32 ∧ n = s.feSlots i ∧ n ≠ 0 ∧ r' = (if (s.feIsland i).gap then r + 2 ^ 17 else r) ∧ item.length < (s.feHead i % n + n - (s.feIsland i).tail % n - 1) % n ∧ tail = ((s.feIsland i).tail + (item.length + 1)) % n) ∧
    (∃ (s : State)(i : Fin 2), (s.feIsland i).powered = false) ∧
    (∃ (s : State)(i : Fin 2), (s.feIsland i).powered = true ∧ s.nat (Obj.feRingBase i) = maxU 32) ∧
    (∃ (s : State)(i : Fin 2)(head : Nat), (s.feIsland i).powered = true ∧ s.nat (Obj.feRingBase i) ≠ maxU 32 ∧ head = s.feHead i % max (s.feSlots i) 1) ∧
    (∃ (s : State)(k : Fin 64), (s.conv (s.nat (Obj.chConverter k))).test = none) ∧
    (∃ (s : State)(k : Fin 64)(c : Nat)(t : Nat), (s.conv (s.nat (Obj.chConverter k))).test = some (c, t)) :=
  ⟨⟨{}, 0, .inl rfl⟩,
   ⟨({ fe := { islands := [(1, { queue := [[1, 5]] })] } } : State).setReg (Obj.feRingBase 1) 0 |>.setReg (Obj.feRingBytes 1) 4, 1, [1, 5], [], by decide, by decide⟩,
   ⟨({ fe := { islands := [(1, { queue := [[1, 5]] })] } } : State).setReg (Obj.feRingBase 1) 0 |>.setReg (Obj.feRingBytes 1) 1024, 1, _, _, 1, _, [5], [], by decide, by decide, rfl, by decide, rfl, by decide, rfl⟩,
   ⟨{}, 0, by decide⟩,
   ⟨({ fe := { islands := [(1, { powered := true })] } } : State).setReg (Obj.feRingBase 1) (maxU 32), 1, by decide, by decide⟩,
   ⟨({ fe := { islands := [(1, { powered := true })] } } : State).setReg (Obj.feRingBase 1) 0, 1, _, by decide, by decide, rfl⟩,
   ⟨{}, 0, by decide⟩,
   ⟨({ fe := { convs := [(0, { test := some (63, 0) })] } } : State).setReg (Obj.chConverter 63) 0, 63, 63, 0, by decide⟩⟩

theorem test_witness_reading_requests :
    (∃ (s : State)(t : State)(q : Kdp), Accepted 0x01 q s t) ∧
    (∃ (s : State)(t : State)(q : Kdp), Accepted 0x03 q s t) ∧
    (∃ (s : State)(t : State)(q : Kdp)(r : Row), Accepted 0x04 q s t ∧ (t.ask q).entry true t = .ok (.row r) ∧ r.access ≠ .wo ∧ r.size ≠ 0) ∧
    (∃ (s : State)(t : State)(q : Kdp)(r : Row)(b : Bytes), Accepted 0x04 q s t ∧ (t.ask q).entry true t = .ok (.row r) ∧ r.access ≠ .wo ∧ r.size = 0 ∧ b = t.blobView q.index q.sub) ∧
    (∃ (s : State)(t : State)(q : Kdp), Accepted 0x04 q s t ∧ (t.ask q).entry true t = .ok .top) ∧
    (∃ (s : State)(t : State)(q : Kdp)(r : Row), Accepted 0x04 q s t ∧ (t.ask q).entry true t = .ok (.row r) ∧ r.access = .wo) ∧
    (∃ (s : State)(t : State)(q : Kdp)(e : Err), Accepted 0x04 q s t ∧ (t.ask q).entry true t = .error e) ∧
    (∃ (s : State)(t : State)(q : Kdp)(e : Entry), Accepted 0x06 q s t ∧ (t.ask q).entry false t = .ok e) ∧
    (∃ (s : State)(t : State)(q : Kdp)(e : Err), Accepted 0x06 q s t ∧ (t.ask q).entry false t = .error e) :=
  ⟨⟨onNet {}, _, plain [], plain_accepted 1 _ _ _ _ (by decide)⟩,
   ⟨onNet {}, _, plain [7], plain_accepted 3 _ _ _ _ (by decide)⟩,
   ⟨onNet {}, _, signed5 [0x10, 0x20, 2, 0], _, signed5_accepted 4 _ _ (by decide), rfl, by decide, by decide⟩,
   ⟨onNet {}, _, signed5 [0x20, 0x20, 5, 0], _, _, signed5_accepted 4 _ _ (by decide), rfl, by decide, by decide, rfl⟩,
   ⟨onNet {}, _, plain [0x10, 0x20, 0, 0], plain_accepted 4 _ _ _ _ (by decide), rfl⟩,
   ⟨onNet {}, _, signed5 [0x20, 0x20, 4, 0], _, signed5_accepted 4 _ _ (by decide), rfl, by decide⟩,
   ⟨onNet {}, _, plain [0xFF, 0xFF, 0, 0], _, plain_accepted 4 _ _ _ _ (by decide), rfl⟩,
   ⟨onNet {}, _, signed5 [0x10, 0x20, 2, 0], _, signed5_accepted 6 _ _ (by decide), rfl⟩,
   ⟨onNet {}, _, signed5 [0xFF, 0xFF, 0, 0], _, signed5_accepted 6 _ _ (by decide), rfl⟩⟩

theorem test_witness_writing_requests :
    (∃ (s : State)(t : State)(q : Kdp)(e : Err), Accepted 0x05 q s t ∧ (t.ask q).entry false t = .error e) ∧
    (∃ (s : State)(t : State)(q : Kdp), Accepted 0x05 q s t ∧ (t.ask q).entry false t = .ok .top) ∧
    (∃ (s : State)(t : State)(q : Kdp)(r : Row), Accepted 0x05 q s t ∧ (t.ask q).entry false t = .ok (.row r) ∧ (15 < q.byte 3 ∨ r.access = .ro ∨ (q.byte 3 ≠ 0 ∧ r.access ≠ .st))) ∧
    (∃ (s : State)(t : State)(q : Kdp)(r : Row), Accepted 0x05 q s t ∧ (t.ask q).entry false t = .ok (.row r) ∧ q.byte 3 ≤ 15 ∧ r.access ≠ .ro ∧ (q.byte 3 = 0 ∨ r.access = .st) ∧ (r.ty = .domain ∨ 1440 < (q.payload.drop 4).length)) ∧
    (∃ (s : State)(t : State)(q : Kdp)(r : Row)(e : Err), Accepted 0x05 q s t ∧ (t.ask q).entry false t = .ok (.row r) ∧ q.byte 3 ≤ 15 ∧ r.access ≠ .ro ∧ (q.byte 3 = 0 ∨ r.access = .st) ∧ r.ty ≠ .domain ∧ (q.payload.drop 4).length ≤ 1440 ∧ parseValue r (q.payload.drop 4) = .error e) ∧
    (∃ (s : State)(t : State)(q : Kdp)(r : Row)(v : Int), Accepted 0x05 q s t ∧ (t.ask q).entry false t = .ok (.row r) ∧ q.byte 3 ≤ 15 ∧ r.access ≠ .ro ∧ (q.byte 3 = 0 ∨ r.access = .st) ∧ r.ty ≠ .domain ∧ (q.payload.drop 4).length ≤ 1440 ∧ parseValue r (q.payload.drop 4) = .ok (.num v) ∧ (t.kdps.transfers.any fun x => x.key == q.index * 256 + q.sub && !x.out) = true) ∧
    (∃ (s : State)(t : State)(q : Kdp)(r : Row)(v : Int), Accepted 0x05 q s t ∧ (t.ask q).entry false t = .ok (.row r) ∧ q.byte 3 ≤ 15 ∧ r.access ≠ .ro ∧ (q.byte 3 = 0 ∨ r.access = .st) ∧ r.ty ≠ .domain ∧ (q.payload.drop 4).length ≤ 1440 ∧ parseValue r (q.payload.drop 4) = .ok (.num v) ∧ (t.kdps.transfers.any fun x => x.key == q.index * 256 + q.sub && !x.out) = false ∧ q.index ≠ 0x2000 ∧ (r.accepts v = false ∨ fieldsOk q.index q.sub v.toNat = false)) ∧
    (∃ (s : State)(t : State)(q : Kdp)(r : Row)(v : Int), Accepted 0x05 q s t ∧ (t.ask q).entry false t = .ok (.row r) ∧ r.access = .st ∧ q.byte 3 ≤ 15 ∧ r.ty ≠ .domain ∧ (q.payload.drop 4).length ≤ 1440 ∧ parseValue r (q.payload.drop 4) = .ok (.num v) ∧ (t.kdps.transfers.any fun x => x.key == q.index * 256 + q.sub && !x.out) = false ∧ r.accepts v = true ∧ fieldsOk q.index q.sub v.toNat = true) ∧
    (∃ (s : State)(t : State)(q : Kdp)(r : Row)(v : Int), Accepted 0x05 q s t ∧ (t.ask q).entry false t = .ok (.row r) ∧ r.access ≠ .st ∧ r.access ≠ .ro ∧ q.byte 3 = 0 ∧ r.ty ≠ .domain ∧ (q.payload.drop 4).length ≤ 1440 ∧ parseValue r (q.payload.drop 4) = .ok (.num v) ∧ (t.kdps.transfers.any fun x => x.key == q.index * 256 + q.sub && !x.out) = false ∧ r.accepts v = true ∧ fieldsOk q.index q.sub v.toNat = true) ∧
    (∃ (s : State)(t : State)(q : Kdp), Accepted 0x07 q s t ∧ (q.byte 0 = 0 ∨ 15 < q.byte 0)) ∧
    (∃ (s : State)(t : State)(q : Kdp), Accepted 0x07 q s t ∧ 1 ≤ q.byte 0 ∧ q.byte 0 ≤ 15) ∧
    (∃ (s : State)(t : State)(q : Kdp), Accepted 0x08 q s t) ∧
    (∃ (s : State)(t : State)(q : Kdp), Accepted 0x09 q s t) :=
  ⟨⟨onNet {}, _, signed5 [0xFF, 0xFF, 0, 0], _, signed5_accepted 5 _ _ (by decide), rfl⟩,
   ⟨onNet {}, _, signed5 [0x10, 0x20, 0, 0], signed5_accepted 5 _ _ (by decide), rfl⟩,
   ⟨onNet {}, _, signed5 [0x10, 0x20, 1, 0], _, signed5_accepted 5 _ _ (by decide), rfl, .inr (.inl rfl)⟩,
   ⟨onNet {}, _, signed5 [0x00, 0x54, 1, 15], _, signed5_accepted 5 _ _ (by decide), rfl, by decide, by decide, by decide, .inl rfl⟩,
   ⟨onNet {}, _, signed5 [0x10, 0x20, 2, 15], _, _, signed5_accepted 5 _ _ (by decide), rfl, by decide, by decide, by decide, by decide, by decide, rfl⟩,
   ⟨onNet { transfers := [{ num := 2, key := 0x201002, owner := 5, group := 0, out := false, total := 3, used := 0 }] }, _, signed5 [0x10, 0x20, 2, 15, 1], _, _, signed5_accepted 5 _ _ (by decide), rfl, by decide, by decide, by decide, by decide, by decide, rfl, by decide⟩,
   ⟨onNet {}, _, signed5 [0x10, 0x20, 2, 15, 9], _, _, signed5_accepted 5 _ _ (by decide), rfl, by decide, by decide, by decide, by decide, by decide, rfl, by decide, by decide, .inl (by decide)⟩,
   ⟨onNet {}, _, signed5 [0x10, 0x20, 2, 15, 1], _, _, signed5_accepted 5 _ _ (by decide), rfl, by decide, by decide, by decide, by decide, rfl, by decide, by decide, by decide⟩,
   ⟨onNet {}, _, signed5 [0x10, 0x20, 3, 0, 0x20, 0xA1, 7, 0], _, _, signed5_accepted 5 _ _ (by decide), rfl, by decide, by decide, by decide, by decide, by decide, rfl, by decide, by decide, by decide⟩,
   ⟨onNet {}, _, signed5 [0], signed5_accepted 7 _ _ (by decide), by decide⟩,
   ⟨onNet {}, _, signed5 [15], signed5_accepted 7 _ _ (by decide), by decide, by decide⟩,
   ⟨onNet {}, _, signed5 [15], signed5_accepted 8 _ _ (by decide)⟩,
   ⟨onNet {}, _, signed5 [0, 0], signed5_accepted 9 _ _ (by decide)⟩⟩

theorem test_witness_segmented_transfers :
    (∃ (s : State)(t : State)(q : Kdp)(e : Err), Accepted 0x0A q s t ∧ (t.ask q).entry (q.byte 4 == 1) t = .error e) ∧
    (∃ (s : State)(t : State)(q : Kdp), Accepted 0x0A q s t ∧ (t.ask q).entry (q.byte 4 == 1) t = .ok .top) ∧
    (∃ (s : State)(t : State)(q : Kdp)(r : Row), Accepted 0x0A q s t ∧ (t.ask q).entry (q.byte 4 == 1) t = .ok (.row r) ∧ 1 < q.byte 4) ∧
    (∃ (s : State)(t : State)(q : Kdp)(r : Row), Accepted 0x0A q s t ∧ (t.ask q).entry true t = .ok (.row r) ∧ q.byte 4 = 1 ∧ (r.access = .wo ∨ 4 ≤ t.kdps.transfers.length ∨ (t.kdps.transfers.any fun x => x.key == q.index * 256 + q.sub) = true)) ∧
    (∃ (s : State)(t : State)(u : State)(q : Kdp)(r : Row)(b : Bytes), Accepted 0x0A q s t ∧ (t.ask q).entry true t = .ok (.row r) ∧ q.byte 4 = 1 ∧ r.access ≠ .wo ∧ t.kdps.transfers.length < 4 ∧ (t.kdps.transfers.any fun x => x.key == q.index * 256 + q.sub) = false ∧ b = (if r.size = 0 then t.blobView q.index q.sub else wireBytes r.size (t.view q.index q.sub).1) ∧ u = (if r.size = 0 then t else readClears q.index q.sub (t.view q.index q.sub).2)) ∧
    (∃ (s : State)(t : State)(q : Kdp)(r : Row), Accepted 0x0A q s t ∧ (t.ask q).entry false t = .ok (.row r) ∧ q.byte 4 = 0 ∧ (15 < q.byte 3 ∨ (q.byte 3 ≠ 0 ∧ r.access ≠ .st))) ∧
    (∃ (s : State)(t : State)(q : Kdp)(r : Row), Accepted 0x0A q s t ∧ (t.ask q).entry false t = .ok (.row r) ∧ q.byte 4 = 0 ∧ q.byte 3 ≤ 15 ∧ (q.byte 3 = 0 ∨ r.access = .st) ∧ (r.access = .ro ∨ (r.ty ≠ .domain ∧ r.access ≠ .st))) ∧
    (∃ (s : State)(t : State)(u : State)(q : Kdp)(r : Row), Accepted 0x0A q s t ∧ (t.ask q).entry false t = .ok (.row r) ∧ q.byte 4 = 0 ∧ q.byte 3 ≤ 15 ∧ (q.byte 3 = 0 ∨ r.access = .st) ∧ r.access ≠ .ro ∧ (r.ty = .domain ∨ r.access = .st) ∧ u = (if q.byte 3 = 0 then t else stage q.owner (q.byte 3) (q.index * 256 + q.sub) .incomplete t)) ∧
    (∃ (s : State)(t : State)(q : Kdp), Accepted 0x0B q s t ∧ (t.ask q).transfer t = none) ∧
    (∃ (s : State)(t : State)(q : Kdp)(x : Transfer), Accepted 0x0B q s t ∧ (t.ask q).transfer t = some x ∧ x.count ≤ q.word 4 4) ∧
    (∃ (s : State)(t : State)(q : Kdp)(x : Transfer)(k : Nat), Accepted 0x0B q s t ∧ (t.ask q).transfer t = some x ∧ x.out = true ∧ q.word 4 4 = k ∧ k < x.count) ∧
    (∃ (s : State)(t : State)(q : Kdp)(x : Transfer)(k : Nat), Accepted 0x0B q s t ∧ (t.ask q).transfer t = some x ∧ x.out = false ∧ q.word 4 4 = k ∧ k < x.count) ∧
    (∃ (s : State)(t : State)(q : Kdp), Accepted 0x0C q s t ∧ (t.ask q).transfer t = none) ∧
    (∃ (s : State)(t : State)(u : State)(q : Kdp)(x : Transfer), Accepted 0x0C q s t ∧ (t.ask q).transfer t = some x ∧ u = updTransfer x.num (fun y => { y with used := t.now }) t ∧ (q.payload.length ≠ (if x.out then 4 else 8) ∨ x.complete = false)) ∧
    (∃ (s : State)(t : State)(q : Kdp)(x : Transfer), Accepted 0x0C q s t ∧ (t.ask q).transfer t = some x ∧ x.out = true ∧ q.payload.length = 4 ∧ x.complete = true) ∧
    (∃ (s : State)(t : State)(u : State)(q : Kdp)(x : Transfer), Accepted 0x0C q s t ∧ (t.ask q).transfer t = some x ∧ x.out = false ∧ q.payload.length = 8 ∧ x.complete = true ∧ u = updTransfer x.num (fun y => { y with used := t.now }) t) ∧
    (∃ (s : State)(t : State)(q : Kdp), Accepted 0x0D q s t) ∧
    (∃ (s : State)(n : BitVec 8), (s.kdps.transfers.find? fun t => t.num == n.toNat) = none) ∧
    (∃ (s : State)(n : BitVec 8)(x : Transfer), (s.kdps.transfers.find? fun t => t.num == n.toNat) = some x) :=
  ⟨⟨onNet {}, _, signed5 [0xFF, 0xFF, 0, 0, 1, 0, 0, 0], _, signed5_accepted 10 _ _ (by decide), rfl⟩,
   ⟨onNet {}, _, signed5 [0x10, 0x20, 0, 0, 1, 0, 0, 0], signed5_accepted 10 _ _ (by decide), rfl⟩,
   ⟨onNet {}, _, signed5 [0x20, 0x20, 5, 0, 2, 0, 0, 0], _, signed5_accepted 10 _ _ (by decide), rfl, by decide⟩,
   ⟨onNet {}, _, signed5 [0x20, 0x20, 4, 0, 1, 0, 0, 0], _, signed5_accepted 10 _ _ (by decide), rfl, by decide, .inl rfl⟩,
   ⟨onNet {}, _, _, signed5 [0x20, 0x20, 5, 0, 1, 0, 0, 0], _, _, signed5_accepted 10 _ _ (by decide), rfl, by decide, by decide, by decide, by decide, rfl, rfl⟩,
   ⟨onNet {}, _, signed5 [0x10, 0x20, 2, 16, 0, 0, 0, 0, 1, 0, 0, 0], _, signed5_accepted 10 _ _ (by decide), rfl, by decide, by decide⟩,
   ⟨onNet {}, _, signed5 [0x20, 0x20, 5, 0, 0, 0, 0, 0, 1, 0, 0, 0], _, signed5_accepted 10 _ _ (by decide), rfl, by decide, by decide, by decide, .inl rfl⟩,
   ⟨onNet {}, _, _, signed5 [0x10, 0x20, 2, 15, 0, 0, 0, 0, 1, 0, 0, 0], _, signed5_accepted 10 _ _ (by decide), rfl, by decide, by decide, by decide, by decide, by decide, rfl⟩,
   ⟨onNet {}, _, signed5 [2, 0, 0, 0, 0, 0, 0, 0, 1, 2, 3], signed5_accepted 11 _ _ (by decide), by decide⟩,
   ⟨onNet { transfers := [{ num := 2, key := 5, owner := 5, group := 0, out := false, total := 3, used := 0 }] }, _, signed5 [2, 0, 0, 0, 1, 0, 0, 0, 1, 2, 3], _, signed5_accepted 11 _ _ (by decide), rfl, by decide⟩,
   ⟨onNet { transfers := [{ num := 2, key := 5, owner := 5, group := 0, out := true, total := 3, data := [1, 2, 3], used := 0 }] }, _, signed5 [2, 0, 0, 0, 0, 0, 0, 0], _, _, signed5_accepted 11 _ _ (by decide), rfl, by decide, rfl, by decide⟩,
   ⟨onNet { transfers := [{ num := 2, key := 5, owner := 5, group := 0, out := false, total := 3, used := 0 }] }, _, signed5 [2, 0, 0, 0, 0, 0, 0, 0, 1, 2, 3], _, _, signed5_accepted 11 _ _ (by decide), rfl, by decide, rfl, by decide⟩,
   ⟨onNet {}, _, signed5 [2, 0, 0, 0], signed5_accepted 12 _ _ (by decide), by decide⟩,
   ⟨onNet { transfers := [{ num := 2, key := 5, owner := 5, group := 0, out := true, total := 3, data := [1, 2, 3], used := 0 }] }, _, _, signed5 [2, 0, 0, 0], _, signed5_accepted 12 _ _ (by decide), rfl, rfl, by decide⟩,
   ⟨onNet { transfers := [{ num := 2, key := 5, owner := 5, group := 0, out := true, total := 3, acked := [0], data := [1, 2, 3], used := 0 }] }, _, signed5 [2, 0, 0, 0], _, signed5_accepted 12 _ _ (by decide), rfl, by decide, by decide, by decide⟩,
   ⟨onNet { transfers := [{ num := 2, key := 5, owner := 5, group := 0, out := false, total := 3, acked := [0], segs := [(0, [1, 2, 3])], used := 0 }] }, _, _, signed5 [2, 0, 0, 0, 0, 0, 0, 0], _, signed5_accepted 12 _ _ (by decide), rfl, by decide, by decide, by decide, rfl⟩,
   ⟨onNet {}, _, signed5 [2, 0], signed5_accepted 13 _ _ (by decide)⟩,
   ⟨{}, 0, by decide⟩,
   ⟨{ kdps := { transfers := [{ num := 2, key := 5, owner := 5, group := 0, out := true, total := 3, used := 0 }] } }, 2, _, rfl⟩⟩

theorem test_witness_sessions_and_events :
    (∃ (s : State)(t : State)(q : Kdp), Accepted 0x10 q s t ∧ (q.byte 0 = 0 ∨ 4 < q.byte 0)) ∧
    (∃ (s : State)(t : State)(q : Kdp), Accepted 0x10 q s t ∧ 1 ≤ q.byte 0 ∧ q.byte 0 ≤ 4 ∧ t.lockoutLeft q.source ≠ 0) ∧
    (∃ (s : State)(t : State)(q : Kdp), Accepted 0x10 q s t ∧ q.byte 0 = 4 ∧ t.lockoutLeft q.source = 0 ∧ (t.flag Obj.vendorServiceEnable = false ∨ t.flag Obj.approvedModeLock = true)) ∧
    (∃ (s : State)(t : State)(q : Kdp), Accepted 0x10 q s t ∧ 1 ≤ q.byte 0 ∧ q.byte 0 ≤ 4 ∧ t.lockoutLeft q.source = 0 ∧ (q.byte 0 ≠ 4 ∨ (t.flag Obj.vendorServiceEnable = true ∧ t.flag Obj.approvedModeLock = false)) ∧ (islandError t ≠ none ∨ (q.byte 0 ≠ 3 ∧ t.auditRoom = false) ∨ 8 ≤ t.kdps.sessions.length)) ∧
    (∃ (s : State)(t : State)(u : State)(q : Kdp)(x : Session)(num : Nat)(nonce : Bytes), Accepted 0x10 q s t ∧ 1 ≤ q.byte 0 ∧ q.byte 0 ≤ 4 ∧ t.lockoutLeft q.source = 0 ∧ (q.byte 0 ≠ 4 ∨ (t.flag Obj.vendorServiceEnable = true ∧ t.flag Obj.approvedModeLock = false)) ∧ islandError t = none ∧ (q.byte 0 = 3 ∨ t.auditRoom = true) ∧ t.kdps.sessions.length < 8 ∧ num = t.freeSession 8 t.kdps.nextSession ∧ nonce = (Config.random t.sec.draws).take 32 ∧ x = { num := num, mailbox := q.mailbox, src := q.src, role := q.byte 0, hostNonce := (q.payload.drop 4).take 32, devNonce := nonce, used := t.now } ∧ u = { t with sec := { t.sec with draws := t.sec.draws + 1 }, kdps := { t.kdps with sessions := t.kdps.sessions ++ [x], nextSession := num % 65535 + 1 } }) ∧
    (∃ (s : State)(t : State)(q : Kdp), Accepted 0x11 q s t ∧ (t.kdps.sessions.find? fun x => x.num == q.session.toNat && !x.opened && x.mailbox == q.mailbox && x.src == q.src) = none) ∧
    (∃ (s : State)(t : State)(q : Kdp)(x : Session), Accepted 0x11 q s t ∧ (t.kdps.sessions.find? fun x => x.num == q.session.toNat && !x.opened && x.mailbox == q.mailbox && x.src == q.src) = some x ∧ (islandError t ≠ none ∨ (x.role ≠ 3 ∧ t.auditRoom = false))) ∧
    (∃ (s : State)(t : State)(q : Kdp)(x : Session), Accepted 0x11 q s t ∧ (t.kdps.sessions.find? fun x => x.num == q.session.toNat && !x.opened && x.mailbox == q.mailbox && x.src == q.src) = some x ∧ islandError t = none ∧ (x.role = 3 ∨ t.auditRoom = true)) ∧
    (∃ (s : State)(t : State)(q : Kdp), Accepted 0x12 q s t) ∧
    (∃ (s : State)(n : BitVec 16), s.session n.toNat = none) ∧
    (∃ (s : State)(n : BitVec 16)(x : Session), s.session n.toNat = some x) ∧
    (∃ (s : State)(t : State)(q : Kdp), Accepted 0x13 q s t ∧ 3 < q.byte 0) ∧
    (∃ (s : State)(t : State)(u : State)(q : Kdp)(r : EventRoute), Accepted 0x13 q s t ∧ q.byte 0 ≤ 3 ∧ r = { subscriber := some (q.src, sessionOf q), least := q.byte 1, sent := t.now } ∧ (u = { t with kdps := { t.kdps with net := if q.byte 0 = 1 ∨ q.byte 0 = 3 then r else t.kdps.net, mail := if q.byte 0 = 2 ∨ q.byte 0 = 3 then r else t.kdps.mail } })) ∧
    (∃ (s : State)(t : State)(q : Kdp), Accepted 0x21 q s t ∧ q.mailbox = false ∧ (t.kdps.net.subscriber = some (q.src, sessionOf q) ∨ (t.kdps.net.subscriber = none ∧ q.auth = false))) ∧
    (∃ (s : State)(t : State)(q : Kdp), Accepted 0x21 q s t ∧ q.mailbox = true ∧ (t.kdps.mail.subscriber = some (q.src, sessionOf q) ∨ (t.kdps.mail.subscriber = none ∧ q.auth = false))) ∧
    (∃ (s : State)(t : State)(q : Kdp)(r : EventRoute), Accepted 0x21 q s t ∧ r = (if q.mailbox then t.kdps.mail else t.kdps.net) ∧ ((∃ x, r.subscriber = some x ∧ x ≠ (q.src, sessionOf q)) ∨ (r.subscriber = none ∧ q.auth = true))) ∧
    (∃ (s : State), (s.kdps.net.queue = [] ∨ s.netTarget = none ∨ s.nat Obj.lockstepState = 2 ∨ s.mode.talks = false ∨ s.now < s.kdps.net.sent + ms (s.nat Obj.eventRetry))) ∧
    (∃ (s : State), (s.kdps.mail.queue = [] ∨ s.kdps.mail.subscriber = none ∨ s.nat Obj.lockstepState = 2 ∨ s.mode.talks = false ∨ s.now < s.kdps.mail.sent + ms (s.nat Obj.eventRetry))) ∧
    (∃ (s : State)(seq : Nat)(dst : Nat)(ses : Nat)(p : Bytes)(rest : List (Nat × Bytes)), s.kdps.net.queue = (seq, p) :: rest ∧ s.netTarget = some (dst, ses) ∧ s.nat Obj.lockstepState ≠ 2 ∧ s.mode.talks = true ∧ s.kdps.net.sent + ms (s.nat Obj.eventRetry) ≤ s.now) ∧
    (∃ (s : State)(seq : Nat)(dst : Nat)(ses : Nat)(p : Bytes)(rest : List (Nat × Bytes)), s.kdps.mail.queue = (seq, p) :: rest ∧ s.kdps.mail.subscriber = some (dst, ses) ∧ s.nat Obj.lockstepState ≠ 2 ∧ s.mode.talks = true ∧ s.kdps.mail.sent + ms (s.nat Obj.eventRetry) ≤ s.now) :=
  ⟨⟨onNet {}, _, plain ([0, 0, 0, 0] ++ List.replicate 32 0), plain_accepted 16 _ _ _ _ (by decide), by decide⟩,
   ⟨onNet { lockouts := [(5, 1)] }, _, plain ([3, 0, 0, 0] ++ List.replicate 32 0), plain_accepted 16 _ _ _ _ (by decide), by decide, by decide, by decide⟩,
   ⟨onNet {}, _, plain ([4, 0, 0, 0] ++ List.replicate 32 0), plain_accepted 16 _ _ _ _ (by decide), by decide, by decide, .inl (by decide)⟩,
   ⟨onNet { sessions := List.replicate 7 pending7 }, _, plain ([3, 0, 0, 0] ++ List.replicate 32 0), plain_accepted 16 _ _ _ _ (by decide), by decide, by decide, by decide, by decide, .inr (.inr (by decide))⟩,
   ⟨onNet {}, _, _, plain ([3, 0, 0, 0] ++ List.replicate 32 0), _, _, _, plain_accepted 16 _ _ _ _ (by decide), by decide, by decide, by decide, by decide, by decide, by decide, by decide, rfl, rfl, rfl, rfl⟩,
   ⟨onNet {}, _, plain proof7 7, plain_accepted 17 _ _ _ _ (by simp [lengthError, payloadBounds, proof7_length]), by decide⟩,
   ⟨onNet { sessions := [{ pending7 with role := 1 }] } { auditNext := 16384 }, _, plain proof7 7, _, plain_accepted 17 _ _ _ _ (by simp [lengthError, payloadBounds, proof7_length]), rfl, by decide⟩,
   ⟨onNet { sessions := [pending7] } { roleKeys := [(0, [1])] }, _, plain proof7 7, _, plain_accepted 17 _ _ _ _ (by simp [lengthError, payloadBounds, proof7_length]), rfl, by decide, by decide⟩,
   ⟨onNet {}, _, signed5 [], signed5_accepted 18 _ _ (by decide)⟩,
   ⟨{}, 0, by decide⟩,
   ⟨{ kdps := { sessions := [pending7] } }, 7, _, rfl⟩,
   ⟨onNet {}, _, signed5 [4, 3], signed5_accepted 19 _ _ (by decide), by decide⟩,
   ⟨onNet {}, _, _, signed5 [1, 3], _, signed5_accepted 19 _ _ (by decide), by decide, rfl, rfl⟩,
   ⟨onNet { net := { subscriber := some (5, 5) } }, _, signed5 [0, 0, 0, 0], signed5_accepted 33 _ _ (by decide), by decide, .inl rfl⟩,
   ⟨(onNet {}).updMbx fun x => { x with en := true }, _, { plain [0, 0, 0, 0] with mailbox := true }, ⟨⟨rfl, rfl, fun _ => rfl, .inr (.inl ⟨Nat.one_ne_zero, by simp [plain], rfl⟩), Nat.zero_ne_add_one 1⟩, .inl ⟨rfl, rfl⟩, by decide, .inl Nat.one_ne_zero, .inl rfl⟩, by decide, .inr ⟨rfl, rfl⟩⟩,
   ⟨onNet { net := { subscriber := some (6, 0) } }, _, signed5 [0, 0, 0, 0], _, signed5_accepted 33 _ _ (by decide), rfl, .inl ⟨(6, 0), rfl, by decide⟩⟩,
   ⟨{}, .inl rfl⟩,
   ⟨{}, .inl rfl⟩,
   ⟨{ onNet { net := { queue := [(4, [])], subscriber := some (5, 0) } } with now := ms 100 }, 4, 5, 0, [], [], by decide, by decide, by decide, by decide, by decide⟩,
   ⟨{ onNet { mail := { queue := [(4, [])], subscriber := some (5, 0) } } with now := ms 100 }, 4, 5, 0, [], [], by decide, by decide, by decide, by decide, by decide⟩⟩

theorem test_witness_addressing_and_malformed_packets :
    (∃ (s : State)(t : State)(q : Kdp), Accepted 0x02 q s t ∧ bitAt (q.byte 1) 0 = false ∧ t.addressLocked = false ∧ t.nat Obj.nodeAddress = 0 ∧ t.kdps.addr.enumIn = true ∧ 1 ≤ q.byte 0 ∧ q.byte 0 ≤ 30) ∧
    (∃ (s : State)(t : State)(q : Kdp), Accepted 0x02 q s t ∧ bitAt (q.byte 1) 0 = false ∧ t.addressLocked = false ∧ (t.nat Obj.nodeAddress ≠ 0 ∨ t.kdps.addr.enumIn = false ∨ q.byte 0 = 0 ∨ 30 < q.byte 0)) ∧
    (∃ (s : State)(t : State)(q : Kdp), Accepted 0x02 q s t ∧ bitAt (q.byte 1) 0 = false ∧ t.addressLocked = true) ∧
    (∃ (s : State)(t : State)(q : Kdp), Accepted 0x02 q s t ∧ bitAt (q.byte 1) 0 = true) ∧
    (∃ (s : State), s.kdps.addr.assign = none) ∧
    (∃ (s : State)(addr : Nat)(due : Nat)(seq : Nat)(src : Nat)(mailbox : Bool), s.kdps.addr.assign = some (addr, due, seq, src, mailbox)) ∧
    (∃ (s : State)(p : Nat × Nat × Nat × Nat × Bool), s.nat Obj.nodeAddress = 0 ∧ s.kdps.addr.enumIn = true ∧ s.kdps.addr.assign = some p) ∧
    (∃ (s : State), (s.nat Obj.nodeAddress ≠ 0 ∨ s.kdps.addr.enumIn = false ∨ s.kdps.addr.assign = none)) ∧
    (∃ (s : State), s.kdps.addr.enumOutAt = none) ∧
    (∃ (s : State)(due : Nat), s.kdps.addr.enumOutAt = some due) ∧
    (∃ (s : State)(u : State), u = s.updAddr (fun a => { a with enumIn := true })) ∧
    (∃ (s : State)(t : State)(q : Kdp)(op : Nat)(n : Nat), Reaches op q s ∧ Admitted q s t ∧ opcodeKnown op = true ∧ lengthError op q.payload = some n) ∧
    (∃ (s : State)(t : State)(q : Kdp)(op : Nat), Reaches op q s ∧ Admitted q s t ∧ opcodeKnown op = true ∧ lengthError op q.payload = none ∧ t.roleOf q = 0 ∧ openService op q = false) ∧
    (∃ (s : State)(t : State)(q : Kdp)(op : Nat)(k : Kept), Reaches op q s ∧ Admitted q s t ∧ opcodeKnown op = true ∧ lengthError op q.payload = none ∧ (t.roleOf q ≠ 0 ∨ openService op q = true) ∧ q.retry = true ∧ (t.kdps.kept.find? fun k => k.owner == q.owner && k.seq == q.seq.toNat) = some k) ∧
    (∃ (s : State)(t : State)(q : Kdp)(op : BitVec 8), opcodeKnown op.toNat = false ∧ Reaches op.toNat q s ∧ Admitted q s t) ∧
    (∃ (op : BitVec 8), opcodeKnown op.toNat = true) :=
  ⟨⟨{ mode := .configure, kdps := { addr := { enumIn := true } } }, _, { plain [30, 0] with dst := 255 }, ⟨⟨rfl, rfl, nofun, .inl ⟨rfl, by decide⟩, by decide⟩, .inl ⟨rfl, rfl⟩, by decide, .inl (by decide), .inl rfl⟩, by decide, by decide, by decide, by decide, by decide, by decide⟩,
   ⟨{ mode := .configure, kdps := { addr := { enumIn := false } } }, _, { plain [30, 0] with dst := 255 }, ⟨⟨rfl, rfl, nofun, .inl ⟨rfl, by decide⟩, by decide⟩, .inl ⟨rfl, rfl⟩, by decide, .inl (by decide), .inl rfl⟩, by decide, by decide, .inr (.inl rfl)⟩,
   ⟨({ mode := .configure } : State).setReg Obj.addressSource 2, _, { plain [30, 0] with dst := 255 }, ⟨⟨rfl, rfl, nofun, .inl ⟨rfl, by decide⟩, by decide⟩, .inl ⟨rfl, rfl⟩, by decide, .inl (by decide), .inl rfl⟩, by decide, by decide⟩,
   ⟨{ mode := .configure, kdps := { addr := { enumIn := true } } }, _, { plain [30, 1] with dst := 255 }, ⟨⟨rfl, rfl, nofun, .inl ⟨rfl, by decide⟩, by decide⟩, .inl ⟨rfl, rfl⟩, by decide, .inl (by decide), .inl rfl⟩, by decide⟩,
   ⟨{}, by decide⟩,
   ⟨{ kdps := { addr := { assign := some (30, 0, 1, 5, false) } } }, 30, 0, 1, 5, false, by decide⟩,
   ⟨{ kdps := { addr := { enumIn := true, assign := some (30, 0, 1, 5, false) } } }, _, by decide, by decide, rfl⟩,
   ⟨{}, .inr (.inl rfl)⟩,
   ⟨{}, by decide⟩,
   ⟨{ kdps := { addr := { enumOutAt := some 0 } } }, 0, by decide⟩,
   ⟨{}, _, rfl⟩,
   ⟨onNet {}, _, plain [1], 18, _, ⟨rfl, rfl, nofun, .inr (.inl ⟨by decide, by simp [plain], rfl⟩), by decide⟩, .inl ⟨rfl, rfl⟩, by decide, rfl⟩,
   ⟨(onNet {}).setReg Obj.openAccess 0, _, plain [], 18, ⟨rfl, rfl, nofun, .inr (.inl ⟨by decide, by simp [plain], rfl⟩), by decide⟩, .inl ⟨rfl, rfl⟩, by decide, by decide, by decide, by decide⟩,
   ⟨onNet { kept := [⟨0x10005, 0, 18, 0, 0, []⟩] }, _, { plain [] with retry := true }, 18, _, ⟨rfl, rfl, nofun, .inr (.inl ⟨by decide, by simp [plain], rfl⟩), by decide⟩, .inl ⟨rfl, rfl⟩, by decide, by decide, .inl (by decide), by decide, rfl⟩,
   ⟨onNet {}, _, plain [], 0x55, by decide, (plain_accepted 0x55 [] 0 {} {} (by decide)).reaches, (plain_accepted 0x55 [] 0 {} {} (by decide)).admitted⟩,
   ⟨1, by decide⟩⟩

theorem test_witness_network_time :
    (∃ (s : State), (s.nat Obj.ptpRole = 0 ∨ s.mode.talks = false)) ∧
    (∃ (s : State)(u : State)(origin : Nat)(offset : Int), s.nat Obj.ptpRole ≠ 0 ∧ s.mode.talks = true ∧ offset = (s.dt : Int) - origin - s.nat Obj.ptpPathDelay ∧ u = discipline offset (ptpJudge offset ((s.setReg Obj.ptpOffset offset).updPtp fun p => { p with port := 9, ms := (s.dt : Int) - origin }))) ∧
    (∃ (s : State)(t3 : Nat), s.kdps.ptp.t3 = some t3) ∧
    (∃ (s : State), s.kdps.ptp.t3 = none) ∧
    (∃ (s : State), s.nat Obj.ptpRole = 2 ∧ s.mode.talks = true ∧ (s.kdps.ptp.port ≠ 9 ∨ s.kdps.ptp.lastSync + 8 * s.syncInterval ≤ s.now) ∧ ((∀ t, s.kdps.ptp.sentAt = some t → t + s.syncInterval ≤ s.now))) ∧
    (∃ (s : State), (s.nat Obj.ptpRole ≠ 2 ∨ s.mode.talks = false ∨ (s.kdps.ptp.port = 9 ∧ s.now < s.kdps.ptp.lastSync + 8 * s.syncInterval) ∨ (∃ t, s.kdps.ptp.sentAt = some t ∧ s.now < t + s.syncInterval))) :=
  ⟨⟨({ mode := .configure } : State).setReg Obj.ptpRole 0, .inl (by decide)⟩,
   ⟨({ mode := .configure } : State), _, 0, _, by decide, by decide, rfl, rfl⟩,
   ⟨{ kdps := { ptp := { t3 := some 0, port := 9 } } }, 0, by decide⟩,
   ⟨{}, by decide⟩,
   ⟨({ mode := .configure } : State).setReg Obj.ptpRole 2, by decide, by decide, by decide, nofun⟩,
   ⟨{ mode := .off }, .inr (.inl rfl)⟩⟩

theorem test_witness_mode_requests :
    (∃ (s : State)(r : Role)(f : Mode → State), (∀ m, f m = if modeError (roleCode r) m s = none then startMode m s else s)) ∧
    (∃ (s : State), s.target = none) ∧
    (∃ (s : State)(m : Mode), s.target = some m) :=
  ⟨⟨{}, .operator, _, fun _ => rfl⟩,
   ⟨{ target := none }, by decide⟩,
   ⟨{ target := some .scan }, .scan, by decide⟩⟩

theorem test_witness_supplies_domains_and_rails :
    (∃ (s : State)(u : State), u = persistent s) ∧
    (∃ (s : State)(d : Fin 64), s.nat (Obj.domainState d) = 1) ∧
    (∃ (s : State)(d : Fin 64), s.nat (Obj.domainState d) ≠ 1) ∧
    (∃ (s : State)(r : Fin 8), s.nat (Obj.railState r) ≠ 2) ∧
    (∃ (s : State)(r : Fin 8), s.nat (Obj.railState r) = 2 ∧ r ≠ 7) ∧
    (∃ (s : State), s.nat (Obj.railState 7) = 2) ∧
    (∃ (s : State)(r : Fin 8), s.nat (Obj.railState r) ≠ 1) ∧
    (∃ (s : State), s.nat (Obj.railState 7) = 1) ∧
    (∃ (s : State)(u : State)(r : Fin 8), s.nat (Obj.railState r) = 1 ∧ r ≠ 7 ∧ u = (s.setReg (Obj.railState r) 2).setReg (Obj.railVoltage r) (s.nat (Obj.railSetpoint r) / 2 : Nat)) ∧
    (∃ (s : State)(k : Fin 16), (s.modeUnder = .scan ∨ s.modeUnder = .calibrate) ∧ s.nat (Obj.domainState (26 + k)) = 2 ∧ s.clusterNeeded k = false ∧ ((List.range 4).all fun i => (s.slice (4 * k + i)).current.isNone && (s.slice (4 * k + i)).waits.isEmpty) = true ∧ Table.get 0 s.power.clusterUsed k + ms 10 ≤ s.now) ∧
    (∃ (s : State)(k : Fin 16), ((s.modeUnder ≠ .scan ∧ s.modeUnder ≠ .calibrate) ∨ s.nat (Obj.domainState (26 + k)) ≠ 2 ∨ s.clusterNeeded k = true ∨ s.now < Table.get 0 s.power.clusterUsed k + ms 10 ∨ ((List.range 4).all fun i => (s.slice (4 * k + i)).current.isNone && (s.slice (4 * k + i)).waits.isEmpty) = false)) :=
  ⟨⟨{}, _, rfl⟩,
   ⟨({} : State).setReg (Obj.domainState 63) 1, 63, by decide⟩,
   ⟨({} : State).setReg (Obj.domainState 63) 2, 63, by decide⟩,
   ⟨({ mode := .configure } : State).setReg (Obj.railState 6) 1, 6, by decide⟩,
   ⟨({ mode := .configure } : State).setReg (Obj.railState 6) 2, 6, by decide, by decide⟩,
   ⟨({ mode := .configure } : State).setReg (Obj.railState 7) 2, by decide⟩,
   ⟨({ mode := .configure } : State).setReg (Obj.railState 6) 2, 6, by decide⟩,
   ⟨({ mode := .configure } : State).setReg (Obj.railState 7) 1, by decide⟩,
   ⟨({ mode := .configure } : State).setReg (Obj.railState 6) 1, _, 6, by decide, by decide, rfl⟩,
   ⟨({ mode := .scan, target := none, now := ms 10 } : State).setReg (Obj.domainState 41) 2, 15, .inl (by decide), by decide, by decide, by decide, by decide⟩,
   ⟨{ mode := .configure, target := none }, 0, .inl (by decide)⟩⟩

theorem test_witness_voltage_heat_and_halt :
    (∃ (s : State), (s.mode.talks = false ∨ (s.nat Obj.avsMode ≠ 0 ∧ s.loopDue 5 0 (us 10) = false))) ∧
    (∃ (s : State)(u : State)(slack : Int), s.mode.talks = true ∧ s.nat Obj.avsMode = 0 ∧ u = (s.loopRan 5 0).setReg Obj.avsSlack (clampInt (-128) 127 slack)) ∧
    (∃ (s : State)(u : State)(slack : Int)(v : Int)(high : Nat), s.mode.talks = true ∧ s.nat Obj.avsMode ≠ 0 ∧ s.loopDue 5 0 (us 10) = true ∧ u = (s.loopRan 5 0).setReg Obj.avsSlack (clampInt (-128) 127 slack) ∧ v = u.reg Obj.avsSetpoint ∧ high = u.power.avsHigh) ∧
    (∃ (s : State), (s.mode.talks = false ∨ s.nat Obj.avsMode = 0)) ∧
    (∃ (s : State)(u : State)(w : State)(x : State)(monitor : Nat)(v : Nat)(top : Nat)(raised : Nat), s.mode.talks = true ∧ s.nat Obj.avsMode ≠ 0 ∧ v = s.nat Obj.avsSetpoint ∧ top = min (2 * s.nat Obj.avsCeiling + 50) 1800 ∧ raised = min (v + 50) top ∧ u = { s with power := { s.power with avsHigh := 0, droops := latest 16 (s.power.droops ++ [⟨s.dt, v, raised, s.nat Obj.avsCeiling⟩]), droopAt := if 2 * s.nat Obj.avsCeiling < raised then some s.now else none } } ∧ w = setAvsStatus false false (decide (2 * s.nat Obj.avsCeiling < raised)) (setRail 0 raised (u.count Obj.avsDroops)) ∧ x = (if v < raised then w.raiseFault .avsDroop [monitor, v, raised] Kind.avsDroop 0 monitor 2 (islandOf 15 0) else w)) ∧
    (∃ (s : State), (s.power.droopAt = none ∨ s.nat Obj.avsMode = 0 ∨ (∃ t, s.power.droopAt = some t ∧ s.now < t + ms 1 + us 10))) ∧
    (∃ (s : State)(u : State)(t : Nat)(v : Nat), s.power.droopAt = some t ∧ s.nat Obj.avsMode ≠ 0 ∧ t + ms 1 + us 10 ≤ s.now ∧ v = s.nat Obj.avsSetpoint - 5 ∧ u = setAvsStatus false false (decide (2 * s.nat Obj.avsCeiling < v)) (setRail 0 v s)) ∧
    (∃ (s : State)(u : State)(w : State)(t : Int), u = noteTj t s ∧ w = { u with power := { u.power with warned := decide (u.reg Obj.tjWarnLimit ≤ t) } }) ∧
    (∃ (s : State)(u : State)(t : Int), u = noteTj t s) ∧
    (∃ (s : State), s.power.haltAt = none) ∧
    (∃ (s : State)(u : State)(t : Nat)(late : Bool), s.power.haltAt = some t ∧ late = decide (t + ms 500 ≤ s.now) ∧ u = (List.range 96).foldl (fun s p => if s.tioFn p == 20 && (late || (s.motion (s.tioSource p)).vel == 0) then driveTio p false s.now s else s) s) :=
  ⟨⟨{ mode := .off }, .inl (by decide)⟩,
   ⟨({ mode := .configure } : State).setReg Obj.avsMode 0, _, 0, by decide, by decide, rfl⟩,
   ⟨({ mode := .configure } : State), _, 0, _, _, by decide, by decide, by decide, rfl, rfl, rfl⟩,
   ⟨{ mode := .off }, .inl (by decide)⟩,
   ⟨({ mode := .configure } : State), _, _, _, 0, _, _, _, by decide, by decide, rfl, rfl, rfl, rfl, rfl, rfl⟩,
   ⟨{}, .inl rfl⟩,
   ⟨{ power := { droopAt := some 0 }, now := ms 2 }, _, 0, _, by decide, by decide, by decide, rfl, rfl⟩,
   ⟨{}, _, _, 0, rfl, rfl⟩,
   ⟨{}, _, 0, rfl⟩,
   ⟨{}, by decide⟩,
   ⟨{ power := { haltAt := some 0 } }, _, 0, _, by decide, rfl, rfl⟩⟩

theorem test_witness_controllers_agree :
    (∃ (s : State)(copy : Fin 3), (s.dep.resync = some copy.val ∨ s.dep.retiredCopy = some copy.val)) ∧
    (∃ (s : State)(copy : Fin 3), s.dep.resync ≠ some copy.val ∧ s.dep.retiredCopy ≠ some copy.val ∧ (s.dep.resync ≠ none ∨ s.dep.retiredCopy ≠ none)) ∧
    (∃ (s : State)(copy : Fin 3)(recent : List (Nat × Nat)), s.dep.resync = none ∧ s.dep.retiredCopy = none ∧ recent = s.dep.resyncs.filter (fun p => decide (s.now < p.2 + ms 3600000)) ∧ (recent.filter fun p => p.1 == copy.val).length < 2) ∧
    (∃ (s : State)(copy : Fin 3)(recent : List (Nat × Nat)), s.dep.resync = none ∧ s.dep.retiredCopy = none ∧ recent = s.dep.resyncs.filter (fun p => decide (s.now < p.2 + ms 3600000)) ∧ 2 ≤ (recent.filter fun p => p.1 == copy.val).length) ∧
    (∃ (s : State), (s.dep.mismatchAt = none ∨ s.nat Obj.lockstepState ≠ 2 ∨ (∃ t, s.dep.mismatchAt = some t ∧ s.now < t + ms 5))) ∧
    (∃ (s : State)(u : State)(w : State)(pass0 : Bool)(pass1 : Bool)(t : Nat), s.dep.mismatchAt = some t ∧ s.nat Obj.lockstepState = 2 ∧ t + ms 5 ≤ s.now ∧ u = pairCores pass0 pass1 { s with dep := { s.dep with mismatchAt := none } } ∧ w = notePools (switchDomain u.mode u 51)) :=
  ⟨⟨{ dep := { resync := some 1 } }, 1, .inl rfl⟩,
   ⟨{ dep := { resync := some 1 } }, 0, by decide, by decide, .inl (by decide)⟩,
   ⟨{ dep := { resyncs := [(2, 0)] } }, 2, _, by decide, by decide, rfl, by decide⟩,
   ⟨{ dep := { resyncs := [(2, 0), (2, 0)] } }, 2, _, by decide, by decide, rfl, by decide⟩,
   ⟨{}, .inl rfl⟩,
   ⟨({ dep := { mismatchAt := some 0 }, now := ms 5 } : State).setReg Obj.lockstepState 2, _, _, false, false, 0, by decide, by decide, by decide, rfl, rfl⟩⟩

theorem test_witness_wear_and_repair :
    (∃ (s : State)(d : Fin 64), (s.nat (Obj.domainState d) ≠ 2 ∨ s.loopDue 6 d (ms 1) = false)) ∧
    (∃ (s : State)(t : State)(u : State)(d : Fin 64)(drops : List Nat)(runs : List (Nat × Nat))(x : DomainSwitch), s.nat (Obj.domainState d) = 2 ∧ s.loopDue 6 d (ms 1) = true ∧ t = s.loopRan 6 d ∧ runs = s.segmentRuns d drops ∧ x = { s.switch d with runs := runs.foldl (fun t p => Table.set 0 t p.1 p.2) (s.switch d).runs } ∧ u = { t with dep := { t.dep with switches := Table.set {} t.dep.switches d x } }) ∧
    (∃ (s : State)(k : Fin 68), ((s.slice k).state ≠ .spareWarm ∨ s.loopDue 7 k (ms (s.nat Obj.spareTestPeriod)) = false)) ∧
    (∃ (s : State)(t : State)(k : Fin 68), (s.slice k).state = .spareWarm ∧ s.loopDue 7 k (ms (s.nat Obj.spareTestPeriod)) = true ∧ t = s.loopRan 7 k) :=
  ⟨⟨({} : State).setReg (Obj.domainState 63) 1, 63, .inl (by decide)⟩,
   ⟨({} : State).setReg (Obj.domainState 63) 2, _, _, 63, [], _, _, by decide, by decide, rfl, rfl, rfl, rfl⟩,
   ⟨{}, 0, .inl (by decide)⟩,
   ⟨{ slices := [(67, { state := .spareWarm })] }, _, 67, by decide, by decide, rfl⟩⟩

theorem test_witness_security_commands :
    ∃ (s : State)(f : State → State), (∀ t, f t = if islandError s = none then t else s) :=
  ⟨{}, _, fun _ => rfl⟩

theorem test_witness_seals_tamper_and_sandbox :
    (∃ (s : State)(st : Fin 64), (match Table.get none s.sec.hashing st.val with | some w => (s.toHash st).find? fun (p : PageRec) => p.number == w.number | none => earliestPage (s.toHash st)) = none) ∧
    (∃ (s : State)(st : Fin 64)(work : Option SealPage)(w : SealPage)(p : PageRec)(here : SealPage → State)(line : RingSlot → Bytes), work = Table.get none s.sec.hashing st.val ∧ (match work with | some w => (s.toHash st).find? fun (p : PageRec) => p.number == w.number | none => earliestPage (s.toHash st)) = some p ∧ w = work.getD ⟨p.number, p.firstLine, []⟩ ∧ (∀ x, here x = { s with sec := { s.sec with hashing := Table.set none s.sec.hashing st.val (some x) } }) ∧ (∀ x, line x = if x.undef.isSome then (List.range 32).map x.byte else (List.range 32).map x.byte ++ padTo 32 x.bytes)) ∧
    (∃ (s : State), (s.sec.closedBlocks = [] ∨ s.sec.attest = none ∨ s.sec.withheld = true ∨ s.nat Obj.securityState ≠ 1 ∨ (s.sec.sealIndex = 0 ∧ s.auditRoom = false))) ∧
    (∃ (s : State)(t : State)(u : State)(b : List SealEntry)(rest : List (List SealEntry))(g : Nat)(idx : Nat)(bytes : Bytes)(prev : Bytes), s.sec.closedBlocks = b :: rest ∧ s.sec.attest = some g ∧ s.sec.withheld = false ∧ s.nat Obj.securityState = 1 ∧ idx = s.sec.sealIndex ∧ (idx ≠ 0 ∨ s.auditRoom = true) ∧ t = (if idx = 0 then audit 0x0F .device 0 0 0 (attestKeyBytes g) false s else s) ∧ prev = (if idx = 0 then t.sec.lastChain else t.sec.prevHash) ∧ bytes = sealBlock t g b prev ∧ u = { t with sec := { t.sec with closedBlocks := rest, blocks := ((idx, bytes) :: t.sec.blocks).take 1024, sealIndex := idx + 1, prevHash := Config.sha384 bytes } }) ∧
    (∃ (s : State)(u : State)(inputs : BitVec 4)(sensors : BitVec 8)(bits : Nat), bits = sumNat (((List.range 4).filter fun i => inputs.getLsbD i && bitAt (s.nat (Obj.tamperConfig i)) 15).map fun i => 2 ^ i) + 512 * (sensors.toNat % 8) ∧ u = ({ s with sec := { s.sec with tamperIn := inputs.toNat } } : State).setReg Obj.tamperState (s.nat Obj.tamperState ||| bits : Nat)) ∧
    (∃ (s : State), s.sec.zeroising = []) ∧
    (∃ (s : State)(u : State)(t : Nat)(rest : List Nat), s.sec.zeroising = t :: rest ∧ u = { s with sec := { s.sec with zeroising := rest } }) :=
  ⟨⟨{}, 0, by decide⟩,
   ⟨{ sec := { hashing := [(63, some ⟨3, 6, []⟩)] }, rings := [(63, { records := [(0, some { number := 3, firstLine := 2, opened := false, lines := 4, toSeal := true })], pageNext := 0 })] }, 63, _, _, _, _, _, rfl, rfl, rfl, fun _ => rfl, fun _ => rfl⟩,
   ⟨{}, .inl rfl⟩,
   ⟨({ sec := { closedBlocks := [[]], attest := some 0, sealIndex := 1 } } : State).setReg Obj.securityState 1, _, _, [], [], 0, _, _, _, by decide, by decide, by decide, by decide, rfl, .inl (by decide), rfl, rfl, rfl, rfl⟩,
   ⟨{}, _, 0, 0, _, rfl, rfl⟩,
   ⟨{}, by decide⟩,
   ⟨{ sec := { zeroising := [3] } }, _, 3, [], by decide, rfl⟩⟩

theorem test_witness_resets_and_their_causes :
    (∃ (s : State), s.host.perst = true) ∧
    (∃ (s : State)(u : State), s.host.perst = false ∧ u = { s with host := { s.host with perst := true } }) ∧
    (∃ (s : State), s.host.perst = false) ∧
    (∃ (s : State)(u : State)(v : State), s.host.perst = true ∧ u = { s with host := { s.host with perst := false } } ∧ v = (if s.boot.wake then ({ u with boot := { u.boot with wake := false } } : State).emit (.pin .peWakeN 0 false u.now) else u)) :=
  ⟨⟨{ host := { perst := true } }, by decide⟩,
   ⟨{}, _, by decide, rfl⟩,
   ⟨{}, by decide⟩,
   ⟨{ host := { perst := true } }, _, _, by decide, rfl, rfl⟩⟩

theorem test_witness_boot_sequence :
    (∃ (s : State), (s.mode.booted = false ∨ s.nat Obj.securityState = 2)) ∧
    (∃ (s : State), s.mode.booted = true ∧ s.nat Obj.securityState ≠ 2) ∧
    (∃ (s : State), s.nat Obj.securityState ≠ 0) ∧
    (∃ (s : State)(u : State)(v : State), s.mode = .boot ∧ s.nat Obj.securityState = 0 ∧ s.boot.tested = false ∧ s.mode.booted = true ∧ u = makeAttestation (tellTorn (applyHard (setStage 4 (s.setReg Obj.securityState 1)))) ∧ v = { u with boot := { u.boot with tested := true, toTry := u.slotOrder } }) ∧
    (∃ (s : State), (s.mode ≠ .boot ∨ s.boot.tested = true) ∧ s.mode.booted = true ∧ s.nat Obj.securityState = 0) ∧
    (∃ (s : State)(slot : Fin 2), (s.mode ≠ .boot ∨ s.power.halted = true ∨ s.boot.tested = false ∨ s.boot.peony = true ∨ s.boot.toTry.head? ≠ some slot.val)) ∧
    (∃ (s : State)(slot : Fin 2), s.mode = .boot ∧ s.power.halted = false ∧ s.boot.tested = true ∧ s.boot.peony = false ∧ s.boot.toTry.head? = some slot.val) :=
  ⟨⟨{ mode := .off }, .inl (by decide)⟩,
   ⟨{ mode := .boot }, by decide, by decide⟩,
   ⟨({} : State).setReg Obj.securityState 1, by decide⟩,
   ⟨{ mode := .boot, target := none }, _, _, by decide, by decide, by decide, by decide, rfl, rfl⟩,
   ⟨{ mode := .configure, target := none }, .inl (by decide), by decide, by decide⟩,
   ⟨{}, 0, .inr (.inr (.inl (by decide)))⟩,
   ⟨{ mode := .boot, target := none, boot := { tested := true, toTry := [1] } }, 1, by decide, by decide, by decide, by decide, by decide⟩⟩

theorem test_witness_pins_links_and_ports :
    (∃ (s : State), (s.host.perst = true ∨ s.mode = .off ∨ s.mode = .sentinel)) ∧
    (∃ (s : State)(u : State)(gen : Nat)(width : Nat)(mps : Nat)(mrrs : Nat)(m : Nat), s.host.perst = false ∧ s.mode ≠ .off ∧ s.mode ≠ .sentinel ∧ linkOk gen width = true ∧ m = (if mps = 512 then 512 else if mps = 256 then 256 else 128) ∧ u = { s with host := { s.host with mps := m, mrrs := min 4096 (max 128 mrrs) } }) ∧
    (∃ (s : State)(gen : Nat)(width : Nat), s.host.perst = false ∧ s.mode ≠ .off ∧ s.mode ≠ .sentinel ∧ linkOk gen width = false) ∧
    (∃ (s : State)(st : Fin 64)(line : Nat), (s.recOf st line = none ∨ (∃ r, s.recOf st line = some r ∧ (r.fired = true ∨ s.now < r.sched)))) ∧
    (∃ (s : State)(u : State)(st : Fin 64)(line : Nat)(r : LineRec), s.recOf st line = some r ∧ r.fired = false ∧ r.sched ≤ s.now ∧ u = triggerOut st r.sched (gapRecheck r (updRec st line (fun r => { r with fired := true }) s))) :=
  ⟨⟨{ mode := .off }, .inr (.inl rfl)⟩,
   ⟨{ mode := .configure }, _, 1, 4, 0, 0, _, by decide, by decide, by decide, by decide, rfl, rfl⟩,
   ⟨{ mode := .configure }, 0, 0, by decide, by decide, by decide, by decide⟩,
   ⟨{}, 0, 0, .inl rfl⟩,
   ⟨{ records := [aRecord] }, _, 0, 1, _, rfl, by decide, by decide, rfl⟩⟩

theorem test_witness_step_runs_the_front_command :
    (∃ (s : State) (c : Instr) (rest : List Instr), s.pending = c :: rest) ∧ ∃ (s : State), s.pending = [] :=
  ⟨⟨{ pending := [.syncFire, .lampTest] }, _, _, rfl⟩, ⟨{}, rfl⟩⟩

/-- The state after reset is canonical. -/
theorem reset_canonical : Canonical State.reset := by constructor <;> first | rfl | (unfold Table.rising; decide)

theorem test_witness_every_step_keeps_the_canonical_form : ∃ (s t : State), Canonical s ∧ step s = .next t := ⟨State.reset, _, reset_canonical, rfl⟩

theorem test_witness_every_step_keeps_the_halt : ∃ (s t : State), HaltHeld s ∧ s.power.halted = true ∧ step s = .next t :=
  ⟨{ mode := .safeHalt, target := none, power := { halted := true }, pending := [.syncFire] }, _, fun _ => ⟨rfl, .inl ⟨rfl, rfl⟩⟩, rfl, rfl⟩

theorem test_witness_every_step_keeps_the_queue_well_formed : ∃ (s t : State), QueueWellFormed s ∧ s.pending ≠ [] ∧ step s = .next t :=
  ⟨{ pending := [.syncFire] }, _, fun c h => by simp at h; subst h; rfl, by decide, rfl⟩

theorem test_witness_host_writes_to_bar4_are_dropped : ∃ (s : State), Canonical s := ⟨_, reset_canonical⟩

theorem test_witness_tamper_clear_keeps_asserted_inputs : ∃ (s : State), Canonical s := ⟨_, reset_canonical⟩

theorem test_witness_requests_during_a_transition :
    (∃ (s : State) (role : Nat) (m n : Mode), s.target = some n ∧ s.power.halted = false ∧ s.mode ≠ .safeHalt ∧ m ≠ .safeHalt ∧
      roleMeets role m.role = true) ∧
    (∃ (s : State) (r : Role) (n : Mode), s.target = some n ∧ s.power.halted = false ∧ s.mode ≠ .safeHalt ∧
      roleMeets (roleCode r) 1 = true) ∧
    ∃ (s : State) (r : Role) (n : Mode), s.target = some n ∧ s.power.halted = false ∧ s.mode.booted = true ∧ s.mode ≠ .safeHalt ∧
      roleMeets (roleCode r) 2 = true :=
  ⟨⟨{ mode := .idleReady, target := some .scan }, 1, .hold, .scan, by decide⟩,
   ⟨{ mode := .idleReady, target := some .scan }, .operator, .scan, by decide⟩,
   ⟨{ mode := .idleReady, target := some .scan }, .integrator, .scan, by decide⟩⟩

end Sys2Proof.Machine
end

section
/-! PROOFS. Reset (R44, R603); trigger records (R18 to R20). -/
namespace Sys2Proof.Machine

/-! ### The commands by their meaning -/

theorem exec_lineArrived (s : State) (src : Source) (seq : BitVec 32) (portion : Fin 9) (pixels : Nat) :
    exec (.lineArrived src seq portion pixels) s = execLineArrived src seq portion pixels s := rfl
theorem exec_recordClose (s : State) (st : Fin 64) (line : Nat) : exec (.recordClose st line) s = execRecordClose st line s := rfl

/-- Settles O2: the state after reset is the one whose every table is empty, and an empty table reads as its default. -/
theorem resetHoldsTheDefaults : Obligations.ResetHoldsTheDefaults :=
  ⟨fun _ => rfl, rfl, rfl, rfl, rfl, rfl, rfl, fun _ => rfl, fun _ => rfl, fun _ => rfl, fun _ => rfl⟩

/-! ### Portions that match no record -/

/-- A portion that matches no record is told once: the block remembers it (R18). -/
theorem unmatched_new {kind num seq : Nat} {s : State} (new : s.strays.contains (kind, num, seq) = false)
    (due : ∀ st k, s.streamOfSource kind num = some (st, k) → (s.strm st).ignored.contains seq = false) :
    unmatched kind num seq s =
      ({ s with strays := ((kind, num, seq) :: s.strays).take 64 }.count Obj.unmatchedLines).raise .unmatchedLine [kind, num, seq] := by
  unfold unmatched
  dsimp only
  rw [new, Bool.or_false]
  cases source : s.streamOfSource kind num with
  | none => rfl
  | some p => simp only [due p.1 p.2 source, Bool.false_eq_true, if_false]

/-- A portion already told, or of a line its stream withheld, changes nothing (R18, R212). -/
theorem unmatched_known {kind num seq : Nat} {s : State}
    (known : s.strays.contains (kind, num, seq) = true ∨
      ∃ st k, s.streamOfSource kind num = some (st, k) ∧ (s.strm st).ignored.contains seq = true) :
    unmatched kind num seq s = s := by
  unfold unmatched
  dsimp only
  rcases known with told | ⟨st, k, source, withheld⟩
  · rw [told, Bool.or_true, if_pos rfl]
  · simp only [source, withheld, Bool.true_or, if_true]

theorem exec_lineArrived_unmatched {s : State} {src : Source} {seq : BitVec 32} {portion : Fin 9} {pixels : Nat}
    (stray : s.matchLine (srcKind src) (srcNum src) seq.toNat = none) :
    exec (.lineArrived src seq portion pixels) s = .next (unmatched (srcKind src) (srcNum src) seq.toNat s) := by
  simp only [exec_lineArrived, execLineArrived, stray]

/-! ### The close of a record (R19, R20) -/

/-- A record whose close instant has come with a portion missing: deferred while a LANE_ID it awaits recovers, else LOST. -/
theorem exec_recordClose_due {s : State} {st : Fin 64} {line : Nat} {r : LineRec} (found : s.recOf st line = some r)
    (due : r.closeAt ≤ s.now) (missing : r.parts.any Part.open? = true) :
    exec (.recordClose st line) s =
      .next (if s.deferClose r then updRec st line (fun x => { x with deferred := true }) s else loseRec r s) := by
  simp [exec_recordClose, execRecordClose, found, Nat.not_lt.mpr due, missing]

theorem exec_recordClose_stays {s : State} {st : Fin 64} {line : Nat}
    (h : ∀ r, s.recOf st line = some r → s.now < r.closeAt ∨ r.parts.any Part.open? = false) :
    exec (.recordClose st line) s = .next s := by
  simp only [exec_recordClose, execRecordClose]
  cases found : s.recOf st line with
  | none => rfl
  | some r => rcases h r found with early | complete <;> simp [*]

/-- Settles O11, by whether the portion matches a record, and by the close instant and the portions of the record. -/
theorem linesMeetTheirRecords : Obligations.LinesMeetTheirRecords := by
  unfold Obligations.LinesMeetTheirRecords
  refine ⟨?counted, ?told, ?known, ?lost, ?deferred, ?stays, fun _ _ => rfl⟩
  case counted =>
    intro s src seq portion pixels st k r found
    simp only [exec_lineArrived, execLineArrived, found, updRec]
  case told =>
    intro s src seq portion pixels stray new due
    rw [exec_lineArrived_unmatched stray, unmatched_new new due]
  case known =>
    intro s src seq portion pixels stray known
    rw [exec_lineArrived_unmatched stray, unmatched_known known]
  case lost =>
    intro s st line r found due missing final
    rw [exec_recordClose_due found due missing, final]; rfl
  case deferred =>
    intro s st line r found due missing recovers
    rw [exec_recordClose_due found due missing, recovers]; rfl
  case stays => exact fun s st line h => exec_recordClose_stays h

end Sys2Proof.Machine
end

section
/-! PROOFS. Accepted groups enter (R23, R25, R28), reports are decided (R33 to R35). -/
namespace Sys2Proof.Machine

/-! ### The commands by their meaning -/

theorem exec_commitEnter (s : State) (id : Nat) (st : Option (Fin 64)) : exec (.commitEnter id st) s = execCommitEnter id st s := rfl
theorem exec_arbiterDecision (s : State) : exec .arbiterDecision s = execArbiterDecision s := rfl

/-- A group with boundary S enters once its instant has come (R382). -/
theorem exec_commitEnter_sync {s : State} {id : Nat} {st : Option (Fin 64)} {g : CommitGroup}
    (found : (s.groupsWaiting.find? fun w => w.id == id) = some g) (sync : g.boundary = 4) :
    exec (.commitEnter id st) s = .next (if g.applyAt.any (· ≤ s.now) then enterPlain g s else s) := by
  simp only [exec_commitEnter, execCommitEnter, found, sync]
  cases g.applyAt <;> simp

/-- A group with boundary M does not enter a stream (R23). -/
theorem exec_commitEnter_mode {s : State} {id : Nat} {st : Option (Fin 64)} {g : CommitGroup}
    (found : (s.groupsWaiting.find? fun w => w.id == id) = some g) (mode : g.boundary = 0) :
    exec (.commitEnter id st) s = .next s := by
  simp only [exec_commitEnter, execCommitEnter, found, mode]

/-- A group enters a stream of its own where it is the first that waits for the stream, and the stream is closed or stands at the
group's boundary (R25, R28). -/
theorem exec_commitEnter_stream {s : State} {id : Nat} {st : Fin 64} {g : CommitGroup}
    (found : (s.groupsWaiting.find? fun w => w.id == id) = some g) (mode : g.boundary ≠ 0) (sync : g.boundary ≠ 4) :
    exec (.commitEnter id (some st)) s = .next (if g.streams.contains st.val = true ∧
        ((s.groupsWaiting.find? fun w => w.streams.contains st.val && 1 ≤ w.boundary && w.boundary ≤ 3).map CommitGroup.id) = some id ∧
        (!s.streamOpen? st || s.boundaryAt st g.boundary) = true
      then enterStream g st s else s) := by
  simp only [exec_commitEnter, execCommitEnter, found, Bool.and_eq_true, beq_iff_eq, and_assoc]

/-- Settles O12, by the boundary of the group and, for a stream boundary, by the conditions to enter. -/
theorem groupsEnterAndReportsAreDecided : Obligations.GroupsEnterAndReportsAreDecided := by
  unfold Obligations.GroupsEnterAndReportsAreDecided
  refine ⟨?notThere, ?due, ?early, ?enters, ?waits, ?all, ?decides, ?idle⟩
  case notThere => intro s id st missing; simp only [exec_commitEnter, execCommitEnter, missing]
  case due =>
    intro s id t st g found sync at_ due
    rw [exec_commitEnter_sync found sync, at_, Option.any_some, decide_eq_true due, if_pos rfl]
  case early =>
    intro s id st g found sync early
    rw [exec_commitEnter_sync found sync, if_neg]
    rw [Option.any_eq_true]
    rintro ⟨t, at_, due⟩
    exact absurd (early t at_) (Nat.not_lt.mpr (of_decide_eq_true due))
  case enters =>
    intro s id st g found mode sync own first stands
    rw [exec_commitEnter_stream found mode sync, if_pos ⟨own, first, stands⟩]
  case waits =>
    intro s id st g found sync waits
    by_cases mode : g.boundary = 0
    · exact exec_commitEnter_mode found mode
    · rw [exec_commitEnter_stream found mode sync, if_neg]
      rintro ⟨own, first, stands⟩
      rcases waits with zero | other | later | away
      · exact mode zero
      · exact Bool.noConfusion (own.symm.trans other)
      · exact later first
      · exact Bool.noConfusion (stands.symm.trans away)
  case all => intro s id g found mode sync; simp only [exec_commitEnter, execCommitEnter, found]
  case decides => intro s r first; simp only [exec_arbiterDecision, execArbiterDecision, first]
  case idle => intro s empty; simp only [exec_arbiterDecision, execArbiterDecision, empty]

end Sys2Proof.Machine
end

section
/-! PROOFS. Crossing queues (R38 to R43, R622). -/
namespace Sys2Proof.Machine

/-! ### The commands by their meaning -/

theorem exec_queuePointer (s : State) (q : Fin 1024) : exec (.queuePointer q) s = execQueuePointer q s := rfl
theorem exec_queueFlush (s : State) : exec .queueFlush s = execQueueFlush s := rfl
theorem exec_flushDrainEnd (s : State) (q : Fin 1024) : exec (.flushDrainEnd q) s = execFlushDrainEnd q s := rfl

/-- A queue where none waits takes a single write whose handshake completes. -/
theorem Queue.settle_lone_taken (q : Nat) (x : Queue) (w : QWrite) (idle : x.waiting = []) (room : x.takes q w = true) :
    Queue.settle q 1 { x with waiting := [w] } = x.take w := by
  rw [Queue.settle_single q { x with waiting := [w] } w rfl room]
  cases x; cases idle; rfl

/-- A queue where none waits leaves a single write waiting whose handshake does not complete. -/
theorem Queue.settle_lone_waits (q : Nat) (x : Queue) (w : QWrite) (full : x.takes q w = false) :
    Queue.settle q 1 { x with waiting := [w] } = { x with waiting := [w] } :=
  Queue.settle_stuck q 1 _ fun _ _ e => by cases e; exact full

theorem Queue.takes_of_room {q : Nat} {x : Queue} {w : QWrite} (runs : x.resetting = false) (room : w.words ≤ x.room q w.cls) :
    x.takes q w = true := by
  simp [Queue.takes, runs, room]

theorem Queue.takes_of_draining {q : Nat} {x : Queue} {w : QWrite} (runs : x.resetting = false) (drains : x.draining = true) :
    x.takes q w = true := by
  simp [Queue.takes, runs, drains]

theorem Queue.not_takes {q : Nat} {x : Queue} {w : QWrite}
    (h : x.resetting = true ∨ (x.draining = false ∧ x.room q w.cls < w.words)) : x.takes q w = false := by
  rcases h with resets | ⟨keeps, full⟩
  · simp [Queue.takes, resets]
  · simp [Queue.takes, keeps, full]

theorem Queue.take_draining {x : Queue} (w : QWrite) (h : x.draining = true) : x.take w = { x with draining := !w.last } := by
  simp [Queue.take, h]

theorem Queue.take_bad {x : Queue} {w : QWrite} (h : x.draining = false) (bad : w.bad = true) :
    x.take w = { x with openWords := 0, openLine := none } := by
  simp [Queue.take, h, bad]

theorem Queue.take_last {x : Queue} {w : QWrite} (h : x.draining = false) (good : w.bad = false) (last : w.last = true) :
    x.take w = { x with openWords := 0, openLine := none, items := x.items ++ [⟨w.cls, x.openWords + w.words, w.line⟩] } := by
  simp [Queue.take, h, good, last]

theorem Queue.take_opening {x : Queue} {w : QWrite} (h : x.draining = false) (good : w.bad = false) (more : w.last = false) :
    x.take w = { x with openWords := x.openWords + w.words, openLine := w.line } := by
  simp [Queue.take, h, good, more]

section
variable {s : State} {q : Fin 1024} {cls : Fin 4} {words : Nat} {last bad : Bool} {line : Option (Fin 64 × Nat)} {w : QWrite}

/-- The words of a write go behind those that wait, and the queue takes what it can (R38). -/
theorem exec_queueWrite (hw : w = ⟨cls, words, last, bad, line.map fun l => (l.1.val, l.2)⟩) :
    exec (.queueWrite q cls words last bad line) s =
      .next (queueTurn q (fun x => { x with waiting := x.waiting ++ [w] }) s) := by
  subst hw; rfl

theorem exec_queueWrite_taken (hw : w = ⟨cls, words, last, bad, line.map fun l => (l.1.val, l.2)⟩)
    (idle : (s.queue q).waiting = []) (room : (s.queue q).takes q w = true) :
    exec (.queueWrite q cls words last bad line) s = .next (queueWeirEval q (s.setQueue q ((s.queue q).take w))) := by
  rw [exec_queueWrite hw, ← Queue.settle_lone_taken q _ w idle room]
  simp only [queueTurn, idle, List.nil_append, List.length_singleton]

theorem exec_queueWrite_waits (hw : w = ⟨cls, words, last, bad, line.map fun l => (l.1.val, l.2)⟩)
    (idle : (s.queue q).waiting = []) (full : (s.queue q).takes q w = false) :
    exec (.queueWrite q cls words last bad line) s =
      .next (queueWeirEval q (s.setQueue q { s.queue q with waiting := [w] })) := by
  rw [exec_queueWrite hw, ← Queue.settle_lone_waits q _ w full]
  simp only [queueTurn, idle, List.nil_append, List.length_singleton]

end

/-- A turn that leaves the queue resetting lets no waiting write complete. -/
theorem queueTurn_resetting {q : Nat} {f : Queue → Queue} {s : State} (h : (f (s.queue q)).resetting = true) :
    queueTurn q f s = queueWeirEval q (s.setQueue q (f (s.queue q))) := by
  rw [queueTurn, Queue.settle_resetting _ _ _ h]

/-- Settles O13: each write where none waits is a single one that the queue takes or leaves waiting. -/
theorem crossingQueuesFollowTheirRules : Obligations.CrossingQueuesFollowTheirRules := by
  unfold Obligations.CrossingQueuesFollowTheirRules
  refine ⟨?behind, ?waits, ?last, ?opens, ?bad, ?drains, ?pointer, ?flush, ?noFlush, ?drainEnds, ?domainsFollow⟩
  case behind => rintro s q cls words last bad line _ rfl; exact exec_queueWrite rfl
  case waits =>
    intro s q cls words last bad line idle stuck
    exact exec_queueWrite_waits rfl idle (Queue.not_takes stuck)
  case last =>
    intro s q cls words line idle runs keeps room
    rw [exec_queueWrite_taken rfl idle (Queue.takes_of_room runs room), Queue.take_last keeps rfl rfl]
  case opens =>
    intro s q cls words line idle runs keeps room
    rw [exec_queueWrite_taken rfl idle (Queue.takes_of_room runs room), Queue.take_opening keeps rfl rfl]
  case bad =>
    intro s q cls words last line idle runs keeps room
    rw [exec_queueWrite_taken rfl idle (Queue.takes_of_room runs room), Queue.take_bad keeps rfl]
  case drains =>
    intro s q cls words last bad line idle runs drains
    rw [exec_queueWrite_taken rfl idle (Queue.takes_of_draining runs drains), Queue.take_draining _ drains]
  case pointer =>
    rintro s _ q _ rfl rfl
    simp only [exec_queuePointer, execQueuePointer]
    rw [queueTurn_resetting rfl]
  case flush =>
    rintro s _ _ maintenance rfl rfl
    simp [exec_queueFlush, execQueueFlush, maintenance, flushQueue, queueTurn]
  case noFlush =>
    intro s other
    simp [exec_queueFlush, execQueueFlush, other]
  case drainEnds =>
    rintro s q _ rfl unbooted
    simp [exec_flushDrainEnd, execFlushDrainEnd, unbooted, queueTurn]
  case domainsFollow =>
    rintro s _ q _ rfl booted rfl
    simp [exec_flushDrainEnd, execFlushDrainEnd, booted, queueTurn]

end Sys2Proof.Machine
end

section
/-! PROOFS. What comes back from a camera (R133, R143, R148, R149, R164 to R167, R171). -/
namespace Sys2Proof.Machine

/-! ### The commands by their meaning -/

theorem exec_ctlResp (s : State) (g : Fin 96) (h : CamHdr) (address : BitVec 32) (tag : BitVec 16) (status : BitVec 8) (data : Bytes) :
    exec (.ctlResp g h address tag status data) s = execCtlResp g h address tag status data s := rfl
theorem exec_trigReject (s : State) (g : Fin 96) (h : CamHdr) (seq : BitVec 32) (reason : BitVec 16) :
    exec (.trigReject g h seq reason) s = execTrigReject g h seq reason s := rfl
theorem exec_cancelDone (s : State) (g : Fin 96) (h : CamHdr) (arg : BitVec 32) :
    exec (.cancelDone g h arg) s = execCancelDone g h arg s := rfl
theorem exec_cameraEvent (s : State) (g : Fin 96) (h : CamHdr) (code reason : BitVec 16) (arg : BitVec 32) :
    exec (.cameraEvent g h code reason arg) s = execCameraEvent g h code reason arg s := rfl
theorem exec_ctlTimeout (s : State) (g : Fin 96) : exec (.ctlTimeout g) s = execCtlTimeout g s := rfl

section
variable {s u : State} {g : Fin 96} {h : CamHdr}

/-! ### A message whose PSN is in turn -/

theorem exec_ctlResp_taken {address : BitVec 32} {tag : BitVec 16} {status : BitVec 8} {data : Bytes} (taken : acceptHdr g h s = (u, true)) :
    exec (.ctlResp g h address tag status data) s = .next (ctlRespTaken g address.toNat tag.toNat status.toNat data u) := by
  simp [exec_ctlResp, execCtlResp, taken]

theorem exec_trigReject_taken {seq : BitVec 32} {reason : BitVec 16} (taken : acceptHdr g h s = (u, true)) :
    exec (.trigReject g h seq reason) s = .next (trigRejected g seq.toNat reason.toNat u) := by
  simp [exec_trigReject, execTrigReject, taken]

theorem exec_cancelDone_taken {arg : BitVec 32} (taken : acceptHdr g h s = (u, true)) :
    exec (.cancelDone g h arg) s = .next (cancelDone g arg.toNat u) := by
  simp [exec_cancelDone, execCancelDone, taken]

end

/-! ### An answer to a register access (R164, R165) -/

/-- An answer with another tag or address than the open access changes nothing. -/
theorem ctlRespTaken_other {s : State} {g address tag status : Nat} {data : Bytes}
    (other : ∀ c, (s.group g).access = some c → c.tag ≠ tag ∨ c.address ≠ address) :
    ctlRespTaken g address tag status data s = s := by
  unfold ctlRespTaken
  cases access : (s.group g).access with
  | none => rfl
  | some c => simp [other c access]

/-- An answer to an access of the block's own ends it. -/
theorem ctlRespTaken_own {s : State} {g status : Nat} {data : Bytes} {c : CtlAccess}
    (access : (s.group g).access = some c) (own : c.proxy = false) :
    ctlRespTaken g c.address c.tag status data s = endAccess g s := by
  simp [ctlRespTaken, access, own]

/-- An answer to a proxy access holds its data and its status, and ends it (R171). -/
theorem ctlRespTaken_proxy {s : State} {g status : Nat} {data : Bytes} {c : CtlAccess}
    (access : (s.group g).access = some c) (proxy : c.proxy = true) :
    ctlRespTaken g c.address c.tag status data s =
      endAccess g ((if c.write = false ∧ status = 0 then s.updGroup g fun x => { x with camRegData := data } else s).setReg
        (Obj.camRegStatus g) (if status = 0 then 2 else 4 + status : Nat)) := by
  simp [ctlRespTaken, access, proxy]

/-! ### An access without an answer (R166) -/

theorem exec_ctlTimeout_due {s : State} {g : Fin 96} {c : CtlAccess} (access : (s.group g).access = some c) (due : c.sent + ms 1 ≤ s.now) :
    exec (.ctlTimeout g) s = .next (if c.attempts < 3 then sendCtlReq g c s
      else endAccess g ((if c.proxy then s.setReg (Obj.camRegStatus g) 3 else s).raiseFault .ctlTimeout [g] Kind.ctlTimeout 2 g 1
        (islandOf 2 ((if c.proxy then s.setReg (Obj.camRegStatus g) 3 else s).ctlLane g)))) := by
  simp only [exec_ctlTimeout, execCtlTimeout, access, if_neg (Nat.not_lt.mpr due)]

theorem exec_ctlTimeout_early {s : State} {g : Fin 96} (early : ∀ c, (s.group g).access = some c → s.now < c.sent + ms 1) :
    exec (.ctlTimeout g) s = .next s := by
  simp only [exec_ctlTimeout, execCtlTimeout]
  cases access : (s.group g).access with
  | none => rfl
  | some c => simp only [if_pos (early c access)]

/-- Settles O21, by whether the message is in turn, and by the open access, the cancellations and the attempts. -/
theorem cameraAnswers : Obligations.CameraAnswers := by
  unfold Obligations.CameraAnswers
  refine ⟨?again, ?freed, ?other, ?own, ?proxy, ?dropped, ?resent, ?ends, ?early, ?rejected, fun _ _ _ => rfl, ?event, ?noCancel, ?cancel⟩
  case again => exact fun s g body negative => congrArg Host.Outcome.next (if_pos negative)
  case freed => exact fun s g body positive => congrArg Host.Outcome.next (if_neg (Bool.eq_false_iff.mp positive))
  case other =>
    intro s u g h address tag status data taken other
    rw [exec_ctlResp_taken taken, ctlRespTaken_other other]
  case own =>
    intro s u g h address tag status data c taken access sameTag sameAddress own
    rw [exec_ctlResp_taken taken, ← sameTag, ← sameAddress, ctlRespTaken_own access own]
  case proxy =>
    rintro s u _ g h address tag status data c taken access sameTag sameAddress proxy rfl
    rw [exec_ctlResp_taken taken, ← sameTag, ← sameAddress, ctlRespTaken_proxy access proxy]
  case dropped =>
    intro s u g h address seq arg tag reason code status data dropped
    simp [exec_ctlResp, execCtlResp, exec_trigReject, execTrigReject, exec_cancelDone, execCancelDone, exec_cameraEvent, execCameraEvent, dropped]
  case resent =>
    intro s g c access due left
    rw [exec_ctlTimeout_due access due, if_pos left]
  case ends =>
    rintro s _ g c access due spent rfl
    rw [exec_ctlTimeout_due access due, if_neg (Nat.not_lt.mpr spent)]
  case early => exact fun s g early => exec_ctlTimeout_early early
  case rejected =>
    rintro s u _ g h seq reason taken rfl
    rw [exec_trigReject_taken taken]
    rfl
  case event =>
    intro s u g h code reason arg taken
    simp only [exec_cameraEvent, execCameraEvent, taken]
    by_cases low : code.toNat < 0x100
    · simp [low]
    · simp [low, Nat.not_lt.mp low]
  case noCancel =>
    intro s u g h arg taken noneOpen
    rw [exec_cancelDone_taken taken, cancelDone, noneOpen]
  case cancel =>
    rintro s u _ g h arg first last rest _ _ taken oldest rfl rfl rfl
    rw [exec_cancelDone_taken taken, cancelDone, oldest]

end Sys2Proof.Machine
end

section
/-! PROOFS. The pixel pipeline (R30, R212, R213, R217, R225, R251, R413, R414). -/
namespace Sys2Proof.Machine

/-! ### The commands by their meaning -/

theorem exec_segmentArrives (s : State) (st : Fin 64) : exec (.segmentArrives st) s = execSegmentArrives st s := rfl
theorem exec_segmentDeal (s : State) : exec .segmentDeal s = execSegmentDeal s := rfl
theorem exec_segmentComplete (s : State) (k : Fin 68) (residue : Bool) (u c : List Nat) :
    exec (.segmentComplete k residue u c) s = execSegmentComplete k residue u c s := rfl
theorem exec_sliceBist (s : State) (k : Fin 68) (pass : Bool) : exec (.sliceBist k pass) s = execSliceBist k pass s := rfl
theorem exec_coefRowRewrite (s : State) (row : Nat) : exec (.coefRowRewrite row) s = execCoefRowRewrite row s := rfl
theorem exec_streamOpen (s : State) (st : Fin 64) : exec (.streamOpen st) s = .next (writeStreamEnable st true s) := rfl
theorem exec_streamClose (s : State) (st : Fin 64) : exec (.streamClose st) s = .next (writeStreamEnable st false s) := rfl

/-- With no segment that may go, no slice that can take it, or no open record of it, nothing is dealt. -/
theorem exec_segmentDeal_idle {s : State}
    (idle : ∀ g rest, (s.crossbar.filter fun x => x.cls == 0 && s.dealable x) ++
        (s.crossbar.filter fun x => x.cls != 0 && s.dealable x) = g :: rest →
      s.pickSlice g.cls = none ∨ s.recOf g.stream g.line = none) :
    exec .segmentDeal s = .next s := by
  simp only [exec_segmentDeal, execSegmentDeal]
  split
  · rfl
  · rename_i g rest first
    rcases idle g rest first with busy | closed
    · simp only [busy]
    · cases pick : s.pickSlice g.cls <;> simp only [closed]

/-! ### StreamEnable (R212, R413, R414, R610, R774) -/

section
variable {s : State} {st : Nat} {v : Bool}

theorem writeStreamEnable_refused (mode : s.streamWrite = .refused) : writeStreamEnable st v s = s := by
  simp [writeStreamEnable, streamWriteError, mode]

/-- An opening that is not possible is tried only, so that R414's event is told. -/
theorem writeStreamEnable_unopenable (mode : s.streamWrite = .now) (closed : s.streamOpen? st = false) (barred : s.openable st = false) :
    writeStreamEnable st true s = tryOpen st s := by
  simp [writeStreamEnable, streamWriteError, mode, closed, barred]

theorem writeStreamEnable_opens (mode : s.streamWrite = .now) (possible : ¬(s.streamOpen? st = false ∧ s.openable st = false)) :
    writeStreamEnable st true s = domainsFollow s.mode (tryOpen st (s.setReg (Obj.streamEnable st) 1)) := by
  simp [writeStreamEnable, streamWriteError, mode, possible, b2n]

theorem writeStreamEnable_closes (mode : s.streamWrite = .now) :
    writeStreamEnable st false s = closeStream st (s.setReg (Obj.streamEnable st) 0) := by
  simp [writeStreamEnable, streamWriteError, mode, b2n]

theorem writeStreamEnable_held (mode : s.streamWrite = .hold) :
    writeStreamEnable st v s = (s.setReg (Obj.streamEnable st) (b2n v)).updStrm st fun x => { x with heldOpen := some v } := by
  simp [writeStreamEnable, streamWriteError, mode]

theorem writeStreamEnable_later (mode : s.streamWrite = .later) : writeStreamEnable st v s = s.setReg (Obj.streamEnable st) (b2n v) := by
  simp [writeStreamEnable, streamWriteError, mode]

end

/-- Settles O25, by what waits in ingest, crossbar and slices, and by what the mode makes of a write of StreamEnable. -/
theorem pixelPipelineSteps : Obligations.PixelPipelineSteps := by
  unfold Obligations.PixelPipelineSteps
  refine ⟨?arrives, ?noneIngest, ?dealt, ?noneDealt, ?sliceIdle, ?residue, ?closed, ?corrected, ?testIdle, ?tested, ?rewritten,
    ?refused, ?now, ?hold, ?later⟩
  case arrives =>
    rintro s _ st g first rfl
    simp only [exec_segmentArrives, execSegmentArrives, first]
  case noneIngest =>
    intro s st empty
    simp only [exec_segmentArrives, execSegmentArrives, empty]
  case dealt =>
    rintro s _ g rest k r first free found rfl
    simp only [exec_segmentDeal, execSegmentDeal, first, free, found]
  case noneDealt => exact fun s idle => exec_segmentDeal_idle idle
  case sliceIdle =>
    intro s k bad u c idle
    simp only [exec_segmentComplete, execSegmentComplete]
    rcases idle with free | faulted
    · simp only [free]
    · cases (s.slice k).current <;> simp [faulted]
  case residue =>
    intro s k u c g current sound
    simp only [exec_segmentComplete, execSegmentComplete, current, sound, Bool.false_eq_true, if_false, if_true]
  case closed =>
    intro s k u c g current sound closed
    simp only [exec_segmentComplete, execSegmentComplete, current, sound, closed, Bool.false_eq_true, if_false]
  case corrected =>
    rintro s _ k u c _ _ g r _ current sound found rfl rfl rfl rfl
    simp only [exec_segmentComplete, execSegmentComplete, current, sound, found, Bool.false_eq_true, if_false] <;> rfl
  case testIdle =>
    intro s k pass idle
    simp only [exec_sliceBist, execSliceBist]
    rcases idle with other | replays
    · simp [other]
    · simp [replays]
  case tested =>
    intro s k pass testing still
    simp [exec_sliceBist, execSliceBist, testing, still]
  case rewritten =>
    intro s row
    simp [exec_coefRowRewrite, execCoefRowRewrite]
  case refused =>
    intro s st mode
    simp only [exec_streamOpen, exec_streamClose, writeStreamEnable_refused mode, and_self]
  case now =>
    intro s st mode
    refine ⟨?_, ?_⟩
    · simp only [exec_streamOpen]
      split
      · next h => rw [writeStreamEnable_unopenable mode h.1 h.2]
      · next h => rw [writeStreamEnable_opens mode h]
    · simp only [exec_streamClose, writeStreamEnable_closes mode]
  case hold =>
    intro s st mode
    simp only [exec_streamOpen, exec_streamClose, writeStreamEnable_held mode]
    exact ⟨rfl, rfl⟩
  case later =>
    intro s st mode
    simp only [exec_streamOpen, exec_streamClose, writeStreamEnable_later mode]
    exact ⟨rfl, rfl⟩

end Sys2Proof.Machine
end

section
/-! PROOFS. Calibration commands (R31, R256, R257, R259, R261, R263, R264, R272 to R274, R280). -/
namespace Sys2Proof.Machine

/-! ### The commands by their meaning -/

theorem exec_captureStart (s : State) (st : Fin 64) : exec (.captureStart st) s = execCaptureStart st s := rfl
theorem exec_captureComplete (s : State) (st : Fin 64) : exec (.captureComplete st) s = execCaptureComplete st s := rfl
theorem exec_deriveDone (s : State) (st : Fin 64) : exec (.deriveDone st) s = execDeriveDone st s := rfl
theorem exec_calDark (s : State) (st : Fin 64) : exec (.calDark st) s = .next (calCommand st 1 s) := rfl
theorem exec_calWhite (s : State) (st : Fin 64) : exec (.calWhite st) s = .next (calCommand st 2 s) := rfl
theorem exec_calGapDark (s : State) (st : Fin 64) : exec (.calGapDark st) s = .next (calCommand st 3 s) := rfl
theorem exec_calGapWhite (s : State) (st : Fin 64) : exec (.calGapWhite st) s = .next (calCommand st 4 s) := rfl
theorem exec_calDerive (s : State) (st : Fin 64) : exec (.calDerive st) s = .next (calCommand st 5 s) := rfl

/-! ### What a command code does (R256, R257) -/

section
variable {s : State} {st code : Nat}

theorem calCommand_busy (notAbort : code ≠ 6) (busy : (s.calib st).busy = true) :
    calCommand st code s = s.raise .calBusy [st, code] := by
  rw [calCommand, if_neg notAbort, if_pos busy]

theorem calCommand_wrongMode (notAbort : code ≠ 6) (idle : (s.calib st).busy = false) (mode : calModes code s.mode = false) :
    calCommand st code s = s := by
  simp [calCommand, notAbort, idle, mode]

theorem calCommand_derives (idle : (s.calib st).busy = false) (mode : calModes 5 s.mode = true) :
    calCommand st 5 s = s.updCalib st fun c => { c with kind := 5, result := 0, state := .deriving_ } := by
  simp [calCommand, idle, mode]

theorem calCommand_arms (capture : code < 5) (idle : (s.calib st).busy = false) (mode : calModes code s.mode = true) :
    calCommand st code s = if s.groupsFull st then s else armCapture st code s := by
  simp [calCommand, idle, mode, Nat.ne_of_lt capture, show code ≠ 6 by omega]

end

/-! ### The end of a capture (R261) -/

/-- A capture some of whose phases lack lines goes on. -/
theorem exec_captureComplete_early {s : State} {st : Fin 64}
    (early : (s.calib st).state ≠ .capturing ∨
      ∃ ph ∈ s.phasesIn st (s.calib st).mask, (Table.get {} (s.calib st).work ph).lines < (s.calib st).lines) :
    exec (.captureComplete st) s = .next s := by
  simp only [exec_captureComplete, execCaptureComplete]
  rw [if_pos]
  rcases early with other | ⟨ph, mine, short⟩
  · simp [other]
  · have notAll : ((s.phasesIn st (s.calib st).mask).all fun ph =>
        decide ((s.calib st).lines ≤ (Table.get {} (s.calib st).work ph).lines)) = false :=
      List.all_eq_false.mpr ⟨ph, mine, by simpa using short⟩
    rw [notAll]
    exact Bool.or_true _

/-- Settles O26, by the command's code and the mode, and by the state of the capture or the derivation. -/
theorem calibrationCommands : Obligations.CalibrationCommands := by
  unfold Obligations.CalibrationCommands
  refine ⟨?busy, ?notCalibrate, ?notScan, ?notDerive, ?arms, ?armsGap, ?derives, fun _ _ => rfl, ?group, ?warm, ?completes, ?early,
    ?notDeriving, ?fails, ?done⟩
  case busy =>
    intro s st busy
    simp only [exec_calDark, exec_calWhite, exec_calGapDark, exec_calGapWhite, exec_calDerive]
    refine ⟨?_, ?_, ?_, ?_, ?_⟩ <;> rw [calCommand_busy (by decide) busy] <;> rfl
  case notCalibrate =>
    intro s st idle other
    simp only [exec_calDark, exec_calWhite]
    refine ⟨?_, ?_⟩ <;> rw [calCommand_wrongMode (by decide) idle (by simp [calModes, other])]
  case notScan =>
    intro s st idle notScan notStream
    simp only [exec_calGapDark, exec_calGapWhite]
    refine ⟨?_, ?_⟩ <;> rw [calCommand_wrongMode (by decide) idle (by simp [calModes, notScan, notStream])]
  case notDerive =>
    intro s st idle notReady notCalibrate notScan notStream
    simp only [exec_calDerive]
    rw [calCommand_wrongMode (by decide) idle (by simp [calModes, notReady, notCalibrate, notScan, notStream])]
  case arms =>
    intro s st mode idle
    simp only [exec_calDark, exec_calWhite]
    refine ⟨?_, ?_⟩ <;> rw [calCommand_arms (by decide) idle (by simp [calModes, mode])]
  case armsGap =>
    intro s st mode idle
    simp only [exec_calGapDark, exec_calGapWhite]
    refine ⟨?_, ?_⟩ <;> rw [calCommand_arms (by decide) idle (by simpa [calModes] using mode)]
  case derives =>
    intro s st mode idle
    simp only [exec_calDerive]
    rw [calCommand_derives idle (by simpa [calModes, or_assoc] using mode)]
  case group =>
    intro s st g group
    simp only [exec_captureStart, execCaptureStart, group, Bool.and_eq_true, Bool.or_eq_true, Bool.not_eq_true', beq_iff_eq]
  case warm =>
    intro s st noGroup
    simp only [exec_captureStart, execCaptureStart, noGroup, Bool.and_eq_true, beq_iff_eq, and_assoc]
  case completes =>
    rintro s st _ _ capturing complete rfl rfl
    simp only [exec_captureComplete, execCaptureComplete, capturing, complete, Calib.white?, Bool.or_eq_true, beq_iff_eq]
    rfl
  case early => exact fun s st early => exec_captureComplete_early early
  case notDeriving =>
    intro s st other
    simp [exec_deriveDone, execDeriveDone, other]
  case fails =>
    rintro s _ st deriving_ fails rfl
    simp [exec_deriveDone, execDeriveDone, deriving_, fails]
  case done =>
    rintro s _ _ st _ deriving_ ok rfl rfl rfl
    simp only [exec_deriveDone, execDeriveDone, deriving_, ok, bne_self_eq_false, decide_true, Bool.true_or, ne_eq, not_true_eq_false,
      Bool.false_eq_true, if_true, if_false, Bool.not_eq_true']
    rfl

end Sys2Proof.Machine
end

section
/-! PROOFS. Writing requests (R26, R27, R553, R560, R562, R563). -/
namespace Sys2Proof.Machine

/-! ### What a WRITE answers (R560) -/

/-- A WRITE names the row `r`, in a group the row may be in, and its bytes fit: only its value is left to look at. -/
structure Ask.Fits (a : Ask) (r : Row) (s : State) : Prop where
  entry : a.entry false s = .ok (.row r)
  group : a.q.byte 3 ≤ 15
  writable : r.access ≠ .ro
  grouped : a.q.byte 3 = 0 ∨ r.access = .st
  plain : r.ty ≠ .domain
  short : (a.q.payload.drop 4).length ≤ 1440

/-- Such a WRITE brings a number, and no transfer of its entry to the Penori is open. -/
structure Ask.Brings (a : Ask) (r : Row) (v : Int) (s : State) : Prop extends a.Fits r s where
  parsed : parseValue r (a.q.payload.drop 4) = .ok (.num v)
  idle : (s.kdps.transfers.any fun x => x.key == a.q.index * 256 + a.q.sub && !x.out) = false

section
variable {a : Ask} {s : State} {r : Row} {v : Int}

/-- A row may be in the group it is written in. -/
theorem placed_of_grouped (grouped : a.q.byte 3 = 0 ∨ r.access = .st) : (decide (a.q.byte 3 ≠ 0) && r.access != .st) = false := by
  rcases grouped with zero | staged
  · simp [zero]
  · simp [staged]

/-- The checks before the value pass. -/
theorem Ask.Fits.checks (h : a.Fits r s) : ¬15 < a.q.byte 3 ∧ (r.access == .ro) = false ∧
    (decide (a.q.byte 3 ≠ 0) && r.access != .st) = false ∧ (r.ty == .domain || decide (1440 < (a.q.payload.drop 4).length)) = false := by
  refine ⟨Nat.not_lt.mpr h.group, by simp [h.writable], placed_of_grouped h.grouped, ?_⟩
  simp only [Bool.or_eq_false_iff, decide_eq_false_iff_not, Nat.not_lt, beq_eq_false_iff_ne]
  exact ⟨h.plain, h.short⟩

/-- A row that is read only, or not for this group, answers for its group first. -/
theorem serveWrite_misplaced (entry : a.entry false s = .ok (.row r))
    (wrong : 15 < a.q.byte 3 ∨ r.access = .ro ∨ (a.q.byte 3 ≠ 0 ∧ r.access ≠ .st)) :
    serveWrite a s = a.fails s ⟨if 15 < a.q.byte 3 then 0x0D else if r.access = .ro then 0x04 else 0x0D, 0⟩ := by
  simp only [serveWrite, entry]
  by_cases high : 15 < a.q.byte 3
  · simp only [high, if_true]
  · by_cases fixed : r.access = .ro
    · simp [high, fixed]
    · have apart := (wrong.resolve_left high).resolve_left fixed
      simp [high, fixed, apart]

theorem serveWrite_long (entry : a.entry false s = .ok (.row r)) (group : a.q.byte 3 ≤ 15) (writable : r.access ≠ .ro)
    (grouped : a.q.byte 3 = 0 ∨ r.access = .st) (long : r.ty = .domain ∨ 1440 < (a.q.payload.drop 4).length) :
    serveWrite a s = a.fails s ⟨0x0E, (a.q.payload.drop 4).length⟩ := by
  have tooLong : (r.ty == .domain || decide (1440 < (a.q.payload.drop 4).length)) = true := by
    rcases long with domain | long
    · simp [domain]
    · rw [decide_eq_true long, Bool.or_true]
  simp only [serveWrite, entry, Nat.not_lt.mpr group, placed_of_grouped grouped, tooLong, beq_iff_eq, writable, Bool.false_eq_true,
    if_false, if_true]

theorem serveWrite_unparsed {e : Err} (h : a.Fits r s) (parsed : parseValue r (a.q.payload.drop 4) = .error e) :
    serveWrite a s = a.fails s e := by
  simp only [serveWrite, h.entry, h.checks, parsed, Bool.false_eq_true, if_false]

theorem serveWrite_inTransfer (h : a.Fits r s) (parsed : parseValue r (a.q.payload.drop 4) = .ok (.num v))
    (open_ : (s.kdps.transfers.any fun x => x.key == a.q.index * 256 + a.q.sub && !x.out) = true) :
    serveWrite a s = a.fails s ⟨0x0A, 0⟩ := by
  simp only [serveWrite, h.entry, h.checks, parsed, open_, Bool.false_eq_true, if_false, if_true]

/-- Outside index 0x2000, whose own check comes later, a number out of range is refused. -/
theorem serveWrite_outOfRange (h : a.Brings r v s) (other : a.q.index ≠ 0x2000)
    (out : r.accepts v = false ∨ fieldsOk a.q.index a.q.sub v.toNat = false) : serveWrite a s = a.fails s ⟨0x07, 0⟩ := by
  have bad : (r.accepts v && fieldsOk a.q.index a.q.sub v.toNat) = false := Bool.and_eq_false_iff.mpr out
  simp only [serveWrite, h.entry, h.checks, h.parsed, h.idle, other, bad, decide_false, Bool.false_and, Bool.not_false, Bool.and_self,
    Bool.false_eq_true, if_false, if_true]

/-- A number of an ST entry is committed alone, or staged unless the group is full (R560, R561). -/
theorem serveWrite_st (h : a.Brings r v s) (st : r.access = .st) (inRange : r.accepts v = true)
    (fields : fieldsOk a.q.index a.q.sub v.toNat = true) :
    serveWrite a s = if a.q.byte 3 = 0 then commitOne a (a.q.index * 256 + a.q.sub) (.num v) s
      else if s.groupFull a.owner (a.q.byte 3) (a.q.index * 256 + a.q.sub) r.size then a.fails s ⟨0x0D, 0⟩
      else answers (a.head (a.q.byte 3)) (stage a.owner (a.q.byte 3) (a.q.index * 256 + a.q.sub) (.value (.num v)) s) := by
  have isSt : (r.access == .st) = true := beq_iff_eq.mpr st
  simp only [serveWrite, h.entry, h.checks, h.parsed, h.idle, inRange, fields, isSt, Bool.and_self, Bool.not_true, Bool.and_false,
    Bool.false_eq_true, if_false, if_true]

/-- A number of another entry takes effect, or what refuses it answers. -/
theorem serveWrite_own (h : a.Brings r v s) (notSt : r.access ≠ .st) (inRange : r.accepts v = true)
    (fields : fieldsOk a.q.index a.q.sub v.toNat = true) :
    serveWrite a s = match writeOwn a.actor a.role a.q.index a.q.sub v s with
      | .error e => a.fails s e
      | .ok d => match d.refused with
        | some e => a.fails d.state e
        | none => { answer := .ok (a.head 0), state := d.state, after := d.after } := by
  simp only [serveWrite, h.entry, h.checks, h.parsed, h.idle, inRange, fields, beq_iff_eq, notSt, Bool.and_self, Bool.not_true,
    Bool.and_false, Bool.false_eq_true, if_false] <;> rfl

end

/-! ### What COMMIT and DISCARD answer (R562, R563) -/

section
variable {a : Ask} {s : State}

theorem serveCommit_wrongGroup (wrong : a.q.byte 0 = 0 ∨ 15 < a.q.byte 0) : serveCommit a s = fails s ⟨0x0D, 0⟩ := by
  simp only [serveCommit, Bool.or_eq_true, decide_eq_true_eq, wrong, if_true]

theorem serveCommit_accepted {b id : Nat} {u : State} (least : 1 ≤ a.q.byte 0) (most : a.q.byte 0 ≤ 15)
    (decision : tryCommit (((s.stagedGroup a.owner (a.q.byte 0)).map StagedGroup.members).getD []) s = .accepted b id u) :
    serveCommit a s = answers (leBytes 1 (a.q.byte 0) ++ commitFields b id) (emptyGroup a.owner (a.q.byte 0) u) := by
  simp [serveCommit, decision, Nat.ne_of_gt least, Nat.not_lt.mpr most]

/-- A rejected group is emptied, or kept where the block is only busy. -/
theorem serveCommit_rejected {k : Nat} {e : Err} {keeps : Bool} (least : 1 ≤ a.q.byte 0) (most : a.q.byte 0 ≤ 15)
    (decision : tryCommit (((s.stagedGroup a.owner (a.q.byte 0)).map StagedGroup.members).getD []) s = .rejected k e keeps) :
    serveCommit a s =
      { answer := .fail (k / 256) (k % 256) e, state := if keeps then s else emptyGroup a.owner (a.q.byte 0) s } := by
  simp [serveCommit, decision, Nat.ne_of_gt least, Nat.not_lt.mpr most]

theorem serveDiscard_eq : serveDiscard a s = if a.q.byte 0 = 0 ∨ 15 < a.q.byte 0 then fails s ⟨0x0D, 0⟩
    else answers (leBytes 1 (a.q.byte 0)) (emptyGroup a.owner (a.q.byte 0) s) := by
  simp only [serveDiscard, Bool.or_eq_true, decide_eq_true_eq]

end

/-! ### Requests that are served -/

section
variable {q : Kdp} {s t : State}

theorem exec_write_served (h : Accepted 0x05 q s t) :
    exec (.write q) s = .next (conclude 0x05 q (sessionOf q) (serveWrite (t.ask q) t)) :=
  congrArg Host.Outcome.next (receive_accepted h rfl)

theorem exec_commit_served (h : Accepted 0x07 q s t) :
    exec (.commit q) s = .next (conclude 0x07 q (sessionOf q) (serveCommit (t.ask q) t)) :=
  congrArg Host.Outcome.next (receive_accepted h rfl)

theorem exec_discard_served (h : Accepted 0x08 q s t) :
    exec (.discard q) s = .next (conclude 0x08 q (sessionOf q) (serveDiscard (t.ask q) t)) :=
  congrArg Host.Outcome.next (receive_accepted h rfl)

theorem exec_commitStatus_served (h : Accepted 0x09 q s t) :
    exec (.commitStatus q) s = .next (conclude 0x09 q (sessionOf q) (serveCommitStatus (t.ask q) t)) :=
  congrArg Host.Outcome.next (receive_accepted h rfl)

end

/-- Settles O46: an accepted request is served, and the service goes through its checks in order. -/
theorem writingRequests : Obligations.WritingRequests := by
  unfold Obligations.WritingRequests
  refine ⟨?noEntry, ?top, ?misplaced, ?long, ?unparsed, ?inTransfer, ?outOfRange, ?st, ?own, ?wrongGroup, ?commit, ?discard, ?status⟩
  case noEntry =>
    intro s t q e accepted entry
    rw [exec_write_served accepted]
    simp only [serveWrite, entry]
  case top =>
    intro s t q accepted entry
    rw [exec_write_served accepted]
    simp only [serveWrite, entry]
    rfl
  case misplaced =>
    intro s t q r accepted entry wrong
    rw [exec_write_served accepted, serveWrite_misplaced entry wrong]
    rfl
  case long =>
    intro s t q r accepted entry group writable grouped long
    rw [exec_write_served accepted, serveWrite_long entry group writable grouped long]
    rfl
  case unparsed =>
    intro s t q r e accepted entry group writable grouped plain short parsed
    rw [exec_write_served accepted, serveWrite_unparsed ⟨entry, group, writable, grouped, plain, short⟩ parsed]
  case inTransfer =>
    intro s t q r v accepted entry group writable grouped plain short parsed open_
    rw [exec_write_served accepted, serveWrite_inTransfer ⟨entry, group, writable, grouped, plain, short⟩ parsed open_]
  case outOfRange =>
    intro s t q r v accepted entry group writable grouped plain short parsed idle other out
    rw [exec_write_served accepted,
      serveWrite_outOfRange ⟨⟨entry, group, writable, grouped, plain, short⟩, parsed, idle⟩ other out]
  case st =>
    intro s t q r v accepted entry st group plain short parsed idle inRange fields
    have brings : (t.ask q).Brings r v t := ⟨⟨entry, group, by simp [st], .inr st, plain, short⟩, parsed, idle⟩
    rw [exec_write_served accepted, serveWrite_st brings st inRange fields]
    rfl
  case own =>
    intro s t q r v accepted entry notSt writable alone plain short parsed idle inRange fields
    have brings : (t.ask q).Brings r v t :=
      ⟨⟨entry, alone.trans_le (Nat.zero_le 15), writable, .inl alone, plain, short⟩, parsed, idle⟩
    rw [exec_write_served accepted, serveWrite_own brings notSt inRange fields]
    rfl
  case wrongGroup =>
    intro s t q accepted wrong
    rw [exec_commit_served accepted, serveCommit_wrongGroup wrong]
  case commit =>
    intro s t q accepted least most
    rw [exec_commit_served accepted]
    cases decision : tryCommit (((t.stagedGroup q.owner (q.byte 0)).map StagedGroup.members).getD []) t with
    | accepted b id u => rw [serveCommit_accepted (a := t.ask q) least most decision]; rfl
    | rejected k e keeps => rw [serveCommit_rejected (a := t.ask q) least most decision]; rfl
  case discard =>
    intro s t q accepted
    rw [exec_discard_served accepted, serveDiscard_eq]
    rfl
  case status => exact fun s t q accepted => exec_commitStatus_served accepted

end Sys2Proof.Machine
end

section
/-! PROOFS. Block lock on a lane (R63 to R67, R69, R73 to R76, R79, R85, R86, R99). -/
namespace Sys2Proof.Machine

/-! ### The commands by their meaning -/

theorem exec_blockReceived (l : Fin 104) (hdr : BitVec 2) (payload : BitVec 64) (full : Bool) (ctle : Nat) (s : State) :
    exec (.blockReceived l hdr payload full ctle) s = execBlockReceived l hdr payload full ctle s := rfl
theorem exec_blockLock (l : Fin 104) (s : State) : exec (.blockLock l) s = execBlockLock l s := rfl
theorem exec_laneLockLoss (l : Fin 104) (s : State) : exec (.laneLockLoss l) s = execLaneLockLoss l s := rfl
theorem exec_signalLost (l : Fin 104) (s : State) : exec (.signalLost l) s = execSignalLost l s := rfl

/-! ### Headers (R63) -/

theorem validHeader {hdr : BitVec 2} (valid : hdr = 1 ∨ hdr = 2) : (hdr.toNat == 1 || hdr.toNat == 2) = true := by
  rcases valid with rfl | rfl <;> rfl

theorem invalidHeader {hdr : BitVec 2} (invalid : hdr = 0 ∨ hdr = 3) : (hdr.toNat == 1 || hdr.toNat == 2) = false := by
  rcases invalid with rfl | rfl <;> rfl

/-- Settles O14, by the lock of the lane and the header of the block. -/
theorem blockLockFollowsTheHeaders : Obligations.BlockLockFollowsTheHeaders := by
  unfold Obligations.BlockLockFollowsTheHeaders
  refine ⟨?unframed, ?huntsValid, ?huntsInvalid, ?lockedInvalid, ?lockedValid, ?locks, ?noLock, ?loses, ?keeps, ?signal, ?noSignal⟩
  case unframed =>
    intro s l hdr payload full ctle unframed
    simp [exec_blockReceived, execBlockReceived, unframed]
  case huntsValid =>
    rintro s _ _ l hdr payload full ctle framed hunting valid rfl rfl
    simp only [exec_blockReceived, execBlockReceived, framed, hunting, validHeader valid, Bool.not_true, Bool.not_false,
      Bool.false_eq_true, if_false, if_true]
  case huntsInvalid =>
    rintro s _ _ l hdr payload full ctle framed hunting invalid rfl rfl
    simp only [exec_blockReceived, execBlockReceived, framed, hunting, invalidHeader invalid, Bool.not_true, Bool.not_false,
      Bool.false_eq_true, if_false, if_true]
  case lockedInvalid =>
    rintro s _ _ l hdr payload full ctle framed locked invalid rfl rfl
    simp only [exec_blockReceived, execBlockReceived, framed, locked, invalidHeader invalid, Bool.not_true, Bool.not_false,
      Bool.false_eq_true, if_false, if_true]
  case lockedValid =>
    rintro s _ _ l hdr payload full ctle framed locked valid rfl rfl
    simp only [exec_blockReceived, execBlockReceived, framed, locked, validHeader valid, Bool.not_true, Bool.false_eq_true, if_false]
    rcases valid with rfl | rfl
    · simp
    · simp
  case locks =>
    intro s l framed hunting run
    simp [exec_blockLock, execBlockLock, framed, hunting, run]
  case noLock =>
    intro s l stays
    rcases stays with unframed | locked | short <;> simp [exec_blockLock, execBlockLock, *]
  case loses =>
    intro s l locked bad
    simp [exec_laneLockLoss, execLaneLockLoss, locked, bad]
  case keeps =>
    intro s l stays
    rcases stays with hunting | few <;> simp [exec_laneLockLoss, execLaneLockLoss, *]
  case signal =>
    intro s l locked awake
    simp [exec_signalLost, execSignalLost, locked, awake]
  case noSignal =>
    intro s l stays
    rcases stays with hunting | asleep <;> simp [exec_signalLost, execSignalLost, *]

end Sys2Proof.Machine
end

section
/-! PROOFS. Alignment, deskew and rate matching (R70 to R72, R75, R78, R80, R82, R83). -/
namespace Sys2Proof.Machine

/-! ### The commands by their meaning -/

theorem exec_alignBlock (l : Fin 104) (payload : BitVec 64) (s : State) : exec (.alignBlock l payload) s = execAlignBlock l payload s := rfl
theorem exec_alignLoss (l : Fin 104) (s : State) : exec (.alignLoss l) s = execAlignLoss l s := rfl
theorem exec_fillerBlock (l : Fin 104) (fill : Int) (all : Bool) (s : State) :
    exec (.fillerBlock l fill all) s = execFillerBlock l fill all s := rfl
theorem exec_deskewFail (g : Fin 96) (s : State) : exec (.deskewFail g) s = execDeskewFail g s := rfl

/-! ### The lanes of a group that wait for their match (R82) -/

section
variable {s : State} {g : Fin 96}

/-- Deskew starts again where an ALIGN block has waited too long and some lane is not deskewed. -/
theorem exec_deskewFail_alone {m o : Nat} {h : Nat × Nat} (mine : m ∈ s.deskewSet g) (head : (s.lane m).head = some h)
    (late : h.2 + 239 ≤ s.now) (other : o ∈ s.deskewSet g) (apart : ((s.lane o).head.map Prod.fst) ≠ some h.1)
    (anew : ∃ m ∈ s.deskewSet g, (s.lane m).deskewed = false) :
    exec (.deskewFail g) s =
      .next (((s.deskewSet g).foldl (fun s m => s.updLane m fun x => { x with head := none }) s).raise .deskewFail [g]) := by
  simp only [exec_deskewFail, execDeskewFail]
  rw [if_pos]
  simp only [Bool.and_eq_true, List.any_eq_true, Bool.not_eq_true']
  refine ⟨⟨m, mine, ?_⟩, anew⟩
  simp only [head, Bool.and_eq_true, decide_eq_true_eq, List.any_eq_true, bne_iff_ne]
  exact ⟨late, o, other, apart⟩

theorem exec_deskewFail_matched (matched : ∀ m ∈ s.deskewSet g, ∀ h, (s.lane m).head = some h → h.2 + 239 ≤ s.now →
    ∀ o ∈ s.deskewSet g, ((s.lane o).head.map Prod.fst) = some h.1) : exec (.deskewFail g) s = .next s := by
  simp only [exec_deskewFail, execDeskewFail]
  rw [if_neg]
  simp only [Bool.and_eq_true, List.any_eq_true]
  rintro ⟨⟨m, mine, alone⟩, -⟩
  cases head : (s.lane m).head with
  | none => simp [head] at alone
  | some h =>
    simp only [head, Bool.and_eq_true, decide_eq_true_eq, List.any_eq_true, bne_iff_ne] at alone
    obtain ⟨late, o, other, apart⟩ := alone
    exact apart (matched m mine h head late o other)

theorem exec_deskewFail_deskewed (deskewed : ∀ m ∈ s.deskewSet g, (s.lane m).deskewed = true) :
    exec (.deskewFail g) s = .next s := by
  have noneLeft : ((s.deskewSet g).any fun m => !(s.lane m).deskewed) = false :=
    List.any_eq_false.mpr fun m mine => by simp [deskewed m mine]
  simp only [exec_deskewFail, execDeskewFail, noneLeft, Bool.and_false, Bool.false_eq_true, if_false]

end

/-- Settles O15, by what the lane carries, and for FILLER by the deskew of its group and the fill. -/
theorem alignmentAndRateMatching : Obligations.AlignmentAndRateMatching := by
  unfold Obligations.AlignmentAndRateMatching
  refine ⟨?taken, ?notTaken, ?lost, ?kept, ?unlocked, ?matched, ?alone, ?held, ?fails, ?stays⟩
  case taken =>
    intro s l payload framed locked align here
    simp [exec_alignBlock, execAlignBlock, framed, locked, align, here]
  case notTaken =>
    intro s l payload other
    rcases other with unframed | hunting | noAlign | elsewhere <;> simp [exec_alignBlock, execAlignBlock, *]
  case lost =>
    rintro s _ l n aligned slots late rfl
    simp only [exec_alignLoss, execAlignLoss, aligned, slots, late, decide_true, Bool.and_self, if_true, loseAlign, beq_iff_eq]
  case kept =>
    intro s l kept
    simp only [exec_alignLoss, execAlignLoss]
    rcases kept with unaligned | early
    · simp [unaligned]
    · cases slots : (s.lane l).slots with
      | none => simp
      | some n => simp [Nat.not_le.mpr (early n slots)]
  case unlocked =>
    intro s l fill all other
    rcases other with unframed | hunting <;> simp [exec_fillerBlock, execFillerBlock, *]
  case matched =>
    intro s l fill g framed locked group deskewed
    simp only [exec_fillerBlock, execFillerBlock, framed, locked, group, deskewed, Bool.not_true, Bool.or_false,
      Bool.false_eq_true, if_false]
  case alone =>
    intro s l fill framed locked group deskewed
    simp [exec_fillerBlock, execFillerBlock, framed, locked, group, deskewed]
  case held =>
    intro s l fill all framed locked other
    have noSlot : (!s.laneDeskewed l || !all) = true := by simpa using other
    simp only [exec_fillerBlock, execFillerBlock, framed, locked, noSlot, Bool.not_true, Bool.or_false,
      Bool.false_eq_true, if_false, if_true]
  case fails =>
    rintro s g ⟨m, mine, h, head, late, o, other, apart⟩ anew
    exact exec_deskewFail_alone mine head late other apart anew
  case stays =>
    intro s g stays
    exact stays.elim exec_deskewFail_matched exec_deskewFail_deskewed

end Sys2Proof.Machine
end

section
/-! PROOFS. Training and retraining (R93, R95, R96, R104 to R106). -/
namespace Sys2Proof.Machine

/-! ### The commands by their meaning -/

theorem exec_trainReq (l : Fin 104) (s : State) : exec (.trainReq l) s = execTrainReq l s := rfl
theorem exec_trainSts (l : Fin 104) (seq : BitVec 8) (body : BitVec 32) (s : State) :
    exec (.trainSts l seq body) s = execTrainSts l seq body s := rfl
theorem exec_trainStepTimeout (l : Fin 104) (s : State) : exec (.trainStepTimeout l) s = execTrainStepTimeout l s := rfl
theorem exec_laneTrainFail (l : Fin 104) (s : State) : exec (.laneTrainFail l) s = execLaneTrainFail l s := rfl
theorem exec_retrain (l : Fin 104) (s : State) : exec (.retrain l) s = execRetrain l s := rfl
theorem exec_retrainStart (l : Fin 104) (s : State) : exec (.retrainStart l) s = execRetrainStart l s := rfl
theorem exec_retrainDone (l : Fin 104) (s : State) : exec (.retrainDone l) s = execRetrainDone l s := rfl
theorem exec_retrainTimeout (l : Fin 104) (s : State) : exec (.retrainTimeout l) s = execRetrainTimeout l s := rfl

/-! ### The two states that train (R106) -/

section
variable {x : LaneState}

theorem trains (h : x = .training ∨ x = .retraining) : (x == .training || x == .retraining) = true := by
  rcases h with rfl | rfl <;> rfl

theorem trains_bne (h : x = .training ∨ x = .retraining) : (x != .training && x != .retraining) = false := by
  rcases h with rfl | rfl <;> rfl

end

/-- Settles O16, by the state of the lane and its open request. -/
theorem trainingStepsAndTheirLimits : Obligations.TrainingStepsAndTheirLimits := by
  unfold Obligations.TrainingStepsAndTheirLimits
  refine ⟨?request, ?answer, ?other, ?timeout, ?tooLong, ?disabled, ?atOnce, ?atGap, ?start, ?done, ?retrainTooLong⟩
  case request =>
    intro s l training
    simp only [exec_trainReq, execTrainReq, trains training, if_true]
  case answer =>
    rintro s _ l seq body training rfl
    simp only [exec_trainSts, execTrainSts, trains_bne training, Bool.false_eq_true, if_false, Bool.and_eq_true, beq_iff_eq]
  case other =>
    intro s l seq body notTraining notRetraining
    simp [exec_trainReq, execTrainReq, exec_trainSts, execTrainSts, exec_trainStepTimeout, execTrainStepTimeout, notTraining, notRetraining]
  case timeout =>
    intro s l training
    simp only [exec_trainStepTimeout, execTrainStepTimeout, trains training, Bool.true_and, Bool.and_eq_true, decide_eq_true_eq]
    by_cases waits : (s.lane l).trainOpen = false ∨ s.now - (s.lane l).trainSent < us (s.nat Obj.trainStepTimeout)
    · rw [if_pos waits, if_neg]
      rintro ⟨asked, due⟩
      exact waits.elim (fun answered => Bool.noConfusion (asked.symm.trans answered)) (Nat.not_lt.mpr due)
    · obtain ⟨asked, due⟩ := not_or.mp waits
      rw [if_neg waits, if_pos ⟨Bool.eq_true_of_not_eq_false asked, Nat.not_lt.mp due⟩]
  case tooLong =>
    intro s l
    simp only [exec_laneTrainFail, execLaneTrainFail, Bool.and_eq_true, beq_iff_eq, decide_eq_true_eq]
  case disabled =>
    intro s l disabled
    simp [exec_retrain, execRetrain, disabled]
  case atOnce =>
    intro s l enabled now
    simp only [exec_retrain, execRetrain, beq_iff_eq, enabled, if_false, Bool.or_eq_true, Bool.not_eq_true', or_assoc, now, if_true]
  case atGap =>
    intro s l enabled sound working running
    simp [exec_retrain, execRetrain, enabled, sound, working, running]
  case start =>
    intro s l
    simp only [exec_retrainStart, execRetrainStart, Bool.and_eq_true]
  case done =>
    intro s l
    simp only [exec_retrainDone, execRetrainDone, beq_iff_eq]
  case retrainTooLong =>
    intro s l
    simp only [exec_retrainTimeout, execRetrainTimeout, Bool.and_eq_true, beq_iff_eq, decide_eq_true_eq]

end Sys2Proof.Machine
end

section
/-! PROOFS. Adaptation and the eye (R100 to R103). -/
namespace Sys2Proof.Machine

/-! ### The commands by their meaning -/

theorem exec_adaptationFreeze (l : Fin 104) (s : State) : exec (.adaptationFreeze l) s = execAdaptationFreeze l s := rfl
theorem exec_adaptationResume (l : Fin 104) (s : State) : exec (.adaptationResume l) s = execAdaptationResume l s := rfl
theorem exec_eyeSweep (l : Fin 104) (m : Nat) (s : State) : exec (.eyeSweep l m) s = execEyeSweep l m s := rfl

/-! ### The limits of a sweep are read as they stood before it -/

section
variable {s : State} {r : Obj}

/-- A sweep below a level tells and reports a fault, which leaves the registers that no fault counts in. -/
theorem marginTold_nat {below : Prop} [Decidable below] {l : Nat} {f : Lane → Lane} {n : EventName} {a : List Int} {k v d p i : Nat}
    (uncounted : r.key ∉ eventKeys ++ faultKeys k) :
    (if below then (s.updLane l f).raiseFault n a k v d p i else s).nat r = s.nat r := by
  split
  · exact congrArg Int.toNat (raiseFault_regs _ _ _ _ _ _ _ _ r uncounted)
  · rfl

/-- The margin held leaves the running minimum. -/
theorem setEyeMargin_nat_minimum (l : Nat) (v : Int) :
    (s.setReg (Obj.eyeMargin l) v).nat (Obj.eyeMarginMin l) = s.nat (Obj.eyeMarginMin l) :=
  State.setReg_nat_of_ne _ _ _ _ (by simp [Obj.key, Obj.eyeMargin, Obj.eyeMarginMin])

/-- What a sweep holds of a lane leaves the registers of index 0x3000, which lie below those of the lanes. -/
theorem setMargins_nat {l : Nat} {v w : Int} {f : Lane → Lane} (below : r.key < 0x310000) :
    (((s.setReg (Obj.eyeMargin l) v).setReg (Obj.eyeMarginMin l) w).updLane l f).nat r = s.nat r := by
  have margin : r.key ≠ (Obj.eyeMargin l).key := by simp only [Obj.eyeMargin, Obj.key] at below ⊢; omega
  have minimum : r.key ≠ (Obj.eyeMarginMin l).key := by simp only [Obj.eyeMarginMin, Obj.key] at below ⊢; omega
  calc (((s.setReg (Obj.eyeMargin l) v).setReg (Obj.eyeMarginMin l) w).updLane l f).nat r
      = ((s.setReg (Obj.eyeMargin l) v).setReg (Obj.eyeMarginMin l) w).nat r := rfl
    _ = s.nat r := by rw [State.setReg_nat_of_ne _ _ _ _ minimum, State.setReg_nat_of_ne _ _ _ _ margin]

end

/-- Settles O17: the limits a sweep is held to are no registers that it writes. -/
theorem adaptationAndEyeMargin : Obligations.AdaptationAndEyeMargin := by
  unfold Obligations.AdaptationAndEyeMargin
  refine ⟨?freezes, ?resumes, ?inactive, ?sweeps⟩
  case freezes =>
    intro s l
    simp only [exec_adaptationFreeze, execAdaptationFreeze, Bool.and_eq_true, beq_iff_eq, Bool.not_eq_true', decide_eq_true_eq, and_assoc]
  case resumes =>
    intro s l
    simp only [exec_adaptationResume, execAdaptationResume, Bool.and_eq_true, beq_iff_eq, decide_eq_true_eq, and_assoc]
  case inactive =>
    intro s l m inactive
    simp [exec_eyeSweep, execEyeSweep, inactive]
  case sweeps =>
    rintro s _ _ _ l m active small rfl rfl rfl
    have warn : Obj.eyeMarginWarn.key < 0x310000 := by decide
    have fail : Obj.eyeMarginFail.key < 0x310000 := by decide
    have uncounted : Obj.eyeMarginFail.key ∉ eventKeys ++ faultKeys Kind.wearLane := by decide
    simp only [exec_eyeSweep, execEyeSweep, active, bne_self_eq_false, Bool.false_eq_true, if_false, Nat.min_eq_left small,
      setEyeMargin_nat_minimum, setMargins_nat warn, marginTold_nat uncounted, setMargins_nat fail]

end Sys2Proof.Machine
end

section
/-! PROOFS. Power of the two directions of a lane (R68, R106, R108 to R115, R127). -/
namespace Sys2Proof.Machine

/-! ### The commands by their meaning -/

theorem exec_fwdPowerReq (l : Fin 104) (v : Fin 3) (s : State) : exec (.fwdPowerReq l v) s = execFwdPowerReq l v s := rfl
theorem exec_backPowerReq (l : Fin 104) (v : Fin 3) (s : State) : exec (.backPowerReq l v) s = execBackPowerReq l v s := rfl
theorem exec_sleepAck (l : Fin 104) (back : Bool) (s : State) : exec (.sleepAck l back) s = execSleepAck l back s := rfl
theorem exec_laneSleepTimeout (l : Fin 104) (s : State) : exec (.laneSleepTimeout l) s = execLaneSleepTimeout l s := rfl
theorem exec_wake (l : Fin 104) (back : Bool) (s : State) : exec (.wake l back) s = execWake l back s := rfl

/-- ACTIVE is refused for no lane (R109). -/
theorem fwdPowerOk_active (l : Nat) (s : State) : fwdPowerOk l 0 s = true := rfl

/-- Settles O18, by the direction, the power asked for and the state the lane is in. -/
theorem lanePowerRequests : Obligations.LanePowerRequests := by
  unfold Obligations.LanePowerRequests
  refine ⟨?refused, ?sleep, ?off, ?active, ?backSleep, ?backOff, ?backActive, ?backAck, ?ack, ?noAck, ?timeout, ?backTimeout,
    ?early, ?wake, ?wakeBack⟩
  case refused =>
    intro s l v refused
    simp only [exec_fwdPowerReq, execFwdPowerReq, refused, Bool.not_false, if_true]
  case sleep =>
    rintro s _ l accepted rfl
    simp only [exec_fwdPowerReq, execFwdPowerReq, Fin.val_one, accepted, Bool.not_true, Bool.false_eq_true, if_false,
      Bool.and_eq_true, beq_iff_eq, bne_iff_ne, Bool.not_eq_true', and_assoc]
    rfl
  case off =>
    rintro s _ l accepted rfl
    simp only [exec_fwdPowerReq, execFwdPowerReq, Fin.val_two, accepted, Bool.not_true, Bool.false_eq_true, if_false, beq_iff_eq]
    rfl
  case active =>
    rintro s _ l rfl
    simp only [exec_fwdPowerReq, execFwdPowerReq, Fin.val_zero, fwdPowerOk_active, Bool.not_true, Bool.false_eq_true, if_false, beq_iff_eq,
      Bool.and_eq_true, bne_iff_ne]
    rfl
  case backSleep =>
    rintro s _ l rfl
    simp only [exec_backPowerReq, execBackPowerReq, Bool.or_eq_true, bne_iff_ne]
    rfl
  case backOff =>
    rintro s _ l rfl
    rfl
  case backActive =>
    rintro s _ l rfl
    simp only [exec_backPowerReq, execBackPowerReq, wakeBackChannel, Bool.and_eq_true, beq_iff_eq, bne_iff_ne]
    rfl
  case backAck =>
    rintro s _ l asked rfl
    simp only [exec_sleepAck, execSleepAck, asked, wakeBackChannel, if_true]
  case ack =>
    rintro s _ l asked active rfl
    simp only [exec_sleepAck, execSleepAck, Option.isNone_eq_false_iff.mpr asked, active, bne_self_eq_false,
      Bool.or_false, Bool.false_eq_true, if_false]
  case noAck =>
    intro s l back unasked
    cases back with
    | true =>
      have none : (s.lane l).backSleepReq = none := unasked
      simp [exec_sleepAck, execSleepAck, none]
    | false =>
      have none : (s.lane l).sleepReq = none ∨ (s.lane l).state ≠ .active := unasked
      simp [exec_sleepAck, execSleepAck, none]
  case timeout =>
    intro s l t asked late
    simp only [exec_laneSleepTimeout, execLaneSleepTimeout, asked, late, decide_true, if_true]
  case backTimeout =>
    intro s l t early asked late
    cases fwd : (s.lane l).sleepReq with
    | none =>
      simp only [exec_laneSleepTimeout, execLaneSleepTimeout, fwd, asked, late, decide_true, Bool.false_eq_true, if_true, if_false]
    | some r =>
      simp only [exec_laneSleepTimeout, execLaneSleepTimeout, fwd, asked, late, Nat.not_le.mpr (early r fwd), decide_true, decide_false,
        Bool.false_eq_true, if_true, if_false]
  case early =>
    intro s l early
    simp only [exec_laneSleepTimeout, execLaneSleepTimeout]
    rw [if_neg, if_neg]
    · cases asked : (s.lane l).backSleepReq with
      | none => simp
      | some t => simpa using early t (.inr asked)
    · cases asked : (s.lane l).sleepReq with
      | none => simp
      | some t => simpa using early t (.inl asked)
  case wake =>
    intro s l
    simp only [exec_wake, execWake, Bool.false_eq_true, if_false, beq_iff_eq]
  case wakeBack =>
    intro s l
    simp only [exec_wake, execWake, wakeBack, if_true, Bool.and_eq_true, beq_iff_eq, bne_iff_ne]
    by_cases other : (s.lane l).state ≠ .active ∨ s.nat (Obj.backPowerReq l) = 2
    · rw [if_pos other, if_neg]
      rintro ⟨active, on⟩
      exact other.elim (· active) on
    · obtain ⟨active, on⟩ := not_or.mp other
      rw [if_neg other, if_pos ⟨not_not.mp active, on⟩]

end Sys2Proof.Machine
end

section
/-! PROOFS. Test patterns of a lane (R87, R106, R117 to R120). -/
namespace Sys2Proof.Machine

/-! ### The commands by their meaning -/

theorem exec_prbsGenEnable (l : Fin 104) (ctl : BitVec 32) (s : State) :
    exec (.prbsGenEnable l ctl) s = .next (prbsWrite l ctl.toNat s) := rfl
theorem exec_prbsChkEnable (l : Fin 104) (ctl : BitVec 32) (s : State) :
    exec (.prbsChkEnable l ctl) s = .next (prbsWrite l ctl.toNat s) := rfl
theorem exec_prbsInjectOne (l : Fin 104) (s : State) : exec (.prbsInjectOne l) s = execPrbsInjectOne l s := rfl
theorem exec_chkLock (l : Fin 104) (s : State) : exec (.chkLock l) s = execChkLock l s := rfl
theorem exec_chkLockDrop (l : Fin 104) (bits : Nat) (errors : ErrorCount) (s : State) :
    exec (.chkLockDrop l bits errors) s = execChkLockDrop l bits errors s := rfl
theorem exec_testDurationEnd (l : Fin 104) (s : State) : exec (.testDurationEnd l) s = execTestDurationEnd l s := rfl
theorem exec_testResult (l : Fin 104) (seq : BitVec 8) (errors : BitVec 32) (s : State) :
    exec (.testResult l seq errors) s = execTestResult l seq errors s := rfl

/-! ### A write of PrbsCtl (R117, R118) -/

section
variable {l v : Nat} {s : State}

/-- Both commands write PrbsCtl as one register, whichever bit is meant. -/
theorem exec_prbsEnables {l : Fin 104} {ctl : BitVec 32} {t : State} (written : prbsWrite l ctl.toNat s = t) :
    exec (.prbsGenEnable l ctl) s = .next t ∧ exec (.prbsChkEnable l ctl) s = .next t :=
  ⟨congrArg Host.Outcome.next written, congrArg Host.Outcome.next written⟩

theorem prbsWrite_refused (refused : prbsCtlOk v = false ∨ ((bitAt v 31 || bitAt v 30) = true ∧ s.mode ≠ .maintenance)) :
    prbsWrite l v s = s := by
  unfold prbsWrite
  dsimp only
  rw [if_pos]
  rcases refused with bad | ⟨on, mode⟩
  · simp [bad]
  · simp only [on, Bool.true_and, Bool.or_eq_true, bne_iff_ne]
    exact .inr mode

theorem prbsWrite_disabled (ok : prbsCtlOk v = true) (mode : s.mode = .maintenance) (on : (bitAt v 31 || bitAt v 30) = true)
    (disabled : (s.lane l).state = .disabled) : prbsWrite l v s = s.setReg (Obj.prbsCtl l) (prbsCtlHeld v : Nat) := by
  simp only [prbsWrite, ok, mode, on, disabled, bne_self_eq_false, BEq.rfl, Bool.not_true, Bool.and_false, Bool.or_false,
    Bool.false_eq_true, if_false, if_true]

/-- A word that enables neither ends a test (R120). -/
theorem prbsWrite_off (ok : prbsCtlOk v = true) (off : (bitAt v 31 || bitAt v 30) = false) :
    prbsWrite l v s = if (s.lane l).state = .test then endTest l (s.setReg (Obj.prbsCtl l) (prbsCtlHeld v : Nat))
      else s.setReg (Obj.prbsCtl l) (prbsCtlHeld v : Nat) := by
  simp only [prbsWrite, ok, off, Bool.not_true, Bool.false_and, Bool.or_false, Bool.false_eq_true, if_false, beq_iff_eq]

end

/-- Settles O19, by the word written to PrbsCtl and by the state of the test. -/
theorem laneTests : Obligations.LaneTests := by
  unfold Obligations.LaneTests
  refine ⟨?refused, ?enables, ?disabled, ?off, ?injects, ?locks, ?drops, ?noDrop, ?ends, ?goesOn, ?result⟩
  case refused => exact fun s l ctl refused => exec_prbsEnables (prbsWrite_refused refused)
  case enables =>
    rintro s _ _ _ _ l ctl ok mode on enabled rfl rfl rfl rfl
    apply exec_prbsEnables
    simp only [prbsWrite, ok, mode, on, enabled, bne_self_eq_false, Bool.not_true, Bool.and_false, Bool.or_false, Bool.false_eq_true,
      if_false, if_true, beq_iff_eq, Bool.and_eq_true, bne_iff_ne]
  case disabled => exact fun s l ctl ok mode on disabled => exec_prbsEnables (prbsWrite_disabled ok mode on disabled)
  case off =>
    rintro s _ l ctl ok off rfl
    exact exec_prbsEnables (prbsWrite_off ok off)
  case injects =>
    intro s l
    simp only [exec_prbsInjectOne, execPrbsInjectOne, Bool.and_eq_true, beq_iff_eq, bne_iff_ne, and_assoc]
  case locks =>
    intro s l
    simp only [exec_chkLock, execChkLock, Bool.and_eq_true, beq_iff_eq, Bool.not_eq_true', and_assoc]
  case drops =>
    intro s l bits errors recent test locked many recentOk errorsOk bitsOk
    simp only [exec_chkLockDrop, execChkLockDrop, test, locked, many, recentOk, errorsOk, bitsOk, decide_true, BEq.rfl,
      Bool.and_self, if_true]
  case noDrop =>
    intro s l bits errors recent other
    simp only [exec_chkLockDrop, execChkLockDrop, Bool.and_eq_true, beq_iff_eq, decide_eq_true_eq, and_assoc]
    rw [if_neg]
    rintro ⟨test, locked, many, recentOk, errorsOk, bitsOk⟩
    rcases other with noTest | unlocked | few | more
    · exact noTest test
    · exact Bool.noConfusion (locked.symm.trans unlocked)
    · exact Nat.not_lt.mpr many few
    · omega
  case ends =>
    intro s l t since test late
    simp only [exec_testDurationEnd, execTestDurationEnd, since, test, late, decide_true, BEq.rfl, Bool.and_self, if_true]
  case goesOn =>
    intro s l goesOn
    simp only [exec_testDurationEnd, execTestDurationEnd]
    cases since : (s.lane l).testSince with
    | none => rfl
    | some t =>
      rcases goesOn with noTest | early
      · simp [noTest]
      · simp [Nat.not_le.mpr (early t since)]
  case result =>
    intro s l seq errors
    simp only [exec_testResult, execTestResult, beq_iff_eq]

end Sys2Proof.Machine
end

section
/-! PROOFS. Events on pins, links and ports (R106, R318, R448, R450, R513). -/
namespace Sys2Proof.Machine

/-! ### The commands by their meaning -/

theorem exec_aligningTimeout (l : Fin 104) (s : State) : exec (.aligningTimeout l) s = execAligningTimeout l s := rfl
theorem exec_hostLinkUp (gen width : Nat) (sizes : LinkSizes) (s : State) :
    exec (.hostLinkUp gen width sizes) s = execHostLinkUp gen width sizes s := rfl
theorem exec_lineTriggerInstant (st : Fin 64) (line : Nat) (s : State) :
    exec (.lineTriggerInstant st line) s = execLineTriggerInstant st line s := rfl
theorem exec_tioInputEdge (t : Fin 96) (level : Bool) (s : State) : exec (.tioInputEdge t level) s = execTioInputEdge t level s := rfl

/-- The host link can come up: the host holds no reset and the Penori is powered (R448). -/
theorem linkTrains {s : State} (free : s.host.perst = false) (on : s.mode ≠ .off) (awake : s.mode ≠ .sentinel) :
    (s.host.perst || s.mode == .off || s.mode == .sentinel) = false := by
  simp [free, on, awake]

/-- Settles O60, by the locks of the lane, the link that came up, and the record of the line. -/
theorem pinsLinksAndPorts : Obligations.PinsLinksAndPorts := by
  unfold Obligations.PinsLinksAndPorts
  refine ⟨?aligning, ?noLink, ?linkUp, ?linkBad, ?noTrigger, ?triggers, ?edge⟩
  case aligning =>
    intro s l
    simp only [exec_aligningTimeout, execAligningTimeout, Bool.and_eq_true, Bool.or_eq_true, beq_iff_eq, Bool.not_eq_true',
      decide_eq_true_eq, and_assoc]
  case noLink =>
    intro s gen width mps mrrs down
    have held : (s.host.perst || s.mode == .off || s.mode == .sentinel) = true := by simpa [or_assoc] using down
    simp only [exec_hostLinkUp, execHostLinkUp, held, if_true]
  case linkUp =>
    rintro s _ gen width mps mrrs _ free on awake ok rfl rfl
    simp only [exec_hostLinkUp, execHostLinkUp, linkTrains free on awake, ok, Bool.not_true, Bool.false_eq_true, if_false]
  case linkBad =>
    intro s gen width mps mrrs free on awake bad
    simp only [exec_hostLinkUp, execHostLinkUp, linkTrains free on awake, bad, Bool.not_false, Bool.false_eq_true, if_false, if_true]
  case noTrigger =>
    rintro s st line (missing | ⟨r, found, done⟩)
    · simp only [exec_lineTriggerInstant, execLineTriggerInstant, missing]
    · rcases done with fired | early <;> simp [exec_lineTriggerInstant, execLineTriggerInstant, *]
  case triggers =>
    rintro s _ st line r found fresh due rfl
    simp only [exec_lineTriggerInstant, execLineTriggerInstant, found, fresh, Nat.not_lt.mpr due, decide_false, Bool.or_self,
      Bool.false_eq_true, if_false]
  case edge => exact fun s t level => rfl

end Sys2Proof.Machine
end

section
/-! PROOFS. PIXEL packets, acknowledgments and replays (R129 to R138, R142 to R144, R147, R154). -/
namespace Sys2Proof.Machine

/-! ### The commands by their meaning -/

theorem exec_pixel (s : State) (l : Fin 104) (p : Packet) : exec (.pixel l p) s = execPixel l p s := rfl
theorem exec_ackInterval (s : State) (g : Fin 96) (id : Fin 9) : exec (.ackInterval g id) s = execAckInterval g id s := rfl
theorem exec_replayTimeout (s : State) (g : Fin 96) (id : Fin 9) (psn : BitVec 16) :
    exec (.replayTimeout g id psn) s = execReplayTimeout g id psn s := rfl

/-- A lane that carries no LANE_ID's packets takes none (R128, R154). -/
theorem exec_pixel_uncarried {s : State} {l : Fin 104} {p : Packet} (uncarried : s.carries l = none) : exec (.pixel l p) s = .next s := by
  simp only [exec_pixel, execPixel, uncarried]

/-- A packet on a lane that carries a LANE_ID arrives at that LANE_ID. -/
theorem exec_pixel_carried {s : State} {l : Fin 104} {p : Packet} {g id : Nat} (carried : s.carries l = some (g, id)) :
    exec (.pixel l p) s = .next (packetArrives g id p s) := by
  simp only [exec_pixel, execPixel, carried]

/-! ### A packet that arrives -/

section
variable {s u : State} {g id : Nat} {p : Packet}

/-- A packet with a damaged header is counted only: its PSN is not known, so no NAK can name it (R144). -/
theorem packetArrives_badHeader (hdr : hdrOk p = false) : packetArrives g id p s = s.count (Obj.packetErrors g) := by
  simp only [packetArrives, hdr, Bool.not_false, if_true]

/-- A damaged body is counted, and its PSN asked for again where it is in the window and not yet received (R144). -/
theorem packetArrives_badBody (hdr : hdrOk p = true) (body : bodyOk p (pixelFields p) = false) :
    packetArrives g id p s =
      if ((s.count (Obj.packetErrors g)).rx g id).ahead (pixelFields p).psn < 1024 ∧
          ((s.count (Obj.packetErrors g)).rx g id).above.contains (pixelFields p).psn = false
      then nakAgain g id (pixelFields p).psn (s.count (Obj.packetErrors g)) else s.count (Obj.packetErrors g) := by
  simp only [packetArrives, hdr, body, Bool.not_true, Bool.not_false, Bool.false_eq_true, if_true, if_false, Bool.and_eq_true,
    decide_eq_true_eq, Bool.not_eq_true']

/-- An intact packet that its PSN drops does no more than that (R142). -/
theorem packetArrives_dropped (hdr : hdrOk p = true) (body : bodyOk p (pixelFields p) = true)
    (dropped : acceptPsn g id (pixelFields p).psn (pixelFields p).replay s = (u, false)) : packetArrives g id p s = u := by
  simp only [packetArrives, hdr, body, dropped, Bool.not_true, Bool.not_false, Bool.false_eq_true, if_true, if_false]

/-- An intact packet in turn is taken by its type (R133), pixels only where its fields fit (R138), and then deferred records may close (R20). -/
theorem packetArrives_taken {t : Nat} (hdr : hdrOk p = true) (body : bodyOk p (pixelFields p) = true)
    (taken : acceptPsn g id (pixelFields p).psn (pixelFields p).replay s = (u, true)) (type : t = (p.header.getD 0 0).toNat) :
    packetArrives g id p s = replayEnd g id
      (if 2 ≤ t ∧ t ≤ 4 then messageTaken g t p u
       else if t ≠ 1 ∨ pixelOk g id p (pixelFields p) u = false then u.count (Obj.packetErrors g)
       else takePixels g id p (pixelFields p) u) := by
  simp only [packetArrives, hdr, body, taken, ← type, Bool.not_true, Bool.false_eq_true, if_false, Bool.and_eq_true, Bool.or_eq_true,
    decide_eq_true_eq, bne_iff_ne, Bool.not_eq_true', apply_ite (replayEnd g id)]

end

/-! ### The acknowledgment (R143) -/

theorem exec_ackInterval_due {s : State} {g : Fin 96} {id : Fin 9} {due : Nat} (waits : (s.rx g id).ackDue = some due)
    (passed : due + ns (s.nat Obj.ackInterval) ≤ s.now) :
    exec (.ackInterval g id) s = .next (sendAck g id ((s.rx g id).next + 65535) false
      (updRx g id (fun q => { q with ackDue := if q.above.isEmpty then none else some s.now }) s)) := by
  simp only [exec_ackInterval, execAckInterval, waits, if_neg (Nat.not_lt.mpr passed)]

theorem exec_ackInterval_early {s : State} {g : Fin 96} {id : Fin 9}
    (early : ∀ due, (s.rx g id).ackDue = some due → s.now < due + ns (s.nat Obj.ackInterval)) : exec (.ackInterval g id) s = .next s := by
  simp only [exec_ackInterval, execAckInterval]
  cases waits : (s.rx g id).ackDue with
  | none => rfl
  | some due => simp only [if_pos (early due waits)]

/-! ### A NAK whose packet does not come (R147) -/

section
variable {s : State} {g : Fin 96} {id : Fin 9} {psn : BitVec 16} {n : Nak}

/-- The NAK is sent again, its time starts anew and the repeat is counted. -/
theorem exec_replayTimeout_repeats (asked : ((s.rx g id).naks.find? fun m => m.psn == psn.toNat) = some n)
    (due : n.since + us (s.nat Obj.replayTimeout) ≤ s.now) (left : n.repeats < 2) :
    exec (.replayTimeout g id psn) s = .next (sendAck g id psn.toNat true (updRx g id (fun q =>
      { q with naks := q.naks.map fun m => if m.psn == psn.toNat then { m with since := s.now, repeats := m.repeats + 1 } else m }) s)) := by
  simp only [exec_replayTimeout, execReplayTimeout, asked, if_neg (Nat.not_lt.mpr due), if_pos left]

/-- After two repeats the PSN is given up. -/
theorem exec_replayTimeout_givesUp {t : State} (asked : ((s.rx g id).naks.find? fun m => m.psn == psn.toNat) = some n)
    (due : n.since + us (s.nat Obj.replayTimeout) ≤ s.now) (spent : 2 ≤ n.repeats)
    (counted : t = (updRx g id (fun q => q.take psn.toNat s.now) s).count (Obj.replayFailures g)) :
    exec (.replayTimeout g id psn) s = .next (replayEnd g id (t.raiseFault .replayFail [g, id, psn.toNat] Kind.laneReplayFail 2
      (t.laneOfId g id) 1 (islandOf 2 (t.laneOfId g id)))) := by
  simp only [exec_replayTimeout, execReplayTimeout, asked, if_neg (Nat.not_lt.mpr due), if_neg (Nat.not_lt.mpr spent), ← counted]

theorem exec_replayTimeout_early
    (early : ∀ n, ((s.rx g id).naks.find? fun m => m.psn == psn.toNat) = some n → s.now < n.since + us (s.nat Obj.replayTimeout)) :
    exec (.replayTimeout g id psn) s = .next s := by
  simp only [exec_replayTimeout, execReplayTimeout]
  cases asked : (s.rx g id).naks.find? fun m => m.psn == psn.toNat with
  | none => rfl
  | some n => simp only [if_pos (early n asked)]

end

/-- Settles O20, by the lane, the header, the body, the PSN and the type of the packet, and by the times of the two timers. -/
theorem pixelPacketsAndReplays : Obligations.PixelPacketsAndReplays := by
  unfold Obligations.PixelPacketsAndReplays
  refine ⟨?uncarried, ?badHeader, ?badBody, ?dropped, ?message, ?unfit, ?pixels, ?ack, ?ackEarly, ?repeats, ?givesUp, ?nakEarly⟩
  case uncarried => exact fun s l p uncarried => exec_pixel_uncarried uncarried
  case badHeader =>
    intro s l p g id carried hdr
    rw [exec_pixel_carried carried, packetArrives_badHeader hdr]
  case badBody =>
    rintro s _ l p g id carried hdr body rfl
    rw [exec_pixel_carried carried, packetArrives_badBody hdr body]
  case dropped =>
    intro s u l p g id carried hdr body dropped
    rw [exec_pixel_carried carried, packetArrives_dropped hdr body dropped]
  case message =>
    intro s u l p g id t carried hdr body taken type low high
    rw [exec_pixel_carried carried, packetArrives_taken hdr body taken type, if_pos ⟨low, high⟩]
  case unfit =>
    intro s u l p g id t carried hdr body taken type unfit
    have noMessage : ¬(2 ≤ t ∧ t ≤ 4) := by omega
    have noPixels : t ≠ 1 ∨ pixelOk g id p (pixelFields p) u = false := by
      rcases unfit with low | high | ⟨-, bad⟩
      · exact .inl (by omega)
      · exact .inl (by omega)
      · exact .inr bad
    rw [exec_pixel_carried carried, packetArrives_taken hdr body taken type, if_neg noMessage, if_pos noPixels]
  case pixels =>
    intro s u l p g id carried hdr body taken pixel fits
    rw [exec_pixel_carried carried, packetArrives_taken hdr body taken pixel.symm, if_neg (by decide), if_neg (by simp [fits])]
  case ack => exact fun s g id due waits passed => exec_ackInterval_due waits passed
  case ackEarly => exact fun s g id early => exec_ackInterval_early early
  case repeats => exact fun s g id psn n asked due left => exec_replayTimeout_repeats asked due left
  case givesUp => exact fun s t g id psn n asked due spent counted => exec_replayTimeout_givesUp asked due spent counted
  case nakEarly => exact fun s g id psn early => exec_replayTimeout_early early

end Sys2Proof.Machine
end

section
/-! PROOFS. Link time and the camera's registers (R148, R157 to R159, R161, R169, R170, R173). -/
namespace Sys2Proof.Machine

/-! ### The commands by their meaning -/

theorem exec_timeSync (s : State) (g : Fin 96) : exec (.timeSync g) s = execTimeSync g s := rfl
theorem exec_timeResp (s : State) (g : Fin 96) (h : CamHdr) (syncId : BitVec 16) (t2 t3 t4 : Nat) (rate : BitVec 32) :
    exec (.timeResp g h syncId t2 t3 t4 rate) s = execTimeResp g h syncId t2 t3 t4 rate s := rfl
theorem exec_timeRespMissing (s : State) (g : Fin 96) : exec (.timeRespMissing g) s = execTimeRespMissing g s := rfl
theorem exec_linkUp (s : State) (g : Fin 96) (regs : Bytes) : exec (.linkUp g regs) s = execLinkUp g regs s := rfl
theorem exec_camRegRead (s : State) (g : Fin 96) : exec (.camRegRead g) s = execCamRegRead g s := rfl
theorem exec_camRegWrite (s : State) (g : Fin 96) : exec (.camRegWrite g) s = execCamRegWrite g s := rfl

/-! ### The answer to a synchronisation (R157 to R159, R161, R170) -/

/-- An answer out of its PSN's turn is not looked at (R142). -/
theorem exec_timeResp_dropped {s u : State} {g : Fin 96} {h : CamHdr} {syncId : BitVec 16} {t2 t3 t4 : Nat} {rate : BitVec 32}
    (dropped : acceptHdr g h s = (u, false)) : exec (.timeResp g h syncId t2 t3 t4 rate) s = .next u := by
  simp only [exec_timeResp, execTimeResp, dropped, Bool.not_false, if_true]

theorem exec_timeResp_taken {s u : State} {g : Fin 96} {h : CamHdr} {syncId : BitVec 16} {t2 t3 t4 : Nat} {rate : BitVec 32}
    (taken : acceptHdr g h s = (u, true)) :
    exec (.timeResp g h syncId t2 t3 t4 rate) s = .next (timeRespTaken g syncId.toNat t2 t3 t4 rate.toNat u) := by
  simp only [exec_timeResp, execTimeResp, taken, Bool.not_true, Bool.false_eq_true, if_false]

/-- An answer to another synchronisation than the open one changes nothing. -/
theorem timeRespTaken_other {s : State} {g syncId t2 t3 t4 rate : Nat} (other : ∀ id t1, (s.group g).sync = some (id, t1) → id ≠ syncId) :
    timeRespTaken g syncId t2 t3 t4 rate s = s := by
  unfold timeRespTaken
  cases sync : (s.group g).sync with
  | none => rfl
  | some current => simp only [bne_iff_ne, other current.1 current.2 sync, ne_eq, not_false_eq_true, if_true]

/-- The answer to the open synchronisation sets the offset and the path delay (R158) and sends the correction (R159); then the time
unlocks, or the answer counts towards the lock (R161) and may bring the link up (R170). -/
theorem timeRespTaken_open {u v w : State} {g syncId t1 t2 t3 t4 rate : Nat} {num offset : Int} (sync : (u.group g).sync = some (syncId, t1))
    (hnum : num = (((t2 : Int) - t1) - ((t4 : Int) - t3)) * 1000 - u.reg (Obj.linkAsymmetry g) * 256) (hoffset : offset = roundDiv num 32000)
    (hv : v = sendBack g 0x15 (pack [(32, 32, rate), (0, 32, toBits 32 offset)])
      (le8 (b2n (decide (16000 < offset.natAbs) || !((u.group g).state == .up || (u.group g).state == .spareInUse)) * 65536 + syncId))
      (((u.updGroup g fun x => { x with sync := none }).setReg (Obj.timeOffset g) offset).setReg (Obj.pathDelay g)
        (roundDiv (((t2 : Int) - t1) + ((t4 : Int) - t3)) 32)))
    (hw : w = (v.updGroup g fun x => { x with goodSyncs := min ((v.group g).goodSyncs + 1) 3,
                                              timeLocked := x.timeLocked || decide (3 ≤ (v.group g).goodSyncs + 1) })) :
    timeRespTaken g syncId t2 t3 t4 rate u = if 512000 < num.natAbs then unlockTime g v
      else if (w.group g).timeLocked = true ∧ (w.group g).state = .linking ∧ (w.group g).linkChecked = true then
        (startAccess g 0x84 1 true [1, 0, 0, 0] false w).updGroup g fun x => { x with state := .up }
      else w := by
  simp only [timeRespTaken, sync, bne_self_eq_false, Bool.false_eq_true, if_false, ← hnum, ← hoffset, ← hv, ← hw, Bool.and_eq_true, beq_iff_eq,
    and_assoc]

/-- An answer that has not come within 100 µs closes the synchronisation and unlocks the time (R161). -/
theorem exec_timeRespMissing_due {s : State} {g : Fin 96} {id t1 : Nat} (sync : (s.group g).sync = some (id, t1))
    (due : t1 + 64 * us 100 ≤ s.now * 64) :
    exec (.timeRespMissing g) s = .next (unlockTime g (s.updGroup g fun x => { x with sync := none })) := by
  simp only [exec_timeRespMissing, execTimeRespMissing, sync, if_neg (Nat.not_lt.mpr due)]

theorem exec_timeRespMissing_early {s : State} {g : Fin 96}
    (early : ∀ id t1, (s.group g).sync = some (id, t1) → s.now * 64 < t1 + 64 * us 100) : exec (.timeRespMissing g) s = .next s := by
  simp only [exec_timeRespMissing, execTimeRespMissing]
  cases sync : (s.group g).sync with
  | none => rfl
  | some current => simp only [if_pos (early current.1 current.2 sync)]

/-! ### The camera's registers at link-up (R169, R170) -/

/-- Only a LINKING group that is not yet checked and all of whose lanes are ACTIVE reads its camera's registers. -/
theorem exec_linkUp_stays {s : State} {g : Fin 96} {regs : Bytes}
    (h : (s.group g).state ≠ .linking ∨ (s.group g).linkChecked = true ∨ s.groupActive g = false) : exec (.linkUp g regs) s = .next s := by
  have stays : ((s.group g).state != .linking || (s.group g).linkChecked || !s.groupActive g) = true := by simpa [or_assoc] using h
  simp only [exec_linkUp, execLinkUp, stays, if_true]

theorem exec_linkUp_checks {s u v : State} {g : Fin 96} {regs : Bytes} (linking : (s.group g).state = .linking)
    (unchecked : (s.group g).linkChecked = false) (active : s.groupActive g = true)
    (hu : u = (readIdentity g s).updGroup g (fun x => { x with identity := regs }))
    (hv : v = u.updGroup g (fun x => { x with linkChecked := true, goodSyncs := 0 })) :
    exec (.linkUp g regs) s = .next (if linkUpOk g regs u then
        sendTimeSync g (startAccess g 0x80 1 true (leBytes 4 (v.nat (Obj.pixelWidth g))) false v)
      else (u.updGroup g fun x => { x with state := .failed }).raise .cameraMismatch [g]) := by
  simp only [exec_linkUp, execLinkUp, linking, unchecked, active, bne_self_eq_false, Bool.or_self, Bool.not_true, Bool.false_eq_true, if_false,
    ← hu, ← hv]

/-! ### CamRegOp (R173) -/

/-- A write is not started while an access is busy, nor of other than COUNT words. -/
theorem exec_camRegWrite_stays {s : State} {g : Fin 96}
    (h : (s.group g).proxyBusy = true ∨ (s.group g).camRegData.length ≠ 4 * s.nat (Obj.camRegCount g)) :
    exec (.camRegWrite g) s = .next s := by
  simp only [exec_camRegWrite, execCamRegWrite, Bool.or_eq_true, bne_iff_ne, if_pos h]

/-- A write that meets CFG_WIDTH or CFG_CONTROL is refused while the group is UP, else it starts. -/
theorem exec_camRegWrite_starts {s : State} {g : Fin 96} {a n : Nat} (address : a = s.nat (Obj.camRegAddress g))
    (count : n = s.nat (Obj.camRegCount g)) (free : (s.group g).proxyBusy = false) (whole : (s.group g).camRegData.length = 4 * n) :
    exec (.camRegWrite g) s = .next
      (if (a ≤ 0x84 ∧ 0x80 < a + 4 * n) ∧ ((s.group g).state = .up ∨ (s.group g).state = .spareInUse) then s.setReg (Obj.camRegStatus g) 8
       else startAccess g a n true (s.group g).camRegData true (s.setReg (Obj.camRegStatus g) 1)) := by
  simp only [exec_camRegWrite, execCamRegWrite, ← address, ← count, free, whole, bne_self_eq_false, Bool.or_self, Bool.false_eq_true, if_false,
    Bool.and_eq_true, Bool.or_eq_true, decide_eq_true_eq, beq_iff_eq]

/-- Settles O22, by the open synchronisation and its time, the state of the link, and the access that is busy. -/
theorem linkTimeAndCameraRegisters : Obligations.LinkTimeAndCameraRegisters := by
  unfold Obligations.LinkTimeAndCameraRegisters
  refine ⟨?sync, ?ignored, ?answer, ?missing, ?early, ?stays, ?checks, ?read, ?writeStays, ?write⟩
  case sync =>
    intro s g
    simp only [exec_timeSync, execTimeSync, Bool.and_eq_true]
  case ignored =>
    rintro s u g h syncId t2 t3 t4 rate (dropped | ⟨taken, other⟩)
    · exact exec_timeResp_dropped dropped
    · rw [exec_timeResp_taken taken, timeRespTaken_other other]
  case answer =>
    intro s u v w g h syncId t2 t3 t4 t1 rate num offset taken sync hnum hoffset hv hw
    rw [exec_timeResp_taken taken, timeRespTaken_open sync hnum hoffset hv hw]
  case missing => exact fun s g id t1 sync due => exec_timeRespMissing_due sync due
  case early => exact fun s g early => exec_timeRespMissing_early early
  case stays => exact fun s g regs h => exec_linkUp_stays h
  case checks => exact fun s u v g regs linking unchecked active hu hv => exec_linkUp_checks linking unchecked active hu hv
  case read =>
    rintro s _ g rfl
    rfl
  case writeStays => exact fun s g h => exec_camRegWrite_stays h
  case write => exact fun s g a n address count free whole => exec_camRegWrite_starts address count free whole

end Sys2Proof.Machine
end

section
/-! PROOFS. The acknowledgment of an Oxbow switch (R152, R154, R663, R670, R771). -/
namespace Sys2Proof.Machine

theorem exec_oxbowAck (s : State) (g : Fin 96) (body : BitVec 32) : exec (.oxbowAck g body) s = execOxbowAck g body s := rfl

/-- Settles O23, by whether the acknowledgment names the LANE_ID of the open switch. -/
theorem oxbowSwitchCompletes : Obligations.OxbowSwitchCompletes := by
  unfold Obligations.OxbowSwitchCompletes
  refine ⟨?completes, ?stray⟩
  case completes =>
    intro s u v w g body id resume old spare plan hid switching hspare hold hplan hu hv hw
    simp only [exec_oxbowAck, execOxbowAck, ← hid, switching, bne_self_eq_false, Bool.false_eq_true, if_false, ← hspare, ← hold, ← hplan, ← hu,
      ← hv, ← hw]
  case stray =>
    intro s g body other
    simp only [exec_oxbowAck, execOxbowAck]
    cases switching : (s.group g).oxbow with
    | none => rfl
    | some current => simp only [bne_iff_ne, other current.1 current.2 switching, ne_eq, not_false_eq_true, if_true]

end Sys2Proof.Machine
end

section
/-! PROOFS. A line of an analog port (R176 to R178, R180 to R186, R189 to R199, R231). -/
namespace Sys2Proof.Machine

/-! ### The commands by their meaning -/

theorem exec_exposureWindowOpen (s : State) (p : Fin 32) (seq : BitVec 32) :
    exec (.exposureWindowOpen p seq) s = execExposureWindowOpen p seq s := rfl
theorem exec_readoutToken (s : State) (p : Fin 32) : exec (.readoutToken p) s = execReadoutToken p s := rfl
theorem exec_exposureWindowClose (s : State) (p : Fin 32) : exec (.exposureWindowClose p) s = execExposureWindowClose p s := rfl
theorem exec_stExpEdge (s : State) (p : Fin 32) (opening : Bool) (at_ : Nat) :
    exec (.stExpEdge p opening at_) s = execStExpEdge p opening at_ s := rfl
theorem exec_stExpMissing (s : State) (p : Fin 32) : exec (.stExpMissing p) s = execStExpMissing p s := rfl
theorem exec_transferPulse (s : State) (p : Fin 32) : exec (.transferPulse p) s = execTransferPulse p s := rfl
theorem exec_readoutEnd (s : State) (p : Fin 32) (nanovolts : List (List Int)) :
    exec (.readoutEnd p nanovolts) s = execReadoutEnd p nanovolts s := rfl
theorem exec_bankCalibration (s : State) (b : Fin 4) (ok : Bool) : exec (.bankCalibration b ok) s = execBankCalibration b ok s := rfl

/-! ### The exposure window (R176 to R178, R180) -/

section
variable {s : State} {p : Fin 32} {seq : BitVec 32} {st k : Nat} {r : LineRec}

theorem exec_exposureWindowOpen_unmatched (noRecord : s.matchLine 1 p seq.toNat = none) : exec (.exposureWindowOpen p seq) s = .next s := by
  simp only [exec_exposureWindowOpen, execExposureWindowOpen, noRecord]

/-- What holds a line's window: its port does not run, the line has been taken or another comes before it, a cancellation is open, or its
scheduled instant has not come. -/
def WindowHeld (s : State) (p : Nat) (r : LineRec) : Prop :=
  (s.port p).state ≠ .running ∨ ((s.port p).queue.any fun l => l.seq == r.seq) = true ∨ s.earlierWaits p r = true ∨ r.cancelling ≠ [] ∨
    s.now < r.sched

theorem not_windowHeld (running : (s.port p).state = .running) (fresh : ((s.port p).queue.any fun l => l.seq == r.seq) = false)
    (first : s.earlierWaits p r = false) (kept : r.cancelling = []) (due : r.sched ≤ s.now) : ¬WindowHeld s p r := by
  simp [WindowHeld, running, fresh, first, kept, due]

theorem exec_exposureWindowOpen_held (matched : s.matchLine 1 p seq.toNat = some (st, k, r)) (held : WindowHeld s p r) :
    exec (.exposureWindowOpen p seq) s = .next s := by
  simp only [WindowHeld] at held
  simp only [exec_exposureWindowOpen, execExposureWindowOpen, matched, Bool.or_eq_true, bne_iff_ne, Bool.not_eq_true',
    List.isEmpty_eq_false_iff, decide_eq_true_eq, or_assoc, if_pos held]

/-- A line that nothing holds is lost where its window would open too late (R178); else the window opens at s_n (R176, R177, R180). -/
theorem exec_exposureWindowOpen_next {l : PortLine} (matched : s.matchLine 1 p seq.toNat = some (st, k, r)) (next : ¬WindowHeld s p r)
    (hl : l = portLine s p r (windowStart s p r)) :
    exec (.exposureWindowOpen p seq) s = .next
      (if ns (r.nat (Obj.startLateLimit p)) < windowStart s p r - r.sched then
         loseLine st r.line (dropPulses st r.line
           (((s.updPort p fun x => { x with overrun := true }).count (Obj.overrunCount p)).raise .stOverrun [p, r.line]))
       else if s.now < windowStart s p r then s
       else (drivePort p .stExp 2 true (windowStart s p r) (s.setPort p { s.port p with
         queue := (s.port p).queue ++ [l], prevP := l.transferEnd, prevR := l.readoutEnd, stExp := true,
         gateClose := some l.closes })).emit (.token p l.seq l.transfer l.startPulse)) := by
  simp only [WindowHeld] at next
  simp only [exec_exposureWindowOpen, execExposureWindowOpen, matched, Bool.or_eq_true, bne_iff_ne, Bool.not_eq_true',
    List.isEmpty_eq_false_iff, decide_eq_true_eq, or_assoc, if_neg next, ← hl]

theorem exec_exposureWindowOpen_stays
    (stays : ∀ st k r, s.matchLine 1 p seq.toNat = some (st, k, r) → WindowHeld s p r ∨
      (windowStart s p r - r.sched ≤ ns (r.nat (Obj.startLateLimit p)) ∧ s.now < windowStart s p r)) :
    exec (.exposureWindowOpen p seq) s = .next s := by
  cases matched : s.matchLine 1 p seq.toNat with
  | none => exact exec_exposureWindowOpen_unmatched matched
  | some m =>
    obtain ⟨st, k, r⟩ := m
    by_cases held : WindowHeld s p r
    · exact exec_exposureWindowOpen_held matched held
    · obtain ⟨inTime, early⟩ := (stays st k r matched).resolve_left held
      rw [exec_exposureWindowOpen_next matched held rfl, if_neg (Nat.not_lt.mpr inTime), if_pos early]

end

/-! ### The readout token and the close of the window (R176, R180, R182) -/

section
variable {s : State} {p : Fin 32} {l : PortLine}

theorem exec_readoutToken_none (allTaken : ((s.port p).queue.find? fun x => !x.token) = none) : exec (.readoutToken p) s = .next s := by
  simp only [exec_readoutToken, execReadoutToken, allTaken]

/-- The token is for the first line without one: late, it loses the line; in time, it is noted. -/
theorem exec_readoutToken_some (waits : ((s.port p).queue.find? fun x => !x.token) = some l) :
    exec (.readoutToken p) s = .next
      (if l.transfer < s.now then losePortLine p l.seq (((s.updPort p fun x => { x with tokenLate := true }).count
         (Obj.portFaultCount p)).raiseFault .stTokenLate [p, l.seq] Kind.stTokenLate 2 p 1 (islandOf 8 (p / 8)))
       else updPortLine p l.seq (fun x => { x with token := true }) s) := by
  simp only [exec_readoutToken, execReadoutToken, waits]

theorem exec_exposureWindowClose_due {t : Nat} (opened : (s.port p).gateClose = some t) (due : t ≤ s.now) :
    exec (.exposureWindowClose p) s =
      .next (drivePort p .stExp 2 false t (s.updPort p fun x => { x with stExp := false, gateClose := none })) := by
  simp only [exec_exposureWindowClose, execExposureWindowClose, opened, if_neg (Nat.not_lt.mpr due)]

theorem exec_exposureWindowClose_early (early : ∀ t, (s.port p).gateClose = some t → s.now < t) :
    exec (.exposureWindowClose p) s = .next s := by
  simp only [exec_exposureWindowClose, execExposureWindowClose]
  cases opened : (s.port p).gateClose with
  | none => rfl
  | some t => simp only [if_pos (early t opened)]

end

/-! ### The edges of ST_EXP (R183, R184, R231) -/

section
variable {s u : State} {p : Fin 32} {at_ : Nat} {l : PortLine}

theorem exec_stExpEdge_none {opening : Bool} (unplanned : ((s.port p).queue.find? fun x =>
    if opening then x.openedAt.isNone else x.openedAt.isSome && x.closedAt.isNone) = none) : exec (.stExpEdge p opening at_) s = .next s := by
  simp only [exec_stExpEdge, execStExpEdge, unplanned]

/-- The opening edge is measured, and START_ERR goes into the record of the first tributary's line. -/
theorem exec_stExpEdge_opens (planned : ((s.port p).queue.find? fun x => x.openedAt.isNone) = some l)
    (hu : u = updPortLine p l.seq (fun x => { x with openedAt := some at_ }) (edgeOff p at_ l.opens s)) :
    exec (.stExpEdge p true at_) s = .next (match u.matchLine 1 p l.seq with
      | some (st, 0, r) => updRec st r.line (fun r => { r with startErr := (at_ : Int) - r.sched }) u
      | _ => u) := by
  simp only [exec_stExpEdge, execStExpEdge, planned, if_true, ← hu] <;> rfl

/-- The closing edge is measured, and EXP_MEAS goes into the port's register and the record of the first tributary's line. -/
theorem exec_stExpEdge_closes {o : Nat} (planned : ((s.port p).queue.find? fun x => x.openedAt.isSome && x.closedAt.isNone) = some l)
    (opened : l.openedAt = some o)
    (hu : u = (updPortLine p l.seq (fun x => { x with closedAt := some at_ }) (edgeOff p at_ l.closes s)).setReg
      (Obj.exposureMeasuredLast p) ((at_ - o : Nat) : Int)) :
    exec (.stExpEdge p false at_) s = .next (match u.matchLine 1 p l.seq with
      | some (st, 0, r) => updRec st r.line (fun r => { r with expMeas := some (at_ - o) }) u
      | _ => u) := by
  simp only [exec_stExpEdge, execStExpEdge, planned, opened, Option.getD_some, Bool.false_eq_true, if_false, ← hu] <;> rfl

/-- An edge that is not seen is counted, told and reported, and its line is lost (R184). -/
theorem exec_stExpMissing_some (missing : ((s.port p).queue.find? fun l =>
      (l.openedAt.isNone && decide (l.opens + 8 < s.now)) || (l.closedAt.isNone && decide (l.closes + 8 < s.now))) = some l) :
    exec (.stExpMissing p) s = .next (losePortLine p l.seq (((s.updPort p fun x => { x with expFault := true }).count
      (Obj.portFaultCount p)).raiseFault .stExpFault [p, l.seq] Kind.stExpFault 2 p 0 (islandOf 0 0))) := by
  simp only [exec_stExpMissing, execStExpMissing, missing]

theorem exec_stExpMissing_none (allSeen : ((s.port p).queue.find? fun l =>
      (l.openedAt.isNone && decide (l.opens + 8 < s.now)) || (l.closedAt.isNone && decide (l.closes + 8 < s.now))) = none) :
    exec (.stExpMissing p) s = .next s := by
  simp only [exec_stExpMissing, execStExpMissing, allSeen]

end

/-! ### The transfer (R177, R181, R185, R186) -/

section
variable {s u v : State} {p : Fin 32} {l : PortLine}

/-- With its token and at its instant the front line's pulses go out: ST_CLK where it is a burst clock, ST_TG in TG mode, and ST_SP. -/
theorem exec_transferPulse_due {start : Nat} (front : (s.port p).queue.head? = some l) (token : l.token = true) (due : l.transfer ≤ s.now)
    (hu : u = if s.portContinuous p then s else startClock p l.transfer (some (l.readoutEnd + s.periods p 4)) s)
    (hstart : start = match (u.port p).clockFrom with | some t => u.risingEdge p t l.startPulse | none => l.startPulse)
    (hv : v = if s.nat (Obj.tgMode p) = 1 then
      drivePort p .stTg 1 false (l.transfer + ns (u.nat (Obj.tgWidth p))) (drivePort p .stTg 1 true l.transfer u) else u) :
    exec (.transferPulse p) s = .next (updPortLine p l.seq (fun l => { l with startPulse := start })
      ((drivePort p .stSp 0 false (start + v.periods p (v.nat (Obj.spWidth p))) (drivePort p .stSp 0 true start v)).updPort p fun x =>
        { x with stTg := s.nat (Obj.tgMode p) == 1, stSp := true })) := by
  subst hu hstart hv
  simp only [exec_transferPulse, execTransferPulse, front, token, Bool.not_true, Bool.false_or, decide_eq_true_eq,
    if_neg (Nat.not_lt.mpr due), beq_iff_eq] <;> rfl

theorem exec_transferPulse_early (early : ∀ l, (s.port p).queue.head? = some l → l.token = false ∨ s.now < l.transfer) :
    exec (.transferPulse p) s = .next s := by
  simp only [exec_transferPulse, execTransferPulse]
  cases front : (s.port p).queue.head? with
  | none => rfl
  | some l => rcases early l front with token | notYet <;> simp [*]

end

/-! ### The end of the readout (R186, R189 to R199) -/

section
variable {s u v w : State} {p : Fin 32} {nanovolts : List (List Int)} {l : PortLine}

/-- The samples of a line that matches no record are discarded (log entry 16). -/
theorem exec_readoutEnd_unmatched (front : (s.port p).queue.head? = some l) (token : l.token = true) (noRecord : s.matchLine 1 p l.seq = none)
    (due : max l.readoutEnd (s.sampledAll s.reg p l.startPulse) ≤ s.now)
    (hu : u = s.updPort p (fun x => { x with queue := x.queue.drop 1, lines := (x.lines + 1) % 2 ^ 24, stTg := false, stSp := false }))
    (hv : v = match (u.port p).clockUntil with | some t => if u.power.halted then u else u.emit (.pin .stClk p false t) | none => u) :
    exec (.readoutEnd p nanovolts) s = .next (unmatched 1 p l.seq (placeInputs s.reg p (v.inputsOf p) nanovolts [] v).2) := by
  subst hu hv
  simp only [exec_readoutEnd, execReadoutEnd, front, token, noRecord, Bool.not_true, Bool.false_or, decide_eq_true_eq,
    if_neg (Nat.not_lt.mpr due)] <;> rfl

/-- The samples of a line with a record are placed under that record's settings, or a test pattern in their stead, and handed over. -/
theorem exec_readoutEnd_matched {st k : Nat} {r : LineRec} {t : Table Nat} {tr : Trib} (front : (s.port p).queue.head? = some l)
    (token : l.token = true) (matched : s.matchLine 1 p l.seq = some (st, k, r))
    (due : max l.readoutEnd (s.sampledAll r.reg p l.startPulse) ≤ s.now) (trib : (tribsOf r.nat st)[k]? = some tr)
    (hu : u = s.updPort p (fun x => { x with queue := x.queue.drop 1, lines := (x.lines + 1) % 2 ^ 24, stTg := false, stSp := false }))
    (hv : v = match (u.port p).clockUntil with | some t => if u.power.halted then u else u.emit (.pin .stClk p false t) | none => u)
    (placed : (t, w) = placeInputs r.reg p (v.inputsOf p) nanovolts [] v) :
    exec (.readoutEnd p nanovolts) s = .next (handOver r k tr ((List.range (v.nat (Obj.portWidth p))).map fun j =>
        if r.nat (Obj.testPattern p) = 1 then j * 16 % 65536 else if r.nat (Obj.testPattern p) = 2 then 0x8000 else Table.get 0 t j)
      (tr.pixels / 8192 + 1) tr.first (updRec st r.line (fun r => { r with lastPixel := some (v.stamp (islandOf 8 (p / 8))) }) w)) := by
  obtain ⟨rfl, rfl⟩ := Prod.mk.inj placed
  subst hu hv
  simp only [exec_readoutEnd, execReadoutEnd, front, token, matched, trib, Bool.not_true, Bool.false_or, decide_eq_true_eq,
    if_neg (Nat.not_lt.mpr due)] <;> rfl

theorem exec_readoutEnd_early (early : ∀ l, (s.port p).queue.head? = some l → l.token = false ∨
      (∀ st k r, s.matchLine 1 p l.seq = some (st, k, r) → s.now < max l.readoutEnd (s.sampledAll r.reg p l.startPulse)) ∧
      (s.matchLine 1 p l.seq = none → s.now < max l.readoutEnd (s.sampledAll s.reg p l.startPulse))) :
    exec (.readoutEnd p nanovolts) s = .next s := by
  simp only [exec_readoutEnd, execReadoutEnd]
  cases front : (s.port p).queue.head? with
  | none => rfl
  | some l =>
    rcases early l front with token | ⟨earlyMatched, earlyUnmatched⟩
    · simp only [token, Bool.not_false, Bool.true_or, if_true]
    · cases found : s.matchLine 1 p l.seq with
      | none => simp only [found, decide_eq_true (earlyUnmatched found), Bool.or_true, if_true]
      | some m => simp only [found, decide_eq_true (earlyMatched m.1 m.2.1 m.2.2 found), Bool.or_true, if_true]

end

/-! ### The calibration of a bank (R195) -/

section
variable {s : State} {b : Fin 4}

theorem exec_bankCalibration_idle {ok : Bool} (idle : s.bank b ≠ .calibrating) : exec (.bankCalibration b ok) s = .next s := by
  simp only [exec_bankCalibration, execBankCalibration, bne_iff_ne, ne_eq, idle, not_false_eq_true, if_true]

/-- A calibration ends with the bank ready, or with the bank and its enabled ports failed. -/
theorem exec_bankCalibration_ends {ok : Bool} (runs : s.bank b = .calibrating) :
    exec (.bankCalibration b ok) s = .next (if ok then s.setBank b .ready else ((List.range 8).foldl (fun s i =>
      if s.flag (Obj.portEnable (8 * b + i)) then s.updPort (8 * b + i) fun x => { x with state := .failed } else s)
      (s.setBank b .failed)).raiseFault .vadcCalFail [b] Kind.vadcCalFail 3 b 1 (islandOf 8 b)) := by
  simp only [exec_bankCalibration, execBankCalibration, runs, bne_self_eq_false, Bool.false_eq_true, if_false]

end

/-- Settles O24, by the line at each command: what holds its window, its token, its edges, its instants and the record it matches. -/
theorem analogLineSteps : Obligations.AnalogLineSteps := by
  unfold Obligations.AnalogLineSteps
  refine ⟨?stays, ?opens, ?overrun, ?noToken, ?tokenInTime, ?tokenLate, ?closes, ?closeEarly, ?noEdge, ?edgeOpens, ?edgeCloses, ?edgeMissing,
    ?noneMissing, ?transfer, ?transferEarly, ?readoutUnmatched, ?readoutMatched, ?readoutEarly, ?bankIdle, ?bankReady, ?bankFailed⟩
  case stays =>
    intro s p seq stays
    exact exec_exposureWindowOpen_stays (by simpa only [WindowHeld, or_assoc] using stays)
  case opens =>
    rintro s _ p seq st k r l matched running fresh first kept due inTime now rfl rfl
    rw [exec_exposureWindowOpen_next matched (not_windowHeld running fresh first kept due) rfl, if_neg (Nat.not_lt.mpr inTime),
      if_neg (Nat.not_lt.mpr now)]
  case overrun =>
    intro s p seq st k r matched running fresh first kept due late
    rw [exec_exposureWindowOpen_next matched (not_windowHeld running fresh first kept due) rfl, if_pos late]
  case noToken => exact fun s p allTaken => exec_readoutToken_none allTaken
  case tokenInTime =>
    intro s p l waits inTime
    rw [exec_readoutToken_some waits, if_neg (Nat.not_lt.mpr inTime)]
  case tokenLate =>
    intro s p l waits late
    rw [exec_readoutToken_some waits, if_pos late]
  case closes => exact fun s p t opened due => exec_exposureWindowClose_due opened due
  case closeEarly => exact fun s p early => exec_exposureWindowClose_early early
  case noEdge => exact fun s p opening at_ unplanned => exec_stExpEdge_none unplanned
  case edgeOpens => exact fun s u p at_ l planned hu => exec_stExpEdge_opens planned hu
  case edgeCloses => exact fun s u p at_ o l planned opened hu => exec_stExpEdge_closes planned opened hu
  case edgeMissing => exact fun s p l missing => exec_stExpMissing_some missing
  case noneMissing => exact fun s p allSeen => exec_stExpMissing_none allSeen
  case transfer => exact fun s u v p l start front token due hu hstart hv => exec_transferPulse_due front token due hu hstart hv
  case transferEarly => exact fun s p early => exec_transferPulse_early early
  case readoutUnmatched =>
    exact fun s u v p nanovolts l front token noRecord due hu hv => exec_readoutEnd_unmatched front token noRecord due hu hv
  case readoutMatched =>
    exact fun s u v w p nanovolts l st k r t tr front token matched due trib hu hv placed =>
      exec_readoutEnd_matched front token matched due trib hu hv placed
  case readoutEarly => exact fun s p nanovolts early => exec_readoutEnd_early early
  case bankIdle => exact fun s b ok idle => exec_bankCalibration_idle idle
  case bankReady => exact fun s b runs => exec_bankCalibration_ends runs
  case bankFailed => exact fun s b runs => exec_bankCalibration_ends runs

end Sys2Proof.Machine
end

section
/-! PROOFS. Lamp warm-up (R277 to R280). -/
namespace Sys2Proof.Machine

/-! ### The commands by their meaning -/

theorem exec_warmupInterval (s : State) : exec .warmupInterval s = execWarmupInterval s := rfl
theorem exec_lampWarmupTimeout (s : State) : exec .lampWarmupTimeout s = execLampWarmupTimeout s := rfl
theorem exec_warmupRestart (s : State) : exec .warmupRestart s = .next (enterWarming s) := rfl

/-! ### The interval (R277, R278) -/

section
variable {s : State}

theorem exec_warmupInterval_early (early : s.loopDue 1 0 (ms (s.nat Obj.warmupInterval)) = false) :
    exec .warmupInterval s = .next s := by
  simp only [exec_warmupInterval, execWarmupInterval, early, Bool.not_false, if_true]

/-- The interval's rates are worked out over every source; then the lamps are WARM, or the count of quiet intervals stands. -/
theorem exec_warmupInterval_due {u : State} {quiet : Bool} {n : Nat} (due : s.loopDue 1 0 (ms (s.nat Obj.warmupInterval)) = true)
    (rates : (quiet, u) =
      (s.loopRan 1 0).warmSources.foldl (fun t i => (t.1 && (warmSource i t.2).1, (warmSource i t.2).2)) (true, s.loopRan 1 0))
    (count : n = if quiet then u.warmup.settled + 1 else 0) :
    exec .warmupInterval s = .next
      (if u.warmup.state = .warming ∧ u.nat Obj.warmupHold ≤ n then
         ({ u with warmup := { u.warmup with prev := u.warmup.acc, acc := [], settled := n, state := .warm } } : State).raise .lampWarm []
       else { u with warmup := { u.warmup with prev := u.warmup.acc, acc := [],
                                               settled := if u.warmup.state = .warming then n else 0 } }) := by
  simp only [exec_warmupInterval, execWarmupInterval, due, Bool.not_true, Bool.false_eq_true, if_false, ← rates, ← count,
    Bool.and_eq_true, beq_iff_eq, decide_eq_true_eq]
  by_cases warming : u.warmup.state = .warming
  · simp only [warming, if_true]
  · simp only [warming, false_and, if_false]

end

/-! ### The timeout (R278 to R280) -/

section
variable {s : State}

theorem exec_lampWarmupTimeout_idle
    (idle : s.warmup.state ≠ .warming ∨ s.now < s.warmup.since + ms (1000 * s.nat Obj.warmupTimeout)) :
    exec .lampWarmupTimeout s = .next s := by
  rw [exec_lampWarmupTimeout, execLampWarmupTimeout, if_pos (by simpa using idle)]

/-- The timeout fails every capture that waits for WARM. -/
theorem exec_lampWarmupTimeout_due {u v : State} (warming : s.warmup.state = .warming)
    (due : s.warmup.since + ms (1000 * s.nat Obj.warmupTimeout) ≤ s.now)
    (hu : u = { s with warmup := { s.warmup with state := .timeout } })
    (hv : v = u.raiseFault .lampWarmupTimeout [u.slowestSource] Kind.lampWarmupTimeout 1 u.slowestSource 2 (islandOf 10 0)) :
    exec .lampWarmupTimeout s = .next ((List.range 64).foldl (fun s st =>
      if (s.calib st).state == .waitingWarm then failCapture st 8 s else s) v) := by
  rw [exec_lampWarmupTimeout, execLampWarmupTimeout, if_neg (by simpa [warming] using due), hv, hu]

end

/-- Settles O27, by whether the interval or the timeout has passed, and by the state of the warm-up. -/
theorem lampWarmUp : Obligations.LampWarmUp := by
  unfold Obligations.LampWarmUp
  refine ⟨?restarts, ?tooEarly, ?interval, ?timesOut, ?noTimeout⟩
  case restarts => exact fun s => exec_warmupRestart s
  case tooEarly => exact fun s early => exec_warmupInterval_early early
  case interval => exact fun s u quiet n due rates count => exec_warmupInterval_due due rates count
  case timesOut => exact fun s u v warming due hu hv => exec_lampWarmupTimeout_due warming due hu hv
  case noTimeout => exact fun s idle => exec_lampWarmupTimeout_idle idle

end Sys2Proof.Machine
end

section
/-! PROOFS. Position inputs (R285 to R288, R297, R355, R776). -/
namespace Sys2Proof.Machine

/-! ### The commands by their meaning -/

theorem exec_posTransition (s : State) (c : Fin 16) (input : Fin 3) (wireN level : Bool) :
    exec (.posTransition c input wireN level) s = execPosTransition c input wireN level s := rfl
theorem exec_filterPass (s : State) (c : Fin 16) (input : Fin 3) : exec (.filterPass c input) s = .next (passFilter c input s) := rfl
theorem exec_indexRearm (s : State) (c : Fin 16) : exec (.indexRearm c) s = execIndexRearm c s := rfl
theorem exec_posPreset (s : State) (c : Fin 16) (v : BitVec 64) : exec (.posPreset c v) s = execPosPreset c v s := rfl

/-! ### A transition and the stability filter (R285 to R287) -/

section
variable {s u : State} {c : Fin 16} {input : Fin 3} {wireN level present : Bool} {v w : PosInput}

/-- With WireCheck 0 the receiver alone gives the level. -/
theorem exec_posTransition_unchecked (hu : u = passFilter c input s)
    (hv : v = if wireN then { (u.posChan c).input input with n := level } else { (u.posChan c).input input with p := level })
    (unchecked : u.nat (Obj.wireCheck c) = 0) (hpresent : present = v.p) (hw : w = { v with agreeSince := none, goodSince := none }) :
    exec (.posTransition c input wireN level) s = .next (passFilter c input (u.updPosChan c fun x => x.setInput input
      (if present = v.shown then w else { w with shown := present, pending := if present == v.passed then none else some u.now }))) := by
  subst hw hpresent
  simp only [exec_posTransition, execPosTransition, ← hu, ← hv, unchecked, bne_self_eq_false, Bool.false_and, Bool.false_eq_true, if_false,
    beq_iff_eq]

/-- Equal wires, and those of a faulted input, present the level they showed. -/
theorem exec_posTransition_checked (hu : u = passFilter c input s)
    (hv : v = if wireN then { (u.posChan c).input input with n := level } else { (u.posChan c).input input with p := level })
    (checked : u.nat (Obj.wireCheck c) ≠ 0) (hpresent : present = if v.p = v.n ∨ v.faulted = true then v.shown else v.p)
    (hw : w = if v.p = v.n then { v with agreeSince := some (v.agreeSince.getD u.now), goodSince := none }
      else { v with agreeSince := none, goodSince := if v.faulted then some (v.goodSince.getD u.now) else none }) :
    exec (.posTransition c input wireN level) s = .next (passFilter c input (u.updPosChan c fun x => x.setInput input
      (if present = v.shown then w else { w with shown := present, pending := if present == v.passed then none else some u.now }))) := by
  have shown : w.shown = v.shown ∧ w.passed = v.passed ∧ w.faulted = v.faulted ∧ w.p = v.p := by
    rw [hw]; split <;> exact ⟨rfl, rfl, rfl, rfl⟩
  obtain ⟨hshown, hpassed, hfaulted, hp⟩ := shown
  simp only [exec_posTransition, execPosTransition, ← hu, ← hv, bne_iff_ne, ne_eq, checked, not_false_eq_true, if_true, beq_iff_eq,
    ← hw, Bool.and_eq_true, Bool.or_eq_true, true_and, hshown, hpassed, hfaulted, hp, ← hpresent]

theorem passFilter_due {c i stamp : Nat} (held : ((s.posChan c).input i).pending = some stamp)
    (due : stamp + 10 * s.nat (Obj.filterCycles c) ≤ s.now) :
    passFilter c i s = leaveFilter c i stamp (stamp + 10 * s.nat (Obj.filterCycles c)) s := by
  simp only [passFilter, held, if_neg (Nat.not_lt.mpr due)]

theorem passFilter_early {c i : Nat}
    (early : ∀ stamp, ((s.posChan c).input i).pending = some stamp → s.now < stamp + 10 * s.nat (Obj.filterCycles c)) :
    passFilter c i s = s := by
  unfold passFilter
  cases held : ((s.posChan c).input i).pending with
  | none => rfl
  | some stamp => exact if_pos (early stamp held)

end

/-! ### The input a command is due for (R285, R288) -/

/-- A refused edge of an input may be accepted: MinEdgeTime has passed since the last accepted edge (R288). -/
def State.edgeDue (s : State) (c i : Nat) : Bool :=
  ((s.posChan c).input i).late && (match (s.posChan c).lastEdge i with
    | some t => decide (ns (s.nat (Obj.minEdgeTime c)) ≤ s.now - t)
    | none => true)

/-- The wires of an input of an enabled channel have stood at one level for longer than WireCheck (R285). -/
def State.wireFaultDue (s : State) (c i : Nat) : Bool :=
  (s.posChan c).state != .off && !((s.posChan c).input i).faulted && s.nat (Obj.wireCheck c) != 0 &&
    (match ((s.posChan c).input i).agreeSince with
      | some t => decide (ns (s.nat (Obj.wireCheck c)) < s.now - t)
      | none => false)

/-- The wires of a faulted input have been complementary for WireCheck (R285). -/
def State.recoveryDue (s : State) (c i : Nat) : Bool :=
  ((s.posChan c).input i).faulted && (match ((s.posChan c).input i).goodSince with
    | some t => decide (ns (s.nat (Obj.wireCheck c)) ≤ s.now - t)
    | none => false)

/-- The input a command acts on is the first of A, B and Z that is due; there is none where none is due. -/
theorem find_input_none {due : Nat → Bool} (h : ∀ i < 3, due i = false) : [0, 1, 2].find? due = none := by
  simp [h]

section
variable {s : State} {c i : Nat}

theorem State.edgeDue_eq_false (early : ((s.posChan c).input i).late = true →
    ∃ t, (s.posChan c).lastEdge i = some t ∧ s.now - t < ns (s.nat (Obj.minEdgeTime c))) : s.edgeDue c i = false := by
  rw [State.edgeDue, Bool.and_eq_false_imp]
  intro late
  obtain ⟨t, last, early⟩ := early late
  simp only [last, decide_eq_false_iff_not, Nat.not_le, early]

theorem State.wireFaultDue_eq_false (sound : (s.posChan c).state = .off ∨ ((s.posChan c).input i).faulted = true ∨
    s.nat (Obj.wireCheck c) = 0 ∨ (∀ t, ((s.posChan c).input i).agreeSince = some t → s.now - t ≤ ns (s.nat (Obj.wireCheck c)))) :
    s.wireFaultDue c i = false := by
  unfold State.wireFaultDue
  rcases sound with off | faulted | unchecked | short
  · simp [off]
  · simp [faulted]
  · simp [unchecked]
  · cases agree : ((s.posChan c).input i).agreeSince with
    | none => simp
    | some t => simp [short t agree]

theorem State.recoveryDue_eq_false (early : ((s.posChan c).input i).faulted = true →
    ∀ t, ((s.posChan c).input i).goodSince = some t → s.now - t < ns (s.nat (Obj.wireCheck c))) : s.recoveryDue c i = false := by
  rw [State.recoveryDue, Bool.and_eq_false_imp]
  intro faulted
  cases good : ((s.posChan c).input i).goodSince with
  | none => rfl
  | some t => simp only [decide_eq_false_iff_not, Nat.not_le, early faulted t good]

end

/-! ### Late edges, wire faults and recoveries (R285, R288, R355) -/

section
variable {s : State} {c : Fin 16} {i : Nat}

theorem exec_edgeLateAccept (s : State) (c : Fin 16) : exec (.edgeLateAccept c) s = .next (match [0, 1, 2].find? (s.edgeDue c) with
    | none => s
    | some i => acceptEdge c i ((s.posChan c).input i).passed s.now s.now s) := rfl

theorem exec_edgeLateAccept_due (first : [0, 1, 2].find? (s.edgeDue c) = some i) :
    exec (.edgeLateAccept c) s = .next (acceptEdge c i ((s.posChan c).input i).passed s.now s.now s) := by
  rw [exec_edgeLateAccept, first]

theorem exec_edgeLateAccept_none (noneDue : ∀ i < 3, s.edgeDue c i = false) : exec (.edgeLateAccept c) s = .next s := by
  rw [exec_edgeLateAccept, find_input_none noneDue]

/-- An input of a channel faults: its level is held, and the fault is counted, told and reported (R285). -/
def wireFaults (c i : Nat) (s : State) : State :=
  ((s.updPosChan c fun x => { x.setInput i { (s.posChan c).input i with faulted := true, pending := none, late := false } with
      state := .wireFault, wireFault := true }).count (Obj.wireFaults c)).raiseFault
    .posWireFault [c, i] Kind.posWireFault 2 (c + 256 * i) 0 (islandOf 0 0)

theorem exec_posWireFault (s : State) (c : Fin 16) : exec (.posWireFault c) s = .next (match [0, 1, 2].find? (s.wireFaultDue c) with
    | none => s
    | some i => (List.range 16).foldl (fun s n => if s.nat (Obj.transportChannel n) == c then seamAbort n s else s) (wireFaults c i s)) := rfl

theorem exec_posWireFault_due (first : [0, 1, 2].find? (s.wireFaultDue c) = some i) :
    exec (.posWireFault c) s = .next ((List.range 16).foldl (fun s n =>
      if s.nat (Obj.transportChannel n) == c then seamAbort n s else s) (wireFaults c i s)) := by
  rw [exec_posWireFault, first]

theorem exec_posWireFault_none (noneDue : ∀ i < 3, s.wireFaultDue c i = false) : exec (.posWireFault c) s = .next s := by
  rw [exec_posWireFault, find_input_none noneDue]

/-- A faulted input adopts its present level without a step (R285). -/
def wireRecovers (c i : Nat) (s : State) : State :=
  s.updPosChan c fun x => x.setInput i { (s.posChan c).input i with
    faulted := false, goodSince := none, agreeSince := none, shown := ((s.posChan c).input i).p, passed := ((s.posChan c).input i).p,
    level := ((s.posChan c).input i).p, pending := none, late := false }

/-- The channel runs again once no input of it is faulted (R285). -/
def runsAgain (c : Nat) (s : State) : State :=
  if [0, 1, 2].any fun i => ((s.posChan c).input i).faulted then s
  else s.updPosChan c fun x => { x with state := if x.state == .wireFault then .running else x.state }

theorem exec_wireRecovery (s : State) (c : Fin 16) : exec (.wireRecovery c) s = .next (match [0, 1, 2].find? (s.recoveryDue c) with
    | none => s
    | some i => runsAgain c (wireRecovers c i s)) := rfl

theorem exec_wireRecovery_due (first : [0, 1, 2].find? (s.recoveryDue c) = some i) :
    exec (.wireRecovery c) s = .next (runsAgain c (wireRecovers c i s)) := by
  rw [exec_wireRecovery, first]

theorem exec_wireRecovery_none (noneDue : ∀ i < 3, s.recoveryDue c i = false) : exec (.wireRecovery c) s = .next s := by
  rw [exec_wireRecovery, find_input_none noneDue]

end

/-- Settles O28, by the wires of a transition, by the input each command is due for, and by the state and the triggers of the channel. -/
theorem positionInputs : Obligations.PositionInputs := by
  unfold Obligations.PositionInputs
  refine ⟨?unchecked, ?checked, ?passes, ?held, ?lateEdge, ?noLateEdge, ?wireFault, ?wiresSound, ?recovers, ?notYetGood, ?rearm, ?triggers,
    ?preset⟩
  case unchecked =>
    exact fun s u c input wireN level present v w hu hv unchecked hpresent hw => exec_posTransition_unchecked hu hv unchecked hpresent hw
  case checked =>
    exact fun s u c input wireN level present v w hu hv checked hpresent hw => exec_posTransition_checked hu hv checked hpresent hw
  case passes => intro s c input stamp held due; rw [exec_filterPass, passFilter_due held due]
  case held => intro s c input early; rw [exec_filterPass, passFilter_early early]
  case lateEdge => rintro s c _ i rfl first; exact exec_edgeLateAccept_due first
  case noLateEdge => exact fun s c early => exec_edgeLateAccept_none fun i input => State.edgeDue_eq_false (early i input)
  case wireFault => rintro s _ c _ i rfl first rfl; exact exec_posWireFault_due first
  case wiresSound => exact fun s c sound => exec_posWireFault_none fun i input => State.wireFaultDue_eq_false (sound i input)
  case recovers => rintro s _ c _ i rfl first rfl; exact exec_wireRecovery_due first
  case notYetGood => exact fun s c early => exec_wireRecovery_none fun i input => State.recoveryDue_eq_false (early i input)
  case rearm => intro s c; simp only [exec_indexRearm, execIndexRearm, beq_iff_eq]
  case triggers => intro s c v triggers; rw [exec_posPreset, execPosPreset, if_pos triggers]
  case preset =>
    rintro s c v _ _ _ free rfl rfl rfl
    rw [exec_posPreset, execPosPreset, if_neg (Bool.eq_false_iff.mp free)]

end Sys2Proof.Machine
end

section
/-! PROOFS. Trigger generators, compare units and timing I/O (R303, R309, R311, R315, R317, R318, R320, R321, R513, R613, R773). -/
namespace Sys2Proof.Machine

/-! ### The commands by their meaning -/

theorem exec_generatorEvaluate (s : State) (st : Fin 64) : exec (.generatorEvaluate st) s = execGeneratorEvaluate st s := rfl
theorem exec_compareWrite (s : State) (k : Fin 64) (isCtl : Bool) (v : BitVec 32) :
    exec (.compareWrite k isCtl v) s = execCompareWrite k isCtl v s := rfl
theorem exec_latchIn (s : State) (t : Fin 96) : exec (.latchIn t) s = execLatchIn t s := rfl
theorem exec_tioEdge (s : State) (t : Fin 96) : exec (.tioEdge t) s = execTioEdge t s := rfl
theorem exec_quickStopInAssert (s : State) (t : Fin 96) : exec (.quickStopInAssert t) s = execQuickStopInAssert t s := rfl
theorem exec_quickStopInRelease (s : State) (t : Fin 96) : exec (.quickStopInRelease t) s = execQuickStopInRelease t s := rfl
theorem exec_tioPulseEnd (s : State) (t : Fin 96) : exec (.tioPulseEnd t) s = execTioPulseEnd t s := rfl
theorem exec_tioPulseAt (s : State) (t : Fin 96) (dt : BitVec 64) : exec (.tioPulseAt t dt) s = execTioPulseAt t dt s := rfl
theorem exec_scheduledPulse (s : State) (t : Fin 96) : exec (.scheduledPulse t) s = execScheduledPulse t s := rfl

/-! ### Compare units (R311, R315) -/

/-- A compare unit begins anew after a write: it is not in re-arming, BEHIND is cleared, and a value already passed is told. -/
def compareRestarts (k : Nat) (s : State) : State :=
  let u := s.updCmp k fun x => { x with rearm := false }
  compareBehind k (u.setReg (Obj.compareCtl k) (putField (u.nat (Obj.compareCtl k)) 25 1 0 : Nat))

theorem exec_compareWrite_value (s : State) (k : Fin 64) (v : BitVec 32) :
    exec (.compareWrite k false v) s = .next (compareRestarts k (s.setReg (Obj.compareValue k) v.toNat)) := rfl

/-- A control word with DIR 3 or with REARM 0 is not legal (R311). -/
theorem exec_compareWrite_illegal {s : State} {k : Fin 64} {v : BitVec 32} (illegal : cmpDir v.toNat = 3 ∨ field v.toNat 16 8 = 0) :
    exec (.compareWrite k true v) s = .next s := by
  simp only [exec_compareWrite, execCompareWrite, Bool.true_and, Bool.or_eq_true, beq_iff_eq, if_pos illegal]

/-- A legal control word clears FIRED; HITS and BEHIND are the unit's own. -/
theorem exec_compareWrite_legal {s : State} {k : Fin 64} {v : BitVec 32} (dir : cmpDir v.toNat ≠ 3) (rearm : field v.toNat 16 8 ≠ 0) :
    exec (.compareWrite k true v) s = .next (compareRestarts k (s.setReg (Obj.compareCtl k)
      (putField (putField (putField v.toNat 24 1 0) 25 1 0) 0 16 (field (s.nat (Obj.compareCtl k)) 0 16) : Nat))) := by
  have legal : ¬(cmpDir v.toNat = 3 ∨ field v.toNat 16 8 = 0) := not_or.mpr ⟨dir, rearm⟩
  simp only [exec_compareWrite, execCompareWrite, compareRestarts, Bool.true_and, Bool.or_eq_true, beq_iff_eq, if_neg legal, if_true]

/-! ### Pulses at their instants (R320, R321) -/

section
variable {s : State} {t : Fin 96} {dt : BitVec 64}

theorem pulseAtOk_iff {t : Nat} : pulseAtOk t s = true ↔ s.tioFn t = 21 ∧ (s.tio t).instants.length < 16 := by
  simp only [pulseAtOk, Bool.and_eq_true, beq_iff_eq, decide_eq_true_eq]

/-- An instant already past is pulsed at once and told; another waits among the pin's instants. -/
theorem exec_tioPulseAt_taken (ok : pulseAtOk t s = true) :
    exec (.tioPulseAt t dt) s = .next (if ns dt.toNat < s.now then (pulseTio t s.now s).raise .tioLate [t]
      else s.updTio t fun x => { x with instants := insertSorted dt.toNat x.instants }) := by
  simp only [exec_tioPulseAt, execTioPulseAt, ok, Bool.not_true, Bool.false_eq_true, if_false]

theorem exec_tioPulseAt_refused (bad : ¬pulseAtOk t s = true) : exec (.tioPulseAt t dt) s = .next s := by
  simp only [exec_tioPulseAt, execTioPulseAt, Bool.eq_false_iff.mpr bad, Bool.not_false, if_true]

theorem exec_tioPulseEnd_open {e : Nat} (runs : (s.tio t).pulseEnd = some e) :
    exec (.tioPulseEnd t) s =
      .next (if e ≤ s.now then driveTio t false e (s.updTio t fun x => { x with pulseEnd := none }) else s) := by
  simp only [exec_tioPulseEnd, execTioPulseEnd, runs]

theorem exec_tioPulseEnd_none (idle : (s.tio t).pulseEnd = none) : exec (.tioPulseEnd t) s = .next s := by
  simp only [exec_tioPulseEnd, execTioPulseEnd, idle]

end

/-- Settles O29, by the state and source of the stream, by the word written to a unit, and by the function and pulses of the pin. -/
theorem generatorsComparesAndTimingPins : Obligations.GeneratorsComparesAndTimingPins := by
  unfold Obligations.GeneratorsComparesAndTimingPins
  refine ⟨?generator, ?value, ?illegal, ?legal, ?latches, ?noEvent, ?event, ?quickStop, ?released, ?pulseEnds, ?noPulse, ?pulseAt, ?noPulseAt,
    ?scheduled⟩
  case generator => intro s st; simp only [exec_generatorEvaluate, execGeneratorEvaluate, Bool.not_eq_true']
  case value => rintro s _ k v rfl; exact exec_compareWrite_value s k v
  case illegal => exact fun s k v illegal => exec_compareWrite_illegal illegal
  case legal => rintro s _ k v _ dir rearm rfl rfl; exact exec_compareWrite_legal dir rearm
  case latches => intro s t; simp only [exec_latchIn, execLatchIn, Bool.and_eq_true, beq_iff_eq, decide_eq_true_eq]
  case noEvent => intro s t other; rw [exec_tioEdge, execTioEdge, if_pos other]
  case event => rintro s _ _ t event rfl rfl; rw [exec_tioEdge, execTioEdge, if_neg (not_not.mpr event)]
  case quickStop => intro s t; simp only [exec_quickStopInAssert, execQuickStopInAssert, bne_iff_ne, ite_not]
  case released => intro s t; simp only [exec_quickStopInRelease, execQuickStopInRelease, beq_iff_eq]
  case pulseEnds => exact fun s t e runs => exec_tioPulseEnd_open runs
  case noPulse => exact fun s t idle => exec_tioPulseEnd_none idle
  case pulseAt => exact fun s t dt scheduled room => exec_tioPulseAt_taken (pulseAtOk_iff.mpr ⟨scheduled, room⟩)
  case noPulseAt =>
    intro s t dt bad
    refine exec_tioPulseAt_refused fun ok => ?_
    obtain ⟨scheduled, room⟩ := pulseAtOk_iff.mp ok
    exact bad.elim (· scheduled) (Nat.not_le.mpr room)
  case scheduled => exact fun s t => exec_scheduledPulse s t

end Sys2Proof.Machine
end

section
/-! PROOFS. Motion channels (R322, R325, R327 to R329, R337, R355, R773). -/
namespace Sys2Proof.Machine

/-! ### The commands by their meaning -/

theorem exec_motionTick (s : State) (m : Fin 16) : exec (.motionTick m) s = execMotionTick m s := rfl
theorem exec_motionReplan (s : State) (m : Fin 16) (sub : Fin 32) (v : Int) :
    exec (.motionReplan m sub v) s = execMotionReplan m sub v s := rfl
theorem exec_motStop (s : State) (m : Fin 16) : exec (.motStop m) s = .next (if s.stopBusy m then s else motStop m s) := rfl
theorem exec_motQuickStop (s : State) (m : Fin 16) : exec (.motQuickStop m) s = .next (motQuickStop m s) := rfl
theorem exec_motHardStop (s : State) (m : Fin 16) : exec (.motHardStop m) s = .next (transAtRest m (motHardStop m s)) := rfl
theorem exec_motEnable (s : State) (m : Fin 16) (v : Bool) : exec (.motEnable m v) s = execMotEnable m v s := rfl

/-! ### The tick (R322) -/

section
variable {s t : State} {m : Fin 16}

theorem exec_motionTick_idle (idle : (s.motion m).state = .off ∨ s.loopDue 2 m (ns 100) = false) : exec (.motionTick m) s = .next s := by
  rw [exec_motionTick, execMotionTick, if_pos (by simpa using idle)]

/-- A tick that is due: a start in the other direction turns DIR first, one in DIR's direction waits DirSetup after it; a channel that
moves, or is to stand, is integrated. -/
theorem exec_motionTick_due (due : s.loopDue 2 m (ns 100) = true) (on : (s.motion m).state ≠ .off) (ht : t = tickTaken m s) :
    exec (.motionTick m) s = .next
      (if (t.motion m).vel = 0 ∧ (t.motion m).acc = 0 ∧ wantedOf m t ≠ 0 then
        if decide (0 < wantedOf m t) ≠ (t.motion m).dirUp then
          followCheck m (if ns (t.nat (Obj.dirSetup m)) ≤ t.now - (t.motion m).lastStep then
              (t.updMotion m fun x => { x with dirUp := decide (0 < wantedOf m t), dirSince := t.now }).emit
                (.pin .dir m (xor (decide (0 < wantedOf m t)) (bitAt (t.nat (Obj.motPolarity m)) 1)) t.now)
            else t)
        else if t.now - (t.motion m).dirSince < ns (t.nat (Obj.dirSetup m)) then followCheck m t else integrate m t
      else integrate m t) := by
  have runs : ¬((s.motion m).state == .off || !s.loopDue 2 m (ns 100)) = true := by simp [due, on]
  simp only [exec_motionTick, execMotionTick, if_neg runs, ← ht, Bool.and_eq_true, beq_iff_eq, bne_iff_ne, and_assoc]

end

/-! ### Writes (R325, R329, R337, R773) -/

section
variable {s : State} {m : Fin 16} {v : Int}

/-- On a channel that answers BUSY, mode, target and velocity are not taken. -/
theorem exec_motionReplan_busy (busy : s.motionBusy m = true) : exec (.motionReplan m 2 v) s = .next s ∧
    exec (.motionReplan m 3 v) s = .next s ∧ exec (.motionReplan m 4 v) s = .next s := by
  refine ⟨?_, ?_, ?_⟩ <;> simp [exec_motionReplan, execMotionReplan, busy]

theorem exec_motionReplan_free (free : s.motionBusy m = false) :
    exec (.motionReplan m 2 v) s = .next (if 1 ≤ v ∧ v ≤ 3 then
        (s.setReg (Obj.motMode m) v).updMotion m fun x => { x with idleHold := false } else s) ∧
      exec (.motionReplan m 3 v) s = .next ((s.setReg (Obj.motTarget m) v).updMotion m fun x => { x with idleHold := false }) ∧
      exec (.motionReplan m 4 v) s = .next (if v.natAbs ≤ s.nat (Obj.motVMax m) then
        (s.setReg (Obj.motVelocity m) v).updMotion m fun x => { x with idleHold := false } else s) := by
  refine ⟨?_, ?_, ?_⟩
  all_goals
    simp only [exec_motionReplan, execMotionReplan, free, Bool.false_or, Bool.not_eq_true', decide_eq_false_iff_not, ite_not,
      Bool.false_eq_true, if_false]
    rfl

theorem exec_motionReplan_limits (s : State) (m : Fin 16) (v : Int) :
    exec (.motionReplan m 5 v) s = .next (if 1 ≤ v ∧ v ≤ 5000000 ∧ 2 * s.reg (Obj.stepWidth m) * v ≤ 1000000000 then
        s.setReg (Obj.motVMax m) v else s) ∧
      exec (.motionReplan m 6 v) s = .next (if 1 ≤ v ∧ v < 2 ^ 32 then s.setReg (Obj.motAMax m) v else s) ∧
      exec (.motionReplan m 7 v) s = .next (if 1 ≤ v ∧ v < 2 ^ 32 then s.setReg (Obj.motJMax m) v else s) ∧
      exec (.motionReplan m 8 v) s = .next (if 1 ≤ v ∧ v < 2 ^ 32 then s.setReg (Obj.motQuickDecel m) v else s) ∧
      exec (.motionReplan m 18 v) s = .next (if 1 ≤ v ∧ v ≤ 1000000 then s.setReg (Obj.followLimit m) v else s) := by
  refine ⟨?_, ?_, ?_, ?_, ?_⟩ <;> simp only [exec_motionReplan, execMotionReplan, decide_eq_true_eq] <;> rfl

theorem exec_motionReplan_other {sub : Fin 32} (other : sub.val ∉ [2, 3, 4, 5, 6, 7, 8, 18]) :
    exec (.motionReplan m sub v) s = .next s := by
  simp only [List.mem_cons, List.not_mem_nil, or_false, not_or] at other
  obtain ⟨mode, target, velocity, vMax, aMax, jMax, quickDecel, follow⟩ := other
  rw [exec_motionReplan, execMotionReplan]
  split
  case h_9 => rfl
  all_goals contradiction

end

/-! ### CLEAR (R327, R337, R355) -/

/-- The channel belongs to a transport that is neither IDLE nor in FAULT (R337, R355). -/
def State.clearBusy (s : State) (m : Nat) : Bool :=
  match s.transportOfMotion m with
  | some u => (s.trans u).state != .idle && (s.trans u).state != .fault
  | none => false

section
variable {s : State} {m : Fin 16}

theorem exec_motClear (s : State) (m : Fin 16) :
    exec (.motClear m) s = .next (if s.clearBusy m || (s.motion m).state != .fault || !clearOk m s then s
      else motEnter m .standstill (s.updMotion m fun x => { x with braking := false, idleHold := true })) := rfl

theorem State.clearBusy_iff {m : Nat} :
    s.clearBusy m = true ↔ ∃ u, s.transportOfMotion m = some u ∧ (s.trans u).state ≠ .idle ∧ (s.trans u).state ≠ .fault := by
  unfold State.clearBusy
  cases s.transportOfMotion m <;> simp

theorem exec_motClear_refused (refused : (s.motion m).state ≠ .fault ∨ (s.motion m).vel ≠ 0 ∨ s.clearBusy m = true) :
    exec (.motClear m) s = .next s := by
  rcases refused with sound | moves | busy
  · simp [exec_motClear, sound]
  · simp [exec_motClear, clearOk, moves]
  · simp [exec_motClear, busy]

theorem exec_motClear_taken (fault : (s.motion m).state = .fault) (still : (s.motion m).vel = 0) (free : ¬s.clearBusy m = true) :
    exec (.motClear m) s =
      .next (motEnter m .standstill (s.updMotion m fun x => { x with braking := false, idleHold := true })) := by
  simp only [exec_motClear, clearOk, fault, still, Bool.eq_false_iff.mpr free, bne_self_eq_false, beq_self_eq_true, Bool.not_true,
    Bool.or_self, Bool.false_eq_true, if_false]

/-! ### MotEnable (R328) -/

theorem exec_motEnable_on {u : State} (hu : u = (s.setReg (Obj.motEnable m) 1).updMotion m fun x => { x with driven := true }) :
    exec (.motEnable m true) s = .next (if (s.motion m).state = .off then
        motEnter m .standstill (u.updMotion m fun x => { x with offAtStop := false, idleHold := true,
                                                                followBase := (u.extPos (u.nat (Obj.followChannel m)),
                                                                              u.reg (Obj.commandedPosition m)) })
      else u.updMotion m fun x => { x with offAtStop := false }) := by
  subst hu
  simp only [exec_motEnable, execMotEnable, Bool.or_true, if_true, beq_iff_eq] <;> rfl

/-- Switched off, a channel that moves stops and is turned OFF at rest; one at rest is turned OFF at once. -/
theorem exec_motEnable_off {u : State} (hu : u = (s.setReg (Obj.motEnable m) 0).updMotion m fun x => { x with driven := x.driven }) :
    exec (.motEnable m false) s = .next (match (s.motion m).state with
      | .moving => motEnter m .stopping (u.updMotion m fun x => { x with offAtStop := true, idleHold := true })
      | .stopping | .quickStopping => u.updMotion m fun x => { x with offAtStop := true }
      | .standstill => motEnter m .off u
      | .fault => if (u.motion m).vel = 0 then motEnter m .off u else u.updMotion m fun x => { x with offAtStop := true }
      | .off => u) := by
  subst hu
  simp only [exec_motEnable, execMotEnable, Bool.or_false, Bool.false_eq_true, if_false, clearOk, beq_iff_eq] <;> rfl

end

/-- Settles O30, by the speed, the wanted velocity and DIR at a tick, by the entry written, and by the state of the channel. -/
theorem motionCommands : Obligations.MotionCommands := by
  unfold Obligations.MotionCommands
  refine ⟨?idle, ?integrates, ?startsAlong, ?turns, ?free, ?busy, ?limits, ?other, ?stop, ?quickStop, ?hardStop, ?notCleared, ?cleared,
    ?enabled, ?disabled⟩
  case idle => exact fun s m idle => exec_motionTick_idle idle
  case integrates =>
    intro s t m due on ht moves
    rw [exec_motionTick_due due on ht, if_neg]
    rintro ⟨vel, acc, wanted⟩
    exact moves.elim (· vel) (·.elim (· acc) wanted)
  case startsAlong =>
    intro s t m due on ht vel acc wanted along
    rw [exec_motionTick_due due on ht, if_pos ⟨vel, acc, wanted⟩, if_neg (not_not.mpr along)]
  case turns =>
    rintro s t m _ due on ht vel acc wanted rfl other
    rw [exec_motionTick_due due on ht, if_pos ⟨vel, acc, wanted⟩, if_pos other]
  case free => exact fun s m v free => exec_motionReplan_free free
  case busy => exact fun s m v busy => exec_motionReplan_busy busy
  case limits => exact exec_motionReplan_limits
  case other => exact fun s m sub v other => exec_motionReplan_other other
  case stop => exact exec_motStop
  case quickStop => exact exec_motQuickStop
  case hardStop => exact exec_motHardStop
  case notCleared =>
    intro s m refused
    exact exec_motClear_refused (by rwa [State.clearBusy_iff])
  case cleared =>
    intro s m fault still free
    refine exec_motClear_taken fault still fun busy => ?_
    obtain ⟨u, owner, notIdle, notFault⟩ := State.clearBusy_iff.mp busy
    exact (free u owner).elim notIdle notFault
  case enabled => exact fun s u m hu => exec_motEnable_on hu
  case disabled => exact fun s u m hu => exec_motEnable_off hu

end Sys2Proof.Machine
end

section
/-! PROOFS. Stop, back-up and restart of transports (R335, R344, R345, R348, R350, R351, R355, R611). -/
namespace Sys2Proof.Machine

/-! ### The commands by their meaning -/

theorem exec_seamStop (s : State) (u : Fin 16) : exec (.seamStop u) s = .next (stopRequest u s) := rfl
theorem exec_seamRestart (s : State) (u : Fin 16) : exec (.seamRestart u) s = execSeamRestart u s := rfl
theorem exec_backupStart (s : State) (u : Fin 16) : exec (.backupStart u) s = execBackupStart u s := rfl
theorem exec_restartStart (s : State) (u : Fin 16) : exec (.restartStart u) s = execRestartStart u s := rfl

/-! ### A stop request (R335, R345, R354) -/

section
variable {s t : State} {u : Nat}

/-- Only a STOPPABLE transport that runs or restarts is stopped. -/
theorem stopRequest_refused (refused : s.nat (Obj.transportKind u) ≠ 1 ∨
    ((s.trans u).state ≠ .running ∧ (s.trans u).state ≠ .restarting)) : stopRequest u s = s := by
  unfold stopRequest
  split
  case isTrue => rfl
  case isFalse stoppable =>
    obtain ⟨notRunning, notRestarting⟩ := refused.resolve_left stoppable
    split
    · contradiction
    · contradiction
    · rfl

theorem stopRequest_taken (stoppable : s.nat (Obj.transportKind u) = 1)
    (moves : (s.trans u).state = .running ∨ (s.trans u).state = .restarting)
    (ht : t = ((s.runningOf u).foldl (fun s st => holdGates st s) s).updTrans u fun x => { x with state := .stopping, since := none }) :
    stopRequest u s = (let m := ((s.runningOf u).foldl (fun s st => holdGates st s) s).nat (Obj.transportMotion u)
      if m < 16 then motStop m t else t) := by
  subst ht
  rw [stopRequest, if_neg (not_not.mpr stoppable)]
  rcases moves with running | restarting
  · rw [running]
  · rw [restarting]

end

/-! ### Back-up and restart (R344, R348, R350, R351, R355, R611) -/

section
variable {s t : State} {u : Fin 16}

theorem exec_seamRestart_eq (s : State) (u : Fin 16) : exec (.seamRestart u) s = .next
    (if (s.trans u).state = .fault ∧ s.nat (Obj.transportMotion u) < 16 ∧
        (s.motion (s.nat (Obj.transportMotion u))).state = .standstill ∧ s.quickHeld (s.nat (Obj.transportMotion u)) = false
     then startBackup u ((s.runningOf u).foldl (fun s st =>
       s.updSeam st fun x => { x with resumeLine := some ((s.gen st).triggered) }) s) else s) := by
  simp only [exec_seamRestart, execSeamRestart, Bool.and_eq_true, beq_iff_eq, decide_eq_true_eq, Bool.not_eq_true', and_assoc]

/-- At a standstill the dwell runs from the instant at which it began. -/
theorem exec_backupStart_dwells {began : Nat} (stands : (s.trans u).since = some began) : exec (.backupStart u) s = .next
    (if (s.trans u).state = .stopping ∧ s.nat (Obj.transportMotion u) < 16 ∧
        ((s.runningOf u).any fun st => (s.strm st).state != .closing) = true ∧ us (s.nat (Obj.stopDwell u)) ≤ s.now - began
     then startBackup u s else s) := by
  simp only [exec_backupStart, execBackupStart, stands, Bool.and_eq_true, beq_iff_eq, decide_eq_true_eq, and_assoc]

theorem exec_backupStart_moving (moves : (s.trans u).since = none) : exec (.backupStart u) s = .next s := by
  rw [exec_backupStart, execBackupStart, moves]

theorem exec_restartStart_waits (waits : s.restartReady u = false) : exec (.restartStart u) s = .next s := by
  rw [exec_restartStart, execRestartStart, if_neg (Bool.eq_false_iff.mp waits)]

theorem exec_restartStart_ready {k : Nat} (ready : s.restartReady u = true)
    (hk : k = max (s.nat (Obj.pacingMin u)) (min (s.nat (Obj.pacingMax u)) (s.trans u).preset))
    (ht : t = (s.updTrans u fun x => { x with state := .restarting, preset := k, since := none }).setReg
      (Obj.motMode (s.nat (Obj.transportMotion u))) 3) :
    exec (.restartStart u) s = .next (t.updMotion (s.nat (Obj.transportMotion u)) fun x =>
      { x with idleHold := false, moveTo := none, paceSpeed := field (t.nat (Obj.pacingPreset u k)) 32 32 }) := by
  subst ht hk
  rw [exec_restartStart, execRestartStart, if_pos ready]

end

/-- Settles O31, by the kind and the state of the transport, by whether its dwell has begun, and by whether it is ready to restart. -/
theorem transportSteps : Obligations.TransportSteps := by
  unfold Obligations.TransportSteps
  refine ⟨?notStopped, ?stopped, ?restartsFromFault, ?backsUp, ?stillMoves, ?notReady, ?ready⟩
  case notStopped => intro s u refused; rw [exec_seamStop, stopRequest_refused refused]
  case stopped => intro s t u stoppable moves ht; rw [exec_seamStop, stopRequest_taken stoppable moves ht]
  case restartsFromFault => exact exec_seamRestart_eq
  case backsUp => exact fun s u began stands => exec_backupStart_dwells stands
  case stillMoves => exact fun s u moves => exec_backupStart_moving moves
  case notReady => exact fun s u waits => exec_restartStart_waits waits
  case ready => exact fun s t u k ready hk ht => exec_restartStart_ready ready hk ht

end Sys2Proof.Machine
end

section
/-! PROOFS. Pacing, diversion, gates and Hold of transports (R340, R341, R354, R360, R362, R424). -/
namespace Sys2Proof.Machine

/-! ### The commands by their meaning -/

theorem exec_pacingEval (s : State) (u : Fin 16) : exec (.pacingEval u) s = execPacingEval u s := rfl
theorem exec_divertRelease (s : State) (u : Fin 16) : exec (.divertRelease u) s = execDivertRelease u s := rfl
theorem exec_gateInEdge (s : State) (t : Fin 96) (level : Bool) : exec (.gateInEdge t level) s = execGateInEdge t level s := rfl
theorem exec_holdEntry (s : State) : exec .holdEntry s = execHoldEntry s := rfl

/-! ### The pacing loop (R340, R341) -/

section
variable {s t : State} {u : Fin 16} {k : Nat}

theorem exec_pacingEval_idle (idle : (s.trans u).state ≠ .running ∨ s.nat (Obj.pacingMode u) ≠ 1 ∨ s.loopDue 3 u (ms 1) = false) :
    exec (.pacingEval u) s = .next s := by
  rw [exec_pacingEval, execPacingEval, if_pos (by simpa [or_assoc] using idle)]

/-- The loop at its instant: the fall mark of the preset in use comes before the rise mark of the next. -/
theorem exec_pacingEval_due (due : s.loopDue 3 u (ms 1) = true) (ht : t = s.loopRan 3 u) (running : (s.trans u).state = .running)
    (mode : s.nat (Obj.pacingMode u) = 1) (hk : (s.trans u).preset = k) : exec (.pacingEval u) s = .next (
      if 1 ≤ k ∧ (t.preset u k).2.2 ≤ maxNat ((t.runningOf u).map t.ringFill) then
        if k - 1 < s.nat (Obj.pacingMin u) then pacingHold u false t else takePreset u (k - 1) t
      else if k + 1 < s.nat (Obj.pacingPresets u) ∧ maxNat ((t.runningOf u).map t.ringFill) ≤ (t.preset u (k + 1)).2.1 ∧
          ms (s.nat (Obj.pacingDwell u)) ≤ s.now - (s.trans u).lastChange then
        if s.nat (Obj.pacingMax u) < k + 1 then pacingHold u true t else takePreset u (k + 1) t
      else t.updTrans u fun x => { x with clamped := false }) := by
  have runs : ¬((s.trans u).state != .running || s.nat (Obj.pacingMode u) != 1 || !s.loopDue 3 u (ms 1)) = true := by
    simp [running, mode, due]
  simp only [exec_pacingEval, execPacingEval, if_neg runs, ← ht, hk, Bool.and_eq_true, decide_eq_true_eq, and_assoc]
  simp only [ht, State.loopRan_nat, State.loopRan_now]

end

/-! ### Diversion and gates (R354, R360, R424) -/

/-- The diversion of a stream ends where its interval has run (R360). -/
theorem exec_divertRelease_eq (s : State) (u : Fin 16) : exec (.divertRelease u) s = .next ((s.streamsOf u).foldl (fun s st =>
    if (∃ t, (s.seam st).divertUntil = some t ∧ t ≤ s.now) then
      drivePins 19 st false (s.updSeam st fun x => { x with divert := false, divertUntil := none }) else s) s) := by
  refine congrArg Host.Outcome.next (List.foldl_ext _ _ _ fun s st _ => ?_)
  cases (s.seam st).divertUntil <;> simp

section
variable {s v : State} {t : Fin 96} {level : Bool}

theorem exec_gateInEdge_other (other : s.tioFn t ≠ 2 ∨ 64 ≤ s.tioSource t) : exec (.gateInEdge t level) s = .next s := by
  rw [exec_gateInEdge, execGateInEdge, if_pos (by simpa using other)]

theorem exec_gateInEdge_gate (fn : s.tioFn t = 2) (source : s.tioSource t < 64) (hv : v = stampTio t level s) :
    exec (.gateInEdge t level) s = .next (if (v.seam (s.tioSource t)).holding then v
      else gateEdge (s.tioSource t) t level (v.tioStamp t) (v.positionAt (s.tioSource t) (v.tioStamp t)) v) := by
  subst hv
  rw [exec_gateInEdge, execGateInEdge, if_neg (by simp [fn, source])]

end

/-! ### The entry into Hold (R362) -/

section
variable {s v : State}

theorem exec_holdEntry_ready (target : s.target = some .hold) (mode : s.mode ≠ .degraded) (ready : s.holdReady = true)
    (hv : v = (List.range 64).foldl (fun s st => if s.triggering st then s.updGen st fun g => { g with held := true } else s) s) :
    exec .holdEntry s = .next (reachMode .hold { v with power := { v.power with heldFrom := v.mode } }) := by
  rw [exec_holdEntry, execHoldEntry, if_pos (by simp [target, mode, ready]), hv]

theorem exec_holdEntry_waits (waits : s.target ≠ some .hold ∨ s.mode = .degraded ∨ s.holdReady = false) :
    exec .holdEntry s = .next s := by
  have notYet : ¬(s.target == some .hold && s.mode != .degraded && s.holdReady) = true := by
    rcases waits with target | mode | ready
    · simp [target]
    · simp [mode]
    · simp [ready]
  rw [exec_holdEntry, execHoldEntry, if_neg notYet]

end

/-- Settles O32, by the instant and the marks of the loop, by the function and the source of the pin, and by whether Hold is ready. -/
theorem pacingGatesAndHold : Obligations.PacingGatesAndHold := by
  unfold Obligations.PacingGatesAndHold
  refine ⟨?idle, ?stepsDown, ?otherwise, ?diversion, ?otherPin, ?gate, ?holds, ?waits⟩
  case idle => exact fun s u idle => exec_pacingEval_idle idle
  case stepsDown =>
    intro s t u k due ht running mode hk notLast full
    rw [exec_pacingEval_due due ht running mode hk, if_pos ⟨notLast, full⟩]
  case otherwise =>
    intro s t u k due ht running mode hk notFull
    rw [exec_pacingEval_due due ht running mode hk, if_neg (by omega)]
  case diversion => exact exec_divertRelease_eq
  case otherPin => exact fun s t level other => exec_gateInEdge_other other
  case gate => exact fun s v t level fn source hv => exec_gateInEdge_gate fn source hv
  case holds => exact fun s v target mode ready hv => exec_holdEntry_ready target mode ready hv
  case waits => exact fun s waits => exec_holdEntry_waits waits

end Sys2Proof.Machine
end

section
/-! PROOFS. Mode requests and the end of a transition (R604, R606 to R608). -/
namespace Sys2Proof.Machine

/-- A request that has no error starts its transition, and any other changes nothing (R606, R607). -/
theorem requestMode_eq (role : Nat) (m : Mode) (s : State) :
    requestMode role m s = if modeError role m s = none then startMode m s else s := by
  unfold requestMode
  cases modeError role m s <;> simp

theorem exec_modeTransitionDone (s : State) : exec .modeTransitionDone s = execModeTransitionDone s := rfl

section
variable {s : State}

theorem exec_modeTransitionDone_none (noTarget : s.target = none) : exec .modeTransitionDone s = .next s := by
  rw [exec_modeTransitionDone, execModeTransitionDone, noTarget]

theorem exec_modeTransitionDone_some {m : Mode} (target : s.target = some m) :
    exec .modeTransitionDone s = .next (if s.transitionReady m then reachMode m s else s) := by
  rw [exec_modeTransitionDone, execModeTransitionDone, target]

end

/-- Settles O51: each command requests its own mode; a transition ends by whether there is one. -/
theorem modeRequests : Obligations.ModeRequests := by
  unfold Obligations.ModeRequests
  refine ⟨?requests, ?noTransition, ?transition⟩
  case requests =>
    intro s r f hf
    have answers (m : Mode) : f m = requestMode (roleCode r) m s := by rw [hf, requestMode_eq]
    simp only [answers]
    exact ⟨rfl, rfl, rfl, rfl, rfl, rfl, rfl, rfl, rfl⟩
  case noTransition => exact fun s noTarget => exec_modeTransitionDone_none noTarget
  case transition => exact fun s m target => exec_modeTransitionDone_some target

end Sys2Proof.Machine
end

section
/-! PROOFS. Lamp pulses of a line (R375, R377, R380, R388 to R394). -/
namespace Sys2Proof.Machine

/-! ### The commands by their meaning -/

theorem exec_bandAssert (s : State) (b : Fin 16) : exec (.bandAssert b) s = execBandAssert b s := rfl
theorem exec_pulseStart (s : State) (b : Fin 16) : exec (.pulseStart b) s = execPulseStart b s := rfl
theorem exec_pulseEnd (s : State) (b : Fin 16) : exec (.pulseEnd b) s = execPulseEnd b s := rfl
theorem exec_dischargeEnd (s : State) (b : Fin 16) : exec (.dischargeEnd b) s = execDischargeEnd b s := rfl
theorem exec_pulseCheck (s : State) (b : Fin 16) (meas : List SinkMeas) : exec (.pulseCheck b meas) s = execPulseCheck b meas s := rfl

section
variable {s : State} {b : Fin 16} {p : LampPulse} {t : Nat}

/-! ### The switch of the band closes (R377) -/

theorem exec_bandAssert_none (noneWaits : s.lamps.pulses.find? (waiting b) = none) : exec (.bandAssert b) s = .next s := by
  simp only [exec_bandAssert, execBandAssert, noneWaits]

/-- A pulse that waits while its line is gone is dropped. -/
theorem exec_bandAssert_gone (found : s.lamps.pulses.find? (waiting b) = some p) (gone : s.pulseAt p = none) :
    exec (.bandAssert b) s = .next (s.mapPulses (updPulse (waiting b) fun _ => none)) := by
  simp only [exec_bandAssert, execBandAssert, found, gone]

theorem exec_bandAssert_placed (found : s.lamps.pulses.find? (waiting b) = some p) (placed : s.pulseAt p = some t) :
    exec (.bandAssert b) s = .next (
      if s.now + ns (s.nat Obj.bandLead) < t ∨ s.blanked b (t - ns (s.nat Obj.bandLead)) = true then s
      else driveBand b true (t - ns (s.nat Obj.bandLead))
        (s.mapPulses (updPulse (waiting b) fun q => some { q with banded := true }))) := by
  simp only [exec_bandAssert, execBandAssert, found, placed, Bool.or_eq_true, decide_eq_true_eq]

/-! ### The sinks switch on (R375, R380, R393, R394) -/

theorem exec_pulseStart_none (noneReady : s.lamps.pulses.find? (readyPulse b) = none) : exec (.pulseStart b) s = .next s := by
  simp only [exec_pulseStart, execPulseStart, noneReady]

/-- A pulse whose line is gone after its band was driven is dropped, and the band released. -/
theorem exec_pulseStart_gone (found : s.lamps.pulses.find? (readyPulse b) = some p) (gone : s.pulseAt p = none) :
    exec (.pulseStart b) s = .next (driveBand b false s.now (s.mapPulses (updPulse (readyPulse b) fun _ => none))) := by
  simp only [exec_pulseStart, execPulseStart, found, gone]

theorem exec_pulseStart_early (found : s.lamps.pulses.find? (readyPulse b) = some p) (placed : s.pulseAt p = some t)
    (early : s.now < t) : exec (.pulseStart b) s = .next s := by
  simp only [exec_pulseStart, execPulseStart, found, placed, if_pos early]

section
variable {u v : State} {codes : List (Nat × Nat)}
  (found : s.lamps.pulses.find? (readyPulse b) = some p) (placed : s.pulseAt p = some t) (due : t ≤ s.now)
  (hcodes : codes = p.codes.map fun c => (c.1, if (s.xpoint (xpIndex b c.1)).failed then 0 else c.2))
  (hu : u = s.mapPulses (updPulse (readyPulse b) fun q => some { q with onSince := some t, codes := codes }))
  (hv : v = codes.foldl (fun s c =>
    let s := s.updXpoint (xpIndex b c.1) fun x => { x with dLast := c.2 };
    if c.2 = 0 then s else s.emit (.pin .lampCol c.1 true t)) u)
include found placed due hcodes hu hv

/-- A line lit by a crosspoint in doubt is marked (R394). -/
theorem exec_pulseStart_line {st line : Nat} (ofLine : p.line = some (st, line)) :
    exec (.pulseStart b) s = .next (if (codes.any fun c => (u.xpoint (xpIndex b c.1)).state == .unverified) = true then
      updRec st line (fun r => { r with lampUnverified := true }) v else v) := by
  subst hv hu hcodes
  simp only [exec_pulseStart, execPulseStart, found, placed, if_neg (Nat.not_lt.mpr due), ofLine]

/-- A pulse of no line, a diagnostic one, has nothing to mark (R395). -/
theorem exec_pulseStart_noLine (noLine : p.line = none) : exec (.pulseStart b) s = .next v := by
  subst hv hu hcodes
  simp only [exec_pulseStart, execPulseStart, found, placed, if_neg (Nat.not_lt.mpr due), noLine]

end

/-! ### The pulse ends and its columns discharge (R377, R394) -/

theorem exec_pulseEnd_none (noneLit : s.lamps.pulses.find? (litPulse b) = none) : exec (.pulseEnd b) s = .next s := by
  simp only [exec_pulseEnd, execPulseEnd, noneLit]

theorem exec_pulseEnd_lit (found : s.lamps.pulses.find? (litPulse b) = some p) :
    exec (.pulseEnd b) s = .next (if s.now < p.onSince.getD 0 + p.width then s
      else endPulse b (p.onSince.getD 0 + p.width) p
        (lampFeed p (if p.width < us 2 then p.codes.foldl (fun s c => countUnchecked b c.1 s) s else s))) := by
  simp only [exec_pulseEnd, execPulseEnd, found]

theorem exec_dischargeEnd_eq (s : State) (b : Fin 16) : exec (.dischargeEnd b) s = .next { s with lamps :=
    { s.lamps with discharging := s.lamps.discharging.filter fun d => !(d.1 == b.val && decide (d.2 ≤ s.now)) } } := by
  rw [exec_dischargeEnd, execDischargeEnd]

/-! ### The pulse is judged (R388 to R392) -/

section
variable {meas : List SinkMeas}

theorem exec_pulseCheck_none (noneLit : s.lamps.pulses.find? (litPulse b) = none) : exec (.pulseCheck b meas) s = .next s := by
  simp only [exec_pulseCheck, execPulseCheck, noneLit]

/-- A pulse is not judged that is too short, is judged already or has not settled. -/
theorem exec_pulseCheck_skips (found : s.lamps.pulses.find? (litPulse b) = some p)
    (skips : p.width < us 2 ∨ p.measured = true ∨ s.now < p.onSince.getD 0 + us 2) : exec (.pulseCheck b meas) s = .next s := by
  have skipped : (p.width < us 2 || p.measured || s.now < p.onSince.getD 0 + us 2) = true := by simpa [or_assoc] using skips
  simp only [exec_pulseCheck, execPulseCheck, found, if_pos skipped]

theorem exec_pulseCheck_judges {u v : State} {lit : List SinkMeas} (found : s.lamps.pulses.find? (litPulse b) = some p)
    (long : us 2 ≤ p.width) (new : p.measured = false) (settled : p.onSince.getD 0 + us 2 ≤ s.now) (hlit : lit = meas.filter (litNow p))
    (hu : u = headroomTake b p lit (s.mapPulses (updPulse (litPulse b) fun q => some { q with measured := true })))
    (hv : v = lit.foldl (fun s m => checkLit b p lit m s) u) :
    exec (.pulseCheck b meas) s = .next ((meas.filter fun m => !m.lit).foldl (fun s m => checkUnlit b lit m s) v) := by
  subst hv hu hlit
  have judged : ¬(p.width < us 2 || p.measured || s.now < p.onSince.getD 0 + us 2) = true := by simp [long, new, settled]
  simp only [exec_pulseCheck, execPulseCheck, found, if_neg judged]

end
end

/-- Settles O33, by which pulse of the band there is, by its instant, and for a pulse that starts by whether it is a line's. -/
theorem lampPulses : Obligations.LampPulses := by
  unfold Obligations.LampPulses
  refine ⟨?noneWaits, ?waitsGone, ?waits, ?noneReady, ?readyGone, ?readyEarly, ?starts, ?noneEnds, ?ends, exec_dischargeEnd_eq, ?noneJudged,
    ?skips, ?judges⟩
  case noneWaits => exact fun s b noneWaits => exec_bandAssert_none noneWaits
  case waitsGone => exact fun s b p found gone => exec_bandAssert_gone found gone
  case waits => exact fun s b p t found placed => exec_bandAssert_placed found placed
  case noneReady => exact fun s b noneReady => exec_pulseStart_none noneReady
  case readyGone => exact fun s b p found gone => exec_pulseStart_gone found gone
  case readyEarly => exact fun s b p t found placed early => exec_pulseStart_early found placed early
  case starts =>
    intro s u v b p t codes found placed due hcodes hu hv
    rcases ofLine : p.line with _ | ⟨st, line⟩
    · exact exec_pulseStart_noLine found placed due hcodes hu hv ofLine
    · exact exec_pulseStart_line found placed due hcodes hu hv ofLine
  case noneEnds => exact fun s b noneLit => exec_pulseEnd_none noneLit
  case ends => exact fun s b p found => exec_pulseEnd_lit found
  case noneJudged => exact fun s b meas noneLit => exec_pulseCheck_none noneLit
  case skips => exact fun s b p meas found skips => exec_pulseCheck_skips found skips
  case judges => exact fun s u v b p meas lit found long new settled hlit hu hv =>
    exec_pulseCheck_judges found long new settled hlit hu hv

end Sys2Proof.Machine
end

section
/-! PROOFS. Lamp tests and crosspoints in doubt (R391, R395, R396, R398, R399). -/
namespace Sys2Proof.Machine

/-! ### The commands by their meaning -/

theorem exec_lampTest (s : State) : exec .lampTest s = execLampTest s := rfl
theorem exec_lampTestDone (s : State) (cols : List (Fin 64)) : exec (.lampTestDone cols) s = execLampTestDone cols s := rfl
theorem exec_lampUnverified (s : State) (b : Fin 16) (c : Fin 64) : exec (.lampUnverified b c) s = execLampUnverified b c s := rfl
theorem exec_lampLift (s : State) (b : Fin 16) (c : Fin 64) : exec (.lampLift b c) s = execLampLift b c s := rfl
theorem exec_diagPulse (s : State) (b : Fin 16) : exec (.diagPulse b) s = execDiagPulse b s := rfl

/-! ### The neighbour test (R391) -/

theorem lampTestOk_iff {s : State} : lampTestOk s = true ↔
    (s.mode = .idleReady ∨ s.mode = .maintenance) ∧ ((List.range 16).all fun b => !s.flag (Obj.bandEnable b)) = true := by
  simp only [lampTestOk, Bool.and_eq_true, Bool.or_eq_true, beq_iff_eq]

theorem exec_lampTest_eq (s : State) : exec .lampTest s = .next (
    if (s.mode = .idleReady ∨ s.mode = .maintenance) ∧ ((List.range 16).all fun b => !s.flag (Obj.bandEnable b)) = true
    then startLampTest s else s) := by
  simp only [exec_lampTest, execLampTest, lampTestOk_iff]

section
variable {s : State} {cols : List (Fin 64)} {t : Nat}

theorem exec_lampTestDone_none (noTest : s.lamps.testUntil = none) : exec (.lampTestDone cols) s = .next s := by
  simp only [exec_lampTestDone, execLampTestDone, noTest]

theorem exec_lampTestDone_some (test : s.lamps.testUntil = some t) : exec (.lampTestDone cols) s = .next (if s.now < t then s
    else shortColumns (cols.map Fin.val) { s with lamps := { s.lamps with testUntil := none } }) := by
  simp only [exec_lampTestDone, execLampTestDone, test]

end

section
variable {s : State} {b : Fin 16} {c : Fin 64}

/-! ### A crosspoint stays in doubt (R396) -/

theorem exec_lampUnverified_due (doubt : (s.xpoint (xpIndex b c)).state = .unverified) (new : (s.xpoint (xpIndex b c)).told = false)
    (due : (s.xpoint (xpIndex b c)).since + ms 50 ≤ s.now) :
    exec (.lampUnverified b c) s = .next ((s.updXpoint (xpIndex b c) fun x => { x with told := true }).raiseFault
      .lampUnverified [xpIndex b c] Kind.lampUnverified 1 (xpIndex b c) 0 (islandOf 1 (c / 32))) := by
  rw [exec_lampUnverified, execLampUnverified, if_neg (by simp [doubt, new, due])]

theorem exec_lampUnverified_idle (idle : (s.xpoint (xpIndex b c)).state ≠ .unverified ∨ (s.xpoint (xpIndex b c)).told = true ∨
    s.now < (s.xpoint (xpIndex b c)).since + ms 50) : exec (.lampUnverified b c) s = .next s := by
  rw [exec_lampUnverified, execLampUnverified, if_pos (by simpa [or_assoc] using idle)]

/-! ### The lift by the neighbours (R398, R399) -/

theorem exec_lampLift_notDue (notDue : s.lamps.liftsDue.contains (xpIndex b c) = false) : exec (.lampLift b c) s = .next s := by
  rw [exec_lampLift, execLampLift, if_pos (by rw [notDue]; rfl)]

section
variable {u : State} {firsts : List (Nat × Nat)}
  (due : s.lamps.liftsDue.contains (xpIndex b c) = true)
  (hu : u = { s with lamps := { s.lamps with liftsDue := s.lamps.liftsDue.filter (· != xpIndex b c) } })
  (hfirsts : firsts = (u.streamsNaming b).map fun st => (st, u.nextCycleLine st))
include due hu hfirsts

/-- With no usable neighbour the lift is told with outcome 2 and reported. -/
theorem exec_lampLift_alone (alone : u.liftable b c = []) : exec (.lampLift b c) s = .next ((u.raise .lampLift
      ((xpIndex b c : Int) :: 2 :: firsts.flatMap fun f => [(f.1 : Int), (f.2 : Int)]) 3).report
        Kind.lampLift 3 (xpIndex b c) 0 (islandOf 0 0)) := by
  subst hfirsts hu
  simp only [exec_lampLift, execLampLift, due, alone]
  rfl

/-- The neighbours that are left take the lift, a single one on both accounts. -/
theorem exec_lampLift_lifts {v : State} {n : Nat} {more : List Nat} {capped : Bool} (near : u.liftable b c = n :: more)
    (hv : v = (n :: more).foldl (fun s n => s.updXpoint (xpIndex b n) fun x =>
      { x with lifts := x.lifts + (if (n :: more).length = 1 then 2 else 1), liftFrom := firsts }) u)
    (hcapped : capped = ((n :: more).any fun n =>
      (liftedCode (fullCode (v.nat (Obj.bandFullScale b)) (Table.get 32768 v.lamps.trim (xpIndex b n)))
        (v.xpoint (xpIndex b n)).lifts (v.nat Obj.liftPct)).2)) :
    exec (.lampLift b c) s = .next (inserted 5 (xpIndex b c) (xpIndex b n) 0 (v.raise .lampLift
      ((xpIndex b c : Int) :: (if capped then 1 else 0 : Nat) :: firsts.flatMap fun f => [(f.1 : Int), (f.2 : Int)]) 0)) := by
  dsimp only at hu
  -- the fold's own variable hides `n` in `hv`, where only the number of neighbours matters
  simp only [List.length_cons] at hv
  rw [exec_lampLift, execLampLift]
  dsimp only
  rw [if_neg (by rw [due]; exact Bool.false_ne_true), ← hu, near, ← hfirsts, List.length_cons, ← hv, ← hcapped]
  cases capped <;> rfl

end

/-! ### The diagnostic pulse (R395) -/

theorem exec_diagPulse_due (doubt : ((s.columnsOf b).any fun c => (s.xpoint (xpIndex b c)).state == .unverified) = true)
    (enabled : s.flag (Obj.bandEnable b) = true) (free : diagInterval b s = true) :
    exec (.diagPulse b) s = .next (s.mapPulses fun ps =>
      { line := none, band := b, offset := s.now + us 1, width := us 3,
        codes := ((s.columnsOf b).filter fun c => !(s.xpoint (xpIndex b c)).failed).map fun c =>
          (c, max (s.xpoint (xpIndex b c)).dLast
            (fullCode (s.nat (Obj.bandFullScale b)) (Table.get 32768 s.lamps.trim (xpIndex b c)) / 16)) } :: ps) := by
  rw [exec_diagPulse, execDiagPulse, doubt, enabled, free]; rfl

theorem exec_diagPulse_idle (idle : ((s.columnsOf b).any fun c => (s.xpoint (xpIndex b c)).state == .unverified) = false ∨
    s.flag (Obj.bandEnable b) = false ∨ diagInterval b s = false) : exec (.diagPulse b) s = .next s := by
  rw [exec_diagPulse, execDiagPulse, if_pos]
  rcases idle with sure | disabled | lit
  · simp only [sure, Bool.not_false, Bool.true_or]
  · simp only [disabled, Bool.not_false, Bool.or_true, Bool.true_or]
  · simp only [lit, Bool.not_false, Bool.or_true]

end

/-- Settles O34, by the test that runs, by the state of the crosspoint, and by the neighbours that are left for a lift. -/
theorem lampTestsAndLifts : Obligations.LampTestsAndLifts := by
  unfold Obligations.LampTestsAndLifts
  refine ⟨exec_lampTest_eq, ?noTest, ?testEnds, ?told, ?notTold, ?notDue, ?alone, ?lifts, ?pulse, ?noPulse⟩
  case noTest => exact fun s cols noTest => exec_lampTestDone_none noTest
  case testEnds => exact fun s cols t test => exec_lampTestDone_some test
  case told => exact fun s b c doubt new due => exec_lampUnverified_due doubt new due
  case notTold => exact fun s b c idle => exec_lampUnverified_idle idle
  case notDue => exact fun s b c notDue => exec_lampLift_notDue notDue
  case alone => exact fun s u b c firsts due hu alone hfirsts => exec_lampLift_alone due hu hfirsts alone
  case lifts => exact fun s u v b c n more firsts capped due hu near hfirsts hv hcapped =>
    exec_lampLift_lifts due hu hfirsts near hv hcapped
  case pulse => exact fun s b doubt enabled free => exec_diagPulse_due doubt enabled free
  case noPulse => exact fun s b idle => exec_diagPulse_idle idle

end Sys2Proof.Machine
end

section
/-! PROOFS. SYNC and the lamp rail (R382, R383, R386, R387, R400, R401, R625). -/
namespace Sys2Proof.Machine

/-! ### The commands by their meaning -/

theorem exec_syncFire (s : State) : exec .syncFire s = execSyncFire s := rfl
theorem exec_syncEdge (s : State) : exec .syncEdge s = execSyncEdge s := rfl
theorem exec_syncFault (s : State) : exec .syncFault s = execSyncFault s := rfl
theorem exec_bandEnable (s : State) (b : Fin 16) (v : Bool) : exec (.bandEnable b v) s = execBandEnable b v s := rfl
theorem exec_headroomEval (s : State) : exec .headroomEval s = execHeadroomEval s := rfl

/-! ### The SYNC bus (R382, R383, R386) -/

theorem syncFireOk_iff {s : State} : syncFireOk s = true ↔ s.nat Obj.syncRole = 2 := by
  rw [syncFireOk, beq_iff_eq]

theorem exec_syncFire_eq (s : State) : exec .syncFire s = .next (if s.nat Obj.syncRole = 2 then
    s.emits [.pin .sync 0 false s.now, .pin .sync 0 true (s.now + us 1)] else s) := by
  simp only [exec_syncFire, execSyncFire, syncFireOk_iff]

theorem exec_syncEdge_eq (s : State) : exec .syncEdge s = .next (if s.nat Obj.syncRole = 0 ∨ s.syncUnfit = true then s
    else syncBroadcast (({ s with lamps := { s.lamps with syncFault := none } } : State).countWrap Obj.syncCount)) := by
  simp only [exec_syncEdge, execSyncEdge, Bool.or_eq_true, decide_eq_true_eq]

theorem exec_syncFault_eq (s : State) : exec .syncFault s = .next (if s.nat Obj.syncRole = 0 then s
    else ({ s with lamps := { s.lamps with syncFault := some s.now },
                   groupsWaiting := s.groupsWaiting.map (withdrawInstant s.now) } : State).raiseFault
      .syncFault [] Kind.syncFault 2 0 0 (islandOf 0 0)) := by
  rw [exec_syncFault, execSyncFault]

/-! ### Bands (R387) -/

theorem exec_bandEnable_on {s u : State} {b : Fin 16} (hu : u = s.setReg (Obj.bandEnable b) 1) : exec (.bandEnable b true) s =
    .next (if s.lamps.driven.contains b.val then u
      else driveBand b false u.now { u with lamps := { u.lamps with driven := b.val :: u.lamps.driven } }) := by
  subst hu
  rw [exec_bandEnable, execBandEnable, if_pos rfl]
  rfl

theorem exec_bandEnable_off (s : State) (b : Fin 16) : exec (.bandEnable b false) s = .next (disableBand b s) := by
  rw [exec_bandEnable, execBandEnable, if_neg Bool.false_ne_true]

/-! ### The headroom rule (R400, R401, R625) -/

section
variable {s t : State}

theorem exec_headroomEval_idle (idle : s.lampRailHeld = true ∨
    (s.nat Obj.headroomMode ≠ 0 ∧ s.loopDue 4 0 (us (s.nat Obj.headroomPeriod)) = false)) : exec .headroomEval s = .next s := by
  rw [exec_headroomEval, execHeadroomEval, if_pos (by simpa using idle)]

/-- In mode 0 the rail holds the fixed set point (R401). -/
theorem exec_headroomEval_fixed (regulates : s.lampRailHeld = false) (fixed : s.nat Obj.headroomMode = 0) (ht : t = s.loopRan 4 0) :
    exec .headroomEval s = .next (({ t with lamps := { s.lamps with sawChecked := false, starved := false, leastMv := none } } : State).setReg
      Obj.lampRailSetpoint (s.reg Obj.lampRailFixed)) := by
  subst ht
  rw [exec_headroomEval, execHeadroomEval, if_neg (by simp [regulates, fixed])]
  exact congrArg Host.Outcome.next (if_pos fixed)

section
variable (regulates : s.lampRailHeld = false) (mode : s.nat Obj.headroomMode ≠ 0)
  (due : s.loopDue 4 0 (us (s.nat Obj.headroomPeriod)) = true) (ht : t = s.loopRan 4 0)
include regulates mode due ht

/-- A period without a checked pulse keeps the set point, within its bounds. -/
theorem exec_headroomEval_unchecked (unchecked : s.lamps.sawChecked = false) :
    exec .headroomEval s = .next (({ t with lamps := { s.lamps with sawChecked := false, starved := false, leastMv := none } } : State).setReg
      Obj.lampRailSetpoint (clampInt (s.reg Obj.lampRailMin) (s.reg Obj.lampRailMax) (s.reg Obj.lampRailSetpoint))) := by
  subst ht
  rw [exec_headroomEval, execHeadroomEval, if_neg (by simp [regulates, due])]
  simp [mode, unchecked]

/-- A period with a checked pulse moves the set point, and tells once that a bound holds it. -/
theorem exec_headroomEval_checked {u : State} {sp want held : Int} {bound : Option Bool} (checked : s.lamps.sawChecked = true)
    (hsp : sp = s.reg Obj.lampRailSetpoint)
    (hwant : want = if s.lamps.starved then sp + 200
      else if (∃ v, s.lamps.leastMv = some v ∧ 800 + s.nat Obj.headroomTarget + 50 ≤ v) then sp - 25 else sp)
    (hheld : held = clampInt (s.reg Obj.lampRailMin) (s.reg Obj.lampRailMax) want)
    (hbound : bound = if held = want then none else some (decide (held < want)))
    (hu : u = ({ t with lamps := { s.lamps with sawChecked := false, starved := false, leastMv := none, atBound := bound } } : State).setReg
      Obj.lampRailSetpoint held) :
    exec .headroomEval s = .next (if bound.isSome = true ∧ bound ≠ s.lamps.atBound then
      (u.count Obj.headroomClamps).raise .policyClamp [b2n (bound == some true)] else u) := by
  -- the record of `hu` written out as it is in the rule's own text
  dsimp only at hu
  subst ht
  rw [exec_headroomEval, execHeadroomEval, if_neg (by simp [regulates, due])]
  simp only [State.loopRan_nat, State.loopRan_reg, State.loopRan_lamps, if_neg mode, checked, Bool.not_true, Bool.false_eq_true,
    if_false, ← hsp]
  generalize moved : (if s.lamps.starved = true then sp + 200 else _) = wanted
  obtain rfl : want = wanted := by
    rw [← moved, hwant]
    refine if_congr .rfl rfl (if_congr ?_ rfl rfl)
    cases s.lamps.leastMv with
    | none => simp
    | some v =>
      simp only [Option.some.injEq, exists_eq_left']
      exact decide_eq_true_iff.symm
  rw [← hheld, ← hbound, ← hu]
  simp only [Bool.and_eq_true, bne_iff_ne]

end
end

/-- Settles O35, by the role and the fault of SYNC, by the value written to the band, and by the mode and the instant of the rule. -/
theorem syncAndLampRail : Obligations.SyncAndLampRail := by
  unfold Obligations.SyncAndLampRail
  refine ⟨exec_syncFire_eq, exec_syncEdge_eq, exec_syncFault_eq, ?enabled, exec_bandEnable_off, ?idle, ?fixed, ?unchecked, ?checked⟩
  case enabled => exact fun s u b hu => exec_bandEnable_on hu
  case idle => exact fun s idle => exec_headroomEval_idle idle
  case fixed => exact fun s t regulates fixed ht => exec_headroomEval_fixed regulates fixed ht
  case unchecked => exact fun s t regulates mode due ht unchecked => exec_headroomEval_unchecked regulates mode due ht unchecked
  case checked => exact fun s t u sp want held bound regulates mode due ht checked hsp hwant hheld hbound hu =>
    exec_headroomEval_checked regulates mode due ht checked hsp hwant hheld hbound hu

end Sys2Proof.Machine
end

section
/-! PROOFS. Pages, host marks and the read windows (R415, R438, R442, R443, R452). -/
namespace Sys2Proof.Machine

/-! ### The commands by their meaning -/

theorem exec_pageRelease (s : State) (st : Fin 64) (page : BitVec 32) :
    exec (.pageRelease st page) s = .next (releasePage st page.toNat s) := rfl
theorem exec_hostMark (s : State) (st : Fin 64) (k : Fin 8) (v : BitVec 64) :
    exec (.hostMark st k v) s = execHostMark st k v s := rfl
theorem exec_bar4Read (s : State) (off len : Nat) : exec (.bar4Read off len) s =
    .next (enq bar4Chan (.hostCompletion true (readReservoir off len s).1) (readReservoir off len s).2) := rfl
theorem exec_bar4Write (s : State) (off : Nat) (data : Bytes) :
    exec (.bar4Write off data) s = .next ((s.count Obj.bar4WritesDropped).emit .unsupportedRequest) := rfl

/-! ### Host marks (R415, R443) -/

/-- A value the ring accepts is all ones, or one of the lines it may hold. -/
theorem hostMarkOk_iff {st v : Nat} {s : State} : hostMarkOk st v s = true ↔ v = maxU 64 ∨ ((s.ring st).allocated = true ∧
    (s.ring st).writeLine - s.nat (Obj.ringLines st) ≤ v ∧ v ≤ (s.ring st).writeLine) := by
  simp only [hostMarkOk, Bool.or_eq_true, beq_iff_eq, Bool.and_eq_true, decide_eq_true_eq]

section
variable {s : State} {st : Fin 64} {k : Fin 8} {v : BitVec 64}

theorem exec_hostMark_taken (ok : hostMarkOk st v.toNat s = true) : exec (.hostMark st k v) s = .next (moveMark st
    (fun r => if v.toNat = maxU 64 then r.dropMark .host k else r.placeMark .host k v.toNat)
    (s.setReg (Obj.hostMark st k) v.toNat)) := by
  simp only [exec_hostMark, execHostMark, ok, Bool.not_true, Bool.false_eq_true, if_false, beq_iff_eq]

theorem exec_hostMark_notTaken (refused : ¬ hostMarkOk st v.toNat s = true) : exec (.hostMark st k v) s = .next s := by
  simp only [exec_hostMark, execHostMark, Bool.eq_false_iff.mpr refused, Bool.not_false, if_true]

end

/-- Settles O36, by whether the ring accepts the value of a host mark. -/
theorem pagesMarksAndWindows : Obligations.PagesMarksAndWindows := by
  unfold Obligations.PagesMarksAndWindows
  refine ⟨exec_pageRelease, ?taken, ?notTaken, exec_bar4Read, exec_bar4Write⟩
  case taken => exact fun s st k v ok => exec_hostMark_taken ok
  case notTaken =>
    intro s st k v mark outside
    refine exec_hostMark_notTaken fun ok => ?_
    obtain all | ⟨allocated, lower, upper⟩ := hostMarkOk_iff.mp ok
    · exact mark all
    · rcases outside with free | below | above
      · exact absurd allocated (Bool.eq_false_iff.mp free)
      · exact absurd below (Nat.not_lt.mpr lower)
      · exact absurd above (Nat.not_lt.mpr upper)

end Sys2Proof.Machine
end

section
/-! PROOFS. Descriptors: their fetch, their source's data, their flush (R440, R441, R464, R467, R474 to R477, R486, R493, R494, R497). -/
namespace Sys2Proof.Machine

/-! ### The commands by their meaning -/

theorem exec_descriptorFetch (s : State) (n : Fin 256) (reply : ReadReply) :
    exec (.descriptorFetch n reply) s = execDescriptorFetch n reply s := rfl
theorem exec_sourceReadCompletion (s : State) (n : Fin 256) (reply : ReadReply) :
    exec (.sourceReadCompletion n reply) s = execSourceReadCompletion n reply s := rfl
theorem exec_fetchWaitExpire (s : State) (n : Fin 256) : exec (.fetchWaitExpire n) s = execFetchWaitExpire n s := rfl
theorem exec_flushReadCompletion (s : State) (n : Fin 256) (ok : Bool) :
    exec (.flushReadCompletion n ok) s = execFlushReadCompletion n ok s := rfl

section
variable {s : State} {n : Fin 256} {reply : ReadReply}

/-! ### The reply to a descriptor's read (R464, R467, R497) -/

theorem exec_descriptorFetch_idle (idle : (s.chan n).state ≠ .running ∨ (s.chan n).phase = .none ∨
    ((s.chan n).unasked = true ∧ ((s.chan n).phase = .reread ∨ (s.chan n).phase = .fetch))) :
    exec (.descriptorFetch n reply) s = .next s := by
  rw [exec_descriptorFetch, execDescriptorFetch]
  rcases idle with still | noRead | ⟨unasked, reread | fetch⟩
  · simp only [bne_iff_ne.mpr still, if_true]
  · simp only [noRead, ite_self]
  · simp only [reread, unasked, if_true, ite_self]
  · simp only [fetch, unasked, if_true, ite_self]

section
variable (running : (s.chan n).state = .running)
include running

theorem exec_descriptorFetch_fetch (phase : (s.chan n).phase = .fetch) (asked : (s.chan n).unasked = false) :
    exec (.descriptorFetch n reply) s = .next (match s.descRead (s.chan n).want 0 64 reply with
      | some d => loadDesc n (s.chan n).want d s
      | none => chanError n (s.chan n).want 2 s) := by
  simp only [exec_descriptorFetch, execDescriptorFetch, running, phase, asked]
  cases s.descRead (s.chan n).want 0 64 reply <;> rfl

/-- NEXT cannot be read again at the end: error 2 of the channel. -/
theorem exec_descriptorFetch_reread_bad (phase : (s.chan n).phase = .reread) (asked : (s.chan n).unasked = false)
    (bad : s.descRead (s.chan n).cur 16 8 reply = none) :
    exec (.descriptorFetch n reply) s = .next (chanError n (s.chan n).cur 2 s) := by
  simp only [exec_descriptorFetch, execDescriptorFetch, running, phase, asked, bad]
  rfl

/-- NEXT read again at the end: its E bit, the pace of the channel, or the next fetch. -/
theorem exec_descriptorFetch_reread {u : State} {v raw : Nat} (phase : (s.chan n).phase = .reread)
    (asked : (s.chan n).unasked = false) (read : s.descRead (s.chan n).cur 16 8 reply = some v)
    (hraw : raw = v / 64 * 64 + 2 * field v 1 1) (hu : u = s.updChan n fun c => { c with want := raw }) :
    exec (.descriptorFetch n reply) s = .next (if v % 2 = 1 then chanWait n .stoppedAtEnd s
      else if (s.chan n).paced = true ∧ (s.chan n).follow = false then chanWait n .waitingStart u else fetchDue n raw u) := by
  subst hraw hu
  simp [exec_descriptorFetch, execDescriptorFetch, running, phase, asked, read]

/-- While a descriptor is served, the next one of descriptor memory is taken on chip. -/
theorem exec_descriptorFetch_ahead {v raw d : Nat}
    (served : (s.chan n).phase = .data ∨ (s.chan n).phase = .flush ∨ (s.chan n).phase = .complete)
    (free : (s.chan n).prefetched = none) (here : descLocal (s.chan n).cur = true)
    (link : s.localRead (descAddr (s.chan n).cur + 16) 8 = some v) (goesOn : v % 2 = 0)
    (hraw : raw = v / 64 * 64 + 2 * field v 1 1) (onChip : descLocal raw = true)
    (read : s.localRead (descAddr raw) 64 = some d) :
    exec (.descriptorFetch n reply) s = .next (s.updChan n fun c => { c with prefetched := some (raw, d) }) := by
  subst hraw
  rcases served with phase | phase | phase <;>
    simp [exec_descriptorFetch, execDescriptorFetch, running, phase, free, here, link, goesOn, onChip, read]

end

theorem exec_descriptorFetch_notAhead
    (served : (s.chan n).phase = .data ∨ (s.chan n).phase = .flush ∨ (s.chan n).phase = .complete)
    (held : (s.chan n).prefetched.isSome = true ∨ descLocal (s.chan n).cur = false) :
    exec (.descriptorFetch n reply) s = .next s := by
  have stays : ((s.chan n).prefetched.isSome || !descLocal (s.chan n).cur) = true := by simpa using held
  rcases served with phase | phase | phase <;>
    simp only [exec_descriptorFetch, execDescriptorFetch, phase, stays, if_true, ite_self]

/-! ### The data of a descriptor (R440, R441, R474 to R477, R493) -/

theorem exec_sourceReadCompletion_idle
    (idle : (s.chan n).state ≠ .running ∨ (s.chan n).phase ≠ .data ∨ (s.chan n).desc = none) :
    exec (.sourceReadCompletion n reply) s = .next s := by
  rw [exec_sourceReadCompletion, execSourceReadCompletion]
  rcases idle with still | other | empty
  · simp only [bne_iff_ne.mpr still, Bool.true_or, if_true]
  · simp only [bne_iff_ne.mpr other, Bool.or_true, if_true]
  · simp only [empty, ite_self]

/-- A descriptor that asked nothing of an ADDRESS source, or has another one, takes no reply. -/
theorem exec_sourceReadCompletion_unasked {d : Nat} (desc : (s.chan n).desc = some d) (fetch : (s.chan n).fetch = none)
    (unasked : Desc.srcKind d ≠ 0 ∨ (s.chan n).unasked = true) : exec (.sourceReadCompletion n reply) s = .next s := by
  simp only [exec_sourceReadCompletion, execSourceReadCompletion, desc, fetch, Bool.or_eq_true, decide_eq_true_eq, if_pos unasked,
    ite_self]

section
variable {d : Nat} (running : (s.chan n).state = .running) (phase : (s.chan n).phase = .data) (desc : (s.chan n).desc = some d)
include running phase desc

theorem exec_sourceReadCompletion_fetch {j : FetchJob} (fetch : (s.chan n).fetch = some j) :
    exec (.sourceReadCompletion n reply) s = .next (fetchStep n d j s) := by
  simp only [exec_sourceReadCompletion, execSourceReadCompletion, running, phase, desc, fetch]
  rfl

section
variable {left : Nat} (fetch : (s.chan n).fetch = none) (kind : Desc.srcKind d = 0) (asked : (s.chan n).unasked = false)
  (hleft : left = descTotal d none - (s.chan n).pos - (if Desc.format d = 0 then ((s.chan n).piece d).2 else 1))
include fetch kind asked hleft

/-- A piece of host memory is in the reply, filled with zeros to its length. -/
theorem exec_sourceReadCompletion_host (space : Desc.srcSpace d = 0) :
    exec (.sourceReadCompletion n reply) s = .next (match reply with
      | .failed e => dataError n (4 + e) left s
      | .data b => takePiece n d ((b ++ List.replicate ((s.chan n).piece d).2 0).take ((s.chan n).piece d).2) s
      | .uncorrectable => s) := by
  subst hleft
  cases reply <;>
    simp [exec_sourceReadCompletion, execSourceReadCompletion, running, phase, desc, fetch, kind, asked, space]

/-- A piece of descriptor memory is what that memory holds. -/
theorem exec_sourceReadCompletion_descriptorMemory (space : Desc.srcSpace d = 1) :
    exec (.sourceReadCompletion n reply) s = .next (if reply = .uncorrectable then dataError n 8 left s
      else takePiece n d (s.host.mem.readN ((s.chan n).piece d).1 ((s.chan n).piece d).2) s) := by
  subst hleft
  cases reply <;>
    simp [exec_sourceReadCompletion, execSourceReadCompletion, running, phase, desc, fetch, kind, asked, space]

/-- A piece of the reservoir is what the reservoir holds, where no unit of it is uncorrectable. -/
theorem exec_sourceReadCompletion_reservoir (space : 2 ≤ Desc.srcSpace d) :
    exec (.sourceReadCompletion n reply) s = .next (
      if (s.badUnits ((s.chan n).piece d).1 ((s.chan n).piece d).2).2 ≠ 0 then dataError n 8 left s
      else takePiece n d (readReservoir ((s.chan n).piece d).1 ((s.chan n).piece d).2 s).1
        (readReservoir ((s.chan n).piece d).1 ((s.chan n).piece d).2 s).2) := by
  subst hleft
  obtain ⟨k, hk⟩ := Nat.exists_eq_add_of_le' space
  cases reply <;>
    simp [exec_sourceReadCompletion, execSourceReadCompletion, running, phase, desc, fetch, kind, asked, hk]

end
end

/-! ### A fetched line that does not come (R440, R441) -/

theorem exec_fetchWaitExpire_waiting {d t : Nat} {j : FetchJob} (running : (s.chan n).state = .running)
    (phase : (s.chan n).phase = .data) (desc : (s.chan n).desc = some d) (fetch : (s.chan n).fetch = some j)
    (waits : j.waitSince = some t) :
    exec (.fetchWaitExpire n) s = .next (if s.now < t + us (s.nat (Obj.fetchWait j.stream)) then s else fetchStep n d j s) := by
  simp only [exec_fetchWaitExpire, execFetchWaitExpire, running, phase, desc, fetch, waits]
  rfl

theorem exec_fetchWaitExpire_idle (idle : (s.chan n).state ≠ .running ∨ (s.chan n).phase ≠ .data ∨ (s.chan n).desc = none ∨
    (s.chan n).fetch = none ∨ (∃ j, (s.chan n).fetch = some j ∧ j.waitSince = none)) :
    exec (.fetchWaitExpire n) s = .next s := by
  rw [exec_fetchWaitExpire, execFetchWaitExpire]
  cases desc : (s.chan n).desc with
  | none => rfl
  | some d =>
    cases fetch : (s.chan n).fetch with
    | none => rfl
    | some j =>
      rcases idle with still | other | empty | noFetch | ⟨j', same, arrived⟩
      · simp only [bne_iff_ne.mpr still, Bool.true_or, if_true]
      · simp only [bne_iff_ne.mpr other, Bool.or_true, if_true]
      · simp only [desc, reduceCtorEq] at empty
      · simp only [fetch, reduceCtorEq] at noFetch
      · obtain rfl : j = j' := Option.some.inj (fetch.symm.trans same)
        simp only [arrived, ite_self]

/-! ### The flush (R486, R494) -/

theorem exec_flushReadCompletion_eq (s : State) (n : Fin 256) (ok : Bool) : exec (.flushReadCompletion n ok) s = .next (
    if (s.chan n).phase = .flush ∧ (s.chan n).unasked = false then s.updChan n fun c =>
      { c with phase := .complete, code := if ok then 0 else 10, count := if ok then c.count else 0 }
    else s) := by
  rw [exec_flushReadCompletion, execFlushReadCompletion, ← ite_not]
  simp only [Bool.or_eq_true, bne_iff_ne, ne_eq, not_or, not_not, Bool.not_eq_true]

end

/-- Settles O38, by the state and the phase of the channel, by what NEXT says, and by the space that the source's piece lies in. -/
theorem descriptorsAreFetchedAndServed : Obligations.DescriptorsAreFetchedAndServed := by
  unfold Obligations.DescriptorsAreFetchedAndServed
  refine ⟨?noReply, ?fetched, ?unreadable, ?reread, ?ahead, ?notAhead, ?noData, ?fetchJob, ?unasked, ?hostPiece, ?memoryPiece,
    ?reservoirPiece, ?expires, ?noWait, exec_flushReadCompletion_eq⟩
  case noReply => exact fun s n reply idle => exec_descriptorFetch_idle idle
  case fetched => exact fun s n reply running phase asked => exec_descriptorFetch_fetch running phase asked
  case unreadable => exact fun s n reply running phase asked bad => exec_descriptorFetch_reread_bad running phase asked bad
  case reread => exact fun s u n reply v raw running phase asked read hraw hu =>
    exec_descriptorFetch_reread running phase asked read hraw hu
  case ahead => exact fun s n reply v raw d running served free here link goesOn hraw onChip read =>
    exec_descriptorFetch_ahead running served free here link goesOn hraw onChip read
  case notAhead => exact fun s n reply served held => exec_descriptorFetch_notAhead served held
  case noData => exact fun s n reply idle => exec_sourceReadCompletion_idle idle
  case fetchJob => exact fun s n d j reply running phase desc fetch => exec_sourceReadCompletion_fetch running phase desc fetch
  case unasked => exact fun s n d reply _ _ desc fetch unasked => exec_sourceReadCompletion_unasked desc fetch unasked
  case hostPiece => exact fun s n d left reply running phase desc fetch kind asked space hleft =>
    exec_sourceReadCompletion_host running phase desc fetch kind asked hleft space
  case memoryPiece => exact fun s n d left reply running phase desc fetch kind asked space hleft =>
    exec_sourceReadCompletion_descriptorMemory running phase desc fetch kind asked hleft space
  case reservoirPiece =>
    intro s n d left p reply running phase desc fetch kind asked space hp hleft
    subst hp
    exact exec_sourceReadCompletion_reservoir running phase desc fetch kind asked hleft space
  case expires => exact fun s n d j t running phase desc fetch waits => exec_fetchWaitExpire_waiting running phase desc fetch waits
  case noWait => exact fun s n idle => exec_fetchWaitExpire_idle idle

end Sys2Proof.Machine
end

section
/-! PROOFS. Faults of channels and segments, wear, spares and repair records (R406, R652 to R654, R656, R660, R665, R668). -/
namespace Sys2Proof.Machine

/-! ### The commands by their meaning -/

theorem exec_reservoirChannel (s : State) (stack : Fin 2) (ch : Fin 16) :
    exec (.reservoirChannel stack ch) s = execReservoirChannel stack ch s := rfl
theorem exec_switchSegmentCheck (s : State) (d : Fin 64) (drops : List Nat) :
    exec (.switchSegmentCheck d drops) s = execSwitchSegmentCheck d drops s := rfl
theorem exec_wearEval (s : State) (m : WearSample) :
    exec (.wearEval m) s = .next (takeBands (takeDram m (takeAged m (takeLanes s)))) := rfl
theorem exec_spareTest (s : State) (k : Fin 68) (pass : Bool) : exec (.spareTest k pass) s = execSpareTest k pass s := rfl
theorem exec_plannedInsertion (s : State) : exec .plannedInsertion s = execPlannedInsertion s := rfl
theorem exec_plannedWaitExpire (s : State) : exec .plannedWaitExpire s = execPlannedWaitExpire s := rfl
theorem exec_repairRecordWrite (s : State) :
    exec .repairRecordWrite s = .next (s.dep.repairs.foldl (fun s _ => storeRecord s) s) := rfl
theorem exec_repairClear (s : State) (v : BitVec 16) : exec (.repairClear v) s = .next (clearRepairs v.toNat s) := rfl

/-! ### Channels of the reservoir (R653) -/

theorem exec_reservoirChannel_eq (s : State) (stack : Fin 2) (ch : Fin 16) : exec (.reservoirChannel stack ch) s = .next (
    if (Config.oneStack = true ∧ stack = 1) ∨ bitAt (s.nat Obj.channelFailed) (16 * stack + ch) = true then s
    else s.report Kind.reservoirChannel 2 (16 * stack + ch) 1 (islandOf 5 stack)) := by
  simp only [exec_reservoirChannel, execReservoirChannel, Bool.or_eq_true, Bool.and_eq_true, decide_eq_true_eq]

/-! ### Segments of a domain's switch (R654) -/

section
variable {s : State} {d : Fin 64} {drops : List Nat}

theorem exec_switchSegmentCheck_idle (idle : s.nat (Obj.domainState d) ≠ 2 ∨ s.loopDue 6 d (ms 1) = false) :
    exec (.switchSegmentCheck d drops) s = .next s := by
  rw [exec_switchSegmentCheck, execSwitchSegmentCheck, if_pos (by simpa using idle)]

/-- A check that is due keeps the new runs, and reports each segment whose run reached 16. -/
theorem exec_switchSegmentCheck_due {t u : State} {runs : List (Nat × Nat)} {x : DomainSwitch}
    (on : s.nat (Obj.domainState d) = 2) (due : s.loopDue 6 d (ms 1) = true) (ht : t = s.loopRan 6 d)
    (hruns : runs = s.segmentRuns d drops)
    (hx : x = { s.switch d with runs := runs.foldl (fun t p => Table.set 0 t p.1 p.2) (s.switch d).runs })
    (hu : u = { t with dep := { t.dep with switches := Table.set {} t.dep.switches d x } }) :
    exec (.switchSegmentCheck d drops) s = .next ((runs.filter fun p => p.2 == 16).foldl (fun s p =>
      s.report Kind.switchSegment 2 (d.val + 256 * p.1) 2 (islandOf 15 0)) u) := by
  subst hu hx hruns ht
  rw [exec_switchSegmentCheck, execSwitchSegmentCheck, if_neg (by simp [on, due])]
  rfl

end

/-! ### Warm spares (R652) -/

section
variable {s : State} {k : Fin 68} {pass : Bool}

theorem exec_spareTest_idle
    (idle : (s.slice k).state ≠ .spareWarm ∨ s.loopDue 7 k (ms (s.nat Obj.spareTestPeriod)) = false) :
    exec (.spareTest k pass) s = .next s := by
  rw [exec_spareTest, execSpareTest, if_pos (by simpa using idle)]

theorem exec_spareTest_due (warm : (s.slice k).state = .spareWarm)
    (due : s.loopDue 7 k (ms (s.nat Obj.spareTestPeriod)) = true) :
    exec (.spareTest k pass) s = .next (if pass = true then s.loopRan 7 k
      else notePools ((recordRepair 1 0 k 0 Kind.spareTestFail
        ((s.loopRan 7 k).updSlice k fun x => { x with state := .failed })).report Kind.spareTestFail 2 k 1 (islandOf 3 k))) := by
  rw [exec_spareTest, execSpareTest, if_neg (by simp [warm, due])]

end

/-! ### Planned insertions (R656) -/

theorem exec_plannedInsertion_eq (s : State) : exec .plannedInsertion s =
    .next (match s.dep.planned.find? fun p => s.plannedGap p && s.plannedFree p with
      | some p => runPlanned p s
      | none => s) := by
  rw [exec_plannedInsertion, execPlannedInsertion]
  cases s.dep.planned.find? fun p => s.plannedGap p && s.plannedFree p <;> rfl

theorem exec_plannedWaitExpire_eq (s : State) : exec .plannedWaitExpire s = .next (
    match s.dep.planned.find? fun p => decide (p.since + ms (s.nat Obj.plannedWaitMax) ≤ s.now) && s.plannedFree p with
    | some p => runPlanned p s
    | none => s) := by
  rw [exec_plannedWaitExpire, execPlannedWaitExpire]
  cases s.dep.planned.find? fun p => decide (p.since + ms (s.nat Obj.plannedWaitMax) ≤ s.now) && s.plannedFree p <;> rfl

/-- Settles O55, by whether the domain's or the spare's check is due, by its result, and by the planned insertion found. -/
theorem wearAndRepair : Obligations.WearAndRepair := by
  unfold Obligations.WearAndRepair
  refine ⟨exec_reservoirChannel_eq, ?noCheck, ?check, exec_wearEval, ?noTest, ?test, exec_plannedInsertion_eq,
    exec_plannedWaitExpire_eq, exec_repairRecordWrite, exec_repairClear⟩
  case noCheck => exact fun s d drops idle => exec_switchSegmentCheck_idle idle
  case check => exact fun s t u d drops runs x on due ht hruns hx hu => exec_switchSegmentCheck_due on due ht hruns hx hu
  case noTest => exact fun s k pass idle => exec_spareTest_idle idle
  case test =>
    intro s t k warm due ht
    subst ht
    exact ⟨exec_spareTest_due warm due, exec_spareTest_due warm due⟩

end Sys2Proof.Machine
end

section
/-! PROOFS. Every step keeps the canonical form. -/
namespace Sys2Proof.Machine

/-- The canonical form does not speak of the queue of commands. -/
theorem Canonical.queued {s : State} (c : Canonical s) (l : List Instr) : Canonical { s with pending := l } := { c with }

/-- A step answers a next state, which keeps what every command keeps, from the state with the front command taken. -/
theorem step_leads (s : State) : Leads { s with pending := s.pending.drop 1 } (step s) := by
  unfold step
  cases waiting : s.pending with
  | nil =>
    have same : { s with pending := ([] : List Instr).drop 1 } = s := by rw [List.drop_nil, ← waiting]
    rw [same]
    exact Leads.of_ends (Ends.next (tick_steady (Steady.refl s)))
  | cons c rest => exact exec_leads c _

/-- Settles O5: a step is a tick or a command, both keep the canonical form, and so does the taking of the front command. -/
theorem everyStepKeepsTheCanonicalForm : Obligations.EveryStepKeepsTheCanonicalForm := by
  unfold Obligations.EveryStepKeepsTheCanonicalForm
  intro s t canonical stepped
  obtain ⟨u, answered, held⟩ := step_leads s
  obtain rfl : t = u := by rw [stepped] at answered; exact Host.Outcome.next.inj answered
  exact held.canonical (canonical.queued _)

end Sys2Proof.Machine
end

section
/-! PROOFS. Host writes to BAR4 (R452). -/
namespace Sys2Proof.Machine

/-- A counter raised by `n` reads as the sum, or as its end where the sum lies above it. -/
theorem State.count_nat_self (s : State) (o : Obj) (n : Nat) (h : Table.rising s.dict) :
    (s.count o n).nat o = satInc (s.nat o) n := by
  rw [State.nat, State.count_reg_self s o n h, Int.toNat_natCast]

/-- Settles O8: the write counts in one register and sends one message; no other part of the state is touched. -/
theorem hostWritesToBar4AreDropped : Obligations.HostWritesToBar4AreDropped := by
  unfold Obligations.HostWritesToBar4AreDropped
  intro s off data canonical
  refine ⟨_, exec_bar4Write s off data, ?counted, rfl, ?others, rfl, rfl, rfl, rfl, rfl⟩
  case counted => rw [State.emit_nat, State.count_nat_self s _ 1 canonical.dict]
  case others =>
    intro o other
    rw [State.emit_reg, State.count_reg_of_ne s _ o 1 other]

end Sys2Proof.Machine
end

section
/-! PROOFS. Delta channels start and stop (R460, R461, R464, R465, R501). -/
namespace Sys2Proof.Machine

/-! ### The commands by their meaning -/

theorem exec_dltChDoorbell (s : State) (n : Fin 256) :
    exec (.dltChDoorbell n) s = .next (if (s.chan n).startSrc = 0 then startEvent n s else s) := rfl
theorem exec_channelTimerStart (s : State) (n : Fin 256) : exec (.channelTimerStart n) s = execChannelTimerStart n s := rfl
theorem exec_dltChEnSet (s : State) (n : Fin 256) : exec (.dltChEnSet n) s = .next (enableChan n s) := rfl
theorem exec_dltChEnClear (s : State) (n : Fin 256) : exec (.dltChEnClear n) s = .next (disableChan n s) := rfl
theorem exec_channelDisable (s : State) (n : Fin 256) : exec (.channelDisable n) s = .next (disableChan n s) := rfl
theorem exec_channelOff (s : State) (n : Fin 256) : exec (.channelOff n) s = execChannelOff n s := rfl
theorem exec_channelNextWrite (s : State) (n : Fin 256) (v : BitVec 64) :
    exec (.channelNextWrite n v) s = .next (writeNext n v.toNat s) := rfl

/-- The timer of a channel is a start event, unless another source starts the channel, the channel is disabled, its period is below the
least, or its tick lies ahead (R465). -/
theorem exec_channelTimerStart_eq (s : State) (n : Fin 256) : exec (.channelTimerStart n) s = .next (
    if (s.chan n).startSrc ≠ 1 ∨ (s.chan n).state = .off ∨ (s.chan n).state = .disabling ∨ (s.chan n).period < 1000 ∨
        s.dt < (s.chan n).firstDt + (s.chan n).tick * (s.chan n).period then s
    else startEvent n (s.updChan n fun c => { c with tick := c.tick + 1 })) := by
  simp only [exec_channelTimerStart, execChannelTimerStart, Bool.or_eq_true, decide_eq_true_eq, beq_iff_eq, or_assoc]

theorem exec_channelOff_other {s : State} {n : Fin 256} (other : (s.chan n).state ≠ .disabling) :
    exec (.channelOff n) s = .next s := by
  simp only [exec_channelOff, execChannelOff, bne_iff_ne.mpr other, if_true]

/-- A channel whose disabling ended is off, and on again where it was enabled meanwhile (R461). -/
theorem exec_channelOff_disabling {s : State} {n : Fin 256} (disabling : (s.chan n).state = .disabling) :
    exec (.channelOff n) s = .next (if (s.chan n).enAgain
      then enableChan n (s.updChan n fun c => { c with state := .off, enAgain := false })
      else s.updChan n fun c => { c with state := .off, enAgain := false }) := by
  simp only [exec_channelOff, execChannelOff, disabling, bne_self_eq_false, Bool.false_eq_true, if_false]

/-- Settles O37, by whether the timer's tick is due on a channel it may start, and by whether the channel was being disabled. -/
theorem channelsStartAndStop : Obligations.ChannelsStartAndStop := by
  unfold Obligations.ChannelsStartAndStop
  refine ⟨exec_dltChDoorbell, ?due, ?rests, ?enable, ?on, ?off, exec_channelNextWrite⟩
  case due =>
    intro s n timer on live period due
    rw [exec_channelTimerStart_eq, if_neg]
    rintro (other | off | disabling | short | ahead)
    · exact other timer
    · exact on off
    · exact live disabling
    · exact absurd period (Nat.not_le.mpr short)
    · exact absurd due (Nat.not_le.mpr ahead)
  case rests =>
    intro s n rests
    rw [exec_channelTimerStart_eq, if_pos rests]
  case enable => exact fun s n => ⟨exec_dltChEnSet s n, exec_dltChEnClear s n, exec_channelDisable s n⟩
  case on => exact fun s n other => exec_channelOff_other other
  case off =>
    rintro s _ n disabling rfl
    exact exec_channelOff_disabling disabling

end Sys2Proof.Machine
end

section
/-! PROOFS. Delivery and completion (R457, R463, R466, R467, R470, R478 to R480, R487, R490, R493). -/
namespace Sys2Proof.Machine

/-! ### The commands by their meaning -/

theorem exec_streamLineDeliver (s : State) (st : Fin 64) : exec (.streamLineDeliver st) s = execStreamLineDeliver st s := rfl
theorem exec_descriptorComplete (s : State) (n : Fin 256) : exec (.descriptorComplete n) s = execDescriptorComplete n s := rfl
theorem exec_dltCqHead (s : State) (v : BitVec 32) : exec (.dltCqHead v) s = .next (writeCqHead v.toNat s) := rfl
theorem exec_msixUnmask (s : State) (v : Fin 2048) : exec (.msixUnmask v) s = .next (unmask v s) := rfl

/-! ### A line for streaming delivery (R463, R478 to R480) -/

section
variable {s : State} {st : Fin 64}

/-- A stream without a channel, without delivery or without a DELIVERY mark delivers nothing. -/
theorem exec_streamLineDeliver_none (none_ : 256 ≤ s.nat (Obj.streamChannel st) ∨ s.nat (Obj.deliverScope st) = 2 ∨
    (s.ring st).marks.find? (fun m => m.kind == .delivery) = none) : exec (.streamLineDeliver st) s = .next s := by
  rw [exec_streamLineDeliver, execStreamLineDeliver]
  rcases none_ with unbound | scope | unmarked
  · simp only [decide_eq_true unbound, Bool.true_or, if_true]
  · simp only [scope, decide_true, Bool.or_true, if_true]
  · simp only [unmarked, Option.map_none, ite_self]

section
variable {m : Mark} {n from_ : Nat} {f : Option Nat × Nat} (bound : s.nat (Obj.streamChannel st) = n) (named : n < 256)
  (scope : s.nat (Obj.deliverScope st) ≠ 2) (mark : (s.ring st).marks.find? (fun m => m.kind == .delivery) = some m)
include bound named scope mark

theorem exec_streamLineDeliver_waits (hfrom : from_ = (s.chan n).after st m.index)
    (hf : f = s.nextDelivery st (s.nat (Obj.ringLines st) + 1) from_)
    (empty : (s.chan n).state = .idle ∨ (s.chan n).state = .stoppedAtEnd) : exec (.streamLineDeliver st) s = .next (
      if f.1 = none then (if f.2 = m.index ∨ from_ ≠ m.index then s else moveMark st (fun r => r.placeMark .delivery 0 f.2) s)
      else if (s.chan n).starveTold then s
      else (s.updChan n fun c => { c with starved := true, starveTold := true }).raise .dltStarved [n, st]) := by
  subst hfrom hf bound
  rw [exec_streamLineDeliver, execStreamLineDeliver]
  rcases empty with state | state <;> simp [Nat.not_le.mpr named, scope, mark, state]

section
variable {d : Nat} (running : (s.chan n).state = .running) (phase : (s.chan n).phase = .data) (desc : (s.chan n).desc = some d)
  (kind : Desc.srcKind d = 2)
include running phase desc kind

theorem exec_streamLineDeliver_done (done : streamDone d st (s.chan n) s = true) :
    exec (.streamLineDeliver st) s = .next (finishData n (Desc.lineCount d - (s.chan n).pos) s) := by
  subst bound
  simp [exec_streamLineDeliver, execStreamLineDeliver, Nat.not_le.mpr named, scope, mark, running, phase, desc, kind, done]

theorem exec_streamLineDeliver_takes {u : State} {line : Nat} {x : RingSlot} (hfrom : from_ = (s.chan n).after st m.index)
    (hf : f = s.nextDelivery st (s.nat (Obj.ringLines st) + 1) from_) (goesOn : streamDone d st (s.chan n) s = false)
    (hu : u = (if f.2 = m.index ∨ from_ ≠ m.index then s else moveMark st (fun r => r.placeMark .delivery 0 f.2) s))
    (next : f.1 = some line) (slot : u.slotOf st line = some x) :
    exec (.streamLineDeliver st) s = .next (
      if streamDone d st ((deliverLine n d st line x u).chan n) (deliverLine n d st line x u)
      then finishData n (Desc.lineCount d - ((deliverLine n d st line x u).chan n).pos) (deliverLine n d st line x u)
      else deliverLine n d st line x u) := by
  subst hfrom bound hf
  rw [exec_streamLineDeliver, execStreamLineDeliver]
  simp only [Nat.not_le.mpr named, scope, mark, running, phase, desc, kind, goesOn, next, decide_false, Bool.or_false, Bool.false_eq_true,
    if_false, Option.map_some, ne_eq, not_true_eq_false, Bool.or_eq_true, decide_eq_true_eq]
  rw [← hu, slot]

end
end
end

/-! ### A descriptor completes (R466, R467, R470, R487, R490, R493) -/

theorem exec_descriptorComplete_waits {s : State} {n : Fin 256} (waits : (s.chan n).desc = none ∨ (s.chan n).state ≠ .running ∨
    (s.chan n).phase ≠ .complete ∨ (s.chan n).tx ≠ []) : exec (.descriptorComplete n) s = .next s := by
  rw [exec_descriptorComplete, execDescriptorComplete]
  cases desc : (s.chan n).desc with
  | none => rfl
  | some d =>
    have rests : ((s.chan n).state != .running || (s.chan n).phase != .complete || !(s.chan n).tx.isEmpty) = true := by
      simpa [desc, or_assoc] using waits
    simp only [rests, if_true]

/-! ### The turns of the output (R484) -/

theorem deltaIssue_rests {s : State} (rests : s.nat Obj.hostLinkRating = 0 ∨ s.now < s.host.linkFree ∨ s.pickClass = none) :
    deltaIssue s = s := by
  unfold deltaIssue
  rcases rests with down | busy | idle
  · simp only [down, decide_true, Bool.true_or, if_true]
  · simp only [busy, decide_true, Bool.or_true, if_true]
  · simp only [idle, ite_self]

theorem deltaIssue_serves {s : State} {k n : Nat} {t : Tx} {rest : List Tx} (up : s.nat Obj.hostLinkRating ≠ 0)
    (free : s.host.linkFree ≤ s.now) (cls : s.pickClass = some k) (turn : nextTurn (Table.get 0 s.host.turns k) (s.ready k) = some n)
    (front : s.txOf n = t :: rest) : deltaIssue s = serveChan k n t rest s := by
  unfold deltaIssue
  simp only [up, Nat.not_lt.mpr free, cls, turn, front, decide_false, Bool.or_self, Bool.false_eq_true, if_false]

/-- Settles O39, by the state of the stream's channel, by whether the descriptor is complete, and by whether the output may serve. -/
theorem deliveryCompletes : Obligations.DeliveryCompletes := by
  unfold Obligations.DeliveryCompletes
  refine ⟨?none, ?starves, ?takes, ?done, ?waits, ?completes, ?rests, ?serves, exec_dltCqHead, exec_msixUnmask⟩
  case none => exact fun s st none_ => exec_streamLineDeliver_none none_
  case starves => exact fun s st m n from_ f bound named scope mark hfrom hf empty =>
    exec_streamLineDeliver_waits bound named scope mark hfrom hf empty
  case takes => exact fun s u st m n from_ d line f x bound named scope mark hfrom hf running phase desc kind goesOn hu next slot =>
    exec_streamLineDeliver_takes bound named scope mark running phase desc kind hfrom hf goesOn hu next slot
  case done => exact fun s st m n d bound named scope mark running phase desc kind done =>
    exec_streamLineDeliver_done bound named scope mark running phase desc kind done
  case waits => exact fun s n waits => exec_descriptorComplete_waits waits
  case completes =>
    rintro s _ _ _ _ n d _ _ _ _ _ _ desc running phase sent rfl rfl rfl rfl rfl rfl rfl rfl rfl rfl
    simp only [exec_descriptorComplete, execDescriptorComplete, desc, running, phase, sent]
    rfl
  case rests => exact fun s rests => deltaIssue_rests rests
  case serves => exact fun s k n t rest up free cls turn front => deltaIssue_serves up free cls turn front

end Sys2Proof.Machine
end

section
/-! PROOFS. The host link and the register windows (R453 to R455, R579, R580). -/
namespace Sys2Proof.Machine

/-! ### The commands by their meaning -/

theorem exec_hostLinkDown (s : State) : exec .hostLinkDown s = .next (linkDown s) := rfl
theorem exec_hostLinkDegraded (s : State) (gen width : Nat) :
    exec (.hostLinkDegraded gen width) s = execHostLinkDegraded gen width s := rfl
theorem exec_bar0RegisterWrite (s : State) (off : Nat) (v : BitVec 32) :
    exec (.bar0RegisterWrite off v) s = execBar0RegisterWrite off v s := rfl
theorem exec_mbxTxTail (s : State) (v : BitVec 32) : exec (.mbxTxTail v) s = .next (writeTxTail v.toNat s) := rfl
theorem exec_mbxRxHead (s : State) (v : BitVec 32) : exec (.mbxRxHead v) s = .next (writeRxHead v.toNat s) := rfl
theorem exec_mbxDisable (s : State) : exec .mbxDisable s = .next ((emptyMailbox s).updMbx fun m => { m with en := false }) := rfl

/-! ### A link that retrains (R454) -/

section
variable {s : State} {gen width : Nat}

theorem exec_hostLinkDegraded_rests (rests : linkOk gen width = false ∨ s.nat Obj.hostLinkRating ≤ linkRating gen width) :
    exec (.hostLinkDegraded gen width) s = .next s := by
  rw [exec_hostLinkDegraded, execHostLinkDegraded, if_pos (by simpa using rests)]

/-- A link below its rating takes the lower one, and tells it where a class 0 stream runs. -/
theorem exec_hostLinkDegraded_below {u : State} (ok : linkOk gen width = true)
    (below : linkRating gen width < s.nat Obj.hostLinkRating)
    (hu : u = (s.setReg Obj.hostLinkState (linkWord gen width s.host.mps)).setReg Obj.hostLinkRating (linkRating gen width)) :
    exec (.hostLinkDegraded gen width) s = .next (
      if ((List.range 64).any fun st => u.streamOpen? st && u.nat (Obj.streamClass st) == 0) = true then
        (u.count Obj.linkRetrains).raiseFault .hostLinkDegraded [gen, width] Kind.hostLinkDegraded 2 0 1 (islandOf 6 0)
      else u) := by
  subst hu
  rw [exec_hostLinkDegraded, execHostLinkDegraded, if_neg (by simp [ok, Nat.not_le.mpr below])]

end

/-! ### The control window, by the range that the word lies in (R455) -/

section
variable {s : State} {off : Nat} {v : BitVec 32}

theorem exec_bar0RegisterWrite_outside (outside : off % 4 ≠ 0 ∨ 0x610000 ≤ off) :
    exec (.bar0RegisterWrite off v) s = .next s := by
  rw [exec_bar0RegisterWrite]
  unfold execBar0RegisterWrite
  by_cases word : off % 4 = 0
  · have above : 0x610000 ≤ off := outside.resolve_left (not_not_intro word)
    have beyond {b : Nat} (inside : b ≤ 0x610000) : ¬ off < b := Nat.not_lt.mpr (inside.trans above)
    have other {b : Nat} (inside : b < 0x610000) : off ≠ b := (inside.trans_le above).ne'
    simp [word, beyond, other]
  · simp only [ne_eq, word, not_false_eq_true, if_true]

section
variable (word : off % 4 = 0)
include word

theorem exec_bar0RegisterWrite_channel (above : 0x10000 ≤ off) (below : off < 0x20000) : exec (.bar0RegisterWrite off v) s =
    .next (writeChanReg ((off - 0x10000) / 256) ((off - 0x10000) % 256) v.toNat s) := by
  rw [exec_bar0RegisterWrite]
  unfold execBar0RegisterWrite
  extract_lets
  rw [if_neg (not_not_intro word), if_neg (by omega), if_pos below]

theorem exec_bar0RegisterWrite_vector (above : 0x20000 ≤ off) (below : off < 0x28000) : exec (.bar0RegisterWrite off v) s =
    .next (writeMsix ((off - 0x20000) / 16) ((off - 0x20000) % 16 / 4) v.toNat s) := by
  rw [exec_bar0RegisterWrite]
  unfold execBar0RegisterWrite
  extract_lets
  rw [if_neg (not_not_intro word), if_neg (by omega), if_neg (by omega), if_pos below]

theorem exec_bar0RegisterWrite_doorbell (above : 0x100000 ≤ off) (below : off < 0x200000) : exec (.bar0RegisterWrite off v) s =
    .next (if (off - 0x100000) % 4096 = 0 ∧ (s.chan ((off - 0x100000) / 4096)).startSrc = 0
      then startEvent ((off - 0x100000) / 4096) s else s) := by
  rw [exec_bar0RegisterWrite]
  unfold execBar0RegisterWrite
  extract_lets
  rw [if_neg (not_not_intro word), if_neg (by omega), if_neg (by omega),
    if_neg (by omega), if_neg (by omega), if_pos below]
  simp only [Bool.and_eq_true, decide_eq_true_eq]

theorem exec_bar0RegisterWrite_mailboxRing (above : 0x210000 ≤ off) (below : off < 0x610000) : exec (.bar0RegisterWrite off v) s =
    .next (s.updMbx fun m => { m with txRing := m.txRing.writeN (off - 0x210000) (leBytes 4 v.toNat) }) := by
  rw [exec_bar0RegisterWrite]
  unfold execBar0RegisterWrite
  extract_lets
  rw [if_neg (not_not_intro word), if_neg (by omega), if_neg (by omega),
    if_neg (by omega), if_neg (by omega), if_neg (by omega), if_neg (by omega), if_neg (by omega), if_neg (by omega),
    if_pos (by simp [above, below])]

end
end

/-- Settles O40, by the rating of the link, and by the range of the control window that the word lies in. -/
theorem hostLinkAndRegisterWindows : Obligations.HostLinkAndRegisterWindows := by
  unfold Obligations.HostLinkAndRegisterWindows
  refine ⟨exec_hostLinkDown, ?sameRating, ?lowerRating, fun _ _ => ⟨rfl, rfl, rfl, rfl, rfl, rfl, rfl⟩, ?channel, ?vector, ?doorbell,
    ?mailboxRing, ?outside, fun s v => ⟨exec_mbxTxTail s v, exec_mbxRxHead s v⟩, exec_mbxDisable⟩
  case sameRating => exact fun s gen width rests => exec_hostLinkDegraded_rests rests
  case lowerRating => exact fun s u gen width ok below hu => exec_hostLinkDegraded_below ok below hu
  case channel =>
    intro s n o v
    have channel : (0x10000 + 256 * n.val + 4 * o.val - 0x10000) / 256 = n := by omega
    have register : (0x10000 + 256 * n.val + 4 * o.val - 0x10000) % 256 = 4 * o := by omega
    rw [exec_bar0RegisterWrite_channel (by omega) (by omega) (by omega), channel, register]
  case vector =>
    intro s n k v
    have vector : (0x20000 + 16 * n.val + 4 * k.val - 0x20000) / 16 = n := by omega
    have word : (0x20000 + 16 * n.val + 4 * k.val - 0x20000) % 16 / 4 = k := by omega
    rw [exec_bar0RegisterWrite_vector (by omega) (by omega) (by omega), vector, word]
  case doorbell =>
    intro s n v
    have channel : (0x100000 + 4096 * n.val - 0x100000) / 4096 = n := by omega
    rw [exec_bar0RegisterWrite_doorbell (by omega) (by omega) (by omega), channel]
    simp only [show (0x100000 + 4096 * n.val - 0x100000) % 4096 = 0 by omega, true_and]
  case mailboxRing =>
    intro s o v inside word
    rw [exec_bar0RegisterWrite_mailboxRing (by omega) (by omega) (by omega), Nat.add_sub_cancel_left]
  case outside => exact fun s off v outside => exec_bar0RegisterWrite_outside outside

end Sys2Proof.Machine
end

section
/-! PROOFS. Converters: their triggers (R513, R516, R517). -/
namespace Sys2Proof.Machine

/-! ### The commands by their meaning -/

theorem exec_feTimerTrigger (s : State) (j : Fin 16) : exec (.feTimerTrigger j) s = execFeTimerTrigger j s := rfl
theorem exec_fePulseTrigger (s : State) (j : Fin 16) : exec (.fePulseTrigger j) s = execFePulseTrigger j s := rfl
theorem exec_convStart (s : State) (j : Fin 16) : exec (.convStart j) s = execConvStart j s := rfl
theorem exec_injectedTrigger (s : State) (k : Fin 64) : exec (.injectedTrigger k) s = execInjectedTrigger k s := rfl

/-! ### A pulse of its width (R513) -/

section
variable {s : State} {j : Fin 16}

theorem exec_fePulseTrigger_none (ended : (s.conv j).pulse = none) : exec (.fePulseTrigger j) s = .next s := by
  rw [exec_fePulseTrigger, execFePulseTrigger, ended]

theorem exec_fePulseTrigger_open {u : State} {stamp t : Nat} (begun : (s.conv j).pulse = some stamp)
    (ht : t = ns (stamp + s.nat (Obj.trigWidth j))) (hu : u = s.updConv j (fun x => { x with pulse := none })) :
    exec (.fePulseTrigger j) s = .next (if trigKind (s.nat (Obj.trigSource j)) ≠ 3 ∨ s.now < t then s
      else if (u.tio (trigSrc (s.nat (Obj.trigSource j)))).level then feTrigger j t false u else u) := by
  subst ht hu
  simp only [exec_fePulseTrigger, execFePulseTrigger, begun, Bool.or_eq_true, decide_eq_true_eq]

end

/-! ### An injected trigger (R516, R517) -/

section
variable {s : State} {k : Fin 64} {j : Nat} (hj : j = s.nat (Obj.chConverter k))
include hj

/-- A channel that is not injected or not enabled, no trigger source, or a converter that is down: nothing starts. -/
theorem exec_injectedTrigger_rests (rests : s.flag (Obj.chInjected k) = false ∨ s.flag (Obj.chEnable k) = false ∨
    trigKind (s.nat (Obj.injTrigSource j)) = 0 ∨ (s.conv j).state = .off ∨ (s.conv j).state = .failed) :
    exec (.injectedTrigger k) s = .next s := by
  subst hj
  rw [exec_injectedTrigger, execInjectedTrigger]
  rcases rests with regular | disabled | none_ | off | failed
  · simp only [regular, Bool.not_false, Bool.true_or, if_true]
  · simp only [disabled, Bool.not_false, Bool.true_or, Bool.or_true, if_true]
  · simp only [none_, decide_true, Bool.or_true, if_true]
  · simp only [off, ite_self]
  · simp only [failed, ite_self]

theorem exec_injectedTrigger_taken (injected : s.flag (Obj.chInjected k) = true) (enabled : s.flag (Obj.chEnable k) = true)
    (source : trigKind (s.nat (Obj.injTrigSource j)) ≠ 0) (on : (s.conv j).state ≠ .off) (sound : (s.conv j).state ≠ .failed) :
    exec (.injectedTrigger k) s = .next (
      if (s.conv j).inj = none ∧ ((s.conv j).state = .idle ∨ (s.conv j).state = .converting) then startInj j k s.now false s
      else if k.val ∈ (s.conv j).injWait then missedTrigger j s
      else s.updConv j fun x => { x with injWait := insertSorted k x.injWait }) := by
  subst hj
  simp only [exec_injectedTrigger, execInjectedTrigger, injected, enabled, decide_eq_false source, Bool.not_true, Bool.or_self,
    Bool.false_eq_true, if_false, Bool.and_eq_true, Option.isNone_iff_eq_none, Bool.or_eq_true, beq_iff_eq, List.contains_iff_mem]

end

/-- Settles O41, by the kind of the trigger source, by the pulse that waits for its width, and by what the converter is doing. -/
theorem converterTriggers : Obligations.ConverterTriggers := by
  unfold Obligations.ConverterTriggers
  refine ⟨?timer, ?noPulse, ?pulse, ?start, ?rests, ?taken⟩
  case timer =>
    rintro s j _ rfl
    simp only [exec_feTimerTrigger, execFeTimerTrigger, Bool.or_eq_true, decide_eq_true_eq]
    rw [← ite_not]
    simp only [not_or, ne_eq, not_not, not_le]
  case noPulse => exact fun s j ended => exec_fePulseTrigger_none ended
  case pulse => exact fun s u j stamp t begun ht hu => exec_fePulseTrigger_open begun ht hu
  case start => exact fun s j => exec_convStart s j
  case rests => exact fun s k j hj rests => exec_injectedTrigger_rests hj rests
  case taken => exact fun s k j hj injected enabled source on sound => exec_injectedTrigger_taken hj injected enabled source on sound

end Sys2Proof.Machine
end

section
/-! PROOFS. Converters: the ends of runs, of injected conversions and of calibrations (R517 to R519). -/
namespace Sys2Proof.Machine

/-! ### The commands by their meaning -/

theorem exec_runComplete (s : State) (j : Fin 16) (codes : List (List Int)) :
    exec (.runComplete j codes) s = execRunComplete j codes s := rfl
theorem exec_feCalibrate (s : State) (j : Fin 16) : exec (.feCalibrate j) s = .next (requestCal j s) := rfl
theorem exec_feCalPeriod (s : State) (j : Fin 16) : exec (.feCalPeriod j) s = execFeCalPeriod j s := rfl
theorem exec_feCalDone (s : State) (j : Fin 16) (ok : Bool) : exec (.feCalDone j ok) s = execFeCalDone j ok s := rfl

section
variable {s : State} {j : Fin 16}

/-! ### A run, or an injected conversion, has its codes (R517, R519) -/

section
variable {codes : List (List Int)}

theorem exec_runComplete_rests (rests : (s.conv j).state ≠ .converting ∨ ((s.conv j).inj = none ∧ (s.conv j).run = none)) :
    exec (.runComplete j codes) s = .next s := by
  rw [exec_runComplete, execRunComplete]
  rcases rests with other | ⟨noInj, noRun⟩
  · simp only [bne_iff_ne.mpr other, if_true]
  · simp only [noInj, noRun, ite_self]

variable (converting : (s.conv j).state = .converting)
include converting

/-- An injected conversion is served before the regular run that it paused. -/
theorem exec_runComplete_injected {i : FeInj} (injected : (s.conv j).inj = some i) :
    exec (.runComplete j codes) s = .next (if s.now < i.at_ + convTime then s else convFree j (i.at_ + convTime)
      (feChannelRun i.chan [(codes.headD []).headD 0] i.at_ i.late (s.updConv j fun x => { x with inj := none }))) := by
  simp only [exec_runComplete, execRunComplete, converting, injected, bne_self_eq_false, Bool.false_eq_true, if_false]

theorem exec_runComplete_regular {r : FeRun} {last : Nat} (noInj : (s.conv j).inj = none) (run : (s.conv j).run = some r)
    (hlast : last = r.instant (s.convPeriod j) (s.runLength j - 1)) :
    exec (.runComplete j codes) s = .next (if r.paused.isSome = true ∨ s.now < last + convTime then s else convFree j (last + convTime)
      (feRunChannels j r (s.sequence j) codes 0 (s.updConv j fun x => { x with run := none }))) := by
  subst hlast
  simp only [exec_runComplete, execRunComplete, converting, noInj, run, bne_self_eq_false, Bool.false_eq_true, if_false, Bool.or_eq_true,
    decide_eq_true_eq]

end

/-! ### A calibration (R518) -/

/-- No calibration runs, or its 24 µs have not passed. -/
theorem exec_feCalDone_rests {ok : Bool} (rests : (s.conv j).state ≠ .calibrating ∨ s.now < (s.conv j).calAt + us 24) :
    exec (.feCalDone j ok) s = .next s := by
  simp only [exec_feCalDone, execFeCalDone, Bool.or_eq_true, bne_iff_ne, decide_eq_true_eq, if_pos rests]

variable {u : State} (calibrating : (s.conv j).state = .calibrating) (due : (s.conv j).calAt + us 24 ≤ s.now)
  (hu : u = s.updConv j (fun x => { x with lastCal := s.now }))
include calibrating due hu

theorem exec_feCalDone_good :
    exec (.feCalDone j true) s = .next (convFree j ((s.conv j).calAt + us 24)
      (feReady (j / 8) (u.updConv j fun x => { x with ready := true, state := .idle }))) := by
  subst hu
  simp only [exec_feCalDone, execFeCalDone, calibrating, bne_self_eq_false, decide_eq_false (Nat.not_lt.mpr due), Bool.or_self,
    Bool.false_eq_true, if_false, if_true]

theorem exec_feCalDone_failed :
    exec (.feCalDone j false) s = .next (feReady (j / 8)
      ((u.updConv j fun x => { x with state := .failed, run := none, held := false, injWait := [] }).raiseFault
        .feCalFail [j] Kind.feCalFail 3 j 1 (islandOf 9 (j / 8)))) := by
  subst hu
  simp only [exec_feCalDone, execFeCalDone, calibrating, bne_self_eq_false, decide_eq_false (Nat.not_lt.mpr due), Bool.or_self,
    Bool.false_eq_true, if_false]

end

/-- Settles O42, by what the converter is doing, by which conversion it serves, and by the instant at which that ends. -/
theorem runsAndCalibrationsEnd : Obligations.RunsAndCalibrationsEnd := by
  unfold Obligations.RunsAndCalibrationsEnd
  refine ⟨?rests, ?injected, ?regular, exec_feCalibrate, ?period, ?calRests, ?calEnds⟩
  case rests => exact fun s j codes rests => exec_runComplete_rests rests
  case injected => exact fun s j codes i converting injected => exec_runComplete_injected converting injected
  case regular => exact fun s j codes r last converting noInj run hlast => exec_runComplete_regular converting noInj run hlast
  case period => intro s j; simp only [exec_feCalPeriod, execFeCalPeriod, Bool.or_eq_true, decide_eq_true_eq]
  case calRests => exact fun s j ok rests => exec_feCalDone_rests rests
  case calEnds =>
    exact fun s u j calibrating due hu => ⟨exec_feCalDone_good calibrating due hu, exec_feCalDone_failed calibrating due hu⟩

end Sys2Proof.Machine
end

section
/-! PROOFS. The front end's signal generators and clamps (R505, R508, R509, R525). -/
namespace Sys2Proof.Machine

/-! ### The commands by their meaning -/

theorem exec_genEnable (s : State) (g : Fin 8) (v : Bool) : exec (.genEnable g v) s = execGenEnable g v s := rfl
theorem exec_genZeroCrossing (s : State) (g : Fin 8) : exec (.genZeroCrossing g) s = execGenZeroCrossing g s := rfl
theorem exec_feGenOvercurrent (s : State) (g : Fin 8) : exec (.feGenOvercurrent g) s = execFeGenOvercurrent g s := rfl
theorem exec_feClamp (s : State) (p : Fin 64) : exec (.feClamp p) s = execFeClamp p s := rfl

/-! ### Generators (R508, R509, R525) -/

section
variable {s u : State} {g : Fin 8}

theorem exec_genEnable_off : exec (.genEnable g false) s = .next ((s.setReg (Obj.genEnable g) 0).setReg (Obj.genState g) 0) := rfl

section
variable (hu : u = s.setReg (Obj.genEnable g) 1)
include hu

/-- Enabling starts no generator of an island without power, and none that runs already. -/
theorem exec_genEnable_stays (stays : (u.feIsland (g / 4)).powered = false ∨ u.nat (Obj.genState g) = 1) :
    exec (.genEnable g true) s = .next u := by
  subst hu
  rw [exec_genEnable, execGenEnable]
  rcases stays with unpowered | runs
  · simp only [b2n, Nat.cast_one, unpowered, Bool.not_true, Bool.not_false, Bool.true_or, Bool.false_eq_true, if_true, if_false]
  · simp only [b2n, Nat.cast_one, runs, decide_true, Bool.or_true, Bool.not_true, Bool.false_eq_true, if_true, if_false]

theorem exec_genEnable_starts {want : FeGen} (powered : (u.feIsland (g / 4)).powered = true) (stopped : u.nat (Obj.genState g) ≠ 1)
    (hwant : want = ⟨u.nat (Obj.genFrequency g), u.nat (Obj.genAmplitude g), u.nat (Obj.genOffset g)⟩) :
    exec (.genEnable g true) s = .next (({ u with fe := { u.fe with gens := Table.set {} u.fe.gens g want } } : State).setReg
      (Obj.genState g) 1) := by
  subst hu hwant
  simp only [exec_genEnable, execGenEnable, b2n, Nat.cast_one, powered, decide_eq_false stopped, Bool.not_true, Bool.or_self,
    Bool.false_eq_true, if_true, if_false]

end

/-- At a zero crossing a running generator takes settings that were written, and only then do its channels settle again. -/
theorem exec_genZeroCrossing_eq {want : FeGen}
    (hwant : want = ⟨s.nat (Obj.genFrequency g), s.nat (Obj.genAmplitude g), s.nat (Obj.genOffset g)⟩) :
    exec (.genZeroCrossing g) s = .next (if s.nat (Obj.genState g) ≠ 1 ∨ Table.get {} s.fe.gens g = want then s else
      (List.range 64).foldl (fun s k =>
        if s.nat (Obj.detGenerator k) = g.val then s.updFeChan k fun x => { x with settle := (presetOf (s.nat (Obj.preset k))).1 } else s)
        (({ s with fe := { s.fe with gens := Table.set {} s.fe.gens g want } } : State).countWrap (Obj.genChanges g))) := by
  subst hwant
  simp only [exec_genZeroCrossing, execGenZeroCrossing, Bool.or_eq_true, decide_eq_true_eq]

end

/-! ### Clamps (R505) -/

section
variable {s : State} {p : Fin 64}

theorem exec_feClamp_unpowered (unpowered : (s.feIsland (p / 32)).powered = false) : exec (.feClamp p) s = .next s := by
  simp only [exec_feClamp, execFeClamp, unpowered, Bool.not_false, if_true]

/-- The flag, the mark on each channel of the pin, then the event, at most once a millisecond. -/
theorem exec_feClamp_powered {u v : State} {t : Nat} (powered : (s.feIsland (p / 32)).powered = true)
    (hu : u = s.setReg Obj.clampFlags (if bitAt (s.nat Obj.clampFlags) p then s.nat Obj.clampFlags else s.nat Obj.clampFlags + 2 ^ p.val : Nat))
    (hv : v = (List.range 64).foldl (fun s k => if s.nat (Obj.chPos k) = p.val || s.nat (Obj.chNeg k) = p.val
      then s.updFeChan k fun x => { x with clampAt := some (x.count + 1) } else s) u) (ht : Table.get 0 v.fe.clampTold p = t) :
    exec (.feClamp p) s = .next (if t = 0 ∨ t - 1 + ms 1 ≤ v.now then
      (({ v with fe := { v.fe with clampTold := Table.set 0 v.fe.clampTold p (v.now + 1) } } : State).count Obj.clampEvents).raise .feClamp [p]
      else v) := by
  rw [exec_feClamp, execFeClamp, powered, Bool.not_true, if_neg Bool.false_ne_true]
  dsimp only
  rw [← hu, ← hv, ht]
  simp only [Bool.or_eq_true, decide_eq_true_eq]

end

/-- Settles O43, by the generator's state and settings and the power of its island, and by when the pin's clamp was last told. -/
theorem frontEndGeneratorsAndClamps : Obligations.FrontEndGeneratorsAndClamps := by
  unfold Obligations.FrontEndGeneratorsAndClamps
  refine ⟨fun s g => exec_genEnable_off, ?stays, ?starts, ?crossing, ?overcurrent, ?unpowered, ?clamped⟩
  case stays => exact fun s u g hu stays => exec_genEnable_stays hu stays
  case starts => exact fun s u g want hu powered stopped hwant => exec_genEnable_starts hu powered stopped hwant
  case crossing => exact fun s g want hwant => exec_genZeroCrossing_eq hwant
  case overcurrent => intro s g; simp only [exec_feGenOvercurrent, execFeGenOvercurrent, ne_eq, ite_not]
  case unpowered => exact fun s p unpowered => exec_feClamp_unpowered unpowered
  case clamped => exact fun s u v p t powered hu hv ht => exec_feClamp_powered powered hu hv ht

end Sys2Proof.Machine
end

section
/-! PROOFS. The front end's rings and path tests (R533 to R537). -/
namespace Sys2Proof.Machine

/-! ### The commands by their meaning -/

theorem exec_feItemWrite (s : State) (i : Fin 2) : exec (.feItemWrite i) s = execFeItemWrite i s := rfl
theorem exec_feQueueFlush (s : State) (i : Fin 2) : exec (.feQueueFlush i) s = execFeQueueFlush i s := rfl
theorem exec_chTest (s : State) (k : Fin 64) : exec (.chTest k) s = .next (startTest k s) := rfl
theorem exec_chTestDone (s : State) (k : Fin 64) (m1 m2 : Int) : exec (.chTestDone k m1 m2) s = execChTestDone k m1 m2 s := rfl

section
variable {s : State} {i : Fin 2}

/-! ### The oldest item of an island (R533, R534) -/

/-- No item, no ring, or a ring without entries. -/
theorem exec_feItemWrite_rests (rests : (s.feIsland i).queue = [] ∨ s.nat (Obj.feRingBase i) = maxU 32 ∨ s.feSlots i = 0) :
    exec (.feItemWrite i) s = .next s := by
  rw [exec_feItemWrite, execFeItemWrite]
  cases queue : (s.feIsland i).queue with
  | nil => rfl
  | cons item rest =>
    have noRing : s.nat (Obj.feRingBase i) = maxU 32 ∨ s.feSlots i = 0 := rests.resolve_left (by simp [queue])
    simp only [Bool.or_eq_true, decide_eq_true_eq, if_pos noRing]

theorem exec_feItemWrite_full {item : List Nat} {rest : List (List Nat)} (queue : (s.feIsland i).queue = item :: rest)
    (full : (s.feHead i % s.feSlots i + s.feSlots i - (s.feIsland i).tail % s.feSlots i - 1) % s.feSlots i < item.length) :
    exec (.feItemWrite i) s = .next s := by
  simp only [exec_feItemWrite, execFeItemWrite, queue, if_pos full, ite_self]

/-- The item's records go behind TAIL, the first one with GAP where items were lost, and TAIL passes them all. -/
theorem exec_feItemWrite_fits {n tail r r' : Nat} {item : List Nat} {rest : List (List Nat)}
    (queue : (s.feIsland i).queue = (r :: item) :: rest) (ring : s.nat (Obj.feRingBase i) ≠ maxU 32) (hn : n = s.feSlots i)
    (entries : n ≠ 0) (hr : r' = (if (s.feIsland i).gap then r + 2 ^ 17 else r))
    (room : item.length < (s.feHead i % n + n - (s.feIsland i).tail % n - 1) % n)
    (htail : tail = ((s.feIsland i).tail + (item.length + 1)) % n) :
    exec (.feItemWrite i) s = .next ((((r' :: item).zipIdx.foldl (fun u p => u.writeMem
      (s.nat (Obj.feRingBase i) + 64 + 16 * (((s.feIsland i).tail + p.2) % n)) (leBytes 16 p.1)) s).writeMem
        (s.nat (Obj.feRingBase i)) (leBytes 4 tail)).updFeIsland i fun x => { x with queue := rest, tail := tail, gap := false }) := by
  subst hn hr htail
  simp only [exec_feItemWrite, execFeItemWrite, queue, decide_eq_false ring, decide_eq_false entries, Bool.or_self, Bool.false_eq_true,
    if_false, List.length_cons, if_neg (Nat.not_lt.mpr (Nat.succ_le_of_lt room))]

/-! ### A flush (R535) -/

theorem exec_feQueueFlush_unpowered (unpowered : (s.feIsland i).powered = false) : exec (.feQueueFlush i) s = .next s := by
  simp only [exec_feQueueFlush, execFeQueueFlush, unpowered, Bool.not_false, if_true]

section
variable (powered : (s.feIsland i).powered = true)
include powered

theorem exec_feQueueFlush_noRing (noRing : s.nat (Obj.feRingBase i) = maxU 32) :
    exec (.feQueueFlush i) s = .next (s.updFeIsland i fun x => { x with queue := [], gap := true }) := by
  simp only [exec_feQueueFlush, execFeQueueFlush, powered, Bool.not_true, Bool.false_eq_true, if_false, if_pos noRing]

theorem exec_feQueueFlush_ring {head : Nat} (ring : s.nat (Obj.feRingBase i) ≠ maxU 32)
    (hhead : head = s.feHead i % max (s.feSlots i) 1) :
    exec (.feQueueFlush i) s = .next ((s.writeMem (s.nat (Obj.feRingBase i)) (leBytes 4 head)).updFeIsland i fun x =>
      { x with queue := [], gap := true, tail := head }) := by
  subst hhead
  simp only [exec_feQueueFlush, execFeQueueFlush, powered, Bool.not_true, Bool.false_eq_true, if_false, if_neg ring]

end
end

/-! ### The end of a path test (R536, R537) -/

section
variable {s : State} {k : Fin 64} {m1 m2 : Int}

theorem exec_chTestDone_none (none_ : (s.conv (s.nat (Obj.chConverter k))).test = none) : exec (.chTestDone k m1 m2) s = .next s := by
  simp only [exec_chTestDone, execChTestDone, none_]

theorem exec_chTestDone_open {c t : Nat} (test : (s.conv (s.nat (Obj.chConverter k))).test = some (c, t)) :
    exec (.chTestDone k m1 m2) s = .next (if c ≠ k.val ∨ s.now < t + us 84 then s else convFree (s.nat (Obj.chConverter k)) (t + us 84)
      ((takeTest k m1 m2 s).updConv (s.nat (Obj.chConverter k)) fun x => { x with test := none, state := .idle })) := by
  simp only [exec_chTestDone, execChTestDone, test, Bool.or_eq_true, decide_eq_true_eq]

end

/-- Settles O44, by the island's queue and the room in its ring, by its power, and by the channel and the instant of the test. -/
theorem frontEndRingsAndPathTests : Obligations.FrontEndRingsAndPathTests := by
  unfold Obligations.FrontEndRingsAndPathTests
  refine ⟨?rests, ?full, ?fits, ?unpowered, ?noRing, ?ring, exec_chTest, ?noTest, ?test⟩
  case rests => exact fun s i rests => exec_feItemWrite_rests rests
  case full => exact fun s i item rest queue full => exec_feItemWrite_full queue full
  case fits => exact fun s i n tail r r' item rest queue ring hn entries hr room htail =>
    exec_feItemWrite_fits queue ring hn entries hr room htail
  case unpowered => exact fun s i unpowered => exec_feQueueFlush_unpowered unpowered
  case noRing => exact fun s i powered noRing => exec_feQueueFlush_noRing powered noRing
  case ring => exact fun s i head powered ring hhead => exec_feQueueFlush_ring powered ring hhead
  case noTest => exact fun s k m1 m2 none_ => exec_chTestDone_none none_
  case test => exact fun s k m1 m2 c t test => exec_chTestDone_open test

end Sys2Proof.Machine
end

section
/-! PROOFS. A step, its total answer, and the invariants of the queue and the halt (R604, R607, R616). -/
namespace Sys2Proof.Machine

theorem step_front {s : State} {c : Instr} {rest : List Instr} (waiting : s.pending = c :: rest) :
    step s = exec c { s with pending := rest } := by
  rw [step, waiting]

theorem step_idle {s : State} (idle : s.pending = []) : step s = .next (tick s) := by
  rw [step, idle]

/-- What every step keeps, of the state it answers: from the state with the front command taken. -/
theorem step_held {s t : State} (stepped : step s = .next t) : Held { s with pending := s.pending.drop 1 } t := by
  obtain ⟨u, answered, held⟩ := step_leads s
  obtain rfl : t = u := Host.Outcome.next.inj (stepped.symm.trans answered)
  exact held

/-- Settles O1, by whether a command waits. -/
theorem stepRunsTheFrontCommand : Obligations.StepRunsTheFrontCommand :=
  ⟨fun _ _ _ waiting => step_front waiting, fun _ idle => step_idle idle⟩

/-- Settles O3: the tables of the reset state are empty, nothing waits, and no halt is decided. -/
theorem resetMeetsTheInvariants : Obligations.ResetMeetsTheInvariants := by
  unfold Obligations.ResetMeetsTheInvariants
  refine ⟨?canonical, ?queue, ?halt⟩
  case canonical => exact reset_canonical
  case queue =>
    intro c waits
    have empty : State.reset.pending = [] := rfl
    rw [empty] at waits
    exact absurd waits List.not_mem_nil
  case halt =>
    intro halted
    exact absurd halted Bool.false_ne_true

/-- Settles O4: every meaning leads to a next state that keeps the queue. -/
theorem everyCommandAnswersANextState : Obligations.EveryCommandAnswersANextState := by
  unfold Obligations.EveryCommandAnswersANextState
  intro c s
  obtain ⟨t, answered, held⟩ := exec_leads c s
  exact ⟨t, answered, held.pending⟩

/-- Settles O6: taking the front command touches neither the halt nor the mode, and every step keeps a decided halt from there. -/
theorem everyStepKeepsTheHalt : Obligations.EveryStepKeepsTheHalt := by
  unfold Obligations.EveryStepKeepsTheHalt
  intro s t decided stepped
  exact (step_held stepped).halt decided

/-- Settles O7: the queue after a step is the queue without its front command. -/
theorem everyStepKeepsTheQueueWellFormed : Obligations.EveryStepKeepsTheQueueWellFormed := by
  unfold Obligations.EveryStepKeepsTheQueueWellFormed
  intro s t queue stepped
  have rest : t.pending = s.pending.drop 1 := (step_held stepped).pending
  refine ⟨?wellFormed, rest⟩
  case wellFormed =>
    intro c waits
    rw [rest] at waits
    exact queue c (List.mem_of_mem_drop waits)

end Sys2Proof.Machine
end

section
/-! PROOFS. Mode requests during a transition (R607), and TamperClear (R710). -/
namespace Sys2Proof.Machine

/-! ### Requests during a transition (R607) -/

section
variable {s : State} {role : Nat} {m n : Mode}

/-- While a transition is in progress, a permitted request for any mode but Safe Halt is BUSY. -/
theorem modeError_busy (moving : s.target = some n) (running : s.power.halted = false) (safe : s.mode ≠ .safeHalt)
    (other : m ≠ .safeHalt) (permitted : roleMeets role m.role = true) : modeError role m s = some 0x0A := by
  simp [modeError, permitted, running, safe, moving, other]

/-- A permitted request for Safe Halt is taken from any mode from Boot on, whatever transition is in progress. -/
theorem modeError_safeHalt (running : s.power.halted = false) (booted : s.mode.booted = true) (safe : s.mode ≠ .safeHalt)
    (permitted : roleMeets role 2 = true) : modeError role .safeHalt s = none := by
  have least : Mode.safeHalt.role = 2 := rfl
  simp [modeError, least, permitted, running, safe, booted, State.requestListed]

theorem requestMode_busy (moving : s.target = some n) (running : s.power.halted = false) (safe : s.mode ≠ .safeHalt)
    (other : m ≠ .safeHalt) (permitted : roleMeets role m.role = true) : requestMode role m s = s := by
  rw [requestMode, modeError_busy moving running safe other permitted]

end

/-- A decision for Safe Halt that is not yet taken halts the block and aims at Safe Halt (R616). -/
theorem safeHalt_decides {s : State} (cause : Nat) (hard : Bool) (running : s.power.halted = false) (booted : s.mode.booted = true) :
    (safeHalt cause hard s).power.halted = true ∧ (safeHalt cause hard s).target = some .safeHalt := by
  have open_ : (s.power.halted || !s.mode.booted) = false := by rw [running, booted]; rfl
  rw [safeHalt, if_neg (by rw [open_]; exact Bool.false_ne_true)]
  have after (u : State) : Steady (haltDecided u) (alarmEval (audit 0x0E .device 0 0 0 (leBytes 1 cause) true
      ((idleTransports (stopMotion hard (haltDecided u))).setReg Obj.safeHaltCause cause))) :=
    alarmEval_steady (audit_steady _ _ _ _ _ _ _ (State.setReg_steady _ _ (idleTransports_steady (stopMotion_steady _ (Steady.refl _)))))
  exact ⟨(after _).halted, (after _).target⟩

/-- Settles O9, by the error that `modeError` answers during a transition. -/
theorem requestsDuringATransition : Obligations.RequestsDuringATransition := by
  unfold Obligations.RequestsDuringATransition
  refine ⟨?busy, ?unchanged, ?halts⟩
  case busy => exact fun s role m n moving running safe other permitted => modeError_busy moving running safe other permitted
  case unchanged =>
    intro s r n moving running safe permitted
    have stays (m : Mode) (other : m ≠ .safeHalt) (least : m.role = 1) : requestMode (roleCode r) m s = s :=
      requestMode_busy moving running safe other (least ▸ permitted)
    exact ⟨congrArg Host.Outcome.next (stays .scan (by decide) rfl), congrArg Host.Outcome.next (stays .stream (by decide) rfl),
      congrArg Host.Outcome.next (stays .hold (by decide) rfl), congrArg Host.Outcome.next (stays .idleReady (by decide) rfl)⟩
  case halts =>
    intro s r n _ running booted safe permitted
    have taken : requestMode (roleCode r) .safeHalt s = safeHalt 4 false s := by
      rw [requestMode, modeError_safeHalt running booted safe permitted]; rfl
    exact ⟨_, congrArg Host.Outcome.next taken, safeHalt_decides 4 false running booted⟩

/-! ### TamperClear (R710) -/

/-- The alarm pins follow their conditions: no register and no mode moves (R711). -/
theorem alarmEval_dict (s : State) : (alarmEval s).dict = s.dict := by
  unfold alarmEval
  dsimp only
  generalize s.alarmConditions = held
  generalize s.sec.alarmDriven = pins
  induction pins generalizing s with
  | nil => rfl
  | cons a pins ih =>
    rw [List.foldl_cons, ih]
    split <;> rfl

theorem bitAt_eq_testBit (v i : Nat) : bitAt v i = v.testBit i := by
  rw [bitAt, Nat.testBit_eq_decide_div_mod_eq]
  rfl

theorem bitAt_and (v w i : Nat) : bitAt (v &&& w) i = (bitAt v i && bitAt w i) := by
  simp only [bitAt_eq_testBit, Nat.testBit_and]

theorem bitAt_inputs (inputs : BitVec 4) (i : Fin 4) : bitAt (inputs.toNat % 16) i = inputs.getLsbD i := by
  rw [Nat.mod_eq_of_lt inputs.isLt, bitAt_eq_testBit, BitVec.getLsbD]

/-- TAMPER_CLEAR notes the inputs and keeps the bits of those that are asserted. -/
theorem exec_tamperClear (s : State) (inputs : BitVec 4) : exec (.tamperClear inputs) s = .next (alarmEval
    (({ s with sec := { s.sec with tamperIn := inputs.toNat } } : State).setReg Obj.tamperState
      ((s.nat Obj.tamperState) &&& inputs.toNat % 16 : Nat))) := rfl

/-- Settles O10: TamperState takes the intersection of its bits with the asserted inputs, and no other register is written. -/
theorem tamperClearKeepsAssertedInputs : Obligations.TamperClearKeepsAssertedInputs := by
  unfold Obligations.TamperClearKeepsAssertedInputs
  intro s inputs canonical
  refine ⟨_, exec_tamperClear s inputs, ?bits, ?mode, ?others⟩
  case bits =>
    intro i
    rw [State.nat, State.reg, alarmEval_dict]
    have written := State.setReg_reg_self ({ s with sec := { s.sec with tamperIn := inputs.toNat } } : State) Obj.tamperState
      ((s.nat Obj.tamperState &&& inputs.toNat % 16 : Nat) : Int) canonical.dict
    rw [State.reg] at written
    rw [written, Int.toNat_natCast, bitAt_and, bitAt_inputs]
  case mode => exact (alarmEval_steady (Steady.refl _)).mode
  case others =>
    intro o other
    rw [State.reg, alarmEval_dict]
    exact State.setReg_reg_of_ne _ _ o _ other

end Sys2Proof.Machine
end

section
/-! PROOFS. Requests that any packet may make: DISCOVER, NOP, READ and READ_DESC (R553, R555, R564, R766). -/
namespace Sys2Proof.Machine

/-! ### What a READ answers (R564) -/

section
variable {a : Ask} {s : State} {r : Row}

/-- A number: the value in effect, with what reading it clears. -/
theorem serveRead_number (entry : a.entry true s = .ok (.row r)) (readable : r.access ≠ .wo) (sized : r.size ≠ 0) :
    serveRead a s = answers (a.head r.ty.code ++ wireBytes r.size (s.view a.q.index a.q.sub).1)
      (readClears a.q.index a.q.sub (s.view a.q.index a.q.sub).2) := by
  simp only [serveRead, entry, beq_iff_eq, readable, sized, if_false]

/-- A block: a short text is sent, anything else answers its size. -/
theorem serveRead_block {b : Bytes} (entry : a.entry true s = .ok (.row r)) (readable : r.access ≠ .wo) (unsized : r.size = 0)
    (hb : b = s.blobView a.q.index a.q.sub) :
    serveRead a s = if r.ty = .str ∧ b.length ≤ 1440 then answers (a.head r.ty.code ++ b) s else a.fails s ⟨0x0E, b.length⟩ := by
  subst hb
  simp only [serveRead, entry, beq_iff_eq, readable, unsized, Bool.and_eq_true, decide_eq_true_eq, if_false, if_true]

theorem serveRead_top (entry : a.entry true s = .ok .top) :
    serveRead a s = answers (a.head 2 ++ leBytes 1 (highestSub a.q.index)) s := by
  simp only [serveRead, entry]

theorem serveRead_writeOnly (entry : a.entry true s = .ok (.row r)) (writeOnly : r.access = .wo) :
    serveRead a s = a.fails s ⟨0x05, 0⟩ := by
  simp only [serveRead, entry, beq_iff_eq, writeOnly, if_true]

theorem serveRead_noEntry {e : Err} (entry : a.entry true s = .error e) : serveRead a s = a.fails s e := by
  simp only [serveRead, entry]

theorem serveReadDesc_entry {e : Entry} (entry : a.entry false s = .ok e) :
    serveReadDesc a s = answers (s.descPayload a.q.index a.q.sub e) s := by
  simp only [serveReadDesc, entry]

theorem serveReadDesc_noEntry {e : Err} (entry : a.entry false s = .error e) : serveReadDesc a s = a.fails s e := by
  simp only [serveReadDesc, entry]

end

/-! ### Requests that are served -/

section
variable {q : Kdp} {s t : State}

theorem exec_discover_served (h : Accepted 0x01 q s t) :
    exec (.discover q) s = .next (conclude 0x01 q (sessionOf q) (serveDiscover (t.ask q) t)) :=
  congrArg Host.Outcome.next (receive_accepted h rfl)

theorem exec_nop_served (h : Accepted 0x03 q s t) :
    exec (.nop q) s = .next (conclude 0x03 q (sessionOf q) (serveNop (t.ask q) t)) :=
  congrArg Host.Outcome.next (receive_accepted h rfl)

theorem exec_read_served (h : Accepted 0x04 q s t) :
    exec (.read q) s = .next (conclude 0x04 q (sessionOf q) (serveRead (t.ask q) t)) :=
  congrArg Host.Outcome.next (receive_accepted h rfl)

theorem exec_readDesc_served (h : Accepted 0x06 q s t) :
    exec (.readDesc q) s = .next (conclude 0x06 q (sessionOf q) (serveReadDesc (t.ask q) t)) :=
  congrArg Host.Outcome.next (receive_accepted h rfl)

end

/-- Settles O45: an accepted request is served, and a READ answers by the entry it names and that entry's access and type. -/
theorem readingRequests : Obligations.ReadingRequests := by
  unfold Obligations.ReadingRequests
  refine ⟨?discover, ?nop, ?number, ?block, ?top, ?writeOnly, ?noEntry, ?described, ?undescribed⟩
  case discover => exact fun s t q accepted => exec_discover_served accepted
  case nop => exact fun s t q accepted => exec_nop_served accepted
  case number =>
    intro s t q r accepted entry readable sized
    rw [exec_read_served accepted, serveRead_number entry readable sized]
    rfl
  case block =>
    intro s t q r b accepted entry readable unsized hb
    rw [exec_read_served accepted, serveRead_block entry readable unsized hb]
  case top =>
    intro s t q accepted entry
    rw [exec_read_served accepted, serveRead_top entry]
    rfl
  case writeOnly =>
    intro s t q r accepted entry writeOnly
    rw [exec_read_served accepted, serveRead_writeOnly entry writeOnly]
  case noEntry =>
    intro s t q e accepted entry
    rw [exec_read_served accepted, serveRead_noEntry entry]
  case described =>
    intro s t q e accepted entry
    rw [exec_readDesc_served accepted, serveReadDesc_entry entry]
    rfl
  case undescribed =>
    intro s t q e accepted entry
    rw [exec_readDesc_served accepted, serveReadDesc_noEntry entry]

end Sys2Proof.Machine
end


section
/-! PROOFS. Segmented transfers (R565 to R568). -/
namespace Sys2Proof.Machine

/-! ### SEG_INIT (R565) -/

/-- A transfer opens behind those of `s`, with the number `num`; the answer tells the window and the size. -/
def openedTransfer (num : Nat) (x : Transfer) (s : State) : Served :=
  answers (leBytes 2 num ++ leBytes 1 (s.nat Obj.segWindow) ++ [0] ++ leBytes 4 x.total)
    { s with kdps := { s.kdps with transfers := s.kdps.transfers ++ [x], nextTransfer := num % 255 + 1 } }

section
variable {a : Ask} {s : State} {r : Row}

theorem serveSegInit_noEntry {e : Err} (entry : a.entry (a.q.byte 4 == 1) s = .error e) : serveSegInit a s = a.fails s e := by
  simp only [serveSegInit, entry]

theorem serveSegInit_top (entry : a.entry (a.q.byte 4 == 1) s = .ok .top) :
    serveSegInit a s = a.fails s ⟨if a.q.byte 4 = 0 then 0x04 else 0x07, 0⟩ := by
  simp only [serveSegInit, entry]

theorem serveSegInit_noDirection (entry : a.entry (a.q.byte 4 == 1) s = .ok (.row r)) (wrong : 1 < a.q.byte 4) :
    serveSegInit a s = a.fails s ⟨0x07, 0⟩ := by
  simp only [serveSegInit, entry, wrong, if_true]

section
variable (entry : a.entry true s = .ok (.row r)) (read : a.q.byte 4 = 1)
include entry read

/-- An entry that is write only, in transfer already, or without a free place is not opened for reading. -/
theorem serveSegInit_read_refused (refused : r.access = .wo ∨ 4 ≤ s.kdps.transfers.length ∨
      (s.kdps.transfers.any fun x => x.key == a.q.index * 256 + a.q.sub) = true) :
    serveSegInit a s = a.fails s ⟨if r.access = .wo then 0x05 else 0x0A, 0⟩ := by
  by_cases writeOnly : r.access = .wo
  · simp [serveSegInit, entry, read, writeOnly]
  · have busy : (decide (4 ≤ s.kdps.transfers.length) ||
        s.kdps.transfers.any fun x => x.key == a.q.index * 256 + a.q.sub) = true := by
      rw [Bool.or_eq_true, decide_eq_true_eq]
      exact refused.resolve_left writeOnly
    simp only [serveSegInit, entry, read, writeOnly, busy, beq_iff_eq, beq_self_eq_true, decide_true, decide_false, Bool.true_and,
      Bool.false_and, Nat.lt_irrefl, one_ne_zero, Bool.false_eq_true, if_false, if_true]

/-- Else a transfer opens with a snapshot of what is read. -/
theorem serveSegInit_read_opens {b : Bytes} {u : State} (readable : r.access ≠ .wo) (room : s.kdps.transfers.length < 4)
    (idle : (s.kdps.transfers.any fun x => x.key == a.q.index * 256 + a.q.sub) = false)
    (hb : b = if r.size = 0 then s.blobView a.q.index a.q.sub else wireBytes r.size (s.view a.q.index a.q.sub).1)
    (hu : u = if r.size = 0 then s else readClears a.q.index a.q.sub (s.view a.q.index a.q.sub).2) :
    serveSegInit a s = openedTransfer s.kdps.nextTransfer
      { num := s.kdps.nextTransfer, key := a.q.index * 256 + a.q.sub, owner := a.owner, group := a.q.byte 3, out := true,
        total := b.length, data := b, used := u.now } u := by
  subst hb hu
  simp only [serveSegInit, entry, read, readable, Nat.not_le.mpr room, idle, openedTransfer, beq_iff_eq, decide_false, Bool.or_self,
    beq_self_eq_true, Nat.lt_irrefl, Bool.false_eq_true, if_false, if_true, decide_true, Bool.true_and, one_ne_zero, Bool.false_and]

end

section
variable (entry : a.entry false s = .ok (.row r)) (write : a.q.byte 4 = 0)
include entry write

/-- A transfer to the Penori, past the direction: the group, the entry, the places, the size and the room in the group decide. -/
theorem serveSegInit_write {u : State}
    (hu : u = if a.q.byte 3 = 0 then s else stage a.owner (a.q.byte 3) (a.q.index * 256 + a.q.sub) .incomplete s) :
    serveSegInit a s =
      if 15 < a.q.byte 3 ∨ (a.q.byte 3 ≠ 0 ∧ r.access ≠ .st) then a.fails s ⟨0x0D, 0⟩
      else if r.access = .ro ∨ (r.ty ≠ .domain ∧ r.access ≠ .st) then a.fails s ⟨0x04, 0⟩
      else if 4 ≤ s.kdps.transfers.length ∨ (s.kdps.transfers.any fun x => x.key == a.q.index * 256 + a.q.sub) = true then
        a.fails s ⟨0x0A, 0⟩
      else if (∃ n, fixedSize a.q.index a.q.sub r = some n ∧ n ≠ a.q.word 8 4) then
        a.fails s ⟨0x11, (fixedSize a.q.index a.q.sub r).getD 0⟩
      else if a.q.byte 3 ≠ 0 ∧ s.groupFull a.owner (a.q.byte 3) (a.q.index * 256 + a.q.sub) 0 = true then a.fails s ⟨0x0D, 0⟩
      else openedTransfer s.kdps.nextTransfer
        { num := s.kdps.nextTransfer, key := a.q.index * 256 + a.q.sub, owner := a.owner, group := a.q.byte 3, out := false,
          total := a.q.word 8 4, used := u.now } u := by
  have now : u.now = s.now := by rw [hu]; split <;> rfl
  have toPenori : (a.q.byte 4 == 1) = false ∧ ¬1 < a.q.byte 4 ∧ ¬a.q.byte 4 = 1 := by rw [write]; decide
  simp only [serveSegInit, entry, toPenori, decide_eq_true write, decide_false, Bool.false_and, Bool.true_and, Bool.or_eq_true,
    Bool.and_eq_true, decide_eq_true_eq, beq_iff_eq, bne_iff_ne, Bool.false_eq_true, if_false]
  rw [← hu, ← now]
  refine if_congr Iff.rfl rfl (if_congr Iff.rfl rfl (if_congr Iff.rfl rfl ?_))
  cases fixedSize a.q.index a.q.sub r with
  | none =>
    simp only [reduceCtorEq, false_and, exists_false, if_false]
    exact if_congr Iff.rfl rfl rfl
  | some v =>
    simp only [Option.some.injEq, exists_eq_left', Option.getD_some]
    exact if_congr Iff.rfl rfl (if_congr Iff.rfl rfl rfl)

/-- A group number above 15, or a group for an entry that is never staged. -/
theorem serveSegInit_write_misplaced (wrong : 15 < a.q.byte 3 ∨ (a.q.byte 3 ≠ 0 ∧ r.access ≠ .st)) :
    serveSegInit a s = a.fails s ⟨0x0D, 0⟩ := by
  rw [serveSegInit_write entry write rfl, if_pos wrong]

variable (group : a.q.byte 3 ≤ 15) (grouped : a.q.byte 3 = 0 ∨ r.access = .st)
include group grouped

omit entry write in
theorem not_misplaced : ¬(15 < a.q.byte 3 ∨ (a.q.byte 3 ≠ 0 ∧ r.access ≠ .st)) := by
  rintro (high | ⟨inGroup, neverStaged⟩)
  · exact absurd group (Nat.not_le.mpr high)
  · exact neverStaged (grouped.resolve_left inGroup)

/-- An entry that takes no block. -/
theorem serveSegInit_write_unfit (unfit : r.access = .ro ∨ (r.ty ≠ .domain ∧ r.access ≠ .st)) :
    serveSegInit a s = a.fails s ⟨0x04, 0⟩ := by
  rw [serveSegInit_write entry write rfl, if_neg (not_misplaced group grouped), if_pos unfit]

/-- An entry that takes a block: the places, the size and the room in the group decide. -/
theorem serveSegInit_write_fits {u : State} (writable : r.access ≠ .ro) (takes : r.ty = .domain ∨ r.access = .st)
    (hu : u = if a.q.byte 3 = 0 then s else stage a.owner (a.q.byte 3) (a.q.index * 256 + a.q.sub) .incomplete s) :
    serveSegInit a s =
      if 4 ≤ s.kdps.transfers.length ∨ (s.kdps.transfers.any fun x => x.key == a.q.index * 256 + a.q.sub) = true then a.fails s ⟨0x0A, 0⟩
      else if (∃ n, fixedSize a.q.index a.q.sub r = some n ∧ n ≠ a.q.word 8 4) then
        a.fails s ⟨0x11, (fixedSize a.q.index a.q.sub r).getD 0⟩
      else if a.q.byte 3 ≠ 0 ∧ s.groupFull a.owner (a.q.byte 3) (a.q.index * 256 + a.q.sub) 0 = true then a.fails s ⟨0x0D, 0⟩
      else openedTransfer s.kdps.nextTransfer
        { num := s.kdps.nextTransfer, key := a.q.index * 256 + a.q.sub, owner := a.owner, group := a.q.byte 3, out := false,
          total := a.q.word 8 4, used := u.now } u := by
  rw [serveSegInit_write entry write hu, if_neg (not_misplaced group grouped), if_neg]
  rintro (readOnly | ⟨noBlock, neverStaged⟩)
  · exact writable readOnly
  · exact takes.elim noBlock neverStaged

end
end

/-! ### SEG_DATA and SEG_END (R566, R567) -/

section
variable {a : Ask} {s : State} {x : Transfer}

theorem serveSegData_none (missing : a.transfer s = none) : serveSegData a s = fails s ⟨0x0F, 0⟩ := by
  simp only [serveSegData, missing]

theorem serveSegEnd_none (missing : a.transfer s = none) : serveSegEnd a s = fails s ⟨0x0F, 0⟩ := by
  simp only [serveSegEnd, missing]

variable (found : a.transfer s = some x)
include found

/-- No transfer has a segment behind its last. -/
theorem serveSegData_beyond (beyond : x.count ≤ a.q.word 4 4) : serveSegData a s = fails s ⟨0x0F, 0⟩ := by
  simp only [serveSegData, found, beyond, if_true]

section
variable {k : Nat} (hk : a.q.word 4 4 = k) (within : k < x.count)
include hk within

/-- A segment of a transfer from the Penori is sent. -/
theorem serveSegData_out (out : x.out = true) :
    serveSegData a s = if a.q.payload.drop 8 = [] then
        answers (leBytes 2 x.num ++ [0, 0] ++ leBytes 4 k ++ ((x.data.drop (1440 * k)).take 1440))
          (updTransfer x.num (fun y => { y with used := s.now, acked := k :: y.acked.filter (· != k) }) s)
      else fails s ⟨0x06, 8⟩ := by
  subst hk
  simp only [serveSegData, found, Nat.not_le.mpr within, out, List.isEmpty_iff, if_false, if_true]

/-- A segment to the Penori is stored where its length is right, and where it is new. -/
theorem serveSegData_in (in_ : x.out = false) :
    serveSegData a s = if (a.q.payload.drop 8).length = x.length k then
        answers (leBytes 2 x.num ++ [0, 0] ++ leBytes 4 k)
          (updTransfer x.num (fun y => if y.acked.contains k then { y with used := s.now }
            else { y with used := s.now, acked := k :: y.acked, segs := Table.set [] y.segs k (a.q.payload.drop 8) }) s)
      else fails (updTransfer x.num (fun y => { y with used := s.now }) s) ⟨0x11, x.length k⟩ := by
  subst hk
  simp only [serveSegData, found, Nat.not_le.mpr within, in_, ne_eq, ite_not, Bool.false_eq_true, if_false]

end

section
variable {u : State} (hu : u = updTransfer x.num (fun y => { y with used := s.now }) s)
include hu

/-- A payload of the wrong length, or a transfer that misses segments, ends nothing. -/
theorem serveSegEnd_unfit (unfit : a.q.payload.length ≠ (if x.out then 4 else 8) ∨ x.complete = false) :
    serveSegEnd a s =
      fails u (if a.q.payload.length ≠ (if x.out then 4 else 8) then ⟨0x06, if x.out then 4 else 8⟩ else ⟨0x0F, 0⟩) := by
  subst hu
  simp only [serveSegEnd, found]
  by_cases short : a.q.payload.length ≠ (if x.out then 4 else 8)
  · rw [if_pos short, if_pos short]
  · have missing := unfit.resolve_left short
    rw [if_neg short, if_neg short, missing, Bool.not_false, if_pos rfl]

variable (complete : x.complete = true)
include complete

theorem serveSegEnd_out (out : x.out = true) (length : a.q.payload.length = 4) :
    serveSegEnd a s = answers (leBytes 2 x.num ++ [0, 0] ++ leBytes 4 (crc32c x.data)) (endTransfer x.num u) := by
  subst hu
  simp only [serveSegEnd, found, complete, out, length, ne_eq, not_true_eq_false, Bool.not_true, Bool.false_eq_true, if_false, if_true]

theorem serveSegEnd_in (in_ : x.out = false) (length : a.q.payload.length = 8) :
    serveSegEnd a s = if a.q.word 4 4 = crc32c x.bytes then applyTransfer a x (crc32c x.bytes) u
      else { answer := .fail (x.key / 256) (x.key % 256) ⟨0x10, crc32c x.bytes⟩, state := dropTransfer x u } := by
  subst hu
  simp only [serveSegEnd, found, complete, in_, length, ne_eq, not_true_eq_false, Bool.not_true, ite_not, Bool.false_eq_true, if_false]

end
end

/-! ### Requests that are served, and the time a transfer stays unused -/

section
variable {q : Kdp} {s t : State}

theorem exec_segInit_served (h : Accepted 0x0A q s t) :
    exec (.segInit q) s = .next (conclude 0x0A q (sessionOf q) (serveSegInit (t.ask q) t)) :=
  congrArg Host.Outcome.next (receive_accepted h rfl)

theorem exec_segData_served (h : Accepted 0x0B q s t) :
    exec (.segData q) s = .next (conclude 0x0B q (sessionOf q) (serveSegData (t.ask q) t)) :=
  congrArg Host.Outcome.next (receive_accepted h rfl)

theorem exec_segEnd_served (h : Accepted 0x0C q s t) :
    exec (.segEnd q) s = .next (conclude 0x0C q (sessionOf q) (serveSegEnd (t.ask q) t)) :=
  congrArg Host.Outcome.next (receive_accepted h rfl)

theorem exec_segAbort_served (h : Accepted 0x0D q s t) :
    exec (.segAbort q) s = .next (conclude 0x0D q (sessionOf q) (serveSegAbort (t.ask q) t)) :=
  congrArg Host.Outcome.next (receive_accepted h rfl)

theorem exec_segTimeout (s : State) (n : BitVec 8) : exec (.segTimeout n) s = execSegTimeout n s := rfl

end

/-- Settles O47: an accepted request is served, by the entry that SEG_INIT names and the transfer that the others name. -/
theorem segmentedTransfers : Obligations.SegmentedTransfers := by
  unfold Obligations.SegmentedTransfers
  refine ⟨?noEntry, ?top, ?noDirection, ?readRefused, ?readOpens, ?misplaced, ?unfit, ?writeFits, ?dataNone, ?beyond, ?dataOut, ?dataIn,
    ?endNone, ?endUnfit, ?endOut, ?endIn, ?abort, ?timeoutNone, ?timeout⟩
  case noEntry =>
    intro s t q e accepted entry
    rw [exec_segInit_served accepted, serveSegInit_noEntry entry]
  case top =>
    intro s t q accepted entry
    rw [exec_segInit_served accepted, serveSegInit_top entry]
    rfl
  case noDirection =>
    intro s t q r accepted entry wrong
    rw [exec_segInit_served accepted, serveSegInit_noDirection entry wrong]
  case readRefused =>
    intro s t q r accepted entry read refused
    rw [exec_segInit_served accepted, serveSegInit_read_refused entry read refused]
  case readOpens =>
    intro s t u q r b accepted entry read readable room idle hb hu
    rw [exec_segInit_served accepted, serveSegInit_read_opens entry read readable room idle hb hu]
    rfl
  case misplaced =>
    intro s t q r accepted entry write wrong
    rw [exec_segInit_served accepted, serveSegInit_write_misplaced entry write wrong]
  case unfit =>
    intro s t q r accepted entry write group grouped unfit
    rw [exec_segInit_served accepted, serveSegInit_write_unfit entry write group grouped unfit]
  case writeFits =>
    intro s t u q r accepted entry write group grouped writable takes hu
    rw [exec_segInit_served accepted, serveSegInit_write_fits entry write group grouped writable takes hu]
    rfl
  case dataNone =>
    intro s t q accepted missing
    rw [exec_segData_served accepted, serveSegData_none missing]
  case beyond =>
    intro s t q x accepted found beyond
    rw [exec_segData_served accepted, serveSegData_beyond found beyond]
  case dataOut =>
    intro s t q x k accepted found out hk within
    rw [exec_segData_served accepted, serveSegData_out found hk within out]
    rfl
  case dataIn =>
    intro s t q x k accepted found in_ hk within
    rw [exec_segData_served accepted, serveSegData_in found hk within in_]
    rfl
  case endNone =>
    intro s t q accepted missing
    rw [exec_segEnd_served accepted, serveSegEnd_none missing]
  case endUnfit =>
    intro s t u q x accepted found hu unfit
    rw [exec_segEnd_served accepted, serveSegEnd_unfit found hu unfit]
    rfl
  case endOut =>
    intro s t q x accepted found out length complete
    rw [exec_segEnd_served accepted, serveSegEnd_out found rfl complete out length]
  case endIn =>
    intro s t u q x accepted found in_ length complete hu
    rw [exec_segEnd_served accepted, serveSegEnd_in found hu complete in_ length]
    rfl
  case abort =>
    intro s t q accepted
    rw [exec_segAbort_served accepted, serveSegAbort]
    cases (t.ask q).transfer t <;> rfl
  case timeoutNone => intro s n missing; simp only [exec_segTimeout, execSegTimeout, missing]
  case timeout => intro s n x found; simp only [exec_segTimeout, execSegTimeout, found]

end Sys2Proof.Machine
end

section
/-! PROOFS. Sessions and events (R563, R572 to R574, R577). -/
namespace Sys2Proof.Machine

/-! ### SESSION_OPEN (R574, R577) -/

/-- The request names a role whose sessions may open now, from a source that is not locked out. -/
structure Ask.MayOpen (a : Ask) (s : State) : Prop where
  least : 1 ≤ a.q.byte 0
  most : a.q.byte 0 ≤ 4
  free : s.lockoutLeft a.q.source = 0
  vendor : a.q.byte 0 ≠ 4 ∨ (s.flag Obj.vendorServiceEnable = true ∧ s.flag Obj.approvedModeLock = false)

section
variable {a : Ask} {s : State}

theorem serveSessionOpen_noRole (wrong : a.q.byte 0 = 0 ∨ 4 < a.q.byte 0) : serveSessionOpen a s = fails s ⟨0x07, 0⟩ := by
  simp only [serveSessionOpen, Bool.or_eq_true, decide_eq_true_eq, wrong, if_true]

/-- A request that names a role passes the first check. -/
theorem namesRole_of_bounds {n : Nat} (least : 1 ≤ n) (most : n ≤ 4) : (decide (n = 0) || decide (4 < n)) = false := by
  simp [Nat.ne_of_gt least, Nat.not_lt.mpr most]

theorem serveSessionOpen_lockedOut (least : 1 ≤ a.q.byte 0) (most : a.q.byte 0 ≤ 4) (locked : s.lockoutLeft a.q.source ≠ 0) :
    serveSessionOpen a s = fails s ⟨0x13, s.lockoutLeft a.q.source⟩ := by
  simp only [serveSessionOpen, namesRole_of_bounds least most, locked, ne_eq, not_false_eq_true, Bool.false_eq_true, if_false, if_true]

theorem serveSessionOpen_noVendor (vendor : a.q.byte 0 = 4) (free : s.lockoutLeft a.q.source = 0)
    (off : s.flag Obj.vendorServiceEnable = false ∨ s.flag Obj.approvedModeLock = true) :
    serveSessionOpen a s = fails s ⟨0x07, 0⟩ := by
  have barred : (s.flag Obj.vendorServiceEnable && !s.flag Obj.approvedModeLock) = false := by
    rcases off with off | locked
    · rw [off, Bool.false_and]
    · rw [locked, Bool.not_true, Bool.and_false]
  simp [serveSessionOpen, vendor, free, barred]

section
variable (may : a.MayOpen s)
include may

/-- A role that may open is left to the island, the audit log and the places. -/
theorem Ask.MayOpen.passes :
    (decide (a.q.byte 0 = 0) || decide (4 < a.q.byte 0)) = false ∧ (s.lockoutLeft a.q.source ≠ 0) = False ∧
      (decide (a.q.byte 0 = 4) && !(s.flag Obj.vendorServiceEnable && !s.flag Obj.approvedModeLock)) = false := by
  refine ⟨namesRole_of_bounds may.least may.most, by simp [may.free], ?_⟩
  rcases may.vendor with other | ⟨enabled, unlocked⟩
  · rw [decide_eq_false other, Bool.false_and]
  · rw [enabled, unlocked]
    simp

theorem serveSessionOpen_refused
    (refused : islandError s ≠ none ∨ (a.q.byte 0 ≠ 3 ∧ s.auditRoom = false) ∨ 8 ≤ s.kdps.sessions.length) :
    serveSessionOpen a s = fails s (match islandError s with | some e => errOf s e | none => ⟨0x0A, 0⟩) := by
  simp only [serveSessionOpen, may.passes, Bool.false_eq_true, if_false]
  cases island : islandError s with
  | some e => rfl
  | none =>
    have busy := refused.resolve_left (not_not_intro island)
    simp only [Bool.or_eq_true, Bool.and_eq_true, decide_eq_true_eq, Bool.not_eq_true', busy, if_true]

theorem serveSessionOpen_opens {num : Nat} {nonce : Bytes} {x : Session} {u : State} (island : islandError s = none)
    (recorded : a.q.byte 0 = 3 ∨ s.auditRoom = true) (room : s.kdps.sessions.length < 8)
    (hnum : num = s.freeSession 8 s.kdps.nextSession) (hnonce : nonce = (Config.random s.sec.draws).take 32)
    (hx : x = { num := num, mailbox := a.q.mailbox, src := a.q.src, role := a.q.byte 0, hostNonce := (a.q.payload.drop 4).take 32,
                devNonce := nonce, used := s.now })
    (hu : u = { s with sec := { s.sec with draws := s.sec.draws + 1 },
                       kdps := { s.kdps with sessions := s.kdps.sessions ++ [x], nextSession := num % 65535 + 1 } }) :
    serveSessionOpen a s = { answer := .ok ([0, 0, 0, 0] ++ nonce), state := u, session := some num } := by
  subst hu hx hnonce hnum
  have goesOn : (decide (a.q.byte 0 ≠ 3) && !s.auditRoom || decide (8 ≤ s.kdps.sessions.length)) = false := by
    rw [decide_eq_false (Nat.not_le.mpr room), Bool.or_false]
    rcases recorded with officer | audited
    · simp [officer]
    · rw [audited, Bool.not_true, Bool.and_false]
  simp only [serveSessionOpen, may.passes, island, goesOn, Bool.false_eq_true, if_false]

end

/-! ### SESSION_AUTH (R574, R577) -/

/-- The session a SESSION_AUTH names: opened on the same route by the same source, and not yet proved. -/
theorem serveSessionAuth_none (missing : (s.kdps.sessions.find? fun x =>
      x.num == a.q.session.toNat && !x.opened && x.mailbox == a.q.mailbox && x.src == a.q.src) = none) :
    serveSessionAuth a s = fails s ⟨0x12, 0⟩ := by
  simp only [serveSessionAuth, missing]

section
variable {x : Session} (found : (s.kdps.sessions.find? fun x =>
  x.num == a.q.session.toNat && !x.opened && x.mailbox == a.q.mailbox && x.src == a.q.src) = some x)
include found

theorem serveSessionAuth_refused (refused : islandError s ≠ none ∨ (x.role ≠ 3 ∧ s.auditRoom = false)) :
    serveSessionAuth a s = fails s (match islandError s with | some e => errOf s e | none => ⟨0x0A, 0⟩) := by
  simp only [serveSessionAuth, found]
  cases island : islandError s with
  | some e => rfl
  | none =>
    have full := refused.resolve_left (not_not_intro island)
    simp only [Bool.and_eq_true, decide_eq_true_eq, Bool.not_eq_true', full, not_false_eq_true, ne_eq, and_self, if_true]

/-- With the island operational and the audit log open the host's proof decides. -/
theorem serveSessionAuth_decides (island : islandError s = none) (recorded : x.role = 3 ∨ s.auditRoom = true) :
    serveSessionAuth a s = match s.roleKey x.role with
      | none => proofFails a x s
      | some key => if proofOf "KDP-H" key x s = a.q.payload.take 48 then
          { answer := .ok (proofOf "KDP-D" key x s),
            state := audit 0x04 ⟨x.role, a.q.src, x.num⟩ 0 0 0 (leBytes 1 x.role ++ x.hostNonce.take 8) (x.role == 3) s,
            after := openSession x key, session := some x.num }
        else proofFails a x s := by
  have goesOn : (decide (x.role ≠ 3) && !s.auditRoom) = false := by
    rcases recorded with officer | audited
    · simp [officer]
    · rw [audited, Bool.not_true, Bool.and_false]
  simp only [serveSessionAuth, found, island, goesOn, Bool.false_eq_true, if_false]
  cases s.roleKey x.role with
  | none => rfl
  | some key => simp only [ne_eq, ite_not]

end

/-! ### SUBSCRIBE and EVENT_ACK (R572, R573) -/

theorem serveSubscribe_noRoute (wrong : 3 < a.q.byte 0) : serveSubscribe a s = fails s ⟨0x07, 0⟩ := by
  simp only [serveSubscribe, wrong, if_true]

/-- Bit 0 names the field network, bit 1 the mailbox. -/
theorem bitAt_routes {n : Nat} (routes : n ≤ 3) : (bitAt n 0 = true ↔ n = 1 ∨ n = 3) ∧ (bitAt n 1 = true ↔ n = 2 ∨ n = 3) := by
  simp only [bitAt, beq_iff_eq]
  omega

/-- Each route that is named begins anew for its subscriber. -/
theorem serveSubscribe_routes {r : EventRoute} {u : State} (routes : a.q.byte 0 ≤ 3)
    (hr : r = { subscriber := some (a.q.src, sessionOf a.q), least := a.q.byte 1, sent := s.now })
    (hu : u = { s with kdps := { s.kdps with net := if a.q.byte 0 = 1 ∨ a.q.byte 0 = 3 then r else s.kdps.net,
                                             mail := if a.q.byte 0 = 2 ∨ a.q.byte 0 = 3 then r else s.kdps.mail } }) :
    serveSubscribe a s = answers (leBytes 4 0) (noteSubscribers u) := by
  subst hu hr
  obtain ⟨net, mail⟩ := bitAt_routes routes
  simp only [serveSubscribe, Nat.not_lt.mpr routes, net, mail, sessionOf, if_false]
  by_cases onNet : a.q.byte 0 = 1 ∨ a.q.byte 0 = 3 <;> by_cases onMail : a.q.byte 0 = 2 ∨ a.q.byte 0 = 3 <;>
    simp only [onNet, onMail, if_true, if_false]

/-- An EVENT_ACK counts from the subscriber of its route, or, where there is none, from anyone in no session (R572). -/
def Ask.owns (a : Ask) (r : EventRoute) : Prop :=
  r.subscriber = some (a.q.src, sessionOf a.q) ∨ (r.subscriber = none ∧ a.q.auth = false)

theorem serveEventAck_net (net : a.q.mailbox = false) (mine : a.owns s.kdps.net) :
    serveEventAck a s =
      { answer := .silent, state := { s with kdps := { s.kdps with net := s.kdps.net.free (a.q.word 0 4) } } } := by
  rcases mine with subscriber | ⟨none_, open_⟩
  · simp [serveEventAck, net, subscriber, sessionOf]
  · simp [serveEventAck, net, none_, open_]

theorem serveEventAck_mail (mail : a.q.mailbox = true) (mine : a.owns s.kdps.mail) :
    serveEventAck a s =
      { answer := .silent, state := { s with kdps := { s.kdps with mail := s.kdps.mail.free (a.q.word 0 4) } } } := by
  rcases mine with subscriber | ⟨none_, open_⟩
  · simp [serveEventAck, mail, subscriber, sessionOf]
  · simp [serveEventAck, mail, none_, open_]

theorem serveEventAck_other {r : EventRoute} (hr : r = if a.q.mailbox then s.kdps.mail else s.kdps.net)
    (other : (∃ x, r.subscriber = some x ∧ x ≠ (a.q.src, sessionOf a.q)) ∨ (r.subscriber = none ∧ a.q.auth = true)) :
    serveEventAck a s = { answer := .silent, state := s } := by
  unfold serveEventAck
  dsimp only
  rw [← hr]
  rcases other with ⟨x, subscriber, notAsker⟩ | ⟨none_, authentic⟩
  · have stranger : (x == (a.q.src, sessionOf a.q)) = false := beq_false_of_ne notAsker
    rw [sessionOf] at stranger
    simp only [subscriber, stranger, Bool.not_false, if_true]
  · simp only [none_, authentic, Bool.not_true, Bool.not_false, if_true]

end

/-! ### Requests that are served -/

section
variable {q : Kdp} {s t : State}

theorem exec_sessionOpen_served (h : Accepted 0x10 q s t) :
    exec (.sessionOpen q) s = .next (conclude 0x10 q (sessionOf q) (serveSessionOpen (t.ask q) t)) :=
  congrArg Host.Outcome.next (receive_accepted h rfl)

theorem exec_sessionAuth_served (h : Accepted 0x11 q s t) :
    exec (.sessionAuth q) s = .next (conclude 0x11 q (sessionOf q) (serveSessionAuth (t.ask q) t)) :=
  congrArg Host.Outcome.next (receive_accepted h rfl)

theorem exec_sessionClose_served (h : Accepted 0x12 q s t) :
    exec (.sessionClose q) s = .next (conclude 0x12 q (sessionOf q) (serveSessionClose (t.ask q) t)) :=
  congrArg Host.Outcome.next (receive_accepted h rfl)

theorem exec_subscribe_served (h : Accepted 0x13 q s t) :
    exec (.subscribe q) s = .next (conclude 0x13 q (sessionOf q) (serveSubscribe (t.ask q) t)) :=
  congrArg Host.Outcome.next (receive_accepted h rfl)

theorem exec_eventAck_served (h : Accepted 0x21 q s t) :
    exec (.eventAck q) s = .next (conclude 0x21 q (sessionOf q) (serveEventAck (t.ask q) t)) :=
  congrArg Host.Outcome.next (receive_accepted h rfl)

end

/-! ### The time a session and an event stay unused (R572, R577) -/

theorem exec_sessionTimeout (s : State) (n : BitVec 16) : exec (.sessionTimeout n) s = execSessionTimeout n s := rfl
theorem exec_eventRetry (s : State) (mailbox : Bool) : exec (.eventRetry mailbox) s = execEventRetry mailbox s := rfl

section
variable {s : State} {mailbox : Bool} {r : EventRoute} {dest : Option (Nat × Nat)}
  (hr : r = if mailbox then s.kdps.mail else s.kdps.net) (hdest : dest = if mailbox then r.subscriber else s.netTarget)
include hr hdest

/-- No event waits, nobody receives it, the block does not talk, or the time is not over. -/
theorem exec_eventRetry_rests (rests : r.queue = [] ∨ dest = none ∨ s.nat Obj.lockstepState = 2 ∨ s.mode.talks = false ∨
    s.now < r.sent + ms (s.nat Obj.eventRetry)) : exec (.eventRetry mailbox) s = .next s := by
  subst hdest hr
  rw [exec_eventRetry, execEventRetry]
  dsimp only
  split
  · rename_i seq p rest to_ queue target
    have waits := (rests.resolve_left (by simp [queue])).resolve_left (by simp [target])
    rw [if_pos (by simpa [or_assoc] using waits)]
  · rfl

/-- Else the oldest event goes out again, by mailbox with its vector. -/
theorem exec_eventRetry_sends {seq dst ses : Nat} {p : Bytes} {rest : List (Nat × Bytes)} (queue : r.queue = (seq, p) :: rest)
    (target : dest = some (dst, ses)) (running : s.nat Obj.lockstepState ≠ 2) (talks : s.mode.talks = true)
    (due : r.sent + ms (s.nat Obj.eventRetry) ≤ s.now) :
    exec (.eventRetry mailbox) s = .next (if mailbox then
      sendVector mgmtChan 2047 (sendKdp true dst 0x20 0 ses 0 0 p { s with kdps := { s.kdps with mail := { r with sent := s.now } } })
      else sendKdp false dst 0x20 0 ses 0 0 p { s with kdps := { s.kdps with net := { r with sent := s.now } } }) := by
  subst hdest hr
  rw [exec_eventRetry, execEventRetry]
  simp only [queue, target, running, talks, Nat.not_lt.mpr due, decide_false, Bool.not_true, Bool.or_self, Bool.false_eq_true, if_false]
  cases mailbox <;> rfl

end

/-- Settles O48: an accepted request is served, by the role and the island for the sessions and by the route for the events. -/
theorem sessionsAndEvents : Obligations.SessionsAndEvents := by
  unfold Obligations.SessionsAndEvents
  refine ⟨?noRole, ?lockedOut, ?noVendor, ?openRefused, ?opens, ?authNone, ?authRefused, ?authDecides, ?close, ?timeoutNone, ?timeout,
    ?noRoute, ?routes, ?ackNet, ?ackMail, ?ackOther, ?netRests, ?mailRests, ?netSends, ?mailSends⟩
  case noRole =>
    intro s t q accepted wrong
    rw [exec_sessionOpen_served accepted, serveSessionOpen_noRole wrong]
  case lockedOut =>
    intro s t q accepted least most locked
    rw [exec_sessionOpen_served accepted, serveSessionOpen_lockedOut least most locked]
    rfl
  case noVendor =>
    intro s t q accepted vendor free off
    rw [exec_sessionOpen_served accepted, serveSessionOpen_noVendor vendor free off]
  case openRefused =>
    intro s t q accepted least most free vendor refused
    have may : (t.ask q).MayOpen t := ⟨least, most, free, vendor⟩
    rw [exec_sessionOpen_served accepted, serveSessionOpen_refused may refused] <;> rfl
  case opens =>
    intro s t u q x num nonce accepted least most free vendor island recorded room hnum hnonce hx hu
    have may : (t.ask q).MayOpen t := ⟨least, most, free, vendor⟩
    rw [exec_sessionOpen_served accepted, serveSessionOpen_opens may island recorded room hnum hnonce hx hu]
  case authNone =>
    intro s t q accepted missing
    rw [exec_sessionAuth_served accepted, serveSessionAuth_none missing]
  case authRefused =>
    intro s t q x accepted found refused
    rw [exec_sessionAuth_served accepted, serveSessionAuth_refused found refused] <;> rfl
  case authDecides =>
    intro s t q x accepted found island recorded
    rw [exec_sessionAuth_served accepted, serveSessionAuth_decides found island recorded] <;> rfl
  case close => exact fun s t q accepted => exec_sessionClose_served accepted
  case timeoutNone => intro s n missing; simp only [exec_sessionTimeout, execSessionTimeout, missing]
  case timeout => intro s n x found; simp only [exec_sessionTimeout, execSessionTimeout, found]
  case noRoute =>
    intro s t q accepted wrong
    rw [exec_subscribe_served accepted, serveSubscribe_noRoute wrong]
  case routes =>
    intro s t u q r accepted routes hr hu
    rw [exec_subscribe_served accepted, serveSubscribe_routes routes hr hu]
  case ackNet =>
    intro s t q accepted net mine
    rw [exec_eventAck_served accepted, serveEventAck_net (a := t.ask q) net mine]
    rfl
  case ackMail =>
    intro s t q accepted mail mine
    rw [exec_eventAck_served accepted, serveEventAck_mail (a := t.ask q) mail mine]
    rfl
  case ackOther =>
    intro s t q r accepted hr other
    rw [exec_eventAck_served accepted, serveEventAck_other (a := t.ask q) hr other]
    rfl
  case netRests => exact fun s rests => exec_eventRetry_rests rfl rfl rests
  case mailRests => exact fun s rests => exec_eventRetry_rests rfl rfl rests
  case netSends => exact fun s seq dst ses p rest queue target running talks due =>
    exec_eventRetry_sends (mailbox := false) rfl rfl queue target running talks due
  case mailSends => exact fun s seq dst ses p rest queue target running talks due =>
    exec_eventRetry_sends (mailbox := true) rfl rfl queue target running talks due

end Sys2Proof.Machine
end

section
/-! PROOFS. Addressing, packets that are not served, and the field network's link (R546 to R549, R552, R556, R559, R586). -/
namespace Sys2Proof.Machine

/-! ### ASSIGN_ADDRESS (R548, R549) -/

section
variable {a : Ask} {s : State}

/-- Bit 0 of FLAGS gives the address up, in the modes that may and with no lock. -/
theorem serveAssign_gives {u : State} (gives : bitAt (a.q.byte 1) 0 = true)
    (hu : u = (s.setReg Obj.nodeAddress 0).setReg Obj.addressSource 0) :
    serveAssign a s = Served.mk .silent
      (if s.addressLocked = true ∨ (s.mode ≠ .boot ∧ s.mode ≠ .configure ∧ s.mode ≠ .idleReady ∧ s.mode ≠ .maintenance) then s
       else driveEnumOut false { u with kdps := { u.kdps with addr := { u.kdps.addr with enumOutAt := none, assign := none } } })
      id none := by
  subst hu
  simp only [serveAssign, gives, if_true]
  by_cases stays : s.addressLocked = true ∨ (s.mode ≠ .boot ∧ s.mode ≠ .configure ∧ s.mode ≠ .idleReady ∧ s.mode ≠ .maintenance)
  · rw [if_pos stays, if_pos (by simpa [and_assoc] using stays)]
  · rw [if_neg stays, if_neg (by simpa [and_assoc] using stays)]

section
variable (takes : bitAt (a.q.byte 1) 0 = false)
include takes

/-- A node with a locked address answers to its own and lets others pass. -/
theorem serveAssign_locked (locked : s.addressLocked = true) :
    serveAssign a s = if s.nat Obj.nodeAddress = a.q.byte 0 then fails s ⟨0x16, a.q.byte 0⟩ else { answer := .silent, state := s } := by
  simp only [serveAssign, takes, locked, Bool.false_eq_true, if_false, if_true]

variable (unlocked : s.addressLocked = false)
include unlocked

/-- An enumerated node without address notes the one it is given. -/
theorem serveAssign_notes (unaddressed : s.nat Obj.nodeAddress = 0) (enumerated : s.kdps.addr.enumIn = true) (least : 1 ≤ a.q.byte 0)
    (most : a.q.byte 0 ≤ 30) :
    serveAssign a s = { answer := .silent, state := { s with kdps := { s.kdps with addr :=
      { s.kdps.addr with assign := some (a.q.byte 0, s.now + ms 2, a.q.seq.toNat, a.q.src, a.q.mailbox) } } } } := by
  simp only [serveAssign, takes, unlocked, unaddressed, enumerated, least, most, and_self, decide_true, Bool.and_self, Bool.false_eq_true,
    if_false, if_true]

theorem serveAssign_passes
    (passes : s.nat Obj.nodeAddress ≠ 0 ∨ s.kdps.addr.enumIn = false ∨ a.q.byte 0 = 0 ∨ 30 < a.q.byte 0) :
    serveAssign a s = { answer := .silent, state := s } := by
  simp only [serveAssign, takes, unlocked, Bool.false_eq_true, if_false]
  rw [if_neg]
  simp only [Bool.and_eq_true, decide_eq_true_eq]
  rintro ⟨⟨unaddressed, enumerated⟩, least, most⟩
  rcases passes with addressed | idle | zero | high
  · exact addressed unaddressed
  · exact Bool.noConfusion (enumerated.symm.trans idle)
  · exact absurd least (by rw [zero]; decide)
  · exact absurd most (Nat.not_le.mpr high)

end
end

theorem exec_assignAddress_served {q : Kdp} {s t : State} (h : Accepted 0x02 q s t) :
    exec (.assignAddress q) s = .next (conclude 0x02 q (sessionOf q) (serveAssign (t.ask q) t)) :=
  congrArg Host.Outcome.next (receive_accepted h rfl)

/-! ### The address noted, and enumeration (R546, R549) -/

theorem exec_addressTake (s : State) : exec .addressTake s = execAddressTake s := rfl
theorem exec_addressInUseSeen (s : State) (a : BitVec 8) : exec (.addressInUseSeen a) s = execAddressInUseSeen a s := rfl
theorem exec_enumOutAssert (s : State) : exec .enumOutAssert s = execEnumOutAssert s := rfl
theorem exec_enumInAssert (s : State) : exec .enumInAssert s = execEnumInAssert s := rfl

section
variable {s : State} {a : BitVec 8}

/-- The address another node is seen to hold is not taken. -/
theorem exec_addressInUseSeen_assigned {p : Nat × Nat × Nat × Nat × Bool} (unaddressed : s.nat Obj.nodeAddress = 0)
    (enumerated : s.kdps.addr.enumIn = true) (noted : s.kdps.addr.assign = some p) :
    exec (.addressInUseSeen a) s = .next (if p.1 = a.toNat then s.updAddr fun x => { x with assign := none } else s) := by
  simp only [exec_addressInUseSeen, execAddressInUseSeen, unaddressed, enumerated, noted, Option.any_some, decide_true, Bool.true_and,
    beq_iff_eq]

theorem exec_addressInUseSeen_rests
    (rests : s.nat Obj.nodeAddress ≠ 0 ∨ s.kdps.addr.enumIn = false ∨ s.kdps.addr.assign = none) :
    exec (.addressInUseSeen a) s = .next s := by
  rw [exec_addressInUseSeen, execAddressInUseSeen]
  rcases rests with addressed | idle | none_
  · simp [addressed]
  · simp [idle]
  · simp [none_]

end

/-! ### Packets that are not served (R556, R559) -/

section
variable {op : Nat} {q : Kdp} {s t : State} (reaches : Reaches op q s) (admitted : Admitted q s t)
include reaches admitted

/-- A packet of a known opcode that reaches the block outside recovery is checked for its length, its role, and whether it is a repeat. -/
theorem receive_checked (known : opcodeKnown op = true) :
    receive op q s = match lengthError op q.payload with
      | some n => if q.dst = 0xFF then t
          else refuse q op (sessionOf q) (if namesEntry op then q.index else 0) (if namesEntry op then q.sub else 0) ⟨0x06, n⟩ t
      | none => if t.roleOf q = 0 ∧ openService op q = false then
          refuse q op (sessionOf q) (if namesEntry op then q.index else 0) (if namesEntry op then q.sub else 0) ⟨0x12, 0⟩ t
        else match (if q.retry then t.kdps.kept.find? fun k => k.owner == q.owner && k.seq == q.seq.toNat else none) with
          | some k => reply q k.op k.session k.error k.payload t
          | none => conclude op q (sessionOf q) (service op (t.ask q) t) := by
  rw [receive_reaches reaches, serve_admitted admitted]
  simp only [execute, admitted_boot admitted, reaches.recovery, known, Bool.false_and, Bool.not_true, Bool.false_eq_true, if_false,
    Bool.and_eq_true, decide_eq_true_eq, Bool.not_eq_true']
  rfl

end

theorem exec_unknownOpcode (s : State) (q : Kdp) (op : BitVec 8) :
    exec (.unknownOpcode q op) s = .next (if opcodeKnown op.toNat then s else receive op.toNat q s) := rfl

/-! ### The link (R552, R586) -/

theorem exec_kdpMalformed (s : State) :
    exec .kdpMalformed s = .next (if s.mode.talks = true ∨ s.boot.recovery = true then s.count Obj.kdpMalformed else s) := by
  rw [show exec .kdpMalformed s = execKdpMalformed s from rfl]
  simp only [execKdpMalformed, Bool.or_eq_true]

theorem exec_fnLinkFault (s : State) : exec .fnLinkFault s = .next (if s.nat Obj.nodeAddress = 0 ∨ s.mode.talks = false then s
    else (s.updAddr fun a => { a with beacon := false }).raiseFault .fnLinkFault [] Kind.fnLinkFault 2 0 2 (islandOf 16 0)) := by
  rw [show exec .fnLinkFault s = execFnLinkFault s from rfl]
  simp only [execFnLinkFault, Bool.or_eq_true, decide_eq_true_eq, Bool.not_eq_true']

/-- Settles O49, by what an assignment finds at the node, by the instants of enumeration, and by the first check a packet fails. -/
theorem addressingAndMalformedPackets : Obligations.AddressingAndMalformedPackets := by
  unfold Obligations.AddressingAndMalformedPackets
  refine ⟨?notes, ?passes, ?locked, ?gives, ?takeNone, ?take, ?inUse, ?inUseRests, ?outNone, ?out, ?enumIn, ?length, ?noRole, ?repeated,
    fun _ _ => ⟨rfl, rfl, rfl, rfl, rfl, rfl, rfl⟩, ?unknown, ?known, exec_kdpMalformed, exec_fnLinkFault⟩
  case notes =>
    intro s t q accepted takes unlocked unaddressed enumerated least most
    rw [exec_assignAddress_served accepted, serveAssign_notes takes unlocked unaddressed enumerated least most]
    rfl
  case passes =>
    intro s t q accepted takes unlocked passes
    rw [exec_assignAddress_served accepted, serveAssign_passes takes unlocked passes]
    rfl
  case locked =>
    intro s t q accepted takes locked
    rw [exec_assignAddress_served accepted, serveAssign_locked takes locked]
    by_cases own : t.nat Obj.nodeAddress = q.byte 0
    · rw [if_pos own, if_pos (show t.nat Obj.nodeAddress = (t.ask q).q.byte 0 from own)]; rfl
    · rw [if_neg own, if_neg (show ¬t.nat Obj.nodeAddress = (t.ask q).q.byte 0 from own)]; rfl
  case gives =>
    intro s t q accepted gives
    rw [exec_assignAddress_served accepted, serveAssign_gives gives rfl]
    rfl
  case takeNone => intro s none_; simp only [exec_addressTake, execAddressTake, none_]
  case take => intro s addr due seq src mailbox noted; simp only [exec_addressTake, execAddressTake, noted]
  case inUse => exact fun s a p unaddressed enumerated noted => exec_addressInUseSeen_assigned unaddressed enumerated noted
  case inUseRests => exact fun s a rests => exec_addressInUseSeen_rests rests
  case outNone => intro s none_; simp only [exec_enumOutAssert, execEnumOutAssert, none_]
  case out =>
    intro s due armed
    simp only [exec_enumOutAssert, execEnumOutAssert, armed, Bool.and_eq_true, decide_eq_true_eq, bne_iff_ne, and_assoc]
  case enumIn =>
    rintro s _ rfl
    simp only [exec_enumInAssert, execEnumInAssert, beq_iff_eq]
  case length =>
    intro s t q op n reaches admitted known length
    rw [receive_checked reaches admitted known, length]
  case noRole =>
    intro s t q op reaches admitted known length role closed
    rw [receive_checked reaches admitted known, length]
    exact if_pos ⟨role, closed⟩
  case repeated =>
    intro s t q op k reaches admitted known length may retry kept
    rw [receive_checked reaches admitted known, length]
    have passes : ¬(t.roleOf q = 0 ∧ openService op q = false) := fun h => may.elim (· h.1) fun open_ => Bool.noConfusion (h.2.symm.trans open_)
    simp only [passes, retry, kept, if_false, if_true]
  case unknown =>
    intro s t q op unknown reaches admitted
    rw [exec_unknownOpcode, unknown, receive_unknown reaches admitted unknown]
    rfl
  case known => intro s q op known; rw [exec_unknownOpcode, known]; rfl

end Sys2Proof.Machine
end

section
/-! PROOFS. Time on the network (R581 to R583). -/
namespace Sys2Proof.Machine

/-! ### The commands by their meaning -/

theorem exec_ptpSync (s : State) (origin : Nat) : exec (.ptpSync origin) s = execPtpSync origin s := rfl
theorem exec_ptpDelayResp (s : State) (stamp : Nat) : exec (.ptpDelayResp stamp) s = execPtpDelayResp stamp s := rfl
theorem exec_ptpUnlock (s : State) : exec .ptpUnlock s = execPtpUnlock s := rfl
theorem exec_ptpPpsIn (s : State) (stamp : Nat) : exec (.ptpPpsIn stamp) s = execPtpPpsIn stamp s := rfl
theorem exec_ptpPpsOut (s : State) : exec .ptpPpsOut s = execPtpPpsOut s := rfl
theorem exec_ptpMasterSync (s : State) : exec .ptpMasterSync s = execPtpMasterSync s := rfl

section
variable {s : State}

/-! ### A Sync of the master (R581, R582) -/

theorem exec_ptpSync_rests {origin : Nat} (rests : s.nat Obj.ptpRole = 0 ∨ s.mode.talks = false) :
    exec (.ptpSync origin) s = .next s := by
  simp only [exec_ptpSync, execPtpSync, Bool.or_eq_true, decide_eq_true_eq, Bool.not_eq_true', rests, if_true]

theorem exec_ptpSync_heard {u : State} {origin : Nat} {offset : Int} (role : s.nat Obj.ptpRole ≠ 0) (talks : s.mode.talks = true)
    (hoffset : offset = (s.dt : Int) - origin - s.nat Obj.ptpPathDelay)
    (hu : u = discipline offset (ptpJudge offset ((s.setReg Obj.ptpOffset offset).updPtp fun p =>
      { p with port := 9, ms := (s.dt : Int) - origin }))) :
    exec (.ptpSync origin) s = .next ((u.updPtp fun p => { p with lastSync := u.now, t3 := some u.dt }).emit (.ptp 1 u.dt)) := by
  subst hu hoffset
  simp only [exec_ptpSync, execPtpSync, role, talks, decide_false, Bool.not_true, Bool.or_self, Bool.false_eq_true, if_false]

theorem exec_ptpDelayResp_asked {stamp t3 : Nat} (asked : s.kdps.ptp.t3 = some t3) :
    exec (.ptpDelayResp stamp) s = .next (if s.kdps.ptp.port = 9 then (s.updPtp fun p => { p with t3 := none }).setReg Obj.ptpPathDelay
      ((s.kdps.ptp.ms + ((stamp : Int) - t3)) / 2).toNat else s) := by
  simp only [exec_ptpDelayResp, execPtpDelayResp, asked, ne_eq, ite_not]

/-! ### The Sync of a master (R581) -/

/-- No other master is heard, and the own Sync's interval is over. -/
theorem exec_ptpMasterSync_sends (role : s.nat Obj.ptpRole = 2) (talks : s.mode.talks = true)
    (alone : s.kdps.ptp.port ≠ 9 ∨ s.kdps.ptp.lastSync + 8 * s.syncInterval ≤ s.now)
    (due : ∀ t, s.kdps.ptp.sentAt = some t → t + s.syncInterval ≤ s.now) :
    exec .ptpMasterSync s = .next ((s.updPtp fun p => { p with port := 6, sentAt := some s.now }).emit (.ptp 0 s.dt)) := by
  have free : (s.kdps.ptp.port != 9 || decide (s.kdps.ptp.lastSync + 8 * s.syncInterval ≤ s.now)) = true := by simpa using alone
  rw [exec_ptpMasterSync, execPtpMasterSync]
  cases sent : s.kdps.ptp.sentAt with
  | none => simp only [role, talks, free, decide_true, Bool.and_self, if_true]
  | some t => simp only [role, talks, free, due t sent, decide_true, Bool.and_self, if_true]

theorem exec_ptpMasterSync_rests (rests : s.nat Obj.ptpRole ≠ 2 ∨ s.mode.talks = false ∨
    (s.kdps.ptp.port = 9 ∧ s.now < s.kdps.ptp.lastSync + 8 * s.syncInterval) ∨
    (∃ t, s.kdps.ptp.sentAt = some t ∧ s.now < t + s.syncInterval)) : exec .ptpMasterSync s = .next s := by
  rw [exec_ptpMasterSync, execPtpMasterSync]
  rcases rests with role | silent | ⟨slave, heard⟩ | ⟨t, sent, early⟩
  · simp only [role, decide_false, Bool.false_and, Bool.false_eq_true, if_false]
  · simp only [silent, Bool.and_false, Bool.false_and, Bool.false_eq_true, if_false]
  · simp only [slave, Nat.not_le.mpr heard, bne_self_eq_false, decide_false, Bool.or_self, Bool.and_false, Bool.false_and,
      Bool.false_eq_true, if_false]
  · simp only [sent, Nat.not_le.mpr early, decide_false, Bool.and_false, Bool.false_eq_true, if_false]

end

/-- Settles O50, by the role and the mode of the block and by the instants of the Syncs. -/
theorem networkTime : Obligations.NetworkTime := by
  unfold Obligations.NetworkTime
  refine ⟨?rests, ?heard, ?asked, ?unasked, ?unlock, ?ppsIn, ?ppsOut, ?sends, ?waits⟩
  case rests => exact fun s origin rests => exec_ptpSync_rests rests
  case heard => exact fun s u origin offset role talks hoffset hu => exec_ptpSync_heard role talks hoffset hu
  case asked => exact fun s stamp t3 asked => exec_ptpDelayResp_asked asked
  case unasked => intro s stamp none_; simp only [exec_ptpDelayResp, execPtpDelayResp, none_]
  case unlock => intro s; simp only [exec_ptpUnlock, execPtpUnlock, Bool.and_eq_true, decide_eq_true_eq]
  case ppsIn => intro s stamp; simp only [exec_ptpPpsIn, execPtpPpsIn, Bool.not_eq_true', ← Bool.not_eq_true, ite_not]
  case ppsOut => intro s; simp only [exec_ptpPpsOut, execPtpPpsOut, Bool.and_eq_true, beq_iff_eq, and_assoc]
  case sends => exact fun s role talks alone due => exec_ptpMasterSync_sends role talks alone due
  case waits => exact fun s rests => exec_ptpMasterSync_rests rests

end Sys2Proof.Machine
end

section
/-! PROOFS. Commands of the security island (R547, R673 to R712). -/
namespace Sys2Proof.Machine

/-- A service with an error leaves the state, and one without has its effect. -/
theorem ite_isSome_eq {α : Type} (e : Option Nat) (s t : α) : (if e.isSome then s else t) = if e = none then t else s := by
  cases e <;> rfl

theorem exec_selfTestRun (s : State) : exec .selfTestRun s = .next (if islandError s = none then selfTestRun s else s) :=
  congrArg Host.Outcome.next (ite_isSome_eq ..)
theorem exec_zeroise (s : State) : exec .zeroise s = .next (if islandError s = none then zeroise 0 0 s else s) :=
  congrArg Host.Outcome.next (ite_isSome_eq ..)
theorem exec_vendorServiceEnable (s : State) (v : Bool) :
    exec (.vendorServiceEnable v) s = .next (if islandError s = none then s.setReg Obj.vendorServiceEnable (b2n v) else s) :=
  congrArg Host.Outcome.next (ite_isSome_eq ..)

/-- Settles O56: each command is its service where the service's own check finds no error, and nothing else. -/
theorem securityCommands : Obligations.SecurityCommands := by
  unfold Obligations.SecurityCommands
  refine ⟨?island, ?debugUnlock, ?roleKey, ?nodeLock, ?approved, ?debugLock, ?ownerHash, ?rollback, ?revoke, ?promote, ?auditAck⟩
  case island =>
    intro s f hf
    simp only [hf]
    exact ⟨exec_selfTestRun s, exec_zeroise s, fun v => exec_vendorServiceEnable s v⟩
  case debugUnlock => exact fun s => congrArg Host.Outcome.next (ite_isSome_eq ..)
  case roleKey => exact fun s r key => congrArg Host.Outcome.next (ite_isSome_eq ..)
  case nodeLock => exact fun s v => congrArg Host.Outcome.next (ite_isSome_eq ..)
  case approved => exact fun s => congrArg Host.Outcome.next (ite_isSome_eq ..)
  case debugLock => exact fun s => congrArg Host.Outcome.next (ite_isSome_eq ..)
  case ownerHash => exact fun s h => congrArg Host.Outcome.next (ite_isSome_eq ..)
  case rollback => exact fun s v => congrArg Host.Outcome.next (ite_isSome_eq ..)
  case revoke => exact fun s slot id => congrArg Host.Outcome.next (ite_isSome_eq ..)
  case promote => exact fun s seq => congrArg Host.Outcome.next (ite_isSome_eq ..)
  case auditAck => exact fun s seq => congrArg Host.Outcome.next (ite_isSome_eq ..)

end Sys2Proof.Machine
end

section
/-! PROOFS. Supplies, domains and rails (R604, R613, R618, R622, R625, R717, R723, R730). -/
namespace Sys2Proof.Machine

/-! ### The commands by their meaning -/

theorem exec_standbyInRange (s : State) (record : Bool) : exec (.standbyInRange record) s = execStandbyInRange record s := rfl
theorem exec_standbyOutOfRange (s : State) : exec .standbyOutOfRange s = execStandbyOutOfRange s := rfl
theorem exec_domainOn (s : State) (d : Fin 64) : exec (.domainOn d) s = execDomainOn d s := rfl
theorem exec_domainFault (s : State) (d : Fin 64) : exec (.domainFault d) s = execDomainFault d s := rfl
theorem exec_railFault (s : State) (r : Fin 8) : exec (.railFault r) s = execRailFault r s := rfl
theorem exec_railRegulating (s : State) (r : Fin 8) : exec (.railRegulating r) s = execRailRegulating r s := rfl
theorem exec_clusterOff (s : State) (k : Fin 16) : exec (.clusterOff k) s = execClusterOff k s := rfl

section
variable {s : State}

/-! ### Domains (R622) -/

section
variable {d : Fin 64}

theorem exec_domain_ramping (ramps : s.nat (Obj.domainState d) = 1) :
    exec (.domainOn d) s = .next (domainUp d (s.setReg (Obj.domainState d) 2)) ∧
    exec (.domainFault d) s =
      .next ((s.setReg (Obj.domainState d) 3).raiseFault .domainFault [d.val] Kind.domainFault 3 d 2 (islandOf 15 0)) := by
  simp only [exec_domainOn, exec_domainFault, execDomainOn, execDomainFault, ramps, if_true, and_self]

theorem exec_domain_settled (settled : s.nat (Obj.domainState d) ≠ 1) :
    exec (.domainOn d) s = .next s ∧ exec (.domainFault d) s = .next s := by
  simp only [exec_domainOn, exec_domainFault, execDomainOn, execDomainFault, settled, if_false, and_self]

end

/-! ### Rails (R625, R723) -/

theorem exec_railFault_rests {r : Fin 8} (rests : s.nat (Obj.railState r) ≠ 2) : exec (.railFault r) s = .next s := by
  simp only [exec_railFault, execRailFault, rests, ne_eq, not_false_eq_true, if_true]

/-- Any rail but the lamp rail halts the block. -/
theorem exec_railFault_halts {r : Fin 8} (regulates : s.nat (Obj.railState r) = 2) (other : r ≠ 7) :
    exec (.railFault r) s = .next (safeHalt 5 false (((s.setReg (Obj.railState r) 3).count (Obj.railFaults r)).raiseFault
      .railFault [r.val] Kind.railFault 4 r 2 (islandOf 15 0))) := by
  simp only [exec_railFault, execRailFault, regulates, other, ne_eq, not_true_eq_false, if_false]

/-- The lamp rail cuts the bands that are on. -/
theorem exec_railFault_lamps (regulates : s.nat (Obj.railState 7) = 2) :
    exec (.railFault 7) s = .next ((List.range 16).foldl (fun s b => if s.flag (Obj.bandEnable b) then disableBand b s else s)
      (((s.setReg (Obj.railState 7) 3).count (Obj.railFaults 7)).raiseFault .railFault [7] Kind.railFault 2 7 2 (islandOf 15 0))) := by
  have regulates' : s.nat (Obj.railState (7 : Fin 8).val) = 2 := regulates
  simp only [exec_railFault, execRailFault, regulates', ne_eq, not_true_eq_false, if_false, if_true]
  rfl

theorem exec_railRegulating_rests {r : Fin 8} (rests : s.nat (Obj.railState r) ≠ 1) : exec (.railRegulating r) s = .next s := by
  simp only [exec_railRegulating, execRailRegulating, rests, ne_eq, not_false_eq_true, if_true]

theorem exec_railRegulating_lamps (ramps : s.nat (Obj.railState 7) = 1) :
    exec (.railRegulating 7) s = .next (domainsFollow s.mode
      ((s.setReg (Obj.railState 7) 2).setReg (Obj.railVoltage 7) (s.nat (Obj.railSetpoint 7) / 2 : Nat))) := by
  have ramps' : s.nat (Obj.railState (7 : Fin 8).val) = 1 := ramps
  simp only [exec_railRegulating, execRailRegulating, ramps', ne_eq, not_true_eq_false, if_false, if_true]
  rfl

/-- During the start the next rail follows the one that was raised. -/
theorem exec_railRegulating_other {r : Fin 8} {u : State} (ramps : s.nat (Obj.railState r) = 1) (other : r ≠ 7)
    (hu : u = (s.setReg (Obj.railState r) 2).setReg (Obj.railVoltage r) (s.nat (Obj.railSetpoint r) / 2 : Nat)) :
    exec (.railRegulating r) s = .next (
      if s.mode = .sentinel ∧ s.boot.starting = true ∧ s.boot.rail = r.val then raiseRails u else u) := by
  subst hu
  simp only [exec_railRegulating, execRailRegulating, ramps, other, ne_eq, not_true_eq_false, if_false, Bool.and_eq_true, beq_iff_eq,
    decide_eq_true_eq, and_assoc]

/-! ### Slice clusters (R613) -/

/-- A cluster that is on in Scan or Calibrate, not needed, idle, and unused for 10 ms. -/
def State.clusterSpent (s : State) (k : Fin 16) : Prop :=
  (s.modeUnder = .scan ∨ s.modeUnder = .calibrate) ∧ s.nat (Obj.domainState (26 + k)) = 2 ∧ s.clusterNeeded k = false ∧
    ((List.range 4).all fun i => (s.slice (4 * k + i)).current.isNone && (s.slice (4 * k + i)).waits.isEmpty) = true ∧
    Table.get 0 s.power.clusterUsed k + ms 10 ≤ s.now

theorem exec_clusterOff_spent {k : Fin 16} (spent : s.clusterSpent k) :
    exec (.clusterOff k) s = .next (domainDown (26 + k) ((flushDomain (26 + k) s).setReg (Obj.domainState (26 + k)) 0)) := by
  obtain ⟨mode, on, unneeded, idle, due⟩ := spent
  have listed : (s.modeUnder == .scan || s.modeUnder == .calibrate) = true := by simpa using mode
  simp only [exec_clusterOff, execClusterOff, listed, on, unneeded, idle, due, decide_true, Bool.not_false, Bool.and_self, if_true]

theorem exec_clusterOff_stays {k : Fin 16} (stays : ¬s.clusterSpent k) : exec (.clusterOff k) s = .next s := by
  rw [exec_clusterOff, execClusterOff]
  refine congrArg Host.Outcome.next (if_neg fun spent => stays ?_)
  simp only [Bool.and_eq_true, Bool.or_eq_true, beq_iff_eq, decide_eq_true_eq, Bool.not_eq_true'] at spent
  obtain ⟨⟨⟨⟨mode, on⟩, unneeded⟩, idle⟩, due⟩ := spent
  exact ⟨mode, on, unneeded, by simpa using idle, due⟩

end

/-- Settles O52, by the state of the supply, the domain, the rail or the cluster that the command names. -/
theorem suppliesDomainsAndRails : Obligations.SuppliesDomainsAndRails := by
  unfold Obligations.SuppliesDomainsAndRails
  refine ⟨?supply, ?lost, ?ramping, ?settled, ?railRests, ?railHalts, ?lampRailFault, ?railStays, ?lampRail, ?rail, ?spent, ?needed⟩
  case supply =>
    intro s record
    simp only [exec_standbyInRange, execStandbyInRange, Bool.or_eq_true, Bool.and_eq_true, beq_iff_eq, and_assoc]
  case lost =>
    rintro s _ rfl
    exact exec_standbyOutOfRange s
  case ramping => exact fun s d ramps => exec_domain_ramping ramps
  case settled => exact fun s d settled => exec_domain_settled settled
  case railRests => exact fun s r rests => exec_railFault_rests rests
  case railHalts => exact fun s r regulates other => exec_railFault_halts regulates other
  case lampRailFault => exact fun s regulates => exec_railFault_lamps regulates
  case railStays => exact fun s r rests => exec_railRegulating_rests rests
  case lampRail => exact fun s ramps => exec_railRegulating_lamps ramps
  case rail => exact fun s u r ramps other hu => exec_railRegulating_other ramps other hu
  case spent => exact fun s k mode on unneeded idle due => exec_clusterOff_spent ⟨mode, on, unneeded, idle, due⟩
  case needed =>
    intro s k needed
    refine exec_clusterOff_stays ?_
    rintro ⟨mode, on, unneeded, idle, due⟩
    rcases needed with ⟨notScan, notCalibrate⟩ | off | needs | early | busy
    · exact mode.elim notScan notCalibrate
    · exact off on
    · exact Bool.noConfusion (needs.symm.trans unneeded)
    · exact absurd due (Nat.not_le.mpr early)
    · exact Bool.noConfusion (idle.symm.trans busy)

end Sys2Proof.Machine
end

section
/-! PROOFS. Voltage scaling, heat and the end of a halt (R616, R619, R627, R629 to R631, R723). -/
namespace Sys2Proof.Machine

/-! ### The commands by their meaning -/

theorem exec_avsEval (s : State) (slack : Int) : exec (.avsEval slack) s = execAvsEval slack s := rfl
theorem exec_avsDroop (s : State) (monitor : Nat) : exec (.avsDroop monitor) s = execAvsDroop monitor s := rfl
theorem exec_avsFallback (s : State) : exec .avsFallback s = execAvsFallback s := rfl
theorem exec_thermalWarn (s : State) (t : Int) : exec (.thermalWarn t) s = execThermalWarn t s := rfl
theorem exec_thermalShutdown (s : State) (t : Int) : exec (.thermalShutdown t) s = execThermalShutdown t s := rfl
theorem exec_motorEnableRelease (s : State) : exec .motorEnableRelease s = execMotorEnableRelease s := rfl

section
variable {s : State}

/-! ### The voltage loop (R627, R628) -/

section
variable {slack : Int}

theorem exec_avsEval_rests (rests : s.mode.talks = false ∨ (s.nat Obj.avsMode ≠ 0 ∧ s.loopDue 5 0 (us 10) = false)) :
    exec (.avsEval slack) s = .next s := by
  rw [exec_avsEval, execAvsEval]
  refine if_pos ?_
  simpa using rests

variable {u : State} (talks : s.mode.talks = true) (hu : u = (s.loopRan 5 0).setReg Obj.avsSlack (clampInt (-128) 127 slack))
include talks hu

/-- Without scaling the rail holds its fixed set point. -/
theorem exec_avsEval_fixed (fixed : s.nat Obj.avsMode = 0) :
    exec (.avsEval slack) s = .next (setAvsStatus false false false
      (setRail 0 (2 * u.nat Obj.avsFixed) { u with power := { u.power with avsHigh := 0, droopAt := none } })) := by
  subst hu
  rw [exec_avsEval, execAvsEval]
  simp only [talks, fixed, ne_eq, not_true_eq_false, decide_false, Bool.not_true, Bool.false_and, Bool.or_self, Bool.false_eq_true, if_false,
    if_true]

/-- With scaling a droop holds the loop; else the slack moves the set point against its target. -/
theorem exec_avsEval_scales {v : Int} {high : Nat} (scales : s.nat Obj.avsMode ≠ 0) (due : s.loopDue 5 0 (us 10) = true)
    (hv : v = u.reg Obj.avsSetpoint) (hhigh : high = u.power.avsHigh) :
    exec (.avsEval slack) s = .next (
      if u.power.droopAt.isSome = true then { u with power := { u.power with avsHigh := 0 } }
      else if slack < u.reg Obj.avsTarget - 2 then avsMove (v + 10) { u with power := { u.power with avsHigh := 0 } }
      else if u.reg Obj.avsTarget + 2 < slack then
        (if 100 ≤ high + 1 then avsMove (v - 5) { u with power := { u.power with avsHigh := 0 } }
         else { u with power := { u.power with avsHigh := high + 1 } })
      else avsMove v { u with power := { u.power with avsHigh := 0 } }) := by
  subst hv hhigh hu
  rw [exec_avsEval, execAvsEval]
  simp only [talks, scales, due, Bool.not_true, Bool.and_false, Bool.or_self, Bool.false_eq_true, if_false]

end

/-! ### A droop, and the way back (R629, R630) -/

theorem exec_avsDroop_rests {monitor : Nat} (rests : s.mode.talks = false ∨ s.nat Obj.avsMode = 0) :
    exec (.avsDroop monitor) s = .next s := by
  rw [exec_avsDroop, execAvsDroop]
  refine if_pos ?_
  simpa using rests

theorem exec_avsDroop_raises {u w x : State} {monitor v top raised : Nat} (talks : s.mode.talks = true) (scales : s.nat Obj.avsMode ≠ 0)
    (hv : v = s.nat Obj.avsSetpoint) (htop : top = min (2 * s.nat Obj.avsCeiling + 50) 1800) (hraised : raised = min (v + 50) top)
    (hu : u = { s with power := { s.power with
      avsHigh := 0, droops := latest 16 (s.power.droops ++ [⟨s.dt, v, raised, s.nat Obj.avsCeiling⟩]),
      droopAt := if 2 * s.nat Obj.avsCeiling < raised then some s.now else none } })
    (hw : w = setAvsStatus false false (decide (2 * s.nat Obj.avsCeiling < raised)) (setRail 0 raised (u.count Obj.avsDroops)))
    (hx : x = (if v < raised then w.raiseFault .avsDroop [monitor, v, raised] Kind.avsDroop 0 monitor 2 (islandOf 15 0) else w)) :
    exec (.avsDroop monitor) s = .next (
      if top ≤ v then x.raiseFault .avsMargin [monitor] Kind.avsMargin 2 monitor 2 (islandOf 15 0) else x) := by
  subst hx hw hu hraised htop hv
  rw [exec_avsDroop, execAvsDroop]
  simp only [talks, scales, decide_false, Bool.not_true, Bool.or_self, Bool.false_eq_true, if_false, decide_eq_true_eq]

theorem exec_avsFallback_rests (rests : s.power.droopAt = none ∨ s.nat Obj.avsMode = 0 ∨
    (∃ t, s.power.droopAt = some t ∧ s.now < t + ms 1 + us 10)) : exec .avsFallback s = .next s := by
  rw [exec_avsFallback, execAvsFallback]
  cases droop : s.power.droopAt with
  | none => rfl
  | some t =>
    refine congrArg Host.Outcome.next (if_pos ?_)
    simpa [droop] using rests

theorem exec_avsFallback_falls {u : State} {t v : Nat} (droop : s.power.droopAt = some t) (scales : s.nat Obj.avsMode ≠ 0)
    (due : t + ms 1 + us 10 ≤ s.now) (hv : v = s.nat Obj.avsSetpoint - 5)
    (hu : u = setAvsStatus false false (decide (2 * s.nat Obj.avsCeiling < v)) (setRail 0 v s)) :
    exec .avsFallback s = .next { u with power := { u.power with
      droopAt := if 2 * s.nat Obj.avsCeiling < v then some (u.now - ms 1) else none } } := by
  subst hu hv
  rw [exec_avsFallback, execAvsFallback]
  simp only [droop, scales, Nat.not_lt.mpr due, decide_false, Bool.or_self, Bool.false_eq_true, if_false, decide_eq_true_eq]

/-! ### Heat (R619) -/

/-- The warning is told where the temperature reaches its limit and was not above it. -/
theorem exec_thermalWarn_eq {u w : State} {t : Int} (hu : u = noteTj t s)
    (hw : w = { u with power := { u.power with warned := decide (u.reg Obj.tjWarnLimit ≤ t) } }) :
    exec (.thermalWarn t) s = .next (alarmEval (if u.reg Obj.tjWarnLimit ≤ t ∧ u.power.warned = false then
      w.raiseFault .thermalWarn [t] Kind.thermalWarn 1 0 2 (islandOf 15 0) else w)) := by
  subst hw hu
  simp only [exec_thermalWarn, execThermalWarn, Bool.and_eq_true, decide_eq_true_eq, Bool.not_eq_true']

/-! ### The end of a halt (R616) -/

theorem exec_motorEnableRelease_halted {u : State} {t : Nat} {late : Bool} (halted : s.power.haltAt = some t)
    (hlate : late = decide (t + ms 500 ≤ s.now))
    (hu : u = (List.range 96).foldl (fun s p => if s.tioFn p == 20 && (late || (s.motion (s.tioSource p)).vel == 0) then
      driveTio p false s.now s else s) s) :
    exec .motorEnableRelease s = .next (if late = true ∨ ((List.range 16).all fun m => (s.motion m).vel == 0) = true then
      { u with power := { u.power with haltAt := none } } else u) := by
  subst hu hlate
  simp only [exec_motorEnableRelease, execMotorEnableRelease, halted, Bool.or_eq_true]

end

/-- Settles O53, by the mode of the scaling and the time of the loop, by the limits of the temperature, and by the halt and the motions. -/
theorem voltageHeatAndHalt : Obligations.VoltageHeatAndHalt := by
  unfold Obligations.VoltageHeatAndHalt
  refine ⟨?rests, ?fixed, ?scales, ?droopRests, ?droop, ?fallbackRests, ?fallback, ?warn, ?shutdown, ?noHalt, ?release⟩
  case rests => exact fun s slack rests => exec_avsEval_rests rests
  case fixed => exact fun s u slack talks fixed hu => exec_avsEval_fixed talks hu fixed
  case scales => exact fun s u slack v high talks scales due hu hv hhigh => exec_avsEval_scales talks hu scales due hv hhigh
  case droopRests => exact fun s monitor rests => exec_avsDroop_rests rests
  case droop => exact fun s u w x monitor v top raised talks scales hv htop hraised hu hw hx =>
    exec_avsDroop_raises talks scales hv htop hraised hu hw hx
  case fallbackRests => exact fun s rests => exec_avsFallback_rests rests
  case fallback => exact fun s u t v droop scales due hv hu => exec_avsFallback_falls droop scales due hv hu
  case warn => exact fun s u w t hu hw => exec_thermalWarn_eq hu hw
  case shutdown =>
    rintro s _ t rfl
    exact exec_thermalShutdown s t
  case noHalt => intro s none_; simp only [exec_motorEnableRelease, execMotorEnableRelease, none_]
  case release => exact fun s u t late halted hlate hu => exec_motorEnableRelease_halted halted hlate hu

end Sys2Proof.Machine
end

section
/-! PROOFS. Resets and their causes (R618, R717, R718, R720, R726, R732, R734). -/
namespace Sys2Proof.Machine

/-! ### The commands by their meaning -/

theorem exec_perstAssert (s : State) : exec .perstAssert s = execPerstAssert s := rfl
theorem exec_perstDeassert (s : State) : exec .perstDeassert s = execPerstDeassert s := rfl

theorem exec_deviceReset (s : State) :
    exec .deviceReset s = .next (if s.mode.talks = true ∨ s.boot.recovery = true then deviceReset 4 s else s) := by
  rw [show exec .deviceReset s = execDeviceReset s from rfl]
  simp only [execDeviceReset, Bool.or_eq_true]

theorem exec_bootWatchdog (s : State) : exec .bootWatchdog s = .next (
    if s.mode = .boot ∧ s.boot.recovery = false ∧ s.bootStuck = false ∧ ms (s.nat Obj.bootWatchdog) ≤ s.now then
      deviceReset 6 (countAttempt s) else s) := by
  rw [show exec .bootWatchdog s = execBootWatchdog s from rfl]
  simp only [execBootWatchdog, Bool.and_eq_true, beq_iff_eq, Bool.not_eq_true', decide_eq_true_eq, and_assoc]

section
variable {s u : State}

/-! ### PE_PERST_N (R717, R718, R726) -/

theorem exec_perstAssert_held (held : s.host.perst = true) : exec .perstAssert s = .next s := by
  simp only [exec_perstAssert, execPerstAssert, held, if_true]

/-- The asserting edge reaches the host side, or the whole device. -/
theorem exec_perstAssert_edge (released : s.host.perst = false) (hu : u = { s with host := { s.host with perst := true } }) :
    exec .perstAssert s = .next (if s.mode = .off then u
      else if s.power.halted = true ∨ s.nat Obj.perstReach = 1 then deviceReset 3 u else hostReset (noteCause 2 u)) := by
  have sameReach : u.nat Obj.perstReach = s.nat Obj.perstReach := by rw [hu]; rfl
  rw [← sameReach]
  subst hu
  simp only [exec_perstAssert, execPerstAssert, released, Bool.false_eq_true, if_false, beq_iff_eq, Bool.or_eq_true, decide_eq_true_eq]

theorem exec_perstDeassert_released (released : s.host.perst = false) : exec .perstDeassert s = .next s := by
  simp only [exec_perstDeassert, execPerstDeassert, released, Bool.not_false, if_true]

/-- The end of PERST releases a wake that was asked for, and wakes the device where it is a wake source. -/
theorem exec_perstDeassert_edge {v : State} (held : s.host.perst = true) (hu : u = { s with host := { s.host with perst := false } })
    (hv : v = (if s.boot.wake then
      ({ u with boot := { u.boot with wake := false } } : State).emit (.pin .peWakeN 0 false u.now) else u)) :
    exec .perstDeassert s = .next (if bitAt (v.nat Obj.wakeSources) 0 then wakeUp true v else v) := by
  subst hv hu
  simp only [exec_perstDeassert, execPerstDeassert, held, Bool.not_true, Bool.false_eq_true, if_false]

end

/-- Settles O58, by the level of PERST, and by the mode in which each source resets the device. -/
theorem resetsAndTheirCauses : Obligations.ResetsAndTheirCauses := by
  unfold Obligations.ResetsAndTheirCauses
  refine ⟨?held, ?asserts, ?released, ?deasserts, exec_deviceReset, fun _ => rfl, exec_bootWatchdog, fun _ => rfl⟩
  case held => exact fun s held => exec_perstAssert_held held
  case asserts => exact fun s u released hu => exec_perstAssert_edge released hu
  case released => exact fun s released => exec_perstDeassert_released released
  case deasserts => exact fun s u v held hu hv => exec_perstDeassert_edge held hu hv

end Sys2Proof.Machine
end

section
/-! PROOFS. The boot (R608, R673, R674, R681, R682, R724, R732, R734). -/
namespace Sys2Proof.Machine

/-! ### The commands by their meaning -/

theorem exec_selfTestDone (s : State) (passed : Bool) : exec (.selfTestDone passed) s = execSelfTestDone passed s := rfl
theorem exec_bootSlotVerify (s : State) (slot : Fin 2) (c : SlotCheck) :
    exec (.bootSlotVerify slot c) s = execBootSlotVerify slot c s := rfl

theorem exec_bootRailTimeout (s : State) (r : Fin 8) : exec (.bootRailTimeout r) s = .next (
    if s.mode = .sentinel ∧ s.boot.starting = true ∧ s.boot.rail = r.val ∧ s.nat (Obj.railState r) = 1 then
      startEnds (failStage 2 r (rampDown s)) else s) := by
  rw [show exec (.bootRailTimeout r) s = execBootRailTimeout r s from rfl]
  simp only [execBootRailTimeout, Bool.and_eq_true, beq_iff_eq, decide_eq_true_eq, and_assoc]

section
variable {s : State}

/-! ### The self-test (R673, R674) -/

theorem exec_selfTestDone_rests {passed : Bool} (rests : s.mode.booted = false ∨ s.nat Obj.securityState = 2) :
    exec (.selfTestDone passed) s = .next s := by
  rw [exec_selfTestDone, execSelfTestDone]
  exact congrArg Host.Outcome.next (if_pos (by simpa using rests))

/-- From Boot on, an island not in ERROR takes the end of its tests. -/
theorem selfTest_taken (booted : s.mode.booted = true) (sound : s.nat Obj.securityState ≠ 2) :
    (!s.mode.booted || decide (s.nat Obj.securityState = 2)) = false := by
  rw [booted, decide_eq_false sound]
  rfl

theorem exec_selfTestDone_fails (booted : s.mode.booted = true) (sound : s.nat Obj.securityState ≠ 2) :
    exec (.selfTestDone false) s = .next (failWaiting (selfTestFails s)) := by
  simp only [exec_selfTestDone, execSelfTestDone, selfTest_taken booted sound, Bool.not_false, Bool.false_eq_true, if_false, if_true]

theorem exec_selfTestDone_untested (untested : s.nat Obj.securityState ≠ 0) : exec (.selfTestDone true) s = .next s := by
  rw [exec_selfTestDone, execSelfTestDone]
  simp only [Bool.not_true, Bool.false_eq_true, if_false, untested, ne_eq, not_false_eq_true, if_true, ite_self]

section
variable (booted : s.mode.booted = true) (tests : s.nat Obj.securityState = 0)
include booted tests

/-- In the boot the slots are now to be tried, and tampering that waited is answered. -/
theorem exec_selfTestDone_boot {u v : State} (boot : s.mode = .boot) (first : s.boot.tested = false)
    (hu : u = makeAttestation (tellTorn (applyHard (setStage 4 (s.setReg Obj.securityState 1)))))
    (hv : v = { u with boot := { u.boot with tested := true, toTry := u.slotOrder } }) :
    exec (.selfTestDone true) s = .next (if v.nat Obj.tamperState = 0 then v else tamperRespond (v.nat Obj.tamperState) v) := by
  subst hv hu
  have sound : s.nat Obj.securityState ≠ 2 := by rw [tests]; decide
  have inBoot : ((s.setReg Obj.securityState 1).mode == .boot && !(s.setReg Obj.securityState 1).boot.tested) = true := by
    simp [boot, first]
  rw [exec_selfTestDone, execSelfTestDone, if_neg (ne_true_of_eq_false (selfTest_taken booted sound))]
  simp only [tests, inBoot, ne_eq, not_true_eq_false, Bool.not_true, Bool.false_eq_true, if_false, if_true]

/-- After the boot the conditions are watched again. -/
theorem exec_selfTestDone_later (later : s.mode ≠ .boot ∨ s.boot.tested = true) :
    exec (.selfTestDone true) s = .next (alarmEval (watchConditions (s.setReg Obj.securityState 1))) := by
  have sound : s.nat Obj.securityState ≠ 2 := by rw [tests]; decide
  have notFirst : ((s.setReg Obj.securityState 1).mode == .boot && !(s.setReg Obj.securityState 1).boot.tested) = false := by
    rcases later with mode | tested
    · simp [mode]
    · simp [tested]
  rw [exec_selfTestDone, execSelfTestDone, if_neg (ne_true_of_eq_false (selfTest_taken booted sound))]
  simp only [tests, notFirst, ne_eq, not_true_eq_false, Bool.not_true, Bool.false_eq_true, if_false]

end

/-! ### The slots (R681, R682, R732) -/

section
variable {slot : Fin 2} {c : SlotCheck}

theorem exec_bootSlotVerify_rests (rests : s.mode ≠ .boot ∨ s.power.halted = true ∨ s.boot.tested = false ∨ s.boot.peony = true ∨
    s.boot.toTry.head? ≠ some slot.val) : exec (.bootSlotVerify slot c) s = .next s := by
  rw [exec_bootSlotVerify, execBootSlotVerify]
  refine if_pos ?_
  simpa [or_assoc] using rests

/-- The slot on trial is rejected for the first check it fails, or for its three failed boots, and else runs. -/
theorem exec_bootSlotVerify_tries (boot : s.mode = .boot) (running : s.power.halted = false) (tested : s.boot.tested = true)
    (noPeony : s.boot.peony = false) (turn : s.boot.toTry.head? = some slot.val) :
    exec (.bootSlotVerify slot c) s = .next (match slotFails c s with
      | some k => rejectSlot slot k s
      | none => if 3 ≤ s.attempts slot then rejectSlot slot 5 s else runSlot slot c s) := by
  rw [exec_bootSlotVerify, execBootSlotVerify, if_neg (by simp [boot, running, tested, noPeony, turn])]
  cases slotFails c s with
  | some k => rfl
  | none => by_cases worn : 3 ≤ s.attempts slot <;> simp only [worn, if_true, if_false]

end
end

/-- Settles O59, by the rail being raised, by the state of the island, and by the first check of the slot on trial. -/
theorem bootSequence : Obligations.BootSequence := by
  unfold Obligations.BootSequence
  refine ⟨exec_bootRailTimeout, ?rests, ?fails, ?untested, ?boot, ?later, ?slotRests, ?slotTries⟩
  case rests => exact fun s passed rests => exec_selfTestDone_rests rests
  case fails => exact fun s booted sound => exec_selfTestDone_fails booted sound
  case untested => exact fun s untested => exec_selfTestDone_untested untested
  case boot => exact fun s u v boot tests first booted hu hv => exec_selfTestDone_boot booted tests boot first hu hv
  case later => exact fun s later booted tests => exec_selfTestDone_later booted tests later
  case slotRests => exact fun s slot c rests => exec_bootSlotVerify_rests rests
  case slotTries =>
    intro s slot c boot running tested noPeony turn
    rw [exec_bootSlotVerify_tries boot running tested noPeony turn] <;> rfl

end Sys2Proof.Machine
end

section
/-! PROOFS. The controllers' redundancy (R646 to R650). -/
namespace Sys2Proof.Machine

/-! ### The commands by their meaning -/

theorem exec_tmrDisagree (s : State) (copy : Fin 3) : exec (.tmrDisagree copy) s = execTmrDisagree copy s := rfl
theorem exec_tmrResyncDone (s : State) : exec .tmrResyncDone s = execTmrResyncDone s := rfl
theorem exec_lockstepMismatch (s : State) : exec .lockstepMismatch s = execLockstepMismatch s := rfl
theorem exec_takeoverResume (s : State) (pass0 pass1 : Bool) :
    exec (.takeoverResume pass0 pass1) s = execTakeoverResume pass0 pass1 s := rfl
theorem exec_checkpoint (s : State) : exec .checkpoint s = execCheckpoint s := rfl

section
variable {s : State}

/-! ### The copies of the timing island (R646 to R648) -/

section
variable {copy : Fin 3}

theorem exec_tmrDisagree_known (known : s.dep.resync = some copy.val ∨ s.dep.retiredCopy = some copy.val) :
    exec (.tmrDisagree copy) s = .next s := by
  simp only [exec_tmrDisagree, execTmrDisagree, Bool.or_eq_true, beq_iff_eq, known, if_true]

/-- A second copy that disagrees leaves no majority. -/
theorem exec_tmrDisagree_second (notResync : s.dep.resync ≠ some copy.val) (notRetired : s.dep.retiredCopy ≠ some copy.val)
    (second : s.dep.resync ≠ none ∨ s.dep.retiredCopy ≠ none) :
    exec (.tmrDisagree copy) s = .next (safeHalt 1 true (s.report Kind.tmrDisagree 4 copy 0 (islandOf 0 0))) := by
  simp only [exec_tmrDisagree, execTmrDisagree, Bool.or_eq_true, beq_iff_eq, notResync, notRetired, or_self, Option.isSome_iff_ne_none,
    second, if_false, if_true]

section
variable (noResync : s.dep.resync = none) (noRetired : s.dep.retiredCopy = none)
include noResync noRetired

/-- The only copy that disagrees is retired the third time within an hour, and else resynchronised. -/
theorem exec_tmrDisagree_first :
    exec (.tmrDisagree copy) s = .next (if 2 ≤ (s.recentResyncs.filter fun p => p.1 == copy.val).length then retireCopy copy s
      else resyncCopy copy s) := by
  simp only [exec_tmrDisagree, execTmrDisagree, noResync, noRetired, Option.isSome_none, Bool.or_self, beq_iff_eq, reduceCtorEq,
    Bool.false_eq_true, if_false]

end
end

theorem exec_tmrResyncDone_eq : exec .tmrResyncDone s = .next (if s.dep.resync = none then s
    else ({ s with dep := { s.dep with resync := none } } : State).setReg Obj.tmrState 0) := by
  simp only [exec_tmrResyncDone, execTmrResyncDone, Option.isNone_iff_eq_none]

/-! ### The lockstep cores (R649, R650) -/

theorem exec_takeoverResume_rests {pass0 pass1 : Bool} (rests : s.dep.mismatchAt = none ∨ s.nat Obj.lockstepState ≠ 2 ∨
    (∃ t, s.dep.mismatchAt = some t ∧ s.now < t + ms 5)) : exec (.takeoverResume pass0 pass1) s = .next s := by
  cases mismatch : s.dep.mismatchAt with
  | none => simp only [exec_takeoverResume, execTakeoverResume, mismatch]
  | some t =>
    have waits : (decide (s.nat Obj.lockstepState ≠ 2) || decide (s.now < t + ms 5)) = true := by simpa [mismatch] using rests
    simp only [exec_takeoverResume, execTakeoverResume, mismatch, waits, if_true]

/-- After the self-tests the cores that pass resume, with the packets that waited. -/
theorem exec_takeoverResume_due {u w : State} {pass0 pass1 : Bool} {t : Nat} (mismatch : s.dep.mismatchAt = some t)
    (takeover : s.nat Obj.lockstepState = 2) (due : t + ms 5 ≤ s.now)
    (hu : u = pairCores pass0 pass1 { s with dep := { s.dep with mismatchAt := none } }) (hw : w = notePools (switchDomain u.mode u 51)) :
    exec (.takeoverResume pass0 pass1) s = .next (if w.nat Obj.lockstepState = 2 then w
      else w.kdps.waiting.foldl (fun (s : State) (x : Nat × Kdp) => receive x.1 x.2 s) { w with kdps := { w.kdps with waiting := [] } }) := by
  rw [hw, hu]
  simp only [exec_takeoverResume, execTakeoverResume, mismatch, takeover, Nat.not_lt.mpr due, ne_eq, not_true_eq_false, decide_false,
    Bool.or_self, Bool.false_eq_true, if_false]

end

/-- Settles O54, by how many copies disagree and how often, and by the state and the time of the takeover. -/
theorem controllersAgree : Obligations.ControllersAgree := by
  unfold Obligations.ControllersAgree
  refine ⟨?known, ?second, ?resync, ?retire, fun _ => exec_tmrResyncDone_eq, ?mismatch, ?rests, ?resumes, ?checkpoint⟩
  case known => exact fun s copy known => exec_tmrDisagree_known known
  case second => exact fun s copy notResync notRetired second => exec_tmrDisagree_second notResync notRetired second
  case resync =>
    rintro s copy _ noResync noRetired rfl seldom
    exact (exec_tmrDisagree_first noResync noRetired).trans (congrArg Host.Outcome.next (if_neg (Nat.not_le.mpr seldom)))
  case retire =>
    rintro s copy _ noResync noRetired rfl often
    exact (exec_tmrDisagree_first noResync noRetired).trans (congrArg Host.Outcome.next (if_pos often))
  case mismatch =>
    intro s
    simp only [exec_lockstepMismatch, execLockstepMismatch, Bool.or_eq_true, Bool.not_eq_true', decide_eq_true_eq]
  case rests => exact fun s pass0 pass1 rests => exec_takeoverResume_rests rests
  case resumes => exact fun s u w pass0 pass1 t mismatch takeover due hu hw => exec_takeoverResume_due mismatch takeover due hu hw
  case checkpoint =>
    intro s
    simp only [exec_checkpoint, execCheckpoint, Bool.or_eq_true, Bool.not_eq_true', decide_eq_true_eq, or_assoc]

end Sys2Proof.Machine
end

section
/-! PROOFS. Seals, tamper and the sandbox (R694 to R700, R704, R708 to R710, R714). -/
namespace Sys2Proof.Machine

/-! ### The commands by their meaning -/

theorem exec_sealLineRead (s : State) (st : Fin 64) : exec (.sealLineRead st) s = execSealLineRead st s := rfl
theorem exec_sealBlockClose (s : State) : exec .sealBlockClose s = execSealBlockClose s := rfl
theorem exec_sealIssued (s : State) : exec .sealIssued s = execSealIssued s := rfl
theorem exec_tamperDetected (s : State) (inputs : BitVec 4) (sensors : BitVec 8) :
    exec (.tamperDetected inputs sensors) s = execTamperDetected inputs sensors s := rfl
theorem exec_sandboxViolation (s : State) : exec .sandboxViolation s = execSandboxViolation s := rfl
theorem exec_zeroised (s : State) : exec .zeroised s = execZeroised s := rfl

section
variable {s : State}

/-! ### The next line of a page to be sealed (R694, R695, R700) -/

section
variable {st : Fin 64}

/-- The page whose lines are read back: the one in work, or the earliest that is to be sealed. -/
def State.sealPage (s : State) (st : Nat) (work : Option SealPage) : Option PageRec :=
  match work with
  | some w => (s.toHash st).find? fun (p : PageRec) => p.number == w.number
  | none => earliestPage (s.toHash st)

/-- What the engines hash of a slot that was read back (R695): its tag, and its bytes where it holds any. -/
def sealedLine (x : RingSlot) : Bytes :=
  if x.undef.isSome then (List.range 32).map x.byte else (List.range 32).map x.byte ++ padTo 32 x.bytes

/-- The engines of a stream work on a page, or on none. -/
def State.setHashing (s : State) (st : Nat) (work : Option SealPage) : State :=
  { s with sec := { s.sec with hashing := Table.set none s.sec.hashing st work } }

/-- The engines go on with page `p`, whose hashes so far are in `w`. -/
def sealNextLine (st : Nat) (p : PageRec) (w : SealPage) (s : State) : State :=
  if p.opened = false ∧ p.firstLine + p.lines + p.dropped ≤ w.next then queueSeal st p w.hashes s
  else if (s.ring st).pageNext ≤ w.next then s
  else if s.lineDropped st p w.next then s.setHashing st (some { w with next := w.next + 1 })
  else match s.slotOf st w.next with
    | none => sealFailed st p.number (s.setHashing st none)
    | some x => s.setHashing st (some { w with next := w.next + 1, hashes := w.hashes ++ (Config.sha384 (sealedLine x)).take 48 })

theorem exec_sealLineRead_idle (idle : s.sealPage st (Table.get none s.sec.hashing st.val) = none) :
    exec (.sealLineRead st) s = .next (s.setHashing st none) := by
  rw [exec_sealLineRead, execSealLineRead]
  cases work : Table.get none s.sec.hashing st.val with
  | none =>
    rw [work] at idle
    simp only [show earliestPage (s.toHash st) = none from idle]
    rfl
  | some w =>
    rw [work] at idle
    simp only [show ((s.toHash st).find? fun (p : PageRec) => p.number == w.number) = none from idle]
    rfl

theorem exec_sealLineRead_page {p : PageRec} (page : s.sealPage st (Table.get none s.sec.hashing st.val) = some p) :
    exec (.sealLineRead st) s =
      .next (sealNextLine st p ((Table.get none s.sec.hashing st.val).getD ⟨p.number, p.firstLine, []⟩) s) := by
  rw [exec_sealLineRead, execSealLineRead, sealNextLine]
  cases work : Table.get none s.sec.hashing st.val with
  | none =>
    rw [work] at page
    simp only [show earliestPage (s.toHash st) = some p from page, Bool.and_eq_true, Bool.not_eq_true', decide_eq_true_eq]
    rfl
  | some w =>
    rw [work] at page
    simp only [show ((s.toHash st).find? fun (p : PageRec) => p.number == w.number) = some p from page, Bool.and_eq_true,
      Bool.not_eq_true', decide_eq_true_eq]
    rfl

end

/-! ### Blocks (R698, R699) -/

theorem exec_sealIssued_rests (rests : s.sec.closedBlocks = [] ∨ s.sec.attest = none ∨ s.sec.withheld = true ∨
    s.nat Obj.securityState ≠ 1 ∨ (s.sec.sealIndex = 0 ∧ s.auditRoom = false)) : exec .sealIssued s = .next s := by
  rw [exec_sealIssued, execSealIssued]
  cases blocks : s.sec.closedBlocks with
  | nil => rfl
  | cons b rest =>
    cases attest : s.sec.attest with
    | none => rfl
    | some g =>
      have refused : (s.sec.withheld || decide (s.nat Obj.securityState ≠ 1) || decide (s.sec.sealIndex = 0) && !s.auditRoom) = true := by
        simpa [blocks, attest, or_assoc] using rests
      simp only [refused, if_true]

theorem exec_sealIssued_issues {t u : State} {b : List SealEntry} {rest : List (List SealEntry)} {g : Nat} {bytes prev : Bytes}
    (blocks : s.sec.closedBlocks = b :: rest) (attest : s.sec.attest = some g) (free : s.sec.withheld = false)
    (operational : s.nat Obj.securityState = 1) (room : s.sec.sealIndex ≠ 0 ∨ s.auditRoom = true)
    (ht : t = if s.sec.sealIndex = 0 then audit 0x0F .device 0 0 0 (attestKeyBytes g) false s else s)
    (hprev : prev = if s.sec.sealIndex = 0 then t.sec.lastChain else t.sec.prevHash) (hbytes : bytes = sealBlock t g b prev)
    (hu : u = { t with sec := { t.sec with closedBlocks := rest, blocks := ((s.sec.sealIndex, bytes) :: t.sec.blocks).take 1024,
                                           sealIndex := s.sec.sealIndex + 1, prevHash := Config.sha384 bytes } }) :
    exec .sealIssued s = .next (((b.foldl (fun s' e => updRecord e.stream e.page
      (fun p => { p with digest := e.digest, sealIndex := s.sec.sealIndex, sealed := true }) s') u).setReg
        Obj.sealLastIndex s.sec.sealIndex).raise .sealIssued [s.sec.sealIndex, b.length]) := by
  have taken : (s.sec.withheld || decide (s.nat Obj.securityState ≠ 1) || decide (s.sec.sealIndex = 0) && !s.auditRoom) = false := by
    simpa [free, operational, or_iff_not_imp_left] using room
  subst hu hbytes hprev ht
  simp only [exec_sealIssued, execSealIssued, blocks, attest, taken, Bool.false_eq_true, if_false]

/-! ### Tamper and zeroisation (R704, R708, R709) -/

theorem exec_tamperDetected_eq {u : State} {inputs : BitVec 4} {sensors : BitVec 8} {bits : Nat}
    (hbits : bits = sumNat (((List.range 4).filter fun i => inputs.getLsbD i && bitAt (s.nat (Obj.tamperConfig i)) 15).map fun i => 2 ^ i) +
      512 * (sensors.toNat % 8))
    (hu : u = ({ s with sec := { s.sec with tamperIn := inputs.toNat } } : State).setReg Obj.tamperState
      (s.nat Obj.tamperState ||| bits : Nat)) :
    exec (.tamperDetected inputs sensors) s = .next (if s.mode = .off ∨ bits = 0 then s
      else if s.mode = .sentinel then wakeUp false u
      else if s.mode = .boot ∧ s.boot.tested = false then u
      else tamperRespond bits u) := by
  subst hu hbits
  simp only [exec_tamperDetected, execTamperDetected, Bool.or_eq_true, Bool.and_eq_true, beq_iff_eq, Bool.not_eq_true', decide_eq_true_eq]
  rfl

theorem exec_zeroised_nil (finished : s.sec.zeroising = []) : exec .zeroised s = .next s := by
  simp only [exec_zeroised, execZeroised, finished]

theorem exec_zeroised_cons {u : State} {t : Nat} {rest : List Nat} (erased : s.sec.zeroising = t :: rest)
    (hu : u = { s with sec := { s.sec with zeroising := rest } }) : exec .zeroised s =
      .next ((audit 0x0C .device 0 0 0 (leBytes 1 t ++ leBytes 2 (u.sec.nextGeneration - 1)) true u).raise .zeroised [t]) := by
  subst hu
  simp only [exec_zeroised, execZeroised, erased]

end

/-- Settles O57, by the page and the slot of a seal's next line, the block to be signed, and the mode where tamper is seen. -/
theorem sealsTamperAndSandbox : Obligations.SealsTamperAndSandbox := by
  unfold Obligations.SealsTamperAndSandbox
  refine ⟨?idle, ?line, fun _ => rfl, fun _ => exec_sealIssued_rests, ?issues, ?tamper, exec_tamperClear, ?sandbox,
    fun _ => exec_zeroised_nil, fun _ _ _ _ erased hu => exec_zeroised_cons erased hu⟩
  case idle => exact fun s st idle => exec_sealLineRead_idle idle
  case line =>
    rintro s st _ _ p here line rfl page rfl hhere hline
    obtain rfl : here = fun x => s.setHashing st (some x) := funext hhere
    obtain rfl : line = sealedLine := funext hline
    exact exec_sealLineRead_page page
  case issues =>
    rintro s t u b rest g _ bytes prev blocks attest free operational rfl room ht hprev hbytes hu
    exact exec_sealIssued_issues blocks attest free operational room ht hprev hbytes hu
  case tamper => exact fun s u inputs sensors bits hbits hu => exec_tamperDetected_eq hbits hu
  case sandbox => exact fun s => rfl

end Sys2Proof.Machine
end
